-- ==== Sys2Proof/Word.lean ====
section
/-! DEFINITION. The word types of the Celux M9: bytes, the register widths, and the eight-word
commands of the engine queues (R24, R110). Addresses and counts are natural numbers. -/
namespace Sys2Proof

/-- One byte of memory. -/
abbrev Byte := BitVec 8
/-- A 32-bit register. -/
abbrev W32 := BitVec 32
/-- A 64-bit register, and one word of a command (R110). -/
abbrev W64 := BitVec 64
/-- A 256-byte flit or any other run of bytes, lowest address first (R24). -/
abbrev Bytes := List Byte

end Sys2Proof
end

