-- ==== Sys2Proof/Machine/Bits.lean ====
section
/-! DEFINITION. Bit fields, two's complement, byte order and integer rounding helpers that every chapter uses
(R13, R24, R28). -/
namespace Sys2Proof.Machine

/-- Bits `hi` down to `lo` of a natural number, as an unsigned value: `x[hi:lo]` of R13. -/
def bits (x hi lo : Nat) : Nat := (x >>> lo) % 2 ^ (hi + 1 - lo)

/-- Bit `i` of a natural number. -/
def bit (x i : Nat) : Bool := x.testBit i

/-- A field of a 64-bit word as a number. -/
def fld (w : W64) (hi lo : Nat) : Nat := bits w.toNat hi lo

/-- A one-bit field of a 64-bit word. -/
def flag (w : W64) (i : Nat) : Bool := w.toNat.testBit i

/-- A `Bool` as the number 0 or 1. -/
def b2n (b : Bool) : Nat := if b then 1 else 0

/-- `signed` of R31: an `n`-bit value read as two's complement. -/
def signed (n v : Nat) : Int :=
  let u := v % 2 ^ n
  if n = 0 then 0 else if u < 2 ^ (n - 1) then (u : Int) else (u : Int) - 2 ^ n

/-- The low `n` bits of an integer, the inverse of `signed` on its range. -/
def toBits (n : Nat) (v : Int) : Nat := (v % (2 ^ n : Nat)).toNat

/-- Little-endian bytes of a number (R24). -/
def leBytes : Nat → Nat → Bytes
  | 0, _ => []
  | n + 1, v => BitVec.ofNat 8 v :: leBytes n (v / 256)

/-- The number that little-endian bytes hold (R24). -/
def fromLe : Bytes → Nat
  | [] => 0
  | b :: r => b.toNat + 256 * fromLe r

/-- The number held by `n` bytes of `l` from index `i`; missing bytes are 0. -/
def leAt (l : Bytes) (i n : Nat) : Nat := fromLe ((l.drop i).take n)

/-- `l` cut or padded with zero bytes to length `n`. -/
def padTo (n : Nat) (l : Bytes) : Bytes := (l ++ List.replicate n 0).take n

/-- Ceiling of a division. -/
def cdiv (a b : Nat) : Nat := (a + b - 1) / b

/-- 2 to an integer power. -/
def pow2 (e : Int) : Rat := if 0 ≤ e then ((2 ^ e.toNat : Nat) : Rat) else mkRat 1 (2 ^ (-e).toNat)

/-- The floor of log2 of `p / d`, for positive `p` and `d`. -/
def flog2Nat (p d : Nat) : Int :=
  let g : Int := (Nat.log2 p : Int) - (Nat.log2 d : Int)
  let ge : Bool := if 0 ≤ g then decide (d * 2 ^ g.toNat ≤ p) else decide (d ≤ p * 2 ^ (-g).toNat)
  if ge then g else g - 1

/-- The floor of log2 of a positive rational. -/
def flog2 (m : Rat) : Int := flog2Nat m.num.natAbs m.den

/-- `rne` of R28: the nearest integer, an exact tie to the even one. -/
def rne (x : Rat) : Int :=
  let f := x.floor
  let d := x - f
  if d > 1 / 2 then f + 1
  else if d < 1 / 2 then f
  else if f % 2 = 0 then f else f + 1

/-- A rational clamped to a closed range. -/
def clampRat (x lo hi : Rat) : Rat := if x < lo then lo else if x > hi then hi else x

/-- `clamp` to a closed range. -/
def clampInt (x lo hi : Int) : Int := if x < lo then lo else if x > hi then hi else x

/-- The even parity bit of a number: true when the count of its ones is odd. -/
def oddOnes : Nat → Nat → Bool
  | 0, _ => false
  | n + 1, v => xor (v.testBit n) (oddOnes n v)

end Sys2Proof.Machine
end

