-- ==== Sys2Proof/Machine/Ed.lean ====
section
/-! DEFINITION. The Edven scalar instructions of the control cores (R281, R282), grouped by encoding format. -/
namespace Sys2Proof.Machine

/-- A scalar instruction. Fields are those of R281; `f` is the place of the mnemonic in its row of R282. -/
inductive Ed where
  /-- ADD to MAX: FN 0x000 to 0x011 of opcode 0x00. -/
  | alu (f : Fin 18) (x y z : Fin 32)
  /-- ADDI, ANDI, ORI, XORI, SLLI, SRLI, SRAI, LUI, SHLORI, SLTI: opcodes 0x01 to 0x0A. -/
  | imm (f : Fin 10) (x y : Fin 32) (i : Fin 65536)
  /-- LD8U, LD16U, LD32U, LD64, LD8S, LD16S, LD32S: opcodes 0x10 to 0x16. -/
  | ld (f : Fin 7) (x y : Fin 32) (i : Fin 65536)
  /-- ST8, ST16, ST32, ST64: opcodes 0x18 to 0x1B. -/
  | st (f : Fin 4) (x y : Fin 32) (i : Fin 65536)
  /-- BEQ, BNE, BLT, BGE, BLTU, BGEU: opcodes 0x20 to 0x25. -/
  | br (f : Fin 6) (x y : Fin 32) (i : Fin 65536)
  | jal (o : Fin 67108864)
  | j (o : Fin 67108864)
  | jr (x y : Fin 32)
  | loop (n : Fin 4) (y : Fin 32) (len : Fin 65536)
  | loopi (n : Fin 4) (c : Fin 256) (len : Fin 65536)
  | lcset (n : Fin 4) (y : Fin 32)
  | lcget (x : Fin 32) (n : Fin 4)
  /-- Opcode 0x38 with an FN of R284. -/
  | fp (f : Fin 28) (x y z : Fin 32)
  /-- FENCE, DCLEAN, DINV, IINV, END, BRK, RDCYC, NOP: FN 0x00 to 0x07 of opcode 0x3C. -/
  | sys (f : Fin 8) (x y : Fin 32)
  /-- Opcode 0x3D with an FN of R282: PUSH 0x00, PUSHM 0x01, QFREE 0x02, SSIG 0x08, SWAIT 0x09, SREAD 0x0A, SSET 0x0B, PHASE 0x10,
  SCLAIM 0x18, RND 0x19, VOP 0x20. -/
  | que (f : Fin 33) (x y : Fin 32) (i : Fin 256)
  | top (x : Fin 32) (k : Fin 2097152)
  deriving DecidableEq, Repr

end Sys2Proof.Machine
end

