-- ==== Sys2Proof/Config.lean ====
section
/-! DEFINITION. What the fuses and the implementation fix (Config), and the values that the spec leaves open. A constant
without a body is free: nothing can evaluate it and no statement rests on a value of it. -/
namespace Sys2Proof.Config

/-- The fused power ceiling in watts (R451: 1,200 W). -/
def powerCeiling : Nat := 1200
/-- The fused clock ceiling in MHz (R5: 1.3 GHz). -/
def clockMHz : Nat := 1300
/-- The fused trip points in °C: die 110, stack 105 (R404). -/
def tripDie : Nat := 110
def tripStack : Nat := 105

/-- The fused serial number (R408): free. -/
opaque serial : W64
/-- Which of the two parts of R1 the module is: CXM9-384LE, or CXM9-384L. Free. -/
opaque partLE : Bool
/-- The fused part number in ASCII, bytes 0 to 7 and 8 to 15, padded with zeros (R1, R391, R419). -/
def partNumber (i : Nat) : W64 := if i = 0 then 0x3438332D394D5843 else if partLE then 0x454C else 0x4C
/-- The fused root-key hash, six words (R389, R419): free. -/
opaque rootKeyHash : Nat → W64

/-- The ROM version (R391): free. -/
opaque romVersion : W64

/-- The three certificates of production test (R390), in DER: the device's, the product CA's and the root's. Free. -/
opaque certificate : Nat → List Byte
/-- Does a configuration image authenticate under a stored chain (R411), as its certificate and signature say? Free. -/
opaque authentic : List Byte → List Byte → Bool

/-- The signature of this module's identity key over a digest (R327, R390): free. -/
opaque identitySign : List Byte → List Byte
/-- Does a certificate chain end at the root whose key has a hash (R327)? The certificates' keys and signatures are free. -/
opaque chainEnds : List Byte → List Byte → Bool
/-- Is a signature over a digest by the leaf key of a chain valid (R327)? Free. -/
opaque signatureValid : List Byte → List Byte → List Byte → Bool
/-- The payload bytes of a membership message, whose layout the spec does not give (R325): free, by opcode and place. -/
opaque memberByte : Nat → Nat → Byte

/-- The translator's routines (R297): the FP32 code of a function's result, by translator version, function and arguments: free, the same for the
same version. -/
opaque routine : Nat → Nat → List Nat → Nat

/-- A free byte for each draw: what the spec leaves open and the machine goes on. -/
opaque freeByte : Nat → Byte
/-- A free 64-bit word for each draw (session nonces and other open values). -/
opaque freeWord : Nat → W64
/-- A free choice for each draw. -/
opaque freeBool : Nat → Bool

end Sys2Proof.Config
end

