-- ==== Sys2Proof/Machine/Num.lean ====
section
/-! DEFINITION. Number formats (R23 to R48): layouts, special codes, decoding, rounding and the conditions that
conversions signal. Values are exact rationals; the two irrational functions, log2 and the antilog, are decided by exact
comparison of integer powers. -/
namespace Sys2Proof.Machine

/-- The conditions of R28 and R78. -/
structure Cond where
  inv : Bool := false
  ovf : Bool := false
  unf : Bool := false
  inx : Bool := false
  deriving DecidableEq, Repr

/-- No condition. -/
def Cond.none : Cond := {}
/-- Inexact alone. -/
def Cond.inexact : Cond := { inx := true }
/-- Overflow with inexact (R29, R35). -/
def Cond.overflow : Cond := { ovf := true, inx := true }
/-- Underflow with inexact (R29, R35). -/
def Cond.underflow : Cond := { unf := true, inx := true }
/-- Underflow alone: an input subnormal flushed (R34, R78). -/
def Cond.flush : Cond := { unf := true }
/-- Invalid alone (R70, R78). -/
def Cond.invalid : Cond := { inv := true }

/-- Both sets of conditions. -/
def Cond.or (a b : Cond) : Cond :=
  { inv := a.inv || b.inv, ovf := a.ovf || b.ovf, unf := a.unf || b.unf, inx := a.inx || b.inx }

/-- The conditions in the bit positions of BN_FLAGS[3:0] (R80). -/
def Cond.toNat (c : Cond) : Nat := b2n c.inx + 2 * b2n c.unf + 4 * b2n c.ovf + 8 * b2n c.inv

/-- The conditions that the bits of BN_FLAGS[3:0] name. -/
def Cond.ofNat (n : Nat) : Cond :=
  { inx := n.testBit 0, unf := n.testBit 1, ovf := n.testBit 2, inv := n.testBit 3 }

/-- A value as a conversion sees it: NaN, infinity (input only), or a signed exact magnitude (R34, R75). -/
inductive Val where
  | nan
  | inf (s : Bool)
  | fin (s : Bool) (m : Rat)
  deriving DecidableEq, Repr

/-- The exact signed real of a finite value; 0 for the others. -/
def Val.toRat : Val → Rat
  | .fin s m => if s then -m else m
  | _ => 0

/-- A rational as a value; zero is +0 (R75). -/
def Val.ofRat (x : Rat) : Val := if x < 0 then .fin true (-x) else .fin false x

/-- A log format: width and fraction bits (R26). -/
structure LogFmt where
  W : Nat
  F : Nat
  deriving DecidableEq, Repr

def LX8 : LogFmt := ⟨8, 4⟩
def LG8 : LogFmt := ⟨8, 3⟩
def LX16 : LogFmt := ⟨16, 9⟩
def LG16 : LogFmt := ⟨16, 8⟩

/-- The largest finite q of a log format (R26). -/
def LogFmt.qmax (f : LogFmt) : Int := 2 ^ (f.W - 2) - 1

/-- The zero code (R27). -/
def LogFmt.zero (f : LogFmt) : Nat := 2 ^ (f.W - 2)

/-- The NaN code (R27). -/
def LogFmt.nan (f : LogFmt) : Nat := 2 ^ (f.W - 1) + 2 ^ (f.W - 2)

/-- The code of a sign and a log field (R25). -/
def LogFmt.code (f : LogFmt) (s : Bool) (q : Int) : Nat := b2n s * 2 ^ (f.W - 1) + toBits (f.W - 1) q

/-- The sign of a log code (R25). -/
def LogFmt.sgn (f : LogFmt) (c : Nat) : Bool := c.testBit (f.W - 1)

/-- The log field q of a log code (R25). -/
def LogFmt.q (f : LogFmt) (c : Nat) : Int := signed (f.W - 1) c

/-- The zero code or the NaN code (R27). -/
def LogFmt.special (f : LogFmt) (c : Nat) : Bool := f.q c == -(2 ^ (f.W - 2))

/-- `rne` of log2(p/d) × 2^F for a positive rational, with whether it is exact: decided by comparing integer powers
(R29). `half` adds 1/2 to the exponent scale: it is 1 for the square root of p/d, 0 for p/d itself. -/
def logRne (p d F : Nat) (half : Nat) : Int × Bool :=
  -- y = log2(p/d) * 2^F / 2^half ; compare with doubled scale
  let k := 2 ^ (F + 1 - half)
  let P := p ^ k
  let D := d ^ k
  -- z = log2(P/D) = 2y; f2 = floor(2y)
  let f2 := flog2Nat P D
  let ex := if 0 ≤ f2 then decide (P = D * 2 ^ f2.toNat) else decide (P * 2 ^ (-f2).toNat = D)
  let f := f2 / 2
  if f2 % 2 = 0 then (f, ex)
  else if ex then (if f % 2 = 0 then f else f + 1, false)
  else (f + 1, false)

/-- `log_encode` of R29 for a finite positive magnitude p/d, or its square root when `half` is 1. -/
def logEncodePos (s : Bool) (p d : Nat) (half : Nat) (f : LogFmt) : Nat × Cond :=
  let r := logRne p d f.F half
  if r.1 > f.qmax then (f.code s f.qmax, Cond.overflow)
  else if r.1 < -f.qmax then (f.zero, Cond.underflow)
  else (f.code s r.1, if r.2 then Cond.none else Cond.inexact)

/-- `log_encode` of R29. -/
def logEncode (v : Val) (f : LogFmt) : Nat × Cond :=
  match v with
  | .nan => (f.nan, Cond.none)
  | .inf s => (f.code s f.qmax, Cond.overflow)
  | .fin s m => if m = 0 then (f.zero, Cond.none) else logEncodePos s m.num.natAbs m.den 0 f

/-- A conversion from one log format to another (R30). -/
def logToLog (c : Nat) (f t : LogFmt) : Nat × Cond :=
  if f.special c then (if f.sgn c then t.nan else t.zero, Cond.none)
  else
    let y : Rat := (f.q c : Rat) * pow2 ((t.F : Int) - f.F)
    let q := rne y
    if q > t.qmax then (t.code (f.sgn c) t.qmax, Cond.overflow)
    else if q < -t.qmax then (t.zero, Cond.underflow)
    else (t.code (f.sgn c) q, if (q : Rat) = y then Cond.none else Cond.inexact)

/-- Bisection for the largest n < lo + 2^k with n^512 × 2^512 at most 2^(t + 25 × 512): half units of the antilog. -/
def antilogSearch (t : Nat) : Nat → Nat → Nat
  | 0, lo => lo
  | k + 1, lo =>
    let mid := lo + 2 ^ k
    if mid ^ 512 ≤ 2 ^ (t + 25 * 512) then antilogSearch t k mid else antilogSearch t k lo

/-- The antilog table of R31: 2^(t/512) correctly rounded to 24 fraction bits, scaled by 2^24. The search finds the
floor of twice the scaled value; no tie arises for t from 1 to 511. -/
def antilog (t : Nat) : Nat := (antilogSearch t 26 0 + 1) / 2

/-- The exact decode of a sign and a log field of any width with F fraction bits: `log_decode` (R31) past its special
codes, and `lmul` of R119 with F = 9. -/
def decodeQ (F : Nat) (q e : Int) : Nat × Int :=
  let i := q / (2 ^ F : Nat)
  let t := ((q % (2 ^ F : Nat)).toNat) * 2 ^ (9 - F)
  (antilog t, i + e)

/-- `log_decode` of R31 as a value, with the block exponent `e`. A log zero is +0 (R75). -/
def logDecode (c : Nat) (f : LogFmt) (e : Int) : Val :=
  if f.special c then (if f.sgn c then .nan else .fin false 0)
  else
    let d := decodeQ f.F (f.q c) e
    .fin (f.sgn c) ((d.1 : Rat) * pow2 (d.2 - 24))

/-- A floating-point type of R35: fraction bits, bias, exponent range, largest significand, exponent field width, and
whether an all-ones exponent is special (R34, R38). -/
structure FpFmt where
  M : Nat
  bias : Int
  emin : Int
  emax : Int
  nmax : Nat
  ebits : Nat
  special : Bool
  nanCode : Nat
  deriving DecidableEq, Repr

def FP32 : FpFmt := ⟨23, 127, -126, 127, 2 ^ 24 - 1, 8, true, 0x7FC00000⟩
def BF16 : FpFmt := ⟨7, 127, -126, 127, 255, 8, true, 0x7FC0⟩
def FL19 : FpFmt := ⟨11, 63, -62, 63, 4095, 7, true, 0x3FC00⟩
def E5M2 : FpFmt := ⟨2, 15, -14, 15, 7, 5, true, 0x7F⟩
def E4M3 : FpFmt := ⟨3, 7, -6, 8, 14, 4, false, 0x7F⟩
def E3M2 : FpFmt := ⟨2, 3, -2, 4, 7, 3, false, 0⟩
def E2M3 : FpFmt := ⟨3, 1, 0, 2, 15, 2, false, 0⟩
def E2M1 : FpFmt := ⟨1, 1, 0, 2, 3, 2, false, 0⟩

/-- The result of a rounding to a floating-point type (R35): a zero with its sign, or exponent and significand. -/
inductive Rounded where
  | zero (s : Bool)
  | num (s : Bool) (e : Int) (n : Nat)
  deriving DecidableEq, Repr

/-- `round_fmt` of R35 for a finite magnitude. -/
def roundFmt (s : Bool) (m : Rat) (f : FpFmt) : Rounded × Cond :=
  if m = 0 then (.zero s, Cond.none)
  else
    let ee := max (flog2 m) f.emin
    let u := m * pow2 ((f.M : Int) - ee)
    let n := (rne u).toNat
    let c := if (n : Rat) = u then Cond.none else Cond.inexact
    let carry := decide (n = 2 ^ (f.M + 1))
    let n1 := if carry then 2 ^ f.M else n
    let e1 := if carry then ee + 1 else ee
    if n1 < 2 ^ f.M then (.zero s, c.or Cond.underflow)
    else if e1 > f.emax ∨ (e1 = f.emax ∧ n1 > f.nmax) then (.num s f.emax f.nmax, c.or Cond.overflow)
    else (.num s e1 n1, c)

/-- The largest finite value of a type with a sign. -/
def FpFmt.maxFin (f : FpFmt) (s : Bool) : Rounded := .num s f.emax f.nmax

/-- The code of a rounded value: exponent field e + bias, fraction field n − 2^M (R35). -/
def FpFmt.enc (f : FpFmt) : Rounded → Nat
  | .zero s => b2n s * 2 ^ (f.M + f.ebits)
  | .num s e n => b2n s * 2 ^ (f.M + f.ebits) + (e + f.bias).toNat * 2 ^ f.M + (n - 2 ^ f.M)

/-- The exact value of a rounded result. -/
def FpFmt.valOf (f : FpFmt) : Rounded → Val
  | .zero s => .fin s 0
  | .num s e n => .fin s ((n : Rat) * pow2 (e - f.M))

/-- A value to a code of a floating-point type: NaN to the canonical NaN, infinity saturated (R28, R35). -/
def fpEncode (v : Val) (f : FpFmt) : Nat × Cond :=
  match v with
  | .nan => (f.nanCode, Cond.none)
  | .inf s => (f.enc (f.maxFin s), Cond.overflow)
  | .fin s m => let r := roundFmt s m f; (f.enc r.1, r.2)

/-- A code read under R34 and R38: subnormals flush and signal underflow, an all-ones exponent is infinity or NaN
where the type has them. -/
def fpRead (c : Nat) (f : FpFmt) : Val × Cond :=
  let s := c.testBit (f.M + f.ebits)
  let e := bits c (f.M + f.ebits - 1) f.M
  let fr := c % 2 ^ f.M
  if f.special ∧ e = 2 ^ f.ebits - 1 then (if fr = 0 then .inf s else .nan, Cond.none)
  else if f.M = 3 ∧ f.ebits = 4 ∧ e = 15 ∧ fr = 7 then (.nan, Cond.none)
  else if e = 0 then (.fin s 0, if fr = 0 then Cond.none else Cond.flush)
  else (.fin s (((2 ^ f.M + fr : Nat) : Rat) * pow2 ((e : Int) - f.bias - f.M)), Cond.none)

/-- An arithmetic operand under R34: an infinity is the largest finite value with its sign, with overflow and
inexact. -/
def fpOperand (c : Nat) (f : FpFmt) : Val × Cond :=
  match fpRead c f with
  | (.inf s, k) => (f.valOf (f.maxFin s), k.or Cond.overflow)
  | r => r

/-- FP32 (or BF16) value to an FL19 code in truncate mode (R36). -/
def fl19Trunc (v : Val) : Nat × Cond :=
  match v with
  | .nan => (FL19.nanCode, Cond.none)
  | .inf s => (FL19.enc (FL19.maxFin s), Cond.overflow)
  | .fin s m =>
    if m = 0 then (FL19.enc (.zero s), Cond.none)
    else if m ≥ pow2 64 then (FL19.enc (FL19.maxFin s), Cond.overflow)
    else if m < pow2 (-62) then (FL19.enc (.zero s), Cond.underflow)
    else
      let e := flog2 m
      let u := m * pow2 (11 - e)
      let n := u.floor.toNat
      (FL19.enc (.num s e n), if (n : Rat) = u then Cond.none else Cond.inexact)

/-- A conversion to FL19 in the mode that TRUNC names (R36). -/
def toFl19 (trunc : Bool) (v : Val) : Nat × Cond := if trunc then fl19Trunc v else fpEncode v FL19

/-- RF32 (R47): the integer of an element, or NaN. -/
def rf32Read (c : Nat) (x : Int) : Val :=
  if c % 2 ^ 32 = 0x80000000 then .nan else Val.ofRat ((signed 32 c : Rat) * pow2 x)

/-- A value to RF32 under exponent x (R47). -/
def rf32Encode (v : Val) (x : Int) : Nat × Cond :=
  match v with
  | .nan => (0x80000000, Cond.none)
  | .inf s => (toBits 32 (if s then -(2 ^ 31 - 1) else 2 ^ 31 - 1), Cond.overflow)
  | .fin s m =>
    let y := m * pow2 (-x)
    let n := rne y
    let sat := decide (n > 2 ^ 31 - 1)
    let n1 : Int := if sat then 2 ^ 31 - 1 else n
    (toBits 32 (if s then -n1 else n1), { ovf := sat, inx := decide ((n1 : Rat) ≠ y) })

/-- The four log formats by their FMT code (R112). -/
def logFmtOf : Nat → LogFmt
  | 0 => LX8
  | 1 => LG8
  | 2 => LX16
  | _ => LG16

/-- Bytes per code of a log format. -/
def LogFmt.size (f : LogFmt) : Nat := f.W / 8

end Sys2Proof.Machine
end

