-- ==== Sys2Proof/Machine/Accum.lean ====
section
/-! DEFINITION. Products and sums (R49 to R66): the product of two log codes, the Class A group sum and accumulator,
its PA64 word, the Class D long accumulator, spill records, WP256 records and the combining of partials. -/
namespace Sys2Proof.Machine

/-- A product of R50: NaN, zero, or sign, 25-bit significand and exponent. -/
inductive Prod where
  | nan
  | zero
  | num (s : Bool) (sig : Nat) (e : Int)
  deriving DecidableEq, Repr

/-- `product` of R50: codes a and b of one log format with block exponents xa and xb (R51). -/
def product (a b : Nat) (f : LogFmt) (xa xb : Int) : Prod :=
  if (f.special a ∧ f.sgn a) ∨ (f.special b ∧ f.sgn b) then .nan
  else if f.special a ∨ f.special b then .zero
  else
    let d := decodeQ f.F (f.q a + f.q b) (xa + xb)
    .num (xor (f.sgn a) (f.sgn b)) d.1 d.2

/-- The result of a group (R56): none, NaN, or exponent g and sum S of weight 2^(g − 27). -/
inductive GroupSum where
  | none
  | nan
  | num (g : Int) (S : Int)
  deriving DecidableEq, Repr

/-- Is the product NaN? -/
def Prod.isNan : Prod → Bool
  | .nan => true
  | _ => false

/-- The exponent of a nonzero product. -/
def Prod.exp? : Prod → Option Int
  | .num _ _ e => some e
  | _ => Option.none

/-- The largest exponent over the nonzero products of a list. -/
def maxExp : List Prod → Option Int
  | [] => Option.none
  | p :: r =>
    match p.exp?, maxExp r with
    | some e, some m => some (max e m)
    | some e, Option.none => some e
    | Option.none, m => m

/-- One aligned term of a group: guard bits kept, the rest dropped from the magnitude (R56). -/
def groupTerm (g : Int) : Prod → Int
  | .num s sig e =>
    let a : Int := ((sig * 8) >>> (g - e).toNat : Nat)
    if s then -a else a
  | _ => 0

/-- `group_sum` of R56. -/
def groupSum (ps : List Prod) : GroupSum :=
  if ps.any Prod.isNan then .nan
  else
    match maxExp ps with
    | Option.none => .none
    | some g => .num g ((ps.map (groupTerm g)).foldl (· + ·) 0)

/-- The Class A accumulator of R57. -/
structure AccA where
  F : Int := 0
  E : Int := 0
  nan : Bool := false
  poison : Bool := false
  deriving DecidableEq, Repr

/-- Arithmetic shift right: floor of a division by a power of two. -/
def asr (x : Int) (k : Nat) : Int := x / (2 ^ k : Nat)

/-- `acc_add` of R57. -/
def accAdd (a : AccA) (r : GroupSum) : AccA :=
  if a.poison ∨ a.nan then a
  else
    match r with
    | .nan => { a with nan := true }
    | .none => a
    | .num g S =>
      if S = 0 then a
      else
        let fe : Int × Int :=
          if a.F = 0 then (0, g + 15)
          else if g + 15 > a.E then (asr a.F (g + 15 - a.E).toNat, g + 15)
          else (a.F, a.E)
        let sh := g + 24 - fe.2
        let T := if 0 ≤ sh then S * (2 ^ sh.toNat : Nat) else asr S (-sh).toNat
        let V := fe.1 + T
        if V ≥ 2 ^ 51 ∨ V < -(2 ^ 51) then { a with F := asr V 1, E := fe.2 + 1 }
        else { a with F := V, E := fe.2 }

/-- The PA64 word of an accumulator (R45, R58). -/
def AccA.toPA64 (a : AccA) : Nat :=
  if a.poison then 0x8000000000000002
  else if a.nan then 0x8000000000000001
  else if a.F = 0 then 0
  else toBits 12 a.E * 2 ^ 52 + toBits 52 a.F

/-- The accumulator restored from a PA64 word (R45, R58). -/
def AccA.ofPA64 (w : Nat) : AccA :=
  let e := signed 12 (bits w 63 52)
  let f := bits w 51 0
  if e = -2048 then (if f = 2 then { poison := true } else { nan := true })
  else { F := signed 52 f, E := e }

/-- The value of a Class A accumulator, for the dresser: NaN for NAN or POISON (R57, R71). -/
def AccA.val (a : AccA) : Val :=
  if a.poison ∨ a.nan then .nan else Val.ofRat ((a.F : Rat) * pow2 (a.E - 51))

/-- A WP256 record (R46): also the Class D accumulator (R63) and the spill record (R61). -/
structure Wp where
  W : Int := 0
  A : Int := 0
  nan : Bool := false
  poison : Bool := false
  ovf : Bool := false
  low : Bool := false
  deriving DecidableEq, Repr

/-- `wrap256` of R63. -/
def wrap256 (v : Int) : Int := signed 256 (toBits 256 v)

/-- A magnitude placed in the window, with whether nonzero bits fell below it (R61, R63). -/
def placeMag (m : Nat) (sh : Int) : Nat × Bool :=
  if 0 ≤ sh then (m * 2 ^ sh.toNat, false)
  else
    let k := (-sh).toNat
    (m >>> k, decide ((m >>> k) * 2 ^ k ≠ m))

/-- `d_add` of R63. -/
def dAdd (r : Wp) (p : Prod) : Wp :=
  match p with
  | .nan => { r with nan := true }
  | .zero => r
  | .num s sig e =>
    if e > r.A + 10 then { r with ovf := true }
    else
      let m := placeMag sig (e + 200 - r.A)
      { r with W := wrap256 (if s then r.W - m.1 else r.W + m.1), low := r.low || m.2 }

/-- `toward_zero` of R61. -/
def towardZero (r : Wp) (k : Nat) : Wp :=
  let m := r.W.natAbs >>> k
  let v : Int := if r.W < 0 then -(m : Int) else m
  { r with W := v, low := r.low || decide (v * (2 ^ k : Nat) ≠ r.W) }

/-- The addition step of `spill_add` at a fixed anchor (R61, R66). -/
def spillPlace (r : Wp) (F E : Int) : Wp :=
  let m := placeMag F.natAbs (E + 173 - r.A)
  { r with W := if F < 0 then r.W - m.1 else r.W + m.1, low := r.low || m.2 }

/-- `spill_add` of R61. -/
def spillAdd (r0 : Wp) (a : AccA) : Wp :=
  let r := { r0 with poison := r0.poison || a.poison, nan := r0.nan || a.nan }
  if a.nan ∨ a.poison ∨ a.F = 0 then r
  else
    let r1 :=
      if r.W = 0 then { r with A := a.E + 1 }
      else if a.E > r.A + 10 then { towardZero r (a.E + 1 - r.A).toNat with A := a.E + 1 }
      else r
    let r2 := spillPlace r1 a.F a.E
    if r2.W ≥ 2 ^ 254 ∨ r2.W < -(2 ^ 254) then { towardZero r2 1 with A := r2.A + 1 } else r2

/-- The 40 bytes of a WP256 record (R46); W is written as 0 with NAN or POISON (R65). -/
def Wp.toBytes (r : Wp) : Bytes :=
  let w := if r.nan ∨ r.poison then 0 else toBits 256 r.W
  leBytes 32 w
    ++ leBytes 4 (toBits 12 r.A * 2 ^ 20 + b2n r.nan * 8 + b2n r.poison * 4 + b2n r.ovf * 2 + b2n r.low)
    ++ leBytes 4 0

/-- The record that 40 bytes hold (R46). -/
def Wp.ofBytes (b : Bytes) : Wp :=
  let h := leAt b 32 4
  { W := signed 256 (leAt b 0 32), A := signed 12 (bits h 31 20),
    nan := bit h 3, poison := bit h 2, ovf := bit h 1, low := bit h 0 }

/-- The poisoned record of R101: header 0x0000_0004. -/
def Wp.poisoned : Wp := { poison := true }

/-- The value that a record drains as, before poison is reported (R65): NaN for NAN, POISON or OVF. -/
def Wp.val (r : Wp) : Val :=
  if r.poison ∨ r.nan ∨ r.ovf then .nan else Val.ofRat ((r.W : Rat) * pow2 (r.A - 224))

/-- Two records of one anchor added (R66). -/
def Wp.addSame (a b : Wp) : Wp :=
  { W := wrap256 (a.W + b.W), A := a.A, nan := a.nan || b.nan, poison := a.poison || b.poison,
    ovf := a.ovf || b.ovf, low := a.low || b.low }

/-- WP256 partials combined (R66): each brought to the largest anchor, then added. -/
def combineWp (rs : List Wp) : Wp :=
  match rs with
  | [] => {}
  | r :: t =>
    let A := t.foldl (fun m x => max m x.A) r.A
    let bring := fun (x : Wp) => { towardZero x (A - x.A).toNat with A := A }
    t.foldl (fun acc x => acc.addSame (bring x)) (bring r)

/-- PA64 partials of parallel Class A parts combined in a fresh record (R66). -/
def combinePa (ps : List AccA) : Wp :=
  let live := ps.filter (fun p => !p.nan && !p.poison && p.F != 0)
  let base : Wp := { nan := ps.any (·.nan), poison := ps.any (·.poison) }
  match live with
  | [] => base
  | p :: t =>
    let A := 1 + t.foldl (fun m x => max m x.E) p.E
    live.foldl (fun acc x => spillPlace acc x.F x.E) { base with A := A }

/-- The exact value of an FP32 number as a product for `d_add` (R220): sign, significand and exponent with the
weight sig × 2^(e − 24). -/
def prodOfVal (v : Val) : Prod :=
  match v with
  | .fin s m =>
    if m = 0 then .zero
    else
      let e := flog2 m
      .num s (m * pow2 (24 - e)).floor.toNat e
  | _ => .nan

/-- An exact dyadic value added to a record (R220): bits below the window discarded with LOW, and a value of
2^(A + 11) or more sets OVF. -/
def wpAddVal (r : Wp) (v : Val) : Wp :=
  match v with
  | .fin s m =>
    if m = 0 then r
    else if m ≥ pow2 (r.A + 11) then { r with ovf := true }
    else
      let u := m * pow2 (224 - r.A)
      let n := u.floor
      { r with W := wrap256 (if s then r.W - n else r.W + n), low := r.low || decide ((n : Rat) ≠ u) }
  | _ => { r with nan := true }

end Sys2Proof.Machine
end

