-- ==== Sys2Proof/Machine/Crypto.lean ====
section
/-! DEFINITION. The cipher of the spall streams (R160, AES-128 of FIPS 197, encryption), the CRC-32C of flits, images and
compiled modules (R310, R384), and the CRC-64 of membership digests (R322). -/
namespace Sys2Proof.Machine

/-! ## AES-128 -/

/-- The substitution box, sixteen bytes to a number, the byte of the lowest index lowest. -/
def sboxRows : List Nat := [
  0x76abd7fe2b670130c56f6bf27b777c63,
  0xc072a49cafa2d4adf04759fa7dc982ca,
  0x1531d871f1e5a534ccf73f362693fdb7,
  0x75b227ebe28012079a059618c323c704,
  0x842fe329b3d63b52a05a6e1b1a2c8309,
  0xcf584c4a39becb6a5bb1fc20ed00d153,
  0xa89f3c507f02f94585334d43fbaaefd0,
  0xd2f3ff1021dab6bcf5389d928f40a351,
  0x73195d643d7ea7c41744975fec130ccd,
  0xdb0b5ede14b8ee4688902a22dc4f8160,
  0x79e4959162acd3c25c2406490a3a32e0,
  0x08ae7a65eaf4566ca94ed58d6d37c8e7,
  0x8a8bbd4b1f74dde8c6b4a61c2e2578ba,
  0x9e1dc186b95735610ef6034866b53e70,
  0xdf2855cee9871e9b948ed9691198f8e1,
  0x16bb54b00f2d99416842e6bf0d89a18c]

/-- SubBytes of one byte. -/
def sbox (x : Nat) : Nat := bits (sboxRows.getD (x / 16) 0) (8 * (x % 16) + 7) (8 * (x % 16))

/-- Multiplication by x in GF(2^8). -/
def xtime (a : Nat) : Nat := if a < 128 then 2 * a else (2 * a) ^^^ 0x11B

/-- MixColumns of one column. -/
def mixCol (a b c d : Nat) : List Nat :=
  [xtime a ^^^ (xtime b ^^^ b) ^^^ c ^^^ d, a ^^^ xtime b ^^^ (xtime c ^^^ c) ^^^ d,
   a ^^^ b ^^^ xtime c ^^^ (xtime d ^^^ d), (xtime a ^^^ a) ^^^ b ^^^ c ^^^ xtime d]

/-- Two lists of bytes added. -/
def xorBytes (a b : List Nat) : List Nat := List.zipWith (fun x y => x ^^^ y) a b

/-- SubBytes and ShiftRows of the sixteen bytes of a block, column by column. -/
def subShift (s : List Nat) : List Nat :=
  (List.range 16).map (fun i => sbox (s.getD (i % 4 + 4 * ((i / 4 + i % 4) % 4)) 0))

/-- MixColumns. -/
def mixCols (s : List Nat) : List Nat :=
  (List.range 4).flatMap (fun c => mixCol (s.getD (4 * c) 0) (s.getD (4 * c + 1) 0) (s.getD (4 * c + 2) 0) (s.getD (4 * c + 3) 0))

/-- The next round key. -/
def nextKey (k : List Nat) (rcon : Nat) : List Nat :=
  let t := [sbox (k.getD 13 0) ^^^ rcon, sbox (k.getD 14 0), sbox (k.getD 15 0), sbox (k.getD 12 0)]
  let w0 := xorBytes (k.take 4) t
  let w1 := xorBytes ((k.drop 4).take 4) w0
  let w2 := xorBytes ((k.drop 8).take 4) w1
  let w3 := xorBytes ((k.drop 12).take 4) w2
  w0 ++ w1 ++ w2 ++ w3

/-- The rounds that remain, `n` of them, the last one without MixColumns. -/
def aesRounds : Nat → List Nat → Nat → List Nat → List Nat
  | 0, _, _, s => s
  | n + 1, k, rcon, s =>
    let k1 := nextKey k rcon
    let s1 := subShift s
    aesRounds n k1 (xtime rcon) (xorBytes (if n = 0 then s1 else mixCols s1) k1)

/-- A number as sixteen bytes, lowest first. -/
def bytes16 (v : Nat) : List Nat := (List.range 16).map (fun i => bits v (8 * i + 7) (8 * i))

/-- Bytes, lowest first, as a number. -/
def ofBytes16 (l : List Nat) : Nat := l.foldr (fun b a => b + 256 * a) 0

/-- AES-128(K, D) with key, input and output presented little-endian (R160, R163). -/
def aes128 (key block : Nat) : Nat :=
  let k := bytes16 key
  ofBytes16 (aesRounds 10 k 1 (xorBytes (bytes16 block) k))

/-- The random value R[w] of the stream with derived key kd (R160). -/
def randVal (kd w : Nat) : Nat := bits (aes128 kd (w / 8)) (16 * (w % 8) + 15) (16 * (w % 8))

/-- R[w] to R[w + n − 1], one cipher block for each eight values; `n` blocks cover them. -/
def randVals (kd w n : Nat) : List Nat :=
  let bl := (List.range ((w + n) / 8 + 1 - w / 8)).map (fun i => aes128 kd (w / 8 + i))
  (List.range n).map (fun i => bits (bl.getD ((w + i) / 8 - w / 8) 0) (16 * ((w + i) % 8) + 15) (16 * ((w + i) % 8)))

/-- Bit b of a stream (R160). -/
def randBit (kd b : Nat) : Bool := (aes128 kd (b / 128)).testBit (b % 128)

/-! ## Cyclic redundancy checks -/

/-- Eight steps of a reflected CRC of a 32-bit polynomial. -/
def crc32Step : Nat → Nat → Nat
  | 0, c => c
  | n + 1, c => crc32Step n (if c % 2 = 1 then (c / 2) ^^^ 0x82F63B78 else c / 2)

/-- CRC-32C: reflected, initial value and final complement all ones. -/
def crc32c (b : Bytes) : Nat :=
  (b.foldl (fun c x => crc32Step 8 (c ^^^ x.toNat)) 0xFFFFFFFF) ^^^ 0xFFFFFFFF

/-- Eight steps of the CRC-64 of ECMA-182. -/
def crc64Step : Nat → Nat → Nat
  | 0, c => c
  | n + 1, c => crc64Step n (if c.testBit 63 then (2 * c) % 2 ^ 64 ^^^ 0x42F0E1EBA9EA3693 else 2 * c)

/-- CRC-64/ECMA-182: most significant bit first, initial value 0. -/
def crc64 (b : Bytes) : Nat := b.foldl (fun c x => crc64Step 8 (c ^^^ (x.toNat * 2 ^ 56))) 0

end Sys2Proof.Machine
end

