-- ==== Sys2Proof/Machine/Types.lean ====
section
/-! DEFINITION. The parts of the state that several chapters share, and the state of a bench with its dresser, mason
unit and crusher (R85 to R182): plain data, each field citing the rule that gives it. -/
namespace Sys2Proof.Machine

/-- A 64-byte command or descriptor: eight 64-bit words (R110). -/
abbrev Cmd := List W64

/-- A SYNC_SIGNAL with WHEN = 1 whose add is still to come (R111): it waits for every job numbered below `before`. -/
structure DefSig where
  counter : Nat
  before : Nat
  deriving DecidableEq, Repr

/-- An engine queue: its commands, oldest first, the halt cause (0: running), the cause of a halt that is due at the next command
boundary (0: none), the numbers that commands put back at the head keep, the deferred signals, and the
marks of PHASE pushed behind a count of commands (R300). -/
structure EQ where
  cmds : List Cmd := []
  cause : Nat := 0
  haltDue : Nat := 0
  kept : List Nat := []
  sigs : List DefSig := []
  pushed : Nat := 0
  taken : Nat := 0
  deriving DecidableEq, Repr

/-- A log record (R380). -/
structure LogRec where
  seq : Nat
  time : Nat
  code : Nat
  flags : Nat
  source : Nat
  steplo : Nat
  epochlo : Nat
  args : Bytes
  deriving DecidableEq, Repr

/-- The accumulators of one row: Class A or Class D (R57, R63). -/
inductive RowAcc where
  | a (l : List AccA)
  | d (l : List Wp)
  deriving DecidableEq, Repr

/-- Where the drain descriptor of a captured tile stands (R117, R133). -/
inductive DrainSt where
  | waiting
  | ready (d : Cmd) (scale : List Nat) (bias : List Nat)
  | bad (d : Cmd)
  deriving DecidableEq, Repr

/-- A captured tile (R96, R97): the descriptor, the values captured with it, its next beat, its product counter (R55),
and what its drain has gathered (R81, R127). `job` is its
number in the queue; a `dead` tile faulted and only drains the rows it had in the shadow set (R101). -/
structure Tile where
  cmd : Cmd
  id : Nat
  job : Nat
  dead : Bool := false
  clsD : Bool
  ringBase : Nat
  ringSlots : Nat
  wb : Nat
  freeze : Nat
  rerun : Nat
  pass : Nat := 0
  row : Nat := 0
  built : Nat := 0
  /-- The next beat is in an entry hold whose awaited row has left the array (R92). -/
  hold : Bool := false
  count : Nat
  spill : Bool
  spillDone : Bool := false
  bound : Bool := false
  conds : Nat := 0
  drain : DrainSt := .waiting
  rowsOut : Nat := 0
  screen : List Nat := List.replicate 64 0
  anchorOvf : Bool := false
  poisonSeen : Bool := false
  marked : Bool := false
  deriving DecidableEq, Repr

/-- A weight plane's VALID, PFMT and TAG (R95), and the conditions of its load not yet charged to a tile (R81). -/
structure Plane where
  valid : Bool := false
  pfmt : Nat := 0
  tag : Nat := 0
  conds : Nat := 0
  deriving DecidableEq, Repr

/-- What lies beside a staging slot: its tag, END mark and PEND bit (R99, R261). -/
structure SlotMeta where
  tag : Nat := 0
  fin : Bool := false
  pend : Bool := false
  deriving DecidableEq, Repr

/-- One row of one pass: in the array, or its partials as the bank returned them (R87, R91). -/
structure ArrRow where
  tile : Nat
  pass : Nat
  row : Nat
  accs : RowAcc
  deriving DecidableEq, Repr

/-- A finished row in the shadow set, with its tile's number (R96). -/
structure ShRow where
  tile : Nat
  row : Nat
  accs : RowAcc
  deriving DecidableEq, Repr

/-- A table built and not yet admitted (R142): the beat's number in its tile, the tag, the activation sum. The table
itself lies in the table store. -/
structure TabRow where
  tile : Nat
  beat : Nat
  tag : Nat
  asum : Nat
  deriving DecidableEq, Repr

/-- A tile fault whose poisoning has not completed (R101, R103). -/
structure TileFault where
  kind : Nat
  stream : Nat
  tile : Nat
  pass : Nat
  row : Nat
  expected : Nat
  received : Nat
  cause : Nat
  deriving DecidableEq, Repr

/-- A running MM or RED, with its passes taken at dispatch (R152, R157). -/
structure MasonRun where
  cmd : Cmd
  id : Nat
  passes : Nat
  deriving DecidableEq, Repr

/-- A running ROT: its derived key and the next row and block (R178, R180). -/
structure RotRun where
  cmd : Cmd
  id : Nat
  key : Nat
  row : Nat := 0
  block : Nat := 0
  deriving DecidableEq, Repr

/-- Who waits for a claim of a stream (R161, R166): a crusher, a control core, a stack update engine, a collective unit. -/
inductive Claimant where
  | crusher (b : Fin 24)
  | core (b : Fin 24)
  | update (k : Fin 8)
  | coll (u : Fin 4)
  deriving DecidableEq, Repr

/-- A claim submitted and not yet decided: STEP and word B of its stream reference, the device number at its submission, and the local
time of its arrival (R162, R163, R166). -/
structure Claim where
  who : Claimant
  step : Nat
  ref : Nat
  dev : Nat
  time : Nat := 0
  deriving DecidableEq, Repr

/-- A live entry of the stream-claim table (R166): its derivation block, the unit that made it, and whether its word is
uncorrectable (R423). -/
structure ClaimEntry where
  d : Nat
  unit : Nat
  bad : Bool := false
  deriving DecidableEq, Repr

/-- The spall generators' shared state (R165, R166, R181): the job key, its VALID, the live entries, HIGH, and the claims that
wait, in order of arrival. -/
structure Spall where
  jk : Nat := 0
  valid : Bool := false
  entries : List ClaimEntry := []
  high : Nat := 0
  queue : List Claim := []
  /-- An uncorrectable word among the places that hold no entry (R423). -/
  spareBad : Bool := false
  deriving DecidableEq, Repr

/-- A bench (R85 to R182, R425). -/
structure Bench where
  q : EQ := {}
  commitReg : Bool := false
  commitCmd : Bool := false
  nextTile : Nat := 0
  tiles : List Tile := []
  plane0 : Plane := {}
  plane1 : Plane := {}
  smeta : List (Nat × SlotMeta) := []
  inArray : List ArrRow := []
  parts : List ArrRow := []
  tables : List TabRow := []
  shadow : List ShRow := []
  /-- ROW_FINAL found the shadow set full: the oldest row of the array is finished and cannot leave (R92). -/
  finWait : Bool := false
  /-- Tiles that have drained and left their slots, whose status records are still to be written (R82, R96). -/
  drained : List Tile := []
  fault : Option TileFault := none
  mu : EQ := {}
  muRun : Option MasonRun := none
  cr : EQ := {}
  crRun : Option RotRun := none
  crWait : Bool := false
  fenceDue : Option Nat := none
  fenced : Bool := false
  fenceSite : Bytes := []
  fenceAt : Nat := 0
  /-- Counted as fenced by profile 2 alone (R416, R427). -/
  relay : Bool := false
  /-- Switched off by a fence of cause 5 (R400, R425): off until stage 5 runs (R453). -/
  cut : Bool := false
  ceLast : Option Nat := none
  deriving DecidableEq, Repr

/-- The state of a slot of a registered region (R196). -/
inductive SlotSt where
  | free
  | current
  | tentative
  | held
  deriving DecidableEq, Repr

/-- A slot of a registered region (R196, R200). -/
structure Slot where
  st : SlotSt := .free
  addr : Nat := 0
  step : Nat := 0
  gen : Nat := 0
  pins : Nat := 0
  impl : Nat := 0
  deriving DecidableEq, Repr

/-- A registered region (R195, R198); `uid` tells one registration from the next (R200). -/
structure Region where
  uid : Nat
  frozen : Bool
  len : Nat
  nslots : Nat
  slots : List Slot
  deriving DecidableEq, Repr

/-- Where a dispatched UPDATE stands (R217): its claim undecided, waiting for a slot since a time, or in sweep 0 or 1. -/
inductive UpdPhase where
  | claim
  | slotWait (since : Nat)
  | sweep0
  | sweep1
  deriving DecidableEq, Repr

/-- A dispatched UPDATE (R214 to R222): the program and constants copied at dispatch, its stream, its slots, the next element,
the results formed and not yet stored (for each element, the sections stored with their FP32 codes), the reduction
accumulators and k12 to k15. -/
structure UpdRun where
  cmd : Cmd
  id : Nat
  region : Nat
  uid : Nat
  phase : UpdPhase
  prog0 : List Nat
  prog1 : List Nat
  consts : List Nat
  strm : Claim
  key : Option Nat := none
  cur : Nat := 0
  tent : Nat := 0
  elem : Nat := 0
  formed : List (List (Nat × Nat)) := []
  recs : List Wp := []
  ks : List Nat := [0, 0, 0, 0]
  /-- The gradient words of the elements that sweep 0 has read, none for a poisoned one (R233). -/
  gRead : List (Option Nat) := []
  deriving DecidableEq, Repr

/-- A stack update engine (R213 to R224): its queue, the UPDATE in progress, the steps that failed since its last MARK (none:
a command that names no step), the streams claimed with their steps and keys (R217), and the MARKs completed for steps not
yet decided. -/
structure Ue where
  q : EQ := {}
  run : Option UpdRun := none
  fails : List (Option Nat) := []
  claims : List (Nat × Nat × Nat) := []
  marks : List (Nat × Bool) := []
  deriving DecidableEq, Repr

/-- What a STAGE carries (R325): E + 1, the digest, TIMEOUT in µs, the added and removed devices, and the full membership for a joining
module. -/
structure StageMsg where
  epoch : Nat
  digest : Bytes
  timeout : Nat := 0
  added : List Nat := []
  removed : List Nat := []
  full : Option (List Nat) := none
  deriving DecidableEq, Repr

/-- A membership message (R325). The spec gives its opcode and operands, not the bytes of its flits. A JOIN that a member forwards names the
device that joins; the JOIN of that device itself carries its chain alone (R313). -/
inductive MemMsg where
  | suspect (dev : Nat)
  | probe (nonce : Nat)
  | probeAck (nonce : Nat)
  | stage (m : StageMsg)
  | staged (e : Nat)
  | notStaged (e : Nat)
  | switch (e : Nat)
  | abort (e : Nat)
  | query (active staged : Nat × Nat)
  | state (active staged : Nat × Nat) (m : Option StageMsg)
  | join (dev : Option Nat) (chain : Bytes)
  | challenge (random : Bytes)
  | response (sig : Bytes)
  | digest (d : Bytes)
  | image (total off : Nat) (data : Bytes)
  | imageAsk
  | askLeave
  | askConfig (total off : Nat) (data : Bytes)
  | config (total off : Nat) (data : Bytes)
  | refused (reason : Nat)
  deriving DecidableEq, Repr

/-- The opcode of a membership message (R325); those of R376 and R386, which no opcode names, have none. -/
def MemMsg.opcode : MemMsg → Option Nat
  | .suspect _ => some 0x01
  | .probe _ => some 0x02
  | .probeAck _ => some 0x03
  | .stage _ => some 0x04
  | .staged _ => some 0x05
  | .notStaged _ => some 0x06
  | .switch _ => some 0x07
  | .abort _ => some 0x08
  | .query _ _ => some 0x09
  | .state _ _ _ => some 0x0A
  | .join _ _ => some 0x0B
  | .challenge _ => some 0x0C
  | .response _ => some 0x0D
  | .digest _ => some 0x0E
  | .image _ _ _ => none
  | .imageAsk => none
  | .askLeave => none
  | .askConfig _ _ _ => none
  | .config _ _ _ => none
  | .refused _ => none

/-- A data flit without its link word and CRC (R308, R309): the sequence header, the payload, and the link-word fields that
travel with it (SEG, ESC, HOPS). A MGMT flit of class 2 carries a membership message whole, with the EPOCH of its sender (R325). -/
structure Flit where
  src : Nat
  dst : Nat
  typ : Nat
  id : Nat
  payload : Bytes
  pseq : Nat := 0
  gwDev : Nat := 0
  gwPort : Nat := 0
  routed : Bool := false
  e2e : Bool := false
  seg : Bool := false
  esc : Nat := 0
  hops : Nat := 0
  mem : Option (Nat × MemMsg) := none
  deriving DecidableEq, Repr

/-- A flit on a port (R308): the link word's KIND, VC, LSEQ, ACK with ACKV, CRVC and CRN, the data flit if it is one, the payload area from
byte 8 otherwise, whether its CRC is complemented (R310), and how many symbols of the codeword that begins in this flit are wrong (R307). -/
structure Wire where
  kind : Nat
  vc : Nat := 0
  lseq : Nat := 0
  ack : Nat := 0
  ackv : Bool := false
  crvc : Nat := 0
  crn : Nat := 0
  data : Option Flit := none
  area : Bytes := []
  stomp : Bool := false
  errs : Nat := 0
  deriving DecidableEq, Repr

/-- The state of a port (R318). -/
inductive PortSt where
  | down
  | train
  | ident
  | quarantine
  | admitted
  | retrain
  deriving DecidableEq, Repr

/-- A flit that waits for an output port: its VC, the credits that it needs, and the input port and VC whose buffer it holds. -/
structure WaitFlit where
  vc : Nat
  need : Nat
  from? : Option (Nat × Nat)
  flit : Flit
  deriving DecidableEq, Repr

/-- A Tuone port (R305, R311, R312, R318 to R322). `was`: it has been ADMITTED in this session. `later`: ADMIT and REVOKE flits that wait for
the end of RETRAIN. `hb`: a heartbeat has come. `exch`, `peerDig`: the exchange of full digests and what the partner sent (R322). `rxFlits`,
`cwBad`: the flit's place among the 1,285 that fill 512 codewords, and whether the codeword under way cannot be corrected (R307). -/
structure Port where
  st : PortSt := .down
  prev : PortSt := .down
  width : Nat := 0
  lanes : Nat := 0
  qcause : Nat := 0
  localGrant : Bool := false
  remoteGrant : Bool := false
  nonce : Nat := 0
  ident : Bool := false
  staged : Nat × Nat := (0, 0)
  hbDev : Nat := 0xFFFF
  txSeq : Nat := 0
  replay : List (Nat × Wire × Nat) := []
  rxSeq : Nat := 0
  rxAny : Bool := false
  discard : Bool := false
  nak : Option Nat := none
  credits : List Nat := [64, 64, 64, 64, 64, 64, 64, 16]
  room : List Nat := [64, 64, 64, 64, 64, 64, 64, 16]
  owed : List Nat := [0, 0, 0, 0, 0, 0, 0, 0]
  sinceCr : Nat := 0
  wait : List WaitFlit := []
  wide : Bool := false
  was : Bool := false
  later : List Wire := []
  hb : Bool := false
  exch : Bool := false
  peerDig : Option Bytes := none
  rxFlits : Nat := 0
  cwBad : Bool := false
  deriving DecidableEq, Repr

/-- The unacknowledged flits of a destination (R316): the next PSEQ, the flits with their sends and alternative, and the flits
that wait for room. -/
structure E2eTx where
  dst : Nat
  next : Nat := 0
  unacked : List (Flit × Nat × Nat) := []
  hold : List Flit := []
  deriving DecidableEq, Repr

/-- The receipt window of a source (R316): the PSEQ below which all arrived, those received above it, and the receipts since the
last E2E_ACK. -/
structure E2eRx where
  src : Nat
  cum : Nat := 0
  above : List Nat := []
  fresh : Nat := 0
  deriving DecidableEq, Repr

/-- Who made a peer request (R260, R287). -/
inductive TxnFor where
  | derrick (d : Fin 48) (job : Nat)
  | core (b : Fin 24)
  | ring (r : Fin 64)
  deriving DecidableEq, Repr

/-- A READ_REQ or WRITE without its reply (R317), with the context and page whose translation it used (R244). -/
structure Txn where
  who : TxnFor
  write : Bool
  dev : Nat
  addr : Nat
  lines : Nat
  xl : Option (Nat × Nat) := none
  deriving DecidableEq, Repr

/-- Where a translated page lies (R242): this module's address space, a peer's memory, host memory. -/
inductive Target where
  | lcl
  | peer
  | host
  deriving DecidableEq, Repr

/-- A cached translation of a 64 KiB page (R242, R244): who holds it (derrick d is agent d, the core of bench b is 48 + b), the
context and page, and the leaf. -/
structure TlbEnt where
  agent : Nat
  ctx : Nat
  page : Nat
  target : Target
  dev : Nat
  base : Nat
  nc : Bool
  w : Bool
  deriving DecidableEq, Repr

/-- A region source of a descriptor (R200): the registration, the slot with its GEN and base, and whether a token named it. -/
structure RegSrc where
  region : Nat
  uid : Nat
  slot : Nat
  gen : Nat
  addr : Nat
  token : Bool
  deriving DecidableEq, Repr

/-- A descriptor being executed (R255 to R261): the source rows read, the destination rows written, its region source while it holds it,
the ring captured at dispatch, lines that peers have returned, rows read and kept to be transposed, staging rows with their scale bytes that
wait for their slots, the run-ahead position, whether its first request has been made, and the bytes of destination row `put` not yet written
with their address. -/
structure DkRun where
  cmd : Cmd
  id : Nat
  row : Nat := 0
  put : Nat := 0
  src : Option RegSrc := none
  ringBase : Nat := 0
  ringSlots : Nat := 0
  lines : List (Nat × Nat × Bytes) := []
  kept : List Bytes := []
  waits : List (Bytes × Option Bytes) := []
  ahead : Nat := 0
  begun : Bool := false
  rest : Nat × Bytes := (0, [])
  deriving DecidableEq, Repr

/-- A derrick (R255): its queue, the descriptors dispatched and not complete, oldest first, of which only the last may still issue requests;
and whether it has issued a request in this core cycle (R269). -/
structure Dk where
  q : EQ := {}
  runs : List DkRun := []
  issued : Bool := false
  deriving DecidableEq, Repr

/-- A chunk of a reduction as it travels (R338, R346, R347): exact element values, exponent, contributions summed, RESCALED and NAN,
the exponent that a RAISE asks for, the attempt, and the data bytes as received. -/
structure Part where
  vals : List Val
  x : Int
  count : Nat
  rescaled : Bool := false
  nan : Bool := false
  raise : Option Int := none
  attempt : Nat := 1
  raw : Bytes := []
  deriving DecidableEq, Repr

/-- Where a chunk stands on this module (R342, R347): the stage that it waits in, what has arrived (stage, sender's position, chunk),
the result of the stage before, the attempt with its exponent, whether the module's part is done, whether it left with RAISE and waits for RETRY,
whether its own values were excluded, whether it was seen RESCALED, and gathered bytes. -/
structure ChunkSt where
  stage : Nat := 0
  inn : List (Nat × Nat × Part) := []
  res : Option Part := none
  attempt : Nat := 1
  x2 : Int := 0
  fin : Bool := false
  raised : Bool := false
  excl : Bool := false
  resc : Bool := false
  got : Nat := 0
  deriving DecidableEq, Repr

/-- A running collective (R337, R351 to R353): its stages (code, extent, own position) and terraces as they were at the start, its
stream key, its chunks, the bytes received by the device that owes them, and what its completion record will say. -/
structure CollRun where
  cmd : Cmd
  job : Nat
  start : Nat
  stages : List (Nat × Nat × Nat)
  terr : List Nat
  auxb : Bytes
  perm : List (Nat × Nat × Nat × Nat) := []
  expect : Nat := 0
  key : Option Nat := none
  chunks : List (Nat × ChunkSt) := []
  rx : List (Nat × Nat) := []
  closed : Bool := false
  nClosed : Nat := 0
  nResc : Nat := 0
  nRetr : Nat := 0
  nExcl : Nat := 0
  nan : Bool := false
  minCount : Option Nat := none
  deriving DecidableEq, Repr

/-- A collective unit (R334): its queue, the collectives that it runs, and whether the head waits for its claim. -/
structure Coll where
  q : EQ := {}
  runs : List CollRun := []
  wait : Bool := false
  deriving DecidableEq, Repr

/-- An entry of the tally table (R354), and whether its word is uncorrectable (R423). -/
structure Tally where
  id : Nat
  sent : Nat := 0
  recv : Nat := 0
  bad : Bool := false
  deriving DecidableEq, Repr

/-- The engine queues that a control core can push to (R291). -/
inductive QRef where
  | bench (b : Fin 24)
  | mason (b : Fin 24)
  | crusher (b : Fin 24)
  | derrick (d : Fin 48)
  | update (k : Fin 8)
  | coll (u : Fin 4)
  deriving DecidableEq, Repr

/-- A bound address of a translated command (R294): the word that holds it, its virtual address and the bytes that the command uses there, whether
each TOP binds it with its offset (BIND) or LOAD did (R241), and the VA and extent of the operand that a TOP binds. -/
structure Bind where
  word : Nat
  va : Nat
  len : Nat
  late : Bool := true
  base : Nat := va
  ext : Nat := len
  deriving DecidableEq, Repr

/-- An operand descriptor of a tensor operation (R296); BIND and REG are `bind` and `reg`. -/
structure Opnd where
  typ : Nat
  rank : Nat
  bind : Bool := false
  reg : Bool := false
  va : Nat := 0
  dims : List Nat
  strides : List Nat := [0, 0, 0]
  side : Nat := 0
  region : Nat := 0
  deriving DecidableEq, Repr

/-- A tensor operation (R296): its code, attributes, PARAM words 1 to 7 and operands. -/
structure TOp where
  op : Nat
  attr : Nat
  par : List Nat
  opnds : List Opnd
  deriving DecidableEq, Repr

/-- What a control-core loop computes of its inputs (R297): a function of one or two elements, a fold of a line of an axis, its sort, a change
of format, the exponentials and the scaling of SOFTMAX, the normalisation of NORM (mode, epsilon), random values of a purpose. -/
inductive LoopFn where
  | unary (f : Nat)
  | binary (f : Nat)
  | fold (f axis : Nat)
  | sort (axis : Nat)
  | convert
  | exps (axis : Nat)
  | scale (axis : Nat)
  | norm (mode eps : Nat)
  | random (purpose : Nat)
  deriving DecidableEq, Repr

/-- What a step asks before it runs: a bit of an operation's wide record (R130, R183), or that a gradient image of a region's version is not
formed (R190). -/
inductive Guard where
  | wide (op : Nat) (want : Bool)
  | stale (op region : Nat)
  deriving DecidableEq, Repr

/-- What a command takes as it is pushed: the kept token of a region in word 5 (R184, R203), the place of a gradient image of that token's version
(R190), the row that an index names, or the step of an UPDATE or MARK, which no operand names (R297). -/
inductive Fix where
  | token (region : Nat)
  | image (word region size : Nat)
  | row (word va : Nat) (late : Bool) (stride : Nat)
  | step
  deriving DecidableEq, Repr

/-- A drain descriptor that goes with a TILE: its place in the work area, its words and bound addresses, and what it takes as it is pushed. -/
structure Drain where
  va : Nat
  cmd : Cmd
  binds : List Bind := []
  fixes : List Fix := []
  deriving DecidableEq, Repr

/-- A push of a translated tensor operation (R294): queue, command, bound addresses, what it takes as it is pushed, and its drain descriptor. -/
structure Push where
  qid : Nat
  cmd : Cmd
  binds : List Bind := []
  fixes : List Fix := []
  drain : Option Drain := none
  deriving DecidableEq, Repr

/-- A step of translated code: a push, a wait for a sync counter or an add to one, a pin or unpin of a region whose token is kept (R203), the
wide record of an operation made from its tiles' status records (R130), a gradient image formed (R190), a claim of a stream, or a loop over a
share of the units. -/
inductive StepKind where
  | push (p : Push)
  | await (counter target : Nat)
  | signal (counter n : Nat)
  | pin (region : Nat)
  | unpin (region : Nat)
  | judge (op : Nat) (status : List Nat)
  | formed (op region : Nat)
  | claim (a b : Nat)
  | loop (f : LoopFn) (ins : List Opnd) (out : Opnd) (first count : Nat)
  deriving DecidableEq, Repr

/-- A step with the core that makes it, its guards, and the operation whose recompute it belongs to (R184). -/
structure OpStep where
  core : Nat
  guards : List Guard := []
  redo : Option Nat := none
  kind : StepKind
  deriving DecidableEq, Repr

/-- A buffer of an operation in the work area: the operand that it holds, where and how it lies, whether it holds the transpose of the operand's
matrix, and whether it goes with a wide variant (R130, R187 to R190). -/
structure Buf where
  i : Nat
  o : Opnd
  turned : Bool := false
  wide : Bool := false
  deriving DecidableEq, Repr

/-- What the translator makes of a module (R297, R299): no room in the work area, or the places of CODE, RODATA, ZERO and the command blocks, the steps
and buffers of each operation, whatever else it puts into the work area, the places of the gradient images that frozen regions get at load (R190), its
time in µs and its version. -/
inductive Translated where
  | noRoom
  | ok (code ro zeroBase blocks : Nat) (ops : List (List OpStep)) (bufs : List (List Buf)) (writes : List (Nat × Bytes))
    (images : List (Nat × Nat)) (us version : Nat)
  deriving DecidableEq, Repr

/-- What translated code keeps from one operation to another: for a micro-batch, named by the offset of its TOPs, the token of a region (R183,
R203) and the wide record of an operation (R183); for all of them, the version whose gradient image a core has formed, by slot (R190). -/
inductive Note where
  | token (region offset : Nat)
  | wide (op offset : Nat)
  | image (op slot core : Nat)
  deriving DecidableEq, Repr

/-- A loaded module (R276, R279, R298): its handle, gang, context, code address, entry points, sync counters, FREEZE, translated operations,
translator version, and what its code keeps. -/
structure Module where
  handle : Nat
  mask : Nat
  ctx : Nat
  code : Nat
  entries : List Nat
  syncBase : Nat
  syncNeed : Nat
  freeze : Nat
  ops : List (List OpStep)
  version : Nat := 0
  notes : List (Note × Nat) := []
  deriving DecidableEq, Repr

/-- A run (R276, R279): the ring whose entry it is, the module, the gang, the pushes of cores that have ended, and whether a core of
it halted for a fault, break, step or fence (R289). -/
structure Run where
  ring : Nat
  handle : Nat
  mask : Nat
  pushed : List (QRef × Nat) := []
  broken : Bool := false
  deriving DecidableEq, Repr

/-- A hardware loop of a control core (R277, R285). -/
structure LoopSt where
  active : Bool := false
  start : Nat := 0
  stop : Nat := 0
  deriving DecidableEq, Repr

/-- A phase mark not yet taken (R300): its code and step, and the pushes that must have been dispatched. -/
structure Mark where
  code : Nat
  step : Nat
  need : List (QRef × Nat)
  deriving DecidableEq, Repr

/-- Where a control core's access to a peer stands: none out, waiting, done, or refused (R240, R317). -/
inductive IoSt where
  | none
  | waiting
  | done
  | refused
  deriving DecidableEq, Repr

/-- How far a TOP has come: its step, the unit of that step's loop, what was read for it, and the stores that it still makes once it is
computed. -/
structure Calc where
  step : Nat := 0
  unit : Nat := 0
  got : List Bytes := []
  puts : List (Nat × Bytes) := []
  made : Bool := false
  deriving DecidableEq, Repr

/-- A line of an L2 (R273, R423). -/
structure CLine where
  line : Nat
  data : Bytes
  dirty : Bool := false
  bad : Bool := false
  deriving DecidableEq, Repr

/-- A control core (R277, R278, R288, R289, R300 to R302): STATE, HALT_CAUSE, the run's context and module, registers, PC, loops, stream
slots (derived key and WBASE), a claim that waits (register and slot), the TOP position, a halt that is due, single-step, what it
last pushed to each queue in all and in this run, its marks, its peer access with the lines returned, its caches, what a stalled cycle is
charged to, the instructions retired whose cycles are not yet charged, the cycles that they cost besides, with their causes (R303), and of a TOP in
progress the step under way and the stream that it claimed. -/
structure Core where
  st : Nat := 0
  cause : Nat := 0
  ctx : Nat := 0
  handle : Nat := 0
  ring : Option Nat := none
  g : Vector W64 32 := Vector.replicate 32 0
  pc : Nat := 0
  lc : Vector W64 4 := Vector.replicate 4 0
  loops : Vector LoopSt 4 := Vector.replicate 4 {}
  slots : Vector (Option (Nat × Nat)) 4 := Vector.replicate 4 none
  claim : Option (Nat × Nat) := none
  topPos : Nat := 0
  due : Nat := 0
  stepping : Bool := false
  allPush : List (QRef × Nat) := []
  runPush : List (QRef × Nat) := []
  marks : List Mark := []
  io : IoSt := .none
  lines : List (Nat × Nat × Bytes) := []
  icache : List (Nat × Bytes) := []
  dcache : List (Nat × Bytes) := []
  why : Nat := 0
  retired : Nat := 0
  owed : List (Nat × Nat) := []
  work : Calc := {}
  strm : Option (Nat × Nat) := none
  deriving DecidableEq, Repr

/-- A ring entry fetched and not complete (R364, R365): the command, its slot, its lap's PHASE and the time of its fetch; its status
and result once it has them; a RUN that has started; and whether no record is to be written for it (R369). -/
structure RingEntry where
  cmd : Cmd
  slot : Nat
  phase : Bool
  time : Nat
  done : Option (Nat × Nat) := none
  started : Bool := false
  silent : Bool := false
  deriving DecidableEq, Repr

/-- A host command ring (R364 to R366): the fetched entries, the next slot to fetch and its lap's PHASE, the time of its last interrupt,
and whether MOD holds an interrupt back; for a LOAD under way, the lines that peers returned, whether a peer refused, and the result that
waits for the writes to peers. -/
structure Ring where
  q : List RingEntry := []
  next : Nat := 0
  asked : Nat := 0
  phase : Bool := true
  lastIrq : Option Nat := none
  held : Bool := false
  lines : List (Nat × Nat × Bytes) := []
  refused : Bool := false
  after : Option (Nat × Nat) := none
  deriving DecidableEq, Repr

/-- What the table of R360 lists as capabilities, and what it says is not supported. -/
inductive PciCap where
  | pcie
  | power
  | msix
  | resizableBar
  | aer
  | serial
  | dataLink
  | flr
  | readiness
  | sriov
  | ats
  | pasid
  | pri
  | msi
  | ioBar
  | rom
  deriving DecidableEq, Repr

/-- Is it a capability of the endpoint (R360)? -/
def PciCap.held : PciCap → Bool
  | .pcie | .power | .msix | .resizableBar | .aer | .serial | .dataLink | .flr | .readiness => true
  | .sriov | .ats | .pasid | .pri | .msi | .ioBar | .rom => false

/-- What a configuration request does (R360 to R363, R368): the fields of the standard header and capabilities that the spec gives a meaning.
Their offsets are those of the PCI Express Base Specification, which the spec does not repeat. -/
inductive CfgOp where
  | readId
  | readClass
  | readSerial
  | readCommand
  | readBar (i : Fin 3)
  | readCap (c : PciCap)
  | readDeviceCap
  | readDeviceCap2
  | readDevice
  | readDevice2
  | readMsix
  | readPower
  | readBarSizes
  | readBar4Size
  | readErrors
  | writeCommand (mem master : Bool)
  | writeBar (i : Fin 3) (addr : Nat)
  | writeBar4Size (k : Nat)
  | writeMsix (en mask : Bool)
  | writePower (d3hot : Bool)
  | writeDevice (payload request : Nat)
  | writeDevice2 (tags10 : Bool)
  | clearErrors
  deriving DecidableEq, Repr

/-- The endpoint's configuration space (R360 to R362): memory space and bus master enables, BAR addresses (BAR0, BAR2, BAR4), the
size 2^k of BAR4, D3hot, the device control fields (payload and read request size as powers, 10-bit tags), the errors reported through AER (R363), and
whether the link is up, which a Function Level Reset does not end (R369). -/
structure Pci where
  up : Bool := false
  mps : Nat := 0
  mrrs : Nat := 2
  tags10 : Bool := false
  errors : Nat := 0
  memEn : Bool := false
  d3 : Bool := false
  bars : List Nat := [0, 0, 0]
  bar4k : Nat := 34
  deriving DecidableEq, Repr

/-- A transfer that a bank or seam arbiter serves (R262 to R264): requester, class as raised, whether it writes, revocation count, beats
left and in all, the core cycles waited, the address and bytes that each beat writes (none for a read), and whether it is a dresser's read of
pre-activations (R132). -/
structure ArbReq where
  who : Nat
  cls : Nat
  write : Bool := false
  revoked : Nat := 0
  beats : Nat
  left : Nat
  waited : Nat := 0
  puts : List (Nat × Bytes) := []
  aux : Bool := false
  deriving DecidableEq, Repr

/-- An arbiter (R263, R265, R266, R272): the owner, the requests that wait, those that their requesters hold back under the quota, the
counts GRANTS, REVOKES, ANCHORS, WAIT, HOT and CE, whether the bank or seam is hot, for how many core cycles on end at least, and
fewer than, HOT_THRESH requests have waited (to 256), and whether a throttled seam accepted requests in its last cycle (R404). -/
structure Arb where
  owner : Option ArbReq := none
  waiting : List ArbReq := []
  held : List ArbReq := []
  hotFor : Nat := 0
  coolFor : Nat := 0
  counts : List Nat := [0, 0, 0, 0, 0, 0]
  hot : Bool := false
  took : Bool := false
  deriving DecidableEq, Repr

/-- A commit message (R227), without its reserved bytes: TYPE 1 VOTE, 2 COMMIT, 3 DISCARD, 4 QUERY, 5 STATE. -/
structure CmMsg where
  group : Nat
  step : Nat
  epoch : Nat
  src : Nat
  typ : Nat
  value : Nat := 0
  deriving DecidableEq, Repr

/-- A decision that this module is to apply (R229 to R231): the step, commit or discard, the epoch of the decision, the REMOTE and
TIMEOUT bits of its cause, whether this module then sends it to the other members, and who sent it. -/
structure CmDue where
  step : Nat
  commit : Bool
  epoch : Nat
  remote : Bool := false
  timeout : Bool := false
  send : Bool := false
  src : Nat := 0
  deriving DecidableEq, Repr

/-- A tally exchange (R355): the step, the sorted list of members, the own vector, what children sent (device, vector chunks by index, COUNT;
an impossible chunk spoils it), whether the sum went to the parent, and whether COLL_LATE was logged. -/
structure TallyX where
  step : Nat
  tree : List Nat
  own : List Nat
  kids : List (Nat × List (Nat × List Nat) × Nat) := []
  bad : Bool := false
  sent : Bool := false
  late : Bool := false
  deriving DecidableEq, Repr

/-- The gatehouse's commit state beside the GH_CM registers (R224 to R231, R396): the copies of the group record and the identifier list,
the cause bits of the vote, the verdict, votes received (sender, step, PREPARED), the time of the own vote, the epoch of the last QUERY
answered for the step, a decision to apply, a takeover with its STATE replies, a takeover that is due, whether the gatehouse restarted
since the vote, the decisions made, and the tally exchange. -/
structure Cm where
  group : Option (Nat × List Nat) := none
  ids : List Nat := []
  verdict : Option Bool := none
  votes : List (Nat × Nat × Bool) := []
  voteTime : Nat := 0
  answered : Nat := 0
  due : Option CmDue := none
  take : Option (List (Nat × Nat × Nat)) := none
  takeDue : Bool := false
  restarted : Bool := false
  hist : List (Nat × Bool) := []
  tx : Option TallyX := none
  deriving DecidableEq, Repr

/-- A configuration image on its way from a module (R376, R411): to the leader that is asked for the change, or down the tree. -/
structure Incoming where
  src : Nat
  ask : Bool
  total : Nat
  data : Bytes := []
  deriving DecidableEq, Repr

/-- The gatehouse's membership state (R322 to R328): the configuration image in force and the one staged with CONFIG_STAGE, the digest of
the active record, the staged change with the members still to reply and whether this module leads it, devices found suspect as
leaders, the probes that are out, oldest first, a whole image for the next epoch and images on their way in, the other changes for the next epoch, the members that asked to leave, a takeover's STATE replies, challenges sent to ports with the
chain that each JOIN carried, whether this module is joining, and the STAGE content of the epoch in force (R326). -/
structure Memb where
  image : Bytes := []
  newImage : Option Bytes := none
  nextImage : Option Bytes := none
  inImage : List Incoming := []
  digest : Bytes := []
  staged : Option StageMsg := none
  leading : Bool := false
  await : List Nat := []
  replyTo : Option Nat := none
  suspects : List Nat := []
  probes : List (Nat × Nat) := []
  nextAdd : List Nat := []
  nextRem : List Nat := []
  leavers : List Nat := []
  joins : List Nat := []
  query : Option (List (Nat × Nat × Bool × Option StageMsg)) := none
  chal : List (Nat × Bytes × Bytes) := []
  joining : Bool := false
  lastStage : Option StageMsg := none
  deriving DecidableEq, Repr

/-- How an ECC check of a bench structure ends (R423): corrected, uncorrectable, or a parity error of the control core. -/
inductive BenchErr where
  | corrected
  | uncorrectable
  | parity
  deriving DecidableEq, Repr

/-- What the decoder finds in the word that an access reads. -/
inductive Ecc where
  | good
  | corrected
  | uncorrectable
  deriving DecidableEq, Repr

/-- The die-to-die bridge (R424): replays since the last report, whether it retrains, and the lines whose responses are poisoned, with the time of
the core cycle. -/
structure Bridge where
  replays : Nat := 0
  retraining : Bool := false
  late : List (Nat × Nat) := []
  deriving DecidableEq, Repr

/-- A firmware slot of the flash (R384, R385): the image and whether it is recorded as valid. -/
structure FwSlot where
  image : Bytes := []
  valid : Bool := false
  deriving DecidableEq, Repr

/-- The boot record (R385, R410): ACTIVE, TRIAL, TRIES and CFG. -/
structure BootRec where
  active : Nat := 0
  trial : Bool := false
  tries : Nat := 0
  cfg : Nat := 0
  deriving DecidableEq, Repr

/-- The CRC-32C of a copy of the boot record (R410), over WSEQ and the fields in a byte each (log 103). -/
def BootRec.crc (r : BootRec) (wseq : Nat) : Nat :=
  crc32c (leBytes 4 wseq ++ leBytes 1 r.active ++ leBytes 1 (if r.trial then 1 else 0) ++ leBytes 1 r.tries ++ leBytes 1 r.cfg)

/-- A copy of the boot record in flash (R410): WSEQ, the record and its CRC-32C. -/
structure BootCopy where
  wseq : Nat := 0
  record : BootRec := {}
  crc : Nat := ({} : BootRec).crc 0
  deriving DecidableEq, Repr

/-- Does the CRC of a copy hold? -/
def BootCopy.holds (c : BootCopy) : Bool := c.crc == c.record.crc c.wseq

/-- The certificate chain of production test: three certificates, each after its u16 length (R390). -/
def factoryChain : Bytes := (List.range 3).flatMap (fun i => let c := (Config.certificate i).take 65535; leBytes 2 c.length ++ c)

/-- A running image on its way from a member (R386): whose, since when, its length once a part has come, and what has come. -/
structure PeerLoad where
  src : Nat
  since : Nat
  total : Option Nat := none
  data : Bytes := []
  deriving DecidableEq, Repr

/-- Has the whole image come? -/
def PeerLoad.whole (x : PeerLoad) : Bool := x.total.any (fun n => decide (n ≤ x.data.length))

/-- A mailbox pair (R373): the response that waits for MAILBOX_DONE (status and results), and whether a request is held for a membership
change (1 CONFIG_STAGE, 2 LEAVE, 3 REJOIN) or a reset follows its DONE (4 module, 5 gatehouse), whether a firmware command runs on it (R397), and whether DONE records the staged image as valid (R386, R397). -/
structure Mailbox where
  result : Option (Nat × Bytes) := none
  held : Nat := 0
  fw : Bool := false
  stage : Bool := false
  deriving DecidableEq, Repr

/-- The counters that a phase mark captures (R379): BN_STALL, CC_STALL, and the DK_STALL of both derricks, with the time in 10 ns units. -/
structure Capture where
  first : Bool := true
  vals : List Nat
  time : Nat
  deriving DecidableEq, Repr

/-- The gatehouse (R372 to R396, R409 to R411): mailbox buffers by offset, mailbox pairs, flash contents (firmware slots, the two copies of the
boot record with their WSEQ, configuration slots and which of them is in force, the pair to look at first, a peer's image on its way, stored profile command, owner certificate, the certificate chain of production test), the monitor's challenge, its failures and
whether it was ever unlocked, the module resets counted, and the last capture of each bench in its run. -/
structure Gate where
  bufs : List (Nat × Byte) := []
  boxes : Vector Mailbox 16 := Vector.replicate 16 {}
  slots : Vector FwSlot 2 := Vector.replicate 2 {}
  boots : Vector BootCopy 2 := Vector.replicate 2 {}
  cfgs : Vector Bytes 2 := Vector.replicate 2 []
  cfgIn : Nat := 0
  turn : Nat := 0
  peer : Option PeerLoad := none
  profile : Option Nat := none
  owner : Option Bytes := none
  chain : Bytes := factoryChain
  challenge : Option Bytes := none
  fails : Nat := 0
  everUnlocked : Bool := false
  resets : Nat := 0
  caps : Vector (Option Capture) 24 := Vector.replicate 24 none
  deriving DecidableEq, Repr

/-- Power and temperature (R401 to R405): the µs with the input below 98 % of the clamp, the clamp's own duty, the edges of the root clock seen and those let pass, the µs that it has stayed at 16 with the
power above the clamp (none once that is reported), since when the readings of a stack, or of the die (8), are below THROTTLE − 5 °C, the die throttle, a failed sensor of the main input, the time of the last POWER_CLAMPED, failed sensors (class, index),
sensors above WARN, throttled stacks, a trip that has not ended, start-up stopped, the sampled profile pins, the auxiliary input, a lost reference, a gatehouse that the ROM is to start,
and stage 6 done. -/
structure Pwr where
  below : Nat := 0
  duty : Nat := 64
  edges : Nat := 0
  passed : Nat := 0
  floor : Option Nat := some 0
  cool : List (Nat × Nat) := []
  throttle : Bool := false
  mainFail : Bool := false
  clampLog : Option Nat := none
  failed : List (Nat × Nat) := []
  warn : List Nat := []
  hot : List Nat := []
  tripped : Bool := false
  stopped : Bool := false
  prof : Nat := 0
  aux : Bool := true
  refGone : Bool := false
  romStart : Bool := false
  ready : Bool := false
  deriving DecidableEq, Repr

/-- The duty in force (R403, R404): the lower of the clamp's and the throttle's. -/
def Pwr.dutyNow (p : Pwr) : Nat := if p.throttle then min 32 p.duty else p.duty

/-- A sensor of the weighbridge (R377). -/
inductive Sensor where
  | temp (i : Fin 72)
  | volt (d : Fin 36)
  | curr (r : Fin 16)
  deriving DecidableEq, Repr

/-- How a data flit arrives (R310, R311): whole, with a failed CRC, stomped, or whole with a word that then proves uncorrectable in the port's
buffer (R423). -/
inductive Arrival where
  | good
  | crcFail
  | stomped
  | spoiled
  deriving DecidableEq, Repr

end Sys2Proof.Machine
end

