-- ==== Sys2Proof/Syntax.lean ====
section
/-! DEFINITION. The commands of the block: one constructor per row of the opcode table. A command names the instance it acts on and carries what its
environment supplies (log 1). -/
namespace Sys2Proof

/-- A command. -/
inductive Instr where
  /-- REGISTER_WRITE: A write to a register field that has no behaviour row of its own takes effect according to its access code (R7). -/
  | registerWrite (host : Bool) (a : Nat) (n : Nat) (v : Nat)
  /-- BENCH_NOP: The bench queue dispatches a NOP, which does nothing but offers its TAG to breakpoints (R111). -/
  | benchNop (b : Fin 24)
  /-- TILE: A TILE command is dispatched when a tile slot is free, and the tile's state and the active bank are captured and checked (R112). -/
  | tile (b : Fin 24)
  /-- BENCH_SYNC_WAIT: A bench SYNC_WAIT is dispatched in the core cycle after its sync counter first reaches the target (R111). -/
  | benchSyncWait (b : Fin 24)
  /-- BENCH_SYNC_SIGNAL: A bench SYNC_SIGNAL adds 1 to its counter, at once or deferred when WHEN = 1 (R111). -/
  | benchSyncSignal (b : Fin 24)
  /-- DEFERRED_SIGNAL_ADD: The condition of a SYNC_SIGNAL with WHEN = 1 comes to hold on any engine, and the add takes effect (R111). -/
  | deferredSignalAdd (q : Machine.QRef)
  /-- SETREG: A SETREG writes VALUE to the stage bank of the RWS register at OFFSET (R111). -/
  | setreg (b : Fin 24)
  /-- BENCH_COMMIT: A COMMIT command is dispatched once every earlier TILE has been captured, and it requests a COMMIT (R106). -/
  | benchCommit (b : Fin 24)
  /-- BENCH_HALT: A HALT command halts the bench queue with HALT_CAUSE 6 once every earlier command has been captured (R111). -/
  | benchHalt (b : Fin 24)
  /-- BN_COMMIT_GO: A write of 1 to BN_COMMIT.GO requests a COMMIT of the bench stage bank (R106). -/
  | bnCommitGo (b : Fin 24)
  /-- COMMIT_COPY: A pending COMMIT request validates the stage bank and copies it to the active bank, at a capture or within 2 core cycles (R106). -/
  | commitCopy (b : Fin 24)
  /-- BN_RESUME: A write of 1 to BN_CTRL.RESUME clears BN_FAULT.VALID and HALTED and re-dispatches the head command of a halted bench queue (R104). -/
  | bnResume (b : Fin 24)
  /-- BN_SKIP: A write of 1 to BN_CTRL.SKIP removes the head command of a halted bench queue without running it (R104). -/
  | bnSkip (b : Fin 24)
  /-- BN_HALT_REQ: A write of 1 to BN_CTRL.HALT_REQ halts the bench queue at the next command boundary with HALT_CAUSE 6 (R114). -/
  | bnHaltReq (b : Fin 24)
  /-- BN_CNT_CLR: A write of 1 to BN_CTRL.CNT_CLR clears BN_STALL(0 to 9) and BN_TILES_DONE (R114). -/
  | bnCntClr (b : Fin 24)
  /-- BN_FLAGS_CLEAR: A W1C write to BN_FLAGS clears the selected sticky flags, except a flag that sets in the same cycle (R80). -/
  | bnFlagsClear (b : Fin 24) (mask : Nat)
  /-- BN_FLAGS_RC_READ: A read of BN_FLAGS_RC returns the five sticky flags and then clears them (R80). -/
  | bnFlagsRcRead (b : Fin 24)
  /-- BEAT_ENTRY: In a core cycle allowed by the beat spacing, a beat enters the array from its staging slot and the sentinel checks its tag (R87). -/
  | beatEntry (b : Fin 24)
  /-- TILE_FAULT_POISON_DONE: The poisoning of a faulting tile's records completes, so BN_FAULT, BN_FAULT_POS, HALTED and the event become visible together (R101). -/
  | tileFaultPoisonDone (b : Fin 24)
  /-- PARTIAL_READ_RETURN: A partial row that a beat needs arrives from the bank, ending a freeze or entry hold (R91). -/
  | partialReadReturn (b : Fin 24)
  /-- ROW_FINAL: A row's accumulators become final for the pass and the row leaves for the partial region or the shadow set (R87). -/
  | rowFinal (b : Fin 24)
  /-- PART_TIMEOUT: A freeze outlasts FREEZE_LIMIT × 1,024 core cycles without a beat entering, and the tile is aborted as for a skew fault (R103). -/
  | partTimeout (b : Fin 24)
  /-- AUTOSPLIT_SPILL: Before a pass that would take the count past 65,536, the bench adds every accumulator into its spill record and resets the counter (R61). -/
  | autosplitSpill (b : Fin 24)
  /-- TABLE_BUILD: On the table path, the builder reads the slots of a beat and writes its tables and activation sum (R146). -/
  | tableBuild (b : Fin 24)
  /-- LOCAL_STORE_WRITE: A write by any path reaches a bench local-store window; a write to a plane clears VALID, or is dropped with SKEW_FAULT if the plane is active (R95). -/
  | localStoreWrite (b : Fin 24) (off : Nat) (d : Bytes)
  /-- DRAIN_DESCRIPTOR_ARRIVAL: The drain descriptor and its scale and bias tables of a captured tile arrive and are checked (R117). -/
  | drainDescriptorArrival (b : Fin 24)
  /-- DRESSER_ROW: The dresser takes one finished row from the shadow set, dresses, scales, rounds and screens it, and issues its writes (R120). -/
  | dresserRow (b : Fin 24)
  /-- TILE_STATUS_WRITE: Once a tile's last output has been accepted, its tile status record is written and the tile reports complete (R81). -/
  | tileStatusWrite (b : Fin 24)
  /-- DR_TABLE_WRITE: A write to DR_TABLE(p) stores a table entry, unless the pair is busy (R123). -/
  | drTableWrite (b : Fin 24) (p : Fin 2) (off : Fin 8192) (v : Nat)
  /-- DR_CNT_CLR: A write of 1 to DR_CTRL.CNT_CLR clears DR_MARKED, DR_SATURATED and DR_ROWS (R134). -/
  | drCntClr (b : Fin 24)
  /-- MU_NOP: The mason queue dispatches a NOP (R151). -/
  | muNop (b : Fin 24)
  /-- MU_SYNC_WAIT: A mason SYNC_WAIT holds the mason queue until its counter reaches the target (R151). -/
  | muSyncWait (b : Fin 24)
  /-- MU_SYNC_SIGNAL: A mason SYNC_SIGNAL adds 1 to its counter, at once or once earlier mason commands have written their results (R151). -/
  | muSyncSignal (b : Fin 24)
  /-- MM: An MM command is checked and starts computing C = A × B or C + A × B in FP32 passes or FL19 (R153). -/
  | mm (b : Fin 24)
  /-- RED: A RED command is checked and starts reducing each row of X by SUM, SUMSQ, MAX or MIN (R155). -/
  | red (b : Fin 24)
  /-- MASON_COMMAND_DONE: An MM or RED command finishes writing all its results (R153). -/
  | masonCommandDone (b : Fin 24)
  /-- MU_RESUME: A write of 1 to MU_CTRL.RESUME clears MU_FAULT.VALID and restarts a halted mason queue (R157). -/
  | muResume (b : Fin 24)
  /-- MU_SKIP: A write of 1 to MU_CTRL.SKIP removes the head command of a halted mason queue (R157). -/
  | muSkip (b : Fin 24)
  /-- MU_CNT_CLR: A write of 1 to MU_CTRL.CNT_CLR clears MU_BUSY (R157). -/
  | muCntClr (b : Fin 24)
  /-- MU_PASSES_WRITE: A write to MU_PASSES sets COUNT, and a write of 0b00 is ignored (R157). -/
  | muPassesWrite (b : Fin 24) (v : Nat)
  /-- SP_KEY_LOAD: A write of 1 to SP_KEY_CTRL.LOAD makes SP_JOBKEY the job key and sets VALID if the claim table is empty (R165). -/
  | spKeyLoad
  /-- STREAM_CLAIM: The stream-claim table decides a submitted claim of a derivation block, granting or refusing it (R166). -/
  | streamClaim (bad : Option Nat)
  /-- SP_RETIRE: A write of S to SP_RETIRE retires every claim entry whose STEP is at or below S (R168). -/
  | spRetire (step : Nat)
  /-- SP_CLAIMS_READ: A read of SP_CLAIMS returns HIGH and LIVE and reloads HIGH with the current LIVE (R181). -/
  | spClaimsRead
  /-- SP_REFUSED_READ: A read of SP_REFUSED returns the refused-claim count and clears it (R181). -/
  | spRefusedRead
  /-- CR_NOP: The crusher queue dispatches a NOP (R177). -/
  | crNop (b : Fin 24)
  /-- CR_SYNC_WAIT: A crusher SYNC_WAIT holds the crusher queue until its counter reaches the target (R177). -/
  | crSyncWait (b : Fin 24)
  /-- CR_SYNC_SIGNAL: A crusher SYNC_SIGNAL adds 1 to its counter, at once or once earlier crusher commands have written their results (R177). -/
  | crSyncSignal (b : Fin 24)
  /-- ROT: A ROT command is checked, claims its ROT_SIGN stream and starts rotating rows of blocks (R179). -/
  | rot (b : Fin 24)
  /-- ROT_BLOCK: A block's inputs have all arrived and its rotated outputs are written within 20 core cycles (R180). -/
  | rotBlock (b : Fin 24)
  /-- CR_RESUME: A write of 1 to CR_CTRL.RESUME clears CR_FAULT.VALID and re-dispatches the head of a halted crusher queue (R182). -/
  | crResume (b : Fin 24)
  /-- CR_SKIP: A write of 1 to CR_CTRL.SKIP removes the head command of a halted crusher queue (R182). -/
  | crSkip (b : Fin 24)
  /-- CR_CNT_CLR: A write of 1 to CR_CTRL.CNT_CLR clears CR_BLOCKS (R182). -/
  | crCntClr (b : Fin 24)
  /-- REGISTER: A REGISTER operation reads a registration record and registers a region with slot 0 CURRENT (R198). -/
  | register (k : Fin 8) (c : Fin 32) (w : Nat)
  /-- DEREGISTER: A DEREGISTER operation removes a region unless a pin, implicit pin or tentative slot holds it (R199). -/
  | deregister (k : Fin 8) (c : Fin 32) (r : Nat) (bad : Bool)
  /-- PIN_CURRENT: A PIN_CURRENT operation adds 1 to the CURRENT slot's pin count and returns its token (R199). -/
  | pinCurrent (k : Fin 8) (c : Fin 32) (r : Nat) (bad : Bool)
  /-- PIN_STEP: A PIN_STEP operation pins the CURRENT or HELD slot whose step matches STEPLO and returns its token (R199). -/
  | pinStep (k : Fin 8) (c : Fin 32) (r : Nat) (lo : Nat) (bad : Bool)
  /-- PIN_TOKEN: A PIN_TOKEN operation adds 1 to the pin count of a live token's slot (R199). -/
  | pinToken (k : Fin 8) (c : Fin 32) (r : Nat) (slot : Fin 4) (gen : Nat) (bad : Bool)
  /-- UNPIN: An UNPIN operation subtracts 1 from the pin count of a live token's slot, possibly freeing a HELD slot (R199). -/
  | unpin (k : Fin 8) (c : Fin 32) (r : Nat) (slot : Fin 4) (gen : Nat) (bad : Bool)
  /-- VT_SLOT_ACQUIRE: A waiting update finds a FREE slot, makes it TENTATIVE, increases its GEN and records the step (R202). -/
  | vtSlotAcquire (k : Fin 8)
  /-- VERSION_EXHAUSTED: A version wait reaches VWAIT, so the update of that region fails and the module withholds its prepared vote (R202). -/
  | versionExhausted (k : Fin 8)
  /-- UE_VT_SEL_WRITE: A write to UE_VT_SEL captures the selected region entry into UE_VT_VIEW (R207). -/
  | ueVtSelWrite (k : Fin 8) (v : Nat)
  /-- UE_VT_CFG_WRITE: A write to UE_VT_CFG sets VWAIT, which applies at once to a wait in progress (R202). -/
  | ueVtCfgWrite (k : Fin 8) (v : Nat)
  /-- UE_NOP: The update queue dispatches a NOP (R213). -/
  | ueNop (k : Fin 8)
  /-- UE_SYNC_WAIT: An update-engine SYNC_WAIT holds the queue until its counter reaches the target (R213). -/
  | ueSyncWait (k : Fin 8)
  /-- UE_SYNC_SIGNAL: An update-engine SYNC_SIGNAL adds 1 to its counter, at once or once earlier UPDATEs have completed or failed (R213). -/
  | ueSyncSignal (k : Fin 8)
  /-- UPDATE: An UPDATE command is checked and starts writing the version of one region for one step (R217). -/
  | update (k : Fin 8)
  /-- UPDATE_SWEEP: An update sweep advances by up to 64 elements, running the update program and storing results (R223). -/
  | updateSweep (k : Fin 8)
  /-- MARK: A MARK completes once every earlier command is done, and it sets UE_MARK and UE_MARK_FAIL (R224). -/
  | mark (k : Fin 8)
  /-- UE_RESUME: A write of 1 to UE_CTRL.RESUME restarts a halted update queue (R234). -/
  | ueResume (k : Fin 8)
  /-- UE_SKIP: A write of 1 to UE_CTRL.SKIP removes the head command of a halted update queue (R234). -/
  | ueSkip (k : Fin 8)
  /-- UE_CNT_CLR: A write of 1 to UE_CTRL.CNT_CLR clears UE_ELEMS and UE_ADDS (R234). -/
  | ueCntClr (k : Fin 8)
  /-- ADD_WRITE: A write into an enabled add window adds each 4-byte element to the stored value in FP32 or RF32 (R209). -/
  | addWrite (a : Nat) (d : Bytes)
  /-- ATM_ZERO: A write of 1 to UE_ATM_CFG(w).ZERO starts clearing the window and sets CLEARING (R211). -/
  | atmZero (k : Fin 8) (w : Fin 8)
  /-- ATM_CLEAR_DONE: The clear of an add window completes and CLEARING returns to 0 (R211). -/
  | atmClearDone (k : Fin 8) (w : Fin 8)
  /-- PREPARE_REQUEST: A write to GH_CM_PREP makes a prepare request, which the gatehouse reads, checks and accepts or refuses (R224). -/
  | prepareRequest (v : Nat)
  /-- VOTE_SEND: Once every MARK(S) is done and the tally verdict is known, the gatehouse sends its PREPARED or NOT_PREPARED vote (R224). -/
  | voteSend
  /-- VOTE_REPEAT: A member still PREPARED or NOT_PREPARED after a restart repeats its VOTE every 1 ms (R396). -/
  | voteRepeat
  /-- CM_VOTE: A coordinator receives a VOTE and decides COMMIT or DISCARD if the condition holds (R229). -/
  | cmVote
  /-- PTIMEOUT_EXPIRY: PTIMEOUT passes after the coordinator's own vote without a decision, so it discards the step (R229). -/
  | ptimeoutExpiry
  /-- CM_COMMIT: A member receives a COMMIT message for a step (R228). -/
  | cmCommit
  /-- CM_DISCARD: A member receives a DISCARD message for a step (R228). -/
  | cmDiscard
  /-- CM_QUERY: A member receives a QUERY from a new coordinator and replies with STATE (R230). -/
  | cmQuery
  /-- CM_STATE: A new coordinator receives a STATE reply during takeover (R230). -/
  | cmState
  /-- COMMIT_TAKEOVER: An epoch takes force with a new coordinator, which queries the members and then decides the highest step (R230). -/
  | commitTakeover
  /-- DECISION_APPLY: A member applies commit or discard of a step to all its version tables in one cycle and retires its streams (R231). -/
  | decisionApply
  /-- MM_INVAL: A write to MM_INVAL starts invalidating cached translations and clears DONE (R244). -/
  | mmInval (v : Nat)
  /-- MM_INVAL_DONE: Every named translation has been discarded and every request using it has completed, so DONE sets (R244). -/
  | mmInvalDone
  /-- STACK_ACCESS: A read or write reaches a Mergo code word and is decoded, corrected or poisoned (R248). -/
  | stackAccess (a : Nat) (wdata : Option Bytes) (ecc : Machine.Ecc)
  /-- STOCKYARD_ACCESS: A read or write reaches a stockyard bank word and is corrected or its line poisoned (R253). -/
  | stockyardAccess (a : Nat) (wdata : Option Bytes) (ecc : Machine.Ecc)
  /-- PATROL_SCRUB: A scrub read of a code word is issued on the patrol schedule and corrects or poisons it (R249). -/
  | patrolScrub (k : Fin 8) (ecc : Machine.Ecc)
  /-- UE_SEAM_SEL_WRITE: A write to UE_SEAM_SEL captures the selected seam's counts into UE_SEAM_VIEW (R251). -/
  | ueSeamSelWrite (k : Fin 8) (v : Nat)
  /-- SY_SEL_WRITE: A write to SY_SEL captures the selected bank's counts into SY_VIEW (R271). -/
  | sySelWrite (v : Nat)
  /-- ARBITRATION_DECISION: A bank or seam arbiter chooses the owner for the next cycle from the requests present (R263). -/
  | arbitrationDecision (i : Nat) (arrive : List Machine.ArbReq) (refresh : Bool)
  /-- HOT_BANK: A bank or seam has had HOT_THRESH waiting requests for 256 consecutive core cycles and becomes hot (R266). -/
  | hotBank (i : Nat)
  /-- DK_NOP: A derrick queue dispatches a NOP (R256). -/
  | dkNop (d : Fin 48)
  /-- DK_SYNC_WAIT: A derrick SYNC_WAIT holds the queue until its counter reaches the target (R256). -/
  | dkSyncWait (d : Fin 48)
  /-- DK_SYNC_SIGNAL: A derrick SYNC_SIGNAL adds 1 to its counter, at once or once earlier descriptors have completed (R256). -/
  | dkSyncSignal (d : Fin 48)
  /-- COPY: A COPY descriptor is checked and starts copying rows, converting or transposing as named (R259). -/
  | copy (d : Fin 48)
  /-- FILL: A FILL descriptor is checked and starts writing its 64-bit pattern over the rows (R256). -/
  | fill (d : Fin 48)
  /-- SLOTFILL: A SLOTFILL descriptor is checked and starts filling staging slots with rows and tags (R259). -/
  | slotfill (d : Fin 48)
  /-- PLANE: A PLANE descriptor is checked and starts loading a weight plane with its tag and format (R259). -/
  | plane (d : Fin 48)
  /-- DERRICK_REQUEST: A derrick issues a read or write of a descriptor after translation and quota checks (R258). -/
  | derrickRequest (d : Fin 48) (host : Option Bytes) (bad : Bool)
  /-- RUN_AHEAD_READ: A derrick reads a line of its source window ahead of demand, dropping it silently on a fault (R267). -/
  | runAheadRead (d : Fin 48)
  /-- SLOT_WRITE: A SLOTFILL write to a slot whose PEND is clear proceeds and sets PEND at its last write (R261). -/
  | slotWrite (d : Fin 48)
  /-- DESCRIPTOR_COMPLETE: Every write of a derrick descriptor has been accepted, and a plane load then sets VALID, TAG and PFMT (R260). -/
  | descriptorComplete (d : Fin 48)
  /-- DK_RESUME: A write of 1 to DK_CTRL.RESUME clears DK_FAULT.VALID and re-runs the head descriptor from its beginning (R258). -/
  | dkResume (d : Fin 48)
  /-- DK_SKIP: A write of 1 to DK_CTRL.SKIP removes the head descriptor of a halted derrick queue (R258). -/
  | dkSkip (d : Fin 48)
  /-- DK_CNT_CLR: A write of 1 to DK_CTRL.CNT_CLR clears DK_STALL, DK_RA_DROPPED and DK_BYTES (R270). -/
  | dkCntClr (d : Fin 48)
  /-- LOAD: A LOAD ring entry waits for the gang to be idle, then checks and translates a module and returns a handle (R299). -/
  | load (r : Fin 64) (t : Machine.Translated) (host : Option Bytes)
  /-- RUN: A RUN ring entry starts an entry point on every core of the gang once all are idle (R276). -/
  | run (r : Fin 64)
  /-- UNLOAD: An UNLOAD ring entry frees a handle and its sync counters unless a run of it is pending (R279). -/
  | unload (r : Fin 64)
  /-- CTX: A CTX ring entry sets the reproducible flag of the ring's context for later runs (R279). -/
  | ctx (r : Fin 64)
  /-- RING_WAIT: A WAIT ring entry completes when its sync counter reaches the target (R279). -/
  | ringWait (r : Fin 64)
  /-- RING_SIGNAL: A SIGNAL ring entry adds 1 to its sync counter (R279). -/
  | ringSignal (r : Fin 64)
  /-- ADD: ADD writes the sum of two general registers modulo 2^64 (R282). -/
  | edAdd (b : Fin 24) (x : Fin 32) (y : Fin 32) (z : Fin 32)
  /-- SUB: SUB writes the difference of two general registers (R282). -/
  | edSub (b : Fin 24) (x : Fin 32) (y : Fin 32) (z : Fin 32)
  /-- AND: AND writes the bitwise AND of two general registers (R282). -/
  | edAnd (b : Fin 24) (x : Fin 32) (y : Fin 32) (z : Fin 32)
  /-- OR: OR writes the bitwise OR of two general registers (R282). -/
  | edOr (b : Fin 24) (x : Fin 32) (y : Fin 32) (z : Fin 32)
  /-- XOR: XOR writes the bitwise XOR of two general registers (R282). -/
  | edXor (b : Fin 24) (x : Fin 32) (y : Fin 32) (z : Fin 32)
  /-- SLL: SLL shifts a register left by gZ[5:0] (R282). -/
  | edSll (b : Fin 24) (x : Fin 32) (y : Fin 32) (z : Fin 32)
  /-- SRL: SRL shifts a register right logically by gZ[5:0] (R282). -/
  | edSrl (b : Fin 24) (x : Fin 32) (y : Fin 32) (z : Fin 32)
  /-- SRA: SRA shifts a register right arithmetically by gZ[5:0] (R282). -/
  | edSra (b : Fin 24) (x : Fin 32) (y : Fin 32) (z : Fin 32)
  /-- MUL: MUL writes the low 64 bits of a product (R282). -/
  | edMul (b : Fin 24) (x : Fin 32) (y : Fin 32) (z : Fin 32)
  /-- MULHU: MULHU writes the high 64 bits of an unsigned product (R282). -/
  | edMulhu (b : Fin 24) (x : Fin 32) (y : Fin 32) (z : Fin 32)
  /-- DIVU: DIVU divides unsigned, returning 0 for a zero divisor (R283). -/
  | edDivu (b : Fin 24) (x : Fin 32) (y : Fin 32) (z : Fin 32)
  /-- REMU: REMU gives the unsigned remainder, returning the dividend for a zero divisor (R283). -/
  | edRemu (b : Fin 24) (x : Fin 32) (y : Fin 32) (z : Fin 32)
  /-- DIV: DIV divides signed, with the defined results for zero and overflow (R283). -/
  | edDiv (b : Fin 24) (x : Fin 32) (y : Fin 32) (z : Fin 32)
  /-- REM: REM gives the signed remainder, with the defined results for zero and overflow (R283). -/
  | edRem (b : Fin 24) (x : Fin 32) (y : Fin 32) (z : Fin 32)
  /-- SLT: SLT writes 1 if gY is less than gZ signed (R282). -/
  | edSlt (b : Fin 24) (x : Fin 32) (y : Fin 32) (z : Fin 32)
  /-- SLTU: SLTU writes 1 if gY is less than gZ unsigned (R282). -/
  | edSltu (b : Fin 24) (x : Fin 32) (y : Fin 32) (z : Fin 32)
  /-- MIN: MIN writes the signed minimum of two registers (R282). -/
  | edMin (b : Fin 24) (x : Fin 32) (y : Fin 32) (z : Fin 32)
  /-- MAX: MAX writes the signed maximum of two registers (R282). -/
  | edMax (b : Fin 24) (x : Fin 32) (y : Fin 32) (z : Fin 32)
  /-- ADDI: ADDI adds a sign-extended immediate (R282). -/
  | edAddi (b : Fin 24) (x : Fin 32) (y : Fin 32) (i : Fin 65536)
  /-- ANDI: ANDI ANDs a zero-extended immediate (R282). -/
  | edAndi (b : Fin 24) (x : Fin 32) (y : Fin 32) (i : Fin 65536)
  /-- ORI: ORI ORs a zero-extended immediate (R282). -/
  | edOri (b : Fin 24) (x : Fin 32) (y : Fin 32) (i : Fin 65536)
  /-- XORI: XORI XORs a zero-extended immediate (R282). -/
  | edXori (b : Fin 24) (x : Fin 32) (y : Fin 32) (i : Fin 65536)
  /-- SLLI: SLLI shifts left by an immediate (R282). -/
  | edSlli (b : Fin 24) (x : Fin 32) (y : Fin 32) (i : Fin 64)
  /-- SRLI: SRLI shifts right logically by an immediate (R282). -/
  | edSrli (b : Fin 24) (x : Fin 32) (y : Fin 32) (i : Fin 64)
  /-- SRAI: SRAI shifts right arithmetically by an immediate (R282). -/
  | edSrai (b : Fin 24) (x : Fin 32) (y : Fin 32) (i : Fin 64)
  /-- LUI: LUI loads an immediate shifted left by 16, sign-extended (R282). -/
  | edLui (b : Fin 24) (x : Fin 32) (i : Fin 65536)
  /-- SHLORI: SHLORI shifts a register left by 16 and ORs in an immediate (R282). -/
  | edShlori (b : Fin 24) (x : Fin 32) (i : Fin 65536)
  /-- SLTI: SLTI writes 1 if gY is less than the signed immediate (R282). -/
  | edSlti (b : Fin 24) (x : Fin 32) (y : Fin 32) (i : Fin 65536)
  /-- LD8U: LD8U loads a zero-extended byte (R282). -/
  | edLd8u (b : Fin 24) (x : Fin 32) (y : Fin 32) (i : Fin 65536) (host : Option Bytes)
  /-- LD16U: LD16U loads a zero-extended halfword (R282). -/
  | edLd16u (b : Fin 24) (x : Fin 32) (y : Fin 32) (i : Fin 65536) (host : Option Bytes)
  /-- LD32U: LD32U loads a zero-extended word (R282). -/
  | edLd32u (b : Fin 24) (x : Fin 32) (y : Fin 32) (i : Fin 65536) (host : Option Bytes)
  /-- LD64: LD64 loads a doubleword (R282). -/
  | edLd64 (b : Fin 24) (x : Fin 32) (y : Fin 32) (i : Fin 65536) (host : Option Bytes) (ecc : Machine.Ecc)
  /-- LD8S: LD8S loads a sign-extended byte (R282). -/
  | edLd8s (b : Fin 24) (x : Fin 32) (y : Fin 32) (i : Fin 65536) (host : Option Bytes)
  /-- LD16S: LD16S loads a sign-extended halfword (R282). -/
  | edLd16s (b : Fin 24) (x : Fin 32) (y : Fin 32) (i : Fin 65536) (host : Option Bytes)
  /-- LD32S: LD32S loads a sign-extended word (R282). -/
  | edLd32s (b : Fin 24) (x : Fin 32) (y : Fin 32) (i : Fin 65536) (host : Option Bytes)
  /-- ST8: ST8 stores the low byte of a register (R282). -/
  | edSt8 (b : Fin 24) (x : Fin 32) (y : Fin 32) (i : Fin 65536)
  /-- ST16: ST16 stores the low halfword of a register (R282). -/
  | edSt16 (b : Fin 24) (x : Fin 32) (y : Fin 32) (i : Fin 65536)
  /-- ST32: ST32 stores the low word of a register (R282). -/
  | edSt32 (b : Fin 24) (x : Fin 32) (y : Fin 32) (i : Fin 65536)
  /-- ST64: ST64 stores a register (R282). -/
  | edSt64 (b : Fin 24) (x : Fin 32) (y : Fin 32) (i : Fin 65536)
  /-- BEQ: BEQ branches if two registers are equal (R282). -/
  | edBeq (b : Fin 24) (x : Fin 32) (y : Fin 32) (i : Fin 65536) (spec : List (Bool × Nat)) (miss : Bool)
  /-- BNE: BNE branches if two registers differ (R282). -/
  | edBne (b : Fin 24) (x : Fin 32) (y : Fin 32) (i : Fin 65536) (spec : List (Bool × Nat)) (miss : Bool)
  /-- BLT: BLT branches if gX is less than gY signed (R282). -/
  | edBlt (b : Fin 24) (x : Fin 32) (y : Fin 32) (i : Fin 65536) (spec : List (Bool × Nat)) (miss : Bool)
  /-- BGE: BGE branches if gX is at least gY signed (R282). -/
  | edBge (b : Fin 24) (x : Fin 32) (y : Fin 32) (i : Fin 65536) (spec : List (Bool × Nat)) (miss : Bool)
  /-- BLTU: BLTU branches if gX is less than gY unsigned (R282). -/
  | edBltu (b : Fin 24) (x : Fin 32) (y : Fin 32) (i : Fin 65536) (spec : List (Bool × Nat)) (miss : Bool)
  /-- BGEU: BGEU branches if gX is at least gY unsigned (R282). -/
  | edBgeu (b : Fin 24) (x : Fin 32) (y : Fin 32) (i : Fin 65536) (spec : List (Bool × Nat)) (miss : Bool)
  /-- JAL: JAL saves the return address in g31 and jumps (R282). -/
  | edJal (b : Fin 24) (o : Fin 67108864)
  /-- J: J jumps by an offset (R282). -/
  | edJ (b : Fin 24) (o : Fin 67108864)
  /-- JR: JR jumps to a register address, optionally saving the return address (R282). -/
  | edJr (b : Fin 24) (x : Fin 32) (y : Fin 32) (spec : List (Bool × Nat)) (miss : Bool)
  /-- LOOP: LOOP latches a count from a register into a loop counter and starts a hardware loop, or skips the body (R285). -/
  | edLoop (b : Fin 24) (n : Fin 4) (y : Fin 32) (len : Fin 65536)
  /-- LOOPI: LOOPI starts a hardware loop with an immediate count (R285). -/
  | edLoopi (b : Fin 24) (n : Fin 4) (c : Fin 256) (len : Fin 65536)
  /-- LCSET: LCSET writes a live loop counter, effective at the next iteration test (R285). -/
  | edLcset (b : Fin 24) (n : Fin 4) (y : Fin 32)
  /-- LCGET: LCGET reads a loop counter into a register (R282). -/
  | edLcget (b : Fin 24) (x : Fin 32) (n : Fin 4)
  /-- FADD: FADD adds two FP32 values with one rounding (R284). -/
  | edFadd (b : Fin 24) (x : Fin 32) (y : Fin 32) (z : Fin 32)
  /-- FSUB: FSUB subtracts two FP32 values with one rounding (R284). -/
  | edFsub (b : Fin 24) (x : Fin 32) (y : Fin 32) (z : Fin 32)
  /-- FMUL: FMUL multiplies two FP32 values with one rounding (R284). -/
  | edFmul (b : Fin 24) (x : Fin 32) (y : Fin 32) (z : Fin 32)
  /-- FDIV: FDIV divides two FP32 values, with the device's divide-by-zero rule (R284). -/
  | edFdiv (b : Fin 24) (x : Fin 32) (y : Fin 32) (z : Fin 32)
  /-- FSQRT: FSQRT takes the FP32 square root (R284). -/
  | edFsqrt (b : Fin 24) (x : Fin 32) (y : Fin 32) (z : Fin 32)
  /-- FRSQRT: FRSQRT takes the FP32 reciprocal square root (R284). -/
  | edFrsqrt (b : Fin 24) (x : Fin 32) (y : Fin 32) (z : Fin 32)
  /-- FLOG2: FLOG2 takes the FP32 base-2 logarithm (R284). -/
  | edFlog2 (b : Fin 24) (x : Fin 32) (y : Fin 32) (z : Fin 32)
  /-- FEXP2: FEXP2 takes the FP32 power of two, saturating on overflow (R284). -/
  | edFexp2 (b : Fin 24) (x : Fin 32) (y : Fin 32) (z : Fin 32)
  /-- FMA: FMA forms gY × gZ + gX with one rounding (R284). -/
  | edFma (b : Fin 24) (x : Fin 32) (y : Fin 32) (z : Fin 32)
  /-- FMAXIMUM: The FP32 maximum operation returns the larger value or NaN (R74). -/
  | edFmaximum (b : Fin 24) (x : Fin 32) (y : Fin 32) (z : Fin 32)
  /-- FMINIMUM: The FP32 minimum operation returns the smaller value or NaN (R74). -/
  | edFminimum (b : Fin 24) (x : Fin 32) (y : Fin 32) (z : Fin 32)
  /-- FMAXIMUM_NUMBER: The FP32 maximumNumber operation prefers the number over a NaN (R74). -/
  | edFmaximumNumber (b : Fin 24) (x : Fin 32) (y : Fin 32) (z : Fin 32)
  /-- FMINIMUM_NUMBER: The FP32 minimumNumber operation prefers the number over a NaN (R74). -/
  | edFminimumNumber (b : Fin 24) (x : Fin 32) (y : Fin 32) (z : Fin 32)
  /-- FEQUAL: The quiet equal predicate writes 1 or 0 (R77). -/
  | edFequal (b : Fin 24) (x : Fin 32) (y : Fin 32) (z : Fin 32)
  /-- FNOT_EQUAL: The quiet not-equal predicate writes 1 or 0 (R77). -/
  | edFnotEqual (b : Fin 24) (x : Fin 32) (y : Fin 32) (z : Fin 32)
  /-- FLESS: The quiet less predicate writes 1 or 0 (R77). -/
  | edFless (b : Fin 24) (x : Fin 32) (y : Fin 32) (z : Fin 32)
  /-- FLESS_EQUAL: The quiet less-or-equal predicate writes 1 or 0 (R77). -/
  | edFlessEqual (b : Fin 24) (x : Fin 32) (y : Fin 32) (z : Fin 32)
  /-- FGREATER: The quiet greater predicate writes 1 or 0 (R77). -/
  | edFgreater (b : Fin 24) (x : Fin 32) (y : Fin 32) (z : Fin 32)
  /-- FGREATER_EQUAL: The quiet greater-or-equal predicate writes 1 or 0 (R77). -/
  | edFgreaterEqual (b : Fin 24) (x : Fin 32) (y : Fin 32) (z : Fin 32)
  /-- FUNORDERED: The quiet unordered predicate writes 1 or 0 (R77). -/
  | edFunordered (b : Fin 24) (x : Fin 32) (y : Fin 32) (z : Fin 32)
  /-- FCVTIS: FCVTIS converts FP32 to s64 by rne, saturating and raising invalid as needed (R284). -/
  | edFcvtis (b : Fin 24) (x : Fin 32) (y : Fin 32) (z : Fin 32)
  /-- FCVTSI: FCVTSI converts s64 to FP32 by round_fmt (R284). -/
  | edFcvtsi (b : Fin 24) (x : Fin 32) (y : Fin 32) (z : Fin 32)
  /-- FTOTAL: FTOTAL writes 1 if totalOrder holds for the two operands (R284). -/
  | edFtotal (b : Fin 24) (x : Fin 32) (y : Fin 32) (z : Fin 32)
  /-- FREM: FREM forms the FP32 remainder, creating NaN for a zero divisor or infinite input (R284). -/
  | edFrem (b : Fin 24) (x : Fin 32) (y : Fin 32) (z : Fin 32)
  /-- FENCE: FENCE waits until the core's earlier stores, DCLEAN and DINV have completed at memory (R282). -/
  | edFence (b : Fin 24)
  /-- DCLEAN: DCLEAN writes back a dirty line from the half's L2 (R282). -/
  | edDclean (b : Fin 24) (y : Fin 32)
  /-- DINV: DINV removes a line from the data cache and cleans and removes it from the L2 (R282). -/
  | edDinv (b : Fin 24) (y : Fin 32)
  /-- IINV: IINV invalidates the whole instruction cache and refetches from PC + 4 (R282). -/
  | edIinv (b : Fin 24)
  /-- END: END ends the core's part of the run (R282). -/
  | edEnd (b : Fin 24)
  /-- BRK: BRK halts the core with HALT_CAUSE 2 (R282). -/
  | edBrk (b : Fin 24)
  /-- RDCYC: RDCYC reads CC_CYCLES into a register (R282). -/
  | edRdcyc (b : Fin 24) (x : Fin 32)
  /-- NOP: The scalar NOP does nothing (R282). -/
  | edNop (b : Fin 24)
  /-- PUSH: PUSH appends eight registers as one command to an engine queue, stalling while it is full (R290). -/
  | edPush (b : Fin 24) (x : Fin 32) (i : Fin 256)
  /-- PUSHM: PUSHM appends the 64 bytes at gY as one command to an engine queue (R290). -/
  | edPushm (b : Fin 24) (y : Fin 32) (i : Fin 256) (host : Option Bytes)
  /-- QFREE: QFREE reads the free entries of a queue (R282). -/
  | edQfree (b : Fin 24) (x : Fin 32) (i : Fin 256)
  /-- SSIG: SSIG adds gY to a sync counter (R293). -/
  | edSsig (b : Fin 24) (y : Fin 32) (i : Fin 256)
  /-- SWAIT: SWAIT waits until a sync counter reaches gY (R293). -/
  | edSwait (b : Fin 24) (y : Fin 32) (i : Fin 256)
  /-- SREAD: SREAD reads a sync counter into a register (R282). -/
  | edSread (b : Fin 24) (x : Fin 32) (i : Fin 256)
  /-- SSET: SSET sets a sync counter to gY (R293). -/
  | edSset (b : Fin 24) (y : Fin 32) (i : Fin 256)
  /-- PHASE: PHASE queues a phase mark with its code and step (R300). -/
  | edPhase (b : Fin 24) (y : Fin 32) (i : Fin 256)
  /-- PHASE_MARK_TAKEN: Every command pushed before a PHASE has been dispatched, so the mark is taken and the counters captured (R300). -/
  | phaseMarkTaken (b : Fin 24)
  /-- SCLAIM: SCLAIM claims a stream reference into a stream slot as the bench's unit (R282). -/
  | edSclaim (b : Fin 24) (x : Fin 32) (y : Fin 32) (i : Fin 4) (host : Option Bytes)
  /-- RND: RND reads four random values of a slot's stream into a register (R282). -/
  | edRnd (b : Fin 24) (x : Fin 32) (y : Fin 32) (i : Fin 4)
  /-- VOP: VOP executes a version-table operation word as requester b and waits for its result (R282). -/
  | edVop (b : Fin 24) (x : Fin 32) (y : Fin 32) (z : Fin 32)
  /-- TOP: TOP pushes the core's part of a tensor operation's command block, translating bound operands (R294). -/
  | edTop (b : Fin 24) (x : Fin 32) (k : Fin 2097152) (host : Option Bytes)
  /-- GANG_HALT: Another core of the gang has halted, so this core halts at its next instruction boundary with HALT_CAUSE 3 (R289). -/
  | gangHalt (b : Fin 24)
  /-- CC_RESUME: A write of 1 to CC_CTRL.RESUME clears CC_FAULT.VALID and restarts a halted core at CC_PC (R289). -/
  | ccResume (b : Fin 24)
  /-- CC_STEP: A write of 1 to CC_CTRL.STEP executes one instruction or push and halts with HALT_CAUSE 5 (R301). -/
  | ccStep (b : Fin 24) (host : Option Bytes) (spec : List (Bool × Nat)) (miss : Bool)
  /-- CC_HALT_REQ: A write of 1 to CC_CTRL.HALT_REQ halts the core at the next boundary with HALT_CAUSE 4 (R302). -/
  | ccHaltReq (b : Fin 24)
  /-- CC_CNT_CLR: A write of 1 to CC_CTRL.CNT_CLR clears CC_STALL, CC_QCOUNT and CC_MISPREDICT (R302). -/
  | ccCntClr (b : Fin 24)
  /-- CC_SYNC_WRITE: A write to CC_SYNC(i) sets a sync counter, before the adds of the same cycle (R293). -/
  | ccSyncWrite (b : Fin 24) (i : Fin 256) (v : Nat)
  /-- IDLE_FLIT: An idle flit is received, returning credits and acknowledgements (R308). -/
  | idleFlit (p : Fin 16) (w : Machine.Wire)
  /-- DATA_FLIT: A data flit is received in LSEQ order, checked and delivered or forwarded by cut-through (R311). -/
  | dataFlit (p : Fin 16) (w : Machine.Wire) (a : Machine.Arrival)
  /-- ESCAPE_WAIT_EXPIRY: The chosen terrace port's VC has had no credit for LK_ESC.WAIT core cycles, so the flit takes an escape through a course port (R314). -/
  | escapeWaitExpiry (p : Fin 16) (vc : Nat)
  /-- NAK: A NAK is received and the transmitter resends from its LSEQ (R311). -/
  | nak (p : Fin 16) (w : Machine.Wire)
  /-- HEARTBEAT_FLIT: A heartbeat is received and compared with the local active and staged pairs (R322). -/
  | heartbeatFlit (p : Fin 16) (w : Machine.Wire)
  /-- ADMIT: An ADMIT flit carrying this port's nonce is received, admitting the port if it has also sent ADMIT (R319). -/
  | admitLink (p : Fin 16) (w : Machine.Wire)
  /-- REVOKE: A REVOKE flit is received and the port moves to QUARANTINE with cause 3 (R319). -/
  | revoke (p : Fin 16) (w : Machine.Wire)
  /-- READ_REQ: A READ_REQ flit addressed to the module is served with a READ_RSP or REFUSE (R309). -/
  | readReq
  /-- READ_RSP: A READ_RSP flit delivers read data to its requester (R309). -/
  | readRsp
  /-- WRITE: A WRITE flit addressed to the module writes its lines and returns WRITE_ACK (R309). -/
  | write
  /-- WRITE_ACK: A WRITE_ACK flit completes a peer write for its requester (R309). -/
  | writeAck
  /-- REFUSE: A REFUSE flit completes a request as refused with its reason (R309). -/
  | refuse
  /-- MGMT: A MGMT flit delivers a commit or membership message to the gatehouse (R309). -/
  | mgmt
  /-- E2E_ACK: An E2E_ACK flit acknowledges PSEQ values at the source (R316). -/
  | e2eAck
  /-- E2E_TIMEOUT: An end-to-end flit stays unacknowledged for LK_E2E.TIMEOUT and is resent, or fails after TRIES sends (R316). -/
  | e2eTimeout (dst : Nat) (pseq : Nat)
  /-- E2E_ACK_TIMER: The destination sends E2E_ACK within 1 µs of a receipt or after 16 receipts (R316). -/
  | e2eAckTimer (src : Nat)
  /-- RSP_TIMEOUT: A READ_REQ or WRITE has no reply after LK_RSP_TIMEOUT and completes as refused, kind 7 (R317). -/
  | rspTimeout (i : Nat)
  /-- LK_ENABLE: A write of LK_CTRL.ENABLE moves a DOWN port to TRAIN (R318). -/
  | lkEnable (p : Fin 16) (v : Bool)
  /-- TRAIN_COMPLETE: A port's lanes align and a width is agreed, so it moves to IDENT (R318). -/
  | trainComplete (p : Fin 16) (lanes : Nat)
  /-- TRAIN_TIMEOUT: Training does not finish within 20 ms and the port returns to DOWN (R318). -/
  | trainTimeout (p : Fin 16)
  /-- TRAIN_RETRY: Every 100 ms a DOWN port with ENABLE set tries training again (R318). -/
  | trainRetry (p : Fin 16)
  /-- IDENT_FRAME: An identity frame is received and the pair is checked against the wiring rules (R318). -/
  | identFrame (p : Fin 16) (dev : Nat) (port : Nat) (nonce : Nat)
  /-- LANE_ERROR: A lane exceeds SER_LIMIT or loses lock and sends the port to RETRAIN (R320). -/
  | laneError (p : Fin 16) (lock : Nat) (ser : List Nat)
  /-- RETRAIN_COMPLETE: A retraining port agrees a width and returns to its previous state (R320). -/
  | retrainComplete (p : Fin 16) (lanes : Nat)
  /-- RETRAIN_TIMEOUT: A port stays in RETRAIN for 150 µs and goes DOWN (R318). -/
  | retrainTimeout (p : Fin 16)
  /-- LK_RETRAIN: A write of 1 to LK_CTRL.RETRAIN retrains the port to restore full width (R320). -/
  | lkRetrain (p : Fin 16)
  /-- LK_CNT_CLR: A write of 1 to LK_CTRL.CNT_CLR clears the port's counters (R330). -/
  | lkCntClr (p : Fin 16)
  /-- LK_ADMIT: A write of the partner's nonce to LK_ADMIT sends ADMIT, and a write of 0 sends REVOKE (R319). -/
  | lkAdmit (p : Fin 16) (v : Nat)
  /-- HEARTBEAT_TIMER: Every 10 µs a port in QUARANTINE or ADMITTED sends a heartbeat (R321). -/
  | heartbeatTimer (p : Fin 16)
  /-- PARTNER_LOST: A port receives no valid heartbeat for 50 µs, declares its partner lost, goes DOWN and sends SUSPECT (R321). -/
  | partnerLost (p : Fin 16)
  /-- SUSPECT: A member receives SUSPECT(D) and sends PROBE to D (R324). -/
  | suspect (d : Nat)
  /-- PROBE: A module receives PROBE and returns PROBE_ACK (R324). -/
  | probe (src : Nat) (nonce : Nat)
  /-- PROBE_ACK: A PROBE_ACK returns, showing only the link is affected (R324). -/
  | probeAck (src : Nat) (nonce : Nat)
  /-- PROBE_TIMEOUT: No PROBE_ACK returns within 50 µs, so the member stages an epoch without D or takes over as leader (R324). -/
  | probeTimeout
  /-- STAGE: A member receives STAGE(E + 1), builds the record and replies STAGED or NOT_STAGED (R323). -/
  | stage (src : Nat) (m : Machine.StageMsg)
  /-- STAGED: A STAGED reply arrives, and on the last one the leader switches and sends SWITCH (R323). -/
  | staged (src : Nat) (e : Nat)
  /-- NOT_STAGED: A NOT_STAGED reply arrives and the leader sends ABORT (R323). -/
  | notStaged (e : Nat)
  /-- STAGE_TIMEOUT: TIMEOUT µs pass after STAGE without every STAGED and the leader sends ABORT (R323). -/
  | stageTimeout
  /-- SWITCH: A member receives SWITCH, copies staged to active, forwards it and quarantines ports to non-members (R323). -/
  | switch (src : Nat) (e : Nat)
  /-- ABORT: A member receives ABORT and clears its staged pair (R323). -/
  | abort (src : Nat) (e : Nat)
  /-- MEMBER_QUERY: A member receives a membership QUERY and replies with STATE (R326). -/
  | memberQuery (src : Nat)
  /-- MEMBER_STATE: A new leader receives a membership STATE reply (R326). -/
  | memberState (src : Nat) (active : Nat) (held : Bool) (m : Option Machine.StageMsg)
  /-- JOIN: A member receives JOIN with a certificate chain and replies CHALLENGE, or the leader batches it (R327). -/
  | join (p : Option (Fin 16)) (dev : Nat) (chain : Bytes)
  /-- JOIN_BATCH_EXPIRY: The leader's 50 µs join batching window ends and it stages E + 1 with the joins (R327). -/
  | joinBatchExpiry
  /-- CHALLENGE: A joining module receives CHALLENGE and returns RESPONSE (R327). -/
  | challenge (p : Fin 16) (c : Bytes)
  /-- MEMBER_RESPONSE: A member receives RESPONSE, checks it and forwards JOIN to the leader or refuses (R327). -/
  | memberResponse (p : Fin 16) (sig : Bytes)
  /-- JOIN_RETRY: 10 ms after a refusal a module may try its join again (R327). -/
  | joinRetry
  /-- MEMBER_DIGEST: A full digest arrives on VC7 and, if both ends agree, the port leaves quarantine (R322). -/
  | memberDigest (p : Fin 16) (d : Bytes)
  /-- CL_NOP: The collective queue dispatches a NOP (R334). -/
  | clNop (u : Fin 4)
  /-- CL_SYNC_WAIT: A collective SYNC_WAIT holds the queue until its counter reaches the target (R334). -/
  | clSyncWait (u : Fin 4)
  /-- CL_SYNC_SIGNAL: A collective SYNC_SIGNAL adds 1 to its counter, at once or once earlier COLLs have written completion records (R334). -/
  | clSyncSignal (u : Fin 4)
  /-- COLL: A COLL command is checked, allocates its tally entry, claims its stream and starts the collective (R337). -/
  | coll (u : Fin 4)
  /-- COLL_FLIT: A COLL flit is accepted, held early, or discarded as late, and tallied (R338). -/
  | collFlit
  /-- CHUNK_COMBINE: With the incoming chunk and own input present, a member combines them and sends the chunk on (R346). -/
  | chunkCombine (u : Fin 4) (id : Nat) (c : Nat) (bad : Bool)
  /-- PATIENCE_EXPIRY: PATIENCE passes since the collective started and every awaited input is closed (R351). -/
  | patienceExpiry (u : Fin 4) (id : Nat)
  /-- COLL_COMPLETE: A collective has written all its outputs and its sends are accepted, so its completion record is written (R352). -/
  | collComplete (u : Fin 4) (id : Nat)
  /-- TALLY_EXCHANGE_START: A prepare is accepted and the listed collectives have completed, so the tally exchange starts (R355). -/
  | tallyExchangeStart (bad : Option Nat)
  /-- TPATIENCE_EXPIRY: TPATIENCE passes without every child's vector, so the member sends its sum to its parent or the root decides (R355). -/
  | tpatienceExpiry
  /-- CL_RESUME: A write of 1 to CL_CTRL.RESUME clears CL_FAULT.VALID and re-dispatches the head command (R358). -/
  | clResume (u : Fin 4)
  /-- CL_SKIP: A write of 1 to CL_CTRL.SKIP removes the head command and discards its early flits (R358). -/
  | clSkip (u : Fin 4)
  /-- CL_CNT_CLR: A write of 1 to CL_CTRL.CNT_CLR clears CL_COUNT (R358). -/
  | clCntClr (u : Fin 4)
  /-- CL_TALLY_SEL_WRITE: A write to CL_TALLY_SEL captures a tally entry into CL_TALLY_VIEW (R358). -/
  | clTallySelWrite (v : Nat)
  /-- CL_TALLY_FIND: A write to CL_TALLY_FIND captures the entry holding an ID into CL_TALLY_VIEW (R358). -/
  | clTallyFind (v : Nat)
  /-- CL_TALLY_RETIRE: A write to CL_TALLY_RETIRE retires every tally entry with STEPLO at or below the value (R354). -/
  | clTallyRetire (v : Nat)
  /-- CONFIG_REQUEST: A PCI Express configuration request is answered, with retry status before release (R361). -/
  | configRequest (op : Machine.CfgOp) (vis : Bool)
  /-- BAR_READ: A host read through a BAR returns data, or a poisoned completion with AER (R363). -/
  | barRead (i : Fin 3) (o : Nat) (n : Nat)
  /-- BAR_WRITE: A host write through a BAR writes the mapped address, as an add write in an add window (R363). -/
  | barWrite (i : Fin 3) (o : Nat) (d : Bytes)
  /-- HX_DB: A write to HX_DB(r) sets TAIL and starts fetching entries, or halts the ring if TAIL is too large (R364). -/
  | hxDb (r : Fin 64) (v : Nat)
  /-- RING_FETCH: A fetch of ring entries completes and the entries are queued for execution (R364). -/
  | ringFetch (r : Fin 64) (data : Option Bytes)
  /-- RING_ENTRY_COMPLETE: A ring entry completes, its completion record is written, HEAD advances and the interrupt is raised (R365). -/
  | ringEntryComplete (r : Fin 64) (ok : Bool)
  /-- HX_RB_CFG_WRITE: A write to HX_RB_CFG(r) enables, disables or reconfigures a ring, clearing HALTED on re-enable (R366). -/
  | hxRbCfgWrite (r : Fin 64) (v : Nat)
  /-- HX_CNT_CLR: A write of 1 to HX_CTRL.CNT_CLR clears HX_COUNT (R371). -/
  | hxCntClr
  /-- MSIX_MOD_EXPIRY: A ring's MOD interval ends and records held back raise one interrupt (R368). -/
  | msixModExpiry (r : Fin 64)
  /-- MSIX_UNMASK: A vector is unmasked or MSI-X enabled, and a pending message is sent (R368). -/
  | msixUnmask (v : Fin 512) (all : Bool)
  /-- FUNCTION_LEVEL_RESET: A Function Level Reset stops every ring, drops unissued host requests and resets the HX registers and MSI-X table (R369). -/
  | functionLevelReset
  /-- PERST_N: PERST_N, a hot reset or a link-down resets the endpoint and the HX registers (R369). -/
  | perstN
  /-- GET_INFO: A GET_INFO mailbox request returns the identity and configuration blocks (R376). -/
  | getInfo (m : Fin 16)
  /-- POWER_SET: A POWER_SET mailbox request sets the power clamp within its range (R376). -/
  | powerSet (m : Fin 16)
  /-- PROFILE_STORE: A PROFILE_STORE mailbox request stores the profile command for the next start-up (R376). -/
  | profileStore (m : Fin 16)
  /-- MB_RESET: A RESET mailbox request requests a module or gatehouse-only reset after DONE (R376). -/
  | mbReset (m : Fin 16)
  /-- MB_FENCE: A FENCE mailbox request fences a bench with cause 6 (R376). -/
  | mbFence (m : Fin 16)
  /-- MEMBER_STATUS: A MEMBER_STATUS mailbox request returns the membership status (R376). -/
  | memberStatus (m : Fin 16)
  /-- CONFIG_STAGE: A CONFIG_STAGE mailbox request authenticates a configuration image and has the leader change to E + 1 with it (R376). -/
  | configStage (m : Fin 16) (data : Bytes) (ok : Bool)
  /-- LEAVE: A LEAVE mailbox request has the leader stage an epoch without this module (R376). -/
  | leave (m : Fin 16)
  /-- REJOIN: A REJOIN mailbox request runs the join procedure (R376). -/
  | rejoin (m : Fin 16)
  /-- SENSORS: A SENSORS mailbox request returns every weighbridge register without clearing peaks (R376). -/
  | sensors (m : Fin 16)
  /-- LOG_READ: A LOG_READ mailbox request copies log records to host memory (R376). -/
  | logRead (m : Fin 16)
  /-- LOG_FLUSH: A LOG_FLUSH mailbox request copies unflashed records to flash (R376). -/
  | logFlush (m : Fin 16)
  /-- LOG_FLASH_READ: A LOG_FLASH_READ mailbox request copies the flash records to host memory (R376). -/
  | logFlashRead (m : Fin 16)
  /-- FW_STAGE: An FW_STAGE mailbox request writes an image into the inactive slot and verifies it (R386). -/
  | fwStage (m : Fin 16) (data : Bytes) (sig : Bool)
  /-- FW_STAGE_PEER: An FW_STAGE_PEER mailbox request fetches a member's running image and stages it (R386). -/
  | fwStagePeer (m : Fin 16) (sig : Bool)
  /-- FW_ACTIVATE: An FW_ACTIVATE mailbox request makes the inactive slot the trial slot (R387). -/
  | fwActivate (m : Fin 16)
  /-- FW_CONFIRM: An FW_CONFIRM mailbox request ends a trial and may raise the anti-rollback counter (R388). -/
  | fwConfirm (m : Fin 16)
  /-- FW_STATUS: An FW_STATUS mailbox request returns the boot record, slot headers and counter (R376). -/
  | fwStatus (m : Fin 16)
  /-- ATTEST: An ATTEST mailbox request returns a signed attestation report (R391). -/
  | attest (m : Fin 16)
  /-- CERTS: A CERTS mailbox request copies the certificate chain to host memory (R390). -/
  | certs (m : Fin 16)
  /-- CERT_INSTALL: A CERT_INSTALL mailbox request stores an owner certificate for the identity key (R390). -/
  | certInstall (m : Fin 16) (data : Bytes) (ok : Bool)
  /-- LIFECYCLE: A LIFECYCLE mailbox request advances the fused lifecycle state by a token (R392). -/
  | lifecycle (m : Fin 16) (next : Nat) (ok : Bool)
  /-- MAILBOX_DONE: The gatehouse writes a mailbox response, clears BUSY, sets DONE and raises its interrupt (R373). -/
  | mailboxDone (m : Fin 16)
  /-- MON_ID: The monitor ID command prints the identity block (R393). -/
  | monId
  /-- MON_STATUS: The monitor STATUS command prints start-up stage, profile, lifecycle, slots and boot record (R393). -/
  | monStatus
  /-- MON_LOG: The monitor LOG command prints the newest log records (R393). -/
  | monLog (n : Nat)
  /-- MON_SENS: The monitor SENS command prints the weighbridge readings (R393). -/
  | monSens
  /-- MON_FWLOAD: The monitor FWLOAD command receives an image by XMODEM into the inactive slot (R393). -/
  | monFwload (data : Bytes) (sig : Bool)
  /-- MON_BOOT: The monitor BOOT command sets ACTIVE to a valid slot with TRIAL 0 (R393). -/
  | monBoot (n : Nat)
  /-- MON_RESET: The monitor RESET command requests a module or gatehouse reset (R393). -/
  | monReset (kind : Nat)
  /-- MON_UNLOCK: The monitor UNLOCK command prints a challenge (R393). -/
  | monUnlock
  /-- MON_RESP: The monitor RESP command unlocks the service set if the certificate and signature verify (R394). -/
  | monResp (ok : Bool) (serial : Nat)
  /-- MON_RD: The monitor RD command prints 8 bytes at a device physical address (R393). -/
  | monRd (a : Nat)
  /-- MON_WR: The monitor WR command writes 8 bytes at a device physical address (R394). -/
  | monWr (a : Nat) (v : Nat)
  /-- MON_FUSES: The monitor FUSES command prints the fuse map without the identity seed (R393). -/
  | monFuses
  /-- MON_TEST: The monitor TEST command runs the full known-answer set on an idle bench (R432). -/
  | monTest (b : Fin 24) (fail : Option (Nat × Nat × Nat))
  /-- MON_LOCK: The monitor LOCK command locks the service set (R393). -/
  | monLock
  /-- MON_LC: The monitor LC command advances the lifecycle by a token (R393). -/
  | monLc (next : Nat) (ok : Bool)
  /-- SENSOR_SAMPLE: The weighbridge samples a sensor at its interval and writes its reading (R377). -/
  | sensorSample (x : Machine.Sensor) (v : Option Nat)
  /-- THROTTLE_END: Every die or stack sensor stays below THROTTLE − 5 °C for 1 ms and the throttle ends (R404). -/
  | throttleEnd (stack : Option (Fin 8))
  /-- GH_WB_TEMP_READ: A read of GH_WB_TEMP(i) returns NOW and PEAK and reloads PEAK with NOW (R398). -/
  | ghWbTempRead (i : Fin 72)
  /-- GH_WB_VOLT_READ: A read of GH_WB_VOLT(d) returns NOW, MIN and MAX and reloads MIN and MAX with NOW (R398). -/
  | ghWbVoltRead (d : Fin 36)
  /-- GH_WB_CURR_READ: A read of GH_WB_CURR(r) returns NOW and PEAK and reloads PEAK with NOW (R398). -/
  | ghWbCurrRead (r : Fin 16)
  /-- GH_PHASE_CFG_WRITE: A write to GH_PHASE_CFG sets EN and LOG2N, and setting EN zeroes GH_PHASE_SEQ (R379). -/
  | ghPhaseCfgWrite (v : Nat)
  /-- GH_WATCHDOG: The firmware has not kicked the watchdog for 1,000 ms and the gatehouse restarts at stage 2 (R395). -/
  | ghWatchdog
  /-- CLAMP_TICK: Every 10 µs the clamp compares the averaged input power with the clamp and adjusts the bench duty (R403). -/
  | clampTick (mv : Option Nat)
  /-- POWER_CLAMP_UNMET: The duty has stayed at 16 for 1 ms while power is above the clamp, so UNMET sets and is logged (R403). -/
  | powerClampUnmet
  /-- RAIL_OVERCURRENT: A rail current exceeds its rated limit and the duty is set to at most 32 within 1 µs (R403). -/
  | railOvercurrent (r : Fin 16) (ma : Nat)
  /-- PW_CLAMP_WRITE: A write to PW_CLAMP sets the clamp, saturated to the range 600 W to the cap (R402). -/
  | pwClampWrite (v : Nat)
  /-- PW_THERM_WRITE: A write to PW_THERM or PW_STACK_THERM sets WARN and THROTTLE, saturated to their bounds (R404). -/
  | pwThermWrite (stack : Bool) (v : Nat)
  /-- THERMAL_TRIP: A sensor crosses TRIP, THERM_N goes low and domains 0 to 34 switch off (R405). -/
  | thermalTrip (i : Fin 72) (reading : Nat)
  /-- MAIN_POWER_FAIL: The main input leaves its limits for 5 µs, the log is copied to flash and domains 0 to 34 switch off (R401). -/
  | mainPowerFail (mv : Nat)
  /-- MAIN_POWER_RESTORED: The main input has stayed valid for 100 ms and start-up restarts at stage 1 (R401). -/
  | mainPowerRestored
  /-- AUX_POWER_LOSS: The auxiliary input falls below 3.0 V and every domain is held in power-on reset (R401). -/
  | auxPowerLoss
  /-- AUX_POWER_ON: The auxiliary input becomes valid and the whole module starts at stage 0 (R414). -/
  | auxPowerOn (main : Bool)
  /-- DOMAIN_FAULT: A main domain's voltage leaves ±5 % for 2 µs, fencing its bench or resetting the module (R400). -/
  | domainFault (d : Fin 35) (mv : Nat)
  /-- REF_LOST: The reference or root lock is lost, the module resets and the gatehouse moves to its oscillator (R407). -/
  | refLost (ref : Bool)
  /-- REF_RESTORED: The reference has been present for 10 ms and start-up restarts at stage 1 (R407). -/
  | refRestored
  /-- MOD_RST_N: MOD_RST_N held low for 10 µs causes a module reset (R414). -/
  | modRstN (us : Nat)
  /-- START_STAGE_1: Stage 1 locks the root PLL, switches on domains 26, 27 and 34, loads fuses, samples straps and brings up the endpoint (R412). -/
  | startStage1 (us : Nat) (straps : Nat) (prof : Nat) (ce : Bool) (ue : Bool) (lock : Bool)
  /-- START_STAGE_2: The ROM chooses and verifies a firmware slot and starts it (R385). -/
  | startStage2 (us : Nat) (sigA : Bool) (sigB : Bool)
  /-- START_STAGE_3: Stage 3 selects the profile, authenticates the configuration, writes its entries, sets the clamp and powers the stockyard (R415). -/
  | startStage3 (us : Nat) (ok0 : Bool) (ok1 : Bool)
  /-- START_STAGE_4: Stage 4 powers the memory interfaces, trains all 8 stacks, zeroes them and starts the scrub (R412). -/
  | startStage4 (us : Nat) (fail : Nat)
  /-- START_STAGE_5: Stage 5 powers the bench domains and runs the known-answer tests (R431). -/
  | startStage5 (us : Nat) (fails : List (Fin 24 × Nat × Nat × Nat))
  /-- START_STAGE_6: Stage 6 powers the link groups, enables every port and forms epoch 1 or starts a join (R412). -/
  | startStage6 (us : Nat)
  /-- START_RELEASE: The endpoint leaves retry status, sends Device Readiness Status and GH_STATUS.STAGE becomes 7 (R412). -/
  | startRelease
  /-- RESIDUE_MISMATCH: A residue check mismatches and the bench starts to fence (R422). -/
  | residueMismatch (b : Fin 24) (tag : Nat) (pass : Nat) (row : Nat) (col : Nat) (site : Nat)
  /-- BENCH_UNCORRECTABLE: An uncorrectable word or parity error in a bench structure starts a fence with cause 2 or 3 (R423). -/
  | benchUncorrectable (b : Fin 24) (site : Nat) (e : Machine.BenchErr)
  /-- FENCE_COMPLETE: Within 50 µs the fence shows in the status registers and the gatehouse logs it and raises source 81 (R425). -/
  | fenceComplete (b : Fin 24)
  /-- BRIDGE_FLIT: A bridge flit arrives and is checked, and a CRC failure makes it replay (R424). -/
  | bridgeFlit (dir : Nat) (addr : Nat) (fails : Nat) (write : Bool) (who : Option Machine.TxnFor)
  /-- BRIDGE_RETRY: Once per second while the replay count is nonzero the count is reported (R424). -/
  | bridgeRetry
  /-- BANK_COOLS: A hot bank or seam has had fewer than HOT_THRESH waiting requests in each of 256 consecutive core cycles and cools, so its quota returns to a quarter of the tags (R266). -/
  | bankCools (i : Nat)
  /-- HOST_LINK_UP: The PCI Express link finishes training at a supported speed and width, and HX_LINK.UP, SPEED and WIDTH are set (R360). -/
  | hostLinkUp (speed : Nat) (width : Nat)
  /-- GATEHOUSE_FIRMWARE_SRAM_UNCORRECTABLE: An uncorrectable word in the gatehouse firmware SRAM restarts the gatehouse as a watchdog reset does (R423). -/
  | gatehouseFirmwareSramUncorrectable
  /-- RUNNING_IMAGE_REQUEST: A member receives another member's request for its running firmware image and serves it on VC7 (R386). -/
  | runningImageRequest (src : Nat)
  /-- BRIDGE_RETRAINED: The die-to-die bridge completes the retraining that a 16-times-failed flit began, within 20 µs, and traffic across it resumes (R424). -/
  | bridgeRetrained
  deriving DecidableEq, Repr

end Sys2Proof
end

