-- ==== Sys2Proof/Decode.lean ====
section
/-! DEFINITION. Decoding. No row of spec/opcode_table.json has bits, so `decodeTableWord` reads no command from a word. The instruction
words of the control cores (R281, R282) are decoded and encoded here. -/
namespace Sys2Proof

/-- No row of the table gives bits: no word spells a command. -/
def decodeTableWord (_nbits _w : Nat) : Option Instr := none

namespace Machine

/-- Is an FN value of opcode 0x38 listed (R284)? -/
def fpFnOk (f : Nat) : Bool := decide (f ≤ 0x0C) || (decide (0x10 ≤ f) && decide (f ≤ 0x16)) || (decide (0x18 ≤ f) && decide (f ≤ 0x1B))

/-- Is an FN value of opcode 0x3D listed (R282)? -/
def queFnOk (f : Nat) : Bool := [0x00, 0x01, 0x02, 0x08, 0x09, 0x0A, 0x0B, 0x10, 0x18, 0x19, 0x20].contains f

/-- An instruction of R282: the listed FN values, and 0 in every field that its row does not name (DEDUCED, log 21). -/
def Ed.wf : Ed → Bool
  | .imm f _ y i =>
    (if f.val = 7 ∨ f.val = 8 then y.val == 0 else true) && (if 4 ≤ f.val ∧ f.val ≤ 6 then decide (i.val < 64) else true)
  | .fp f _ _ _ => fpFnOk f.val
  | .sys f x y => (if f.val = 6 then true else x.val == 0) && (if f.val = 1 ∨ f.val = 2 then true else y.val == 0)
  | .que f x y i =>
    queFnOk f.val
      && (if f.val = 1 ∨ f.val = 8 ∨ f.val = 9 ∨ f.val = 11 ∨ f.val = 16 then x.val == 0 else true)
      && (if f.val = 0 ∨ f.val = 2 ∨ f.val = 10 then y.val == 0 else true)
      && (if f.val = 24 ∨ f.val = 25 then decide (i.val < 4) else true)
      && (if f.val = 32 then decide (i.val < 32) else true)
  | _ => true

/-- The fields of a word of format R or I. -/
def edWord (op x y rest : Nat) : Nat := op * 2 ^ 26 + x * 2 ^ 21 + y * 2 ^ 16 + rest

/-- The 32-bit word of an instruction (R281, R282). -/
def Ed.encode : Ed → Nat
  | .alu f x y z => edWord 0x00 x y (z * 2 ^ 11 + f)
  | .imm f x y i => edWord (f + 1) x y i
  | .ld f x y i => edWord (0x10 + f) x y i
  | .st f x y i => edWord (0x18 + f) x y i
  | .br f x y i => edWord (0x20 + f) x y i
  | .jal o => 0x28 * 2 ^ 26 + o
  | .j o => 0x29 * 2 ^ 26 + o
  | .jr x y => edWord 0x2A x y 0
  | .loop n y len => edWord 0x30 (8 * n) y len
  | .loopi n c len => 0x31 * 2 ^ 26 + n * 2 ^ 24 + c * 2 ^ 16 + len
  | .lcset n y => edWord 0x32 (8 * n) y 0
  | .lcget x n => edWord 0x33 x (8 * n) 0
  | .fp f x y z => edWord 0x38 x y (z * 2 ^ 11 + f)
  | .sys f x y => edWord 0x3C x y f
  | .que f x y i => edWord 0x3D x y (i * 2 ^ 8 + f)
  | .top x k => 0x3F * 2 ^ 26 + x * 2 ^ 21 + k

/-- An instruction kept only where R282 lists it. -/
def Ed.checked (e : Ed) : Option Ed := if e.wf then some e else none

/-- The instruction of a 32-bit word; none for a word that R282 does not list (R281). -/
def Ed.decode (w : Nat) : Option Ed :=
  let op := w / 2 ^ 26 % 64
  let xv := w / 2 ^ 21 % 32
  let yv := w / 2 ^ 16 % 32
  let zv := w / 2 ^ 11 % 32
  let x : Fin 32 := Fin.ofNat 32 xv
  let y : Fin 32 := Fin.ofNat 32 yv
  let z : Fin 32 := Fin.ofNat 32 zv
  let i : Fin 65536 := Fin.ofNat 65536 w
  let n : Fin 4 := Fin.ofNat 4 (w / 2 ^ 24)
  let fn := w % 2048
  if op = 0x00 then (if fn < 18 then some (.alu (Fin.ofNat 18 fn) x y z) else none)
  else if op ≤ 0x0A then (Ed.imm (Fin.ofNat 10 (op - 1)) x y i).checked
  else if 0x10 ≤ op ∧ op ≤ 0x16 then some (.ld (Fin.ofNat 7 (op - 0x10)) x y i)
  else if 0x18 ≤ op ∧ op ≤ 0x1B then some (.st (Fin.ofNat 4 (op - 0x18)) x y i)
  else if 0x20 ≤ op ∧ op ≤ 0x25 then some (.br (Fin.ofNat 6 (op - 0x20)) x y i)
  else if op = 0x28 then some (.jal (Fin.ofNat 67108864 w))
  else if op = 0x29 then some (.j (Fin.ofNat 67108864 w))
  else if op = 0x2A then (if w % 65536 = 0 then some (.jr x y) else none)
  else if op = 0x30 then (if xv % 8 = 0 then some (.loop n y i) else none)
  else if op = 0x31 then some (.loopi n (Fin.ofNat 256 (w / 2 ^ 16)) i)
  else if op = 0x32 then (if xv % 8 = 0 ∧ w % 65536 = 0 then some (.lcset n y) else none)
  else if op = 0x33 then (if yv % 8 = 0 ∧ w % 65536 = 0 then some (.lcget x (Fin.ofNat 4 (yv / 8))) else none)
  else if op = 0x38 then (if fn < 28 then (Ed.fp (Fin.ofNat 28 fn) x y z).checked else none)
  else if op = 0x3C then (if zv = 0 ∧ fn < 8 then (Ed.sys (Fin.ofNat 8 fn) x y).checked else none)
  else if op = 0x3D then (if w % 256 < 33 then (Ed.que (Fin.ofNat 33 (w % 256)) x y (Fin.ofNat 256 (w / 256))).checked else none)
  else if op = 0x3F then some (.top x (Fin.ofNat 2097152 w))
  else none

end Machine
end Sys2Proof
end

