-- ==== Sys2Proof/Machine/Mx.lean ====
section
/-! DEFINITION. Microscaling formats (R38 to R42), narrow weight codes (R43, R44) and the stochastic roundings
(R172, R173). Element types are named by the ACT_MX code of R112. -/
namespace Sys2Proof.Machine

/-- The floating-point element type of an ACT_MX code; 6, MXINT8, has none (R112, R38). -/
def elemFp : Nat → Option FpFmt
  | 1 => some E4M3
  | 2 => some E5M2
  | 3 => some E3M2
  | 4 => some E2M3
  | 5 => some E2M1
  | _ => none

/-- emax_elem of R42. -/
def elemEmax : Nat → Int
  | 1 => 8
  | 2 => 15
  | 3 => 4
  | 4 => 2
  | 5 => 2
  | _ => 0

/-- Bits per element (R38). -/
def elemBits : Nat → Nat
  | 3 => 6
  | 4 => 6
  | 5 => 4
  | _ => 8

/-- Bytes of a block of 32 elements (R40). -/
def blockBytes (t : Nat) : Nat := 4 * elemBits t

/-- The value of an element code, before its block scale (R34, R38). -/
def elemVal (t c : Nat) : Val × Cond :=
  match elemFp t with
  | some f => fpRead c f
  | none => (Val.ofRat ((signed 8 c : Rat) / 64), Cond.none)

/-- Element k of packed elements (R40): the little-endian bit string of the packing. -/
def elemAt (t : Nat) (l : Bytes) (k : Nat) : Nat :=
  let w := elemBits t
  (leAt l (k * w / 8) 2 >>> (k * w % 8)) % 2 ^ w

/-- Packs 4j + i elements of a block into bytes (R40). -/
def packElems (t : Nat) (cs : List Nat) : Bytes :=
  let w := elemBits t
  leBytes (cs.length * w / 8) (cs.foldr (fun c acc => c % 2 ^ w + 2 ^ w * acc) 0)

/-- One element entering the log-cell array (R41): its LX16 code. The caller handles scale 0xFF. -/
def mxToLx16 (t c : Nat) : Nat × Cond :=
  let v := elemVal t c
  let r := logEncode v.1 LX16
  (r.1, v.2.or r.2)

/-- The block exponent X of a scale byte; 0 for the NaN scale (R39, R41). -/
def blockX (scale : Nat) : Int := if scale = 0xFF then 0 else (scale : Int) - 127

/-- A whole block converted for the array: 32 codes, the block exponent, the conditions (R41). -/
def mxBlockToLx16 (t scale : Nat) (cs : List Nat) : List Nat × Int × Cond :=
  if scale = 0xFF then (cs.map (fun _ => LX16.nan), 0, Cond.none)
  else
    let r := cs.map (mxToLx16 t)
    (r.map (·.1), blockX scale, r.foldl (fun k x => k.or x.2) Cond.none)

/-- The exact value of a Microscaling element with its scale (R39, R220). -/
def mxVal (t scale c : Nat) : Val × Cond :=
  if scale = 0xFF then (.nan, Cond.none)
  else
    match elemVal t c with
    | (.fin s m, k) => (.fin s (m * pow2 (blockX scale)), k)
    | r => r

/-- `sr_fmt` of R172 for a finite magnitude. -/
def srFmt (s : Bool) (m : Rat) (f : FpFmt) (r : Nat) : Rounded × Cond :=
  if m = 0 then (.zero s, Cond.none)
  else
    let ee := max (flog2 m) f.emin
    let u := m * pow2 ((f.M : Int) - ee)
    let rr : Rat := (r : Rat) * pow2 (-16)
    let lowNorm : Rat := (2 ^ f.M : Nat)
    if u < lowNorm ∧ u * pow2 (-(f.M : Int)) + rr < 1 then (.zero s, Cond.underflow)
    else
      let n := if u ≥ lowNorm then (u + rr).floor.toNat else 2 ^ f.M
      let c := if (n : Rat) = u then Cond.none else Cond.inexact
      let carry := decide (n = 2 ^ (f.M + 1))
      let n1 := if carry then 2 ^ f.M else n
      let e1 := if carry then ee + 1 else ee
      if e1 > f.emax ∨ (e1 = f.emax ∧ n1 > f.nmax) then (.num s f.emax f.nmax, c.or Cond.overflow)
      else (.num s e1 n1, c)

/-- A rounding to a floating-point type: to nearest (R35), or stochastic with a random value (R172). -/
def roundOr (r : Option Nat) (s : Bool) (m : Rat) (f : FpFmt) : Rounded × Cond :=
  match r with
  | none => roundFmt s m f
  | some v => srFmt s m f v

/-- The magnitude of a value; 0 for NaN and infinity. -/
def Val.mag : Val → Rat
  | .fin _ m => m
  | _ => 0

/-- The sign of a value. -/
def Val.sgn : Val → Bool
  | .fin s _ => s
  | .inf s => s
  | .nan => false

/-- Is the value NaN? -/
def Val.isNan : Val → Bool
  | .nan => true
  | _ => false

/-- Is the value infinite? -/
def Val.isInf : Val → Bool
  | .inf _ => true
  | _ => false

/-- One element of `mx_encode` (R42), with block exponent x; overflow counts only when `high`. -/
def mxElem (t : Nat) (x : Int) (high : Bool) (r : Option Nat) (v : Val) : Nat × Cond :=
  match elemFp t with
  | some f =>
    match v with
    | .inf s => (f.enc (f.maxFin s), { ovf := high, inx := true })
    | _ =>
      let q := roundOr r v.sgn (v.mag * pow2 (-x)) f
      (f.enc q.1, { q.2 with ovf := q.2.ovf && high })
  | none =>
    let y := v.mag * pow2 (6 - x)
    let n : Int :=
      if v.isInf then 2 ^ 16
      else match r with
        | none => rne y
        | some k => (y + (k : Rat) * pow2 (-16)).floor
    let c1 : Cond := { inx := decide ((n : Rat) ≠ y), unf := decide (n = 0 ∧ y ≠ 0) }
    let sn := if v.sgn then -n else n
    let cl := clampInt sn (-128) 127
    let c2 : Cond := if cl = sn then Cond.none else { inx := true, ovf := high }
    (toBits 8 cl, c1.or c2)

/-- `mx_encode` of R42 over one block: the scale byte and each element's code and conditions, with one random value per
element when stochastic (R172). -/
def mxEncodeEls (t : Nat) (vs : List Val) (rs : Option (List Nat)) : Nat × List (Nat × Cond) :=
  if vs.any Val.isNan then (0xFF, vs.map (fun _ => (0, Cond.none)))
  else
    let anyInf := vs.any Val.isInf
    let amax := vs.foldl (fun m v => max m v.mag) 0
    let x0 : Int := if anyInf then 128 else if amax = 0 then -127 else flog2 amax - elemEmax t
    let high := decide (x0 > 127)
    let x := clampInt x0 (-127) 127
    let pairs := vs.zip (match rs with
      | none => vs.map (fun _ => (none : Option Nat))
      | some l => (l.map some) ++ vs.map (fun _ => some 0))
    ((x + 127).toNat, pairs.map (fun p => mxElem t x high p.2 p.1))

/-- `mx_encode` with the conditions of the whole block. -/
def mxEncode (t : Nat) (vs : List Val) (rs : Option (List Nat)) : Nat × List Nat × Cond :=
  let r := mxEncodeEls t vs rs
  (r.1, r.2.map (·.1), r.2.foldl (fun k e => k.or e.2) Cond.none)

/-- `sr_log` of R173. -/
def srLog (v : Val) (f : LogFmt) (r : Nat) : Nat × Cond :=
  match v with
  | .nan => (f.nan, Cond.none)
  | .inf s => (f.code s f.qmax, Cond.overflow)
  | .fin s x =>
    if x = 0 then (f.zero, Cond.none)
    else
      let P := x.num.natAbs ^ (2 ^ f.F)
      let D := x.den ^ (2 ^ f.F)
      let q0 := flog2Nat P D
      let isInt := if 0 ≤ q0 then decide (P = D * 2 ^ q0.toNat) else decide (P * 2 ^ (-q0).toNat = D)
      if q0 > f.qmax ∨ (q0 = f.qmax ∧ !isInt) then (f.code s f.qmax, Cond.overflow)
      else if isInt ∧ q0 ≥ -f.qmax then (f.code s q0, Cond.none)
      else
        let dec := fun (q : Int) => let d := decodeQ f.F q 0; (d.1 : Rat) * pow2 (d.2 - 24)
        let below := decide (q0 < -f.qmax)
        let lo : Rat := if below then 0 else dec q0
        let qup := if below then -f.qmax else q0 + 1
        let hi := dec qup
        let p0 := (x - lo) / (hi - lo)
        let p : Rat := if p0 < 0 then 0 else if p0 > 1 then 1 else p0
        if p + (r : Rat) * pow2 (-16) ≥ 1 then (f.code s qup, Cond.inexact)
        else if below then (f.zero, Cond.underflow)
        else (f.code s q0, Cond.inexact)

end Sys2Proof.Machine
end

