-- ==== Sys2Proof/Machine/Fp.lean ====
section
/-! DEFINITION. FP32 operations: the exact result rounded once (R35), with the special cases of R34, R70, R73 to R77,
R83 and R284. The update programs (R220) and the control cores (R284) use the same functions. -/
namespace Sys2Proof.Machine

/-- The exact sum of two finite values; an exact zero sum of opposite signs is +0, of equal signs keeps the sign
(R75). NaN if either is NaN. -/
def vadd (a b : Val) : Val :=
  match a, b with
  | .fin sa ma, .fin sb mb =>
    if ma = 0 ∧ mb = 0 then .fin (sa && sb) 0
    else Val.ofRat (Val.toRat (.fin sa ma) + Val.toRat (.fin sb mb))
  | _, _ => .nan

/-- The exact product of two finite values, with the exclusive-or of the signs. -/
def vmul (a b : Val) : Val :=
  match a, b with
  | .fin sa ma, .fin sb mb => .fin (xor sa sb) (ma * mb)
  | _, _ => .nan

/-- The opposite sign. -/
def vneg : Val → Val
  | .fin s m => .fin (!s) m
  | .inf s => .inf (!s)
  | .nan => .nan

/-- A square root cut to 96 significant bits, with half a unit added when it is not exact: every rounding to a binary
grid of fewer bits sees the same result as for the exact root. -/
def sqrtMag (r : Rat) : Rat :=
  if r = 0 then 0
  else
    let k := 96 - flog2 r / 2
    let y := r * pow2 (2 * k)
    let n := Nat.sqrt y.floor.toNat
    let ex := decide (((n * n : Nat) : Rat) = y)
    (((if ex then 2 * n else 2 * n + 1 : Nat) : Rat)) * pow2 (-k - 1)

/-- An FP32 result with its conditions. -/
abbrev FpRes := Nat × Cond

/-- Rounds an exact value to FP32, adding conditions already raised. -/
def fpOut (v : Val) (c : Cond) : FpRes :=
  let r := fpEncode v FP32
  (r.1, c.or r.2)

/-- The largest finite FP32 magnitude with a sign, raising overflow and inexact (R83 item 2). -/
def fpSat (s : Bool) (c : Cond) : FpRes := (FP32.enc (FP32.maxFin s), c.or Cond.overflow)

/-- The canonical NaN with invalid (R70). -/
def fpInvalid (c : Cond) : FpRes := (FP32.nanCode, c.or Cond.invalid)

/-- A two-operand operation on operands read under R34. -/
def fpBin (f : Val → Val → Cond → FpRes) (a b : Nat) : FpRes :=
  let x := fpOperand a FP32
  let y := fpOperand b FP32
  f x.1 y.1 (x.2.or y.2)

def fpAdd : Nat → Nat → FpRes := fpBin (fun x y c => fpOut (vadd x y) c)
def fpSub : Nat → Nat → FpRes := fpBin (fun x y c => fpOut (vadd x (vneg y)) c)
def fpMul : Nat → Nat → FpRes := fpBin (fun x y c => fpOut (vmul x y) c)

/-- a × b + k with one rounding (R284, R219). -/
def fpFma (a b k : Nat) : FpRes :=
  let z := fpOperand k FP32
  fpBin (fun x y c => fpOut (vadd (vmul x y) z.1) (c.or z.2)) a b

/-- Division (R70, R83 item 2). -/
def fpDiv : Nat → Nat → FpRes := fpBin (fun x y c =>
  match x, y with
  | .fin sx mx, .fin sy my =>
    if my = 0 then (if mx = 0 then fpInvalid c else fpSat (xor sx sy) c)
    else fpOut (.fin (xor sx sy) (mx / my)) c
  | _, _ => fpOut .nan c)

/-- Square root (R70); the root of −0 is −0. -/
def fpSqrt (a : Nat) : FpRes :=
  match fpOperand a FP32 with
  | (.fin s m, c) =>
    if m = 0 then fpOut (.fin s 0) c else if s then fpInvalid c else fpOut (.fin false (sqrtMag m)) c
  | (_, c) => fpOut .nan c

/-- Reciprocal square root (R70, R83 item 2). -/
def fpRsqrt (a : Nat) : FpRes :=
  match fpOperand a FP32 with
  | (.fin s m, c) =>
    if m = 0 then fpSat s c else if s then fpInvalid c else fpOut (.fin false (sqrtMag (1 / m))) c
  | (_, c) => fpOut .nan c

/-- The fraction bits of log2 of a number in [1, 2), held as a fixed-point number of 160 fraction bits, by repeated
squaring: `k` bits, accumulated in `acc`. -/
def log2Bits : Nat → Nat → Nat → Nat
  | 0, _, acc => acc
  | k + 1, a, acc =>
    let b := (a * a) >>> 160
    if b ≥ 2 ^ 161 then log2Bits k (b / 2) (2 * acc + 1) else log2Bits k b (2 * acc)

/-- log2 of a positive rational cut to 96 fraction bits, with half a unit added unless it is an integer. -/
def log2Approx (m : Rat) : Rat :=
  let e := flog2 m
  let r := m * pow2 (-e)
  if r = 1 then (e : Rat)
  else
    let a := (r * pow2 160).floor.toNat
    (e : Rat) + ((2 * log2Bits 96 a 0 + 1 : Nat) : Rat) * pow2 (-97)

/-- Base-2 logarithm (R284): of 0, the largest negative finite value; of a negative value, NaN. -/
def fpLog2 (a : Nat) : FpRes :=
  match fpOperand a FP32 with
  | (.fin s m, c) =>
    if m = 0 then fpSat true c else if s then fpInvalid c else fpOut (Val.ofRat (log2Approx m)) c
  | (_, c) => fpOut .nan c

/-- The product of the roots 2^(2^−i) that the bits of a fraction select, in 160-bit fixed point: `k` bits of `f`, the
current root `r`, the product so far `acc`. -/
def exp2Bits : Nat → Nat → Nat → Nat → Nat
  | 0, _, _, acc => acc
  | k + 1, f, r, acc =>
    let root := Nat.sqrt (r <<< 160)
    exp2Bits k f root (if f.testBit k then (acc * root) >>> 160 else acc)

/-- 2 to a rational power, for a power between −256 and 256: exact for an integer, otherwise cut to 160 fraction bits
with half a unit added. -/
def exp2Approx (x : Rat) : Rat :=
  let k := x.floor
  let f := x - k
  if f = 0 then pow2 k
  else
    let n := (f * pow2 150).floor.toNat
    ((2 * exp2Bits 150 n (2 ^ 161) (2 ^ 160) + 1 : Nat) : Rat) * pow2 (k - 161)

/-- The value of a finite LX16 code by R25: a sign and 2 to q/512, cut far below every rounding that uses it when it is
irrational. -/
def lxReal (c : Nat) : Bool × Rat := (LX16.sgn c, exp2Approx (mkRat (LX16.q c) 512))

/-- The value of narrow code c under row metadata `md` (R43, R44): v(SCALE) × (c − z). -/
def nwVal (md c : Nat) : Val :=
  let sc := bits md 31 16
  if LX16.special sc then (if LX16.sgn sc then .nan else .fin false 0)
  else
    let v := lxReal sc
    let d : Rat := (c : Rat) - (signed 8 (bits md 15 8) : Rat) / 16
    Val.ofRat (if v.1 then -(v.2 * d) else v.2 * d)

/-- The narrow code of a finite value x in a row with a finite nonzero SCALE (R220, R221): clamp of rne(y), or of
floor(y + r × 2^−16), with y = x / v(SCALE) + z; inexact where the code differs from y. -/
def nwCode (md b : Nat) (r : Option Nat) (x : Rat) : Nat × Cond :=
  let v := lxReal (bits md 31 16)
  let y := (if v.1 then -(x / v.2) else x / v.2) + (signed 8 (bits md 15 8) : Rat) / 16
  let n := match r with
    | none => rne y
    | some q => (y + (q : Rat) * pow2 (-16)).floor
  let c := (clampInt n 0 (2 ^ b - 1)).toNat
  (c, if (c : Rat) = y then Cond.none else Cond.inexact)

/-- Power of two (R284): saturates with overflow, flushes with underflow. -/
def fpExp2 (a : Nat) : FpRes :=
  match fpOperand a FP32 with
  | (.fin s m, c) =>
    let x := Val.toRat (.fin s m)
    if x > 200 then fpSat false c
    else if x < -200 then (FP32.enc (.zero false), c.or Cond.underflow)
    else fpOut (.fin false (exp2Approx x)) c
  | (_, c) => fpOut .nan c

/-- Remainder (R70, R284): x − y × rne(x / y), a zero result with the sign of x; NaN for y = 0 or x infinite on
input. DEDUCED (log 20): the remainder is that of IEEE 754, since R83 lists no departure. -/
def fpRem (a b : Nat) : FpRes :=
  let x0 := fpRead a FP32
  let y := fpOperand b FP32
  let c := x0.2.or y.2
  if x0.1.isNan ∨ y.1.isNan then fpOut .nan c
  else if x0.1.isInf ∨ y.1.mag = 0 then fpInvalid c
  else
    let rx := x0.1.toRat
    let ry := y.1.toRat
    let r := rx - ry * (rne (rx / ry) : Rat)
    fpOut (if r = 0 then .fin x0.1.sgn 0 else Val.ofRat r) c

/-- The order of two numbers by value: −0 and +0 equal. -/
def vlt (a b : Val) : Bool := decide (a.toRat < b.toRat)

/-- The primitive MAX of R73: by value, equal operands give the first, NaN gives NaN. -/
def vmaxPrim (a b : Val) : Val := if a.isNan || b.isNan then .nan else if vlt a b then b else a
/-- The primitive MIN of R73. -/
def vminPrim (a b : Val) : Val := if a.isNan || b.isNan then .nan else if vlt b a then b else a

def fpMaxPrim : Nat → Nat → FpRes := fpBin (fun x y c => fpOut (vmaxPrim x y) c)
def fpMinPrim : Nat → Nat → FpRes := fpBin (fun x y c => fpOut (vminPrim x y) c)

/-- a before b in the order of R74, where −0 lies below +0. -/
def vlt0 (a b : Val) : Bool :=
  decide (a.toRat < b.toRat) || (decide (a.toRat = b.toRat) && a.sgn && !b.sgn)

/-- maximum (R74). -/
def vmaximum (a b : Val) : Val := if a.isNan || b.isNan then .nan else if vlt0 a b then b else a
/-- minimum (R74). -/
def vminimum (a b : Val) : Val := if a.isNan || b.isNan then .nan else if vlt0 b a then b else a
/-- maximumNumber (R74). -/
def vmaximumNum (a b : Val) : Val := if a.isNan then b else if b.isNan then a else vmaximum a b
/-- minimumNumber (R74). -/
def vminimumNum (a b : Val) : Val := if a.isNan then b else if b.isNan then a else vminimum a b

def fpMaximum : Nat → Nat → FpRes := fpBin (fun x y c => fpOut (vmaximum x y) c)
def fpMinimum : Nat → Nat → FpRes := fpBin (fun x y c => fpOut (vminimum x y) c)
def fpMaximumNum : Nat → Nat → FpRes := fpBin (fun x y c => fpOut (vmaximumNum x y) c)
def fpMinimumNum : Nat → Nat → FpRes := fpBin (fun x y c => fpOut (vminimumNum x y) c)

/-- A quiet predicate on two operands (R77); `un` is its value when unordered. -/
def fpPred (un : Bool) (p : Rat → Rat → Bool) : Nat → Nat → FpRes := fpBin (fun x y c =>
  (b2n (if x.isNan || y.isNan then un else p x.toRat y.toRat), c))

def fpEq : Nat → Nat → FpRes := fpPred false (fun a b => decide (a = b))
def fpNe : Nat → Nat → FpRes := fpPred true (fun a b => decide (a ≠ b))
def fpLt : Nat → Nat → FpRes := fpPred false (fun a b => decide (a < b))
def fpLe : Nat → Nat → FpRes := fpPred false (fun a b => decide (a ≤ b))
def fpGt : Nat → Nat → FpRes := fpPred false (fun a b => decide (b < a))
def fpGe : Nat → Nat → FpRes := fpPred false (fun a b => decide (b ≤ a))
def fpUn : Nat → Nat → FpRes := fpPred true (fun _ _ => false)

/-- FP32 to s64 by rne (R284): NaN gives 0, out of range saturates, both invalid (R78). -/
def fpToInt (a : Nat) : Nat × Cond :=
  match fpOperand a FP32 with
  | (.fin s m, c) =>
    let x := Val.toRat (.fin s m)
    let n := rne x
    if n > 2 ^ 63 - 1 then (2 ^ 63 - 1, c.or Cond.invalid)
    else if n < -(2 ^ 63) then (2 ^ 63, c.or Cond.invalid)
    else (toBits 64 n, if (n : Rat) = x then c else c.or Cond.inexact)
  | (_, c) => (0, c.or Cond.invalid)

/-- s64 to FP32 by round_fmt (R284). -/
def fpOfInt (a : Nat) : FpRes := fpOut (Val.ofRat (signed 64 a : Rat)) Cond.none

/-- The key whose order is totalOrder on codes of width w (R76). -/
def totalKey (w a : Nat) : Int :=
  let m : Int := (a % 2 ^ (w - 1) : Nat)
  if a.testBit (w - 1) then -m - 1 else m

/-- FTOTAL (R284, R76). -/
def fpTotal (a b : Nat) : Bool := decide (totalKey 32 a ≤ totalKey 32 b)

/-- `log_order_key` of R76. -/
def logOrderKey (c : Nat) (f : LogFmt) : Int :=
  if f.special c then (if f.sgn c then 2 * f.qmax + 2 else 0)
  else if f.sgn c then -(f.q c + f.qmax + 1) else f.q c + f.qmax + 1

end Sys2Proof.Machine
end

