-- ==== Sys2Proof/Machine/SMap.lean ====
section
/-! DEFINITION. Sparse data by address in one canonical form: keys strictly rising and no entry equal to what an
unlisted key reads as. Memory, the register file and the arbiters are held so. -/
namespace Sys2Proof.Machine

variable {α : Type}

/-- What the map holds at a key; `d` says what an unlisted key reads as. -/
def SMap.get (d : Nat → α) : List (Nat × α) → Nat → α
  | [], k => d k
  | (j, v) :: r, k => if k = j then v else SMap.get d r k

/-- Puts an entry in its place in the rising list, replacing one of the same key. -/
def SMap.insert (k : Nat) (v : α) : List (Nat × α) → List (Nat × α)
  | [] => [(k, v)]
  | (j, w) :: r => if k < j then (k, v) :: (j, w) :: r else if k = j then (k, v) :: r else (j, w) :: SMap.insert k v r

/-- Takes the entry of a key away. -/
def SMap.erase (k : Nat) : List (Nat × α) → List (Nat × α)
  | [] => []
  | (j, w) :: r => if k = j then r else (j, w) :: SMap.erase k r

/-- Writes a key, keeping the canonical form. -/
def SMap.set [DecidableEq α] (d : Nat → α) (m : List (Nat × α)) (k : Nat) (v : α) : List (Nat × α) :=
  if v = d k then SMap.erase k m else SMap.insert k v m

/-- The canonical form: strictly rising keys above `b`, no entry equal to the default. -/
def SMap.wfFrom [DecidableEq α] (d : Nat → α) : Nat → List (Nat × α) → Bool
  | _, [] => true
  | b, (k, v) :: r => decide (b ≤ k) && decide (v ≠ d k) && SMap.wfFrom d (k + 1) r

/-- The canonical form of a map. -/
def SMap.wf [DecidableEq α] (d : Nat → α) (m : List (Nat × α)) : Bool := SMap.wfFrom d 0 m

/-- Keeps the entries whose key `p` accepts: a reset of an address range drops the others. -/
def SMap.keep (p : Nat → Bool) (m : List (Nat × α)) : List (Nat × α) := m.filter (fun e => p e.1)

/-- Adds a number to a strictly rising list. -/
def SSet.insert (k : Nat) : List Nat → List Nat
  | [] => [k]
  | j :: r => if k < j then k :: j :: r else if k = j then j :: r else j :: SSet.insert k r

/-- Removes a number from a list without repeats. -/
def SSet.erase (k : Nat) (l : List Nat) : List Nat := l.filter (fun j => j != k)

/-- Strictly rising from a bound. -/
def SSet.wfFrom : Nat → List Nat → Bool
  | _, [] => true
  | b, k :: r => decide (b ≤ k) && SSet.wfFrom (k + 1) r

end Sys2Proof.Machine
end

