-- ==== Sys2Proof/Machine/Regs.lean ====
section
/-! DEFINITION. The register space (R238): the base of every block, the address of every register under its own name, and
the table of access masks and reset values that the register maps give (R80, R114, R134, R157, R181, R182, R207, R234,
R235, R245, R251, R270, R271, R302, R330, R358, R371, R398, R418, R419). -/
namespace Sys2Proof.Machine

def BN.base (b : Nat) : Nat := 0x020000000000 + 0x10000 * b
def MU.base (b : Nat) : Nat := BN.base b + 0x1000
def CR.base (b : Nat) : Nat := BN.base b + 0x2000
/-- Derricks 2b and 2b + 1 lie in the window of bench b. -/
def DK.base (d : Nat) : Nat := BN.base (d / 2) + 0x3000 + 0x1000 * (d % 2)
def CC.base (b : Nat) : Nat := BN.base b + 0x6000
def DR.base (b : Nat) : Nat := BN.base b + 0x8000
def SP.base : Nat := 0x020000200000
def SY.base : Nat := 0x020000210000
def MM.base : Nat := 0x020000220000
def UE.base (s : Nat) : Nat := 0x020000300000 + 0x10000 * s
def LK.base (p : Nat) : Nat := 0x020000400000 + 0x4000 * p
def CL.base (u : Nat) : Nat := 0x020000500000 + 0x10000 * u
def HX.base : Nat := 0x020000600000
def PW.base : Nat := 0x020000610000
def CK.base : Nat := 0x020000620000
def FZ.base : Nat := 0x020000630000
def GH.base : Nat := 0x020001000000
def GC.base : Nat := 0x020001100000

def R.BN_ID (b : Nat) : Nat := BN.base b + 0x0
def R.BN_CTRL (b : Nat) : Nat := BN.base b + 0x8
def R.BN_STATUS (b : Nat) : Nat := BN.base b + 0x10
def R.BN_COMMIT (b : Nat) : Nat := BN.base b + 0x18
def R.BN_COMMIT_STATUS (b : Nat) : Nat := BN.base b + 0x20
def R.BN_FAULT (b : Nat) : Nat := BN.base b + 0x80
def R.BN_FAULT_POS (b : Nat) : Nat := BN.base b + 0x88
def R.BN_TILE_CFG (b : Nat) : Nat := BN.base b + 0x100
def R.BN_RING (b : Nat) : Nat := BN.base b + 0x108
def R.BN_PART_BASE (b : Nat) : Nat := BN.base b + 0x110
def R.BN_PART_LIMIT (b : Nat) : Nat := BN.base b + 0x118
def R.BN_SPILL_BASE (b : Nat) : Nat := BN.base b + 0x120
def R.BN_SPILL_LIMIT (b : Nat) : Nat := BN.base b + 0x128
def R.BN_PLANE (b i : Nat) : Nat := BN.base b + 0x140 + 8 * i
def R.BN_STALL (b i : Nat) : Nat := BN.base b + 0x200 + 8 * i
def R.BN_TILES_DONE (b : Nat) : Nat := BN.base b + 0x300
def R.BN_FLAGS (b : Nat) : Nat := BN.base b + 0x400
def R.BN_FLAGS_RC (b : Nat) : Nat := BN.base b + 0x408
def R.BN_FLAG_CFG (b : Nat) : Nat := BN.base b + 0x410
def R.DR_RERUN (b : Nat) : Nat := DR.base b + 0x0
def R.DR_STATUS (b : Nat) : Nat := DR.base b + 0x8
def R.DR_CTRL (b : Nat) : Nat := DR.base b + 0x10
def R.DR_MARKED (b : Nat) : Nat := DR.base b + 0x100
def R.DR_SATURATED (b : Nat) : Nat := DR.base b + 0x108
def R.DR_ROWS (b : Nat) : Nat := DR.base b + 0x110
def R.DR_TABLE (b i : Nat) : Nat := DR.base b + 0x1000 + 8 * i
def R.MU_PASSES (b : Nat) : Nat := MU.base b + 0x0
def R.MU_CTRL (b : Nat) : Nat := MU.base b + 0x8
def R.MU_STATUS (b : Nat) : Nat := MU.base b + 0x10
def R.MU_FAULT (b : Nat) : Nat := MU.base b + 0x18
def R.MU_BUSY (b : Nat) : Nat := MU.base b + 0x100
def R.CR_CTRL (b : Nat) : Nat := CR.base b + 0x0
def R.CR_STATUS (b : Nat) : Nat := CR.base b + 0x8
def R.CR_FAULT (b : Nat) : Nat := CR.base b + 0x10
def R.CR_BLOCKS (b : Nat) : Nat := CR.base b + 0x100
def R.DK_CTRL (b : Nat) : Nat := DK.base b + 0x0
def R.DK_STATUS (b : Nat) : Nat := DK.base b + 0x8
def R.DK_FAULT (b : Nat) : Nat := DK.base b + 0x10
def R.DK_FAULT_ADDR (b : Nat) : Nat := DK.base b + 0x18
def R.DK_RA_DROPPED (b : Nat) : Nat := DK.base b + 0x100
def R.DK_BYTES (b : Nat) : Nat := DK.base b + 0x108
def R.DK_STALL (b i : Nat) : Nat := DK.base b + 0x200 + 8 * i
def R.CC_ID (b : Nat) : Nat := CC.base b + 0x0
def R.CC_CTRL (b : Nat) : Nat := CC.base b + 0x8
def R.CC_STATUS (b : Nat) : Nat := CC.base b + 0x10
def R.CC_CFG (b : Nat) : Nat := CC.base b + 0x18
def R.CC_FLAGS (b : Nat) : Nat := CC.base b + 0x20
def R.CC_PC (b : Nat) : Nat := CC.base b + 0x28
def R.CC_TOPPOS (b : Nat) : Nat := CC.base b + 0x30
def R.CC_FAULT (b : Nat) : Nat := CC.base b + 0x40
def R.CC_FAULT_PC (b : Nat) : Nat := CC.base b + 0x48
def R.CC_FAULT_ADDR (b : Nat) : Nat := CC.base b + 0x50
def R.CC_BRK_CFG (b : Nat) : Nat := CC.base b + 0x80
def R.CC_BRK_TAG (b : Nat) : Nat := CC.base b + 0x88
def R.CC_BRK_COUNT (b : Nat) : Nat := CC.base b + 0x90
def R.CC_BRK_PC (b : Nat) : Nat := CC.base b + 0x98
def R.CC_GREG (b i : Nat) : Nat := CC.base b + 0x100 + 8 * i
def R.CC_LC (b i : Nat) : Nat := CC.base b + 0x200 + 8 * i
def R.CC_LOOP (b i : Nat) : Nat := CC.base b + 0x240 + 8 * i
def R.CC_LSTART (b i : Nat) : Nat := CC.base b + 0x260 + 8 * i
def R.CC_QCOUNT (b i : Nat) : Nat := CC.base b + 0x300 + 8 * i
def R.CC_STALL (b i : Nat) : Nat := CC.base b + 0x500 + 8 * i
def R.CC_CYCLES (b : Nat) : Nat := CC.base b + 0x600
def R.CC_MISPREDICT (b : Nat) : Nat := CC.base b + 0x608
def R.CC_SYNC (b i : Nat) : Nat := CC.base b + 0x1000 + 8 * i
def R.SP_JOBKEY (i : Nat) : Nat := SP.base + 0x0 + 8 * i
def R.SP_KEY_CTRL : Nat := SP.base + 0x10
def R.SP_CLAIMS : Nat := SP.base + 0x18
def R.SP_RETIRE : Nat := SP.base + 0x20
def R.SP_REFUSED : Nat := SP.base + 0x28
def R.SP_LAST_REFUSED (i : Nat) : Nat := SP.base + 0x30 + 8 * i
def R.SY_CFG : Nat := SY.base + 0x0
def R.SY_SEL : Nat := SY.base + 0x8
def R.SY_VIEW (i : Nat) : Nat := SY.base + 0x10 + 8 * i
def R.SY_HOT_EVENTS : Nat := SY.base + 0x100
def R.SY_ECC_CE : Nat := SY.base + 0x108
def R.SY_ECC_UE : Nat := SY.base + 0x110
def R.MM_CTX (i : Nat) : Nat := MM.base + 0x0 + 8 * i
def R.MM_INVAL : Nat := MM.base + 0x800
def R.MM_INVAL_STATUS : Nat := MM.base + 0x808
def R.MM_WALKS : Nat := MM.base + 0x810
def R.MM_FAULTS : Nat := MM.base + 0x818
def R.UE_CTRL (b : Nat) : Nat := UE.base b + 0x0
def R.UE_STATUS (b : Nat) : Nat := UE.base b + 0x8
def R.UE_FAULT (b : Nat) : Nat := UE.base b + 0x10
def R.UE_FLAGS (b : Nat) : Nat := UE.base b + 0x18
def R.UE_MARK (b : Nat) : Nat := UE.base b + 0x20
def R.UE_MARK_FAIL (b : Nat) : Nat := UE.base b + 0x28
def R.UE_ELEMS (b : Nat) : Nat := UE.base b + 0x100
def R.UE_ADDS (b : Nat) : Nat := UE.base b + 0x108
def R.UE_PROG (b i : Nat) : Nat := UE.base b + 0x1000 + 8 * i
def R.UE_ATM_BASE (b i : Nat) : Nat := UE.base b + 0x2000 + 16 * i
def R.UE_ATM_LIMIT (b i : Nat) : Nat := UE.base b + 0x2008 + 16 * i
def R.UE_ATM_CFG (b i : Nat) : Nat := UE.base b + 0x2100 + 8 * i
def R.UE_VT_CFG (b : Nat) : Nat := UE.base b + 0x4000
def R.UE_VT_STATUS (b : Nat) : Nat := UE.base b + 0x4008
def R.UE_VT_SEL (b : Nat) : Nat := UE.base b + 0x4010
def R.UE_VT_VIEW (b i : Nat) : Nat := UE.base b + 0x4020 + 8 * i
def R.UE_VT_OP (b i : Nat) : Nat := UE.base b + 0x4100 + 16 * i
def R.UE_VT_RES (b i : Nat) : Nat := UE.base b + 0x4108 + 16 * i
def R.UE_VT_CODE (b i : Nat) : Nat := UE.base b + 0x4300 + 8 * i
def R.UE_VT_WAIT_US (b : Nat) : Nat := UE.base b + 0x4400
def R.UE_VT_EXHAUSTED (b : Nat) : Nat := UE.base b + 0x4408
def R.UE_SCRUB_CFG (b : Nat) : Nat := UE.base b + 0x5000
def R.UE_SCRUB_STATUS (b : Nat) : Nat := UE.base b + 0x5008
def R.UE_ECC_CE (b : Nat) : Nat := UE.base b + 0x5010
def R.UE_ECC_UE (b : Nat) : Nat := UE.base b + 0x5018
def R.UE_SEAM_SEL (b : Nat) : Nat := UE.base b + 0x5020
def R.UE_SEAM_VIEW (b i : Nat) : Nat := UE.base b + 0x5028 + 8 * i
def R.LK_CTRL (b : Nat) : Nat := LK.base b + 0x0
def R.LK_STATUS (b : Nat) : Nat := LK.base b + 0x8
def R.LK_CFG (b : Nat) : Nat := LK.base b + 0x10
def R.LK_PARTNER (b : Nat) : Nat := LK.base b + 0x18
def R.LK_NONCE (b : Nat) : Nat := LK.base b + 0x20
def R.LK_ADMIT (b : Nat) : Nat := LK.base b + 0x28
def R.LK_HB_EPOCH (b : Nat) : Nat := LK.base b + 0x30
def R.LK_HB_DIGEST (b : Nat) : Nat := LK.base b + 0x38
def R.LK_COUNT (b i : Nat) : Nat := LK.base b + 0x100 + 8 * i
def R.LK_DEV : Nat := LK.base 0 + 0x2000
def R.LK_TORUS : Nat := LK.base 0 + 0x2008
def R.LK_ESC : Nat := LK.base 0 + 0x2010
def R.LK_E2E : Nat := LK.base 0 + 0x2018
def R.LK_RSP_TIMEOUT : Nat := LK.base 0 + 0x2020
def R.LK_MGMT : Nat := LK.base 0 + 0x2028
def R.LK_EPOCH : Nat := LK.base 0 + 0x2030
def R.LK_DIGEST : Nat := LK.base 0 + 0x2038
def R.LK_STAGED_EPOCH : Nat := LK.base 0 + 0x2040
def R.LK_STAGED_DIGEST : Nat := LK.base 0 + 0x2048
def R.LK_ROUTE (i : Nat) : Nat := LK.base 0 + 0x2100 + 8 * i
def R.LK_RCOUNT (i : Nat) : Nat := LK.base 0 + 0x2800 + 8 * i
def R.CL_CTRL (b : Nat) : Nat := CL.base b + 0x0
def R.CL_STATUS (b : Nat) : Nat := CL.base b + 0x8
def R.CL_FAULT (b : Nat) : Nat := CL.base b + 0x10
def R.CL_FLAGS (b : Nat) : Nat := CL.base b + 0x18
def R.CL_CFG (b : Nat) : Nat := CL.base b + 0x20
def R.CL_COUNT (b i : Nat) : Nat := CL.base b + 0x100 + 8 * i
def R.CL_TALLY_SEL : Nat := CL.base 0 + 0x1000
def R.CL_TALLY_FIND : Nat := CL.base 0 + 0x1008
def R.CL_TALLY_VIEW (i : Nat) : Nat := CL.base 0 + 0x1010 + 8 * i
def R.CL_TALLY_LIVE : Nat := CL.base 0 + 0x1030
def R.CL_TALLY_RETIRE : Nat := CL.base 0 + 0x1038
def R.HX_CTRL : Nat := HX.base + 0x0
def R.HX_LINK : Nat := HX.base + 0x8
def R.HX_BAR4_BASE : Nat := HX.base + 0x10
def R.HX_COUNT (i : Nat) : Nat := HX.base + 0x100 + 8 * i
def R.HX_VEC_MAP (i : Nat) : Nat := HX.base + 0x1000 + 8 * i
def R.HX_RB_BASE (i : Nat) : Nat := HX.base + 0x4000 + 64 * i
def R.HX_RB_CFG (i : Nat) : Nat := HX.base + 0x4008 + 64 * i
def R.HX_CQ_BASE (i : Nat) : Nat := HX.base + 0x4010 + 64 * i
def R.HX_DB (i : Nat) : Nat := HX.base + 0x4018 + 64 * i
def R.HX_RB_HEAD (i : Nat) : Nat := HX.base + 0x4020 + 64 * i
def R.HX_RB_STATUS (i : Nat) : Nat := HX.base + 0x4028 + 64 * i
def R.HX_MSIX_ENTRY (i : Nat) : Nat := HX.base + 0x8000 + 8 * i
def R.HX_MSIX_PBA (i : Nat) : Nat := HX.base + 0xa000 + 8 * i
def R.GH_STATUS : Nat := GH.base + 0x0
def R.GH_SERIAL : Nat := GH.base + 0x8
def R.GH_FW : Nat := GH.base + 0x10
def R.GH_WDT : Nat := GH.base + 0x18
def R.GH_HMB_BASE : Nat := GH.base + 0x100
def R.GH_HMB_LIMIT : Nat := GH.base + 0x108
def R.GH_MB_DB (i : Nat) : Nat := GH.base + 0x200 + 8 * i
def R.GH_MB_STATUS (i : Nat) : Nat := GH.base + 0x280 + 8 * i
def R.GH_LOG_NEWEST : Nat := GH.base + 0x300
def R.GH_LOG_OLDEST : Nat := GH.base + 0x308
def R.GH_LOG_CFG : Nat := GH.base + 0x310
def R.GH_LOG_FLASHED : Nat := GH.base + 0x318
def R.GH_PHASE_BASE : Nat := GH.base + 0x400
def R.GH_PHASE_CFG : Nat := GH.base + 0x408
def R.GH_PHASE_SEQ : Nat := GH.base + 0x410
def R.GH_WB_TEMP (i : Nat) : Nat := GH.base + 0x200000 + 8 * i
def R.GH_WB_VOLT (i : Nat) : Nat := GH.base + 0x200400 + 8 * i
def R.GH_WB_CURR (i : Nat) : Nat := GH.base + 0x200600 + 8 * i
def R.GH_WB_POWER : Nat := GH.base + 0x200700
def R.GH_CM_GROUP : Nat := GC.base + 0x0
def R.GH_CM_PREP : Nat := GC.base + 0x8
def R.GH_CM_CFG : Nat := GC.base + 0x10
def R.GH_CM_STATE : Nat := GC.base + 0x18
def R.GH_CM_STEP : Nat := GC.base + 0x20
def R.GH_CM_EPOCH : Nat := GC.base + 0x28
def R.GH_CM_COORD : Nat := GC.base + 0x30
def R.GH_CM_DECIDED : Nat := GC.base + 0x38
def R.GH_CM_CAUSE : Nat := GC.base + 0x40
def R.PW_CLAMP : Nat := PW.base + 0x0
def R.PW_STATUS : Nat := PW.base + 0x8
def R.PW_THERM : Nat := PW.base + 0x10
def R.PW_STACK_THERM : Nat := PW.base + 0x18
def R.PW_DOMAIN : Nat := PW.base + 0x20
def R.PW_START : Nat := PW.base + 0x28
def R.PW_STAGE_TIME (i : Nat) : Nat := PW.base + 0x40 + 8 * i
def R.PW_CLAMP_US : Nat := PW.base + 0x100
def R.PW_THROTTLE_US : Nat := PW.base + 0x108
def R.CK_STATUS : Nat := CK.base + 0x0
def R.CK_CORE : Nat := CK.base + 0x8
def R.CK_TIME : Nat := CK.base + 0x10
def R.FZ_STATUS : Nat := FZ.base + 0x0
def R.FZ_SERIAL : Nat := FZ.base + 0x8
def R.FZ_PART (i : Nat) : Nat := FZ.base + 0x10 + 8 * i
def R.FZ_CEIL : Nat := FZ.base + 0x20
def R.FZ_ARB : Nat := FZ.base + 0x28
def R.FZ_LIFECYCLE : Nat := FZ.base + 0x30
def R.FZ_PCI : Nat := FZ.base + 0x38
def R.FZ_ROOTKEY (i : Nat) : Nat := FZ.base + 0x40 + 8 * i

/-- One row of a register map: the register's offset, how often it repeats and at what stride, the masks of its RW, RWS
and W1C fields without a row of their own, and its Reset column. -/
structure RegDef where
  off : Nat
  n : Nat
  stride : Nat
  rw : Nat
  rws : Nat
  w1c : Nat
  reset : Nat
  deriving DecidableEq, Repr

/-- The BN register map. -/
def BN.map : List RegDef := [
  ⟨0x0, 1, 8, 0x0, 0x0, 0x0, 0x0⟩,
  ⟨0x8, 1, 8, 0x0, 0x0, 0x0, 0x0⟩,
  ⟨0x10, 1, 8, 0x0, 0x0, 0x0, 0x0⟩,
  ⟨0x18, 1, 8, 0x0, 0x0, 0x0, 0x0⟩,
  ⟨0x20, 1, 8, 0x0, 0x0, 0x1, 0x0⟩,
  ⟨0x80, 1, 8, 0x0, 0x0, 0x0, 0x0⟩,
  ⟨0x88, 1, 8, 0x0, 0x0, 0x0, 0x0⟩,
  ⟨0x100, 1, 8, 0x0, 0xffff0001, 0x0, 0x200000⟩,
  ⟨0x108, 1, 8, 0x0, 0xfff07ff, 0x0, 0x8000000⟩,
  ⟨0x110, 1, 8, 0x0, 0xffffffffffc0, 0x0, 0x0⟩,
  ⟨0x118, 1, 8, 0x0, 0xffffffffffc0, 0x0, 0x0⟩,
  ⟨0x120, 1, 8, 0x0, 0xffffffffffc0, 0x0, 0x0⟩,
  ⟨0x128, 1, 8, 0x0, 0xffffffffffc0, 0x0, 0x0⟩,
  ⟨0x140, 2, 8, 0x0, 0x0, 0x0, 0x0⟩,
  ⟨0x200, 10, 8, 0x0, 0x0, 0x0, 0x0⟩,
  ⟨0x300, 1, 8, 0x0, 0x0, 0x0, 0x0⟩,
  ⟨0x400, 1, 8, 0x0, 0x0, 0x0, 0x0⟩,
  ⟨0x408, 1, 8, 0x0, 0x0, 0x0, 0x0⟩,
  ⟨0x410, 1, 8, 0xf00, 0x3, 0x0, 0xe03⟩]

/-- The DR register map. -/
def DR.map : List RegDef := [
  ⟨0x0, 1, 8, 0x0, 0xc000ffff, 0x0, 0x80000010⟩,
  ⟨0x8, 1, 8, 0x0, 0x0, 0x0, 0x0⟩,
  ⟨0x10, 1, 8, 0x0, 0x0, 0x0, 0x0⟩,
  ⟨0x100, 1, 8, 0x0, 0x0, 0x0, 0x0⟩,
  ⟨0x108, 1, 8, 0x0, 0x0, 0x0, 0x0⟩,
  ⟨0x110, 1, 8, 0x0, 0x0, 0x0, 0x0⟩,
  ⟨0x1000, 2048, 8, 0x0, 0x0, 0x0, 0x0⟩]

/-- The MU register map. -/
def MU.map : List RegDef := [
  ⟨0x0, 1, 8, 0x0, 0x0, 0x0, 0x3⟩,
  ⟨0x8, 1, 8, 0x0, 0x0, 0x0, 0x0⟩,
  ⟨0x10, 1, 8, 0x0, 0x0, 0x0, 0x0⟩,
  ⟨0x18, 1, 8, 0x0, 0x0, 0x0, 0x0⟩,
  ⟨0x100, 1, 8, 0x0, 0x0, 0x0, 0x0⟩]

/-- The CR register map. -/
def CR.map : List RegDef := [
  ⟨0x0, 1, 8, 0x0, 0x0, 0x0, 0x0⟩,
  ⟨0x8, 1, 8, 0x0, 0x0, 0x0, 0x0⟩,
  ⟨0x10, 1, 8, 0x0, 0x0, 0x0, 0x0⟩,
  ⟨0x100, 1, 8, 0x0, 0x0, 0x0, 0x0⟩]

/-- The DK register map. -/
def DK.map : List RegDef := [
  ⟨0x0, 1, 8, 0x3f0100, 0x0, 0x0, 0x0⟩,
  ⟨0x8, 1, 8, 0x0, 0x0, 0x0, 0x0⟩,
  ⟨0x10, 1, 8, 0x0, 0x0, 0x0, 0x0⟩,
  ⟨0x18, 1, 8, 0x0, 0x0, 0x0, 0x0⟩,
  ⟨0x100, 1, 8, 0x0, 0x0, 0x0, 0x0⟩,
  ⟨0x108, 1, 8, 0x0, 0x0, 0x0, 0x0⟩,
  ⟨0x200, 10, 8, 0x0, 0x0, 0x0, 0x0⟩]

/-- The CC register map. -/
def CC.map : List RegDef := [
  ⟨0x0, 1, 8, 0x0, 0x0, 0x0, 0x0⟩,
  ⟨0x8, 1, 8, 0x0, 0x0, 0x0, 0x0⟩,
  ⟨0x10, 1, 8, 0x0, 0x0, 0x0, 0x0⟩,
  ⟨0x18, 1, 8, 0x1, 0x0, 0x0, 0x1⟩,
  ⟨0x20, 1, 8, 0x0, 0x0, 0xf, 0x0⟩,
  ⟨0x28, 1, 8, 0xffffffffffff, 0x0, 0x0, 0x0⟩,
  ⟨0x30, 1, 8, 0xffffffff, 0x0, 0x0, 0x0⟩,
  ⟨0x40, 1, 8, 0x0, 0x0, 0x0, 0x0⟩,
  ⟨0x48, 1, 8, 0x0, 0x0, 0x0, 0x0⟩,
  ⟨0x50, 1, 8, 0x0, 0x0, 0x0, 0x0⟩,
  ⟨0x80, 1, 8, 0xff07, 0x0, 0x0, 0x0⟩,
  ⟨0x88, 1, 8, 0xffffff00ffffff, 0x0, 0x0, 0x0⟩,
  ⟨0x90, 1, 8, 0xffffffffffffffff, 0x0, 0x0, 0x0⟩,
  ⟨0x98, 1, 8, 0xffffffffffffffff, 0x0, 0x0, 0x0⟩,
  ⟨0x100, 32, 8, 0xffffffffffffffff, 0x0, 0x0, 0x0⟩,
  ⟨0x200, 4, 8, 0xffffffffffffffff, 0x0, 0x0, 0x0⟩,
  ⟨0x240, 4, 8, 0x0, 0x0, 0x0, 0x0⟩,
  ⟨0x260, 4, 8, 0x0, 0x0, 0x0, 0x0⟩,
  ⟨0x300, 64, 8, 0x0, 0x0, 0x0, 0x0⟩,
  ⟨0x500, 16, 8, 0x0, 0x0, 0x0, 0x0⟩,
  ⟨0x600, 1, 8, 0x0, 0x0, 0x0, 0x0⟩,
  ⟨0x608, 1, 8, 0x0, 0x0, 0x0, 0x0⟩,
  ⟨0x1000, 256, 8, 0x0, 0x0, 0x0, 0x0⟩]

/-- The SP register map. -/
def SP.map : List RegDef := [
  ⟨0x0, 2, 8, 0xffffffffffffffff, 0x0, 0x0, 0x0⟩,
  ⟨0x10, 1, 8, 0x0, 0x0, 0x0, 0x0⟩,
  ⟨0x18, 1, 8, 0x0, 0x0, 0x0, 0x0⟩,
  ⟨0x20, 1, 8, 0x0, 0x0, 0x0, 0x0⟩,
  ⟨0x28, 1, 8, 0x0, 0x0, 0x0, 0x0⟩,
  ⟨0x30, 2, 8, 0x0, 0x0, 0x0, 0x0⟩]

/-- The SY register map. -/
def SY.map : List RegDef := [
  ⟨0x0, 1, 8, 0xff, 0x0, 0x0, 0x30⟩,
  ⟨0x8, 1, 8, 0x0, 0x0, 0x0, 0x0⟩,
  ⟨0x10, 6, 8, 0x0, 0x0, 0x0, 0x0⟩,
  ⟨0x100, 1, 8, 0x0, 0x0, 0x0, 0x0⟩,
  ⟨0x108, 1, 8, 0x0, 0x0, 0x0, 0x0⟩,
  ⟨0x110, 1, 8, 0x0, 0x0, 0x0, 0x0⟩]

/-- The MM register map. -/
def MM.map : List RegDef := [
  ⟨0x0, 64, 8, 0xfffffffff003, 0x0, 0x0, 0x0⟩,
  ⟨0x800, 1, 8, 0x0, 0x0, 0x0, 0x0⟩,
  ⟨0x808, 1, 8, 0x0, 0x0, 0x0, 0x1⟩,
  ⟨0x810, 1, 8, 0x0, 0x0, 0x0, 0x0⟩,
  ⟨0x818, 1, 8, 0x0, 0x0, 0x0, 0x0⟩]

/-- The UE register map. -/
def UE.map : List RegDef := [
  ⟨0x0, 1, 8, 0x0, 0x0, 0x0, 0x0⟩,
  ⟨0x8, 1, 8, 0x0, 0x0, 0x0, 0x0⟩,
  ⟨0x10, 1, 8, 0x0, 0x0, 0x80000000, 0x0⟩,
  ⟨0x18, 1, 8, 0x0, 0x0, 0xf, 0x0⟩,
  ⟨0x20, 1, 8, 0x0, 0x0, 0x0, 0x0⟩,
  ⟨0x28, 1, 8, 0x0, 0x0, 0x0, 0x0⟩,
  ⟨0x100, 1, 8, 0x0, 0x0, 0x0, 0x0⟩,
  ⟨0x108, 1, 8, 0x0, 0x0, 0x0, 0x0⟩,
  ⟨0x1000, 256, 8, 0xffffffffffffffff, 0x0, 0x0, 0x0⟩,
  ⟨0x2000, 8, 16, 0xffffffffffc0, 0x0, 0x0, 0x0⟩,
  ⟨0x2008, 8, 16, 0xffffffffffc0, 0x0, 0x0, 0x0⟩,
  ⟨0x2100, 8, 8, 0xc0000000, 0x0, 0x1e, 0x0⟩,
  ⟨0x4000, 1, 8, 0x0, 0x0, 0x0, 0x7d0⟩,
  ⟨0x4008, 1, 8, 0x0, 0x0, 0x0, 0x0⟩,
  ⟨0x4010, 1, 8, 0x0, 0x0, 0x0, 0x0⟩,
  ⟨0x4020, 11, 8, 0x0, 0x0, 0x0, 0x0⟩,
  ⟨0x4100, 32, 16, 0x0, 0x0, 0x0, 0x0⟩,
  ⟨0x4108, 32, 16, 0x0, 0x0, 0x0, 0x0⟩,
  ⟨0x4300, 32, 8, 0x0, 0x0, 0x0, 0x80000000⟩,
  ⟨0x4400, 1, 8, 0x0, 0x0, 0x0, 0x0⟩,
  ⟨0x4408, 1, 8, 0x0, 0x0, 0x0, 0x0⟩,
  ⟨0x5000, 1, 8, 0xffff, 0x0, 0x0, 0x18⟩,
  ⟨0x5008, 1, 8, 0x0, 0x0, 0x0, 0x0⟩,
  ⟨0x5010, 1, 8, 0x0, 0x0, 0x0, 0x0⟩,
  ⟨0x5018, 1, 8, 0x0, 0x0, 0x0, 0x0⟩,
  ⟨0x5020, 1, 8, 0x0, 0x0, 0x0, 0x0⟩,
  ⟨0x5028, 4, 8, 0x0, 0x0, 0x0, 0x0⟩]

/-- The LK register map. -/
def LK.map : List RegDef := [
  ⟨0x0, 1, 8, 0x0, 0x0, 0x0, 0x0⟩,
  ⟨0x8, 1, 8, 0x0, 0x0, 0x0, 0x0⟩,
  ⟨0x10, 1, 8, 0xffff, 0x0, 0x0, 0x400⟩,
  ⟨0x18, 1, 8, 0x0, 0x0, 0x0, 0x0⟩,
  ⟨0x20, 1, 8, 0x0, 0x0, 0x0, 0x0⟩,
  ⟨0x28, 1, 8, 0x0, 0x0, 0x0, 0x0⟩,
  ⟨0x30, 1, 8, 0x0, 0x0, 0x0, 0x0⟩,
  ⟨0x38, 1, 8, 0x0, 0x0, 0x0, 0x0⟩,
  ⟨0x100, 8, 8, 0x0, 0x0, 0x0, 0x0⟩,
  ⟨0x2000, 1, 8, 0x0, 0x0, 0x0, 0x0⟩,
  ⟨0x2008, 1, 8, 0xff, 0x0, 0x0, 0x0⟩,
  ⟨0x2010, 1, 8, 0x1ffff, 0x0, 0x0, 0x10100⟩,
  ⟨0x2018, 1, 8, 0x7ffff, 0x0, 0x0, 0x40014⟩,
  ⟨0x2020, 1, 8, 0xffff, 0x0, 0x0, 0xc8⟩,
  ⟨0x2028, 1, 8, 0xff, 0x0, 0x0, 0x8⟩,
  ⟨0x2030, 1, 8, 0xffffffffffffffff, 0x0, 0x0, 0x0⟩,
  ⟨0x2038, 1, 8, 0xffffffffffffffff, 0x0, 0x0, 0x0⟩,
  ⟨0x2040, 1, 8, 0xffffffffffffffff, 0x0, 0x0, 0x0⟩,
  ⟨0x2048, 1, 8, 0xffffffffffffffff, 0x0, 0x0, 0x0⟩,
  ⟨0x2100, 128, 8, 0x8007ffff, 0x0, 0x0, 0x0⟩,
  ⟨0x2800, 5, 8, 0x0, 0x0, 0x0, 0x0⟩]

/-- The CL register map. -/
def CL.map : List RegDef := [
  ⟨0x0, 1, 8, 0x0, 0x0, 0x0, 0x0⟩,
  ⟨0x8, 1, 8, 0x0, 0x0, 0x0, 0x0⟩,
  ⟨0x10, 1, 8, 0x0, 0x0, 0x0, 0x0⟩,
  ⟨0x18, 1, 8, 0x0, 0x0, 0xf, 0x0⟩,
  ⟨0x20, 1, 8, 0xffffffff, 0x0, 0x0, 0x3e8012c⟩,
  ⟨0x100, 8, 8, 0x0, 0x0, 0x0, 0x0⟩,
  ⟨0x1000, 1, 8, 0x0, 0x0, 0x0, 0x0⟩,
  ⟨0x1008, 1, 8, 0x0, 0x0, 0x0, 0x0⟩,
  ⟨0x1010, 4, 8, 0x0, 0x0, 0x0, 0x0⟩,
  ⟨0x1030, 1, 8, 0x0, 0x0, 0x0, 0x0⟩,
  ⟨0x1038, 1, 8, 0x0, 0x0, 0x0, 0x0⟩]

/-- The HX register map. -/
def HX.map : List RegDef := [
  ⟨0x0, 1, 8, 0x1, 0x0, 0x0, 0x0⟩,
  ⟨0x8, 1, 8, 0x0, 0x0, 0x0, 0x0⟩,
  ⟨0x10, 1, 8, 0x7fc0000000, 0x0, 0x0, 0x0⟩,
  ⟨0x100, 4, 8, 0x0, 0x0, 0x0, 0x0⟩,
  ⟨0x1000, 84, 8, 0x800001ff, 0x0, 0x0, 0x0⟩,
  ⟨0x4000, 64, 64, 0xfffffffffffff000, 0x0, 0x0, 0x0⟩,
  ⟨0x4008, 64, 64, 0x0, 0x0, 0x0, 0x6000000000000⟩,
  ⟨0x4010, 64, 64, 0xfffffffffffff000, 0x0, 0x0, 0x0⟩,
  ⟨0x4018, 64, 64, 0x0, 0x0, 0x0, 0x0⟩,
  ⟨0x4020, 64, 64, 0x0, 0x0, 0x0, 0x0⟩,
  ⟨0x4028, 64, 64, 0x0, 0x0, 0x0, 0x0⟩,
  ⟨0x8000, 1024, 8, 0x0, 0x0, 0x0, 0x0⟩,
  ⟨0xa000, 8, 8, 0x0, 0x0, 0x0, 0x0⟩]

/-- The GH register map. -/
def GH.map : List RegDef := [
  ⟨0x0, 1, 8, 0x0, 0x0, 0x0, 0x0⟩,
  ⟨0x8, 1, 8, 0x0, 0x0, 0x0, 0x0⟩,
  ⟨0x10, 1, 8, 0x0, 0x0, 0x0, 0x0⟩,
  ⟨0x18, 1, 8, 0x0, 0x0, 0x0, 0x0⟩,
  ⟨0x100, 1, 8, 0xfffffffffffff000, 0x0, 0x0, 0x0⟩,
  ⟨0x108, 1, 8, 0xfffffffffffff000, 0x0, 0x0, 0x0⟩,
  ⟨0x200, 16, 8, 0x0, 0x0, 0x0, 0x0⟩,
  ⟨0x280, 16, 8, 0x0, 0x0, 0x0, 0x0⟩,
  ⟨0x300, 1, 8, 0x0, 0x0, 0x0, 0x0⟩,
  ⟨0x308, 1, 8, 0x0, 0x0, 0x0, 0x0⟩,
  ⟨0x310, 1, 8, 0x3, 0x0, 0x0, 0x3⟩,
  ⟨0x318, 1, 8, 0x0, 0x0, 0x0, 0x0⟩,
  ⟨0x400, 1, 8, 0xffffffffffc0, 0x0, 0x0, 0x0⟩,
  ⟨0x408, 1, 8, 0x0, 0x0, 0x0, 0x8⟩,
  ⟨0x410, 1, 8, 0x0, 0x0, 0x0, 0x0⟩,
  ⟨0x200000, 72, 8, 0x0, 0x0, 0x0, 0x80008000⟩,
  ⟨0x200400, 36, 8, 0x0, 0x0, 0x0, 0xffff0000⟩,
  ⟨0x200600, 16, 8, 0x0, 0x0, 0x0, 0x0⟩,
  ⟨0x200700, 1, 8, 0x0, 0x0, 0x0, 0x0⟩]

/-- The GC register map. -/
def GC.map : List RegDef := [
  ⟨0x0, 1, 8, 0xffffffffffff, 0x0, 0x0, 0x0⟩,
  ⟨0x8, 1, 8, 0x0, 0x0, 0x0, 0x0⟩,
  ⟨0x10, 1, 8, 0xffff, 0x0, 0x0, 0x1388⟩,
  ⟨0x18, 1, 8, 0x0, 0x0, 0x0, 0x0⟩,
  ⟨0x20, 1, 8, 0x0, 0x0, 0x0, 0x0⟩,
  ⟨0x28, 1, 8, 0x0, 0x0, 0x0, 0x0⟩,
  ⟨0x30, 1, 8, 0x0, 0x0, 0x0, 0x0⟩,
  ⟨0x38, 1, 8, 0x0, 0x0, 0x0, 0x0⟩,
  ⟨0x40, 1, 8, 0x0, 0x0, 0x0, 0x0⟩]

/-- The PW register map. -/
def PW.map : List RegDef := [
  ⟨0x0, 1, 8, 0x0, 0x0, 0x0, 0x4b0⟩,
  ⟨0x8, 1, 8, 0x0, 0x0, 0x8, 0x400000⟩,
  ⟨0x10, 1, 8, 0x0, 0x0, 0x0, 0x5f646e⟩,
  ⟨0x18, 1, 8, 0x0, 0x0, 0x0, 0x555f69⟩,
  ⟨0x20, 1, 8, 0x0, 0x0, 0x0, 0x0⟩,
  ⟨0x28, 1, 8, 0x0, 0x0, 0x0, 0x0⟩,
  ⟨0x40, 7, 8, 0x0, 0x0, 0x0, 0x0⟩,
  ⟨0x100, 1, 8, 0x0, 0x0, 0x0, 0x0⟩,
  ⟨0x108, 1, 8, 0x0, 0x0, 0x0, 0x0⟩]

/-- The CK register map. -/
def CK.map : List RegDef := [
  ⟨0x0, 1, 8, 0x0, 0x0, 0x0, 0x0⟩,
  ⟨0x8, 1, 8, 0x0, 0x0, 0x0, 0x8⟩,
  ⟨0x10, 1, 8, 0x0, 0x0, 0x0, 0x0⟩]

/-- The FZ register map. -/
def FZ.map : List RegDef := [
  ⟨0x0, 1, 8, 0x0, 0x0, 0x0, 0x0⟩,
  ⟨0x8, 1, 8, 0x0, 0x0, 0x0, 0x0⟩,
  ⟨0x10, 2, 8, 0x0, 0x0, 0x0, 0x0⟩,
  ⟨0x20, 1, 8, 0x0, 0x0, 0x0, 0x0⟩,
  ⟨0x28, 1, 8, 0x0, 0x0, 0x0, 0x0⟩,
  ⟨0x30, 1, 8, 0x0, 0x0, 0x0, 0x0⟩,
  ⟨0x38, 1, 8, 0x0, 0x0, 0x0, 0x0⟩,
  ⟨0x40, 6, 8, 0x0, 0x0, 0x0, 0x0⟩]

/-- The register of a map at an offset; a bench window's active-bank view of BN and DR answers under `actView`. -/
def findReg (m : List RegDef) (o : Nat) : Option RegDef :=
  m.find? (fun r => decide (r.off ≤ o) && decide ((o - r.off) % r.stride = 0) && decide ((o - r.off) / r.stride < r.n))

/-- The block, with the offset in it, that an address of the register space reaches (R238). -/
def regBlock (a : Nat) : Option (List RegDef × Nat) :=
  if a < SP.base then
    if BN.base 24 ≤ a ∨ a < BN.base 0 then none
    else
      let o := (a - BN.base 0) % 0x10000
      if o < 0x1000 then some (BN.map, o)
      else if o < 0x2000 then some (MU.map, o - 0x1000)
      else if o < 0x3000 then some (CR.map, o - 0x2000)
      else if o < 0x5000 then some (DK.map, (o - 0x3000) % 0x1000)
      else if o < 0x6000 then none
      else if o < 0x8000 then some (CC.map, o - 0x6000)
      else some (DR.map, o - 0x8000)
  else if a < SP.base + 0x1000 then some (SP.map, a - SP.base)
  else if SY.base ≤ a ∧ a < SY.base + 0x10000 then some (SY.map, a - SY.base)
  else if MM.base ≤ a ∧ a < MM.base + 0x10000 then some (MM.map, a - MM.base)
  else if UE.base 0 ≤ a ∧ a < UE.base 8 then some (UE.map, (a - UE.base 0) % 0x10000)
  else if LK.base 0 ≤ a ∧ a < LK.base 16 then
    let o := (a - LK.base 0) % 0x4000
    if o < 0x2000 ∨ a < LK.base 1 then some (LK.map, o) else none
  else if CL.base 0 ≤ a ∧ a < CL.base 4 then
    let o := (a - CL.base 0) % 0x10000
    if o < 0x1000 ∨ a < CL.base 1 then some (CL.map, o) else none
  else if HX.base ≤ a ∧ a < HX.base + 0x10000 then some (HX.map, a - HX.base)
  else if PW.base ≤ a ∧ a < PW.base + 0x10000 then some (PW.map, a - PW.base)
  else if CK.base ≤ a ∧ a < CK.base + 0x10000 then some (CK.map, a - CK.base)
  else if FZ.base ≤ a ∧ a < FZ.base + 0x10000 then some (FZ.map, a - FZ.base)
  else if GC.base ≤ a ∧ a < GC.base + 0x1000 then some (GC.map, a - GC.base)
  else if GH.base ≤ a ∧ a < GH.base + 0x1000000 then some (GH.map, a - GH.base)
  else none

/-- The register at an address, if one lies there. -/
def regAt (a : Nat) : Option RegDef :=
  match regBlock a with
  | some (m, o) => findReg m o
  | none => none

/-- Is the address an active-bank view of the BN or DR block (R105)? -/
def isActView (a : Nat) : Bool :=
  match regBlock a with
  | some (_, o) =>
    let w := (a - BN.base 0) % 0x10000
    decide (a < SP.base) && ((decide (w < 0x1000) && decide (0x800 ≤ w)) || (decide (0x8800 ≤ w) && decide (w < 0x9000)))
      && decide (0x800 ≤ o)
  | none => false

/-- The register that an active-bank view shows, or the register at the address itself. -/
def regHome (a : Nat) : Option RegDef := if isActView a then regAt (a - 0x800) else regAt a

/-- What a register that nothing has written reads as: its Reset column (R8); HX_VEC_MAP(s) resets to vector s (R371), an
MSI-X table entry is masked (PRESUMED, log 12), modules ship in PRODUCTION (R392), and the active bank resets as its stage bank does (R105). -/
def regReset (a : Nat) : W64 :=
  match regHome a with
  | none => 0
  | some r =>
    if R.HX_VEC_MAP 0 ≤ a ∧ a < R.HX_VEC_MAP 84 then BitVec.ofNat 64 ((a - R.HX_VEC_MAP 0) / 8)
    else if R.HX_MSIX_ENTRY 0 ≤ a ∧ a < R.HX_MSIX_ENTRY 1024 then (if a % 16 = 8 then 0x100000000 else 0)
    else if a = R.FZ_SERIAL ∨ a = R.GH_SERIAL then Config.serial
    else if a = R.FZ_PCI then 0xC9091F9A
    else if a = R.FZ_LIFECYCLE then 1
    else if a = R.FZ_CEIL then BitVec.ofNat 64 (Config.clockMHz * 65536 + Config.powerCeiling)
    else if R.FZ_PART 0 ≤ a ∧ a ≤ R.FZ_PART 1 then Config.partNumber ((a - R.FZ_PART 0) / 8)
    else if R.FZ_ROOTKEY 0 ≤ a ∧ a ≤ R.FZ_ROOTKEY 5 then Config.rootKeyHash ((a - R.FZ_ROOTKEY 0) / 8)
    else if R.BN_ID 0 ≤ a ∧ a < BN.base 24 ∧ (a - BN.base 0) % 0x10000 = 0 then
      let b := (a - BN.base 0) / 0x10000
      BitVec.ofNat 64 (b + 32 * (b / 12))
    else if CC.base 0 ≤ a ∧ a < BN.base 24 ∧ (a - BN.base 0) % 0x10000 = 0x6000 then
      let b := (a - BN.base 0) / 0x10000
      BitVec.ofNat 64 (b + 32 * (b / 12))
    else BitVec.ofNat 64 r.reset

end Sys2Proof.Machine
end

