-- ==== Sys2Proof/Machine/State.lean ====
section
/-! DEFINITION. The state of the module. -/
namespace Sys2Proof.Machine

/-- What has left the module. -/
inductive Out where
  | msix (vector : Nat) (addr data : Nat)
  | readVal (addr v : Nat)
  | flit (port : Nat) (w : Wire)
  | hostWrite (addr : Nat) (data : Bytes) (relaxed : Bool := false)
  | hostRead (addr n : Nat)
  | cfgReply (rrs : Bool) (v : Nat)
  | drs
  | bridge (poison : Bool) (addr : Nat)
  | monitor (text line : Bytes)
  | barReply (unsupported poisoned : Bool) (data : Bytes)
  | aer (error : Nat)
  | thermN (low : Bool)
  | ident (port dev nonce : Nat)
  deriving DecidableEq, Repr

/-- Why a step stops with a fault. -/
inductive Fault where
  /-- Raised by no command: the spec gives every access outside the address map an effect of its own (a poisoned response, a dropped write, a
  fault of the core or engine that made it), and that effect is a next state. Safe. -/
  | unreached
  deriving DecidableEq, Repr

/-- Why a step has no meaning. -/
inductive Refusal where
  /-- A command that the model does not give a meaning. Raised by no arm. Safe. -/
  | notModelled (mnemonic : String)
  deriving DecidableEq, Repr

/-- The module: every piece of state that the spec gives it, and the commands that wait. -/
structure State where
  /-- The commands that wait, first in, first out. -/
  pending : List Instr := []
  /-- What has left the module, oldest first: interrupts, flits, host transfers, answers. It is the model's record of its outputs. -/
  out : List Out := []
  /-- The model's own counter: the free constants of Config are applied to it (log 3). It is no state of the spec. -/
  freeCtr : Nat := 0
  /-- Local time in 1/1,300 µs (R5, R406). -/
  time : Nat := 0
  /-- Mergo, the stockyard and the local stores by address (R85, R237), in the canonical form of SMap; an unlisted byte reads 0 (R453). -/
  mem : List (Nat × Byte) := []
  /-- The poisoned 64-byte lines by number, rising (R248, R253). -/
  poison : List Nat := []
  /-- The register file by physical address in the canonical form of SMap; an unlisted register reads its Reset column (R7, R8, R238). -/
  regs : List (Nat × W64) := []
  /-- The sync counters by number (R293); an unlisted one is 0. -/
  sync : List (Nat × Nat) := []
  /-- The event log, newest first (R380, R382). -/
  log : List LogRec := []
  /-- SEQ of the newest record (R380). -/
  logSeq : Nat := 0
  /-- The flash ring of SEV 3 records, newest first (R382). -/
  flashLog : List LogRec := []
  /-- The newest SEQ copied to flash since the gatehouse domain powered on (R398). -/
  flashSeq : Nat := 0
  /-- MSI-X Enable (R361, R368). -/
  msixEn : Bool := false
  /-- MSI-X Function Mask (R361, R368). -/
  msixMask : Bool := false
  /-- The spall generators' shared state (R165, R166, R181). -/
  spall : Spall := {}
  /-- The registered regions by stack and index: key 2048 k + r (R195, R196). -/
  regions : List (Nat × Region) := []
  /-- The last number that told one registration from the next (R200). -/
  regionUid : Nat := 0
  /-- The Tuone ports (R305). -/
  ports : Vector Port 16 := Vector.replicate 16 {}
  /-- The unacknowledged flits by destination (R316). -/
  e2eTx : List E2eTx := []
  /-- The receipt windows by source (R316). -/
  e2eRx : List E2eRx := []
  /-- READ_REQ and WRITE flits without their replies (R317). -/
  txns : List Txn := []
  /-- The data flits received whole for this module and not yet handled, with their ports (R310). -/
  inbox : List (Nat × Flit) := []
  /-- MGMT flits that wait for the local rate limit (R319), each by the router or by a port. -/
  mgmtHold : List (Option (Fin 16) × Flit) := []
  /-- The MGMT flits that the rate limit still admits (R319). -/
  mgmtTokens : Nat := 256
  /-- The time at which the rate limit was last topped up (R319). -/
  mgmtTime : Nat := 0
  /-- The time of the last UNREACHABLE record of each terrace (R315). -/
  unreachLog : List (Nat × Nat) := []
  /-- The cached translations (R242, R244). -/
  tlb : List TlbEnt := []
  /-- The invalidations that have not completed, as written to MM_INVAL, oldest first (R244, R245). -/
  invals : List Nat := []
  /-- The derricks (R255). -/
  derricks : Vector Dk 48 := Vector.replicate 48 {}
  /-- The bank and seam arbiters by number (R262); an unlisted one is idle. -/
  arbs : List (Nat × Arb) := []
  /-- The time of the last STACK_CE record of each seam (R248). -/
  seLast : List (Nat × Nat) := []
  /-- Bus Master Enable (R361). -/
  busMaster : Bool := false
  /-- The next line of each stack's patrol scrub (R249). -/
  scrubLow : Vector Nat 8 := Vector.replicate 8 0
  /-- The stack update engines (R213). -/
  ues : Vector Ue 8 := Vector.replicate 8 {}
  /-- The collective units (R334). -/
  colls : Vector Coll 4 := Vector.replicate 4 {}
  /-- The tally table by entry (R354). -/
  tally : List (Nat × Tally) := []
  /-- The identifiers of the collectives that have completed here (R340). -/
  ended : List Nat := []
  /-- The identifiers for which COLL_LATE has been logged (R340). -/
  lateLog : List Nat := []
  /-- COLL flits held for a collective that has not started here (R340). -/
  early : List Flit := []
  /-- The sampled strap pins: the device number that the board gives this module (R313). -/
  straps : Nat := 0
  /-- The endpoint's configuration space (R360). -/
  pci : Pci := {}
  /-- Has START_RELEASE happened since the last module reset (R412)? -/
  released : Bool := false
  /-- The control cores (R276). -/
  cores : Vector Core 24 := Vector.replicate 24 {}
  /-- The level-two caches of the two dies (R273). -/
  l2 : Vector (List CLine) 2 := Vector.replicate 2 []
  /-- The loaded modules (R276). -/
  modules : List Module := []
  /-- The runs in progress (R279). -/
  runs : List Run := []
  /-- The reproducible setting of each context (R295). -/
  repro : Vector Bool 64 := Vector.replicate 64 false
  /-- The host command rings (R364). -/
  rings : Vector Ring 64 := Vector.replicate 64 {}
  /-- The devices of the active membership (R322). -/
  members : List Nat := []
  /-- The gatehouse's commit state (R224 to R235). -/
  cm : Cm := {}
  /-- The gatehouse's membership state (R322 to R328). -/
  mb : Memb := {}
  /-- The die-to-die bridge (R424). -/
  bridge : Bridge := {}
  /-- The gatehouse (R372 to R398). -/
  gate : Gate := {}
  /-- Power, temperature and start-up (R399 to R420). -/
  pwr : Pwr := {}
  /-- The lower halves written to 64-bit registers whose write acts as a whole, held until the upper half comes (R239). -/
  held : List (Nat × Nat) := []
  /-- Commit messages received and not yet handled (R227). -/
  cmBox : List CmMsg := []
  /-- The benches with their dressers, mason units and crushers (R85 to R182, R425). -/
  benches : Vector Bench 24 := Vector.replicate 24 {}
  deriving DecidableEq, Repr

/-- The module right after reset: stage 0, just after the auxiliary input has come up (R412, R453). Registers read their Reset column, memory reads 0,
flash and fuses are as production test leaves them (log 10), and nothing waits. -/
def State.reset : State := {}

end Sys2Proof.Machine
end

