-- ==== Sys2Proof/Machine/Ops.lean ====
section
/-! DEFINITION. The named operations over the state that every chapter uses: the address map (R237), memory with its
poisoned lines (R248, R250, R253), the register file (R7, R8), the event log (R380 to R382), interrupts (R368), sync
counters (R293), engine queues (R110, R111, R290) and bench flags (R78 to R80). -/
namespace Sys2Proof.Machine

/-! ## The address map -/

/-- A Mergo address (R237). -/
def isMergo (a : Nat) : Bool := decide (a < 0x006000000000)
/-- A stockyard address (R237). -/
def isYard (a : Nat) : Bool := decide (0x010000000000 ≤ a) && decide (a < 0x010020000000)
/-- An address in a local-store window (R237). -/
def isStore (a : Nat) : Bool := decide (0x010100000000 ≤ a) && decide (a < 0x010118000000)
/-- An address in register space (R237). -/
def isRegSpace (a : Nat) : Bool := decide (0x020000000000 ≤ a) && decide (a < 0x020004000000)
/-- The stack whose range holds a Mergo address (R237). -/
def stackOf (a : Nat) : Nat := a / 0x000C00000000
/-- The base of the local-store window of bench b (R85, R237). -/
def storeBase (b : Nat) : Nat := 0x010100000000 + b * 0x01000000
/-- Does a whole range lie in the stockyard? -/
def inYard (a n : Nat) : Bool := isYard a && (decide (n = 0) || isYard (a + n - 1))
/-- Does a whole range lie in Mergo memory? -/
def inMergo (a n : Nat) : Bool := isMergo a && (decide (n = 0) || isMergo (a + n - 1))

/-- The seam of a Mergo address in its stack (R247). -/
def seamOf (a : Nat) : Nat :=
  let o := a % 0x000C00000000
  bits o 12 8 ^^^ bits o 17 13 ^^^ bits o 22 18 ^^^ bits o 27 23 ^^^ bits o 32 28 ^^^ bits o 35 33

/-- The bank index of a stockyard address (R252). -/
def bankOf (a : Nat) : Nat :=
  let o := a - 0x010000000000
  if o < 0x08000000 then bits o 14 8 else 128 + 32 * ((o - 0x08000000) / 0x01000000) + bits (o - 0x08000000) 13 9

/-! ## The register file -/

/-- A register's value (R7); one that nothing has written reads its Reset column. -/
def State.reg (s : State) (a : Nat) : W64 := SMap.get regReset s.regs a
/-- A register's value as a number. -/
def State.rn (s : State) (a : Nat) : Nat := (s.reg a).toNat
/-- Sets a register. -/
def State.setReg (s : State) (a : Nat) (v : W64) : State := { s with regs := SMap.set regReset s.regs a v }
/-- Sets a register from a number, modulo 2^64. -/
def State.setRn (s : State) (a v : Nat) : State := s.setReg a (BitVec.ofNat 64 v)
/-- A field of a register. -/
def State.rfld (s : State) (a hi lo : Nat) : Nat := bits (s.rn a) hi lo
/-- A one-bit field of a register. -/
def State.rbit (s : State) (a i : Nat) : Bool := (s.rn a).testBit i
/-- A number with bits hi to lo replaced. -/
def putBits (w hi lo v : Nat) : Nat :=
  w - bits w hi lo * 2 ^ lo + (v % 2 ^ (hi + 1 - lo)) * 2 ^ lo
/-- Sets a field of a register. -/
def State.setFld (s : State) (a hi lo v : Nat) : State := s.setRn a (putBits (s.rn a) hi lo v)
/-- Adds to a counter register, which wraps at 2^64. -/
def State.addReg (s : State) (a n : Nat) : State := s.setRn a (s.rn a + n)
/-- Drops every register of a range, so that it reads its Reset column again (R8). -/
def State.resetRegs (s : State) (lo hi : Nat) : State :=
  { s with regs := SMap.keep (fun a => decide (a < lo) || decide (hi ≤ a)) s.regs }

/-! ## Memory -/

/-- The memory byte at an address; memory that nothing has written reads 0 (R453). -/
def State.byte (s : State) (a : Nat) : Byte := SMap.get (fun _ => 0) s.mem a
/-- `n` bytes from an address. -/
def State.bytes (s : State) (a : Nat) : Nat → Bytes
  | 0 => []
  | n + 1 => s.byte a :: s.bytes (a + 1) n
/-- A little-endian number in memory (R24). -/
def State.le (s : State) (a n : Nat) : Nat := fromLe (s.bytes a n)

/-- Is a stack in service? One that failed start-up stage 4 is not (R413). -/
def State.stackUp (s : State) (k : Nat) : Bool := decide (k < 8) && !s.rbit R.PW_START (8 + k)

/-- Can the address be read or written as memory? -/
def State.mapped (s : State) (a : Nat) : Bool :=
  (isMergo a && s.stackUp (stackOf a)) || isYard a || isStore a

/-- Is the 64-byte line of an address poisoned (R248, R253)? -/
def State.poisonedAt (s : State) (a : Nat) : Bool := s.poison.contains (a / 64)

/-- Does a read of `n` bytes return a poisoned response: unmapped, poisoned memory, or a response that failed on its way (R237, R250, R423, R424)? -/
def State.badRead (s : State) (a n : Nat) : Bool :=
  !(s.mapped a && (decide (n = 0) || s.mapped (a + n - 1)))
    || s.poison.any (fun l => decide (a / 64 ≤ l) && decide (l ≤ (a + n - 1) / 64) && decide (n ≠ 0))
    || s.bridge.late.any (fun e => e.2 == s.time && decide (a / 64 ≤ e.1) && decide (e.1 ≤ (a + n - 1) / 64) && decide (n ≠ 0))

/-- The responses of this core cycle that carry the line of an address are poisoned (R423, R424; log 106). -/
def State.spoil (s : State) (a : Nat) : State :=
  { s with bridge := { s.bridge with late := s.bridge.late.filter (fun e => e.2 == s.time) ++ [(a / 64, s.time)] } }

/-- Memory bytes put one after another, skipping unmapped addresses and lines that stay poisoned. -/
def putMem (ok : Nat → Bool) : List (Nat × Byte) → Nat → Bytes → List (Nat × Byte)
  | m, _, [] => m
  | m, a, b :: r => putMem ok (if ok a then SMap.set (fun _ => 0) m a b else m) (a + 1) r

/-- Is line `l` wholly inside the range of `n` bytes at `a`? -/
def fullLine (a n l : Nat) : Bool := decide (a ≤ 64 * l) && decide (64 * l + 64 ≤ a + n)

/-- Writes bytes to memory: a line written whole loses its poison, a poisoned line written in part keeps its poison and
its bytes (R248, R253), and a write to an unmapped address is dropped (R237). -/
def State.wr (s : State) (a : Nat) (bs : Bytes) : State :=
  let p := s.poison.filter (fun l => !fullLine a bs.length l)
  { s with poison := p, mem := putMem (fun x => s.mapped x && !p.contains (x / 64)) s.mem a bs }

/-- Poisons a line (R248, R253). -/
def State.poisonLine (s : State) (a : Nat) : State := { s with poison := SSet.insert (a / 64) s.poison }

/-- Writes a little-endian number of `n` bytes. -/
def State.wrLe (s : State) (a n v : Nat) : State := s.wr a (leBytes n v)

/-! ## Free values, time, what leaves the module -/

/-- Adds to what has left the module. -/
def State.emit (s : State) (o : Out) : State := { s with out := s.out ++ [o] }
/-- The next free value is drawn: the counter that the free constants take moves on. -/
def State.draw (s : State) : State := { s with freeCtr := s.freeCtr + 1 }
/-- Local time in µs (R406): the time unit is the 1/1,300 µs of the full core clock. -/
def State.us (s : State) : Nat := s.time / 1300

/-! ## Interrupts (R368) -/

/-- The vector goes out, or its pending bit is set while MSI-X is off, masked as a whole, or the vector is masked. -/
def State.sendVector (s : State) (v : Nat) : State :=
  if s.msixEn && !s.msixMask && !s.rbit (R.HX_MSIX_ENTRY (2 * v + 1)) 32 then
    s.emit (.msix v (s.rn (R.HX_MSIX_ENTRY (2 * v))) (s.rfld (R.HX_MSIX_ENTRY (2 * v + 1)) 31 0))
  else s.setRn (R.HX_MSIX_PBA (v / 64)) (s.rn (R.HX_MSIX_PBA (v / 64)) ||| 2 ^ (v % 64))

/-- An interrupt source is raised; it does nothing while its EN is 0. -/
def State.raise (s : State) (src : Nat) : State :=
  if s.rbit (R.HX_VEC_MAP src) 31 then s.sendVector (s.rfld (R.HX_VEC_MAP src) 8 0) else s

/-! ## The event log -/

/-- SEV of an event code (R381, R397, R435). -/
def sev (code : Nat) : Nat :=
  if [0x110, 0x111, 0x112, 0x113, 0x120, 0x121, 0x140, 0x141, 0x142, 0x211, 0x301, 0x302, 0x310, 0x311, 0x312, 0x320,
      0x321, 0x402, 0x421, 0x501, 0x502, 0x510, 0x520, 0x602, 0x820, 0x823, 0x901, 0x902, 0x915, 0x917, 0xA13, 0xA22,
      0xA32, 0xA40, 0xB12, 0xB20, 0xB40, 0xB80, 0xC21, 0xC40].contains code then 3
  else if [0x130, 0x401, 0x601, 0x603, 0x730, 0x801, 0x811, 0x822, 0x824, 0xA30, 0xA31, 0xB11, 0xB13].contains code then 1
  else 2

/-- The FLASHED bit set (R380). -/
def LogRec.flashed (r : LogRec) : LogRec := { r with flags := r.flags ||| 0x10 }

/-- One record enters the log (R382): the newest 65,536 stay, and a SEV 3 record is copied to the flash ring of 1,024. -/
def State.addRec (s : State) (r : LogRec) : State :=
  if r.flags / 64 = 3 then
    { s with log := (r.flashed :: s.log).take 65536, logSeq := r.seq, flashLog := (r.flashed :: s.flashLog).take 1024, flashSeq := r.seq }
  else { s with log := (r :: s.log).take 65536, logSeq := r.seq }

/-- The record that an event makes from up to 36 bytes of ARGS; `cont` marks a continuation (R380). -/
def State.mkRec (s : State) (code src : Nat) (cont : Bool) (args : Bytes) : LogRec :=
  { seq := s.logSeq + 1, time := s.us, code := code, flags := sev code * 64 + b2n cont * 32, source := src,
    steplo := s.rn R.GH_CM_STEP % 2 ^ 32, epochlo := s.rn R.LK_EPOCH % 2 ^ 32, args := padTo 36 args }

/-- Records of an event whose items do not fit 36 bytes; `k` bounds how many. -/
def State.addRecs (s : State) (code src : Nat) : Nat → Bool → Bytes → State
  | 0, _, _ => s
  | k + 1, cont, args =>
    let s1 := s.addRec (s.mkRec code src cont (args.take 36))
    if args.length ≤ 36 then s1 else s1.addRecs code src k true (args.drop 36)

/-- Logs an event (R380), raising source 80 by its severity, and sources 82 and 83 by its code (R368). -/
def State.ev (s : State) (code src : Nat) (args : Bytes) : State :=
  let s1 := s.addRecs code src 8 false args
  let s2 := if s.rfld R.GH_LOG_CFG 1 0 ≠ 0 ∧ sev code ≥ s.rfld R.GH_LOG_CFG 1 0 then s1.raise 80 else s1
  let s3 := if code / 256 = 0x0C then s2.raise 82 else s2
  if code = 0x801 ∨ code = 0x810 ∨ code = 0x824 then s3.raise 83 else s3

/-! ## Sync counters (R293) -/

/-- A sync counter's value. -/
def State.syncVal (s : State) (i : Nat) : Nat := SMap.get (fun _ => 0) s.sync i
/-- Sets a sync counter. -/
def State.setSync (s : State) (i v : Nat) : State := { s with sync := SMap.set (fun _ => 0) s.sync i (v % 2 ^ 64) }
/-- Adds to a sync counter, modulo 2^64. -/
def State.addSync (s : State) (i n : Nat) : State := s.setSync i (s.syncVal i + n)

/-! ## Commands and queues -/

/-- Word i of a command as a number. -/
def Cmd.w (c : Cmd) (i : Nat) : Nat := (c.getD i 0).toNat
/-- A field of word i. -/
def Cmd.f (c : Cmd) (i hi lo : Nat) : Nat := bits (c.w i) hi lo
/-- A bit of word i. -/
def Cmd.b (c : Cmd) (i k : Nat) : Bool := (c.w i).testBit k
/-- The opcode (R110). -/
def Cmd.op (c : Cmd) : Nat := c.f 0 7 0
/-- The command tag (R110). -/
def Cmd.tag (c : Cmd) : Nat := c.f 0 39 16
/-- The eight words of 64 bytes. -/
def Cmd.ofBytes (b : Bytes) : Cmd := (List.range 8).map (fun i => BitVec.ofNat 64 (leAt b (8 * i) 8))
/-- The 64 bytes of a command. -/
def Cmd.toBytes (c : Cmd) : Bytes := (List.range 8).flatMap (fun i => leBytes 8 (c.w i))

/-- PAR as R110 computes it: bit i makes word i even, word 0 with PAR taken as 0. -/
def Cmd.par (c : Cmd) : Nat :=
  (List.range 8).foldl (fun acc i =>
    acc + b2n (oddOnes 64 (if i = 0 then putBits (c.w 0) 15 8 0 else c.w i)) * 2 ^ i) 0
/-- Does the command pass parity? -/
def Cmd.parOk (c : Cmd) : Bool := c.f 0 15 8 == c.par
/-- The command with PAR computed over it, as a push makes it (R290). -/
def Cmd.withPar (c : Cmd) : Cmd := c.set 0 (BitVec.ofNat 64 (putBits (c.w 0) 15 8 c.par))

/-- Is a queue halted? -/
def EQ.halted (q : EQ) : Bool := q.cause != 0
/-- The head command, when the queue runs (R290); a halt that is due holds it at the command boundary. -/
def EQ.head? (q : EQ) : Option Cmd := if q.halted || q.haltDue != 0 then none else q.cmds.head?
/-- The head command removed (dispatched, skipped or discarded). -/
def EQ.pop (q : EQ) : EQ := { q with cmds := q.cmds.drop 1, kept := q.kept.drop 1, taken := q.taken + 1 }
/-- Commands are numbered as they were pushed; the number of the next one to leave the queue for the first time. -/
def EQ.nextJob (q : EQ) : Nat := q.taken + q.kept.length + 1
/-- The number that the head command runs under as a job. -/
def EQ.job (q : EQ) : Nat := q.kept.headD q.nextJob
/-- The head command removed to run as a job. -/
def EQ.popJob (q : EQ) : EQ := q.pop
/-- The queue halts with a cause. -/
def EQ.halt (q : EQ) (c : Nat) : EQ := { q with cause := c, haltDue := 0 }
/-- A command appended. -/
def EQ.push (q : EQ) (c : Cmd) : EQ := { q with cmds := q.cmds ++ [c], pushed := q.pushed + 1 }
/-- A COMMIT command that has made its copy leaves the queue, from behind the TILE commands that a fault put back (R109). -/
def EQ.dropCommit (q : EQ) : EQ :=
  if q.kept.isEmpty then q.pop else { q with cmds := q.cmds.eraseP (fun c => c.op == 0x31), taken := q.taken + 1 }
/-- A halt that is to come at the next command boundary; an earlier one that is due stands. -/
def EQ.haltSoon (q : EQ) (cause : Nat) : EQ := { q with haltDue := if q.haltDue = 0 then cause else q.haltDue }
/-- A command put back at the head, unstarted, keeping its number. -/
def EQ.putBack (q : EQ) (c : Cmd) (job : Nat) : EQ :=
  { q with cmds := c :: q.cmds, kept := job :: q.kept, taken := q.taken - 1 }
/-- Every queued command discarded; each counts as completed (R425, R428). -/
def EQ.clear (q : EQ) : EQ := { q with cmds := [], kept := [], sigs := [], taken := q.pushed }
/-- The first deferred signal whose earlier jobs have all ended, with the queue without it; `live` says whether some job
numbered below a bound has not ended. -/
def EQ.takeSig (q : EQ) (live : Nat → Bool) : Option (Nat × EQ) :=
  match q.sigs with
  | [] => none
  | g :: r => if live g.before || q.kept.any (· < g.before) then none else some (g.counter, { q with sigs := r })
/-- A SYNC_SIGNAL with WHEN = 1 is remembered (R111). -/
def EQ.defer (q : EQ) (counter : Nat) : EQ := { q with sigs := q.sigs ++ [⟨counter, q.nextJob⟩] }

/-- What a row of an engine does with the head command: parity first, then the row's own opcode; an opcode outside the
engine's table is refused; any other opcode is another row's, and this row does nothing (DESIGN CHOICE, log 1). -/
def dispatch (s : State) (q : EQ) (known : List Nat) (op : Nat) (onPar : State) (onBad f : Cmd → State) : State :=
  match q.head? with
  | none => s
  | some c => if !c.parOk then onPar else if c.op = op then f c else if known.contains c.op then s else onBad c

/-! ## Benches -/

/-- A bench. -/
def State.bench (s : State) (b : Fin 24) : Bench := s.benches[b]
/-- Replaces a bench. -/
def State.setBench (s : State) (b : Fin 24) (x : Bench) : State := { s with benches := s.benches.set b x }
/-- Changes a bench. -/
def State.modBench (s : State) (b : Fin 24) (f : Bench → Bench) : State := s.setBench b (f (s.bench b))

/-- Is a fence under way or complete (R425)? -/
def Bench.out (x : Bench) : Bool := x.fenced || x.fenceDue.isSome

/-- Is the power domain of a bench off, with the bench counted as fenced (R426, R427)? -/
def State.benchDark (s : State) (b : Fin 24) : Bool := (s.bench b).fenced && !s.rbit R.PW_DOMAIN b

/-- FLAG_RAISED for each condition flag of `new` whose EVT bit is 1 (R80). -/
def State.flagEvents (s : State) (b tag new : Nat) : Nat → State
  | 0 => s
  | k + 1 =>
    let s1 := s.flagEvents b tag new k
    if new.testBit k && s.rbit (R.BN_FLAG_CFG b) (8 + k) then s1.ev 0x130 b (leBytes 1 k ++ leBytes 3 tag) else s1

/-- Conditions charged to a bench (R78, R79): the sticky flags set, each that goes from 0 to 1 logging FLAG_RAISED when
its EVT bit is 1 (R80). `c` has the bit positions of BN_FLAGS. -/
def State.charge (s : State) (b tag c : Nat) : State :=
  let old := s.rn (R.BN_FLAGS b)
  let new := (c % 32) &&& (31 - old % 32)
  (s.setRn (R.BN_FLAGS b) (old ||| (c % 32))).flagEvents b tag new 4

end Sys2Proof.Machine
end

