-- ==== Sys2Proof/Machine/AddWindow.lean ====
section
/-! DEFINITION. The add windows of a stack (R208 to R212): any write that reaches an enabled one adds. -/
namespace Sys2Proof.Machine

/-- The lowest-numbered enabled add window that holds an address (R208, R212). -/
def State.addWindow (s : State) (a : Nat) : Option Nat :=
  let k := stackOf a
  if !isMergo a then none
  else (List.range 8).find? (fun w => s.rbit (R.UE_ATM_CFG k w) 31
    && decide (s.rfld (R.UE_ATM_BASE k w) 47 6 * 64 ≤ a) && decide (a < s.rfld (R.UE_ATM_LIMIT k w) 47 6 * 64))

/-- One element of an add write (R209, R210): the new word and the window flags NAN, OVF, UNF, INX in bits 4 to 1. -/
def addElem (rf : Bool) (poison : Bool) (old v : Nat) : Nat × Nat :=
  if rf then
    if poison ∨ old = 0x80000000 ∨ v = 0x80000000 then (0x80000000, 16)
    else
      let n := signed 32 old + signed 32 v
      if n > 2 ^ 31 - 1 then (2 ^ 31 - 1, 8) else if n < -(2 ^ 31 - 1) then (toBits 32 (-(2 ^ 31 - 1)), 8) else (toBits 32 n, 0)
  else
    let r := fpAdd (if poison then FP32.nanCode else old) v
    (r.1, (if r.1 = FP32.nanCode then 16 else 0) + 8 * b2n r.2.ovf + 4 * b2n r.2.unf + 2 * b2n r.2.inx)

/-- The elements of an add write from an aligned address, `k` of them. -/
def addElems (s : State) (rf : Bool) (a : Nat) (bs : Bytes) : Nat → List Nat × Nat
  | 0 => ([], 0)
  | k + 1 =>
    let r := addElems s rf a bs k
    let e := addElem rf (s.poisonedAt a) (s.le (a + 4 * k) 4) (leAt bs (4 * k) 4)
    (r.1 ++ [e.1], r.2 ||| e.2)

/-- ADD_WRITE (R208 to R211): one write that lies in one line of window w of stack k. Elements that it covers in part stay,
with ATM_FAULT. -/
def addWrite (s : State) (k w a : Nat) (bs : Bytes) : State :=
  let lo := (a + 3) / 4 * 4
  let hi := (a + bs.length) / 4 * 4
  let s0 := s.addReg (R.UE_ADDS k) 1
  let s1 := if hi ≤ lo then s0 else
    let r := addElems s0 (s.rbit (R.UE_ATM_CFG k w) 30) lo (bs.drop (lo - a)) ((hi - lo) / 4)
    (s0.wr lo (r.1.flatMap (leBytes 4))).setRn (R.UE_ATM_CFG k w) (s0.rn (R.UE_ATM_CFG k w) ||| r.2)
  if lo ≠ a ∨ hi ≠ a + bs.length then s1.ev 0xA23 k (leBytes 8 a) else s1

/-- A write that lies in one 64-byte line, outside register space and the local stores: added where an enabled window takes it. -/
def addPiece (s : State) (a : Nat) (bs : Bytes) : State :=
  match s.addWindow a with
  | some w => addWrite s (stackOf a) w a bs
  | none => s.wr a bs

/-- A write cut into lines; `k` bounds their number. -/
def addLines (s : State) (a : Nat) (bs : Bytes) : Nat → State
  | 0 => s
  | k + 1 =>
    let n := 64 - a % 64
    if bs.length ≤ n then (if bs.isEmpty then s else addPiece s a bs)
    else addLines (addPiece s a (bs.take n)) (a + n) (bs.drop n) k

/-- A write by a bench or a dresser to Mergo or the stockyard (R91, R94, R208). -/
def State.wrAdd (s : State) (a : Nat) (bs : Bytes) : State :=
  if isMergo a then addLines s a bs (bs.length / 64 + 2) else s.wr a bs

end Sys2Proof.Machine
end

