-- ==== Sys2Proof/Machine/Tile.lean ====
section
/-! DEFINITION. The array of a bench: what a tile is (R53 to R55, R89 to R101, R112), its operands, its partial and spill
records, the sentinel, and the sums of one beat on the dense path and on the table path (R136 to R148). -/
namespace Sys2Proof.Machine

/-! ## The tile descriptor (R112) -/

namespace Tile
def M (t : Tile) : Nat := 16 * t.cmd.f 2 7 0
def npass (t : Tile) : Nat := t.cmd.f 2 31 16
def kpass (t : Tile) : Nat := t.cmd.f 2 13 8
def fmtCode (t : Tile) : Nat := t.cmd.f 1 7 4
def fmt (t : Tile) : LogFmt := logFmtOf t.fmtCode
def actMx (t : Tile) : Nat := t.cmd.f 1 11 8
def path (t : Tile) : Nat := t.cmd.f 1 13 12
def group (t : Tile) : Nat := 4 * 2 ^ t.cmd.f 1 3 2
def autosplit (t : Tile) : Bool := t.cmd.b 1 1
def fin (t : Tile) : Bool := t.cmd.b 1 15
def cont (t : Tile) : Bool := t.cmd.b 1 14
def anchor (t : Tile) : Int := signed 12 (t.cmd.f 1 27 16)
def ringStart (t : Tile) : Nat := t.cmd.f 2 42 32
def seed (t : Tile) : Nat := t.cmd.f 0 43 40
def tag (t : Tile) : Nat := t.cmd.tag
def part (t : Tile) : Nat := t.cmd.f 3 47 0
def spillAddr (t : Tile) : Nat := t.cmd.f 4 47 0
def status (t : Tile) : Nat := t.cmd.f 5 47 0
def drainAddr (t : Tile) : Nat := t.cmd.f 6 47 0
/-- Staging slots of one beat (R139). -/
def span (t : Tile) : Nat := if t.path = 0 then 1 else cdiv (16 * t.kpass) 128
/-- Bytes of a partial record (R91). -/
def recSize (t : Tile) : Nat := if t.clsD then 40 else 8
/-- The plane that a pass uses (R95). -/
def planeOf (t : Tile) (p : Nat) : Nat := (t.cmd.f 2 48 48 + p) % 2
/-- The tag that the sentinel expects of beat (p, r) (R99). -/
def expTag (t : Tile) (p r : Nat) : Nat := (t.seed + 7 * p + r) % 16
/-- Slot i of beat (p, r) (R90, R139). -/
def slot (t : Tile) (p r i : Nat) : Nat :=
  t.ringBase + (t.ringStart - t.ringBase + t.span * (p * t.M + r) + i) % t.ringSlots
/-- Does pass p read partials (R91)? -/
def readsPart (t : Tile) (p : Nat) : Bool := decide (0 < p) || t.cont
/-- Does pass p write partials (R91)? -/
def writesPart (t : Tile) (p : Nat) : Bool := decide (p + 1 < t.npass) || !t.fin
/-- Does the tile use a partial region (R91)? -/
def hasPart (t : Tile) : Bool := decide (1 < t.npass) || t.cont || !t.fin
/-- Are beats still to enter? -/
def filling (t : Tile) : Bool := !t.dead && decide (t.pass < t.npass)
/-- Must the bench spill before the next pass begins (R61)? -/
def spillDue (t : Tile) : Bool :=
  !t.clsD && t.autosplit && decide (t.row = 0) && decide (0 < t.count)
    && decide (65536 < 16 * t.count + 16 * t.kpass)
/-- The number of the next beat to enter, counted over the passes. -/
def beat (t : Tile) : Nat := t.pass * t.M + t.row
/-- The counter after a pass is added (R55). -/
def addCount (t : Tile) : Nat := min 0xFFFF (t.count + t.kpass)
end Tile

/-- The tile whose beats are entering or enter next (R89, R96). -/
def Bench.fill? (x : Bench) : Option Tile := x.tiles.find? (·.filling)
/-- The tile with a number. -/
def Bench.tile? (x : Bench) (id : Nat) : Option Tile := x.tiles.find? (fun t => t.id == id)
/-- Replaces a tile in its slot. -/
def Bench.setTile (x : Bench) (t : Tile) : Bench :=
  { x with tiles := x.tiles.map (fun u => if u.id = t.id then t else u) }
/-- Frees the slot of a tile. -/
def Bench.dropTile (x : Bench) (id : Nat) : Bench := { x with tiles := x.tiles.filter (fun u => u.id != id) }
/-- Is a table-path tile before its tile boundary: the tables of its first four beats are not all built (R147)? -/
def Tile.early (t : Tile) : Bool := decide (t.path ≠ 0) && decide (t.beat = 0) && decide (t.built < min 4 (t.npass * t.M))
/-- Is a tile stopped by a pending fault: its own, or that of a tile before it (R101)? The faults of a tile captured behind leave it alone. -/
def Bench.faulty (x : Bench) (t : Tile) : Bool := x.fault.any (fun f => decide (f.tile ≤ t.id))
/-- The tile whose beats are entering (R114, R147). -/
def Bench.entering? (x : Bench) : Option Tile := x.fill?.filter (fun t => !t.early)
/-- A weight plane. -/
def Bench.plane (x : Bench) (n : Nat) : Plane := if n % 2 = 0 then x.plane0 else x.plane1
/-- Replaces a weight plane. -/
def Bench.setPlane (x : Bench) (n : Nat) (p : Plane) : Bench :=
  if n % 2 = 0 then { x with plane0 := p } else { x with plane1 := p }
/-- What lies beside a staging slot. -/
def Bench.slotMeta (x : Bench) (i : Nat) : SlotMeta := SMap.get (fun _ => {}) x.smeta i
/-- Sets what lies beside a staging slot. -/
def Bench.setSlot (x : Bench) (i : Nat) (v : SlotMeta) : Bench :=
  { x with smeta := SMap.set (fun _ => {}) x.smeta i v }
/-- Every PEND bit cleared (R261). -/
def Bench.clearPend (x : Bench) : Bench :=
  { x with smeta := x.smeta.foldl (fun m e => SMap.set (fun _ => {}) m e.1 { e.2 with pend := false }) x.smeta }
/-- Is a plane the active plane of a running pass (R95, R114)? -/
def Bench.planeActive (x : Bench) (n : Nat) : Bool :=
  x.tiles.any (fun t => t.filling && decide (0 < t.row) && decide (t.planeOf t.pass = n % 2))
    || x.inArray.any (fun r => x.tiles.any (fun t => t.id == r.tile && decide (t.planeOf r.pass = n % 2)))

/-! ## Operands (R85, R95, R136, R137) -/

/-- The address of a plane (R85). -/
def planeBase (b n : Nat) : Nat := storeBase b + 0x80000 * n
/-- The address of a plane's block-exponent or metadata area (R85). -/
def bexpBase (b n : Nat) : Nat := storeBase b + 0x340000 + 0x2000 * n
/-- The address of a staging slot (R85). -/
def slotBase (b i : Nat) : Nat := storeBase b + 0x100000 + 0x400 * i

/-- The K-values that one slot gives: codes with block exponents, and the conditions of their entry (R85, R41). -/
def slotCodes (s : State) (b slot : Nat) (fmtCode mx k : Nat) : List (Nat × Int) × Cond :=
  let a := slotBase b slot
  if mx = 0 then
    ((List.range k).map (fun i => (if fmtCode < 2 then s.le (a + i) 1 else s.le (a + 2 * i) 2, 0)), Cond.none)
  else
    (List.range (k / 32)).foldl (fun acc j =>
      let l := s.bytes (a + j * blockBytes mx) (blockBytes mx)
      let r := mxBlockToLx16 mx (s.le (a + 1008 + j) 1) ((List.range 32).map (elemAt mx l))
      (acc.1 ++ r.1.map (fun c => (c, r.2.1)), acc.2.or r.2.2)) ([], Cond.none)

/-- The weight code and block exponent of cell (k, n) of a plane on the dense path (R85). -/
def weightAt (s : State) (b pl pfmt k n : Nat) : Nat × Int :=
  if pfmt < 2 then (s.le (planeBase b pl + k * 512 + n) 1, 0)
  else (s.le (planeBase b pl + k * 1024 + 2 * n) 2,
        if pfmt = 4 then signed 8 (s.le (bexpBase b pl + k / 32 * 512 + n) 1) else 0)

/-- The 4-bit pattern of cell (k, n) on the table path (R136). -/
def patternAt (s : State) (b pl k n : Nat) : Nat :=
  (s.le (planeBase b pl + k * 256 + n / 2) 1 >>> (4 * (n % 2))) % 16

/-! ## Table entries (R140 to R144) -/

/-- `ent_round` of R140. -/
def entRound (v : Val) : Nat :=
  match v with
  | .fin s m =>
    if m = 0 then 0x40000000
    else
      let e := flog2 m
      let n := (rne (m * pow2 (22 - e))).toNat
      let c := decide (n = 2 ^ 23)
      let n1 := if c then 2 ^ 22 else n
      let e1 := if c then e + 1 else e
      b2n s * 2 ^ 31 + toBits 9 e1 * 2 ^ 22 + (n1 - 2 ^ 22)
  | _ => 0x40000001

/-- A table entry as a product, its exponent raised by the plane's BIT (R143). -/
def entProd (w : Nat) (bit : Int) : Prod :=
  if signed 9 (bits w 30 22) = -256 then (if w % 2 = 1 then .nan else .zero)
  else .num (w.testBit 31) ((2 ^ 22 + bits w 21 0) * 4) (signed 9 (bits w 30 22) + bit)

/-- The value of a table entry (R140). -/
def entVal (w : Nat) : Val :=
  if signed 9 (bits w 30 22) = -256 then (if w % 2 = 1 then .nan else .fin false 0)
  else .fin (w.testBit 31) (((2 ^ 22 + bits w 21 0 : Nat) : Rat) * pow2 (signed 9 (bits w 30 22) - 22))

/-- The exact sum of values, NaN if any is NaN. -/
def sumVals (l : List Val) : Val :=
  if l.any Val.isNan then .nan else Val.ofRat (l.foldl (fun a v => a + v.toRat) 0)

/-- The table of one cell row: sixteen entries (R141). -/
def quadTable (q : List Val) : List Nat :=
  (List.range 16).map (fun p =>
    if q.any Val.isNan then 0x40000001
    else entRound (sumVals ((List.range 4).map (fun j => if p.testBit j then q.getD j (.fin false 0) else .fin false 0))))

/-- The correction of one column (R144). -/
def correction (zeta : Val) (csum : Nat) (bit : Nat) (z : Rat) (am : Val) (kp : Nat) : Nat :=
  match zeta, am with
  | .fin sz mz, .fin sa ma =>
    let zr := Val.toRat (.fin sz mz)
    let ar := Val.toRat (.fin sa ma)
    entRound (Val.ofRat (-(2 ^ bit : Nat) * zr * (csum : Rat)
      + (if bit = 0 then -z * ar + 4 * (kp : Rat) * zr * z else 0)))
  | _, _ => 0x40000001

/-! ## The sums of one beat (R54, R56, R57, R63, R86) -/

/-- Products taken in groups of g, in order. -/
def groupsOf (g : Nat) (l : List Prod) : List (List Prod) :=
  (List.range (l.length / g)).map (fun j => (l.drop (j * g)).take g)

/-- One column of one beat: the products entered in an accumulator of the tile's class; `extra` is the correction of the
table path. -/
def accumA (g : Nat) (ps : List Prod) (extra : Option Prod) (acc : AccA) : AccA :=
  let a := (groupsOf g ps).foldl (fun x grp => accAdd x (groupSum grp)) acc
  match extra with
  | none => a
  | some p => accAdd a (groupSum [p])

/-- The Class D sum of one column of one beat (R63). -/
def accumD (ps : List Prod) (extra : Option Prod) (acc : Wp) : Wp :=
  (ps ++ extra.toList).foldl dAdd acc

/-- The fresh accumulators of a row (R57, R63). -/
def freshRow (t : Tile) : RowAcc :=
  if t.clsD then .d (List.replicate 512 { A := t.anchor }) else .a (List.replicate 512 {})

/-- Every column of one beat: `col n` gives the products and the correction of column n. -/
def beatRow (t : Tile) (acc : RowAcc) (col : Nat → List Prod × Option Prod) : RowAcc :=
  match acc with
  | .a l => .a ((List.range 512).map (fun n => accumA t.group (col n).1 (col n).2 (l.getD n {})))
  | .d l => .d ((List.range 512).map (fun n => accumD (col n).1 (col n).2 (l.getD n { A := t.anchor })))

/-- The products of column n on the dense path (R50, R86). -/
def denseCol (s : State) (b pl pfmt : Nat) (f : LogFmt) (acts : List (Nat × Int)) (n : Nat) : List Prod × Option Prod :=
  (acts.zipIdx.map (fun ak =>
    let w := weightAt s b pl pfmt ak.2 n
    product ak.1.1 w.1 f ak.1.2 w.2), none)

/-- The entries of column n on the table path, with the column's correction (R142 to R144). -/
def tableCol (s : State) (b pl kp beat asum n : Nat) : List Prod × Option Prod :=
  let mb := bexpBase b pl
  let bit := s.le (mb + 0x602) 1
  let tb := storeBase b + 0x300000 + beat % 8 * 0x8000
  let z : Rat := (signed 8 (s.le (mb + n) 1) : Rat) / 16
  ((List.range kp).map (fun k => entProd (s.le (tb + k * 64 + patternAt s b pl k n * 4) 4) bit),
   some (entProd (correction (logDecode (s.le (mb + 0x600) 2) LX16 0) (s.le (mb + 0x200 + 2 * n) 2) bit z (entVal asum) kp) 0))

/-! ## Partial and spill records (R91, R94, R101) -/

/-- The address of the partial record of element (m, n) (R91). -/
def Tile.partAt (t : Tile) (m n : Nat) : Nat := t.part + (m * 512 + n) * t.recSize
/-- The address of the spill record of element (m, n) (R94). -/
def Tile.spillAt (t : Tile) (m n : Nat) : Nat := t.spillAddr + (m * 512 + n) * 40

/-- A WP256 record in memory; a record on a poisoned line counts as poisoned (R250). -/
def rdWp (s : State) (a : Nat) : Wp := if s.badRead a 40 then Wp.poisoned else Wp.ofBytes (s.bytes a 40)
/-- A PA64 accumulator in memory; a word on a poisoned line counts as poisoned (R250). -/
def rdPa (s : State) (a : Nat) : AccA := if s.badRead a 8 then { poison := true } else AccA.ofPA64 (s.le a 8)

/-- A row of partials as the bank returns it (R58, R65, R91); a Class D record is read under the tile's anchor (R98). -/
def readRow (s : State) (t : Tile) (m : Nat) : RowAcc :=
  if t.clsD then .d ((List.range 512).map (fun n => { rdWp s (t.partAt m n) with A := t.anchor }))
  else .a ((List.range 512).map (fun n => rdPa s (t.partAt m n)))

/-- The bytes of a row of partials (R58, R65). -/
def RowAcc.toBytes : RowAcc → Bytes
  | .a l => l.flatMap (fun x => leBytes 8 x.toPA64)
  | .d l => l.flatMap Wp.toBytes

/-- Poison written to every element of the partial region, if the tile has one, and to its spill records (R101). -/
def poisonTile (s : State) (t : Tile) : State :=
  let n := t.M * 512
  let s1 := if t.hasPart then
      s.wrAdd t.part ((List.replicate n (if t.clsD then Wp.poisoned.toBytes else leBytes 8 0x8000000000000002)).flatten)
    else s
  if t.spill then s1.wrAdd t.spillAddr ((List.replicate n Wp.poisoned.toBytes).flatten) else s1

/-- The spill of one row (R61, R94): each accumulator read from the partial region enters its record, and the accumulators
become fresh. -/
def spillRow (s : State) (t : Tile) (m : Nat) : State :=
  let recs := (List.range 512).map (fun n =>
    spillAdd (if t.spill then rdWp s (t.spillAt m n) else {}) (rdPa s (t.partAt m n)))
  (s.wrAdd (t.spillAt m 0) (recs.flatMap Wp.toBytes)).wr (t.partAt m 0) (List.replicate (512 * 8) 0)

/-! ## Faults of a tile (R100, R101, R103) -/

/-- The bench detects a fault of the filling tile: its beats in the array and its built tables are discarded and no beat
enters until the poisoning is done. -/
def Bench.beginFault (x : Bench) (f : TileFault) : Bench :=
  { x with fault := some f, finWait := x.finWait && (x.inArray.head?.any (fun r => r.tile != f.tile)), inArray := x.inArray.filter (fun r => r.tile != f.tile),
           parts := x.parts.filter (fun r => r.tile != f.tile), tables := x.tables.filter (fun r => r.tile != f.tile) }

/-- The checks at the first beat of a pass (R95, R148): kind 1 for a plane that is not VALID or of a wrong format, kind 0
for a plane tag. -/
def planeFault (s : State) (b : Nat) (x : Bench) (t : Tile) : Option TileFault :=
  let pn := t.planeOf t.pass
  let pl := x.plane pn
  let okFmt :=
    if t.path = 0 then decide (pl.pfmt = t.fmtCode) || (decide (pl.pfmt = 4) && decide (t.fmtCode = 2))
    else decide (pl.pfmt = 4 + t.path) &&
      decide (s.le (bexpBase b pn + 0x602) 1 = (if t.path = 2 then t.pass % 2 else 0))
  let e := t.expTag t.pass 0
  if !pl.valid || !okFmt then some ⟨1, 1, t.id, t.pass, 0, e, pl.tag, 1⟩
  else if pl.tag ≠ e then some ⟨0, 1, t.id, t.pass, 0, e, pl.tag, 1⟩
  else none

/-- The activation check of the slots of beat (p, r) (R99, R139): every slot's tag, and END on the last slot of row M − 1
only. -/
def slotFault (x : Bench) (t : Tile) (p r : Nat) : Option TileFault :=
  let e := t.expTag p r
  match (List.range t.span).find? (fun i =>
      let m := x.slotMeta (t.slot p r i)
      decide (m.tag ≠ e) || m.fin != (decide (r + 1 = t.M) && decide (i + 1 = t.span))) with
  | none => none
  | some i => some ⟨0, 0, t.id, p, r, e, (x.slotMeta (t.slot p r i)).tag, 1⟩

/-- The slots of a beat read: their PEND bits clear (R261). -/
def Bench.readSlots (x : Bench) (t : Tile) (p r : Nat) : Bench :=
  (List.range t.span).foldl (fun y i => let k := t.slot p r i; y.setSlot k { y.slotMeta k with pend := false }) x

/-- The next pass and row after (p, r). -/
def Tile.advance (t : Tile) : Tile :=
  if t.row + 1 < t.M then { t with row := t.row + 1, hold := false } else { t with pass := t.pass + 1, row := 0, hold := false }

/-- The counter and the bound flag at the first beat of a pass (R55, R62, R64). -/
def Tile.beginPass (t : Tile) : Tile :=
  let c := t.addCount
  { t with count := c, bound := t.bound || (if t.clsD then decide (c = 0xFFFF) else !t.autosplit && decide (65536 < 16 * c)) }

end Sys2Proof.Machine
end

