-- ==== Sys2Proof/Machine/Bench.lean ====
section
/-! DEFINITION. The bench queue, staged configuration, the array sequencer and the bench registers that act (R87 to R115),
one meaning for each command. -/
namespace Sys2Proof.Machine

abbrev Res := Host.Outcome State Fault Refusal

/-! ## Halting and dispatch -/

/-- The bench queue halts (R114): source 81 is raised (R368). -/
def State.benchHalt (s : State) (b : Fin 24) (cause : Nat) : State :=
  (s.modBench b (fun x => { x with q := x.q.halt cause })).raise 81

/-- A bench command refused (R111, R113): DESC_INVALID with the TAG and the item. DESIGN CHOICE (log 82): the item is 0 for an unknown opcode
and a refused SETREG, which R113 does not number. -/
def State.benchRefuse (s : State) (b : Fin 24) (item : Nat) (c : Cmd) : State :=
  (s.ev 0x121 b (leBytes 3 c.tag ++ leBytes 1 item)).benchHalt b 4

/-- The head of the bench queue under a row of opcode `op` (R111); nothing is dispatched while the bench is fenced, a fault is
being poisoned, or a COMMIT command awaits its copy (R101, R106). -/
def benchDispatch (s : State) (b : Fin 24) (op : Nat) (f : Cmd → State) : State :=
  let x := s.bench b
  if x.out || x.fault.isSome || x.commitCmd then s
  else dispatch s x.q [0, 0x10, 0x20, 0x21, 0x30, 0x31, 0x3F] op ((s.ev 0x111 b []).benchHalt b 5) (s.benchRefuse b 0) f

/-- The head command leaves the bench queue. -/
def State.benchPop (s : State) (b : Fin 24) : State := s.modBench b (fun x => { x with q := x.q.pop })

/-- Has some TILE numbered below a bound not ended (R111)? A drained tile ends with its status record (R82). -/
def Bench.tileLive (x : Bench) (n : Nat) : Bool :=
  x.tiles.any (fun t => !t.dead && decide (t.job < n)) || x.drained.any (fun t => decide (t.job < n))

/-- NOP (R111): nothing but its dispatch. -/
def benchNop (s : State) (b : Fin 24) : State := benchDispatch s b 0 (fun _ => s.benchPop b)

/-- SYNC_WAIT (R111, R293): dispatched once the counter has reached the target. -/
def benchSyncWait (s : State) (b : Fin 24) : State :=
  benchDispatch s b 0x20 (fun c => if c.w 2 ≤ s.syncVal (c.f 1 7 0) then s.benchPop b else s)

/-- SYNC_SIGNAL (R111): the add takes effect at once, or waits for every earlier TILE. -/
def benchSyncSignal (s : State) (b : Fin 24) : State :=
  benchDispatch s b 0x21 (fun c =>
    let x := s.bench b
    if c.b 1 8 && x.tileLive x.q.nextJob then s.modBench b (fun y => { y with q := y.q.pop.defer (c.f 1 7 0) })
    else (s.benchPop b).addSync (c.f 1 7 0) 1)

/-- The offsets of the RWS registers of a bench (R105, R114). -/
def benchRws : List Nat := [0x100, 0x108, 0x110, 0x118, 0x120, 0x128, 0x410]

/-- A write to the stage bank of a bench register (R105): 32-bit registers keep 32 bits, and EVT of BN_FLAG_CFG has no stage
bank (R80). -/
def State.stageWrite (s : State) (b off v : Nat) : State :=
  let a := BN.base b + off
  if off = 0x410 then s.setRn a (putBits (v % 2 ^ 32) 11 8 (s.rfld a 11 8))
  else if off ≤ 0x108 then s.setRn a (v % 2 ^ 32)
  else s.setRn a v

/-- SETREG (R111, R109). -/
def setReg (s : State) (b : Fin 24) : State :=
  benchDispatch s b 0x30 (fun c =>
    if benchRws.contains (c.f 1 15 0) then (s.benchPop b).stageWrite b (c.f 1 15 0) (c.w 2)
    else s.benchRefuse b 0 c)

/-- HALT (R111): the queue halts behind it with cause 6. -/
def benchHaltCmd (s : State) (b : Fin 24) : State :=
  benchDispatch s b 0x3F (fun _ => (s.benchPop b).benchHalt b 6)

/-- COMMIT (R106): the request is made, and the command stays at the head until the copy. -/
def benchCommit (s : State) (b : Fin 24) : State :=
  benchDispatch s b 0x31 (fun _ => s.modBench b (fun x => { x with commitCmd := true }))

/-! ## COMMIT (R105 to R108) -/

/-- The address of a bench register's stage bank, or of its active-bank view. -/
def stageAddr (b off : Nat) (act : Bool) : Nat := BN.base b + off + (if act then 0x800 else 0)
/-- An address field [47:6] of a window register. -/
def State.winAddr (s : State) (b off : Nat) (act : Bool) : Nat := s.rfld (stageAddr b off act) 47 6 * 64

/-- The reserved bits of a stage register. -/
def rwsMask (off : Nat) : Nat :=
  if off = 0x100 then 0xFFFF0001 else if off = 0x108 then 0x0FFF07FF else if off = 0x410 then 0xF03 else 0xFFFFFFFFFFC0

/-- The validation of R107: the check that fails first, with the offset of the first register that it names. -/
def State.validate (s : State) (b : Nat) : Option (Nat × Nat) :=
  let pb := s.winAddr b 0x110 false
  let pl := s.winAddr b 0x118 false
  let sb := s.winAddr b 0x120 false
  let sl := s.winAddr b 0x128 false
  let yard := fun lo hi => decide (0x010000000000 ≤ lo) && decide (hi ≤ 0x010020000000)
  let base := s.rfld (R.BN_RING b) 10 0
  let slots := s.rfld (R.BN_RING b) 27 16
  if pl < pb || (decide (pb < pl) && !yard pb pl) then some (1, 0x110)
  else if sl < sb || (decide (sb < sl) && !(yard sb sl || decide (sl ≤ 0x006000000000))) then some (2, 0x120)
  else if pb < pl ∧ sb < sl ∧ pb < sl ∧ sb < pl then some (3, 0x110)
  else if slots % 16 ≠ 0 ∨ slots < 16 ∨ 2048 < slots ∨ 2048 < base + slots then some (4, 0x108)
  else if s.rfld (R.BN_FLAG_CFG b) 1 0 = 0 then some (5, 0x410)
  else
    match benchRws.find? (fun o => s.rn (BN.base b + o) &&& (2 ^ 64 - 1 - rwsMask o) != 0) with
    | some o => some (6, o)
    | none => if s.rn (R.DR_RERUN b) &&& (2 ^ 64 - 1 - 0xC000FFFF) != 0 then some (6, 0) else none

/-- The stage bank copied to the active bank (R106, R134). -/
def State.copyBanks (s : State) (b : Nat) : State :=
  let s1 := benchRws.foldl (fun t o => t.setReg (BN.base b + o + 0x800) (s.reg (BN.base b + o))) s
  s1.setReg (R.DR_RERUN b + 0x800) (s.reg (R.DR_RERUN b))

/-- A pending COMMIT carried out (R106, R108): copied, or the queue halted with cause 3; a COMMIT command leaves only
when its copy is made, and a halt that waited for the command boundary then takes effect. DESIGN CHOICE (log 82): a validation
that fails while the queue is already halted leaves HALT_CAUSE as it is, and one that fails while the halt of a failed drain descriptor is
due halts the queue with cause 3 alone: the due halt, and its clearing of PEND, are dropped. -/
def commitNow (s : State) (b : Fin 24) : State :=
  let x := s.bench b
  let s0 := s.modBench b (fun y => { y with commitReg := false, commitCmd := false })
  match s.validate b with
  | some (chk, off) =>
    let s1 := (s0.ev 0x120 b (leBytes 1 chk ++ leBytes 2 off)).setRn (R.BN_COMMIT_STATUS b) (off * 65536 + chk * 16 + 1)
    if x.q.halted then s1 else s1.benchHalt b 3
  | none =>
    let s1 := (s0.copyBanks b).setFld (R.BN_COMMIT_STATUS b) 0 0 0
    let s2 := if x.commitCmd then s1.modBench b (fun y => { y with q := y.q.dropCommit }) else s1
    if x.q.haltDue = 0 then s2
    else (if x.q.haltDue = 4 then s2.modBench b Bench.clearPend else s2).benchHalt b x.q.haltDue

/-- COMMIT_COPY (R106): within 2 core cycles when no tile is filling; a fenced bench makes no copy (R436). -/
def commitCopy (s : State) (b : Fin 24) : State :=
  let x := s.bench b
  if x.out || !(x.commitReg || x.commitCmd) || x.entering?.isSome then s else commitNow s b

/-- BN_COMMIT.GO (R106). -/
def commitGo (s : State) (b : Fin 24) : State :=
  if (s.bench b).out then s else s.modBench b (fun x => { x with commitReg := true })

/-! ## TILE (R96, R97, R112, R113) -/

/-- The tile as captured from a TILE command and the active bank (R97). -/
def captureTile (s : State) (b : Nat) (x : Bench) (c : Cmd) : Tile :=
  { cmd := c, id := x.nextTile, job := x.q.job,
    clsD := s.rbit (stageAddr b 0x100 true) 0 || c.b 1 0,
    ringBase := s.rfld (stageAddr b 0x108 true) 10 0, ringSlots := s.rfld (stageAddr b 0x108 true) 27 16,
    wb := s.rfld (stageAddr b 0x410 true) 1 0, freeze := s.rfld (stageAddr b 0x100 true) 31 16,
    rerun := s.rn (R.DR_RERUN b + 0x800), count := c.f 1 47 32, spill := c.b 1 48 }

/-- Does a range lie inside an active window? -/
def State.inWin (s : State) (b lo a n : Nat) : Bool :=
  decide (s.winAddr b lo true ≤ a) && decide (a + n ≤ s.winAddr b (lo + 8) true)

/-- Reserved bits and encodings of a tile descriptor (R112, item 1 of R113). -/
def tileReserved (c : Cmd) : Bool :=
  c.f 0 63 44 != 0 || c.f 1 63 49 != 0 || c.f 1 31 28 != 0 || c.f 2 63 49 != 0 || c.f 2 47 43 != 0 || c.f 2 15 14 != 0
    || c.f 3 63 48 != 0 || c.f 4 63 48 != 0 || c.f 5 63 48 != 0 || c.f 6 63 48 != 0 || c.w 7 != 0
    || c.f 1 13 12 == 3 || decide (6 < c.f 1 11 8) || decide (3 < c.f 1 7 4) || c.f 1 3 2 == 3

/-- Can the ring tell laps apart (R99, item 10 of R113)? -/
def lapsOk (t : Tile) : Bool :=
  decide (t.ringSlots % t.span = 0) &&
    (let B := t.ringSlots / t.span
     let a := B / t.M
     let r := B % t.M
     decide ((7 * a + r) % 16 ≠ 0) && (decide (r = 0) || decide (((7 * a + 7 + r : Nat) - t.M : Int) % 16 ≠ 0)))

/-- The item of R113 that fails first. -/
def tileItem (s : State) (b : Nat) (t : Tile) : Option Nat :=
  let spillMay := (!t.clsD && t.autosplit && decide (65536 < 16 * t.count + t.npass * t.kpass * 16)) || t.spill
  if tileReserved t.cmd then some 1
  else if t.M = 0 ∨ 2048 < t.M ∨ t.kpass = 0 ∨ 32 < t.kpass ∨ t.npass = 0 then some 2
  else if t.actMx ≠ 0 ∧ (t.fmtCode ≠ 2 ∨ t.kpass % 2 = 1) then some 3
  else if t.path ≠ 0 ∧ (t.fmtCode % 2 = 1 ∨ (t.path = 2 ∧ t.npass % 2 = 1)) then some 4
  else if !t.cont && (t.count != 0 || t.spill) then some 5
  else if t.hasPart && !(decide (t.part % 64 = 0) && s.inWin b 0x110 t.part (t.M * 512 * t.recSize)) then some 6
  else if spillMay && !(decide (t.spillAddr ≠ 0) && decide (t.spillAddr % 8 = 0) && s.inWin b 0x120 t.spillAddr (t.M * 512 * 40))
    then some 7
  else if t.fin && decide (t.status % 16 ≠ 0) then some 8
  else if t.ringStart < t.ringBase ∨ t.ringBase + t.ringSlots ≤ t.ringStart then some 9
  else if !lapsOk t then some 10
  else none

/-- May a TILE be captured now (R96, R147): a slot free, and no tile filling but for the early capture of the table path? -/
def Bench.canCapture (x : Bench) (c : Cmd) : Bool :=
  decide (x.tiles.length < 2) &&
    match x.fill? with
    | none => true
    | some t => decide (c.f 1 13 12 ≠ 0) && decide (t.npass * t.M ≤ t.beat + 3)

/-- TILE (R112): a pending COMMIT copies first (R106), then the descriptor is checked and the tile captured. -/
def tile (s : State) (b : Fin 24) : State :=
  benchDispatch s b 0x10 (fun c =>
    if !(s.bench b).canCapture c then s
    else
      let s1 := if (s.bench b).commitReg then commitNow s b else s
      let x := s1.bench b
      if x.q.halted then s1
      else
        let t := captureTile s1 b x c
        match tileItem s1 b t with
        | some i => s1.benchRefuse b i c
        | none => s1.modBench b (fun y => { y with q := y.q.popJob, nextTile := y.nextTile + 1, tiles := y.tiles ++ [t] }))

/-! ## The array -/

/-- Partials for the filling tile's next beat, if they have arrived. -/
def Bench.partFor (x : Bench) (t : Tile) : Option RowAcc :=
  match x.parts.find? (fun r => r.tile == t.id && r.pass == t.pass && r.row == t.row) with
  | some r => some r.accs
  | none => none

/-- The partial row that the next beat needs has not arrived (R92). -/
def Bench.partWait (x : Bench) : Bool :=
  match x.fill? with
  | none => false
  | some t => !x.faulty t && !t.early && !t.spillDue && t.readsPart t.pass && (x.partFor t).isNone

/-- Is the partial row that the next beat needs written by this row of the array (R92)? -/
def Bench.awaits (x : Bench) (r : ArrRow) : Bool :=
  match x.fill? with
  | none => false
  | some t => x.partWait && r.tile == t.id && r.row == t.row

/-- An entry hold (R92): the awaited partial row is written by a row of the same tile that is still in the array, or that has left it during
the hold. -/
def Bench.entryHold (x : Bench) : Bool :=
  x.partWait && (x.fill?.any (·.hold) || x.inArray.any x.awaits)

/-- A row leaves the array; an entry hold for its partials lasts until they have arrived (R92). -/
def Bench.rowGone (x : Bench) (r : ArrRow) (rest : List ArrRow) : Bench :=
  let y := { x with inArray := rest }
  match x.fill? with
  | none => y
  | some t => if x.awaits r then y.setTile { t with hold := true } else y

/-- A finished row cannot enter the shadow set of 64 rows (R92, R96). -/
def Bench.shadowFull (x : Bench) : Bool := x.finWait && decide (64 ≤ x.shadow.length)

/-- Is the whole array frozen (R92)? An entry hold is no freeze. -/
def Bench.frozen (x : Bench) : Bool := (x.partWait && !x.entryHold) || x.shadowFull

/-- A fault begins (R101 step 1). -/
def State.beginFault (s : State) (b : Fin 24) (f : TileFault) : State := s.modBench b (·.beginFault f)

/-- The beat of the filling tile, its accumulators before the beat given: sums formed, conditions charged (R79, R81), the row
put in the array. The sticky BOUND of a Class D tile sets as its counter reaches 0xFFFF (R64, R78). -/
def enterBeat (s : State) (b : Fin 24) (x : Bench) (t : Tile) (acc : RowAcc) : State :=
  let pn := t.planeOf t.pass
  let t1 := if t.row = 0 then
      { t.beginPass with conds := t.conds ||| (x.plane pn).conds } else t
  let x1 := if t.row = 0 then x.setPlane pn { x.plane pn with conds := 0 } else x
  let kp := 16 * t.kpass
  let dense := decide (t.path = 0)
  let sl := t.slot t.pass t.row 0
  let codes := if dense then slotCodes s b sl t.fmtCode t.actMx kp else ([], Cond.none)
  let asum := match x.tables.find? (fun r => r.tile == t.id && r.beat == t.beat) with
    | some r => r.asum
    | none => 0
  let col := if dense then denseCol s b pn (x.plane pn).pfmt t.fmt codes.1 else tableCol s b pn kp t.beat asum
  let row : ArrRow := ⟨t.id, t.pass, t.row, beatRow t acc col⟩
  let x2 := if dense then x1.readSlots t t.pass t.row else x1
  let t2 := { t1 with conds := t1.conds ||| codes.2.toNat }
  let x3 := { x2.setTile t2.advance with
    inArray := x2.inArray ++ [row],
    parts := x2.parts.filter (fun r => !(r.tile == t.id && r.pass == t.pass && r.row == t.row)),
    tables := x2.tables.filter (fun r => !(r.tile == t.id && r.beat == t.beat)) }
  let bnd := decide (t.row = 0) && t.clsD && t1.bound && !t.bound
  (s.setBench b x3).charge b t.tag (codes.2.toNat + 16 * b2n bnd)

/-- BEAT_ENTRY (R87, R99, R100): the sentinel checks the beat; a beat whose partial row has not arrived, whose pass must wait for a spill,
or that a freeze holds does not enter (R92, R61). On the table path beat j enters once the tables of beats up to j + 3 are built, which
the builder writes with the beats before it (R146, R147). -/
def beatEntry (s : State) (b : Fin 24) : State :=
  let x := s.bench b
  if x.out then s
  else
    match x.fill? with
    | none => s
    | some t =>
      let reads := t.readsPart t.pass
      let part := x.partFor t
      let haveTab := x.tables.any (fun r => r.tile == t.id && r.beat == t.beat) && decide (min (t.beat + 4) (t.npass * t.M) ≤ t.built)
      if x.faulty t || x.frozen || t.spillDue || (reads && part.isNone) || (decide (t.path ≠ 0) && !haveTab) then s
      else
        let pf := if t.row = 0 then planeFault s b x t else none
        let tf := match x.tables.find? (fun r => r.tile == t.id && r.beat == t.beat) with
          | some r => if r.tag = t.expTag t.pass t.row then none
              else some ⟨0, 2, t.id, t.pass, t.row, t.expTag t.pass t.row, r.tag, 1⟩
          | none => none
        let af := if t.path = 0 then slotFault x t t.pass t.row else none
        match pf <|> tf <|> af with
        | some f => s.beginFault b f
        | none => enterBeat s b x t (if reads then part.getD (freshRow t) else freshRow t)

/-- PARTIAL_READ_RETURN (R91, R92): the next partial row of the filling tile, once the row that writes it has left the array
and no spill stands before its pass. -/
def partialReturn (s : State) (b : Fin 24) : State :=
  let x := s.bench b
  if x.out then s
  else
    match x.fill? with
    | none => s
    | some t =>
      let i := t.beat + (x.parts.filter (fun r => r.tile == t.id)).length
      let p := i / t.M
      let r := i % t.M
      let due := if p = t.pass then t.spillDue
        else !t.clsD && t.autosplit && decide (65536 < 16 * (if t.row = 0 then t.addCount else t.count) + 16 * t.kpass)
      if x.faulty t || decide (t.npass ≤ p) || !t.readsPart p || due
          || (decide (0 < p) && (decide (t.beat + t.M ≤ i) || x.inArray.any (fun a => a.tile == t.id && a.row == r)))
      then s
      else s.setBench b { x with parts := x.parts ++ [⟨t.id, p, r, readRow s t r⟩] }

/-- A tile whose last partial write has been accepted frees its slot (R96, R115). -/
def State.tileDone (s : State) (b : Fin 24) (t : Tile) : State :=
  (s.modBench b (·.dropTile t.id)).addReg (R.BN_TILES_DONE b) 1

/-- ROW_FINAL (R87, R91): the oldest row of the array leaves, for the partial region or for the shadow set of 64 rows; a full shadow set
freezes the array, and no row moves while a partial row is awaited outside an entry hold (R92). -/
def rowFinal (s : State) (b : Fin 24) : State :=
  let x := s.bench b
  if x.out || (x.partWait && !x.entryHold) then s
  else
    match x.inArray with
    | [] => s
    | r :: rest =>
      match x.tile? r.tile with
      | none => s.setBench b { x with inArray := rest }
      | some t =>
        if t.writesPart r.pass then
          let s1 := (s.setBench b (x.rowGone r rest)).wr (t.partAt r.row 0) r.accs.toBytes
          if !t.fin && decide (r.pass + 1 = t.npass) && decide (r.row + 1 = t.M) then s1.tileDone b t else s1
        else if 64 ≤ x.shadow.length then s.setBench b { x with finWait := true }
        else s.setBench b { x.rowGone r rest with finWait := false, shadow := x.shadow ++ [⟨t.id, r.row, r.accs⟩] }

/-- AUTOSPLIT_SPILL (R61, R94): every accumulator of the tile enters its spill record, between passes. DESIGN CHOICE (log 101): a spill before
the first pass of a CONTINUE tile takes what memory holds, though rows of the tile before it that write its partials may still stand in the
array. -/
def autosplitSpill (s : State) (b : Fin 24) : State :=
  let x := s.bench b
  if x.out then s
  else
    match x.fill? with
    | none => s
    | some t =>
      if x.faulty t || !t.spillDue || x.inArray.any (fun a => a.tile == t.id) then s
      else ((List.range t.M).foldl (fun u m => spillRow u t m) s).modBench b
        (fun y => y.setTile { t with count := 0, spill := true })

/-- TABLE_BUILD (R141, R142, R146, R148): the builder reads the slots of the next beat, checks their tags and writes the
beat's tables, at most four beats ahead of the array; a freeze holds it. -/
def tableBuild (s : State) (b : Fin 24) : State :=
  let x := s.bench b
  if x.out || x.frozen then s
  else
    match x.tiles.find? (fun t => t.filling && decide (t.path ≠ 0) && decide (t.built < t.npass * t.M)) with
    | none => s
    | some t =>
      if x.faulty t || decide (t.beat + 4 ≤ t.built) then s
      else
        let p := t.built / t.M
        let r := t.built % t.M
        match slotFault x t p r with
        | some f => s.beginFault b f
        | none =>
          let kp := 16 * t.kpass
          let parts := (List.range t.span).map (fun i =>
            slotCodes s b (t.slot p r i) t.fmtCode t.actMx (min 512 (4 * kp - 512 * i)))
          let vals := parts.flatMap (fun q => q.1.map (fun c => logDecode c.1 t.fmt c.2))
          let conds := parts.foldl (fun k q => k.or q.2) Cond.none
          let tb := storeBase b + 0x300000 + t.built % 8 * 0x8000
          let ents := (List.range kp).flatMap (fun k => quadTable ((vals.drop (4 * k)).take 4))
          let row : TabRow := ⟨t.id, t.built, t.expTag p r, entRound (sumVals vals)⟩
          let x1 := (x.readSlots t p r).setTile { t with built := t.built + 1, conds := t.conds ||| conds.toNat }
          ((s.setBench b { x1 with tables := x1.tables ++ [row] }).wr tb (ents.flatMap (leBytes 4))).charge b t.tag conds.toNat

/-- The tile, pass and row that a freeze or entry hold without a beat entering is laid to: the next beat of the filling tile, or else the
finished row that cannot leave (DESIGN CHOICE, log 82). -/
def Bench.freezeAt (x : Bench) : Option (Tile × Nat × Nat) :=
  match x.fill? with
  | some t => some (t, t.pass, t.row)
  | none => x.inArray.head?.bind (fun r => (x.tile? r.tile).map (fun t => (t, r.pass, r.row)))

/-- PART_TIMEOUT (R103): a freeze or entry hold outlasts FREEZE_LIMIT; 0 disables the limit. DESIGN CHOICE (log 82): it has no tag to report, so
the expected and the received tag of BN_FAULT_POS and of the event are 0. -/
def partTimeout (s : State) (b : Fin 24) : State :=
  let x := s.bench b
  if x.out || !(x.partWait || x.shadowFull) then s
  else
    match x.freezeAt with
    | none => s
    | some (t, p, r) => if x.faulty t || decide (t.freeze = 0) then s else s.beginFault b ⟨3, 3, t.id, p, r, 0, 0, 2⟩

/-- The commands of a faulting tile and of a tile captured behind it go back to the queue, the faulting TILE at the head;
a tile that has rows in the shadow set stays to drain them (R101). -/
def Bench.giveBack (x : Bench) (id : Nat) : Bench :=
  let back := x.tiles.filter (fun t => decide (id ≤ t.id))
  let keep := fun (t : Tile) => decide (t.id < id) || x.shadow.any (fun r => r.tile == t.id)
  { x with q := back.foldr (fun t q => q.putBack t.cmd t.job) x.q,
           tiles := (x.tiles.filter keep).map (fun t => if id ≤ t.id then { t with dead := true } else t),
           parts := x.parts.filter (fun r => decide (r.tile < id)),
           tables := x.tables.filter (fun r => decide (r.tile < id)) }

/-- TILE_FAULT_POISON_DONE (R101, R103): the records are poisoned, and BN_FAULT, BN_FAULT_POS, the halt and the event become
visible together. -/
def poisonDone (s : State) (b : Fin 24) : State :=
  let x := s.bench b
  match x.fault with
  | none => s
  | some f =>
    if x.out then s
    else
      match x.tile? f.tile with
      | none => s.setBench b { x with fault := none }
      | some t =>
        let s1 := (poisonTile s t).setBench b { (x.giveBack t.id).clearPend with fault := none }
        let s2 := (s1.setRn (R.BN_FAULT b) (2 ^ 31 + f.kind * 2 ^ 26 + f.stream * 2 ^ 24 + t.tag)).setRn (R.BN_FAULT_POS b)
          (f.pass * 2 ^ 48 + f.row * 2 ^ 32 + f.expected * 16 + f.received)
        (s2.ev (if f.kind = 3 then 0x113 else 0x110) b
          (leBytes 3 t.tag ++ leBytes 1 f.kind ++ leBytes 1 f.stream ++ leBytes 2 f.pass ++ leBytes 2 f.row
            ++ leBytes 1 f.expected ++ leBytes 1 f.received)).benchHalt b f.cause

/-! ## Bench registers that act (R80, R104, R114) -/

/-- BN_CTRL.RESUME (R104). -/
def bnResume (s : State) (b : Fin 24) : State :=
  let x := s.bench b
  if x.out || !x.q.halted then s
  else (s.setBench b { x with q := { x.q with cause := 0 } }).setFld (R.BN_FAULT b) 31 31 0

/-- BN_CTRL.SKIP (R104): ignored unless halted. -/
def bnSkip (s : State) (b : Fin 24) : State :=
  let x := s.bench b
  if x.out || !x.q.halted || x.q.cmds.isEmpty then s else s.benchPop b

/-- BN_CTRL.HALT_REQ (R114): at the next command boundary, which a COMMIT command in wait puts off. -/
def bnHaltReq (s : State) (b : Fin 24) : State :=
  let x := s.bench b
  if x.out || x.q.halted then s
  else if x.commitCmd || x.fault.isSome then s.setBench b { x with q := x.q.haltSoon 6 }
  else s.benchHalt b 6

/-- BN_CTRL.CNT_CLR (R114). -/
def bnCntClr (s : State) (b : Fin 24) : State :=
  if (s.bench b).out then s
  else ((List.range 10).foldl (fun t i => t.setRn (R.BN_STALL b i) 0) s).setRn (R.BN_TILES_DONE b) 0

/-- A W1C write to BN_FLAGS (R80). -/
def bnFlagsClear (s : State) (b : Fin 24) (mask : Nat) : State :=
  if (s.bench b).out then s else s.setRn (R.BN_FLAGS b) (s.rn (R.BN_FLAGS b) &&& (31 - mask % 32))

/-- A read of BN_FLAGS_RC (R80): the flags leave as the read's value and clear; while the bench's domain is off it reads 0 (R426). -/
def bnFlagsRcRead (s : State) (b : Fin 24) : State :=
  if s.benchDark b then s.emit (.readVal (R.BN_FLAGS_RC b) 0)
  else (s.emit (.readVal (R.BN_FLAGS_RC b) (s.rn (R.BN_FLAGS b)))).setRn (R.BN_FLAGS b) 0

/-- DEFERRED_SIGNAL_ADD of the bench queue (R111). -/
def benchSigAdd (s : State) (b : Fin 24) : State :=
  let x := s.bench b
  match x.q.takeSig x.tileLive with
  | none => s
  | some (c, q) => (s.setBench b { x with q := q }).addSync c 1

end Sys2Proof.Machine
end

