-- ==== Sys2Proof/Machine/Store.lean ====
section
/-! DEFINITION. Writes as they arrive at their target: a local-store window (R85, R95, R137, R142), an add window of a stack,
plain memory, or nothing (R237, R239). -/
namespace Sys2Proof.Machine

/-- The oldest row in the array whose pass uses a plane as its active plane, with its tile. -/
def Bench.rowUser (x : Bench) (n : Nat) : Option (Tile × Nat × Nat) :=
  x.inArray.findSome? (fun r => (x.tile? r.tile).bind (fun t => if t.planeOf r.pass = n then some (t, r.pass, r.row) else none))

/-- The tile, pass and row that use a plane as the active plane: the filling tile's beat, or else the oldest row in the array. -/
def Bench.userOf (x : Bench) (n : Nat) : Option (Tile × Nat × Nat) :=
  match x.fill? with
  | some t => if decide (0 < t.row) && decide (t.planeOf t.pass = n) then some (t, t.pass, t.row) else x.rowUser n
  | none => x.rowUser n

/-- A write reaches the active plane during a pass (R95): dropped, with SKEW_FAULT kind 2. DESIGN CHOICE (log 82): its STREAM is 1, and
RECEIVED is the plane's tag. -/
def State.activeWrite (s : State) (b : Fin 24) (n : Nat) : State :=
  let x := s.bench b
  match x.userOf n with
  | none => s
  | some (t, p, r) =>
    if x.faulty t then s else s.beginFault b ⟨2, 1, t.id, p, r, t.expTag p 0, (x.plane n).tag, 1⟩

/-- The plane, if any, that an offset of the local-store window belongs to (R85, R95). -/
def planeOfOff (o : Nat) : Option Nat :=
  if o < 0x80000 then some 0 else if o < 0x100000 then some 1
  else if 0x340000 ≤ o ∧ o < 0x342000 then some 0 else if 0x342000 ≤ o ∧ o < 0x344000 then some 1 else none

/-- LOCAL_STORE_WRITE (R95, R137, R142, R426): a write by any path other than a plane load or the builder. A write to a plane
clears VALID; the table store and the reserved range ignore writes; a fenced bench drops them. -/
def storeWrite (s : State) (b : Fin 24) (off : Nat) (bs : Bytes) : State :=
  let x := s.bench b
  if x.out then s
  else
    match planeOfOff off with
    | some n =>
      if x.planeActive n then s.activeWrite b n
      else (s.setBench b (x.setPlane n { x.plane n with valid := false })).wr (storeBase b + off) bs
    | none => if 0x100000 ≤ off ∧ off < 0x300000 then s.wr (storeBase b + off) bs else s

/-- One piece of a write that lies in one 64-byte line. -/
def wrPiece (s : State) (a : Nat) (bs : Bytes) : State :=
  if isStore a then storeWrite s (Fin.ofNat 24 ((a - storeBase 0) / 0x1000000)) ((a - storeBase 0) % 0x1000000) bs
  else
    addPiece s a bs

/-- A write cut into lines; `k` bounds their number. -/
def wrLines (s : State) (a : Nat) (bs : Bytes) : Nat → State
  | 0 => s
  | k + 1 =>
    let n := 64 - a % 64
    if bs.length ≤ n then (if bs.isEmpty then s else wrPiece s a bs)
    else wrLines (wrPiece s a (bs.take n)) (a + n) (bs.drop n) k

/-- A write by an engine, the host or a peer to the device space outside registers (R208, R237, R239): register space cannot be
reached by these, and unmapped addresses drop it. -/
def State.write (s : State) (a : Nat) (bs : Bytes) : State := wrLines s a bs (bs.length / 64 + 2)

/-- Writes a little-endian number as an engine does. -/
def State.writeLe (s : State) (a n v : Nat) : State := s.write a (leBytes n v)

/-- What a read of an agent returns: the bytes, or none for a poisoned response (R237, R250). The reserved part of a local-store
window reads 0 (R85), and a fenced bench's window returns poison (R426). -/
def State.read (s : State) (a n : Nat) : Option Bytes :=
  if isStore a && (s.bench (Fin.ofNat 24 ((a - storeBase 0) / 0x1000000))).out then none
  else if s.badRead a n then none else some (s.bytes a n)

/-- UE_ATM_CFG(w).ZERO (R211): every element reads 0 from now on, and CLEARING is 1 until the clear completes. -/
def atmZero (s : State) (k w : Nat) : State :=
  let lo := s.rfld (R.UE_ATM_BASE k w) 47 6 * 64
  let hi := s.rfld (R.UE_ATM_LIMIT k w) 47 6 * 64
  ({ s with mem := SMap.keep (fun a => decide (a < lo) || decide (hi ≤ a)) s.mem,
            poison := s.poison.filter (fun l => decide (64 * l < lo) || decide (hi ≤ 64 * l)) } : State).setFld
    (R.UE_ATM_CFG k w) 28 28 1

/-- ATM_CLEAR_DONE (R211). -/
def atmClearDone (s : State) (k w : Nat) : State := s.setFld (R.UE_ATM_CFG k w) 28 28 0

end Sys2Proof.Machine
end

