-- ==== Sys2Proof/Machine/Mason.lean ====
section
/-! DEFINITION. The mason unit (R150 to R159): its queue, MM and RED with the arithmetic of mm_elem, and its registers that
act. -/
namespace Sys2Proof.Machine

/-! ## Queue -/

/-- The mason queue halts with a cause (R157), raising source 81 (R368); a refused command is recorded in MU_FAULT. DESIGN CHOICE (log 102): a
parity failure is recorded there too, with VALID, ITEM 0 and the TAG that the failed command carries. -/
def State.masonHalt (s : State) (b : Fin 24) (cause item tag : Nat) : State :=
  ((s.modBench b (fun x => { x with mu := x.mu.halt cause })).setRn (R.MU_FAULT b) (2 ^ 31 + item * 2 ^ 28 + tag)).raise 81

/-- A mason command refused (R151, R156). -/
def State.masonRefuse (s : State) (b : Fin 24) (item : Nat) (c : Cmd) : State :=
  (s.ev 0x301 b (leBytes 3 c.tag ++ leBytes 1 item)).masonHalt b 1 item c.tag

/-- The head of the mason queue under a row of opcode `op` (R151). DESIGN CHOICE (log 102): an unlisted opcode is refused with ITEM 0, which R156
does not number. -/
def masonDispatch (s : State) (b : Fin 24) (op : Nat) (f : Cmd → State) : State :=
  let x := s.bench b
  if x.out then s
  else dispatch s x.mu [0, 0x20, 0x21, 0x40, 0x41] op
    ((s.ev 0x302 b []).masonHalt b 2 0 ((x.mu.cmds.head?.map Cmd.tag).getD 0)) (s.masonRefuse b 0) f

/-- The head command leaves the mason queue. -/
def State.masonPop (s : State) (b : Fin 24) : State := s.modBench b (fun x => { x with mu := x.mu.pop })

/-- Has a mason command numbered below a bound not written all its results? -/
def Bench.masonLive (x : Bench) (n : Nat) : Bool := x.muRun.any (fun r => decide (r.id < n))

/-- NOP (R151). -/
def muNop (s : State) (b : Fin 24) : State := masonDispatch s b 0 (fun _ => s.masonPop b)

/-- SYNC_WAIT (R151). -/
def muSyncWait (s : State) (b : Fin 24) : State :=
  masonDispatch s b 0x20 (fun c => if c.w 2 ≤ s.syncVal (c.f 1 7 0) then s.masonPop b else s)

/-- SYNC_SIGNAL (R151). -/
def muSyncSignal (s : State) (b : Fin 24) : State :=
  masonDispatch s b 0x21 (fun c =>
    let x := s.bench b
    if c.b 1 8 && x.masonLive x.mu.nextJob then s.modBench b (fun y => { y with mu := y.mu.pop.defer (c.f 1 7 0) })
    else (s.masonPop b).addSync (c.f 1 7 0) 1)

/-- DEFERRED_SIGNAL_ADD of the mason queue. -/
def muSigAdd (s : State) (b : Fin 24) : State :=
  let x := s.bench b
  match x.mu.takeSig x.masonLive with
  | none => s
  | some (c, q) => (s.setBench b { x with mu := q }).addSync c 1

/-! ## Operand checks (R152, R155, R156) -/

/-- Reserved bits of word 0 of an engine command (R110). -/
def word0Reserved (c : Cmd) : Bool := c.f 0 63 40 != 0

/-- Bytes of an element of format code f: 0 FP32, 1 BF16. -/
def fpSize (f : Nat) : Nat := if f = 1 then 2 else 4

/-- Do all rows of `len` bytes lie in the stockyard? -/
def rowsInYard (base rows stride len : Nat) : Bool := inYard base ((rows - 1) * stride + len) || decide (rows = 0)

/-- The fields of a row operand: base address and row stride (words 3 to 5 of R152). -/
def Cmd.addr (c : Cmd) (i : Nat) : Nat := c.f i 47 0
def Cmd.stride (c : Cmd) (i : Nat) : Nat := 64 * c.f i 63 48

/-- The item of R156 that an MM fails first. -/
def mmItem (c : Cmd) : Option Nat :=
  let m := c.f 1 15 0
  let n := c.f 1 31 16
  let k := c.f 1 47 32
  let la := k * fpSize (c.f 2 47 46)
  let lb := n * fpSize (c.f 2 45 44)
  let lc := n * fpSize (c.f 2 43 42)
  if word0Reserved c || c.f 1 63 48 != 0 || c.f 2 63 48 != 0 || c.f 2 36 0 != 0 || c.w 6 != 0 || c.w 7 != 0
      || decide (1 < c.f 2 47 46) || decide (1 < c.f 2 45 44) || decide (1 < c.f 2 43 42) then some 1
  else if m = 0 ∨ m % 32 ≠ 0 ∨ n = 0 ∨ n % 32 ≠ 0 ∨ k = 0 then some 2
  else if c.addr 3 % 64 ≠ 0 ∨ c.addr 4 % 64 ≠ 0 ∨ c.addr 5 % 64 ≠ 0
      ∨ !(rowsInYard (c.addr 3) m (c.stride 3) la && rowsInYard (c.addr 4) k (c.stride 4) lb
          && rowsInYard (c.addr 5) m (c.stride 5) lc) then some 3
  else if c.stride 3 < la ∨ c.stride 4 < lb ∨ c.stride 5 < lc then some 4
  else none

/-- The item of R156 that a RED fails first. -/
def redItem (c : Cmd) : Option Nat :=
  let m := c.f 1 15 0
  let n := c.f 1 31 16
  let lx := n * fpSize (c.f 2 47 46)
  if word0Reserved c || c.f 1 63 32 != 0 || c.f 2 63 48 != 0 || c.f 2 43 40 != 0 || c.f 2 37 0 != 0 || c.w 4 != 0
      || c.f 5 63 48 != 0 || c.w 6 != 0 || c.w 7 != 0 || decide (1 < c.f 2 47 46) then some 1
  else if m = 0 ∨ n = 0 then some 2
  else if c.addr 3 % 64 ≠ 0 ∨ c.addr 5 % 64 ≠ 0
      ∨ !(rowsInYard (c.addr 3) m (c.stride 3) lx && inYard (c.addr 5) (4 * m)) then some 3
  else if c.stride 3 < lx then some 4
  else none

/-- A checked command starts; its passes are taken now (R157, R159). -/
def State.masonStart (s : State) (b : Fin 24) (c : Cmd) (passes : Nat) : State :=
  s.modBench b (fun x => { x with mu := x.mu.popJob, muRun := some ⟨c, x.mu.job, passes⟩ })

/-- MM (R152, R153, R156): checked, and started when no other command runs. -/
def mm (s : State) (b : Fin 24) : State :=
  masonDispatch s b 0x40 (fun c =>
    if (s.bench b).muRun.isSome then s
    else
      match mmItem c with
      | some i => s.masonRefuse b i c
      | none =>
        let p := if c.f 2 41 40 = 0 then s.rfld (R.MU_PASSES b) 1 0 else c.f 2 41 40
        s.masonStart b c (if c.b 2 39 then 1 else p))

/-- RED (R155, R156). -/
def red (s : State) (b : Fin 24) : State :=
  masonDispatch s b 0x41 (fun c =>
    if (s.bench b).muRun.isSome then s
    else
      match redItem c with
      | some i => s.masonRefuse b i c
      | none => s.masonStart b c 1)

/-! ## Arithmetic (R153 to R155) -/

/-- An element read under R34; an element of a poisoned line is NaN (R250). -/
def readEl (s : State) (f a : Nat) : Val × Cond :=
  match s.read a (fpSize f) with
  | some bs => fpOperand (fromLe bs) (if f = 1 then BF16 else FP32)
  | none => (.nan, Cond.none)

/-- An operand of a product: in FL19 operation it is converted by R36 (R154). -/
def mmOperand (fl19 trunc : Bool) (v : Val × Cond) : Val × Cond :=
  if fl19 then
    let r := toFl19 trunc v.1
    ((fpRead r.1 FL19).1, v.2.or r.2)
  else v

/-- `round_fmt` to BF16 as a value, without conditions. -/
def toBf16 (v : Val) : Val :=
  match v with
  | .fin sg m => BF16.valOf (roundFmt sg m BF16).1
  | v => v

/-- hi(x) of R153. -/
def partHi (v : Val) : Val := toBf16 v
/-- lo(x) of R153. -/
def partLo (v : Val) : Val := toBf16 (vadd v (vneg (toBf16 v)))

/-- The pass order of R153: for each pass, whether the lo part of A and of B is taken. -/
def passOrder : Nat → List (Bool × Bool)
  | 1 => [(false, false)]
  | 2 => [(true, false), (false, false)]
  | _ => [(true, false), (false, true), (false, false)]

/-- One addition of an accumulator, rounded once to FP32 (R153). -/
def accRound (acc : Val × Cond) (t : Val) : Val × Cond :=
  match vadd acc.1 t with
  | .fin sg m => let r := roundFmt sg m FP32; (FP32.valOf r.1, acc.2.or r.2)
  | _ => (.nan, acc.2)

/-- `mm_elem` of R153 from the operands of one row and one column: the FP32 accumulator before the last rounding, with the
conditions. -/
def mmElem (fl19 : Bool) (passes : Nat) (start : Val × Cond) (as bs : List Val) : Val × Cond :=
  let pairs := List.zip as bs
  if fl19 then pairs.foldl (fun acc p => accRound acc (vmul p.1 p.2)) start
  else (passOrder passes).foldl (fun acc o =>
    pairs.foldl (fun acc p =>
      accRound acc (vmul (if o.1 then partLo p.1 else partHi p.1) (if o.2 then partLo p.2 else partHi p.2))) acc) start

/-- A result rounded to its format code (R153). -/
def mmOut (f : Nat) (v : Val × Cond) : Nat × Cond :=
  let r := fpEncode v.1 (if f = 1 then BF16 else FP32)
  (r.1, v.2.or r.2)

/-- The results of an MM, row by row, with every condition raised. -/
def mmRows (s : State) (c : Cmd) (passes : Nat) : List (List Nat) × Cond :=
  let m := c.f 1 15 0
  let n := c.f 1 31 16
  let k := c.f 1 47 32
  let af := c.f 2 47 46
  let bf := c.f 2 45 44
  let cf := c.f 2 43 42
  let op := mmOperand (c.b 2 39) (c.b 2 38)
  let cols := (List.range n).map (fun j => (List.range k).map (fun i => op (readEl s bf (c.addr 4 + i * c.stride 4 + j * fpSize bf))))
  let cb := cols.foldl (fun q col => col.foldl (fun q v => q.or v.2) q) Cond.none
  let colv := cols.map (fun col => col.map (·.1))
  (List.range m).foldl (fun acc i =>
    let row := (List.range k).map (fun j => op (readEl s af (c.addr 3 + i * c.stride 3 + j * fpSize af)))
    let rc := row.foldl (fun q v => q.or v.2) acc.2
    let rv := row.map (·.1)
    let els := colv.zipIdx.map (fun q =>
      let start := if c.b 2 37 then readEl s cf (c.addr 5 + i * c.stride 5 + q.2 * fpSize cf) else (.fin false 0, Cond.none)
      mmOut cf (mmElem (c.b 2 39) passes start rv q.1))
    (acc.1 ++ [els.map (·.1)], els.foldl (fun q e => q.or e.2) rc)) ([], cb)

/-- One row of a RED (R155): the FP32 result with the conditions. -/
def redRow (op : Nat) (vs : List (Val × Cond)) : Nat × Cond :=
  let c0 := vs.foldl (fun q v => q.or v.2) Cond.none
  let xs := vs.map (·.1)
  let r := match op with
    | 0 => xs.foldl accRound (.fin false 0, c0)
    | 1 => xs.foldl (fun acc x => accRound acc (vmul x x)) (.fin false 0, c0)
    | 2 => ((xs.drop 1).foldl vmaxPrim (xs.headD .nan), c0)
    | _ => ((xs.drop 1).foldl vminPrim (xs.headD .nan), c0)
  mmOut 0 r

/-- The results of a RED. -/
def redRows (s : State) (c : Cmd) : List Nat × Cond :=
  let m := c.f 1 15 0
  let n := c.f 1 31 16
  let xf := c.f 2 47 46
  let rows := (List.range m).map (fun i =>
    redRow (c.f 2 45 44) ((List.range n).map (fun j =>
      mmOperand (c.b 2 39) (c.b 2 38) (readEl s xf (c.addr 3 + i * c.stride 3 + j * fpSize xf)))))
  (rows.map (·.1), rows.foldl (fun q r => q.or r.2) Cond.none)

/-- The core cycles of array time of a command (R153, R155). -/
def masonCycles (c : Cmd) (passes : Nat) : Nat :=
  if c.op = 0x40 then c.f 1 15 0 / 32 * (c.f 1 31 16 / 32) * c.f 1 47 32 * passes
  else cdiv (c.f 1 15 0) 32 * c.f 1 31 16

/-- MASON_COMMAND_DONE (R153, R155): the results are written, the conditions charged to the bench (R79), and the work's cycles
counted in MU_BUSY. -/
def masonDone (s : State) (b : Fin 24) : State :=
  let x := s.bench b
  if x.out then s
  else
    match x.muRun with
    | none => s
    | some r =>
      let c := r.cmd
      let s0 := s.setBench b { x with muRun := none }
      let (s1, k) :=
        if c.op = 0x40 then
          let q := mmRows s c r.passes
          (q.1.zipIdx.foldl (fun t p => t.wr (c.addr 5 + p.2 * c.stride 5) (p.1.flatMap (leBytes (fpSize (c.f 2 43 42))))) s0, q.2)
        else
          let q := redRows s c
          (s0.wr (c.addr 5) (q.1.flatMap (leBytes 4)), q.2)
      (s1.addReg (R.MU_BUSY b) (masonCycles c r.passes)).charge b c.tag k.toNat

/-! ## Registers that act (R157) -/

/-- MU_CTRL.RESUME. -/
def muResume (s : State) (b : Fin 24) : State :=
  let x := s.bench b
  if x.out || !x.mu.halted then s
  else (s.setBench b { x with mu := { x.mu with cause := 0 } }).setFld (R.MU_FAULT b) 31 31 0

/-- MU_CTRL.SKIP. -/
def muSkip (s : State) (b : Fin 24) : State :=
  let x := s.bench b
  if x.out || !x.mu.halted || x.mu.cmds.isEmpty then s else s.masonPop b

/-- MU_CTRL.CNT_CLR. -/
def muCntClr (s : State) (b : Fin 24) : State := if (s.bench b).out then s else s.setRn (R.MU_BUSY b) 0

/-- A write to MU_PASSES: a COUNT of 0 is ignored. -/
def muPassesWrite (s : State) (b : Fin 24) (v : Nat) : State :=
  if (s.bench b).out || decide (v % 4 = 0) then s else s.setRn (R.MU_PASSES b) (v % 4)

end Sys2Proof.Machine
end

