-- ==== Sys2Proof/Machine/Loops.lean ====
section
/-! DEFINITION. What the control-core loops of translated operations compute (R74, R76, R297): where the elements of an operand lie, how they
enter and leave FP32, the functions of one unit of work, and which units are a core's share. -/
namespace Sys2Proof.Machine

/-! ## Elements of an operand (R26, R33, R38, R43, R47, R296) -/

/-- Bits of an element of an operand TYPE. -/
def typeBits (t : Nat) : Nat :=
  if t < 2 then 8
  else if t = 2 ∨ t = 3 ∨ t = 5 then 16
  else if t < 8 ∨ t = 0x12 then 32
  else if t = 0x10 ∨ t = 0x14 then 1
  else if t = 0x11 then 2
  else elemBits (t - 8)

/-- Is a TYPE a Microscaling one? -/
def typeMx (t : Nat) : Bool := decide (9 ≤ t) && decide (t ≤ 14)
/-- Is a TYPE a narrow weight one? -/
def typeNw (t : Nat) : Bool := t == 0x10 || t == 0x11
/-- Is a TYPE packed along the last dimension that the operand uses? Such a dimension is contiguous (DESIGN CHOICE, log 86). -/
def typePacked (t : Nat) : Bool := typeMx t || typeNw t || t == 0x14

/-- The elements of an operand. -/
def Opnd.total (o : Opnd) : Nat := o.dims.foldl (· * ·) 1
/-- A dimension. -/
def Opnd.dim (o : Opnd) (i : Nat) : Nat := o.dims.getD i 1
/-- The last dimension that the operand uses. -/
def Opnd.last (o : Opnd) : Nat := o.dim (o.rank - 1)

/-- The indices of the element with a number, row by row. -/
def unflat (ds : List Nat) (e : Nat) : List Nat :=
  (ds.foldr (fun d (acc : List Nat × Nat) => (acc.2 % d :: acc.1, acc.2 / d)) ([], e)).1
/-- The number of the element with indices. -/
def flat (ds ix : List Nat) : Nat := (ds.zip ix).foldl (fun n p => n * p.1 + p.2) 0

/-- The bit address of an element: D3 is contiguous (R296), as is the last dimension of a packed TYPE. -/
def Opnd.bitAt (o : Opnd) (ix : List Nat) : Nat :=
  let n := if typePacked o.typ then o.rank - 1 else 3
  let rows := (List.range (min 3 n)).foldl (fun a j => a + ix.getD j 0 * o.strides.getD j 0) 0
  8 * (o.va + rows) + ix.getD n 0 * typeBits o.typ

/-- The accesses that an element takes: its bytes, and its block's scale (R40) or its row's metadata (R43). -/
def Opnd.reads (o : Opnd) (ix : List Nat) : List (Nat × Nat) :=
  let p := o.bitAt ix
  let w := typeBits o.typ
  let own := if typePacked o.typ then (if p / 8 = (p + w - 1) / 8 then [(p / 8, 1)] else [(p / 8, 1), ((p + w - 1) / 8, 1)]) else [(p / 8, w / 8)]
  own ++ (if typeMx o.typ then [(o.side + flat o.dims ix / 32, 1)] else if typeNw o.typ then [(o.side + 4 * (flat o.dims ix / o.last), 4)] else [])

/-- The code of an element among the bytes read for it. -/
def Opnd.code (o : Opnd) (ix : List Nat) (got : List Bytes) : Nat :=
  let w := typeBits o.typ
  if typePacked o.typ then
    let p := o.bitAt ix
    let n := if p / 8 = (p + w - 1) / 8 then 1 else 2
    (fromLe (got.take n).flatten >>> (p % 8)) % 2 ^ w
  else fromLe (got.headD [])

/-- A Microscaling element as an LX16 code with its block exponent, and the conditions (R41); a scale of 0xFF makes it NaN. -/
def mxCode (typ c scale : Nat) : Nat × Int × Cond :=
  if scale = 0xFF then (LX16.nan, 0, Cond.none)
  else
    let q := mxToLx16 (typ - 8) c
    (q.1, blockX scale, q.2)

/-- An LX16 code with its block exponent applied (R76): the code of 2^X times its value, under the range checks of R29. -/
def lxShift (c : Nat) (x : Int) : Nat × Cond :=
  if LX16.special c then (c, Cond.none)
  else
    let q := LX16.q c + 512 * x
    if q > LX16.qmax then (LX16.code (LX16.sgn c) LX16.qmax, Cond.overflow)
    else if q < -LX16.qmax then (LX16.zero, Cond.underflow)
    else (LX16.code (LX16.sgn c) q, Cond.none)

/-- The log code of an element of a log or Microscaling operand, with its format (R41, R48); none for another TYPE. -/
def Opnd.logCode (o : Opnd) (ix : List Nat) (got : List Bytes) : Option (LogFmt × Nat × Cond) :=
  let c := o.code ix got
  if o.typ < 4 then some (logFmtOf o.typ, c, Cond.none)
  else if typeMx o.typ then
    let q := mxCode o.typ c (fromLe (got.getLastD []))
    let r := lxShift q.1 q.2.1
    some (LX16, r.1, q.2.2.or r.2)
  else none

/-- The value of an element with the conditions of its reading; a Microscaling one goes through LX16 (R34, R41, R44, R48). -/
def Opnd.val (o : Opnd) (ix : List Nat) (got : List Bytes) : Val × Cond :=
  let c := o.code ix got
  let beside := fromLe (got.getLastD [])
  if o.typ < 4 then (logDecode c (logFmtOf o.typ) 0, Cond.none)
  else if o.typ = 4 then fpRead c FP32
  else if o.typ = 5 then fpRead c BF16
  else if o.typ = 6 then fpRead (c % 2 ^ 19) FL19
  else if o.typ = 0x12 then (Val.ofRat (signed 32 c : Rat), Cond.none)
  else if o.typ = 0x14 then (Val.ofRat (c : Rat), Cond.none)
  else if typeNw o.typ then (nwVal beside c, Cond.none)
  else
    let q := mxCode o.typ c beside
    (logDecode q.1 LX16 q.2.1, q.2.2)

/-- The FP32 code of an element, as a loop's operations take it: FP32 as it is held, any other value rounded (R35). -/
def Opnd.fp (o : Opnd) (ix : List Nat) (got : List Bytes) : FpRes :=
  if o.typ = 4 then (o.code ix got, Cond.none) else fpOut (o.val ix got).1 (o.val ix got).2

/-- A value as a code of a TYPE (R29, R35, R36): I32 rounds to nearest even and saturates with invalid, as FCVTSI does (R284, DESIGN CHOICE,
log 86), and BIT is 1 for anything but zero. -/
def valEncode (t : Nat) (v : Val) : Nat × Cond :=
  if t < 4 then logEncode v (logFmtOf t)
  else if t = 4 then fpEncode v FP32
  else if t = 5 then fpEncode v BF16
  else if t = 6 then fpEncode v FL19
  else if t = 0x12 then
    (match v with
    | .nan => (0, Cond.invalid)
    | .inf s => (toBits 32 (if s then -(2 ^ 31) else 2 ^ 31 - 1), Cond.invalid)
    | .fin _ _ =>
      let n := rne v.toRat
      let k := clampInt n (-(2 ^ 31)) (2 ^ 31 - 1)
      (toBits 32 k, if k ≠ n then Cond.invalid else if (n : Rat) = v.toRat then Cond.none else Cond.inexact))
  else (b2n (v.isNan || decide (v.mag ≠ 0)), Cond.none)

/-! ## Functions (R73, R74, R77, R284, R297) -/

/-- A result that is free but for what every result keeps (R34, R70): it is no NaN, no infinity and no subnormal, it raises no invalid, overflow
only where it saturates, and underflow only where it is zero. -/
def freeResult (n : Nat) : FpRes :=
  let s := n.testBit 31
  let e := bits n 30 23
  let inx := n.testBit 32
  if e = 0 then (FP32.enc (.zero s), if n.testBit 33 then Cond.underflow else { inx := inx })
  else if e = 255 then (FP32.enc (FP32.maxFin s), if n.testBit 33 then Cond.overflow else { inx := inx })
  else (n % 2 ^ 32, { inx := inx })

/-- e to a rational power, cut far below every rounding that uses it. -/
def expReal (x : Rat) : Rat := exp2Approx (clampRat (x * mkRat 2318321547468254865173387471183990171487108758923299108729110 (2 ^ 200)) (-200) 200)

/-- The exact value, cut far below a unit in the last place, of a routine whose function R297 defines: exp, log, tanh, logistic, SiLU. -/
def routineReal (f : Nat) (x : Rat) : Option Rat :=
  match f with
  | 0x05 => some (expReal x)
  | 0x06 => some (log2Approx x * mkRat 1113844574712631719546256151097547306333272293549090750737802 (2 ^ 200))
  | 0x07 =>
    if -pow2 (-20) < x ∧ x < pow2 (-20) then some (x - x * x * x / 3)
    else
      let e := expReal (2 * x)
      some ((e - 1) / (e + 1))
  | 0x08 => some (1 / (1 + expReal (-x)))
  | 0x0A => some (x / (1 + expReal (-x)))
  | _ => none

/-- A value moved by at most one and a half units in the last place, as a free number says, and rounded: within two units of it (R297). -/
def withinTwo (r : Rat) (n : Nat) : FpRes :=
  if r = 0 then fpOut (Val.ofRat 0) Cond.none
  else
    let u := pow2 (max (flog2 (if r < 0 then -r else r)) (-126) - 23)
    fpOut (Val.ofRat (r + u * (3 / 2) * (mkRat (n % 2 ^ 32) (2 ^ 31) - 1))) Cond.none

/-- A routine of the translator (R297) on operands read under R34: a NaN gives the canonical NaN (R71); otherwise the result is one within two
units in the last place where R297 names the function, and a free number where it does not (log 86). The same translator version gives the same
bits. `par` are parameters that are no operands. -/
def routine (ver f : Nat) (par args : List Nat) : FpRes :=
  let xs := args.map (fun a => fpOperand a FP32)
  let c := xs.foldl (fun k x => k.or x.2) Cond.none
  if xs.any (fun x => x.1.isNan) then fpOut .nan c
  else
    let n := Config.routine ver f (par ++ xs.map (fun x => (fpEncode x.1 FP32).1))
    let r := match xs, routineReal f ((xs.head?.map (fun x => x.1.toRat)).getD 0) with
      | [x], some y => if x.1.mag = 0 ∧ (f = 0x07 ∨ f = 0x0A) then fpOut x.1 Cond.none else withinTwo y n
      | _, _ => freeResult n
    (r.1, c.or r.2)

/-- The natural logarithm (R70, R83 item 2): of a negative value NaN with invalid, of zero the largest negative finite value. -/
def fpLn (ver a : Nat) : FpRes :=
  match fpOperand a FP32 with
  | (.fin s m, c) => if m = 0 then fpSat true c else if s then fpInvalid c else routine ver 0x06 [] [a]
  | (_, c) => fpOut .nan c

/-- The functions of UNARY. -/
def unaryFn (ver f a : Nat) : FpRes :=
  match f with
  | 0x01 => fpExp2 a
  | 0x02 => fpLog2 a
  | 0x03 => fpSqrt a
  | 0x04 => fpRsqrt a
  | 0x0B => fpMaximum a 0
  | 0x0C => let v := fpOperand a FP32; fpOut (match v.1 with | .fin _ m => .fin false m | x => x) v.2
  | 0x0D => let v := fpOperand a FP32; fpOut (vneg v.1) v.2
  | 0x0E => fpDiv 0x3F800000 a
  | 0x06 => fpLn ver a
  | _ => routine ver f [] [a]

/-- The functions of BINARY, numbered in the order in which R297 names them (DEDUCED, log 86). -/
def binaryFn (f a b : Nat) : FpRes :=
  match f with
  | 0 => fpAdd a b
  | 1 => fpSub a b
  | 2 => fpMul a b
  | 3 => fpDiv a b
  | 4 => fpRem a b
  | 5 => fpMaximum a b
  | 6 => fpMinimum a b
  | 7 => fpMaximumNum a b
  | 8 => fpMinimumNum a b
  | 9 => fpEq a b
  | 10 => fpNe a b
  | 11 => fpLt a b
  | 12 => fpLe a b
  | 13 => fpGt a b
  | 14 => fpGe a b
  | _ => fpUn a b

/-- Does a BINARY function give 0 or 1, and not a number (R77)? -/
def binaryPred (f : Nat) : Bool := decide (9 ≤ f)

/-- One step of a fold of REDUCE: its operation and what it starts from, if not from the first element. -/
def foldStep (f acc x : Nat) : FpRes :=
  match f with
  | 0 => fpAdd acc x
  | 1 => fpFma x x acc
  | 2 => fpMaxPrim acc x
  | 3 => fpMinPrim acc x
  | 4 => fpMaximum acc x
  | 5 => fpMinimum acc x
  | 6 => fpMaximumNum acc x
  | _ => fpMinimumNum acc x

/-- A fold of REDUCE (R74, R155): the sums start from +0; the others from the first element, taken as the operation gives it with itself; over no
elements the four of R74 give the canonical NaN and raise nothing. -/
def foldLine (f : Nat) (xs : List Nat) : FpRes :=
  let go := fun (r : FpRes) (l : List Nat) => l.foldl (fun (acc : FpRes) x => let q := foldStep f acc.1 x; (q.1, acc.2.or q.2)) r
  if f < 2 then go (0, Cond.none) xs
  else match xs with
    | [] => (FP32.nanCode, Cond.none)
    | x :: rest => go (foldStep f x x) rest

/-- The key of a stored code in the order of R76. DESIGN CHOICE (log 86): R76 orders no integers, and an I32 code is ordered as a signed 32-bit
integer. -/
def sortKey (t c : Nat) : Int :=
  if t < 4 then logOrderKey c (logFmtOf t)
  else if t = 5 then totalKey 16 c
  else if t = 6 then totalKey 19 (c % 2 ^ 19)
  else if t = 0x12 then signed 32 c
  else totalKey 32 c

/-- A code put behind every code of the same or a lower key. -/
def sortInsert (t c : Nat) : List Nat → List Nat
  | [] => [c]
  | d :: r => if sortKey t c < sortKey t d then c :: d :: r else d :: sortInsert t c r

/-- The codes in ascending order, equal keys in input order (R76). -/
def sortCodes (t : Nat) (cs : List Nat) : List Nat := cs.foldl (fun l c => sortInsert t c l) []

/-! ## Units of work -/

/-- The axis along which a loop takes whole lines. -/
def LoopFn.line : LoopFn → Option Nat
  | .fold _ a => some a
  | .sort a => some a
  | _ => none

/-- Elements of the output that a unit writes, where it takes no line: a block of Microscaling, a byte of bits, or one. -/
def unitSize (t : Nat) : Nat := if typeMx t then 32 else if t = 0x14 then 8 else 1

/-- The operand whose elements a loop's units divide: the first input of a fold or a sort, the output of any other. -/
def unitBase (f : LoopFn) (ins : List Opnd) (out : Opnd) : Opnd := match f.line with
  | some _ => ins.headD out
  | none => out

/-- The units of a loop. -/
def unitCount (f : LoopFn) (ins : List Opnd) (out : Opnd) : Nat := match f.line with
  | some a => (((unitBase f ins out).dims.set a 1).foldl (· * ·) 1)
  | none => cdiv out.total (unitSize out.typ)

/-- The indices, in the unit's operand, of the elements of a unit. -/
def unitIx (f : LoopFn) (ins : List Opnd) (out : Opnd) (u : Nat) : List (List Nat) :=
  let o := unitBase f ins out
  match f.line with
  | some a =>
    let ix := unflat (o.dims.set a 1) u
    (List.range (o.dim a)).map (fun j => ix.set a j)
  | none =>
    let n := unitSize out.typ
    (List.range (min n (out.total - u * n))).map (fun i => unflat out.dims (u * n + i))

/-- The index in an input that goes with an index of rank r: its dimensions are the last ones, and one of size 1 is held. -/
def Opnd.along (o : Opnd) (r : Nat) (ix : List Nat) : List Nat :=
  let own := (ix.take r).drop (r - o.rank)
  (List.range 4).map (fun j => if o.dim j = 1 then 0 else own.getD j 0)

/-- What a unit reads, in order: for each element, each input's accesses. -/
def unitReads (f : LoopFn) (ins : List Opnd) (out : Opnd) (u : Nat) : List (Nat × Nat) :=
  let r := (unitBase f ins out).rank
  (unitIx f ins out u).flatMap (fun ix => ins.flatMap (fun o => o.reads (o.along r ix)))

/-- The bytes of each input of each element, split from those that the unit read. -/
def unitSplit (ins : List (Opnd × List Nat)) : List Bytes → List (List Bytes)
  | got => (ins.foldl (fun (acc : List (List Bytes) × List Bytes) p =>
      let n := (p.1.reads p.2).length
      (acc.1 ++ [acc.2.take n], acc.2.drop n)) ([], got)).1

/-- One element of a loop that takes no lines, of the FP32 codes of its inputs; `e` is its number and `strm` the claimed stream (key, WBASE). -/
def elemFn (ver : Nat) (f : LoopFn) (typ e : Nat) (strm : Option (Nat × Nat)) (xs : List Nat) : FpRes :=
  let x := xs.getD 0 0
  match f with
  | .unary g => unaryFn ver g x
  | .binary g => let r := binaryFn g x (xs.getD 1 0); if binaryPred g then ((fpOfInt r.1).1, r.2) else r
  | .exps _ => routine ver 0x20 [] xs
  | .scale _ => fpDiv x (xs.getD 1 0)
  | .norm m eps => routine ver 0x21 [m, eps] xs
  | .random p => match strm with
    | some (k, w) => routine ver 0x22 [p, typ, randVal k (w + e)] []
    | none => (0, Cond.none)
  | _ => (x, Cond.none)

/-- The stores of values at the indices of an operand: a Microscaling block with its scale (R40, R42), eight bits in a byte, or each code. -/
def unitPuts (out : Opnd) (ixs : List (List Nat)) (vs : List (Val × Cond)) : List (Nat × Bytes) × Cond :=
  let all := vs.foldl (fun k v => k.or v.2) Cond.none
  match ixs with
  | [] => ([], all)
  | ix :: _ =>
    let a := out.bitAt ix / 8
    if typeMx out.typ then
      let t := out.typ - 8
      let q := mxEncode t (vs.map (·.1)) none
      let bs := packElems t q.2.1
      ((List.range (bs.length / 4)).map (fun i => (a + 4 * i, (bs.drop (4 * i)).take 4)) ++ [(out.side + flat out.dims ix / 32, leBytes 1 q.1)], all.or q.2.2)
    else
      let cs := vs.map (fun v => valEncode out.typ v.1)
      let k := cs.foldl (fun k c => k.or c.2) all
      if out.typ = 0x14 then ([(a, leBytes 1 ((cs.map (·.1)).foldr (fun c n => c % 2 + 2 * n) 0))], k)
      else ((ixs.zip cs).map (fun p => (out.bitAt p.1 / 8, leBytes (typeBits out.typ / 8) p.2.1)), k)

/-- An FP32 result as a value to be stored. -/
def FpRes.stored (r : FpRes) : Val × Cond := ((fpRead r.1 FP32).1, r.2)

/-- What a unit computes of the bytes that it read: its stores and its conditions. A conversion into a log format from a log or Microscaling one
stays among the codes, without the antilog (R30, R48). -/
def unitDo (ver : Nat) (f : LoopFn) (ins : List Opnd) (out : Opnd) (u : Nat) (strm : Option (Nat × Nat)) (got : List Bytes) : List (Nat × Bytes) × Cond :=
  let ixs := unitIx f ins out u
  let r := (unitBase f ins out).rank
  let pairs := ixs.flatMap (fun ix => ins.map (fun o => (o, o.along r ix)))
  let parts := (pairs.zip (unitSplit pairs got))
  let vals := parts.map (fun p => p.1.1.fp p.1.2 p.2)
  let raised := vals.foldl (fun k v => k.or v.2) Cond.none
  match f with
  | .fold g _ =>
    let w := unitPuts out [unflat out.dims u] [FpRes.stored (foldLine g (vals.map (·.1)))]
    (w.1, raised.or w.2)
  | .convert =>
    let codes := parts.map (fun p => p.1.1.logCode p.1.2 p.2)
    if out.typ < 4 ∧ codes.all Option.isSome then
      let cs := (codes.filterMap id).map (fun q => let r := logToLog q.2.1 q.1 (logFmtOf out.typ); (r.1, q.2.2.or r.2))
      ((ixs.zip cs).map (fun p => (out.bitAt p.1 / 8, leBytes (typeBits out.typ / 8) p.2.1)), cs.foldl (fun k q => k.or q.2) Cond.none)
    else unitPuts out ixs (parts.map (fun p => p.1.1.val p.1.2 p.2))
  | .sort _ =>
    let cs := sortCodes out.typ (parts.map (fun p => p.1.1.code p.1.2 p.2))
    ((ixs.zip cs).map (fun p => (out.bitAt p.1 / 8, leBytes (typeBits out.typ / 8) p.2)), Cond.none)
  | .random _ =>
    if strm.isNone then ([], Cond.none)
    else unitPuts out ixs (ixs.map (fun ix => FpRes.stored (elemFn ver f out.typ (flat out.dims ix) strm [])))
  | _ =>
    let n := ins.length
    let w := unitPuts out ixs
      (ixs.zipIdx.map (fun p => FpRes.stored (elemFn ver f out.typ (flat out.dims p.1) strm (((vals.drop (n * p.2)).take n).map (·.1)))))
    (w.1, raised.or w.2)

/-- The places of a unit's stores, whatever their values. -/
def unitWrites (f : LoopFn) (ins : List Opnd) (out : Opnd) (u : Nat) : List (Nat × Nat) :=
  let ixs := match f with
    | .fold _ _ => [unflat out.dims u]
    | _ => unitIx f ins out u
  (unitPuts out ixs (ixs.map (fun _ => (Val.nan, Cond.none)))).1.map (fun p => (p.1, p.2.length))

/-- The units of the core of a rank in a gang of a size (R297: the elements are divided evenly): the first, and how many. -/
def unitShare (n rank size : Nat) : Nat × Nat := (n * rank / size, n * (rank + 1) / size - n * rank / size)

end Sys2Proof.Machine
end

