-- ==== Sys2Proof/Machine/Tensor.lean ====
section
/-! DEFINITION. Tensor operations as a module holds them (R296), and which of them fail: reserved encodings, shapes that disagree, operands that
the engines of the operation cannot take (R297, R299). -/
namespace Sys2Proof.Machine

/-! ## Reading an operation (R296) -/

/-- An operand descriptor. -/
def parseOpnd (b : Bytes) : Opnd :=
  let w0 := leAt b 0 8
  { typ := bits w0 63 56, rank := bits w0 55 52, bind := w0.testBit 51, reg := w0.testBit 50, va := bits w0 47 0,
    dims := (List.range 4).map (fun i => leAt b (8 + 4 * i) 4), strides := (List.range 3).map (fun i => leAt b (24 + 8 * i) 8),
    side := leAt b 48 8 % 2 ^ 48, region := leAt b 56 8 % 2 ^ 14 }

/-- An operation with its operands. -/
def parseOp (b : Bytes) : TOp :=
  let w0 := leAt b 0 8
  { op := bits w0 15 0, attr := bits w0 63 32, par := (List.range 7).map (fun i => leAt b (8 + 8 * i) 8),
    opnds := (List.range (bits w0 23 16)).map (fun i => parseOpnd ((b.drop (64 + 64 * i)).take 64)) }

/-- Is an operand TYPE listed? -/
def typeListed (t : Nat) : Bool := decide (t < 8) || typeMx t || typeNw t || t == 0x12 || t == 0x14

/-- Are the bits of an operand descriptor that R296 does not list 0? -/
def opndReserved (b : Bytes) : Bool := bits (leAt b 0 8) 49 48 != 0 || leAt b 48 8 / 2 ^ 48 != 0 || leAt b 56 8 / 2 ^ 14 != 0

/-- A word of PARAM, numbered from 1. -/
def TOp.word (t : TOp) (i : Nat) : Nat := t.par.getD (i - 1) 0
/-- A field of PARAM. -/
def TOp.f (t : TOp) (i hi lo : Nat) : Nat := bits (t.word i) hi lo
/-- An operand. -/
def TOp.opnd (t : TOp) (i : Nat) : Opnd := t.opnds.getD i { typ := 0, rank := 1, dims := [] }

/-- ATTR (R296). -/
def TOp.sensitive (t : TOp) : Bool := t.attr.testBit 0
def TOp.spasses (t : TOp) : Nat := bits t.attr 2 1
def TOp.wide (t : TOp) : Bool := t.attr.testBit 3
def TOp.ckptBegin (t : TOp) : Bool := t.attr.testBit 4
def TOp.ckptEnd (t : TOp) : Bool := t.attr.testBit 5
def TOp.gradw (t : TOp) : Nat := bits t.attr 7 6
def TOp.forceD (t : TOp) : Bool := t.attr.testBit 8

/-- The operation codes (R297). -/
def TOp.isMatmul (t : TOp) : Bool := t.op == 0x0001
def TOp.isDx (t : TOp) : Bool := t.op == 0x0002
def TOp.isDw (t : TOp) : Bool := t.op == 0x0003
/-- Is it one of the three products? -/
def TOp.isProduct (t : TOp) : Bool := t.isMatmul || t.isDx || t.isDw

/-- Is an operation code listed? -/
def opListed (o : Nat) : Bool :=
  [0x0001, 0x0002, 0x0003, 0x0010, 0x0011, 0x0012, 0x0013, 0x0014, 0x0020, 0x0021, 0x0022, 0x0023, 0x0030, 0x0031, 0x0040, 0x0041].contains o

/-- The flags of a product's PARAM word 1 (R297). -/
def TOp.fn (t : TOp) : Nat := t.f 1 3 0
def TOp.hasBias (t : TOp) : Bool := (t.word 1).testBit 4
def TOp.hasScale (t : TOp) : Bool := (t.word 1).testBit 5
def TOp.rowScale (t : TOp) : Bool := (t.word 1).testBit 6
def TOp.clip (t : TOp) : Bool := (t.word 1).testBit 7
def TOp.ofmt (t : TOp) : Nat := t.f 1 11 8
def TOp.mxt (t : TOp) : Nat := t.f 1 15 12
def TOp.group (t : TOp) : Nat := t.f 1 17 16
def TOp.anchor (t : TOp) : Nat := t.f 1 29 18

/-- The operand that holds pre-activations: the last of a MATMUL that has one more than its flags name, and of a MATMUL_DX that has four. -/
def TOp.pre (t : TOp) : Option Nat :=
  if t.isMatmul then (let n := 3 + b2n t.hasBias + b2n t.hasScale; if n < t.opnds.length then some n else none)
  else if t.isDx then (if 3 < t.opnds.length then some 3 else none) else none

/-! ## Shapes -/

/-- A matrix as an operand holds it: all dimensions but the last, and the last. -/
def Opnd.rows (o : Opnd) : Nat := if o.last = 0 then 0 else o.total / o.last
/-- Rows and columns of a weight matrix: Microscaling weights and NW codes hold the elements of a column together (R40, R43). -/
def Opnd.matrix (o : Opnd) : Nat × Nat := if typeMx o.typ || typeNw o.typ then (o.last, o.rows) else (o.rows, o.last)

/-- Do two operands have the same dimensions? -/
def Opnd.same (a b : Opnd) : Bool := a.rank == b.rank && a.dims == b.dims
/-- Is a type a log format? -/
def typeLog (t : Nat) : Bool := decide (t < 4)
/-- Is a type FP32 or BF16, which only the mason unit multiplies (R158)? -/
def typeFp (t : Nat) : Bool := t == 4 || t == 5
/-- Can a loop read a TYPE? Not RF32, whose exponent no descriptor names. -/
def typeLoopIn (t : Nat) : Bool := t != 7
/-- Can a loop write a TYPE? -/
def typeLoopOut (t : Nat) : Bool := t != 7 && !typeNw t

/-- The bytes from an operand's first element to its last (R294). -/
def Opnd.extent (o : Opnd) : Nat :=
  let ends := o.dims.map (fun d => d - 1)
  (o.bitAt ends + typeBits o.typ + 7) / 8 - o.va
/-- The bytes of an operand's side array. -/
def Opnd.sideExtent (o : Opnd) : Nat :=
  if typeMx o.typ then o.total / 32 else if typeNw o.typ then 4 * o.rows else 2 * o.rows

/-- Does a product run on the mason unit (R158, R297): marked sensitive, or with an operand that only it multiplies? -/
def TOp.onMason (t : TOp) : Bool := t.sensitive || (t.opnds.take 2).any (fun o => typeFp o.typ)

/-- The format of gradient tiles by width: STANDARD LX16, NARROW LG8, WIDE LG16 (R191). -/
def widthFmt (w : Nat) : Nat := if w = 1 then 1 else if w = 2 then 3 else 2
/-- The format of dX by width (R192). -/
def widthDx (w : Nat) : Nat := if w = 2 then 3 else 1

/-- The first operand that a list of conditions refuses. -/
def firstBad (l : List (Bool × Nat)) : Option Nat := (l.find? (fun p => !p.1)).map (·.2)

/-- The output TYPE that an OFMT and MXT name. -/
def ofmtType (f m : Nat) : Nat := if f = 6 then 8 + m else f

/-- What a MATMUL asks of its operands. -/
def matmulChecks (t : TOp) : List (Bool × Nat) :=
  let x := t.opnd 0
  let w := t.opnd 1
  let y := t.opnd 2
  let k := w.matrix.1
  let n := w.matrix.2
  let nb := 3 + b2n t.hasBias
  let m := nb + b2n t.hasScale
  [ (t.opnds.length == m || t.opnds.length == m + 1, 0), (decide (t.fn ≤ 4) && decide (t.ofmt ≤ 7) && t.group != 3 && t.f 1 31 30 == 0, 0),
    (if t.ofmt = 6 then decide (1 ≤ t.mxt) && decide (t.mxt ≤ 6) else t.mxt == 0, 0), ((t.par.drop 2).all (· == 0), 0),
    (typeLog x.typ || typeMx x.typ || typeFp x.typ, 0), (!x.reg, 0),
    (typeLog w.typ || typeMx w.typ || typeFp w.typ || typeNw w.typ, 1),
    (!typeNw w.typ || t.onMason || x.typ == 0 || x.typ == 2 || typeMx x.typ, 1), (!typeNw w.typ || t.onMason || !t.hasScale, nb), (x.last == k, 1),
    (y.typ == ofmtType t.ofmt t.mxt && !y.reg, 2), (y.rows == x.rows && y.last == n, 2),
    (!t.hasBias || ((t.opnd 3).typ == 4 && (t.opnd 3).total == n), 3), (!t.hasScale || ((t.opnd nb).typ == 2 && (t.opnd nb).total == n), nb),
    (match t.pre with | none => true | some i => let p := t.opnd i; (p.typ == 2 || p.typ == 4 || p.typ == 5) && p.rows == y.rows && p.last == n, m) ]

/-- What a MATMUL_DX asks: dY in LG8, or in LG16 with WIDE (R191), dX in the format of the width (R192). -/
def dxChecks (t : TOp) : List (Bool × Nat) :=
  let dy := t.opnd 0
  let w := t.opnd 1
  let dx := t.opnd 2
  let m := t.onMason
  [ (t.opnds.length == 3 || t.opnds.length == 4, 0), (decide (t.fn ≤ 4) && t.group != 3 && t.f 1 31 30 == 0 && !t.hasBias && !t.hasScale && !t.rowScale, 0), ((t.par.drop 2).all (· == 0), 0),
    (m || dy.typ == 1 || (dy.typ == 3 && t.gradw == 2), 0), (!dy.reg, 0), (typeLog w.typ || typeMx w.typ || typeFp w.typ || typeNw w.typ, 1),
    (dy.last == w.matrix.2, 1), (m || dx.typ == widthDx t.gradw, 2), (!dx.reg && dx.rows == dy.rows && dx.last == w.matrix.1, 2),
    (t.fn == 0 || t.opnds.length == 4, 3),
    (match t.pre with | none => true | some i => let p := t.opnd i; (p.typ == 2 || p.typ == 4 || p.typ == 5) && p.rows == dx.rows && p.last == dx.last, 3) ]

/-- What a MATMUL_DW asks: dW in FP32 or RF32 (R192). -/
def dwChecks (t : TOp) : List (Bool × Nat) :=
  let x := t.opnd 0
  let dy := t.opnd 1
  let dw := t.opnd 2
  let m := t.onMason
  [ (t.opnds.length == 3, 0), (t.word 1 % 2 ^ 18 == 0 && t.word 1 / 2 ^ 30 == 0 && (t.par.drop 1).all (· == 0), 0),
    (typeLog x.typ || typeMx x.typ || typeFp x.typ, 0), (!x.reg, 0), (m || dy.typ == 1 || (dy.typ == 3 && t.gradw == 2), 1), (!dy.reg && dy.rows == x.rows, 1),
    (dw.typ == 4 || dw.typ == 7, 2), (!dw.reg && dw.rows == x.last && dw.last == dy.last, 2) ]

/-- Is every operand of a loop readable, and its output writable, by a control core? -/
def loopChecks (t : TOp) (ins : Nat) : List (Bool × Nat) :=
  (t.opnds.length == ins + 1, 0) :: ((List.range ins).map (fun i => (typeLoopIn (t.opnd i).typ && !(t.opnd i).reg, i))
    ++ [(typeLoopOut (t.opnd ins).typ && !(t.opnd ins).reg, ins)])

/-- The dimensions of an operand with one of an axis. -/
def Opnd.without (o : Opnd) (a : Nat) : List Nat := o.dims.set a 1

/-- What each operation asks of its PARAM and operands (R297), as conditions with the operand that each concerns. -/
def opChecks (t : TOp) : List (Bool × Nat) :=
  let a := t.opnd 0
  let b := t.opnd 1
  let c := t.opnd 2
  let only := fun (n : Nat) => t.word 1 / 2 ^ n == 0 && (t.par.drop 1).all (· == 0)
  let axis := t.f 1 5 4
  match t.op with
  | 0x0001 => matmulChecks t
  | 0x0002 => dxChecks t
  | 0x0003 => dwChecks t
  | 0x0010 => loopChecks t 1 ++ [(only 8 && decide (1 ≤ t.word 1) && decide (t.word 1 ≤ 14), 0), (a.same b, 1)]
  | 0x0011 => loopChecks t 2 ++ [(only 8 && decide (t.word 1 ≤ 15), 0), (a.same b, 1), (a.same c, 2)]
  | 0x0012 => loopChecks t 1 ++ [(only 6 && decide (t.f 1 3 0 ≤ 7) && decide (axis < a.rank), 0), (a.dim axis != 0 || decide (4 ≤ t.f 1 3 0), 0),
      (b.dims.filter (· != 1) == (a.without axis).filter (· != 1), 1)]
  | 0x0013 => loopChecks t 1 ++ [(t.word 1 % 16 == 0 && only 6 && decide (axis < a.rank), 0), (a.same b, 1)]
  | 0x0014 => loopChecks t 2 ++ [(decide (t.word 1 ≤ 1) && decide (t.word 2 < 2 ^ 32) && (t.par.drop 2).all (· == 0), 0), (b.total == a.last, 1), (a.same c, 2)]
  | 0x0020 => [(t.opnds.length == 2, 0), (only 1, 0), (!b.reg, 1), (a.typ == b.typ || (typeLog a.typ && typeLog b.typ), 1),
      (if t.word 1 = 1 then decide (a.rank = 2) && decide (b.rank = 2) && typeLog a.typ && typeLog b.typ && a.dim 0 == b.dim 1 && a.dim 1 == b.dim 0 else a.same b, 1)]
  | 0x0021 => [(t.opnds.length == 3, 0), (t.word 1 % 16 == 0 && only 6 && decide (axis < a.rank), 0), (b.typ == 0x12 && !b.reg, 1), (c.typ == a.typ && !c.reg, 2),
      (c.dims == a.dims.set axis b.total, 2)]
  | 0x0022 => [(t.opnds.length == 3, 0), (t.word 1 % 16 == 0 && only 6 && decide (axis < a.rank), 0), (b.typ == 0x12 && !b.reg && b.total == a.dim axis, 1),
      (c.typ == a.typ && !c.reg, 2), (a.without axis == c.without axis, 2)]
  | 0x0023 => loopChecks t 1 ++ [(t.word 1 % 16 == 0 && only 6 && decide (axis < a.rank), 0), (a.same b, 1), (!typeNw a.typ && a.typ != 0x14, 0),
      (if typeMx a.typ then b.typ == 2 else b.typ == a.typ, 1)]
  | 0x0030 => [(t.opnds.length == 2, 0), (t.word 1 / 8 == 0 && t.f 1 1 0 != 3 && (t.par.drop 3).all (· == 0), 0), (t.f 3 15 8 == 3, 0), (decide (a.typ ≤ 5) && !a.reg, 0),
      (a.last % (32 * 2 ^ t.f 1 1 0) == 0, 0), ((decide (b.typ ≤ 5) || typeMx b.typ) && !b.reg, 1), (a.same b, 1)]
  | 0x0031 => loopChecks t 0 ++ [(t.word 1 / 256 == 0 && (t.par.drop 3).all (· == 0), 0), (t.word 1 == 4 || t.word 1 == 5 || decide (0x80 ≤ t.word 1), 0)]
  | 0x0040 => [(decide (2 ≤ t.opnds.length) && decide (t.opnds.length ≤ 4), 0), (decide (t.f 2 63 60 ≤ 5) && t.f 2 39 32 == 0 && (t.par.drop 3).all (· == 0), 0)]
      ++ (List.range t.opnds.length).map (fun i => (!(t.opnd i).reg, i))
  | 0x0041 => [(t.opnds.length == 3, 0), (t.f 1 63 50 == 0 && t.f 1 33 32 == 0 && t.f 1 19 14 == 0 && (t.par.drop 3).all (· == 0), 0),
      ((a.typ == 4 || a.typ == 7) && !a.reg, 0), (b.reg, 1), (t.f 1 13 0 == b.region, 1), (a.total == b.total, 1), (!c.reg, 2)]
  | _ => [(false, 0)]

/-- Are the dimensions of an operand good: those that it uses above 0, but for the axis of a fold that may be empty (R74), the others 1? A
Microscaling operand has whole blocks along its last dimension (R40). -/
def opndDims (t : TOp) (o : Opnd) : Bool :=
  decide (1 ≤ o.rank) && decide (o.rank ≤ 4)
    && (List.range 4).all (fun i => if i < o.rank then decide (0 < o.dim i) || (t.op == 0x0012 && i == t.f 1 5 4) else o.dim i == 1)
    && (!typeMx o.typ || o.last % 32 == 0)

/-- The first operand that an operation fails on (R296, R299), with the operation's length: 0 stands for the header. -/
def opCheck (b : Bytes) : Option Nat × Nat :=
  let w0 := leAt b 0 8
  let n := bits w0 23 16
  let attr := bits w0 63 32
  if bits w0 31 24 ≠ 0 ∨ n = 0 ∨ 8 < n ∨ !opListed (bits w0 15 0) ∨ bits attr 31 9 ≠ 0 ∨ bits attr 7 6 = 3 ∨ b.length < 64 + 64 * n then (some 0, 64)
  else
    let t := parseOp b
    let own := (List.range n).map (fun i => let o := t.opnd i; (!opndReserved ((b.drop (64 + 64 * i)).take 64) && typeListed o.typ && opndDims t o, i))
    (firstBad (own ++ opChecks t), 64 + 64 * n)

/-- The first operation, from k on, that fails, with its failing operand; `fuel` bounds the operations. -/
def opsCheck : Nat → Nat → Bytes → Option (Nat × Nat)
  | 0, _, _ => none
  | fuel + 1, k, b =>
    if b.isEmpty then none
    else match opCheck b with
      | (some o, _) => some (k, o)
      | (none, n) => opsCheck fuel (k + 1) (b.drop n)

/-- The operations of a TENSOR section. -/
def parseOps : Nat → Bytes → List TOp
  | 0, _ => []
  | fuel + 1, b => if b.isEmpty then [] else let t := parseOp b; t :: parseOps fuel (b.drop (64 + 64 * t.opnds.length))

/-! ## Checkpointed blocks (R183) -/

/-- The checkpointed blocks, first and last operation: CKPT_BEGIN opens one and CKPT_END closes it; `none` where they do not pair, with the
operation at fault. -/
def blocksOf : Nat → Option Nat → List TOp → Nat ⊕ List (Nat × Nat)
  | k, some _, [] => .inl (k - 1)
  | _, none, [] => .inr []
  | k, op, t :: r =>
    match op, t.ckptBegin, t.ckptEnd with
    | some _, true, _ => .inl k
    | none, false, true => .inl k
    | none, true, true => (blocksOf (k + 1) none r).map id ((k, k) :: ·)
    | some a, false, true => (blocksOf (k + 1) none r).map id ((a, k) :: ·)
    | none, true, false => blocksOf (k + 1) (some k) r
    | op, false, false => blocksOf (k + 1) op r

end Sys2Proof.Machine
end

