-- ==== Sys2Proof/Machine/Crusher.lean ====
section
/-! DEFINITION. Spall streams, the stream-claim table (R160 to R169, R181), and the crusher (R174 to R180, R182). -/
namespace Sys2Proof.Machine

/-! ## Claims (R162 to R169) -/

/-- The number of a claiming unit (R161). -/
def Claimant.unit : Claimant → Nat
  | .crusher b => b
  | .core b => b
  | .update k => 0x20 + k
  | .coll u => 0x30 + u

namespace Claim
def purpose (c : Claim) : Nat := bits c.ref 15 8
def shared (c : Claim) : Bool := c.ref.testBit 7
def inst (c : Claim) : Nat := bits c.ref 6 0
def wbase (c : Claim) : Nat := bits c.ref 63 16
/-- The derivation block of R163. -/
def block (c : Claim) : Nat :=
  c.step % 2 ^ 64 * 2 ^ 64 + (if c.shared then 0 else c.dev % 2 ^ 16 * 2 ^ 48 + c.who.unit * 2 ^ 40)
    + c.purpose * 2 ^ 32 + b2n c.shared * 128 + c.inst
/-- May the unit claim the purpose, with this SHARED (R164)? -/
def allowed (c : Claim) : Bool :=
  let u := c.who.unit
  let p := c.purpose
  if p = 1 then decide (0x20 ≤ u) && decide (u < 0x28) && !c.shared
  else if p = 2 then decide (0x30 ≤ u) && !c.shared
  else if p = 3 then decide (u < 24)
  else if p = 4 ∨ p = 5 ∨ 0x80 ≤ p then decide (u < 24) && !c.shared
  else false
end Claim

/-- The device number that a claim made now carries (R163): LK_DEV, or 0 while the module holds none. -/
def State.claimDev (s : State) : Nat := s.rfld R.LK_DEV 15 0

/-- A claim takes its place: by its core cycle, in one cycle by ascending UNIT, and for one unit in its issue order (R166). -/
def placeClaim (c : Claim) : List Claim → List Claim
  | [] => [c]
  | e :: r => if e.time < c.time ∨ e.who.unit ≤ c.who.unit then e :: placeClaim c r else c :: e :: r

/-- A claim is submitted (R166). -/
def State.submitClaim (s : State) (who : Claimant) (step ref : Nat) : State :=
  { s with spall := { s.spall with queue := placeClaim ⟨who, step, ref, s.claimDev, s.time⟩ s.spall.queue } }

/-- A refusal (R167): the event with the derivation-block fields, the refused unit and, for an alias, the holder; the same
fields in SP_LAST_REFUSED. -/
def State.refuseClaim (s : State) (c : Claim) (reason : Nat) (holder : Option Nat) : State :=
  let u := c.who.unit
  let code := if reason = 1 then 0x310 else if reason = 2 then 0x311 else 0x312
  let args := leBytes 8 c.step ++ leBytes 2 (if c.shared then 0 else c.dev) ++ leBytes 1 (if c.shared then 0 else u)
    ++ leBytes 1 c.purpose ++ leBytes 1 (b2n c.shared) ++ leBytes 1 c.inst ++ leBytes 1 u
    ++ (match holder with | some h => leBytes 1 h | none => [])
  (((s.ev code u args).addReg R.SP_REFUSED 1).setRn (R.SP_LAST_REFUSED 0) c.step).setRn (R.SP_LAST_REFUSED 1)
    (reason * 2 ^ 56 + u * 2 ^ 48 + holder.getD 0 * 2 ^ 40 + c.purpose * 256 + b2n c.shared * 128 + c.inst)

/-- A claim decided by the table of R166 and R423: the derived key when it is granted, or the REASON code. -/
def State.decideClaim (s : State) (c : Claim) : State × (Nat ⊕ Nat) :=
  let t := s.spall
  let d := c.block
  if !t.valid || !c.allowed || t.spareBad || t.entries.any (·.bad) then (s.refuseClaim c 3 none, .inr 3)
  else
    match t.entries.find? (fun e => e.d == d) with
    | some e => if c.purpose = 3 then (s, .inl (aes128 t.jk d)) else (s.refuseClaim c 1 (some e.unit), .inr 1)
    | none =>
      if 256 ≤ t.entries.length then (s.refuseClaim c 2 none, .inr 2)
      else
        let es := t.entries ++ [⟨d, c.who.unit, false⟩]
        ({ s with spall := { t with entries := es, high := max t.high es.length } }, .inl (aes128 t.jk d))

/-- SP_KEY_CTRL.LOAD (R165). -/
def spKeyLoad (s : State) : State :=
  if s.spall.entries.isEmpty then
    { s with spall := { s.spall with jk := s.rn (R.SP_JOBKEY 0) + s.rn (R.SP_JOBKEY 1) * 2 ^ 64, valid := true } }
  else s.ev 0x313 0xFF []

/-- Entries of steps up to `step` are retired, and uncorrectable entries are cleared (R168, R423). -/
def State.retireClaims (s : State) (step : Nat) : State :=
  { s with spall := { s.spall with
      entries := s.spall.entries.filter (fun e => !e.bad && decide (step < e.d / 2 ^ 64)), spareBad := false } }

/-- A read of SP_CLAIMS (R181). -/
def spClaimsRead (s : State) : State :=
  let n := s.spall.entries.length
  { s.emit (.readVal R.SP_CLAIMS (s.spall.high * 65536 + n)) with spall := { s.spall with high := n } }

/-- A read of SP_REFUSED (R181). -/
def spRefusedRead (s : State) : State := (s.emit (.readVal R.SP_REFUSED (s.rn R.SP_REFUSED))).setRn R.SP_REFUSED 0

/-- A stream-claim entry proves uncorrectable (R423): one of the 256 places, whether a claim holds it or not. -/
def claimUe (s : State) (i : Nat) : State :=
  match s.spall.entries[i]? with
  | none => if i < 256 then ({ s with spall := { s.spall with spareBad := true } } : State).ev 0x314 0xFF (leBytes 1 i) else s
  | some e => ({ s with spall := { s.spall with entries := s.spall.entries.set i { e with bad := true } } } : State).ev 0x314 0xFF
      (leBytes 1 i)

/-! ## The crusher queue (R177) -/

/-- The crusher queue halts with a cause (R182). -/
def State.crusherHalt (s : State) (b : Fin 24) (cause item tag : Nat) : State :=
  ((s.modBench b (fun x => { x with cr := x.cr.halt cause })).setRn (R.CR_FAULT b) (2 ^ 31 + item * 2 ^ 28 + tag)).raise 81

/-- A crusher command refused (R177, R179). -/
def State.crusherRefuse (s : State) (b : Fin 24) (item : Nat) (c : Cmd) : State :=
  (s.ev 0x320 b (leBytes 3 c.tag ++ leBytes 1 item)).crusherHalt b 1 item c.tag

/-- The head of the crusher queue under a row of opcode `op` (R177); nothing is dispatched while a ROT waits for its claim. -/
def crusherDispatch (s : State) (b : Fin 24) (op : Nat) (f : Cmd → State) : State :=
  let x := s.bench b
  if x.out || x.crWait then s
  else dispatch s x.cr [0, 0x20, 0x21, 0x50] op
    ((s.ev 0x321 b []).crusherHalt b 2 0 ((x.cr.cmds.head?.map Cmd.tag).getD 0)) (s.crusherRefuse b 0) f

/-- The head command leaves the crusher queue. -/
def State.crusherPop (s : State) (b : Fin 24) : State := s.modBench b (fun x => { x with cr := x.cr.pop })

/-- Has a ROT numbered below a bound not written all its results? -/
def Bench.crusherLive (x : Bench) (n : Nat) : Bool := x.crRun.any (fun r => decide (r.id < n))

/-- NOP (R177). -/
def crNop (s : State) (b : Fin 24) : State := crusherDispatch s b 0 (fun _ => s.crusherPop b)

/-- SYNC_WAIT (R177). -/
def crSyncWait (s : State) (b : Fin 24) : State :=
  crusherDispatch s b 0x20 (fun c => if c.w 2 ≤ s.syncVal (c.f 1 7 0) then s.crusherPop b else s)

/-- SYNC_SIGNAL (R177). -/
def crSyncSignal (s : State) (b : Fin 24) : State :=
  crusherDispatch s b 0x21 (fun c =>
    let x := s.bench b
    if c.b 1 8 && x.crusherLive x.cr.nextJob then s.modBench b (fun y => { y with cr := y.cr.pop.defer (c.f 1 7 0) })
    else (s.crusherPop b).addSync (c.f 1 7 0) 1)

/-- DEFERRED_SIGNAL_ADD of the crusher queue. -/
def crSigAdd (s : State) (b : Fin 24) : State :=
  let x := s.bench b
  match x.cr.takeSig x.crusherLive with
  | none => s
  | some (c, q) => (s.setBench b { x with cr := q }).addSync c 1

/-! ## ROT (R174, R178 to R180) -/

namespace Rot
def rows (c : Cmd) : Nat := c.f 1 47 32
def nblk (c : Cmd) : Nat := c.f 1 31 20
def n (c : Cmd) : Nat := 32 * 2 ^ c.f 1 19 18
def inv (c : Cmd) : Bool := c.b 1 17
def ifmt (c : Cmd) : Nat := c.f 1 15 12
def ofmt (c : Cmd) : Nat := c.f 1 11 8
def mxt (c : Cmd) : Nat := c.f 1 7 4
/-- Bytes of an element of a format code 0 to 5 (R118). -/
def size (f : Nat) : Nat := if f < 2 then 1 else if f = 4 then 4 else 2
/-- Bytes of `k` output elements. -/
def outBytes (c : Cmd) (k : Nat) : Nat := if ofmt c = 6 then k * elemBits (mxt c) / 8 else k * size (ofmt c)
end Rot

/-- The item of R179 that a ROT fails first. -/
def rotItem (c : Cmd) : Option Nat :=
  let len := Rot.nblk c * Rot.n c
  let li := len * Rot.size (Rot.ifmt c)
  let lo := Rot.outBytes c len
  let mx := decide (Rot.ofmt c = 6)
  if word0Reserved c || c.f 1 63 48 != 0 || c.b 1 16 || c.f 1 3 0 != 0 || c.w 7 != 0 || decide (c.f 1 19 18 = 3)
      || decide (5 < Rot.ifmt c) || decide (6 < Rot.ofmt c) || decide (6 < Rot.mxt c) || (!mx && decide (Rot.mxt c ≠ 0)) then some 1
  else if Rot.rows c = 0 ∨ Rot.nblk c = 0 ∨ 2048 < Rot.nblk c ∨ (mx ∧ Rot.mxt c = 0) then some 2
  else if c.addr 2 % 64 ≠ 0 ∨ c.addr 3 % 64 ≠ 0 ∨ c.addr 4 % 64 ≠ 0
      ∨ !(rowsInYard (c.addr 2) (Rot.rows c) (c.stride 2) li && rowsInYard (c.addr 3) (Rot.rows c) (c.stride 3) lo
          && (!mx || rowsInYard (c.addr 4) (Rot.rows c) (c.f 4 63 48) (len / 32))) then some 3
  else if c.stride 2 < li ∨ c.stride 3 < lo ∨ (mx ∧ c.f 4 63 48 < len / 32) then some 4
  else if bits (c.w 6) 15 8 ≠ 3 then some 5
  else none

/-- ROT (R179): checked, then its claim submitted; the command stays at the head until the claim is decided. -/
def rot (s : State) (b : Fin 24) : State :=
  crusherDispatch s b 0x50 (fun c =>
    if (s.bench b).crRun.isSome then s
    else
      match rotItem c with
      | some i => s.crusherRefuse b i c
      | none => (s.modBench b (fun x => { x with crWait := true })).submitClaim (.crusher b) (c.w 5) (c.w 6))

/-- The claim of the waiting ROT is decided (R167, R179). -/
def rotClaimed (s : State) (b : Fin 24) (r : Nat ⊕ Nat) : State :=
  let x := s.bench b
  match x.crWait, x.cr.cmds with
  | true, c :: _ =>
    let s1 := s.setBench b { x with crWait := false }
    match r with
    | .inl key => s1.modBench b (fun y => { y with cr := y.cr.popJob, crRun := some { cmd := c, id := y.cr.job, key := key } })
    | .inr _ => s1.crusherHalt b 3 0 c.tag
  | _, _ => s.setBench b { x with crWait := false }

/-- An input element under R34 and R175; one of a poisoned line is NaN (R250). -/
def rotIn (s : State) (f a : Nat) : Val × Cond :=
  match s.read a (Rot.size f) with
  | none => (.nan, Cond.none)
  | some bs =>
    let c := fromLe bs
    if f < 4 then (logDecode c (logFmtOf f) 0, Cond.none) else fpOperand c (if f = 4 then FP32 else BF16)

/-- The entry H[i][j] of the Walsh–Hadamard matrix, true for −1 (R174). -/
def hNeg (i j : Nat) : Bool := oddOnes 8 (i &&& j)

/-- The sums of R174 before the factor n^(−1/2): `sg` holds the signs of the positions, applied to the inputs of a forward
rotation and to the outputs of an inverse. -/
def rotSums (n : Nat) (inv : Bool) (sg : List Bool) (xs : List Rat) : List Rat :=
  let neg := fun (c : Bool) (x : Rat) => if c then -x else x
  let ys := if inv then xs else List.zipWith neg sg xs
  let sums := (List.range n).map (fun i => ys.zipIdx.foldl (fun a p => a + neg (hNeg i p.2) p.1) 0)
  if inv then List.zipWith neg sg sums else sums

/-- A sum times n^(−1/2), rounded once (R48, R175). A log output takes the exact logarithm of the root. DESIGN CHOICE (log 102): a sum of zero is
+0 in FP32, in BF16 and before a Microscaling conversion, even where every input is a minus zero. -/
def rotOut (n f : Nat) (x : Rat) : Nat × Cond :=
  let sq := x * x / (n : Rat)
  if f < 4 then
    (if x = 0 then ((logFmtOf f).zero, Cond.none) else logEncodePos (decide (x < 0)) sq.num.natAbs sq.den 1 (logFmtOf f))
  else fpEncode (.fin (decide (x < 0)) (sqrtMag sq)) (if f = 4 then FP32 else BF16)

/-- The canonical NaN of an output format. -/
def rotNan (f : Nat) : Nat := if f < 4 then (logFmtOf f).nan else if f = 4 then FP32.nanCode else BF16.nanCode

/-- The outputs of one block: Microscaling scale bytes, element codes, conditions (R175). -/
def rotBlockOut (c : Cmd) (vs : List (Val × Cond)) (sg : List Bool) : List Nat × List Nat × Cond :=
  let n := Rot.n c
  let c0 := vs.foldl (fun q v => q.or v.2) Cond.none
  if vs.any (fun v => v.1.isNan) then
    if Rot.ofmt c = 6 then (List.replicate (n / 32) 0xFF, List.replicate n 0, c0)
    else ([], List.replicate n (rotNan (Rot.ofmt c)), c0)
  else
    let sums := rotSums n (Rot.inv c) sg (vs.map (fun v => v.1.toRat))
    if Rot.ofmt c = 6 then
      (List.range (n / 32)).foldl (fun acc j =>
        let r := mxEncode (Rot.mxt c) (((sums.drop (32 * j)).take 32).map (fun x => .fin (decide (x < 0)) (sqrtMag (x * x / (n : Rat))))) none
        (acc.1 ++ [r.1], acc.2.1 ++ r.2.1, acc.2.2.or r.2.2)) ([], [], c0)
    else
      let els := sums.map (rotOut n (Rot.ofmt c))
      ([], els.map (·.1), els.foldl (fun q e => q.or e.2) c0)

/-- The bytes of one block of output elements. -/
def rotBytes (c : Cmd) (els : List Nat) : Bytes :=
  if Rot.ofmt c = 6 then (List.range (Rot.n c / 32)).flatMap (fun j => packElems (Rot.mxt c) ((els.drop (32 * j)).take 32))
  else els.flatMap (leBytes (Rot.size (Rot.ofmt c)))

/-- ROT_BLOCK (R174, R175, R180): the next block is read in full, rotated, rounded and written. -/
def rotBlock (s : State) (b : Fin 24) : State :=
  let x := s.bench b
  if x.out then s
  else
    match x.crRun with
    | none => s
    | some r =>
      let c := r.cmd
      let n := Rot.n c
      let k0 := r.block * n
      let ia := c.addr 2 + c.stride 2 * r.row
      let oa := c.addr 3 + c.stride 3 * r.row
      let vs := (List.range n).map (fun i => rotIn s (Rot.ifmt c) (ia + (k0 + i) * Rot.size (Rot.ifmt c)))
      let rv := randVals r.key (bits (c.w 6) 63 16 + k0 / 16) (n / 16)
      let sg := (List.range n).map (fun i => (rv.getD (i / 16) 0).testBit (i % 16))
      let o := rotBlockOut c vs sg
      let s1 := s.wr (oa + Rot.outBytes c k0) (rotBytes c o.2.1)
      let s2 := if Rot.ofmt c = 6 then s1.wr (c.addr 4 + c.f 4 63 48 * r.row + k0 / 32) (o.1.flatMap (leBytes 1)) else s1
      let nxt := if r.block + 1 < Rot.nblk c then some { r with block := r.block + 1 }
        else if r.row + 1 < Rot.rows c then some { r with block := 0, row := r.row + 1 } else none
      ((s2.modBench b (fun y => { y with crRun := nxt })).addReg (R.CR_BLOCKS b) 1).charge b c.tag o.2.2.toNat

/-! ## Registers that act (R182) -/

/-- CR_CTRL.RESUME. -/
def crResume (s : State) (b : Fin 24) : State :=
  let x := s.bench b
  if x.out || !x.cr.halted then s
  else (s.setBench b { x with cr := { x.cr with cause := 0 } }).setFld (R.CR_FAULT b) 31 31 0

/-- CR_CTRL.SKIP. -/
def crSkip (s : State) (b : Fin 24) : State :=
  let x := s.bench b
  if x.out || !x.cr.halted || x.cr.cmds.isEmpty then s else s.crusherPop b

/-- CR_CTRL.CNT_CLR. -/
def crCntClr (s : State) (b : Fin 24) : State := if (s.bench b).out then s else s.setRn (R.CR_BLOCKS b) 0

end Sys2Proof.Machine
end

