-- ==== Sys2Proof/Machine/Versions.lean ====
section
/-! DEFINITION. The version tables of the stacks (R195 to R207): regions, slots, pin tokens, the operations of R199, slot
acquisition (R202), and commit and discard (R196, R231). -/
namespace Sys2Proof.Machine

/-! ## Regions and slots -/

/-- The registered region with an identifier. -/
def State.region? (s : State) (r : Nat) : Option Region := (s.regions.find? (fun e => e.1 == r)).map (·.2)
/-- Puts a region in the table. -/
def State.setRegion (s : State) (r : Nat) (x : Region) : State := { s with regions := SMap.insert r x s.regions }
/-- Takes a region out of the table. -/
def State.dropRegion (s : State) (r : Nat) : State := { s with regions := SMap.erase r s.regions }
/-- The stack that a REGION names (R195). -/
def regionStack (r : Nat) : Nat := r / 2048 % 8

/-- A slot of a region. -/
def Region.slot (x : Region) (i : Nat) : Slot := x.slots.getD i {}
/-- Replaces a slot. -/
def Region.setSlot (x : Region) (i : Nat) (v : Slot) : Region := { x with slots := x.slots.set i v }
/-- The first slot in a state. -/
def Region.find (x : Region) (st : SlotSt) : Option Nat := (List.range 4).find? (fun i => decide (i < x.nslots) && (x.slot i).st == st)

/-- A HELD slot that nothing holds becomes FREE (R196). -/
def Slot.settle (v : Slot) : Slot := if v.st = .held ∧ v.pins = 0 ∧ v.impl = 0 then { v with st := .free } else v

/-- A slot is live under a generation (R197). -/
def Slot.liveFor (v : Slot) (gen : Nat) : Bool := v.st != .free && v.gen == gen

/-- The pin token of slot i (R197). -/
def tokenOf (r i : Nat) (v : Slot) : Nat := v.step % 2 ^ 32 * 2 ^ 32 + v.gen * 2 ^ 24 + i * 2 ^ 14 + r

/-- The code of a slot state (R196). -/
def SlotSt.code : SlotSt → Nat
  | .free => 0
  | .current => 1
  | .tentative => 2
  | .held => 3

/-! ## Operations (R198, R199) -/

/-- The result of a version-table operation: the state, the UE_VT_CODE value and the token. -/
abbrev VtRes := State × Nat × Nat

/-- A refusal changes no table; it logs VERSION_ABSENT, VERSION_STALE or VT_REFUSED with the code (R199). -/
def State.vtRefuse (s : State) (k code : Nat) : VtRes :=
  (if code = 3 then s.ev 0xA12 k [] else if code = 4 then s.ev 0xA13 k [] else s.ev 0xA11 k (leBytes 1 code), code, 0)

/-- Do two ranges meet? -/
def overlap (a n b m : Nat) : Bool := decide (a < b + m) && decide (b < a + n)

/-- Does a range meet a slot of a registered region? -/
def State.inSlots (s : State) (a n : Nat) : Bool :=
  s.regions.any (fun e => (e.2.slots.take e.2.nslots).any (fun v => overlap a n v.addr (e.2.len * 65536)))

/-- The registration record's checks of R198, except the last two: none where it is refused. -/
def recordOf (k : Nat) (c : Cmd) : Option (Nat × Region) :=
  let frozen := c.b 6 16
  let n := c.f 1 33 32 + 1
  let len := c.f 1 31 0
  let r := c.f 6 13 0
  let addrs := (List.range 4).map (fun i => c.f (2 + i) 47 0)
  if c.f 1 63 34 != 0 || (List.range 4).any (fun i => c.f (2 + i) 63 48 != 0) || c.f 6 63 17 != 0 || c.f 6 15 14 != 0 || c.w 7 != 0
      || decide (len = 0) || decide (196608 < len) || (frozen != decide (n = 1)) || regionStack r != k
      || (addrs.take n).any (fun a => a % 65536 != 0) || (addrs.drop n).any (· != 0)
      || (addrs.take n).any (fun a => decide (a < k * 0x000C00000000) || decide ((k + 1) * 0x000C00000000 < a + len * 65536)) then none
  else some (r, { uid := 0, frozen := frozen, len := len, nslots := n,
                  slots := addrs.zipIdx.map (fun p => if p.2 = 0 then { st := .current, addr := p.1, step := c.w 0 } else { addr := p.1 }) })

/-- Do the used slots of a region meet one another? -/
def Region.selfOverlap (x : Region) : Bool :=
  (List.range x.nslots).any (fun i => (List.range i).any (fun j => overlap (x.slot i).addr (x.len * 65536) (x.slot j).addr (x.len * 65536)))

/-- REGISTER (R198): `w` is bits [55:0] of the operation word. DESIGN CHOICE (log 102): a record that names a registered region is refused with
REGION_IN_USE before its slots are held against the slots of other regions. -/
def vtRegister (s : State) (k w : Nat) : VtRes :=
  let a := w % 2 ^ 48
  if bits w 55 48 ≠ 0 ∨ a % 64 ≠ 0 then s.vtRefuse k 6
  else
    match s.read a 64 with
    | none => s.vtRefuse k 6
    | some bs =>
      match recordOf k (Cmd.ofBytes bs) with
      | none => s.vtRefuse k 6
      | some (r, x) =>
        if (s.region? r).isSome then s.vtRefuse k 7
        else if x.selfOverlap || (x.slots.take x.nslots).any (fun v => s.inSlots v.addr (x.len * 65536)) then s.vtRefuse k 6
        else (({ s with regionUid := s.regionUid + 1 } : State).setRegion r { x with uid := s.regionUid }, 0, 0)

/-- The region that an operation of stack k names, if it is registered there (R199). -/
def State.regionOf (s : State) (k r : Nat) : Option Region := if regionStack r = k then s.region? r else none

/-- DEREGISTER (R199, R200). -/
def vtDeregister (s : State) (k r : Nat) : VtRes :=
  match s.regionOf k r with
  | none => s.vtRefuse k 1
  | some x =>
    if x.slots.any (fun v => decide (0 < v.pins) || decide (0 < v.impl) || v.st == .tentative) then s.vtRefuse k 5
    else (s.dropRegion r, 0, 0)

/-- One pin added to slot i (R199). -/
def vtPin (s : State) (k r : Nat) (x : Region) (i : Nat) : VtRes :=
  let v := x.slot i
  if 65535 ≤ v.pins then s.vtRefuse k 2
  else (s.setRegion r (x.setSlot i { v with pins := v.pins + 1 }), 0, tokenOf r i v)

/-- PIN_CURRENT (R199). -/
def vtPinCurrent (s : State) (k r : Nat) : VtRes :=
  match s.regionOf k r with
  | none => s.vtRefuse k 1
  | some x => match x.find .current with
    | some i => vtPin s k r x i
    | none => s.vtRefuse k 3

/-- The slot that PIN_STEP takes: CURRENT or HELD with STEP[31:0] as asked, the highest full STEP first; slot 0 of a frozen
region (R199). -/
def Region.stepSlot (x : Region) (lo : Nat) : Option Nat :=
  if x.frozen then some 0
  else (List.range x.nslots).foldl (fun best i =>
    let v := x.slot i
    if (v.st = .current ∨ v.st = .held) ∧ v.step % 2 ^ 32 = lo then
      match best with
      | some j => if (x.slot j).step < v.step then some i else some j
      | none => some i
    else best) none

/-- PIN_STEP (R199). -/
def vtPinStep (s : State) (k r lo : Nat) : VtRes :=
  match s.regionOf k r with
  | none => s.vtRefuse k 1
  | some x => match x.stepSlot lo with
    | some i => vtPin s k r x i
    | none => s.vtRefuse k 3

/-- PIN_TOKEN (R19, R196, R197, R199). DEDUCED (log 84): a token whose GEN is that of a TENTATIVE slot, which only the update engine reads, is
refused as STALE. -/
def vtPinToken (s : State) (k r i gen : Nat) : VtRes :=
  match s.regionOf k r with
  | none => s.vtRefuse k 1
  | some x => if decide (i < x.nslots) && (x.slot i).liveFor gen && (x.slot i).st != .tentative then vtPin s k r x i else s.vtRefuse k 4

/-- UNPIN (R196, R199). -/
def vtUnpin (s : State) (k r i gen : Nat) : VtRes :=
  match s.regionOf k r with
  | none => s.vtRefuse k 1
  | some x =>
    let v := x.slot i
    if !(decide (i < x.nslots) && v.liveFor gen) then s.vtRefuse k 4
    else if v.pins = 0 then s.vtRefuse k 5
    else (s.setRegion r (x.setSlot i ({ v with pins := v.pins - 1 } : Slot).settle), 0, 0)

/-- An operation word executed by the version table of stack k (R199). -/
def vtOp (s : State) (k w : Nat) : VtRes :=
  let r := bits w 13 0
  let i := bits w 15 14
  let gen := bits w 23 16
  match bits w 63 56 with
  | 0x01 => vtRegister s k (bits w 55 0)
  | 0x02 => vtDeregister s k r
  | 0x10 => vtPinCurrent s k r
  | 0x11 => vtPinStep s k r (bits w 55 24)
  | 0x12 => vtPinToken s k r i gen
  | 0x13 => vtUnpin s k r i gen
  | _ => s.vtRefuse k 1

/-- An operation issued through UE_VT_OP(c) of stack k (R206, R207): nothing while the stack is out of service (R225); its
token and code are shown in UE_VT_RES(c) and UE_VT_CODE(c). -/
def vtIssue (s : State) (k : Fin 8) (c : Fin 32) (op : State → VtRes) : State :=
  if !s.stackUp k then s
  else
    let r := op s
    (r.1.setRn (R.UE_VT_RES k c) r.2.2).setRn (R.UE_VT_CODE k c) (2 ^ 31 + r.2.1)

/-! ## Waiting for a slot, and failures of an UPDATE (R202, R217, R224) -/

/-- An update engine. -/
def State.ue (s : State) (k : Fin 8) : Ue := s.ues[k]
/-- Changes an update engine. -/
def State.modUe (s : State) (k : Fin 8) (f : Ue → Ue) : State := { s with ues := s.ues.set k (f (s.ue k)) }

/-- UE_FAULT records a failed UPDATE (R234), and its step is remembered for the next MARK unless a decision ended it (R224). -/
def State.updFail (s : State) (k : Fin 8) (tag cause item : Nat) (step : Option Nat) : State :=
  (s.setRn (R.UE_FAULT k) (2 ^ 31 + item * 2 ^ 27 + cause * 2 ^ 24 + tag)).modUe k (fun u =>
    if cause = 5 then u else { u with fails := u.fails ++ [step] })

/-- The microseconds of a wait are counted when it ends (R207). -/
def State.endWait (s : State) (k : Fin 8) (p : UpdPhase) : State :=
  match p with
  | .slotWait t => s.addReg (R.UE_VT_WAIT_US k) ((s.time - t) / 1300)
  | _ => s

/-- The UPDATE in progress ends as failed. -/
def State.updEnd (s : State) (k : Fin 8) (r : UpdRun) (cause : Nat) : State :=
  ((s.endWait k r.phase).modUe k (fun u => { u with run := none })).updFail k r.cmd.tag cause 0 (some (r.cmd.w 1))

/-- The slot that an update of step S takes (R202): the lowest FREE one, unless a slot is TENTATIVE. -/
def Region.acquire (x : Region) (step : Nat) : Option (Nat × Region) :=
  if (x.find .tentative).isSome then none
  else
    match x.find .free with
    | none => none
    | some i =>
      let v := x.slot i
      some (i, x.setSlot i { v with st := .tentative, gen := (v.gen + 1) % 256, step := step })

/-- VT_SLOT_ACQUIRE (R202): the update waiting in stack k takes a slot if it can; it fails where its region is gone (R217). -/
def slotAcquire (s : State) (k : Fin 8) : State :=
  if !s.stackUp k then s
  else
    match (s.ue k).run with
    | none => s
    | some r =>
      match r.phase with
      | .slotWait _ =>
        match s.region? r.region with
        | none => s.updEnd k r 6
        | some x =>
          if x.uid ≠ r.uid then s.updEnd k r 6
          else
            match x.acquire (r.cmd.w 1), x.find .current with
            | some (i, x1), some c =>
              ((s.setRegion r.region x1).endWait k r.phase).modUe k (fun u => { u with run := some { r with
                phase := if r.prog0.isEmpty then .sweep1 else .sweep0, cur := (x.slot c).addr, tent := (x.slot i).addr } })
            | _, _ => s
      | _ => s

/-- The items of VERSION_EXHAUSTED (R202): REGION, S, and each slot's state, STEP and pin count. -/
def exhaustedItems (r step : Nat) (x : Region) : Bytes :=
  leBytes 2 r ++ leBytes 8 step
    ++ (x.slots.take x.nslots).flatMap (fun v => leBytes 1 v.st.code ++ leBytes 8 v.step ++ leBytes 2 v.pins)

/-- VERSION_EXHAUSTED (R202): a wait that has reached the limit ends, unless a slot can be taken (R206). -/
def versionExhausted (s : State) (k : Fin 8) : State :=
  if !s.stackUp k || decide (s.rfld (R.UE_VT_CFG k) 15 0 = 0) then s
  else
    match (s.ue k).run with
    | none => s
    | some r =>
      match r.phase, s.region? r.region with
      | .slotWait t, some x =>
        if (x.acquire (r.cmd.w 1)).isSome || decide ((s.time - t) / 1300 < s.rfld (R.UE_VT_CFG k) 15 0) then s
        else ((s.ev 0xA10 k (exhaustedItems r.region (r.cmd.w 1) x)).addReg (R.UE_VT_EXHAUSTED k) 1).updEnd k r 4
      | _, _ => s

/-- A write to UE_VT_CFG (R202, R207): a wait already as long as the new limit ends at once. -/
def vtCfgWrite (s : State) (k : Fin 8) (v : Nat) : State :=
  if !s.stackUp k then s
  else
    let s1 := s.setRn (R.UE_VT_CFG k) (v % 2 ^ 16)
    versionExhausted s1 k

/-- The eleven words of UE_VT_VIEW for an entry (R207). -/
def vtView (x : Option Region) : List Nat :=
  match x with
  | none => List.replicate 11 0
  | some x =>
    let sl := (List.range 4).map x.slot
    let sum := fun (w : Nat) (f : Slot → Nat) => sl.zipIdx.foldl (fun a p => a + f p.1 * 2 ^ (w * p.2)) 0
    [2 ^ 63 + b2n x.frozen * 2 ^ 62 + (x.nslots - 1) * 2 ^ 60 + sum 2 (fun v => v.st.code) * 2 ^ 48 + x.len]
      ++ sl.map (fun v => v.gen * 2 ^ 56 + v.addr) ++ sl.map (·.step) ++ [sum 16 (·.pins), sum 16 (·.impl)]

/-- A write to UE_VT_SEL (R207): the entry is captured in UE_VT_VIEW. -/
def vtSelWrite (s : State) (k : Fin 8) (v : Nat) : State :=
  if !s.stackUp k then s
  else
    (vtView (s.region? (k * 2048 + v % 2048))).zipIdx.foldl (fun t p => t.setRn (R.UE_VT_VIEW k p.2) p.1)
      (s.setRn (R.UE_VT_SEL k) (v % 2048))

/-- A version-table entry proves uncorrectable (R423): the region counts as unregistered, and an UPDATE that has passed its checks
and waits or runs on it fails (R202, R217). -/
def vtUe (s : State) (r : Nat) : State :=
  match s.region? r with
  | none => s
  | some x =>
    let k : Fin 8 := Fin.ofNat 8 (regionStack r)
    let s1 := (s.dropRegion r).ev 0xA40 k (leBytes 2 r)
    match (s.ue k).run with
    | some u => if u.region = r ∧ u.uid = x.uid then s1.updEnd k u 6 else s1
    | none => s1

/-! ## Implicit pins (R200) -/

/-- An implicit pin added to slot i of a region. -/
def State.implPin (s : State) (r i : Nat) : State :=
  match s.region? r with
  | none => s
  | some x => s.setRegion r (x.setSlot i { x.slot i with impl := (x.slot i).impl + 1 })

/-- The implicit pin of a registration released. -/
def State.implUnpin (s : State) (r uid i : Nat) : State :=
  match s.region? r with
  | none => s
  | some x =>
    if x.uid ≠ uid then s
    else s.setRegion r (x.setSlot i ({ x.slot i with impl := (x.slot i).impl - 1 } : Slot).settle)

/-! ## Commit and discard (R196, R231) -/

/-- One slot when step S commits or is discarded. -/
def Slot.decide (v : Slot) (S : Nat) (commit hasTent : Bool) : Slot :=
  match v.st with
  | .tentative => if v.step = S then { v with st := if commit then .current else .free } else v
  | .current => if commit && hasTent then ({ v with st := .held } : Slot).settle else v
  | _ => v

/-- A region when step S commits or is discarded (R196). -/
def Region.decide (x : Region) (S : Nat) (commit : Bool) : Region :=
  let hasTent := x.slots.any (fun v => v.st == .tentative && v.step == S)
  { x with slots := x.slots.map (fun v => v.decide S commit hasTent) }

/-- Every version table in service decides step S in one cycle; the same cycle first ends every UPDATE of S (R231). -/
def State.decideTables (s : State) (S : Nat) (commit : Bool) : State :=
  let s1 := (List.finRange 8).foldl (fun t k =>
    match (t.ue k).run with
    | some r => if s.stackUp k && decide (r.cmd.w 1 = S) then t.updEnd k r 5 else t
    | none => t) s
  { s1 with regions := s1.regions.map (fun e => if s.stackUp (regionStack e.1) then (e.1, e.2.decide S commit) else e) }

end Sys2Proof.Machine
end

