-- ==== Sys2Proof/Machine/Translate.lean ====
section
/-! DEFINITION. What R297 to R299 and the chapters that they call on ask of a translation: the engine commands, control-core loops and steps of
each tensor operation. The spec fixes no tiling, so a translation is LOAD's operand, and these conditions say which ones a LOAD may hold
(log 23). -/
namespace Sys2Proof.Machine

/-- A translation with what it is held against: the gang, the work area, the sync counters that the module got, its operations and checkpointed
blocks, the frozen regions that it reads, the buffers of each operation, what LOAD writes and the images that it forms. -/
structure Tr where
  mask : Nat
  wa : Nat
  wsz : Nat
  sync : Nat
  need : Nat
  tops : List TOp
  steps : List (List OpStep)
  blocks : List (Nat × Nat)
  frozen : List Nat
  bufs : List (List Buf)
  writes : List (Nat × Bytes)
  images : List (Nat × Nat)
  deriving DecidableEq, Repr

/-- An operation. -/
def Tr.top (x : Tr) (k : Nat) : TOp := x.tops.getD k { op := 0, attr := 0, par := [], opnds := [] }
/-- The steps of an operation. -/
def Tr.of (x : Tr) (k : Nat) : List OpStep := x.steps.getD k []
/-- The steps of a core among some. -/
def ofCore (l : List OpStep) (b : Nat) : List OpStep := l.filter (fun st => st.core == b)
/-- The numbers of the operations. -/
def Tr.ks (x : Tr) : List Nat := List.range x.tops.length
/-- The push of a step. -/
def OpStep.push? (st : OpStep) : Option Push := match st.kind with
  | .push p => some p
  | _ => none
/-- The push of a step if it is a command of a queue (any bench queue's for 0). -/
def OpStep.cmd? (st : OpStep) (qid op : Nat) : Option Push := st.push?.filter (fun p => p.qid == qid && p.cmd.op == op)
/-- Is the step a TILE? -/
def OpStep.tile? (st : OpStep) : Option Push := st.cmd? 0 0x10
/-- Is the step a derrick's command of an opcode? -/
def OpStep.load? (st : OpStep) (op : Nat) : Option Push := (st.cmd? 3 op).or (st.cmd? 4 op)
/-- The operation that a step belongs to: its own, or the one that it recomputes (R184). -/
def OpStep.opOf (st : OpStep) (k : Nat) : Nat := st.redo.getD k
/-- Is the step of the wide variant of an operation (R130)? -/
def OpStep.isWide (st : OpStep) (k : Nat) : Bool := st.guards.contains (.wide k true)
/-- Does an operation lie in a checkpointed block? -/
def Tr.inBlock (x : Tr) (k : Nat) : Bool := x.blocks.any (fun b => decide (b.1 ≤ k) && decide (k ≤ b.2))

/-! ## Addresses (R241, R294) -/

/-- Does a range lie in another? -/
def inside (a n b m : Nat) : Bool := decide (b ≤ a) && decide (a + n ≤ b + m)

/-- What an address of a command names: an operand, the work area, scratch in the stockyard or none at all, or nothing that it may. -/
inductive Spot where
  | opnd (i : Nat)
  | work
  | scratch
  | bad
  deriving DecidableEq, Repr

/-- The place of a range of virtual addresses in an operation: inside an operand, bound by TOP exactly where that is marked BIND, inside a side array,
which has no offset (R294), or inside the work area. -/
def Tr.place (x : Tr) (t : TOp) (va len : Nat) (late : Bool) : Spot :=
  match (List.range t.opnds.length).find? (fun i => let o := t.opnd i
      !o.reg && ((o.bind == late && inside va len o.va o.extent) || (!late && inside va len o.side o.sideExtent))) with
  | some i => .opnd i
  | none => if !late && inside va len x.wa x.wsz then .work else .bad

/-- The place that a word of a command names: what it is bound to, an operand read through the version table (R200), or, unbound, scratch. -/
def Tr.placeOf (x : Tr) (t : TOp) (c : Cmd) (binds : List Bind) (derrick : Bool) (w : Nat) : Spot :=
  match binds.find? (fun i => i.word == w) with
  | some i => x.place t i.va i.len i.late
  | none =>
    if derrick ∧ w = 2 ∧ c.f 1 29 28 = 3 then
      match (List.range t.opnds.length).find? (fun i => let o := t.opnd i
          o.reg && o.region == c.f 5 13 0
            && ((decide (o.va ≤ c.w 2) && decide (c.w 2 < o.va + o.extent)) || (decide (o.side ≤ c.w 2) && decide (c.w 2 < o.side + o.sideExtent)))) with
      | some i => .opnd i
      | none => .bad
    else if c.f w 47 0 = 0 ∨ isYard (c.f w 47 0) then .scratch else .bad

/-- The words of a command that hold addresses. -/
def addrWords (qid : Nat) (c : Cmd) : List Nat :=
  let packed := decide (5 ≤ c.f 1 23 20) && c.f 1 23 20 != 15
  if qid = 0 then (if c.op = 0x10 then [3, 4, 5, 6] else [])
  else if qid = 1 then (if c.op = 0x40 then [3, 4, 5] else if c.op = 0x41 then [3, 5] else [])
  else if qid = 2 then (if c.op = 0x50 then [2, 3, 4] else [])
  else if qid < 5 then
    (if c.op = 0x70 then [2, 3] else if c.op = 0x71 then [3] else if c.op = 0x72 ∨ c.op = 0x73 then (if packed then [2, 7] else [2]) else [])
  else if qid < 0x20 then (if c.op = 0x60 then [6, 7] else [])
  else (if c.op = 0x90 then [4, 5, 6, 7] else [])

/-- The word of a command whose address is read as data, if one is. -/
def readWords (qid : Nat) (c : Cmd) : List Nat :=
  if qid = 1 then (if c.op = 0x40 then [3, 4] else if c.op = 0x41 then [3] else [])
  else if qid = 2 then (if c.op = 0x50 then [2] else [])
  else if qid = 3 ∨ qid = 4 then (if c.op = 0x70 ∨ c.op = 0x72 ∨ c.op = 0x73 then [2] else [])
  else if 0x20 ≤ qid then (if c.op = 0x90 then [4] else [])
  else if 0x10 ≤ qid then (if c.op = 0x60 then [6] else []) else []

/-- The words of a drain descriptor that hold addresses which it uses (R118). -/
def drainWords (c : Cmd) : List Nat :=
  [1] ++ (if c.b 0 37 then [3] else []) ++ (if c.b 0 38 then [4] else []) ++ (if c.b 0 35 then [5] else [])
    ++ (if c.b 0 39 || c.f 0 55 52 == 6 then [7] else [])

/-! ## Every step -/

/-- May a command of a queue stand in the block of an operation (R158, R297)? -/
def mayPush (t : TOp) (qid op : Nat) : Bool :=
  let derrick := qid == 3 || qid == 4
  let queue := decide (qid < 5) || (decide (0x10 ≤ qid) && decide (qid < 0x18)) || (decide (0x20 ≤ qid) && decide (qid < 0x24))
  let onArray := t.isProduct && !t.onMason
  queue && (op == 0 || op == 0x20 || op == 0x21
    || (qid == 0 && onArray && (op == 0x10 || op == 0x30 || op == 0x31))
    || (qid == 1 && op == 0x40 && t.isProduct && t.onMason)
    || (qid == 1 && op == 0x41 && (t.op == 0x12 || t.op == 0x13 || t.op == 0x14))
    || (qid == 2 && op == 0x50 && t.op == 0x30)
    || (derrick && (op == 0x70 || op == 0x71))
    || (derrick && onArray && (op == 0x72 || op == 0x73))
    || (decide (0x10 ≤ qid) && decide (qid < 0x18) && t.op == 0x41 && (op == 0x60 || op == 0x61))
    || (decide (0x20 ≤ qid) && t.op == 0x40 && op == 0x90))

/-- Is a counter one of the module's (R293, R298)? -/
def Tr.counter (x : Tr) (c : Nat) : Bool := decide (x.sync ≤ c) && decide (c < x.sync + x.need)

/-- A push is well formed: its queue and opcode, its counter, its addresses, and a drain descriptor in the work area exactly for a FINAL tile. -/
def Tr.pushOk (x : Tr) (t : TOp) (p : Push) : Bool :=
  let c := p.cmd
  let ws := addrWords p.qid c
  let derrick := p.qid == 3 || p.qid == 4
  mayPush t p.qid c.op && (c.op != 0x20 && c.op != 0x21 || x.counter (c.f 1 7 0))
    && p.binds.all (fun i => ws.contains i.word && (!i.late || t.opnds.any (fun o => o.bind && i.base == o.va && i.ext == o.extent))) && ws.all (fun w => x.placeOf t c p.binds derrick w != .bad)
    && (match p.drain with
      | none => !(p.qid == 0 && c.op == 0x10 && c.b 1 15)
      | some d => p.qid == 0 && c.op == 0x10 && c.b 1 15 && d.va % 64 == 0 && inside d.va 64 x.wa x.wsz
          && p.binds.any (fun i => i.word == 6 && i.va == d.va && !i.late)
          && d.binds.all (fun i => (drainWords d.cmd).contains i.word && (!i.late || t.opnds.any (fun o => o.bind && i.base == o.va && i.ext == o.extent))))

/-- Which loops an operation may take: its own function, and what R158 and R76 put before or after engine work. The statistics of NORM and SOFTMAX are
RED's (R158), and SORT takes a Microscaling operand as LX16 codes (R76). -/
def mayLoop (t : TOp) (f : LoopFn) (ins : List Opnd) (out : Opnd) : Bool :=
  let whole := fun (n : Nat) => ins == t.opnds.take n && out == t.opnd n
  let axis := t.f 1 5 4
  match t.op, f with
  | 0x0010, .unary g => g == t.word 1 && whole 1
  | 0x0011, .binary g => g == t.word 1 && whole 2
  | 0x0012, .fold g a => g == t.f 1 3 0 && a == axis && whole 1
  | 0x0013, .exps a => a == axis && ins.length == 2
  | 0x0013, .scale a => a == axis && ins.length == 2 && out == t.opnd 1
  | 0x0014, .norm m e => m == t.word 1 && e == t.word 2 && out == t.opnd 2
  | 0x0023, .sort a => a == axis && out == t.opnd 1 && (if typeMx (t.opnd 0).typ then ins.all (fun o => o.typ == 2 && o.dims == (t.opnd 0).dims) && ins.length == 1
      else ins == [t.opnd 0])
  | 0x0031, .random p => p == t.word 1 && ins.isEmpty && out == t.opnd 0
  | 0x0001, .unary _ => t.onMason && ins.length == 1
  | 0x0001, .binary _ => t.onMason && ins.length == 2
  | _, .convert => ins.length == 1
  | _, _ => false

/-- A loop is well formed: it is its operation's, its operands are the operation's or lie in the work area, and each core of the gang has its even
share (R297). -/
def Tr.loopOk (x : Tr) (t : TOp) (l : List OpStep) (st : OpStep) (f : LoopFn) (ins : List Opnd) (out : Opnd) (first count : Nat) : Bool :=
  let g := gangOf x.mask
  let mine := unitShare (unitCount f ins out) (g.findIdx (· == st.core)) g.length
  mayLoop t f ins out && (first, count) == mine
    && (out :: ins).all (fun o => !o.reg && (t.opnds.contains o || inside o.va o.extent x.wa x.wsz)
        && (if o == out then typeLoopOut o.typ else typeLoopIn o.typ))
    && g.all (fun b => (ofCore l b).any (fun s => match s.kind with | .loop f2 i2 o2 _ _ => f2 == f && i2 == ins && o2 == out | _ => false))
where
  /-- The benches of a mask. -/
  gangOf (mask : Nat) : List Nat := (List.range 24).filter (fun b => mask.testBit b)

/-- A step is well formed. -/
def Tr.stepOk (x : Tr) (k : Nat) (st : OpStep) : Bool :=
  let t := x.top (st.opOf k)
  x.mask.testBit st.core && decide (st.core < 24)
    && st.guards.all (fun g => match g with | .wide j _ => (x.top j).wide && decide (j ≤ k) | .stale j r => j == k && (x.top j).opnds.any (fun o => o.reg && o.region == r))
    && (match st.kind with
      | .push p => x.pushOk t p
      | .await c _ => x.counter c
      | .signal c _ => x.counter c
      | .pin r => t.opnds.any (fun o => o.reg && o.region == r)
      | .unpin r => t.opnds.any (fun o => o.reg && o.region == r)
      | .judge j _ => j == k && st.redo.isNone && t.wide
      | .formed j r => j == k && st.guards.contains (.stale k r)
      | .claim a b => t.op == 0x31 && a == t.word 2 && b == putBits (t.word 3) 15 8 (t.word 1)
      | .loop f ins out first count => x.loopOk t (x.of k) st f ins out first count)

/-! ## Products (R68, R112, R118, R138, R158, R187 to R192, R297) -/

/-- The format that an operand enters the array in (R49): Microscaling as LX16. -/
def arrayFmt (typ : Nat) : Nat := if typeMx typ then 2 else typ % 4
/-- The format of two operands, the narrower one widened (R49). LX8 and LG8 both become LX16, and LX16 beside LG16 becomes LG16 (DESIGN CHOICE, log 23). -/
def mateFmt (a b : Nat) : Nat := if a = b then a else if a + b = 1 then 2 else max a b

/-- FMT and ACT_MX of a forward tile by the TYPEs of X and W, and of its wide variant (R49, R130); narrow weights leave it to X (R149). -/
def forwardFmt (x w : Nat) (wide : Bool) : Nat × Nat :=
  let f := if typeNw w then arrayFmt x else mateFmt (arrayFmt x) (arrayFmt w)
  if wide then (if f = 1 ∨ f = 3 then 3 else 2, 0) else if typeMx x then (f, if f = 2 then x - 8 else 0) else (f, 0)

/-- FMT of a gradient tile: by the width (R191), and of the wide variant of a NARROW one LG16 (R192). -/
def gradFmt (w : Nat) (wide : Bool) : Nat := if wide ∧ w = 1 then 3 else widthFmt w

/-- The operand of a gradient product that an identity pass may bring in (R189): W of an activation gradient, X of a weight gradient. -/
def TOp.passed (t : TOp) : Opnd := if t.isDx then t.opnd 1 else t.opnd 0

/-- PATH of a weight TYPE (R112). -/
def pathOf (typ : Nat) : Nat := if typ = 0x10 then 1 else if typ = 0x11 then 2 else 0

/-- The function of a UNARY that the drain of its producer applies (R121, R297): the producer has the function IDENTITY, the UNARY no steps, and its
input no other consumer. -/
def Tr.fusedInto (x : Tr) (k : Nat) : Option Nat :=
  let y := (x.top k).opnd 2
  x.ks.find? (fun j => decide (k < j) && (x.top j).op == 0x10 && (x.of j).isEmpty && ((x.top j).opnd 0).va == y.va && (x.top k).isMatmul && (x.top k).fn == 0
    && x.ks.all (fun i => i == j || i == k || (x.top i).opnds.all (fun o => o.reg || !overlap o.va o.extent y.va y.extent)))

/-- FN of the drain for a fused function: ReLU, or a table pair for a function of gate form. -/
def fnFused (f fn : Nat) : Bool := if f = 0x0B then fn == 1 else (f == 9 || f == 10) && (fn == 3 || fn == 4)

/-- The code of AUXFMT for an operand TYPE (R118). -/
def auxCode (typ : Nat) : Nat := if typ = 4 then 1 else if typ = 5 then 2 else 0

/-- The drain descriptor of a forward tile (R118, R297): its fields are PARAM's, or a fused UNARY's; NW weights have the SCALE of their rows (R138); a
recompute and a wide variant have NORERUN = 1 (R130, R184), and the latter the 16-bit log format of the family in the work area; the pre-activation
is written where one is flagged, but not in the forward pass of a checkpointed block (R183, R184). -/
def Tr.forwardDrain (x : Tr) (k : Nat) (st : OpStep) (d : Drain) : Bool :=
  let t := x.top k
  let c := d.cmd
  let wide := st.isWide k
  let fused := x.fusedInto k
  let out := match fused with | some j => (x.top j).opnd 1 | none => t.opnd 2
  let aux := t.pre.isSome && (st.redo.isSome || !x.inBlock k)
  let place := fun (w : Nat) => x.placeOf (match fused with | some j => { t with opnds := t.opnds.set 2 ((x.top j).opnd 1) } | none => t) c d.binds false w
  c.f 0 45 44 == 0 && (match fused with | some j => fnFused ((x.top j).word 1) (c.f 0 43 40) | none => c.f 0 43 40 == t.fn)
    && c.b 0 39 == t.rowScale && c.b 0 38 == t.hasBias && c.b 0 37 == (t.hasScale || typeNw (t.opnd 1).typ) && c.b 0 36 == t.clip
    && c.f 2 63 48 == t.f 1 47 32 && c.f 2 47 32 == t.f 1 63 48 && (!t.clip || c.w 6 == t.word 2)
    && (c.b 0 9 || !(wide || st.redo.isSome))
    && (if wide then c.f 0 55 52 == (if out.typ = 1 ∨ out.typ = 3 then 3 else 2) && c.f 0 51 48 == 0
        else ofmtType (c.f 0 55 52) (c.f 0 51 48) == out.typ)
    && c.b 0 35 == aux && (match t.pre with | some i => !aux || c.f 0 34 32 == auxCode (t.opnd i).typ | none => true)
    && (drainWords c).all (fun w => place w != .bad)

/-- The drain descriptor of a gradient tile (R118, R192): gradient mode with the derivative of the previous layer's function, its slope and its clip, for
an activation gradient, IDENTITY for a weight gradient; the wide variant writes LG16. -/
def Tr.gradDrain (x : Tr) (k : Nat) (st : OpStep) (d : Drain) : Bool :=
  let t := x.top k
  let c := d.cmd
  let wide := st.isWide k
  let fn := if t.isDx then t.fn else 0
  let clip := t.isDx && t.clip
  c.f 0 45 44 == 1 && c.f 0 43 40 == fn && !c.b 0 39 && !c.b 0 38 && !c.b 0 37 && c.b 0 36 == clip && (!clip || c.w 6 == t.word 2)
    && (!t.isDx || c.f 2 63 48 == t.f 1 47 32) && c.b 0 35 == (fn != 0) && (c.b 0 9 || !wide)
    && c.f 0 51 48 == 0 && c.f 0 55 52 == (if wide then 3 else (t.opnd 2).typ)
    && (match t.pre with | some i => fn == 0 || c.f 0 34 32 == auxCode (t.opnd i).typ | none => true)
    && (drainWords c).all (fun w => x.placeOf t c d.binds false w != .bad)

/-- The drain descriptor of an identity pass (R189): the FMT of the gradient tile that reads it, which a wide variant has wide, and NW codes under their
rows' SCALE. -/
def Tr.identityDrain (x : Tr) (k : Nat) (st : OpStep) (d : Drain) : Bool :=
  let t := x.top k
  let c := d.cmd
  c.f 0 45 44 == 0 && c.f 0 43 40 == 0 && !c.b 0 39 && !c.b 0 38 && !c.b 0 36 && !c.b 0 35 && c.b 0 37 == typeNw t.passed.typ
    && c.f 0 55 52 == gradFmt t.gradw (st.isWide k) && c.f 0 51 48 == 0 && (drainWords c).all (fun w => x.placeOf t c d.binds false w != .bad)

/-- A TILE of a product (R68, R112): forward in Class A, or D by FORCE_D; a gradient in Class D with the FMT of its width (R191); an identity pass in
Class A with G = 4, KPASS = 32, and two passes for NW2 (R189). -/
def Tr.tileOk (x : Tr) (k : Nat) (st : OpStep) (p : Push) : Bool :=
  let t := x.top k
  let c := p.cmd
  let head := fun (f : Nat × Nat) (path : Nat) => c.f 1 7 4 == f.1 && c.f 1 11 8 == f.2 && c.f 1 13 12 == path
  if t.isMatmul then
    c.b 1 0 == t.forceD && c.f 1 3 2 == t.group && c.f 1 27 16 == t.anchor && head (forwardFmt (t.opnd 0).typ (t.opnd 1).typ (st.isWide k)) (pathOf (t.opnd 1).typ)
      && p.drain.all (x.forwardDrain k st)
  else if c.b 1 0 then
    c.f 1 27 16 == t.anchor && head (gradFmt t.gradw (st.isWide k), 0) 0 && p.drain.all (x.gradDrain k st)
  else
    let o := t.passed
    (typeMx o.typ || typeNw o.typ) && c.f 1 3 2 == 0 && c.b 1 15 && !c.b 1 14 && c.f 2 13 8 == 32 && c.f 2 31 16 == (if o.typ = 0x11 then 2 else 1)
      && head (if typeNw o.typ then (0, 0) else (2, o.typ - 8)) (pathOf o.typ) && p.drain.all (x.identityDrain k st)

/-- The bytes that LOAD writes at an address. -/
def Tr.written (x : Tr) (a n : Nat) : Option Bytes :=
  (x.writes.find? (fun w => inside a n w.1 w.2.length)).map (fun w => (w.2.drop (a - w.1)).take n)

/-- Row r of the identity plane in LX16: +1.0 on the diagonal, the zero code elsewhere (R189). -/
def identityRow (r : Nat) : Bytes := (List.range 512).flatMap (fun n => leBytes 2 (if n = r then 0x0000 else 0x4000))
/-- A unit row in LX8: +1.0 at K-value r, the zero code elsewhere (R189). -/
def unitRow (r n : Nat) : Bytes := (List.range n).map (fun v => if v = r % n then 0x00 else 0x40)

/-- The rows that a load takes from what LOAD wrote. -/
def Tr.rowsWritten (x : Tr) (p : Push) (n : Nat) (row : Nat → Bytes) : Bool :=
  match p.binds.find? (fun i => i.word == 2) with
  | some i => (List.range (p.cmd.f 1 63 48)).all (fun r => x.written (i.va + r * p.cmd.f 4 31 0) n == some (row r))
  | none => false

/-- The code of a TYPE as SFMT (R256). -/
def sfmtOf (typ : Nat) : Nat := if typeNw typ then typ - 0x10 + 5 else typ

/-- An MM of a product (R152, R158): the passes that ATTR names, not in FL19. -/
def mmOk (t : TOp) (p : Push) : Bool := p.cmd.f 2 41 40 == t.spasses && !p.cmd.b 2 39

/-- Are the weights of the layer frozen whose weight gradient this is (R193): does a forward product of the same X read them from a frozen region, and
an activation gradient of the same dY pass through them? -/
def Tr.frozenLayer (x : Tr) (k : Nat) : Bool :=
  let t := x.top k
  x.ks.any (fun j =>
    let w := (x.top j).opnd 1
    (x.top j).isMatmul && ((x.top j).opnd 0).va == (t.opnd 0).va && w.reg && x.frozen.contains w.region && w.matrix == ((t.opnd 2).rows, (t.opnd 2).last)
      && x.ks.any (fun i => (x.top i).isDx && ((x.top i).opnd 0).va == (t.opnd 1).va && (x.top i).opnd 1 == w))

/-- A step of a product: its tile or MM. -/
def Tr.productStep (x : Tr) (j : Nat) (st : OpStep) : Bool := st.tile?.all (x.tileOk j st) && (st.cmd? 1 0x40).all (mmOk (x.top j))

end Sys2Proof.Machine
end

