-- ==== Sys2Proof/Machine/Cover.lean ====
section
/-! DEFINITION. What a translated product computes (R53, R68, R86 to R95, R99, R138, R139, R145, R152, R187 to R190, R194, R256, R259, R297): the blocks
of its output that its tiles drain, the passes of each reduction, and for each pass the plane and the beats that the loads bring. -/
namespace Sys2Proof.Machine

/-! ## Blocks of a matrix -/

/-- A block of a matrix: its first row, rows, first column, columns. -/
structure Block where
  r : Nat
  n : Nat
  c : Nat
  m : Nat
  deriving DecidableEq, Repr

/-- The same block of the transpose. -/
def Block.turn (b : Block) : Block := ⟨b.c, b.m, b.r, b.n⟩
/-- Does an element lie in a block? -/
def Block.has (b : Block) (i j : Nat) : Bool := decide (b.r ≤ i) && decide (i < b.r + b.n) && decide (b.c ≤ j) && decide (j < b.c + b.m)
/-- Have two blocks an element in common? -/
def Block.meets (a b : Block) : Bool :=
  decide (a.r < b.r + b.n) && decide (b.r < a.r + a.n) && decide (a.c < b.c + b.m) && decide (b.c < a.c + a.m)

/-- Do blocks cover a matrix? An element that none holds could be moved up to row 0 or the end of a block, and then left to column 0 or the end of one. -/
def covers (rows cols : Nat) (l : List Block) : Bool :=
  (0 :: l.map (fun b => b.r + b.n)).all (fun i =>
    decide (rows ≤ i) || (0 :: l.map (fun b => b.c + b.m)).all (fun j => decide (cols ≤ j) || l.any (fun b => b.has i j)))
/-- Have no two blocks an element in common? -/
def apart (l : List Block) : Bool := l.zipIdx.all (fun p => (l.drop (p.2 + 1)).all (fun b => !p.1.meets b))

/-- The bit address of element j of row i. -/
def Opnd.elem (o : Opnd) (i j : Nat) : Nat := o.bitAt (unflat o.dims (i * o.last + j))

/-- The block of a matrix that n source rows of `len` elements name, the first at byte a and each `stride` bytes on, where `span` of them, 512 elements
apart, make one row (R139). -/
def Opnd.rect (o : Opnd) (a n len stride span : Nat) : Option Block :=
  let w := typeBits o.typ
  ((List.range o.rows).find? (fun i => decide (o.elem i 0 ≤ 8 * a) && decide (8 * a < o.elem i 0 + o.last * w))).bind (fun i =>
    let j := (8 * a - o.elem i 0) / w
    if n % span == 0 && decide (i + n / span ≤ o.rows) && decide (j + 512 * (span - 1) + len ≤ o.last) && o.elem i (j + len - 1) == o.elem i j + (len - 1) * w
        && (List.range n).all (fun r => o.elem (i + r / span) (j + 512 * (r % span)) == 8 * (a + r * stride))
    then some ⟨i, n / span, j, 512 * (span - 1) + len⟩ else none)

/-- The transpose of a matrix, in the same place. -/
def Opnd.flip (o : Opnd) : Opnd :=
  { o with dims := [o.dim 1, o.dim 0, 1, 1], strides := [o.strides.getD 1 0, o.strides.getD 0 0, 0] }

/-- The address that a word of a command names: what it is bound to, or what it holds. -/
def placeIn (binds : List Bind) (c : Cmd) (w : Nat) : Nat := match binds.find? (fun i => i.word == w) with
  | some i => i.va
  | none => c.f w 47 0
def Push.at (p : Push) (w : Nat) : Nat := placeIn p.binds p.cmd w
def Drain.at (d : Drain) (w : Nat) : Nat := placeIn d.binds d.cmd w

/-! ## Where operands lie (R40, R43, R130, R187 to R190) -/

/-- An operand where the operation names it: Microscaling weights and NW codes lie as the transpose of W. -/
def TOp.own (t : TOp) (i : Nat) : Buf := { i, o := t.opnd i, turned := i == 1 && !t.isDw && (typeMx (t.opnd 1).typ || typeNw (t.opnd 1).typ) }
/-- Rows and columns of the matrix that an operand is. -/
def TOp.shape (t : TOp) (i : Nat) : Nat × Nat := if i == 1 && !t.isDw then (t.opnd 1).matrix else ((t.opnd i).rows, (t.opnd i).last)
/-- The length of a product's reduction (R187). -/
def TOp.redLen (t : TOp) : Nat := if t.isMatmul then (t.opnd 1).matrix.1 else if t.isDx then (t.opnd 1).matrix.2 else (t.opnd 0).rows

/-- The buffers of an operation. -/
def Tr.bufsOf (x : Tr) (k : Nat) : List Buf := x.bufs.getD k []
/-- The operand that holds an operation's output: that of a UNARY fused into its drain, if one is. -/
def Tr.outOf (x : Tr) (k : Nat) : Opnd := match x.fusedInto k with
  | some j => (x.top j).opnd 1
  | none => (x.top k).opnd 2
/-- The wide buffers of an operation's output (R130). -/
def Tr.wideBufs (x : Tr) (k : Nat) : List Buf := (x.bufsOf k).filter (fun b => b.i == 2 && b.wide)
/-- The earlier operations with wide fallback whose output an operand is (R130). -/
def Tr.widesOf (x : Tr) (k i : Nat) : List Nat :=
  let o := (x.top k).opnd i
  x.ks.filter (fun j => decide (j < k) && (x.top j).wide && (x.top j).isProduct && !(x.top j).onMason && !o.reg && (x.outOf j).va == o.va)
/-- The cases that an operation's guards tell apart: which of the operations that it reads from ran wide. -/
def Tr.cases (x : Tr) (k : Nat) : List (List Nat) :=
  ((List.range (x.top k).opnds.length).flatMap (x.widesOf k)).eraseDups.foldr (fun j l => l ++ l.map (j :: ·)) [[]]
/-- Is a step made where exactly the operations `on` ran wide, and its own operation did or not? -/
def OpStep.inCase (st : OpStep) (k : Nat) (on : List Nat) (wide : Bool) : Bool :=
  st.guards.all (fun g => match g with
    | .wide j v => if j == k then v == wide else on.contains j == v
    | .stale _ _ => true)
/-- Where an operation may read an operand: where it names it, or the wide buffer of what wrote it, and its own buffers of it. -/
def Tr.views (x : Tr) (k i : Nat) (on : List Nat) : List Buf :=
  let js := (x.widesOf k i).filter on.contains
  (if js.isEmpty then [(x.top k).own i] else js.flatMap x.wideBufs) ++ (x.bufsOf k).filter (fun b => b.i == i && i != 2 && b.wide == !js.isEmpty)

/-! ## What a derrick brings (R256, R259) -/

/-- Is a descriptor's source format Microscaling or NW, whose source rows are columns of a plane? -/
def native (c : Cmd) : Bool := decide (5 ≤ c.f 1 23 20) && c.f 1 23 20 != 15

/-- Are the scales or the metadata that go with a block where the descriptor names them? -/
def metaAt (o : Opnd) (p : Push) (b : Block) : Bool :=
  if typeMx o.typ then p.at 7 == o.side + (b.r * o.last + b.c) / 32 && (if p.cmd.op = 0x73 then p.cmd.f 7 63 48 else p.cmd.f 5 15 0) == o.last / 32
  else !typeNw o.typ || p.at 7 == o.side + 4 * b.r

/-- The block that a descriptor reads, of the matrix or, for `turned`, of its transpose, from one of the places where that lies; `span` slots make a
row. -/
def readBlock (vs : List Buf) (turned : Bool) (p : Push) (span : Nat) : Option Block :=
  let c := p.cmd
  vs.findSome? (fun v =>
    if (v.turned != turned) == c.b 1 24 && c.f 1 23 20 == sfmtOf v.o.typ && v.o.reg == (c.f 1 29 28 == 3) then
      (v.o.rect (p.at 2) (c.f 1 63 48) (c.f 1 47 32) (c.f 4 31 0) span).bind (fun b =>
        if metaAt v.o p b then some (if c.b 1 24 then b.turn else b) else none)
    else none)

/-- The block of a plane, K-values by columns, that a PLANE loads. -/
def planeBlock (vs : List Buf) (turned : Bool) (p : Push) : Option Block :=
  (readBlock vs (turned != native p.cmd) p 1).map (fun b => if native p.cmd then b.turn else b)

/-- The block that a COPY brings from one of some places into a buffer: between log formats, or as it is. -/
def copyBlock (vs : List Buf) (b : Buf) (p : Push) : Option Block :=
  let c := p.cmd
  let t := c.b 1 24
  let raw := c.f 1 23 20 == 15 && c.f 1 19 16 == 15 && !t
  let fits := fun (v : Buf) => if raw then v.o.typ == b.o.typ && 8 * 2 ^ c.f 1 31 30 == typeBits b.o.typ else typeLog v.o.typ && typeLog b.o.typ && c.f 1 19 16 == b.o.typ
  match b.o.rect (p.at 3) (if t then c.f 1 47 32 else c.f 1 63 48) (if t then c.f 1 63 48 else c.f 1 47 32) (c.f 4 63 32) 1 with
  | none => none
  | some d => if (vs.filter fits).any (fun v => readBlock [v] b.turned (if raw then { p with cmd := c.set 1 (BitVec.ofNat 64 (putBits (c.w 1) 23 20 (sfmtOf v.o.typ))) } else p) 1 == some d)
    then some d else none

/-- The block of a buffer of a log format that a FILL sets to the zero code (R53). -/
def zeroBlock (b : Buf) (p : Push) : Option Block :=
  let w := typeBits b.o.typ
  if typeLog b.o.typ && p.cmd.w 5 == (if w = 8 then 0x4040404040404040 else 0x4000400040004000) && p.cmd.f 1 47 32 * 8 % w == 0 then
    b.o.rect (p.at 3) (p.cmd.f 1 63 48) (p.cmd.f 1 47 32 * 8 / w) (p.cmd.f 4 63 32) 1
  else none

/-! ## Tiles and passes (R86, R89 to R95, R99) -/

/-- A tile of a product: its operation, its core and its push. -/
structure TileOf where
  k : Nat
  core : Nat
  p : Push
  deriving DecidableEq, Repr

/-- The tiles of an operation in a case and variant: of its product, or of its identity passes (R189). -/
def Tr.tilesOf (x : Tr) (k : Nat) (on : List Nat) (wide ident : Bool) : List TileOf :=
  ((x.of k).filter (fun st => st.redo.isNone && st.isWide k == wide && st.inCase k on wide)).filterMap (fun st =>
    (st.tile?.filter (fun p => (!(x.top k).isMatmul && !p.cmd.b 1 0) == ident)).map (fun p => ⟨k, st.core, p⟩))

/-- The tiles of the reduction that the tile at a place ends: those before it on its partial region, back to the one with CONTINUE = 0 (R93). -/
def chainOf (ts : List TileOf) (i : Nat) : List TileOf :=
  match ts[i]? with
  | none => []
  | some f =>
    if !f.p.cmd.b 1 14 then [f]
    else
      let back := (ts.take i).reverse.filter (fun t => t.p.at 3 == f.p.at 3)
      (f :: back.takeWhile (fun t => t.p.cmd.b 1 14) ++ (back.dropWhile (fun t => t.p.cmd.b 1 14)).take 1).reverse

/-- Do tiles make one reduction: the first starts it, the last drains it, none between does (R93)? -/
def chainOk (l : List TileOf) : Bool := l.zipIdx.all (fun t => t.1.p.cmd.b 1 14 == (t.2 != 0) && t.1.p.cmd.b 1 15 == (t.2 + 1 == l.length))

/-- A pass: its core, its TILE, its number in the tile, the K-values that it takes, and the block of the output that its tile drains. -/
structure Pass where
  core : Nat
  c : Cmd
  p : Nat
  k0 : Nat
  kn : Nat
  out : Block
  deriving DecidableEq, Repr

/-- The passes of some tiles of one reduction, in order: each takes the next K-values, the two bit-planes of NW2 the same ones (R136, R139). -/
def passesOf (out : Block) : Nat → List TileOf → List Pass
  | _, [] => []
  | k0, t :: r =>
    let c := t.p.cmd
    let kn := 16 * c.f 2 13 8 * (if c.f 1 13 12 = 0 then 1 else 4)
    let dup := if c.f 1 13 12 = 2 then 2 else 1
    (List.range (c.f 2 31 16)).map (fun p => ⟨t.core, c, p, k0 + kn * (p / dup), kn, out⟩) ++ passesOf out (k0 + kn * (c.f 2 31 16 / dup)) r

/-- SPAN of a pass (R139). -/
def Pass.span (q : Pass) : Nat := if q.c.f 1 13 12 = 0 then 1 else cdiv (16 * q.c.f 2 13 8) 128
/-- Is a PLANE of a core the load of a pass's plane: its bench, its plane, its tag (R95, R99)? -/
def Pass.planeIs (q : Pass) (core : Nat) (c : Cmd) : Bool :=
  core == q.core && c.f 6 63 59 == q.core && c.f 6 58 58 == (b2n (q.c.b 2 48) + q.p) % 2 && c.f 6 57 54 == (q.c.f 0 43 40 + 7 * q.p) % 16
/-- Is a SLOTFILL of a core one that brings the rows of a block to a pass: its bench, its tags, its SPAN, and the END mark with the last row (R99, R259)? -/
def Pass.fillIs (q : Pass) (core : Nat) (c : Cmd) (b : Block) : Bool :=
  core == q.core && c.f 6 63 59 == q.core && decide (q.out.r ≤ b.r) && decide (b.r + b.n ≤ q.out.r + q.out.n)
    && c.f 6 47 44 == (q.c.f 0 43 40 + 7 * q.p + (b.r - q.out.r)) % 16 && c.f 6 43 41 == q.span && c.b 6 40 == (b.r + b.n == q.out.r + q.out.n)
    && (!c.b 6 40 || c.f 7 63 48 + 1 == c.f 6 58 48 + c.f 1 63 48 || decide (c.f 7 63 48 < c.f 6 58 48))

/-- Is a PLANE in the format of its tile (R49, R95, R149)? PFMT becomes SFMT, so a log plane is loaded as it is to be used (R259). BIT is the bit-plane
of an NW2 pass; with an activation zero point every K-value of the pass is one of the layer's (R145). -/
def Pass.planeFmt (q : Pass) (c : Cmd) (len : Nat) : Bool :=
  let f := c.f 1 23 20
  c.f 1 19 16 == f
    && (if q.c.f 1 13 12 ≠ 0 then f == 4 + q.c.f 1 13 12 && c.b 6 49 == (q.c.f 1 13 12 == 2 && q.p % 2 == 1) && (c.f 6 48 33 == 0x4000 || decide (q.k0 + q.kn ≤ len))
        else f == q.c.f 1 7 4 || (decide (9 ≤ f) && q.c.f 1 7 4 == 2))
/-- Is a SLOTFILL in the format of its tile: Microscaling elements as they are, or a log format, converted in flight if it must be (R30, R49)? -/
def Pass.fillFmt (q : Pass) (c : Cmd) : Bool :=
  if q.c.f 1 11 8 ≠ 0 then c.f 1 23 20 == 8 + q.c.f 1 11 8 && c.f 1 19 16 == c.f 1 23 20 else c.f 1 19 16 == q.c.f 1 7 4 && decide (c.f 1 23 20 < 4)

/-- What a pass takes its operands from: the places of the plane's and of the beats' operand, and whether each is wanted transposed (R187). -/
structure Sides where
  plane : List Buf
  beats : List Buf
  planeTurned : Bool
  beatsTurned : Bool
  len : Nat
  deriving DecidableEq, Repr

/-- The sides of a product in a case. -/
def Tr.sides (x : Tr) (k : Nat) (on : List Nat) : Sides :=
  let t := x.top k
  if t.isMatmul then ⟨x.views k 1 on, x.views k 0 on, false, false, t.redLen⟩
  else if t.isDx then ⟨x.views k 1 on, x.views k 0 on, true, false, t.redLen⟩
  else ⟨x.views k 1 on, x.views k 0 on, false, true, t.redLen⟩

/-- Does a PLANE serve a pass: the weights of its K-values and columns, the cells past them being zero (R53, R86, R187)? -/
def Sides.planeFor (s : Sides) (q : Pass) (l : Nat × Push) : Bool :=
  q.planeIs l.1 l.2.cmd && q.planeFmt l.2.cmd s.len
    && (planeBlock s.plane s.planeTurned l.2).any (fun b => b.r == q.k0 && decide (min q.kn (s.len - q.k0) ≤ b.n) && b.c == q.out.c && decide (q.out.m ≤ b.m))
/-- The rows that a SLOTFILL brings to a pass: all its K-values, those past the reduction from a buffer padded with zero codes (R53, R86, R187). -/
def Sides.fillFor (s : Sides) (q : Pass) (l : Nat × Push) : Option Block :=
  (readBlock s.beats s.beatsTurned l.2 q.span).filter (fun b => q.fillIs l.1 l.2.cmd b && q.fillFmt l.2.cmd && b.c == q.k0 && decide (q.kn ≤ b.m))

/-- The loads of a case and variant. -/
def Tr.loadsOf (x : Tr) (k op : Nat) (on : List Nat) (wide : Bool) : List (Nat × Push) :=
  ((x.of k).filter (fun st => st.redo.isNone && st.isWide k == wide && st.inCase k on wide)).filterMap (fun st => (st.load? op).map (fun p => (st.core, p)))

/-! ## Drains (R117, R118, R125) -/

/-- The block of the output that a tile's descriptor writes: rows of the tile by NCOLS, in a place of its TYPE, with the scales that go with it. -/
def drainBlock (vs : List Buf) (p : Push) : Option Block :=
  p.drain.bind (fun d => vs.findSome? (fun v =>
    if ofmtType (d.cmd.f 0 55 52) (d.cmd.f 0 51 48) == v.o.typ then
      (v.o.rect (d.at 1) (16 * p.cmd.f 2 7 0) (d.cmd.f 0 19 10) (64 * d.cmd.f 2 31 16) 1).filter (fun b =>
        (!typeMx v.o.typ || (d.at 7 == v.o.side + (b.r * v.o.last + b.c) / 32 && d.cmd.f 3 63 48 == v.o.last / 32))
          && (!d.cmd.b 0 39 || d.at 7 == v.o.side + 2 * b.r))
    else none))

/-- Does a raw COPY gather the SCALE codes of the rows c to c + m - 1 of NW weights at an address (R43, R138)? -/
def gathers (w : Opnd) (a c m : Nat) (p : Push) : Bool :=
  let k := p.cmd
  let from' := p.at 2
  let first := (from' - (w.side + 2)) / 4
  k.f 1 23 20 == 15 && k.f 1 19 16 == 15 && k.f 1 31 30 == 1 && !k.b 1 24 && k.f 1 47 32 == 1 && k.f 4 31 0 == 4 && k.f 4 63 32 == 2
    && w.reg == (k.f 1 29 28 == 3) && from' == w.side + 2 + 4 * first && decide (first ≤ c) && decide (c + m ≤ first + k.f 1 63 48)
    && a == p.at 3 + 2 * (c - first)

/-- Are the tables and pre-activations that a descriptor names those of its block (R118, R138): entry n of a table stands for the block's column n, the
SCALE codes of NW weights gathered anew each time, and pre-activations lie as the output does? -/
def Tr.tablesOk (x : Tr) (k : Nat) (b : Block) (d : Drain) : Bool :=
  let t := x.top k
  let c := d.cmd
  let nw := typeNw (t.opnd 1).typ && (t.isMatmul || !c.b 0 45 && !c.b 0 44)
  (!c.b 0 38 || !t.isMatmul || d.at 4 == (t.opnd 3).va + 4 * b.c)
    && (!c.b 0 37 || (if nw then ((x.of k).filter (fun st => st.redo.isNone)).any (fun st => (st.load? 0x70).any (gathers (t.opnd 1) (d.at 3) b.c b.m))
        else d.at 3 == (t.opnd (3 + b2n t.hasBias)).va + 2 * b.c))
    && (!c.b 0 35 || (match t.pre with
      | some i => (t.own i :: (x.bufsOf k).filter (fun v => v.i == i)).any (fun v => v.o.rect (d.at 5) b.n b.m (64 * c.f 2 15 0) 1 == some b)
      | none => false))

/-! ## Cover (R297) -/

/-- Are two activation gradients the parts of an adapter layer's (R194): with one dX, the first through a frozen matrix, the second of the dX of an
activation gradient that has the first one's dY? -/
def Tr.adapter (x : Tr) (a c : Nat) : Bool :=
  let t := x.top a
  let u := x.top c
  decide (a < c) && t.isDx && u.isDx && !t.onMason && !u.onMason && (t.opnd 2).va == (u.opnd 2).va && (t.opnd 1).reg && x.frozen.contains (t.opnd 1).region
    && x.ks.any (fun j => decide (j < c) && j != a && (x.top j).isDx && ((x.top j).opnd 2).va == (u.opnd 0).va && ((x.top j).opnd 0).va == (t.opnd 0).va)
/-- The other part of an adapter layer's gradient. -/
def Tr.partner (x : Tr) (k : Nat) : Option Nat := x.ks.find? (fun j => x.adapter j k || x.adapter k j)

/-- Where the tiles of a variant drain to: the wide buffer, or the output and its buffers. -/
def Tr.outs (x : Tr) (k : Nat) (wide : Bool) : List Buf :=
  if wide then x.wideBufs k else { i := 2, o := x.outOf k } :: (x.bufsOf k).filter (fun b => b.i == 2 && !b.wide)

/-- The reductions of a product, as the tiles of each with the block that its last one drains. -/
def Tr.chains (x : Tr) (k : Nat) (on : List Nat) (wide : Bool) : List (List TileOf × Option Block) :=
  let ts := match x.partner k with
    | none => x.tilesOf k on wide false
    | some j => x.tilesOf (min j k) on wide false ++ x.tilesOf (max j k) on wide false
  (ts.zipIdx.filter (fun t => t.1.p.cmd.b 1 15)).map (fun t => (chainOf ts t.2, drainBlock (x.outs t.1.k wide) t.1.p))

/-- Do passes take the whole of a reduction: in order, none past its end, a weight gradient one for each 512 tokens (R53, R187)? -/
def passesOk (dw : Bool) (len : Nat) (l : List Pass) : Bool :=
  l.all (fun q => decide (q.k0 < len)) && l.getLast?.any (fun q => decide (len ≤ q.k0 + q.kn)) && (!dw || l.length == cdiv len 512)

/-- The passes of an identity tile with the block that it drains into one of the operand's buffers (R189). -/
def Tr.identPasses (x : Tr) (k : Nat) (on : List Nat) (wide : Bool) : List (Option Pass) :=
  let t := x.top k
  let i := if t.isDx then 1 else 0
  let vs := (x.bufsOf k).filter (fun b => b.i == i && b.turned == (t.own i).turned && typeMx t.passed.typ || b.i == i && !b.turned && typeNw t.passed.typ)
  (x.tilesOf k on wide true).flatMap (fun u => (List.range (u.p.cmd.f 2 31 16)).map (fun p =>
    (drainBlock vs u.p).map (fun b => (⟨u.core, u.p.cmd, p, (if typeNw t.passed.typ then b.r / 2048 * 2048 else 0), (if typeNw t.passed.typ then 2048 else 512), b⟩ : Pass))))

/-- Does a load serve an identity pass (R189)? For a Microscaling operand the plane is the identity and the beats are the block's own rows; for NW weights
the plane is that of the codes, with a zero code as AZP, and the beats are unit rows, four slots to a beat. -/
def Tr.identServes (x : Tr) (k : Nat) (q : Pass) (plane : Bool) (l : Nat × Push) : Bool :=
  let t := x.top k
  let o := t.passed
  let own := t.own (if t.isDx then 1 else 0)
  let c := l.2.cmd
  let unit := fun (f : Nat) => !c.b 1 24 && c.f 1 23 20 == f && c.f 1 19 16 == f
  if typeMx o.typ then
    (if plane then q.planeIs l.1 c && unit 2 && c.f 1 63 48 == 512 && x.rowsWritten l.2 1024 identityRow
     else q.fillFmt c && (readBlock [own] own.turned l.2 1).any (fun b => q.fillIs l.1 c b && b.c == q.out.c && b.m == q.out.m))
  else typeNw o.typ && decide (q.out.r + q.out.n ≤ q.k0 + 2048)
    && (if plane then q.planeIs l.1 c && q.planeFmt c t.redLen && c.f 6 48 33 == 0x4000
          && (planeBlock [own] false l.2).any (fun b => b.r == q.k0 && decide (min 2048 ((t.shape 1).1 - q.k0) ≤ b.n) && b.c == q.out.c && decide (q.out.m ≤ b.m))
        else unit 0 && q.fillIs l.1 c q.out && c.f 1 63 48 == 4 * q.out.n && c.f 1 47 32 == 512
          && x.rowsWritten l.2 512 (fun r => ((unitRow (q.out.r - q.k0 + r / 4) 2048).drop (512 * (r % 4))).take 512))

/-- Has every identity pass its loads? A pass of a Microscaling operand may take its rows from several. -/
def Tr.identOk (x : Tr) (k : Nat) (on : List Nat) (wide : Bool) : Bool :=
  (x.identPasses k on wide).all (fun o => o.any (fun q =>
    (x.loadsOf k 0x73 on wide).any (x.identServes k q true)
      && (if typeNw (x.top k).passed.typ then (x.loadsOf k 0x72 on wide).any (x.identServes k q false)
          else
            let own := (x.top k).own (if (x.top k).isDx then 1 else 0)
            covers q.out.n 1 (((x.loadsOf k 0x72 on wide).filter (x.identServes k q false)).filterMap (fun l =>
              (readBlock [own] own.turned l.2 1).map (fun b => ⟨b.r - q.out.r, b.n, 0, 1⟩)))))
    && (x.tilesOf k on wide true).all (fun u => u.p.drain.all (fun d => (drainBlock (x.bufsOf k) u.p).all (fun b => x.tablesOk k b d))))

/-- A product on the array (R297): the blocks that its reductions drain cover the output, once each; every tile is of a reduction, every reduction takes
its whole length; every pass has its plane and all its rows, every load serves a pass; and the tables of each drain are its block's. -/
def Tr.coverOk (x : Tr) (k : Nat) (on : List Nat) (wide : Bool) : Bool :=
  let t := x.top k
  let out := x.outOf k
  let s := x.sides k on
  let cs := x.chains k on wide
  let planes := x.loadsOf k 0x73 on wide
  let fills := x.loadsOf k 0x72 on wide
  let blocks := cs.filterMap Prod.snd
  let passes := cs.flatMap (fun c => c.2.elim [] (fun b => passesOf b 0 (c.1.filter (fun u => u.k == k))))
  let idents := (x.identPasses k on wide).filterMap id
  blocks.length == cs.length && covers out.rows out.last blocks && apart blocks
    && cs.all (fun c => chainOk c.1 && c.2.all (fun b => passesOk t.isDw s.len (passesOf b 0 (c.1.filter (fun u => u.k == k)))))
    && (x.tilesOf k on wide false).all (fun u => cs.any (fun c => c.1.contains u))
    && passes.all (fun q => planes.any (s.planeFor q) && covers q.out.n 1 (fills.filterMap (fun l => (s.fillFor q l).map (fun b => ⟨b.r - q.out.r, b.n, 0, 1⟩))))
    && planes.all (fun l => passes.any (fun q => s.planeFor q l) || idents.any (fun q => x.identServes k q true l))
    && fills.all (fun l => passes.any (fun q => (s.fillFor q l).isSome) || idents.any (fun q => x.identServes k q false l))
    && cs.all (fun c => c.1.getLast?.all (fun u => u.k != k || (match u.p.drain, c.2 with
      | some d, some b => x.tablesOk k b d
      | _, _ => false)))
    && x.identOk k on wide

/-! ## Buffers -/

/-- Is a buffer of an operand filled in a case: by copies, with zero codes where it is larger, by a conversion, or by identity passes; `n` is its place
among the operation's buffers, of which it may be copied from an earlier one (R53, R188, R189)? -/
def Tr.filled (x : Tr) (k n : Nat) (b : Buf) (on : List Nat) : Bool :=
  let t := x.top k
  let steps := (x.of k).filter (fun st => st.redo.isNone && !st.isWide k && st.inCase k on false)
  let vs := (x.views k b.i on).filter (fun v => !((x.bufsOf k).drop n).contains v)
  let sh := if b.turned then (t.shape b.i).swap else t.shape b.i
  let into := fun (l : List OpStep) => l.filterMap (fun st => (st.load? 0x70).bind (copyBlock vs b))
  let zeros := (steps.takeWhile (fun st => ((st.load? 0x70).bind (copyBlock vs b)).isNone)).filterMap (fun st => (st.load? 0x71).bind (zeroBlock b))
  (covers sh.1 sh.2 (into steps) && (sh == (b.o.rows, b.o.last) || covers b.o.rows b.o.last (zeros ++ into steps)))
    || steps.any (fun st => match st.kind with
      | .loop .convert [i] o _ _ => vs.any (fun v => v.o == i && o == (if v.turned == b.turned then { b.o with dims := i.dims } else { b.o.flip with dims := i.dims }))
      | _ => false)
    || (x.identPasses k on false).length != 0 && covers sh.1 sh.2 ((x.tilesOf k on false true).filterMap (fun u => drainBlock [b] u.p))

/-- Is what a product drained beside its output brought there: copied or converted? -/
def Tr.staged (x : Tr) (k : Nat) (b : Buf) : Bool :=
  let out := x.outOf k
  let steps := (x.of k).filter (fun st => st.redo.isNone && !st.isWide k)
  covers out.rows out.last (steps.filterMap (fun st => (st.load? 0x70).bind (copyBlock [b] { i := 2, o := out })))
    || steps.any (fun st => match st.kind with
      | .loop .convert [i] o _ _ => o == out && i == { b.o with dims := out.dims }
      | _ => false)

/-! ## Products on the mason unit (R152, R158) -/

/-- The MMs of a product cover its output, each over the whole reduction or going on from the one before it on its block, with A and B where they lie. -/
def Tr.masonOk (x : Tr) (k : Nat) (on : List Nat) : Bool :=
  let t := x.top k
  let s := x.sides k on
  let mms := ((x.of k).filter (fun st => st.redo.isNone && st.inCase k on false)).filterMap (fun st => st.cmd? 1 0x40)
  let fp := fun (b : Buf) (f : Nat) => b.o.typ == 4 + f
  let side := fun (vs : List Buf) (f : Nat) (turned : Bool) (a n m st : Nat) =>
    vs.findSome? (fun (v : Buf) => if fp v f && v.turned == turned then v.o.rect a n m (64 * st) 1 else none)
  let blocks := mms.map (fun p =>
    let c := p.cmd
    let m := c.f 1 15 0
    let n := c.f 1 31 16
    let kk := c.f 1 47 32
    let outs := { i := 2, o := x.outOf k } :: (x.bufsOf k).filter (fun b => b.i == 2)
    match side s.beats (c.f 2 47 46) s.beatsTurned (p.at 3) m kk (c.f 3 63 48), side s.plane (c.f 2 45 44) s.planeTurned (p.at 4) kk n (c.f 4 63 48),
        side outs (c.f 2 43 42) false (p.at 5) m n (c.f 5 63 48) with
    | some a, some b, some o => if a.c == b.r && a.r == o.r && b.c == o.c then some (o, a.c, kk, c.b 2 37) else none
    | _, _, _ => none)
  let got := blocks.filterMap id
  !mms.isEmpty && got.length == mms.length && covers (x.outOf k).rows (x.outOf k).last (got.map (·.1))
    && got.all (fun g => if g.2.2.2 then got.any (fun h => h.1 == g.1 && h.2.1 + h.2.2.1 == g.2.1) else g.2.1 == 0)
    && got.all (fun g => got.any (fun h => h.1 == g.1 && h.2.1 + h.2.2.1 == t.redLen))

end Sys2Proof.Machine
end

