-- ==== Sys2Proof/Machine/Backward.lean ====
section
/-! DEFINITION. What the backward pass and wide fallback ask of a translation (R130, R183, R184, R186, R190, R193, R194, R203), the operations other
than products (R297), and the whole of what a LOAD asks (R299). -/
namespace Sys2Proof.Machine

/-! ## Wide fallback (R130) -/

/-- What a step reads as data: virtual ranges. -/
def OpStep.reads (st : OpStep) : List (Nat × Nat) :=
  match st.kind with
  | .push p => (p.binds.filter (fun i => (readWords p.qid p.cmd).contains i.word)).map (fun i => (i.va, i.len))
  | .loop _ ins _ _ _ => ins.map (fun o => (o.va, o.extent))
  | _ => []

/-- Do two steps do the same work with other operands: a command of one opcode in one queue, or a loop of one function? -/
def OpStep.alike (a b : OpStep) : Bool :=
  a.core == b.core && (match a.kind, b.kind with
    | .push p, .push q => p.qid == q.qid && p.cmd.op == q.cmd.op
    | .loop f _ _ _ _, .loop g _ _ _ _ => f == g
    | _, _ => false)

/-- The virtual place of a tile's status record. -/
def Push.status (p : Push) : Option Nat := (p.binds.find? (fun i => i.word == 5)).map Bind.va

/-- Wide fallback of an operation (R130): behind its last tile of each core a SYNC_SIGNAL with WHEN = 1; one judgement of the status records of all
its tiles; its wide variant only under the record, behind the judgement on the core that judges; and every later reader of its output, which a UNARY
fused into its drain gives it, reads the wide buffer where the record is set. A weight gradient's wide LG16 output (R192) may be converted back into dW,
which its add-memory and update take as FP32 or RF32. An operation that does not ask for a variant has none of this. -/
def Tr.wideOk (x : Tr) (k : Nat) : Bool :=
  let t := x.top k
  let own := (x.of k).filter (fun st => st.redo.isNone)
  let plain := own.filter (fun st => st.tile?.isSome && !st.isWide k)
  let judges := own.filterMap (fun st => match st.kind with | .judge _ l => some (st, l) | _ => none)
  if !(t.isProduct && t.wide) then judges.isEmpty && own.all (fun st => !st.isWide k)
  else if (t.isDw && x.frozenLayer k) || t.onMason then true
  else
    let marks := plain.filterMap (fun st => (st.tile?.filter (fun p => p.drain.isSome && !(t.isDx || t.isDw) || p.drain.isSome && p.cmd.b 1 0)).bind Push.status)
    let y := x.outOf k
    let held := fun (r : Nat × Nat) => (x.wideBufs k).any (fun b => inside r.1 r.2 b.o.va b.o.extent)
    let back := t.isDw && own.any (fun st => st.isWide k && (match st.kind with
      | .loop .convert [i] o _ _ => o == y && (x.wideBufs k).any (fun b => i == { b.o with dims := y.dims })
      | _ => false))
    judges.length == 1 && judges.all (fun j => marks.all j.2.contains && j.2.all marks.contains)
      && (List.range 24).all (fun b =>
        let l := ofCore own b
        let tail := (l.reverse.takeWhile (fun st => !(st.tile?.isSome && !st.isWide k))).reverse
        l.all (fun st => !(st.tile?.isSome && !st.isWide k)) || tail.any (fun st => (st.cmd? 0 0x21).any (fun p => p.cmd.b 1 8)))
      && judges.all (fun j => ((ofCore own j.1.core).takeWhile (fun st => st != j.1)).all (fun st => !st.isWide k))
      && own.any (fun st => st.isWide k && st.tile?.isSome)
      && (back || x.ks.all (fun i => i ≤ k || (x.of i).all (fun st =>
          !(st.reads.any (fun r => overlap r.1 r.2 y.va y.extent))
            || (st.guards.contains (.wide k false) && (x.of i).any (fun w => w.isWide k && w.alike st && w.reads.any held)))))

/-! ## Checkpointed blocks and recompute (R183, R184) -/

/-- Is a step one that only orders, pins, judges, forms or claims? -/
def OpStep.besides (st : OpStep) : Bool := match st.kind with
  | .push p => p.cmd.op == 0x20 || p.cmd.op == 0x21
  | .loop _ _ _ _ _ => false
  | _ => true

/-- A step as a forward pass and its recompute have it alike: whatever differs by R184 taken out, which is the pre-activation fields, NORERUN and
the place of the drain descriptor. -/
def OpStep.plain (st : OpStep) : OpStep :=
  let blind := fun (c : Cmd) =>
    (((c.set 0 (BitVec.ofNat 64 (putBits (putBits (putBits (c.w 0) 35 35 0) 34 32 0) 9 9 0))).set 2 (BitVec.ofNat 64 (putBits (c.w 2) 15 0 0))).set 5 0)
  { st with redo := none, kind := match st.kind with
    | .push p => .push (match p.drain with
      | some d => { p with binds := p.binds.filter (fun i => i.word != 6), drain := some { va := 0, cmd := blind d.cmd, binds := d.binds.filter (fun i => i.word != 5) } }
      | none => p)
    | z => z }

/-- The recompute steps of an operation, wherever they stand. -/
def Tr.redoOf (x : Tr) (a : Nat) : List OpStep := x.steps.flatten.filter (fun st => st.redo == some a)

/-- The operand that an operation writes. -/
def TOp.out (t : TOp) : Opnd := if t.isProduct then t.opnd 2 else if t.op = 0x40 then t.opnd 1 else t.opnd (t.opnds.length - 1)

/-- The operations of a block. -/
def blockOps (b : Nat × Nat) : List Nat := (List.range (b.2 + 1)).drop b.1

/-- Does a gradient product use what a block's forward pass does not keep: its input is an activation of the block, or its derivative is of one of
the block's pre-activations? -/
def Tr.needsBlock (x : Tr) (b : Nat × Nat) (k : Nat) : Bool :=
  let t := x.top k
  let i := t.opnd 0
  decide (b.2 < k)
    && ((t.isDw && (blockOps b).any (fun j => overlap (x.top j).out.va (x.top j).out.extent i.va i.extent))
      || (t.isDx && t.pre.any (fun p => (blockOps b).any (fun j => (x.top j).isMatmul && (x.top j).pre.any (fun q => ((x.top j).opnd q).va == (t.opnd p).va)))))

/-- Is a step the recompute of a forward step: the same work under the same guards, what is not the wide variant of an operation that has one only
where the record says so (R184)? -/
def OpStep.redone (a : Nat) (wide : Bool) (st w : OpStep) : Bool :=
  let g := if wide && !w.isWide a then w.guards ++ [.wide a false] else w.guards
  { st.plain with guards := [] } == { w.plain with guards := [] } && g.all st.guards.contains && st.guards.all g.contains

/-- The recompute of an operation is its forward steps again, core by core and in order, in the variant that the wide record names (R184); of a random
operation there is none. -/
def Tr.redoSame (x : Tr) (a : Nat) : Bool :=
  let t := x.top a
  let work := fun (l : List OpStep) (c : Nat) => ofCore (l.filter (fun st => !st.besides)) c
  if t.op = 0x31 then (x.redoOf a).isEmpty
  else (List.range 24).all (fun c =>
    let again := work (x.redoOf a) c
    let once := work ((x.of a).filter (fun st => st.redo.isNone)) c
    again.length == once.length && (again.zip once).all (fun p => p.1.redone a (t.isProduct && t.wide) p.2))

/-- The recompute of a block stands in operation h, behind the block and not behind what needs it, before h's own steps on every core. -/
def Tr.redoFirst (x : Tr) (b : Nat × Nat) (needs : List Nat) (h : Nat) : Bool :=
  decide (b.2 < h) && needs.all (fun n => decide (h ≤ n))
    && (List.range 24).all (fun c => ((ofCore (x.of h) c).dropWhile (fun st => st.redo.isSome)).all (fun st => st.redo.isNone))

/-- What the forward pass of a block keeps (R183): no operation of the block writes over the block's input, or over the output of a random operation
of the block. -/
def Tr.keeps (x : Tr) (b : Nat × Nat) : Bool :=
  let clear := fun (o : Opnd) (from' : Nat) => (blockOps b).all (fun j => j == from' || o.reg || !overlap (x.top j).out.va (x.top j).out.extent o.va o.extent)
  ((x.top b.1).op == 0x31 || clear ((x.top b.1).opnd 0) (b.2 + 1)) && (blockOps b).all (fun a => (x.top a).op != 0x31 || clear (x.top a).out a)

/-- A checkpointed block (R183, R184): its record is kept, and where a gradient product needs more, its recompute runs, once. -/
def Tr.blockOk (x : Tr) (b : Nat × Nat) : Bool :=
  let ops := blockOps b
  let homes := x.ks.filter (fun k => (x.of k).any (fun st => st.redo.any ops.contains))
  let needs := x.ks.filter (x.needsBlock b)
  x.keeps b && (homes.isEmpty && needs.isEmpty || homes.length == 1 && homes.all (x.redoFirst b needs) && ops.all x.redoSame)

/-- The pre-activations that a tile's descriptor names: a forward tile writes them, a gradient tile reads them. -/
def OpStep.preOf (st : OpStep) : Option Bind :=
  (st.tile?.bind Push.drain).bind (fun d => if d.cmd.b 0 35 then d.binds.find? (fun i => i.word == 5) else none)

/-- Does a recompute tile write pre-activations in a range? -/
def OpStep.redoes (r : Bind) (st : OpStep) : Bool := st.redo.isSome && st.preOf.any (fun i => overlap i.va i.len r.va r.len)

/-- Do some steps, behind the last that recomputes pre-activations in a range, signal a counter from the bench queue with WHEN = 1? -/
def signalsBehind (r : Bind) (counter : Nat) (l : List OpStep) : Bool :=
  (l.reverse.takeWhile (fun st => !st.redoes r)).any (fun st => (st.cmd? 0 0x21).any (fun p => p.cmd.b 1 8 && p.cmd.f 1 7 0 == counter))

/-- Does a gradient tile that reads pre-activations r, behind the steps `before` of its core b, wait for every other core that recomputes them? -/
def Tr.waitsFor (x : Tr) (k b : Nat) (before : List OpStep) (r : Bind) : Bool :=
  (List.range 24).all (fun c =>
    let theirs := ofCore ((x.steps.take (k + 1)).flatten) c
    c == b || !theirs.any (OpStep.redoes r)
      || before.any (fun st => (st.cmd? 0 0x20).any (fun p => signalsBehind r (p.cmd.f 1 7 0) theirs)))

/-- Pre-activations across benches (R186): a gradient tile whose descriptor reads pre-activations that recompute tiles of another bench write follows a
SYNC_WAIT on a counter that the other bench's queue signals with WHEN = 1 behind its last such tile. -/
def Tr.orderOk (x : Tr) (k : Nat) : Bool :=
  (x.top k).isMatmul || (x.of k).zipIdx.all (fun p =>
    p.1.redo.isSome || (match p.1.preOf with
      | none => true
      | some r => x.waitsFor k p.1.core (ofCore ((x.of k).take p.2) p.1.core) r))

/-! ## Versions (R190, R203) -/

/-- The regions that operations other than UPDATE read. -/
def Tr.regions (x : Tr) : List Nat := (x.tops.flatMap (fun t => if t.op = 0x41 then [] else (t.opnds.filter Opnd.reg).map Opnd.region)).eraseDups

/-- Does a step read a region through the version table? -/
def OpStep.readsRegion (st : OpStep) (r : Nat) : Bool :=
  st.push?.any (fun p => (p.qid == 3 || p.qid == 4) && (readWords p.qid p.cmd).contains 2 && p.cmd.f 1 29 28 == 3 && p.cmd.f 5 13 0 == r)

/-- Have all reads of a region completed when an unpin is made (R203): behind the last read in each derrick queue a SYNC_SIGNAL with WHEN = 1 adds to a
counter to which no read follows, and the core that unpins has waited for it? -/
def Tr.released (x : Tr) (r : Nat) (u : OpStep) : Bool :=
  let waits := ((ofCore x.steps.flatten u.core).takeWhile (fun st => st.kind != .unpin r)).filterMap (fun st => match st.kind with
    | .await c n => if 0 < n then some c else none
    | _ => none)
  (List.range 24).all (fun c => [3, 4].all (fun q =>
    let l := (ofCore x.steps.flatten c).filter (fun st => st.push?.any (fun p => p.qid == q))
    let tail := l.reverse.takeWhile (fun st => !st.readsRegion r)
    let adds := fun (i : Nat) (st : OpStep) => (st.cmd? q 0x21).any (fun p => p.cmd.b 1 8 && p.cmd.f 1 7 0 == i)
    l.all (fun st => !st.readsRegion r) || waits.any (fun i => tail.any (adds i) && (l.take (l.length - tail.length)).all (fun st => !adds i st))))

/-- One version for a micro-batch (R203, R184): CURRENT is pinned once, by the first operation that reads the region and, on the core that pins, before
its reads; every read is by the kept token; and the token is unpinned once, by the last operation that reads it, once every read has completed. -/
def Tr.pinOk (x : Tr) (r : Nat) : Bool :=
  let users := x.ks.filter (fun k => (x.of k).any (fun st => st.readsRegion r))
  let all := x.ks.flatMap (fun k => (x.of k).map (fun st => (k, st)))
  let pins := all.filter (fun p => p.2.kind == .pin r)
  let unpins := all.filter (fun p => p.2.kind == .unpin r)
  all.all (fun p => !p.2.readsRegion r || p.2.push?.any (fun q => q.cmd.b 1 12 && q.fixes.contains (.token r)))
    && (if users.isEmpty then pins.isEmpty && unpins.isEmpty
        else pins.length == 1 && unpins.length == 1
          && pins.all (fun p => p.2.guards.isEmpty && p.2.redo.isNone && some p.1 == users.head?
              && ((ofCore (x.of p.1) p.2.core).takeWhile (fun st => st != p.2)).all (fun st => !st.readsRegion r))
          && unpins.all (fun p => p.2.guards.isEmpty && p.2.redo.isNone && some p.1 == users.getLast?
              && (let l := ofCore (x.of p.1) p.2.core
                  (l.dropWhile (fun st => st != p.2)).all (fun st => !st.readsRegion r)) && x.released r p.2))

/-- The size of a gradient image in a FMT (R189): rows of whole 64-byte lines, Wᵀ for Microscaling weights and W for NW weights. -/
def imageShape (o : Opnd) (fmt : Nat) : Nat × Nat × Nat :=
  let m := o.matrix
  let rc := if typeMx o.typ then (m.2, m.1) else m
  (rc.1, rc.2, cdiv (rc.2 * (logFmtOf fmt).size) 64 * 64)

/-- The operation whose identity passes form a gradient image (R190): the first activation gradient of a weight in a FMT. -/
def Tr.former (x : Tr) (k : Nat) : Nat :=
  (x.ks.find? (fun j => (x.top j).isDx && (x.top j).opnd 1 == (x.top k).opnd 1 && (x.top j).gradw == (x.top k).gradw)).getD k

/-- Is an activation gradient's weight one whose gradient image is kept by version: Microscaling or NW, in a region? -/
def TOp.imaged (t : TOp) : Bool := t.isDx && !t.onMason && (t.opnd 1).reg && (typeMx (t.opnd 1).typ || typeNw (t.opnd 1).typ)

/-- The bytes of a version's image in a buffer. -/
def Buf.imageSize (b : Buf) : Nat := cdiv b.o.extent 64 * 64

/-- Gradient images (R190) of weights that a version table holds: one buffer with a place for each of four slots; formed by the identity passes of the
first operation that needs it, only where the image of the token's version is not yet formed, each drain and each read at the place of that version, and
noted when they have been pushed; for a frozen region formed by LOAD, with no identity pass. -/
def Tr.imageOk (x : Tr) (k : Nat) : Bool :=
  let t := x.top k
  let r := (t.opnd 1).region
  let own := (x.of k).filter (fun st => st.redo.isNone)
  let passes := own.filter (fun st => st.tile?.any (fun p => !t.isMatmul && !p.cmd.b 1 0))
  let bs := (x.bufsOf k).filter (fun b => b.i == 1 && !b.wide)
  if !t.imaged then
    own.all (fun st => match st.kind with | .formed _ _ => false | _ => !st.guards.any (fun g => match g with | .stale _ _ => true | _ => false))
      && !x.images.any (fun i => i.1 == k)
  else match bs with
    | [b] =>
      let reads := own.filter (fun st => st.push?.any (fun p => (p.qid == 3 || p.qid == 4) && inside (p.at 2) 1 b.o.va b.o.extent))
      if x.frozen.contains r then
        let m := imageShape (t.opnd 1) (widthFmt t.gradw)
        passes.isEmpty && x.images.filter (fun i => i.1 == k) == [(k, b.o.va)] && b.turned == typeMx (t.opnd 1).typ
          && b.o == { typ := widthFmt t.gradw, rank := 2, va := b.o.va, dims := [m.1, m.2.1, 1, 1], strides := [m.2.2, (logFmtOf (widthFmt t.gradw)).size, 0] }
      else
        !x.images.any (fun i => i.1 == k) && inside b.o.va (4 * b.imageSize) x.wa x.wsz
          && reads.all (fun st => st.push?.all (fun p => p.fixes.contains (.image 2 r b.imageSize)))
          && (if x.former k = k then
                passes.all (fun st => st.guards.contains (.stale k r) && st.tile?.all (fun p => p.drain.all (fun d => d.fixes == [.image 1 r b.imageSize])))
                  && passes.all (fun st => ((ofCore own st.core).reverse.takeWhile (fun w => w != st)).any (fun w => w.kind == .formed k r))
              else passes.isEmpty && (x.bufsOf (x.former k)).contains b)
    | _ => false

/-- An adapter layer's dX (R194): the first activation gradient leaves its tiles with FINAL = 0, and the second continues each in one tile with the same
ANCHOR, its rank padded to a multiple of 16 (R53). -/
def Tr.adapterOk (x : Tr) (k : Nat) : Bool :=
  match x.ks.find? (fun a => x.adapter a k) with
  | none => true
  | some a =>
    let grads := fun (j : Nat) => ((x.of j).filter (fun st => st.redo.isNone && !st.isWide j)).filterMap (fun st => st.tile?.filter (fun p => p.cmd.b 1 0))
    (x.top a).anchor == (x.top k).anchor && (grads a).all (fun p => !p.cmd.b 1 15)
      && (grads k).all (fun p => p.cmd.b 1 14 && p.cmd.b 1 15 && p.cmd.f 2 31 16 * p.cmd.f 2 13 8 * 16 == cdiv ((x.top k).opnd 0).last 16 * 16)

/-! ## Products as a whole (R193, R297) -/

/-- The buffers of an operation lie in the work area, in a TYPE that engines or loops take, and are filled in every case, or hold an image; what a product
drained beside its output is brought there. -/
def Tr.bufsOk (x : Tr) (k : Nat) : Bool :=
  let t := x.top k
  (x.bufsOf k).zipIdx.all (fun p =>
    let b := p.1
    b.o.rank == 2 && !b.o.reg && !b.o.bind && !typePacked b.o.typ && inside b.o.va b.o.extent x.wa x.wsz
      && (if b.i = 2 then b.wide || x.staged k b
          else if 2 < b.i then t.pre == some b.i
          else if t.imaged && b.i == 1 && (x.frozen.contains (t.opnd 1).region || x.former k != k) then true
          else (x.cases k).all (fun on => b.wide != (x.widesOf k b.i).any on.contains || x.filled k p.2 b on)))

/-- The products (R297): those of the mason unit and of the array cover their output, in the wide variant too; no tile for the weight gradient of frozen
weights (R193). -/
def Tr.productOk (x : Tr) (k : Nat) : Bool :=
  let t := x.top k
  let own := (x.of k).filter (fun st => st.redo.isNone)
  !t.isProduct
    || (if t.isDw && x.frozenLayer k then own.all (fun st => st.tile?.isNone && (st.cmd? 1 0x40).isNone)
        else (x.cases k).all (fun on => if t.onMason then x.masonOk k on else x.coverOk k on false && (!t.wide || x.coverOk k on true)))

/-! ## Sync pairs (R186, R260, R264, R275, R297) -/

/-- What an operation writes as data: its output, and what its loops, copies and drains write. -/
def OpStep.writes (st : OpStep) : List (Nat × Nat) :=
  match st.kind with
  | .push p =>
    let outW := if p.qid = 1 then [5] else if p.qid = 2 then [3] else if p.qid = 3 ∨ p.qid = 4 then [3] else []
    (p.binds.filter (fun i => outW.contains i.word && p.cmd.op != 0x72 && p.cmd.op != 0x73)).map (fun i => (i.va, i.len))
      ++ (p.drain.map (fun d => (d.binds.filter (fun i => i.word == 1)).map (fun i => (i.va, i.len)))).getD []
  | .loop _ _ out _ _ => [(out.va, out.extent)]
  | _ => []

/-- Does a step wait for a counter ahead of what follows it in a queue? -/
def OpStep.waitsIn (st : OpStep) (qid : Nat) : Bool := match st.kind with
  | .await _ _ => true
  | .push p => p.qid == qid && p.cmd.op == 0x20
  | _ => false

/-- The counters that a step adds to. -/
def OpStep.adds (st : OpStep) : Option Nat := match st.kind with
  | .signal c _ => some c
  | .push p => if p.cmd.op = 0x21 then some (p.cmd.f 1 7 0) else none
  | _ => none

/-- Sync pairs of an operation: each wait is for a counter that some step adds to; a step that reads what an earlier operation wrote follows a wait, in
its queue or of its core, pushed behind that operation's own steps of the core, unless loops of the one core of the gang make both; and a PLANE follows a
wait pushed behind the load before it of the same plane of the operation. -/
def Tr.syncOk (x : Tr) (k : Nat) : Bool :=
  let added := x.steps.flatten.filterMap OpStep.adds
  let loops := fun (l : List OpStep) => l.all (fun st => match st.kind with | .push p => p.cmd.op == 0x20 || p.cmd.op == 0x21 | _ => true)
  (x.of k).zipIdx.all (fun p =>
    let st := p.1
    let qid := (st.push?.map Push.qid).getD 0xFF
    let before := ofCore ((x.of k).take p.2) st.core
    (match st.kind with
      | .await c _ => added.contains c
      | .push q => q.cmd.op != 0x20 || added.contains (q.cmd.f 1 7 0)
      | _ => true)
      && (List.range k).all (fun j =>
        !(x.of j).any (fun w => w.writes.any (fun a => st.reads.any (fun b => overlap a.1 a.2 b.1 b.2)))
          || (loops (x.of j) && st.push?.isNone && (x.of j ++ x.of k).all (fun w => w.core == st.core))
          || ((ofCore ((x.steps.take k).drop j).flatten st.core).reverse.takeWhile (fun w => w.writes.isEmpty || !(x.of j).contains w)).any (fun w => w.waitsIn qid)
          || before.any (fun w => w.waitsIn qid))
      && (st.load? 0x73).all (fun l =>
        let since := before.reverse.takeWhile (fun w => !(w.load? 0x73).any (fun m => m.cmd.f 6 58 58 == l.cmd.f 6 58 58))
        since.length == before.length || since.any (fun w => w.waitsIn qid)))

/-! ## The other operations (R297) -/

/-- The element of an index tensor that a push's row is taken from, and the stride of the axis. -/
def Push.row? (p : Push) (word : Nat) (idx : Opnd) (stride : Nat) : Bool :=
  p.fixes.any (fun f => match f with
    | .row w va late st => w == word && late == idx.bind && st == stride && inside va 4 idx.va idx.extent
    | _ => false)

/-- The byte stride of an axis of an operand (R296). -/
def Opnd.stride (o : Opnd) (a : Nat) : Nat := if a < 3 then o.strides.getD a 0 else typeBits o.typ / 8

/-- Does every loop step of an operation that writes its output stand, or engine work in its place? Rows that are gathered or scattered keep their bits
(R72), and a Microscaling operand is sorted as LX16 codes, widened first (R76). -/
def Tr.otherOk (x : Tr) (k : Nat) : Bool :=
  let t := x.top k
  let l := (x.of k).filter (fun st => st.redo.isNone)
  let at' := fun (p : Push) (w : Nat) => x.placeOf t p.cmd p.binds (p.qid == 3 || p.qid == 4) w
  let copies := l.filterMap (fun st => st.load? 0x70)
  let fills := l.filterMap (fun st => st.load? 0x71)
  let reds := l.filterMap (fun st => st.cmd? 1 0x41)
  let loops := l.filterMap (fun st => match st.kind with | .loop f _ out _ _ => some (f, out) | _ => none)
  let writesOut := fun (i : Nat) => loops.any (fun p => p.2 == t.opnd i)
  let axis := t.f 1 5 4
  let asIs := fun (p : Push) => p.cmd.f 1 23 20 == p.cmd.f 1 19 16 && !p.cmd.b 1 24
  match t.op with
  | 0x0010 => writesOut 1 || (l.isEmpty && x.ks.any (fun j => x.fusedInto j == some k))
  | 0x0011 => writesOut 2
  | 0x0012 => if t.f 1 3 0 < 4 && typeFp (t.opnd 0).typ && reds.length != 0 then reds.all (fun p => p.cmd.f 2 45 44 == t.f 1 3 0) else writesOut 1
  | 0x0013 => loops.any (fun p => match p.1 with | .exps _ => true | _ => false) && loops.any (fun p => match p.1 with | .scale _ => true | _ => false) && writesOut 1
      && [2, 0].all (fun o => reds.any (fun p => p.cmd.f 2 45 44 == o))
  | 0x0014 => writesOut 2 && (if t.word 1 = 0 then [1] else [0, 1]).all (fun o => reds.any (fun p => p.cmd.f 2 45 44 == o))
  | 0x0020 =>
      let turned := t.word 1 == 1
      let blocks := copies.filterMap (copyBlock [{ i := 0, o := t.opnd 0 }] { i := 1, o := t.opnd 1, turned := turned })
      (if typePacked (t.opnd 0).typ then copies.any (fun p => at' p 2 == .opnd 0 && at' p 3 == .opnd 1) && copies.all (fun p => p.cmd.f 1 23 20 == 15)
        else blocks.length == copies.length && covers (t.opnd 1).rows (t.opnd 1).last blocks)
        || (!fills.isEmpty && copies.isEmpty && fills.all (fun p => at' p 3 == .opnd 1))
  | 0x0021 => decide ((t.opnd 1).total ≤ copies.length) && copies.all (fun p => asIs p && at' p 2 == .opnd 0 && at' p 3 == .opnd 2 && p.row? 2 (t.opnd 1) ((t.opnd 0).stride axis))
  | 0x0022 => decide ((t.opnd 1).total ≤ copies.length) && copies.all (fun p => asIs p && at' p 2 == .opnd 0 && at' p 3 == .opnd 2 && p.row? 3 (t.opnd 1) ((t.opnd 2).stride axis))
  | 0x0023 => writesOut 1 && (!typeMx (t.opnd 0).typ || l.any (fun st => match st.kind with
      | .loop (.sort _) [i] _ _ _ => l.any (fun w => match w.kind with | .loop .convert [a] o _ _ => a == t.opnd 0 && o == i | _ => false)
      | _ => false))
  | 0x0030 =>
      let rots := l.filterMap (fun st => st.cmd? 2 0x50)
      !rots.isEmpty && rots.all (fun p => p.cmd.f 1 19 18 == t.f 1 1 0 && p.cmd.b 1 17 == (t.word 1).testBit 2 && p.cmd.f 1 15 12 == (t.opnd 0).typ
        && ofmtType (p.cmd.f 1 11 8) (p.cmd.f 1 7 4) == (t.opnd 1).typ && p.cmd.w 5 == t.word 2 && p.cmd.w 6 == t.word 3)
  | 0x0031 => writesOut 0 && l.all (fun st => match st.kind with
      | .loop _ _ _ _ _ => (ofCore l st.core).head?.any (fun h => match h.kind with | .claim _ _ => true | _ => false)
      | _ => true)
  | 0x0040 =>
      let colls := l.filterMap (fun st => st.push?.filter (fun p => p.cmd.op == 0x90))
      colls.length == 1 && colls.all (fun p => [1, 2, 3].all (fun i => p.cmd.w i == t.word i)
        && (List.range t.opnds.length).all (fun i => at' p (4 + i) == .opnd i))
  | 0x0041 =>
      let q := 0x10 + bits (t.opnd 1).region 13 11
      let ups := l.filterMap (fun st => st.cmd? q 0x60)
      let marks := l.filterMap (fun st => st.cmd? q 0x61)
      ups.length == 1 && marks.length == 1 && (ups ++ marks).all (fun p => p.fixes == [.step])
        && ups.all (fun p => p.cmd.w 2 == t.word 1 && p.cmd.w 4 == t.word 2 && p.cmd.w 5 == t.word 3 && p.cmd.f 3 63 32 == (t.opnd 1).total % 2 ^ 32
          && at' p 6 == .opnd 0 && at' p 7 == .opnd 2)
        && ((l.dropWhile (fun st => (st.cmd? q 0x60).isNone)).any (fun st => (st.cmd? q 0x61).isSome))
  | _ => true

/-- What a LOAD asks of a translation (R297, R299). -/
def Tr.ok (x : Tr) : Bool :=
  x.steps.length == x.tops.length
    && x.ks.all (fun k => (x.of k).all (fun st => x.stepOk k st && x.productStep (st.opOf k) st && st.redo.all x.inBlock)
        && x.productOk k && x.bufsOk k && x.syncOk k && x.wideOk k && x.orderOk k && x.imageOk k && x.adapterOk k && x.otherOk k)
    && x.blocks.all x.blockOk && x.regions.all x.pinOk

end Sys2Proof.Machine
end

