-- ==== Sys2Proof/Machine/Update.lean ====
section
/-! DEFINITION. The stack update engines (R213 to R224, R233, R234): their queue, UPDATE with its programs and sweeps, MARK. -/
namespace Sys2Proof.Machine

/-! ## Queue (R213) -/

/-- The head of the update queue of stack k under a row of opcode `op` (R213); a stack out of service executes nothing (R225). An
unlisted opcode is refused and removed, and fails the next MARK. -/
def ueDispatch (s : State) (k : Fin 8) (op : Nat) (f : Cmd → State) : State :=
  let u := s.ue k
  if !s.stackUp k then s
  else dispatch s u.q [0, 0x20, 0x21, 0x60, 0x61] op
    (((s.ev 0xA22 k (leBytes 1 k)).modUe k (fun v => { v with q := v.q.halt 1 })).raise 81)
    (fun c => (((s.ev 0xA20 k (leBytes 3 c.tag ++ leBytes 1 1)).modUe k (fun v => { v with q := v.q.pop })).updFail k c.tag 1 1 none)) f

/-- The head command leaves the update queue. -/
def State.uePop (s : State) (k : Fin 8) : State := s.modUe k (fun u => { u with q := u.q.pop })

/-- Has an UPDATE numbered below a bound neither completed nor failed? -/
def Ue.live (u : Ue) (n : Nat) : Bool := u.run.any (fun r => decide (r.id < n))

/-- NOP (R213). -/
def ueNop (s : State) (k : Fin 8) : State := ueDispatch s k 0 (fun _ => s.uePop k)

/-- SYNC_WAIT (R213). -/
def ueSyncWait (s : State) (k : Fin 8) : State :=
  ueDispatch s k 0x20 (fun c => if c.w 2 ≤ s.syncVal (c.f 1 7 0) then s.uePop k else s)

/-- SYNC_SIGNAL (R213). -/
def ueSyncSignal (s : State) (k : Fin 8) : State :=
  ueDispatch s k 0x21 (fun c =>
    let u := s.ue k
    if c.b 1 8 && u.live u.q.nextJob then s.modUe k (fun v => { v with q := v.q.pop.defer (c.f 1 7 0) })
    else (s.uePop k).addSync (c.f 1 7 0) 1)

/-- DEFERRED_SIGNAL_ADD of an update queue. -/
def ueSigAdd (s : State) (k : Fin 8) : State :=
  let u := s.ue k
  match u.q.takeSig u.live with
  | none => s
  | some (c, q) => (s.modUe k (fun v => { v with q := q })).addSync c 1

/-- MARK (R224): once every earlier command is done. -/
def mark (s : State) (k : Fin 8) : State :=
  ueDispatch s k 0x61 (fun c =>
    let u := s.ue k
    if u.run.isSome then s
    else
      let S := c.w 1
      let fail := u.fails.any (fun f => f == some S || f == none)
      ((s.modUe k (fun v => { v with q := v.q.pop, fails := [], marks := v.marks ++ [(S, fail)] })).setRn (R.UE_MARK k) S).setRn
        (R.UE_MARK_FAIL k) (b2n fail))

/-! ## The UPDATE command (R214, R215) -/

namespace Upd
def step (c : Cmd) : Nat := c.w 1
def nanstop (c : Cmd) : Bool := c.b 2 49
def sr (c : Cmd) : Bool := c.b 2 48
def prog (c : Cmd) : Nat := c.f 2 47 44
def wfmt (c : Cmd) : Nat := c.f 2 43 40
def mxt (c : Cmd) : Nat := c.f 2 39 36
def gfmt (c : Cmd) : Nat := c.f 2 35 34
def gx (c : Cmd) : Int := signed 12 (c.f 2 31 20)
def region (c : Cmd) : Nat := c.f 2 13 0
def elems (c : Cmd) : Nat := c.f 3 63 32
def rowlen (c : Cmd) : Nat := c.f 3 31 16
def pOff (c : Cmd) : Nat := c.f 4 63 32 * 65536
def s0Off (c : Cmd) : Nat := c.f 4 31 0 * 65536
def s1Off (c : Cmd) : Nat := c.f 5 63 32 * 65536
def mdOff (c : Cmd) : Nat := c.f 5 31 0 * 65536
def anchor (c : Cmd) : Int := signed 12 (c.f 6 59 48)
def gAddr (c : Cmd) : Nat := c.f 6 47 0
def kAddr (c : Cmd) : Nat := c.f 7 47 0
def isMx (c : Cmd) : Bool := wfmt c == 6
def isNw (c : Cmd) : Bool := wfmt c == 8 || wfmt c == 9
/-- Bits of an NW code. -/
def nwBits (c : Cmd) : Nat := if wfmt c = 8 then 1 else 2
/-- Bytes of an NW row with its padding (R43, R215). -/
def rowBytes (c : Cmd) : Nat := cdiv (cdiv (rowlen c * nwBits c) 8) 64 * 64
/-- Bits of a W element. -/
def wBits (c : Cmd) : Nat :=
  match wfmt c with
  | 0 => 8 | 1 => 8 | 4 => 32 | 6 => elemBits (mxt c) | 8 => 1 | 9 => 2 | _ => 16
/-- The offset of the Microscaling scale bytes (R215). -/
def scaleOff (c : Cmd) : Nat := cdiv (elems c * elemBits (mxt c) / 8) 64 * 64
/-- Bytes of the W section. -/
def wSize (c : Cmd) : Nat :=
  if isMx c then scaleOff c + elems c / 32 else if isNw c then elems c / rowlen c * rowBytes c else elems c * (wBits c / 8)
/-- The sections present, with offset and size: 0 W, 1 P, 3 S0, 4 S1, 5 MD. -/
def sections (c : Cmd) : List (Nat × Nat × Nat) :=
  [(0, 0, wSize c)] ++ [(1, pOff c), (3, s0Off c), (4, s1Off c)].filterMap (fun p => if p.2 = 0 then none else some (p.1, p.2, 4 * elems c))
    ++ (if mdOff c = 0 then [] else [(5, mdOff c, 4 * (elems c / rowlen c))])
/-- The offset of a section. -/
def secOff (c : Cmd) (i : Nat) : Nat :=
  match i with
  | 1 => pOff c | 3 => s0Off c | 4 => s1Off c | 5 => mdOff c | _ => 0
/-- Is a section, or G, present? -/
def present (c : Cmd) (i : Nat) : Bool := i == 2 || (i != 5 && (sections c).any (fun x => x.1 == i))
/-- Elements of a store unit (R222). -/
def unit (c : Cmd) : Nat := if isMx c then 32 else if isNw c then rowlen c else 1
end Upd

/-! ## Programs (R218, R219) -/

/-- The instruction words of UE_PROG(p). -/
def State.progWords (s : State) (k p : Nat) : List Nat :=
  (List.range 32).map (fun i => s.rfld (R.UE_PROG k (16 * p + i / 2)) (32 * (i % 2) + 31) (32 * (i % 2)))

/-- Does the instruction read the scalar k[IDX]? -/
def progReadsK (w : Nat) : Bool :=
  let op := bits w 31 26
  (w.testBit 13 && [0x08, 0x09, 0x0A, 0x0B, 0x0C, 0x0F, 0x10].contains op) || (w.testBit 12 && op == 0x0B)

/-- Is one instruction word valid, `after` a NEXT or not (R218)? -/
def progWordOk (c : Cmd) (after : Bool) (w : Nat) : Bool :=
  let op := bits w 31 26
  let idx := bits w 11 8
  decide (w % 256 = 0)
    && [0x01, 0x02, 0x08, 0x09, 0x0A, 0x0B, 0x0C, 0x0D, 0x0E, 0x0F, 0x10, 0x11, 0x12, 0x18, 0x19].contains op
    && (after || !(progReadsK w && decide (12 ≤ idx)))
    && (op != 1 || Upd.present c idx) && (op != 2 || (idx != 2 && Upd.present c idx))
    && (!after || (op != 0x18 && op != 0x19))

/-- The program cut at NEXT and END, where it is valid: sweep 0 (empty without NEXT) and sweep 1. DESIGN CHOICE (log 102): a word with reserved
bits [7:0] set makes the program invalid. -/
def splitProg (c : Cmd) : List Nat → Bool → List Nat → List Nat → Option (List Nat × List Nat)
  | [], _, _, _ => none
  | w :: r, after, a, b =>
    let op := bits w 31 26
    if w % 256 ≠ 0 then none
    else if op = 0 then
      if after then some (a, b)
      else if a.any (fun x => bits x 31 26 == 0x18 || bits x 31 26 == 0x19) then none else some ([], a)
    else if op = 0x3E then (if after then none else splitProg c r true a b)
    else if progWordOk c after w then (if after then splitProg c r after a (b ++ [w]) else splitProg c r after (a ++ [w]) b)
    else none

/-- The eight lanes, the reduction accumulators, the sections stored, whether any store was of NaN (R222), and the conditions of one element. -/
structure LaneSt where
  v : List Nat := List.replicate 8 0
  recs : List Wp
  out : List (Nat × Nat) := []
  nan : Bool := false
  conds : Cond := Cond.none
  deriving DecidableEq, Repr

/-- The value of an arithmetic operand under R34: an infinity as the largest finite value. -/
def laneVal (c : Nat) : Val × Cond := fpOperand c FP32

/-- One instruction (R219, R220); `ld` gives an element of a section as an FP32 code. -/
def execInstr (ld : Nat → Nat × Cond) (k : List Nat) (x : LaneSt) (w : Nat) : LaneSt :=
  let d := bits w 25 23
  let a := x.v.getD (bits w 22 20) 0
  let idx := bits w 11 8
  let b := if w.testBit 13 then k.getD idx 0 else x.v.getD (bits w 19 17) 0
  let c := if w.testBit 12 then k.getD idx 0 else x.v.getD (bits w 16 14) 0
  let set := fun (r : FpRes) => { x with v := x.v.set d r.1, conds := x.conds.or r.2 }
  let red := fun (r : Val × Cond) =>
    { x with recs := x.recs.set (idx % 4) (wpAddVal (x.recs.getD (idx % 4) {}) r.1), conds := x.conds.or r.2 }
  match bits w 31 26 with
  | 0x01 => set (ld idx)
  | 0x02 => { x with out := x.out.filter (fun p => p.1 != idx) ++ [(idx, a)], nan := x.nan || decide (a = FP32.nanCode) }
  | 0x08 => set (fpAdd a b)
  | 0x09 => set (fpSub a b)
  | 0x0A => set (fpMul a b)
  | 0x0B => set (fpFma a b c)
  | 0x0C => set (fpDiv a b)
  | 0x0D => set (fpSqrt a)
  | 0x0E => set (fpRsqrt a)
  | 0x0F => set (fpMaxPrim a b)
  | 0x10 => set (fpMinPrim a b)
  | 0x11 => set (a % 2 ^ 31, Cond.none)
  | 0x12 => set (if a = FP32.nanCode then a else a ^^^ 2 ^ 31, Cond.none)
  | 0x18 => red (laneVal a)
  | 0x19 => red (vmul (laneVal a).1 (laneVal a).1, (laneVal a).2)
  | _ => x

/-! ## Loads (R220, R250) -/

/-- A value loaded: rounded once to FP32, with the conditions of its reading. -/
def ldOut (v : Val × Cond) : Nat × Cond :=
  let r := fpEncode v.1 FP32
  (r.1, v.2.or r.2)

/-- Element i of section W of the CURRENT slot. -/
def ldW (s : State) (c : Cmd) (cur i : Nat) : Val × Cond :=
  let f := Upd.wfmt c
  if Upd.isMx c then
    let t := Upd.mxt c
    let nb := elemBits t
    let blk := cur + i / 32 * blockBytes t
    let lo := i % 32 * nb / 8
    let hi := (i % 32 * nb + nb - 1) / 8
    if s.badRead (blk + lo) (hi + 1 - lo) || s.badRead (cur + Upd.scaleOff c + i / 32) 1 then (.nan, Cond.none)
    else mxVal t (s.le (cur + Upd.scaleOff c + i / 32) 1) (elemAt t (s.bytes blk (blockBytes t)) (i % 32))
  else if Upd.isNw c then
    let row := i / Upd.rowlen c
    let p := i % Upd.rowlen c
    let b := Upd.nwBits c
    let a := cur + row * Upd.rowBytes c + p * b / 8
    let m := cur + Upd.mdOff c + 4 * row
    if s.badRead m 4 || s.badRead a 1 then (.nan, Cond.none)
    else (nwVal (s.le m 4) ((s.le a 1 >>> (p * b % 8)) % 2 ^ b), Cond.none)
  else
    let n := Upd.wBits c / 8
    match s.read (cur + i * n) n with
    | none => (.nan, Cond.none)
    | some bs =>
      if f < 4 then (logDecode (fromLe bs) (logFmtOf f) 0, Cond.none) else fpRead (fromLe bs) (if f = 4 then FP32 else BF16)

/-- Does a sweep's program load a section (R219)? -/
def progLoads (prog : List Nat) (sec : Nat) : Bool := prog.any (fun w => bits w 31 26 == 1 && bits w 11 8 == sec)

/-- The gradient word of element i, none where it is poisoned; an element that sweep 0 has read is not read again (R233). -/
def gradWord (s : State) (r : UpdRun) (i : Nat) : Option Nat := r.gRead.getD i ((s.read (Upd.gAddr r.cmd + 4 * i) 4).map fromLe)

/-- LD of section `sec` for element i. -/
def ldSec (s : State) (r : UpdRun) (i sec : Nat) : Nat × Cond :=
  let c := r.cmd
  if sec = 0 then ldOut (ldW s c r.cur i)
  else
    match (if sec = 2 then gradWord s r i else (s.read (r.cur + Upd.secOff c sec + 4 * i) 4).map fromLe) with
    | none => (FP32.nanCode, Cond.none)
    | some w => if sec = 2 ∧ Upd.gfmt c = 1 then ldOut (rf32Read w (Upd.gx c), Cond.none) else ldOut (fpRead w FP32)

/-! ## Stores (R220 to R222) -/

/-- The engine's write to its TENTATIVE slot. DESIGN CHOICE (log 102): the engine writes lines whole, so a line that it writes only in part loses its
poison too. -/
def State.wrSlot (s : State) (a : Nat) (bs : Bytes) : State :=
  let hi := a + bs.length
  ({ s with poison := s.poison.filter (fun l => decide (64 * l + 64 ≤ a) || decide (hi ≤ 64 * l)) } : State).wr a bs

/-- Bytes copied from the CURRENT slot to the TENTATIVE one; a poisoned line is copied as a poisoned line (R217). -/
def State.copySlot (s : State) (src dst n : Nat) : State :=
  let s1 := s.wrSlot dst (s.bytes src n)
  (List.range (n / 64 + 2)).foldl (fun t j =>
    let l := src / 64 + j
    if s.poison.contains l && decide (64 * l < src + n) then t.poisonLine (64 * l - src + dst) else t) s1

/-- The random value of element i under SR = 1 (R171, R221). -/
def updRand (r : UpdRun) (i : Nat) : Option Nat := r.key.map (fun kd => randVal kd (r.strm.wbase + i))

/-- A W element rounded to a log, FP32 or BF16 code. -/
def wCode (r : UpdRun) (i x : Nat) : Nat × Cond :=
  let f := Upd.wfmt r.cmd
  let v := (fpRead x FP32).1
  match updRand r i with
  | none => if f < 4 then logEncode v (logFmtOf f) else fpEncode v (if f = 4 then FP32 else BF16)
  | some q =>
    if f < 4 then srLog v (logFmtOf f) q
    else
      match v with
      | .fin sg m => let o := srFmt sg m BF16 q; (BF16.enc o.1, o.2)
      | _ => fpEncode v BF16

/-- Section W of one store unit written: elements from i, their FP32 codes `xs` (R220, R221). -/
def storeW (s : State) (r : UpdRun) (i : Nat) (xs : List Nat) : State × Cond :=
  let c := r.cmd
  let vals := xs.map (fun x => (fpRead x FP32).1)
  if Upd.isMx c then
    let t := Upd.mxt c
    let rs := r.key.map (fun _ => (List.range 32).map (fun j => (updRand r (i + j)).getD 0))
    let o := mxEncode t vals rs
    ((s.wrSlot (r.tent + i / 32 * blockBytes t) (packElems t o.2.1)).wrSlot (r.tent + Upd.scaleOff c + i / 32) (leBytes 1 o.1), o.2.2)
  else if Upd.isNw c then
    let row := i / Upd.rowlen c
    let m := r.cur + Upd.mdOff c + 4 * row
    let md := if s.badRead m 4 then 0xC0000000 else s.le m 4
    if LX16.special (bits md 31 16) then
      (s.copySlot (r.cur + row * Upd.rowBytes c) (r.tent + row * Upd.rowBytes c) (Upd.rowBytes c), Cond.none)
    else
      let b := Upd.nwBits c
      let os := vals.zipIdx.map (fun p => if p.1.isNan then (0, Cond.none) else nwCode md b (updRand r (i + p.2)) p.1.toRat)
      let w := os.zipIdx.foldl (fun a p => a + p.1.1 * 2 ^ (b * p.2)) 0
      (s.wrSlot (r.tent + row * Upd.rowBytes c) (leBytes (Upd.rowBytes c) w), os.foldl (fun k o => k.or o.2) Cond.none)
  else
    let os := xs.zipIdx.map (fun p => wCode r (i + p.2) p.1)
    let n := Upd.wBits c / 8
    (s.wrSlot (r.tent + i * n) (os.flatMap (fun o => leBytes n o.1)), os.foldl (fun k o => k.or o.2) Cond.none)

/-- Section W of one store unit copied unchanged (R217). -/
def copyW (s : State) (r : UpdRun) (i n : Nat) : State :=
  let c := r.cmd
  let cp := fun (t : State) (o m : Nat) => t.copySlot (r.cur + o) (r.tent + o) m
  if Upd.isMx c then cp (cp s (i / 32 * blockBytes (Upd.mxt c)) (blockBytes (Upd.mxt c))) (Upd.scaleOff c + i / 32) 1
  else if Upd.isNw c then cp s (i / Upd.rowlen c * Upd.rowBytes c) (Upd.rowBytes c)
  else cp s (i * (Upd.wBits c / 8)) (n * (Upd.wBits c / 8))

/-- Does a sweep's program store a section (R219)? -/
def progStores (prog : List Nat) (sec : Nat) : Bool := prog.any (fun w => bits w 31 26 == 2 && bits w 11 8 == sec)

/-- One store unit stored (R217, R222): the sections that the sweep stores. Sweep 1 also copies MD and the sections that neither sweep
stores. -/
def storeUnit (s : State) (r : UpdRun) (i : Nat) (us : List (List (Nat × Nat))) : State × Cond :=
  let c := r.cmd
  let one := decide (r.phase = .sweep1)
  let stores := fun (sec : Nat) => us.any (fun u => u.any (fun p => p.1 == sec))
  let copies := fun (sec : Nat) => one && !progStores r.prog0 sec
  let codes := fun (sec : Nat) => us.map (fun u => ((u.find? (fun p => p.1 == sec)).map (·.2)).getD 0)
  let w := if stores 0 then storeW s r i (codes 0) else if copies 0 then (copyW s r i us.length, Cond.none) else (s, Cond.none)
  let s1 := ([1, 3, 4].filter (Upd.present c)).foldl (fun t sec =>
    let o := Upd.secOff c sec + 4 * i
    if stores sec then t.wrSlot (r.tent + o) ((codes sec).flatMap (leBytes 4))
    else if copies sec then t.copySlot (r.cur + o) (r.tent + o) (4 * us.length) else t) w.1
  let s2 := if one && Upd.isNw c then
      let o := Upd.mdOff c + 4 * (i / Upd.rowlen c)
      s1.copySlot (r.cur + o) (r.tent + o) 4
    else s1
  (s2, w.2)

/-! ## Sweeps (R217, R218, R220, R222, R223) -/

/-- Conditions recorded in UE_FLAGS (R79, R220). -/
def State.ueFlags (s : State) (k : Nat) (c : Cond) : State := s.setRn (R.UE_FLAGS k) (s.rn (R.UE_FLAGS k) ||| c.toNat)

/-- Elements that a sweep advances in a core cycle: 64, or fewer where the traffic would pass 4 KiB (R223). -/
def sweepRate (r : UpdRun) : Nat :=
  let c := r.cmd
  let one := decide (r.phase = .sweep1)
  let prog := if one then r.prog1 else r.prog0
  let secBits := fun (i : Nat) => if i = 0 then Upd.wBits c else if i = 5 then cdiv 32 (Upd.rowlen c) else 32
  let uses := fun (op i : Nat) => prog.any (fun w => bits w 31 26 == op && bits w 11 8 == i)
  let tot := ([0, 1, 2, 3, 4].filter (fun i => uses 1 i)).foldl (fun a i => a + secBits i) 0
    + ((Upd.sections c).map (·.1)).foldl (fun a i => a + (if uses 2 i then secBits i else if one && !progStores r.prog0 i then 2 * secBits i else 0)) 0
  max 1 (min 64 (32768 / max 1 tot))

/-- One element of a sweep. A NaN result counts in either sweep, since both may store (R218, R219, R222). -/
def sweepElem (s : State) (k : Fin 8) (r : UpdRun) : State :=
  let c := r.cmd
  let one := decide (r.phase = .sweep1)
  let x := (if one then r.prog1 else r.prog0).foldl (execInstr (ldSec s r r.elem) (r.consts ++ r.ks)) { recs := r.recs }
  let gRead := if !one && progLoads r.prog0 2 then r.gRead ++ [gradWord s r r.elem] else r.gRead
  let put := fun (t : State) (q : Option UpdRun) => t.modUe k (fun u => { u with run := q })
  let last := decide (Upd.elems c ≤ r.elem + 1)
  if x.nan && Upd.nanstop c then
    ((s.ueFlags k x.conds).ev 0xA21 k (leBytes 2 r.region ++ leBytes 8 (Upd.step c) ++ leBytes 4 r.elem)).updEnd k r 2
  else
    let formed := r.formed ++ [x.out]
    if formed.length < Upd.unit c then put (s.ueFlags k x.conds) (some { r with elem := r.elem + 1, formed := formed, recs := x.recs, gRead := gRead })
    else
      let w := storeUnit s r (r.elem + 1 - formed.length) formed
      let s1 := w.1.ueFlags k (x.conds.or w.2)
      let s2 := if one then s1.addReg (R.UE_ELEMS k) formed.length else s1
      if !last then put s2 (some { r with elem := r.elem + 1, formed := [], recs := x.recs, gRead := gRead })
      else if one then put s2 none
      else
        let os := x.recs.map (fun w => fpEncode w.val FP32)
        put (s2.ueFlags k (os.foldl (fun q o => q.or o.2) Cond.none))
          (some { r with phase := .sweep1, elem := 0, formed := [], recs := [], ks := os.map (·.1), gRead := gRead })

/-- Up to n elements of the sweep in progress; it does not pass from sweep 0 to sweep 1. -/
def sweepN (s : State) (k : Fin 8) (ph : UpdPhase) : Nat → State
  | 0 => s
  | n + 1 =>
    match (s.ue k).run with
    | some r => if r.phase = ph then sweepN (sweepElem s k r) k ph n else s
    | none => s

/-- UPDATE_SWEEP (R223). -/
def updateSweep (s : State) (k : Fin 8) : State :=
  if !s.stackUp k then s
  else
    match (s.ue k).run with
    | some r => if r.phase = .sweep0 ∨ r.phase = .sweep1 then sweepN s k r.phase (sweepRate r) else s
    | none => s

/-! ## Dispatch of UPDATE (R216, R217) -/

/-- The checks of R216 in order: the item that fails first, or the program, the constants and the stream reference. -/
def updCheck (s : State) (k : Nat) (c : Cmd) : Nat ⊕ (List Nat × List Nat × List Nat × Nat × Nat) :=
  let f := Upd.wfmt c
  let kb := s.read (Upd.kAddr c) 128
  let kbs := kb.getD []
  let region := s.region? (Upd.region c)
  let secs := Upd.sections c
  let lo := k * 0x000C00000000
  if word0Reserved c || c.f 2 63 50 != 0 || c.f 2 33 32 != 0 || c.f 2 19 14 != 0 || c.f 3 15 0 != 0 || c.f 6 63 60 != 0
      || c.f 7 63 48 != 0 || f == 7 || decide (9 < f) || decide (6 < Upd.mxt c) || (Upd.isMx c != decide (Upd.mxt c ≠ 0))
      || decide (1 < Upd.gfmt c) || Upd.kAddr c % 64 != 0 || kb.isNone
      || (kbs.drop 48).take 16 != List.replicate 16 0 || kbs.drop 80 != List.replicate 48 0 then .inl 1
  else
    match region with
    | none => .inl 2
    | some x =>
      if regionStack (Upd.region c) ≠ k ∨ x.frozen then .inl 2
      else
        let cur := match x.find .current with
          | some i => (x.slot i).step
          | none => 0
        if Upd.step c ≤ cur ∨ Upd.step c ≤ s.rn R.GH_CM_DECIDED
            ∨ x.slots.any (fun v => v.st == .tentative && v.step == Upd.step c) then .inl 3
        else if Upd.elems c = 0 || (Upd.isNw c != decide (Upd.mdOff c ≠ 0)) || (Upd.isNw c != decide (Upd.rowlen c ≠ 0))
            || (Upd.isNw c && Upd.elems c % Upd.rowlen c != 0) || (Upd.isMx c && Upd.elems c % 32 != 0)
            || secs.any (fun a => decide (x.len * 65536 < a.2.1 + a.2.2))
            || secs.any (fun a => secs.any (fun b => a.1 != b.1 && overlap a.2.1 a.2.2 b.2.1 b.2.2)) then .inl 4
        else
          match splitProg c (s.progWords k (Upd.prog c)) false [] [] with
          | none => .inl 5
          | some (p0, p1) =>
            let rstep := leAt kbs 64 8
            let rb := leAt kbs 72 8
            if Upd.sr c && (decide (Upd.pOff c ≠ 0) || f == 4 || bits rb 15 8 != 1 || rstep != Upd.step c) then .inl 6
            else if Upd.gAddr c % 64 ≠ 0 ∨ Upd.gAddr c < lo ∨ lo + 0x000C00000000 < Upd.gAddr c + 4 * Upd.elems c then .inl 7
            else .inr (p0, p1, (List.range 12).map (fun j => leAt kbs (4 * j) 4), rstep, rb)

/-- The UPDATE in progress begins to wait for a slot, and takes one at once where it can (R202, R217). -/
def State.updWait (s : State) (k : Fin 8) (r : UpdRun) : State :=
  slotAcquire (s.modUe k (fun u => { u with run := some { r with phase := .slotWait s.time } })) k

/-- UPDATE (R216, R217): checked; refused and removed, or started with its claim or its wait for a slot. -/
def update (s : State) (k : Fin 8) : State :=
  ueDispatch s k 0x60 (fun c =>
    let u := s.ue k
    if u.run.isSome then s
    else
      match updCheck s k c with
      | .inl i => ((s.ev 0xA20 k (leBytes 3 c.tag ++ leBytes 1 i)).uePop k).updFail k c.tag 1 i (some (Upd.step c))
      | .inr (p0, p1, ks, st, rb) =>
        let uid := match s.region? (Upd.region c) with
          | some x => x.uid
          | none => 0
        let r : UpdRun := { cmd := c, id := u.q.job, region := Upd.region c, uid := uid, phase := .claim, prog0 := p0, prog1 := p1,
                            consts := ks, strm := ⟨.update k, st, rb, s.claimDev, s.time⟩,
                            recs := List.replicate 4 { A := Upd.anchor c } }
        let s1 := s.modUe k (fun v => { v with q := v.q.popJob })
        if !Upd.sr c then s1.updWait k r
        else
          match u.claims.find? (fun q => q.1 == st && q.2.1 == r.strm.block) with
          | some q => s1.updWait k { r with key := some q.2.2 }
          | none => (s1.modUe k (fun v => { v with run := some r })).submitClaim (.update k) st rb)

/-- The claim of the waiting UPDATE is decided (R167, R217); that of an UPDATE that a decision has ended meets no one. -/
def updClaimed (s : State) (k : Fin 8) (d : Claim) (res : Nat ⊕ Nat) : State :=
  match (s.ue k).run with
  | none => s
  | some r =>
    if r.phase ≠ .claim ∨ r.strm ≠ d then s
    else
      match res with
      | .inl key => (s.modUe k (fun u => { u with claims := u.claims ++ [(d.step, d.block, key)] })).updWait k { r with key := some key }
      | .inr _ => s.updEnd k r 3

/-! ## Registers that act (R234) -/

/-- UE_CTRL.RESUME. -/
def ueResume (s : State) (k : Fin 8) : State :=
  if !s.stackUp k then s else s.modUe k (fun u => { u with q := { u.q with cause := 0 } })

/-- UE_CTRL.SKIP. -/
def ueSkip (s : State) (k : Fin 8) : State :=
  if !s.stackUp k || !(s.ue k).q.halted || (s.ue k).q.cmds.isEmpty then s else s.uePop k

/-- UE_CTRL.CNT_CLR. -/
def ueCntClr (s : State) (k : Fin 8) : State :=
  if !s.stackUp k then s else (s.setRn (R.UE_ELEMS k) 0).setRn (R.UE_ADDS k) 0

end Sys2Proof.Machine
end

