-- ==== Sys2Proof/Machine/Link.lean ====
section
/-! DEFINITION. The router and the ports' transmit side (R305 to R317): flits, routing, credits, replay, end-to-end numbering,
peer requests, and the management limiter (R319). -/
namespace Sys2Proof.Machine

/-! ## Ports -/

/-- A port. -/
def State.port (s : State) (p : Fin 16) : Port := s.ports[p]
/-- Changes a port. -/
def State.modPort (s : State) (p : Fin 16) (f : Port → Port) : State := { s with ports := s.ports.set p (f (s.port p)) }
/-- The state code of a port (R318). -/
def PortSt.code : PortSt → Nat
  | .down => 0
  | .train => 1
  | .ident => 2
  | .quarantine => 3
  | .admitted => 4
  | .retrain => 5

/-- A port's state change, logged with the port, both states and the width (R318). -/
def State.portTo (s : State) (p : Fin 16) (st : PortSt) : State :=
  let x := s.port p
  if x.st = st then s
  else (s.modPort p (fun y => { y with st := st })).ev 0x801 p
    (leBytes 1 p ++ leBytes 1 x.st.code ++ leBytes 1 st.code ++ leBytes 1 x.width)

/-- A port that leaves service forgets its session (R318, R321): buffers, credits, grants and the partner's nonce. -/
def Port.fresh (x : Port) : Port :=
  { st := x.st, prev := x.prev, lanes := x.lanes, wait := x.wait }

/-- A port counter of LK_COUNT (R330). -/
def State.portCount (s : State) (p : Fin 16) (i n : Nat) : State := s.addReg (R.LK_COUNT p i) n
/-- A router counter of LK_RCOUNT (R330): 0 LK_DROPPED, 1 escapes, 2 resends, 3 failures, 4 LK_BAD_FLIT. -/
def State.routeCount (s : State) (i n : Nat) : State := s.addReg (R.LK_RCOUNT i) n

/-! ## The wire form (R307 to R309) -/

/-- The 20 bytes of a sequence header (R309). -/
def Flit.header (f : Flit) : Bytes :=
  leBytes 2 f.src ++ leBytes 2 f.dst ++ leBytes 2 f.gwDev ++ leBytes 1 (f.gwPort * 32 + b2n f.routed * 16 + b2n f.e2e * 8)
    ++ leBytes 1 f.typ ++ leBytes 4 f.pseq ++ leBytes 8 f.id

/-- The payload of a flit (R309); that of a membership message after its class is free, as the spec gives its operands and no layout (R325). -/
def Flit.area (f : Flit) : Bytes :=
  match f.mem with
  | some (_, m) => leBytes 2 2 ++ (List.range 222).map (Config.memberByte (m.opcode.getD 0))
  | none => padTo 224 f.payload

/-- Bytes 8 to 251 of a flit: what tallies count (R307). -/
def Flit.body (f : Flit) : Bytes := f.header ++ f.area

/-- The link word (R308). -/
def Wire.linkWord (w : Wire) : Nat :=
  w.kind * 2 ^ 60 + w.vc * 2 ^ 57 + w.lseq * 2 ^ 45 + w.ack * 2 ^ 33 + b2n w.ackv * 2 ^ 32 + w.crvc * 2 ^ 17 + w.crn * 2 ^ 9
    + (match w.data with
      | some f => b2n f.seg * 2 ^ 31 + f.esc * 2 ^ 28 + f.hops * 2 ^ 20
      | none => 0)

/-- The 256 bytes of a flit on the wire (R307): its CRC-32C, or the complement of it where the flit is stomped (R310). -/
def Wire.toBytes (w : Wire) : Bytes :=
  let b := leBytes 8 w.linkWord ++ (match w.data with
    | some f => f.body
    | none => padTo 244 w.area)
  b ++ leBytes 4 (if w.stomp then 2 ^ 32 - 1 - crc32c b else crc32c b)

/-! ## Forward error correction (R307) -/

/-- Where the codeword that begins in flit n of a session begins, if one does: codewords of 514 symbols of 10 bits stand back to back, as do
flits of 2,048 bits. -/
def codewordIn (n : Nat) : Option Nat :=
  let b := (2048 * n + 5139) / 5140 * 5140
  if b < 2048 * (n + 1) then some b else none

/-- Does flit n hold bits of a codeword that began before it? -/
def carriesOver (n : Nat) : Bool := decide (2048 * n % 5140 ≠ 0)

/-- A received flit passes the decoder (R307, R330): up to 15 wrong symbols of a codeword are corrected; with more, every flit that the codeword
touches fails. The second part says that this flit has not failed. -/
def State.decode (s : State) (p : Fin 16) (w : Wire) : State × Bool :=
  let x := s.port p
  let starts := (codewordIn x.rxFlits).isSome
  let bad := starts && decide (15 < w.errs)
  let s1 := s.modPort p (fun y => { y with rxFlits := (y.rxFlits + 1) % 1285, cwBad := if starts then bad else y.cwBad })
  let s2 := if starts && decide (0 < w.errs) then s1.addReg (R.LK_COUNT p (b2n bad)) 1 else s1
  (s2, !(bad || (carriesOver x.rxFlits && x.cwBad)))

/-! ## Transmit (R311, R312) -/

/-- A VC with credits to return: the one that holds most, the lowest on a tie. -/
def Port.crvc (x : Port) : Nat :=
  (List.range 8).foldl (fun best v => if x.owed.getD best 0 < x.owed.getD v 0 then v else best) 0

/-- A flit leaves on a port with the acknowledgement and returned credits that its link word carries. -/
def State.send (s : State) (p : Fin 16) (w : Wire) : State :=
  let x := s.port p
  let v := x.crvc
  let w1 := { w with ack := (x.rxSeq + 4095) % 4096, ackv := x.rxAny, crvc := v, crn := x.owed.getD v 0 }
  ((s.modPort p (fun y => { y with owed := y.owed.set v 0, room := y.room.set v (y.room.getD v 0 + y.owed.getD v 0), sinceCr := 0 })).emit
    (.flit p w1)).portCount p 5 1

/-- An idle flit returns credits once a VC has 16 of them, or once 64 flits have come since the last flit that this end sent (R312). -/
def State.returnCredits (s : State) (p : Fin 16) : State :=
  let x := s.port p
  if 16 ≤ x.owed.getD x.crvc 0 ∨ (64 ≤ x.sinceCr ∧ 0 < x.owed.getD x.crvc 0) then s.send p { kind := 0 } else s

/-- A receive buffer of a VC becomes free: its credit is owed to the partner. -/
def State.freeBuf (s : State) (from? : Option (Nat × Nat)) : State :=
  match from? with
  | none => s
  | some (p, v) =>
    let p : Fin 16 := Fin.ofNat 16 p
    (s.modPort p (fun x => { x with owed := x.owed.set v (x.owed.getD v 0 + 1) })).returnCredits p

/-- May a port carry a data flit of a VC: everything while ADMITTED, VC7 also in QUARANTINE (R318)? -/
def Port.carries (x : Port) (vc : Nat) : Bool := x.st == .admitted || (x.st == .quarantine && vc == 7)

/-- Can the waiting flit go now: state, credits (R312, R314), room in the replay buffer (R311)? -/
def Port.canSend (x : Port) (w : WaitFlit) : Bool :=
  x.carries w.vc && decide (w.need ≤ x.credits.getD w.vc 0) && decide (x.replay.length < 512)

/-- One data flit sent: numbered, a credit taken, held for replay, its input buffer freed. -/
def State.sendData (s : State) (p : Fin 16) (w : WaitFlit) : State :=
  let x := s.port p
  let wire : Wire := { kind := 1, vc := w.vc, lseq := x.txSeq, data := some w.flit }
  ((s.modPort p (fun y => { y with txSeq := (y.txSeq + 1) % 4096, credits := y.credits.set w.vc (y.credits.getD w.vc 0 - 1),
                                   replay := y.replay ++ [(y.txSeq, wire, 0)] })).send p wire).freeBuf w.from?

/-- Every waiting flit that can go is sent, in order within each VC; `k` bounds how many. -/
def State.pump (s : State) (p : Fin 16) : Nat → State
  | 0 => s
  | k + 1 =>
    let x := s.port p
    match x.wait.find? (fun w => x.canSend w && (x.wait.find? (fun y => y.vc == w.vc)) == some w) with
    | none => s
    | some w => ((s.modPort p (fun y => { y with wait := y.wait.erase w })).sendData p w).pump p k

/-- A flit joins the queue of a port and goes as soon as it can. -/
def State.enqueue (s : State) (p : Fin 16) (w : WaitFlit) : State :=
  (s.modPort p (fun x => { x with wait := x.wait ++ [w] })).pump p ((s.port p).wait.length + 1)

/-! ## Device numbers and routes (R313 to R315) -/

/-- T, Y, X and S of a device number. -/
def devT (d : Nat) : Nat := bits d 15 11
def devY (d : Nat) : Nat := bits d 10 7
def devX (d : Nat) : Nat := bits d 6 3
def devS (d : Nat) : Nat := bits d 2 0

/-- The number that the module holds (R313). -/
def State.dev (s : State) : Nat := s.rfld R.LK_DEV 15 0
/-- Is the module in membership? -/
def State.member (s : State) : Bool := s.rbit R.LK_DEV 16

/-- The port to slot t of the course from slot m (R306, R313). -/
def coursePort (m t : Nat) : Fin 16 :=
  let j := (t + 8 - m - 1) % 8
  Fin.ofNat 16 (if j < 4 then j else j + 4)
/-- Working port W(i) (R306). -/
def workPort (i : Nat) : Fin 16 := Fin.ofNat 16 (11 + i)
/-- Is it a course port? -/
def isCourse (p : Nat) : Bool := decide (p < 4) || (decide (8 ≤ p) && decide (p < 11))
/-- Is it a terrace port? -/
def isTerrace (p : Nat) : Bool := decide (4 ≤ p) && decide (p < 8)
/-- Is it a working port? -/
def isWork (p : Nat) : Bool := decide (11 ≤ p)

/-- The port toward a device of the own terrace (R314, rules 1 to 3). -/
def State.terraceRoute (s : State) (d : Nat) : Fin 16 :=
  let o := s.dev
  let tx := s.rfld R.LK_TORUS 3 0 + 1
  let ty := s.rfld R.LK_TORUS 7 4 + 1
  if devY d = devY o ∧ devX d = devX o then coursePort (devS o) (devS d)
  else
    let dx := (devX d + tx - devX o % tx) % tx
    if dx ≠ 0 then (if dx ≤ tx - dx then 4 else 5)
    else
      let dy := (devY d + ty - devY o % ty) % ty
      if dy ≤ ty - dy then 6 else 7

/-- The virtual channel of a flit type before a working crossing (R312); collectives choose their own. -/
def vcOf (typ : Nat) (seg : Bool) : Nat :=
  let v := if typ = 1 ∨ typ = 3 then 0 else if typ = 0x20 then 7 else if typ = 0x21 then 6 else if typ = 0x10 then 2 else 1
  if seg && decide (v < 2) then v + 4 else v

/-- Credits that a flit needs on an output (R314): two where it enters a VC of a terrace port, one otherwise. -/
def needCredits (inp : Option Nat) (out : Nat) : Nat :=
  if isTerrace out then
    match inp with
    | some i => if isTerrace i && decide (i / 2 = out / 2) then 1 else 2
    | none => 2
  else 1

/-- What the router does with a flit: deliver it, send it on a port under a VC, drop it, or drop it as unreachable. -/
inductive RouteTo where
  | here
  | port (p : Fin 16) (vc : Nat) (f : Flit)
  | drop
  | unreachable
  deriving DecidableEq, Repr

/-- Does a port carry a channel, or will it once its RETRAIN ends (R318)? -/
def Port.serves (x : Port) (vc : Nat) : Bool := x.carries vc || (x.st == .retrain && (x.prev == .admitted || vc == 7))

/-- FLIT_ROUTE (R314, R315); `vc` is the channel that the flit has. -/
def State.route (s : State) (f : Flit) (vc : Nat) : RouteTo :=
  let o := s.dev
  if f.dst = o then .here
  else if 64 ≤ f.hops then .unreachable
  else if devT f.dst ≠ devT o then
    if f.seg then .drop
    else if !f.routed then .unreachable
    else if f.gwDev = o then
      let p := workPort f.gwPort
      let v := if vc < 2 then vc + 4 else vc
      if (s.port p).serves v then .port p v { f with seg := true }
      else .drop
    else .port (s.terraceRoute f.gwDev) vc f
  else .port (s.terraceRoute f.dst) vc f

/-- The course port of an adaptive escape (R314): the smallest k whose port is ADMITTED. -/
def State.escapePort (s : State) : Option (Fin 16) :=
  ((List.range 7).map (fun k => coursePort (devS s.dev) ((devS s.dev + k + 1) % 8))).find? (fun p => (s.port p).st == .admitted)

/-- The course port of an adaptive escape (R314), where escapes are enabled and the flit's port is one that rules 1 to 3 choose. -/
def State.escapes (s : State) (p : Fin 16) : Bool := s.rbit R.LK_ESC 16 && !isWork p

/-- A flit that cannot proceed is dropped, counted and logged with its destination (R314). -/
def State.unreachable (s : State) (f : Flit) : State := (s.routeCount 0 1).ev 0x831 0xFF (leBytes 2 f.dst)

/-- REFUSE with a reason, as the flit that answers a request (R309, R314). -/
def refuseOf (own : Nat) (f : Flit) (reason : Nat) : Flit :=
  { src := own, dst := f.src, typ := 5, id := f.id, payload := leBytes 1 reason }

/-- A flit goes out by the router's choice, with an escape where its port cannot carry it (R314); `inp` is the port and VC that it came in by.
The second part says that the flit was dropped as one that cannot proceed. A port in QUARANTINE still carries VC7 (R318). -/
def State.place (s : State) (f : Flit) (vc : Nat) (inp : Option (Nat × Nat)) : State × Bool :=
  match s.route f vc with
  | .here => ({ s with inbox := s.inbox ++ [(match inp with | some i => i.1 | none => 16, f)] }, false)
  | .drop => ((s.routeCount 0 1).freeBuf inp, false)
  | .unreachable => ((s.unreachable f).freeBuf inp, true)
  | .port p v g =>
    let stay := s.enqueue p ⟨v, needCredits (inp.map (·.1)) p, inp, g⟩
    if (s.port p).carries v ∨ !s.escapes p then (stay, false)
    else if 7 ≤ g.esc then ((s.unreachable f).freeBuf inp, true)
    else
      match s.escapePort with
      | some e => ((s.routeCount 1 1).enqueue e ⟨v, needCredits (inp.map (·.1)) e, inp, { g with esc := g.esc + 1 }⟩, false)
      | none => (stay, false)

/-! ## Injection and end-to-end numbering (R315, R316) -/

/-- The virtual channel of a flit at injection; the gathering, distribution and tally-exchange traffic of collectives uses VC3, their reductions and
RETRY VC2 (R312, R338). -/
def injectVc (f : Flit) : Nat :=
  if f.typ = 0x10 then (if bits f.id 31 8 = 0xFFFFFF ∨ (leAt f.payload 12 1 = 4 ∧ !(leAt f.payload 3 1).testBit 2) then 3 else 2)
  else vcOf f.typ false

/-- The tally entry of a collective identifier, with its index (R354). -/
def State.tallyOf (s : State) (id : Nat) : Option (Nat × Tally) := s.tally.find? (fun e => e.2.id == id)
/-- Replaces the tally entry at an index. -/
def State.setTally (s : State) (i : Nat) (t : Tally) : State := { s with tally := SMap.insert i t s.tally }
/-- Is the identifier one of the tally exchange (R331)? -/
def isExchange (id : Nat) : Bool := bits id 31 8 == 0xFFFFFF

/-- A COLL flit that this module originates enters the sent digest (R354). -/
def State.tallySent (s : State) (f : Flit) : State :=
  if f.typ = 0x10 ∧ !isExchange f.id then
    match s.tallyOf f.id with
    | some (i, t) => s.setTally i { t with sent := (t.sent + crc64 f.body) % 2 ^ 64 }
    | none => s
  else s

/-- The alternatives of the route table for a terrace that are VALID (R315). -/
def State.routeAlts (s : State) (t : Nat) : List Nat := (List.range 4).filter (fun a => s.rbit (R.LK_ROUTE (4 * t + a)) 31)

/-- The `i`-th alternative in cyclic order. -/
def altAt (l : List Nat) (i : Nat) : Nat := l.getD (i % max 1 l.length) 0

/-- A flit with the gateway of an alternative. -/
def State.viaAlt (s : State) (f : Flit) (a : Nat) : Flit :=
  let r := s.rn (R.LK_ROUTE (4 * devT f.dst + a))
  { f with routed := true, e2e := true, gwDev := bits r 15 0, gwPort := bits r 18 16 }

/-- The sender's window of a destination. -/
def State.e2eOf (s : State) (d : Nat) : E2eTx := (s.e2eTx.find? (fun w => w.dst == d)).getD { dst := d }
/-- Replaces the sender's window of a destination. -/
def State.setE2e (s : State) (w : E2eTx) : State := { s with e2eTx := s.e2eTx.filter (fun x => x.dst != w.dst) ++ [w] }

/-- LINK_UNREACHABLE with DST, at most once per terrace per second of local time (R315). -/
def State.logUnreach (s : State) (d : Nat) : State :=
  let t := devT d
  match s.unreachLog.find? (fun e => e.1 == t) with
  | some e => if s.us < e.2 + 1000000 then s
      else { s.ev 0x831 0xFF (leBytes 2 d) with unreachLog := s.unreachLog.filter (fun x => x.1 != t) ++ [(t, s.us)] }
  | none => { s.ev 0x831 0xFF (leBytes 2 d) with unreachLog := s.unreachLog ++ [(t, s.us)] }

/-- A flit that its source cannot send for want of a VALID alternative (R315): counted and logged, and a request ends as if REFUSE with reason 2
had come. -/
def State.noRoute (s : State) (f : Flit) : State :=
  let s1 := (s.routeCount 0 1).logUnreach f.dst
  if f.typ = 1 ∨ f.typ = 3 then { s1 with inbox := s1.inbox ++ [(16, { src := f.dst, dst := f.src, typ := 5, id := f.id, payload := leBytes 1 2 })] } else s1

/-- The next flit of an end-to-end destination numbered and sent, while fewer than 256 are unacknowledged (R316). -/
def State.e2ePump (s : State) (d : Nat) : Nat → State
  | 0 => s
  | k + 1 =>
    let w := s.e2eOf d
    match w.hold with
    | [] => s
    | f :: r =>
      if 256 ≤ w.unacked.length then s
      else
        let alts := s.routeAlts (devT d)
        if alts.isEmpty then ((s.setE2e { w with hold := r }).noRoute f).e2ePump d k
        else
          let g := { s.viaAlt f (altAt alts 0) with pseq := w.next }
          (((s.setE2e { w with next := (w.next + 1) % 2 ^ 32, unacked := w.unacked ++ [(g, 1, 0)], hold := r }).tallySent g).place g (injectVc f) none).1.e2ePump d k

/-- Can a source send to a device (R315)? -/
def State.reaches (s : State) (d : Nat) : Bool := devT d == devT s.dev || !(s.routeAlts (devT d)).isEmpty

/-- A flit injected by this module: false where no alternative leads to its terrace, and then nothing is sent (R315). -/
def State.inject (s : State) (f : Flit) : State × Bool :=
  let vc := injectVc f
  let d := f.dst
  if devT d = devT s.dev then (((s.tallySent f).place f vc none).1, true)
  else if f.typ = 0x21 then
    -- an acknowledgement travels by the table and is not itself acknowledged
    if (s.routeAlts (devT d)).isEmpty then ((s.routeCount 0 1).logUnreach d, false)
    else
      let g := s.viaAlt f (altAt (s.routeAlts (devT d)) 0)
      ((s.place { g with e2e := false } vc none).1, true)
  else if (s.routeAlts (devT d)).isEmpty then ((s.routeCount 0 1).logUnreach d, false)
  else
    let w := s.e2eOf d
    ((s.setE2e { w with hold := w.hold ++ [f] }).e2ePump d (w.hold.length + 1), true)

/-- A flit in transit goes on (R314). A READ_REQ or WRITE that cannot proceed is answered with REFUSE, reason 2, to its source; the loss of that
answer is only counted. -/
def State.relay (s : State) (f : Flit) (vc : Nat) (inp : Option (Nat × Nat)) : State :=
  let r := s.place f vc inp
  if r.2 && (f.typ = 1 || f.typ = 3) then (r.1.inject (refuseOf r.1.dev f 2)).1 else r.1

/-! ## Peer requests (R240, R309, R317) -/

/-- A request to a peer: the flit leaves and the request waits for its reply; false where it is refused at once (R315). -/
def State.peerRequest (s : State) (t : Txn) (data : Bytes) : State × Bool :=
  let f : Flit := { src := s.dev, dst := t.dev, typ := if t.write then 3 else 1, id := t.addr % 2 ^ 48,
                    payload := if t.write then padTo 192 data ++ leBytes 1 t.lines else leBytes 1 t.lines }
  let r := s.inject f
  if r.2 then ({ r.1 with txns := r.1.txns ++ [t] }, true) else r

/-! ## Management flits of the gatehouse (R319) -/

/-- Tokens of the limiter at this time: RATE per µs, at most 16, with a burst of 256. -/
def State.mgmtFill (s : State) : State :=
  let n := (s.us - s.mgmtTime) * min 16 (s.rfld R.LK_MGMT 7 0)
  { s with mgmtTokens := min 256 (s.mgmtTokens + n), mgmtTime := s.us }

/-- A flit of VC7 leaves by a port (R318), or by the router where no port is named. -/
def State.mgmtGo (s : State) (p : Option (Fin 16)) (f : Flit) : State :=
  match p with
  | some p => s.enqueue p ⟨7, 1, none, f⟩
  | none => (s.inject f).1

/-- Held management flits leave while tokens last; `k` bounds how many. -/
def State.mgmtPump (s : State) : Nat → State
  | 0 => s
  | k + 1 =>
    match s.mgmtHold with
    | [] => s
    | (p, f) :: r => if s.mgmtTokens = 0 then s
        else (({ s with mgmtHold := r, mgmtTokens := s.mgmtTokens - 1 } : State).mgmtGo p f).mgmtPump k

/-- Tokens come with time, and what they admit leaves (R319). -/
def State.mgmtTick (s : State) : State := s.mgmtFill.mgmtPump s.mgmtHold.length

/-- A management flit of the gatehouse passes the limiter. -/
def State.mgmtSend (s : State) (p : Option (Fin 16)) (f : Flit) : State := ({ s with mgmtHold := s.mgmtHold ++ [(p, f)] } : State).mgmtTick

/-- A management flit of class 1 with a 32-byte commit message (R227, R309). -/
def State.sendCommit (s : State) (d : Nat) (msg : Bytes) : State :=
  s.mgmtSend none { src := s.dev, dst := d, typ := 0x20, id := 0, payload := leBytes 4 1 ++ padTo 32 msg }

/-- A membership message to a device, as a flit with the sender's EPOCH (R309, R325); a module that holds no number sends 0xFFFF as SRC. -/
def State.memFlit (s : State) (dst : Nat) (m : MemMsg) : Flit :=
  { src := if s.member then s.dev else 0xFFFF, dst := dst, typ := 0x20, id := 0, payload := leBytes 2 2, mem := some (s.rn R.LK_EPOCH, m) }

/-- A membership message to the partner of a port (R322, R327). -/
def State.memSendPort (s : State) (p : Fin 16) (m : MemMsg) : State := s.mgmtSend (some p) (s.memFlit (s.rfld (R.LK_PARTNER p) 15 0) m)

/-- The port by which a module that holds no number reaches a device: its partner's, or the first that carries flits. -/
def State.portOf (s : State) (d : Nat) : Option (Fin 16) :=
  let l := (List.finRange 16).filter (fun p => (s.port p).carries 7)
  match l.find? (fun (p : Fin 16) => s.rfld (R.LK_PARTNER p) 15 0 == d) with
  | some p => some p
  | none => l.head?

/-- A membership message to a device (R324 to R327). -/
def State.memSend (s : State) (dst : Nat) (m : MemMsg) : State := s.mgmtSend (if s.member then none else s.portOf dst) (s.memFlit dst m)

/-- An image in parts of 128 bytes with their offsets, at least one (R386; the size is the model's, log 53). -/
def partsOf (b : Bytes) : List (Nat × Bytes) := (List.range (max 1 ((b.length + 127) / 128))).map (fun i => (128 * i, (b.drop (128 * i)).take 128))

/-- An image to a device, a flit a part: each passes the limiter (R319, R386). -/
def State.memSendParts (s : State) (dst : Nat) (mk : Nat → Nat → Bytes → MemMsg) (b : Bytes) : State :=
  (partsOf b).foldl (fun t p => t.memSend dst (mk b.length p.1 p.2)) s

end Sys2Proof.Machine
end

