-- ==== Sys2Proof/Machine/Mmu.lean ====
section
/-! DEFINITION. The device MMU (R241 to R245), Mergo and stockyard accesses with their error correction (R248, R249, R251, R253),
and the bank and seam arbiters (R262 to R266, R271, R272). -/
namespace Sys2Proof.Machine

/-! ## Translation (R242, R243) -/

/-- A translated access. -/
structure Xl where
  target : Target
  dev : Nat
  addr : Nat
  nc : Bool
  page : Nat
  deriving DecidableEq, Repr

/-- The index into the table of a level (R242). -/
def walkIndex (lvl va : Nat) : Nat :=
  match lvl with
  | 1 => bits va 47 39
  | 2 => bits va 38 30
  | 3 => bits va 29 21
  | _ => bits va 20 16

/-- Is a valid entry malformed at its level (R242)? -/
def pteBad (lvl e : Nat) : Bool :=
  let leaf := e.testBit 2
  let tgt := bits e 8 7
  bits e 11 9 != 0 || e.testBit 5 || e.testBit 1 || tgt == 3 || (tgt != 1 && bits e 63 48 != 0) || (e.testBit 4 && !e.testBit 3)
    || (leaf && decide (lvl < 3)) || (!leaf && lvl == 4) || (!leaf && tgt != 0)
    || (leaf && bits e (if lvl = 3 then 20 else 15) 12 != 0)

/-- The walk from a table at a level; `n` levels remain. A table that cannot be read counts as malformed. The result is a leaf with
its level, or the kind of the failure. -/
def walk (s : State) (va : Nat) : Nat → Nat → Nat → Nat ⊕ (Nat × Nat)
  | 0, _, _ => .inl 4
  | n + 1, lvl, table =>
    let a := table + 8 * walkIndex lvl va
    if !isMergo a || s.badRead a 8 then .inl 4
    else
      let e := s.le a 8
      if !e.testBit 0 then .inl 1
      else if pteBad lvl e then .inl 4
      else if e.testBit 2 then .inr (e, lvl)
      else walk s va n (lvl + 1) (bits e 47 12 * 4096)

/-- The leaf of a page checked: no access (kind 2), or register space without REGS (kind 5). -/
def leafEnt (s : State) (agent ctx va e lvl : Nat) : Nat ⊕ TlbEnt :=
  let base := bits e 47 12 * 4096 + (if lvl = 3 then bits va 20 16 * 65536 else 0)
  let tgt : Target := if bits e 8 7 = 1 then .peer else if bits e 8 7 = 2 then .host else .lcl
  let regs := decide (tgt = .lcl) && isRegSpace base
  if !e.testBit 3 then .inl 2
  else if regs && !s.rbit (R.MM_CTX ctx) 1 then .inl 5
  else .inr ⟨agent, ctx, va / 65536, tgt, bits e 63 48, base, e.testBit 6 || regs || decide (tgt ≠ .lcl), e.testBit 4⟩

/-- A translation: from a cached entry or by a walk, each being allowed until an invalidation is done (R244); which one is free. A leaf that
maps register space is allowed only while REGS = 1, cached or not (R242). A failure is counted in MM_FAULTS. -/
def State.xlate (s : State) (agent ctx va : Nat) (write : Bool) : State × (Nat ⊕ Xl) :=
  let fail := fun (t : State) (k : Nat) => (t.addReg R.MM_FAULTS 1, (.inl k : Nat ⊕ Xl))
  let use := fun (t : State) (e : TlbEnt) =>
    if e.target = .lcl && isRegSpace e.base && !s.rbit (R.MM_CTX ctx) 1 then fail t 5
    else if write && !e.w then fail t 3 else (t, .inr ⟨e.target, e.dev, e.base + va % 65536, e.nc, e.page⟩)
  if !s.rbit (R.MM_CTX ctx) 0 then fail s 6
  else
    let hit := s.tlb.find? (fun e => e.agent == agent && e.ctx == ctx && e.page == va / 65536)
    let s0 := if hit.isSome then s.draw else s
    match hit, Config.freeBool s.freeCtr with
    | some e, true => use s0 e
    | _, _ =>
      let s1 := s0.addReg R.MM_WALKS 1
      match walk s va 4 1 (s.rfld (R.MM_CTX ctx) 47 12 * 4096) with
      | .inl k => fail s1 k
      | .inr (e, lvl) =>
        match leafEnt s agent ctx va e lvl with
        | .inl k => fail s1 k
        | .inr t => use { s1 with tlb := t :: s1.tlb.filter (fun x => !(x.agent == agent && x.ctx == ctx && x.page == t.page)) } t

/-! ## Invalidation (R244, R245) -/

/-- MM_INVAL: DONE clears; a write while DONE = 0 is queued behind the pending one. -/
def mmInval (s : State) (v : Nat) : State := { s.setRn R.MM_INVAL_STATUS 0 with invals := s.invals ++ [v % 2 ^ 64] }

/-- Does an invalidation name a context and page? -/
def invalNames (v ctx page : Nat) : Bool := (v.testBit 63 || bits v 61 56 == ctx) && (v.testBit 62 || bits v 47 16 == page)

/-- MM_INVAL_DONE: the oldest invalidation is done once no request that used a named translation is outstanding. -/
def mmInvalDone (s : State) : State :=
  match s.invals with
  | [] => s
  | v :: r =>
    if s.txns.any (fun t => match t.xl with | some (c, p) => invalNames v c p | none => false) then s
    else
      let s1 := { s with invals := r, tlb := s.tlb.filter (fun e => !invalNames v e.ctx e.page) }
      if r.isEmpty then s1.setRn R.MM_INVAL_STATUS 1 else s1

/-! ## Accesses and error correction (R248, R249, R253) -/

/-- The key of an arbiter: banks 0 to 895 (R252), seam m of stack k at 1024 + 32 k + m. -/
def seamKey (k m : Nat) : Nat := 1024 + 32 * k + m
/-- An arbiter. -/
def State.arb (s : State) (i : Nat) : Arb := SMap.get (fun _ => {}) s.arbs i
/-- Replaces an arbiter. -/
def State.setArb (s : State) (i : Nat) (x : Arb) : State := { s with arbs := SMap.set (fun _ => {}) s.arbs i x }
/-- Adds to a count of an arbiter (R272). -/
def Arb.count (x : Arb) (i n : Nat) : Arb := { x with counts := x.counts.set i ((x.counts.getD i 0 + n) % 2 ^ 64) }

/-- STACK_CE (R248): counted; logged at most once per seam per second of local time. -/
def State.stackCe (s : State) (a : Nat) : State :=
  let k := stackOf a
  let key := seamKey k (seamOf a)
  let s1 := (s.addReg (R.UE_ECC_CE k) 1).setArb key ((s.arb key).count 5 1)
  match s.seLast.find? (fun e => e.1 == key) with
  | some e => if s.us < e.2 + 1000000 then s1
      else { s1.ev 0x601 k [] with seLast := s.seLast.filter (fun x => x.1 != key) ++ [(key, s.us)] }
  | none => { s1.ev 0x601 k [] with seLast := s.seLast ++ [(key, s.us)] }

/-- STACK_UE (R248): the code word becomes poisoned, counted and logged once with its address. -/
def State.stackUe (s : State) (a : Nat) : State :=
  if s.poisonedAt a then s
  else ((s.poisonLine a).addReg (R.UE_ECC_UE (stackOf a)) 1).ev 0x602 (stackOf a) (leBytes 8 (a / 64 * 64))

/-- STACK_ACCESS (R248): a read, or a write of `data`, reaches the code word of a Mergo address, and the decoder finds `ecc` in a
word that is read (a write of fewer than 64 bytes reads first, an add write also). -/
def stackAccess (s : State) (a : Nat) (wdata : Option Bytes) (ecc : Ecc) : State :=
  if !(isMergo a && s.stackUp (stackOf a)) then s
  else
    let reads := match wdata with
      | none => true
      | some d => !(decide (a % 64 = 0) && decide (d.length = 64)) || (s.addWindow a).isSome
    let s1 := if !reads then s else match ecc with
      | .good => s
      | .corrected => if s.poisonedAt a then s else s.stackCe a
      | .uncorrectable => s.stackUe a
    match wdata with
    | none => s1
    | some d => s1.write a (d.take (64 - a % 64))

/-- STOCKYARD_ACCESS (R253): the same for a bank word, whose error poisons its 64-byte line. -/
def yardAccess (s : State) (a : Nat) (wdata : Option Bytes) (ecc : Ecc) : State :=
  if !isYard a then s
  else
    let reads := match wdata with
      | none => true
      | some d => decide (a % 8 ≠ 0) || decide (d.length % 8 ≠ 0)
    let s1 := if !reads || s.poisonedAt a then s else match ecc with
      | .good => s
      | .corrected => ((s.addReg R.SY_ECC_CE 1).setArb (bankOf a) ((s.arb (bankOf a)).count 5 1)).ev 0x401 0xFF []
      | .uncorrectable => ((s.poisonLine a).addReg R.SY_ECC_UE 1).ev 0x402 0xFF []
    match wdata with
    | none => s1
    | some d => s1.write a (d.take (64 - a % 64))

/-- PATROL_SCRUB (R249): one scrub read of the next code word of the pass, which yields to every other request on the seam and counts as a
seam-busy cycle (R272). The word's number in the pass is kept in UE_SCRUB_STATUS in units of 2^16, and the rest of it beside the register.
The last word of the stack ends the pass. -/
def patrolScrub (s : State) (k : Fin 8) (ecc : Ecc) : State :=
  if !s.stackUp k || decide (s.rfld (R.UE_SCRUB_CFG k) 15 0 = 0) then s
  else
    let w := s.rfld (R.UE_SCRUB_STATUS k) 31 0 * 65536 + s.scrubLow[k]
    let a := k * 0x000C00000000 + 64 * w
    let key := seamKey k (seamOf a)
    let s0 := s.setArb key ((s.arb key).count 3 1)
    let s1 := match ecc with
      | .good => s0
      | .corrected => if s.poisonedAt a then s0 else s0.stackCe a
      | .uncorrectable => s0.stackUe a
    let w1 := w + 1
    if (s.arb key).owner.isSome || !(s.arb key).waiting.isEmpty then s
    else if 0x000C00000000 ≤ 64 * w1 then
      ({ s1.setRn (R.UE_SCRUB_STATUS k) ((s.rfld (R.UE_SCRUB_STATUS k) 63 32 + 1) * 2 ^ 32) with
         scrubLow := s1.scrubLow.set k 0 } : State).ev 0x603 k []
    else { s1.setFld (R.UE_SCRUB_STATUS k) 31 0 (w1 / 65536) with scrubLow := s1.scrubLow.set k (w1 % 65536) }

/-! ## Arbitration (R262 to R266) -/

/-- The class that a request competes in: 0 once it has been revoked 8 times (R264). -/
def ArbReq.eff (r : ArbReq) : Nat := if 8 ≤ r.revoked then 0 else r.cls

/-- Does request a go before b (R263): class, then the longest wait, then the lowest requester index? -/
def ArbReq.before (a b : ArbReq) : Bool :=
  decide (a.eff < b.eff) || (a.eff == b.eff && (decide (b.waited < a.waited) || (a.waited == b.waited && decide (a.who < b.who))))

/-- The first of the requests in the order of R263. -/
def firstReq : List ArbReq → Option ArbReq
  | [] => none
  | r :: rest => match firstReq rest with
    | none => some r
    | some q => if ArbReq.before q r then some q else some r

/-- The tags of a requester by its index (R263, R265); the spec gives the gatehouse, the update engines and the scrub none. Indices above
167 are the model's (DESIGN CHOICE, log 88): 168 + k the update engine of stack k, 176 + k its scrub, 184 + b the control core of bench b. -/
def reqTags (who : Nat) : Option Nat :=
  if who < 96 then some (if who % 4 < 2 then 64 else 32)
  else if who < 148 then some 256
  else if who < 164 then some 64
  else if who < 166 then some 128
  else if who = 166 then some 256
  else if 184 ≤ who then some 32 else none

/-- May a requester raise a class, `aux` for a dresser's read of pre-activations (R91, R132, R150, R180, R211, R262, R312, R339, R379)? Never class 0; where the spec states no class, any of
1 to 4 (DESIGN CHOICE, log 88). -/
def reqClass (who cls : Nat) (write aux : Bool) : Bool :=
  let any := decide (1 ≤ cls) && decide (cls ≤ 4)
  let drain := cls == (if write then 2 else 3)
  if who < 96 then (if who % 4 = 0 then cls == 3 else if who % 4 = 1 then cls == (if write || aux then 2 else 3) else drain)
  else if who < 144 then cls == 3 || cls == 4
  else if who < 148 then drain
  else if who < 164 then (if write then cls == 1 else any)
  else if who < 166 then cls == (if write then 4 else 3)
  else if who = 166 then any
  else if who = 167 then (if write then cls == 4 else any)
  else if who < 176 then (if write then cls == 2 else any)
  else if who < 184 then cls == 4
  else if write then any else cls == 3

/-- Do n bytes at an address lie in one unit of a bank's width, or in one code word of a seam (R247, R252)? -/
def inUnit (i a n : Nat) : Bool :=
  let w := if i < 128 then 256 else if i < 896 then 512 else 64
  decide (0 < n) && decide (a / w = (a + n - 1) / w)
    && (if i < 896 then isYard a && bankOf a == i else isMergo a && seamKey (stackOf a) (seamOf a) == i)

/-- Is a request one that its requester can raise at an arbiter (R262)? -/
def ArbReq.ok (i : Nat) (r : ArbReq) : Bool :=
  reqClass r.who r.cls r.write r.aux && decide (r.who < 208) && decide (1 ≤ r.beats) && decide (r.beats ≤ 16)
    && (r.puts.isEmpty || (r.write && decide (r.puts.length = r.beats) && r.puts.all (fun p => inUnit i p.1 p.2.length)))

/-- A request that arrives at an arbiter: a derrick raises the CLASS of a descriptor that it executes (R256, R262). -/
def State.reqOk (s : State) (i : Nat) (r : ArbReq) : Bool :=
  r.ok i && (if h : 96 ≤ r.who ∧ r.who < 144 then s.derricks[r.who - 96].runs.any (fun x => x.cmd.f 1 15 13 == r.cls) else true)

/-- The requests of a requester outstanding at an arbiter. -/
def Arb.tags (x : Arb) (who : Nat) : Nat := ((x.owner.toList ++ x.waiting).filter (fun r => r.who == who)).length
/-- Would one more request exceed the requester's quota here: a quarter of its tags, an eighth while hot (R265)? -/
def Arb.full (x : Arb) (who : Nat) : Bool := match reqTags who with
  | none => false
  | some n => decide (n / (if x.hot then 8 else 4) ≤ x.tags who)

/-- The tags that a derrick holds for its requests to peers: one for each line. -/
def State.peerTags (s : State) (d : Nat) : Nat :=
  (s.txns.filter (fun t => match t.who with | .derrick e _ => e.val == d | _ => false)).foldl (fun n t => n + t.lines) 0
/-- The tags that a requester holds: at every arbiter, and a derrick's for peers. -/
def State.tagsOf (s : State) (who : Nat) : Nat :=
  s.arbs.foldl (fun n e => n + e.2.tags who) 0 + (if 96 ≤ who ∧ who < 144 then s.peerTags (who - 96) else 0)
/-- Does a requester hold every tag it has? -/
def State.tagsOut (s : State) (who : Nat) : Bool := match reqTags who with
  | none => false
  | some n => decide (n ≤ s.tagsOf who)
/-- The arbiter that serves an address, if one does. -/
def arbOf (a : Nat) : Option Nat := if isYard a then some (bankOf a) else if isMergo a then some (seamKey (stackOf a) (seamOf a)) else none
/-- Must a requester hold a request to an address back (R265)? -/
def State.quotaHeld (s : State) (who a : Nat) : Bool := match arbOf a with
  | none => false
  | some i => (s.arb i).full who || s.tagsOut who

/-- The owner's beat: the owner with one beat less, and none after its last. -/
def Arb.beat (x : Arb) : Arb := { x with owner := x.owner.bind (fun o => if o.left ≤ 1 then none else some { o with left := o.left - 1 }) }

/-- Requests raised in order join those that wait; one that would exceed its requester's quota or tags stays in the requester (R265). `els`
gives the tags that a requester holds elsewhere. -/
def Arb.raise (els : Nat → Nat) : Arb → List ArbReq → Arb
  | x, [] => x
  | x, r :: rest =>
    let full := x.full r.who || (match reqTags r.who with | none => false | some n => decide (n ≤ els r.who + x.tags r.who))
    Arb.raise els (if full then { x with held := x.held ++ [r] }
      else { x with waiting := x.waiting ++ [{ r with left := r.beats, revoked := 0, waited := 0 }] }) rest

/-- Requests that have waited one more core cycle. -/
def waitOne (l : List ArbReq) : List ArbReq := l.map (fun r => { r with waited := r.waited + 1 })

/-- The owner of the next core cycle (R263): the first request where no one owns the bank; a higher class revokes the owner, which requests
again from its first beat (R264). -/
def Arb.choose (x : Arb) : Arb :=
  match firstReq x.waiting with
  | none => x
  | some r =>
    let rest := waitOne (x.waiting.erase r)
    match x.owner with
    | none => { x.count 0 1 with owner := some r, waiting := rest }
    | some o =>
      if r.eff < o.eff then
        let o1 := { o with revoked := o.revoked + 1, left := o.beats, waited := 0 }
        let y := (x.count 0 1).count 1 1
        { (if o1.revoked = 8 then y.count 2 1 else y) with owner := some r, waiting := rest ++ [o1] }
      else { x with waiting := waitOne x.waiting }

/-- One core cycle in which n requests waited, counted (R266, R272). -/
def Arb.heat (x : Arb) (th n : Nat) (busy : Bool) : Arb :=
  let y := if decide (0 < n) || busy then x.count 3 1 else x
  let z := if x.hot then y.count 4 1 else y
  if th ≠ 0 ∧ th ≤ n then { z with hotFor := min 256 (z.hotFor + 1), coolFor := 0 } else { z with hotFor := 0, coolFor := min 256 (z.coolFor + 1) }

/-- Is an arbiter a seam's of a stack above THROTTLE (R404)? -/
def State.seamSlow (s : State) (i : Nat) : Bool := decide (1024 ≤ i) && s.pwr.hot.contains ((i - 1024) / 32)

/-- ARBITRATION_DECISION (R263 to R265): one core cycle of bank or seam i. The owner transfers a beat, whose bytes stay written whatever
follows (R264); requests held back and those that arrive are raised as their quota lets them; the owner of the next cycle is chosen. In a
`refresh` cycle of a seam nothing moves (R272), and the seams of a throttled stack accept requests in alternate cycles only (R404). -/
def arbDecide (s : State) (i : Nat) (arrive : List ArbReq) (refresh : Bool) : State :=
  let x := s.arb i
  let busy := refresh && decide (1024 ≤ i)
  let s0 := match (if busy then none else x.owner.bind (fun o => o.puts[o.beats - o.left]?)) with
    | some p => s.write p.1 p.2
    | none => s
  let y := Arb.raise (fun w => s.tagsOf w - x.tags w) { (if busy then x else x.beat) with held := [] } (x.held ++ arrive.filter (s.reqOk i))
  let slow := s.seamSlow i
  let z := if busy || (slow && x.took) then { y with waiting := waitOne y.waiting, took := false } else { y.choose with took := slow }
  s0.setArb i (z.heat (s.rfld R.SY_CFG 7 0) y.waiting.length busy)

/-- The requester that holds the most tags here; of several, the one of the lowest index (DESIGN CHOICE, log 88). -/
def Arb.most (x : Arb) : Nat :=
  (x.owner.toList ++ x.waiting).foldl (fun b r =>
    if x.tags b < x.tags r.who ∨ (x.tags b = x.tags r.who ∧ r.who < b) then r.who else b) ((x.owner.toList ++ x.waiting).head?.elim 0 (·.who))

/-- HOT_BANK (R266): at least HOT_THRESH requests have waited in each of 256 core cycles on end. -/
def hotBank (s : State) (i : Nat) : State :=
  let x := s.arb i
  if x.hot || decide (s.rfld R.SY_CFG 7 0 = 0) || decide (x.hotFor < 256) then s
  else ((s.setArb i { x with hot := true }).addReg R.SY_HOT_EVENTS 1).ev 0x410 0xFF (leBytes 2 i ++ leBytes 1 x.most)

/-- BANK_COOLS (R266): fewer than HOT_THRESH requests have waited in each of 256 core cycles on end. -/
def bankCools (s : State) (i : Nat) : State :=
  let x := s.arb i
  if x.coolFor < 256 then s else s.setArb i { x with hot := false }

/-- A write to SY_SEL (R271): the selected bank's counts are captured in SY_VIEW. -/
def sySelWrite (s : State) (v : Nat) : State :=
  let i := v % 1024
  (List.range 6).foldl (fun t w => t.setRn (R.SY_VIEW w) ((s.arb i).counts.getD w 0)) (s.setRn R.SY_SEL i)

/-- A write to UE_SEAM_SEL (R251): GRANTS, WAIT, HOT and CE of the seam are captured. -/
def seamSelWrite (s : State) (k : Fin 8) (v : Nat) : State :=
  if !s.stackUp k then s
  else
    let c := (s.arb (seamKey k (v % 32))).counts
    ([0, 3, 4, 5].zipIdx).foldl (fun t p => t.setRn (R.UE_SEAM_VIEW k p.2) (c.getD p.1 0)) (s.setRn (R.UE_SEAM_SEL k) (v % 32))

end Sys2Proof.Machine
end

