-- ==== Sys2Proof/Machine/Collect.lean ====
section
/-! DEFINITION. The collective units (R331 to R354, R358): commands, participants, chunks and their combination, gathering and raw
data, patience, completion, and the tally table. -/
namespace Sys2Proof.Machine

/-! ## Command fields (R335, R336) -/

namespace Col
def id (c : Cmd) : Nat := c.w 1
def kind (c : Cmd) : Nat := c.f 2 63 60
def exact (c : Cmd) : Bool := c.b 2 59
def poison (c : Cmd) : Bool := c.b 2 58
def comp (c : Cmd) : Bool := c.b 2 57
def mean (c : Cmd) : Bool := c.b 2 56
def ifmt (c : Cmd) : Nat := c.f 2 55 54
def ofmt (c : Cmd) : Nat := c.f 2 53 52
def xin (c : Cmd) : Int := signed 12 (c.f 2 51 40)
def count (c : Cmd) : Nat := c.f 2 31 0
def pmask (c : Cmd) : Nat := c.f 3 63 48
def pbase (c : Cmd) : Nat := c.f 3 47 32
def root (c : Cmd) : Nat := c.f 3 31 16
def patience (c : Cmd) : Nat := c.f 3 15 0
def inA (c : Cmd) : Nat := c.f 4 47 0
def out (c : Cmd) : Nat := c.f 5 47 0
def aux (c : Cmd) : Nat := c.f 6 47 0
def status (c : Cmd) : Nat := c.f 7 47 0
/-- A reduction: kinds 0 and 2. -/
def reduces (c : Cmd) : Bool := kind c == 0 || kind c == 2
/-- Elements of a chunk (R338). -/
def ch (c : Cmd) : Nat := if comp c then 352 else 48
/-- Chunks, or for the raw kinds 64-byte lines, of the buffer (R338, R341). -/
def units (c : Cmd) : Nat := if reduces c then cdiv (count c) (ch c) else count c / 64
/-- The auxiliary block's fields (R336). -/
def strmStep (a : Bytes) : Nat := leAt a 0 8
def strmRef (a : Bytes) : Nat := leAt a 8 8
def resid (a : Bytes) : Nat := leAt a 16 8
def cinfo (a : Bytes) : Nat := leAt a 24 8
def permAt (a : Bytes) : Nat := leAt a 32 8
end Col

/-! ## Participants (R332, R333) -/

/-- The high and low bits of a field of a device number, by stage code: S, X, Y, T. -/
def devField : Nat → Nat × Nat
  | 0 => (2, 0)
  | 1 => (6, 3)
  | 2 => (10, 7)
  | _ => (15, 11)

/-- A field of a device number. -/
def devGet (d code : Nat) : Nat := bits d (devField code).1 (devField code).2
/-- A device number with a field replaced. -/
def devSet (d code v : Nat) : Nat := putBits d (devField code).1 (devField code).2 v

/-- Is a field wholly covered by PMASK, or wholly open? -/
def fieldWhole (m code : Nat) : Bool :=
  let v := devGet m code
  v == 0 || v == 2 ^ ((devField code).1 + 1 - (devField code).2) - 1

/-- Is a terrace reachable for participants: the own one, or one with a VALID alternative? -/
def State.terraceIn (s : State) (t : Nat) : Bool := t == devT s.straps || !(s.routeAlts t).isEmpty

/-- The participant set of a command (R332). -/
def State.participant (s : State) (c : Cmd) (d : Nat) : Bool :=
  (d &&& Col.pmask c) == (Col.pbase c &&& Col.pmask c) && decide (devX d < s.rfld R.LK_TORUS 3 0 + 1)
    && decide (devY d < s.rfld R.LK_TORUS 7 4 + 1) && s.terraceIn (devT d)

/-- The terraces of the set, ascending. -/
def State.setTerraces (s : State) (c : Cmd) : List Nat :=
  if devGet (Col.pmask c) 3 = 0 then (List.range 32).filter s.terraceIn else [devT s.straps]

/-- The position of a device in a stage. -/
def posOf (terr : List Nat) (d code : Nat) : Nat := if code = 3 then terr.findIdx (· == devT d) else devGet d code

/-- The stages of the set with extent and own position (R332). -/
def State.stagesOf (s : State) (c : Cmd) : List (Nat × Nat × Nat) :=
  let terr := s.setTerraces c
  ([0, 1, 2, 3].filter (fun k => devGet (Col.pmask c) k == 0)).map (fun k =>
    (k, (match k with | 0 => 8 | 1 => s.rfld R.LK_TORUS 3 0 + 1 | 2 => s.rfld R.LK_TORUS 7 4 + 1 | _ => terr.length), posOf terr s.straps k))

/-- The product of the extents. -/
def extents (st : List (Nat × Nat × Nat)) : Nat := st.foldl (fun p x => p * x.2.1) 1

/-- The device at position p of stage i of a run, in the own group of that stage. -/
def CollRun.devAt (r : CollRun) (own i p : Nat) : Nat :=
  match r.stages[i]? with
  | some (k, _) => devSet own k (if k = 3 then r.terr.getD p 0 else p)
  | none => own

/-- The device of a rank: positions in the order S, X, Y, T, the first most significant (R344). -/
def CollRun.devOfRank (r : CollRun) (own : Nat) (rank : Nat) : Nat :=
  (r.stages.reverse.foldl (fun acc x =>
    (devSet acc.1 x.1 (if x.1 = 3 then r.terr.getD (acc.2 % x.2.1) 0 else acc.2 % x.2.1), acc.2 / x.2.1)) (own, rank)).1

/-- The rank of the own module (R344). -/
def CollRun.rank (r : CollRun) : Nat := r.stages.foldl (fun a x => a * x.2.1 + x.2.2) 0

/-- The product of the extents of a run: N_P. -/
def CollRun.np (r : CollRun) : Nat := extents r.stages

/-! ## Ranges (R341) -/

/-- The range that a stage range gives to position q of n. -/
def partRange (a b n q : Nat) : Nat × Nat := (a + q * (b - a) / n, a + (q + 1) * (b - a) / n)

/-- The range before stage i. -/
def CollRun.rangeAt (r : CollRun) (i : Nat) : Nat × Nat :=
  (r.stages.take i).foldl (fun x st => partRange x.1 x.2 st.2.1 st.2.2) (0, Col.units r.cmd)

/-- The own shard. -/
def CollRun.shard (r : CollRun) : Nat × Nat := r.rangeAt r.stages.length

/-- The part of [a, b) among n that holds c. -/
def partOf (a b n c : Nat) : Nat :=
  ((List.range n).find? (fun j => decide ((partRange a b n j).1 ≤ c) && decide (c < (partRange a b n j).2))).getD 0

/-- The device that owns unit c of the buffer, or the root of a broadcast (R341, R343). -/
def CollRun.ownerOf (r : CollRun) (own c : Nat) : Nat :=
  if Col.kind r.cmd = 3 then Col.root r.cmd
  else (r.stages.foldl (fun x st =>
    let j := partOf x.1 x.2.1 st.2.1 c
    let p := partRange x.1 x.2.1 st.2.1 j
    (p.1, p.2, devSet x.2.2 st.1 (if st.1 = 3 then r.terr.getD j 0 else j))) (0, Col.units r.cmd, own)).2.2

/-- Bytes received of what a device owes. -/
def CollRun.from (r : CollRun) (d : Nat) : Nat := SMap.get (fun _ => 0) r.rx d
/-- Bytes of what a device owes come in. -/
def CollRun.count (r : CollRun) (d n : Nat) : CollRun := { r with rx := SMap.set (fun _ => 0) r.rx d (r.from d + n) }

/-- The shard of the device at a rank. -/
def CollRun.shardOfRank (r : CollRun) (own rank : Nat) : Nat × Nat :=
  let d := r.devOfRank own rank
  r.stages.foldl (fun x st => partRange x.1 x.2 st.2.1 (posOf r.terr d st.1)) (0, Col.units r.cmd)

/-! ## Units -/

/-- A collective unit. -/
def State.coll (s : State) (u : Fin 4) : Coll := s.colls[u]
/-- Changes a collective unit. -/
def State.modColl (s : State) (u : Fin 4) (f : Coll → Coll) : State := { s with colls := s.colls.set u (f (s.coll u)) }
/-- The run of an identifier on a unit. -/
def Coll.run? (x : Coll) (id : Nat) : Option CollRun := x.runs.find? (fun r => Col.id r.cmd == id)
/-- Replaces a run. -/
def State.setColl (s : State) (u : Fin 4) (r : CollRun) : State :=
  s.modColl u (fun x => { x with runs := x.runs.map (fun y => if Col.id y.cmd = Col.id r.cmd then r else y) })
/-- The unit on which an identifier runs. -/
def State.collUnit (s : State) (id : Nat) : Option (Fin 4 × CollRun) :=
  [0, 1, 2, 3].findSome? (fun u : Fin 4 => ((s.coll u).run? id).map (fun r => (u, r)))
/-- A chunk of a run. -/
def CollRun.chunk (r : CollRun) (c : Nat) : ChunkSt := SMap.get (fun _ => {}) r.chunks c
/-- Replaces a chunk of a run. -/
def CollRun.setChunk (r : CollRun) (c : Nat) (k : ChunkSt) : CollRun := { r with chunks := SMap.set (fun _ => {}) r.chunks c k }
/-- CL_COUNT (R358). -/
def State.collCount (s : State) (u i n : Nat) : State := s.addReg (R.CL_COUNT u i) n
/-- Conditions of a collective are recorded in CL_FLAGS (R345, R79). -/
def State.collFlags (s : State) (u : Nat) (c : Cond) : State := s.setRn (R.CL_FLAGS u) (s.rn (R.CL_FLAGS u) ||| c.toNat)

/-- A collective queue halts (R337, R358). -/
def State.collHalt (s : State) (u : Fin 4) (cause item tag : Nat) : State :=
  ((s.modColl u (fun x => { x with q := x.q.halt cause, wait := false })).setRn (R.CL_FAULT u) (2 ^ 31 + item * 2 ^ 27 + tag)).raise 81

/-- A COLL command refused (R337). -/
def State.collRefuse (s : State) (u : Fin 4) (item : Nat) (c : Cmd) : State :=
  (s.ev 0x901 u (leBytes 3 c.tag ++ leBytes 1 item)).collHalt u 1 item c.tag

/-- The head of a collective queue under a row of opcode `op` (R334). -/
def collDispatch (s : State) (u : Fin 4) (op : Nat) (f : Cmd → State) : State :=
  let x := s.coll u
  if x.wait then s
  else dispatch s x.q [0, 0x20, 0x21, 0x90] op
    ((s.ev 0x902 u (leBytes 1 u)).collHalt u 2 0 ((x.q.cmds.head?.map Cmd.tag).getD 0)) (s.collRefuse u 1) f

/-- The head command leaves a collective queue. -/
def State.collPop (s : State) (u : Fin 4) : State := s.modColl u (fun x => { x with q := x.q.pop })

/-- Is a COLL numbered below a bound without its completion record? -/
def Coll.live (x : Coll) (n : Nat) : Bool := x.runs.any (fun r => decide (r.job < n))

/-- NOP (R334). -/
def clNop (s : State) (u : Fin 4) : State := collDispatch s u 0 (fun _ => s.collPop u)

/-- SYNC_WAIT (R334). -/
def clSyncWait (s : State) (u : Fin 4) : State :=
  collDispatch s u 0x20 (fun c => if c.w 2 ≤ s.syncVal (c.f 1 7 0) then s.collPop u else s)

/-- SYNC_SIGNAL (R334). -/
def clSyncSignal (s : State) (u : Fin 4) : State :=
  collDispatch s u 0x21 (fun c =>
    let x := s.coll u
    if c.b 1 8 && x.live x.q.nextJob then s.modColl u (fun y => { y with q := y.q.pop.defer (c.f 1 7 0) })
    else (s.collPop u).addSync (c.f 1 7 0) 1)

/-- DEFERRED_SIGNAL_ADD of a collective queue. -/
def clSigAdd (s : State) (u : Fin 4) : State :=
  let x := s.coll u
  match x.q.takeSig x.live with
  | none => s
  | some (c, q) => (s.modColl u (fun y => { y with q := q })).addSync c 1

/-! ## Checks (R337) -/

/-- Does a buffer lie in local Mergo memory or the stockyard, aligned to 64 bytes? -/
def bufOk (a n : Nat) : Bool := decide (a % 64 = 0) && (inMergo a n || inYard a n)

/-- The permutation entries of a permutation block (R344): rank, source offset, bytes, destination offset. -/
def permEntries (b : Bytes) : List (Nat × Nat × Nat × Nat) :=
  (List.range (b.length / 16)).map (fun i =>
    let w0 := leAt b (16 * i) 8
    let w1 := leAt b (16 * i + 8) 8
    (bits w0 63 48, bits w0 47 0, 64 * bits w1 63 48, bits w1 47 0))

/-- The bytes of a permutation block, by the NENT of its header (R344). -/
def State.permSize (s : State) (a : Nat) : Nat := 64 + 16 * leAt (s.bytes a 64) 0 4

/-- The entries of a permutation block, as memory holds them. -/
def State.permList (s : State) (a : Nat) : List (Nat × Nat × Nat × Nat) := permEntries (s.bytes (a + 64) (16 * leAt (s.bytes a 64) 0 4))

/-- The header of a permutation block; none where it cannot be read or a reserved field is set. -/
def State.permHead (s : State) (a : Nat) : Option Bytes :=
  (s.read a 64).filter (fun h => decide (leAt h 4 4 = 0) && !(h.drop 16).any (· != 0))

/-- The permutation block of a reshard: EXPECT and the entries; none where it cannot be read, a reserved field is set, or an entry has LEN 0. -/
def State.permBlock (s : State) (a : Nat) : Option (Nat × List (Nat × Nat × Nat × Nat)) :=
  (s.permHead a).bind (fun h => ((s.read (a + 64) (16 * leAt h 0 4)).filter (fun b => !(permEntries b).any (fun e => e.2.2.1 == 0))).map (fun b =>
    (leAt h 8 8, permEntries b)))

/-- The buffers of a command, as start and length. -/
def collBufs (c : Cmd) (shard : Nat × Nat) (isRoot : Bool) (auxb : Bytes) (perm : Nat) : List (Nat × Nat) :=
  let els := fun (r : Nat × Nat) => min (Col.count c) (r.2 * Col.ch c) - min (Col.count c) (r.1 * Col.ch c)
  let n := Col.units c
  (match Col.kind c with
    | 0 => [(Col.inA c, 4 * Col.count c), (Col.out c, 4 * els shard)]
    | 1 => [(Col.inA c, 64 * (shard.2 - shard.1)), (Col.out c, Col.count c)]
    | 2 => [(Col.inA c, 4 * Col.count c), (Col.out c, 4 * Col.count c)]
    | 3 => (if isRoot then [(Col.inA c, Col.count c)] else [(Col.inA c, 0)]) ++ [(Col.out c, Col.count c)]
    | _ => [(Col.inA c, Col.count c), (Col.out c, Col.count c)])
  ++ [(Col.status c, 64)]
  ++ (if Col.aux c = 0 then [] else [(Col.aux c, 64)])
  ++ (if Col.comp c then [(Col.resid auxb, 4 * Col.count c)] else [])
  ++ (if Col.reduces c && Col.aux c != 0 && Col.cinfo auxb != 0 then
      [(Col.cinfo auxb, 8 * (if Col.kind c = 0 then shard.2 - shard.1 else n))] else [])
  ++ (if Col.kind c = 5 ∧ Col.aux c ≠ 0 then [(Col.permAt auxb, perm)] else [])

/-- Does a block of 64 bytes lie where the checks can read it (R337, item 4)? -/
def blockOk (a : Nat) : Bool := bufOk a 64

/-- The item of R337 that a COLL command fails first. A block that item 4 refuses is not read for the items before. -/
def collItem (s : State) (c : Cmd) : Option Nat :=
  let hasAux := Col.aux c != 0 && blockOk (Col.aux c)
  let auxb := if hasAux then s.read (Col.aux c) 64 else some (List.replicate 64 0)
  let ab := auxb.getD []
  let st := s.stagesOf c
  let r : CollRun := { cmd := c, job := 0, start := 0, stages := st, terr := s.setTerraces c, auxb := ab }
  let red := Col.reduces c
  let head := Col.kind c == 5 && hasAux && blockOk (Col.permAt ab)
  let size := if head then s.permSize (Col.permAt ab) else 64
  let perm := head && bufOk (Col.permAt ab) size
  let es := if perm then s.permList (Col.permAt ab) else []
  if c.f 0 63 40 != 0 || decide (5 < Col.kind c) || (red && (decide (1 < Col.ifmt c) || decide (1 < Col.ofmt c))) || c.f 2 39 32 != 0
      || (List.range 4).any (fun i => c.f (4 + i) 63 48 != 0) || c.f 1 7 0 != 0 || isExchange (Col.id c) || auxb.isNone
      || (ab.drop 40).any (· != 0) || (head && (s.permHead (Col.permAt ab)).isNone) || (perm && (s.permBlock (Col.permAt ab)).isNone) then some 1
  else if [0, 1, 2, 3].any (fun k => !fieldWhole (Col.pmask c) k) || !s.participant c s.straps || Col.count c == 0
      || (Col.kind c == 4 && Col.count c % (64 * extents st) != 0) || (!red && Col.count c % 64 != 0)
      || (Col.kind c == 3 && !s.participant c (Col.root c)) then some 2
  else if (Col.comp c && (Col.exact c || !red)) || (Col.mean c && (!red || Col.ofmt c != 1))
      || (Col.comp c && hasAux && (bits (Col.strmRef ab) 15 8 != 2 || Col.strmStep ab % 2 ^ 32 != Col.id c / 2 ^ 32)) then some 3
  else if (collBufs c r.shard (Col.root c == s.straps) ab size).any (fun b => !bufOk b.1 b.2)
      || ((Col.comp c || Col.kind c == 5) && Col.aux c == 0)
      || es.any (fun e => !bufOk (Col.inA c + e.2.1) e.2.2.1 || e.2.2.2 % 64 != 0) then some 4
  else if (s.collUnit (Col.id c)).isSome then some 5
  else none

/-! ## Flits (R338) -/

/-- The header of a chunk (R338). -/
structure ChunkHdr where
  x : Int := 0
  fmt : Nat := 0
  flags : Nat := 0
  chunk : Nat := 0
  count : Nat := 0
  stage : Nat := 0
  attempt : Nat := 1
  req : Int := 0
  offset : Nat := 0
  bytes : Nat := 0
  deriving DecidableEq, Repr

/-- The 32 header bytes. -/
def ChunkHdr.toBytes (h : ChunkHdr) : Bytes :=
  leBytes 2 (toBits 16 h.x) ++ leBytes 1 h.fmt ++ leBytes 1 h.flags ++ leBytes 4 h.chunk ++ leBytes 4 h.count ++ leBytes 1 h.stage
    ++ leBytes 1 h.attempt ++ leBytes 2 (toBits 16 h.req) ++ leBytes 8 h.offset ++ leBytes 4 h.bytes ++ leBytes 4 0

/-- The header of a payload. -/
def ChunkHdr.ofBytes (b : Bytes) : ChunkHdr :=
  { x := signed 16 (leAt b 0 2), fmt := leAt b 2 1, flags := leAt b 3 1, chunk := leAt b 4 4, count := leAt b 8 4, stage := leAt b 12 1,
    attempt := leAt b 13 1, req := signed 16 (leAt b 14 2), offset := leAt b 16 8 % 2 ^ 48, bytes := leAt b 24 4 }

/-- A COLL flit originated by a unit; its data bytes are counted (R354, R358). -/
def State.collSend (s : State) (u : Fin 4) (dst id : Nat) (h : ChunkHdr) (data : Bytes) : State :=
  ((s.inject { src := s.straps, dst := dst, typ := 0x10, id := id, payload := h.toBytes ++ padTo 192 data }).1).collCount u 7 data.length

/-- A flit spread over the stages below `upto` by the paths of R343: in a ring to the next member, in stage S to the other slots. -/
def spread (s : State) (u : Fin 4) (r : CollRun) (h : ChunkHdr) (data : Bytes) : Nat → State
  | 0 => s
  | i + 1 =>
    let s1 := match r.stages[i]? with
      | some (0, n, q) => ((List.range n).filter (· != q)).foldl (fun t p => t.collSend u (r.devAt s.straps i p) (Col.id r.cmd) h data) s
      | some (_, n, q) => if 1 < n then s.collSend u (r.devAt s.straps i ((q + 1) % n)) (Col.id r.cmd) h data else s
      | none => s
    spread s1 u r h data i

/-- The stage over which a flit from a device came: the one field in which the two differ. -/
def CollRun.stageFrom (r : CollRun) (own src : Nat) : Option Nat :=
  (List.range r.stages.length).find? (fun i => match r.stages[i]? with
    | some (k, _, q) => posOf r.terr src k != q && r.devAt own i (posOf r.terr src k) == src
    | none => false)

/-- The position, in stage i, of the module that owns unit c of a gathering or broadcast. -/
def CollRun.ownerPos (r : CollRun) (i c : Nat) : Nat :=
  match r.stages[i]? with
  | some (k, n, _) =>
    if Col.kind r.cmd = 3 then posOf r.terr (Col.root r.cmd) k
    else
      let ab := r.rangeAt i
      partOf ab.1 ab.2 n c
  | none => 0

/-- A gathering flit passed on: along its own ring unless the next member is the owner's, and over the stages below (R343). -/
def relay (s : State) (u : Fin 4) (r : CollRun) (i c : Nat) (h : ChunkHdr) (data : Bytes) : State :=
  let s1 := match r.stages[i]? with
    | some (k, n, q) =>
      if k = 0 ∨ (q + 1) % n = r.ownerPos i c then s else s.collSend u (r.devAt s.straps i ((q + 1) % n)) (Col.id r.cmd) h data
    | none => s
  spread s1 u r h data i

/-- Raw data cut into flits of at most 192 bytes that do not cross a multiple of 192 bytes of the destination: offset and bytes. -/
def pieces : Nat → Nat → Bytes → List (Nat × Bytes)
  | 0, _, _ => []
  | k + 1, o, b => if b.isEmpty then [] else
      let n := 192 - o % 192
      (o, b.take n) :: pieces k (o + n) (b.drop n)

/-- Bytes read for a data-movement kind; of a line that returns poison they are free (R250 gives them no value). -/
def State.rawRead (s : State) (a n : Nat) : Bytes :=
  match s.read a n with
  | some b => b
  | none => (List.range n).map (fun i => if s.badRead (a + i) 1 then Config.freeByte (s.freeCtr + i) else s.byte (a + i))

/-- The header of a raw piece. -/
def rawHdr (o n : Nat) : ChunkHdr := { fmt := 2, chunk := o / 192, stage := 4, offset := o, bytes := n }

/-! ## Starting (R337, R343, R344) -/

/-- A block of raw data sent straight to a device, or written here. -/
def rawTo (s : State) (u : Fin 4) (r : CollRun) (dst o : Nat) (b : Bytes) : State :=
  if dst = s.straps then s.write (Col.out r.cmd + o) b
  else (pieces (b.length / 192 + 2) o b).foldl (fun t p => t.collSend u dst (Col.id r.cmd) (rawHdr p.1 p.2.length) p.2) s

/-- What a run sends and writes when it starts. -/
def collLaunch (s : State) (u : Fin 4) (r : CollRun) : State :=
  let c := r.cmd
  let spreadRaw := fun (t : State) (o : Nat) (b : Bytes) =>
    (pieces (b.length / 192 + 2) o b).foldl (fun t p => spread t u r (rawHdr p.1 p.2.length) p.2 r.stages.length) (t.write (Col.out c + o) b)
  match Col.kind c with
  | 1 =>
    let sh := r.shard
    spreadRaw s (64 * sh.1) (s.rawRead (Col.inA c) (64 * (sh.2 - sh.1)))
  | 3 => if Col.root c = s.straps then spreadRaw s 0 (s.rawRead (Col.inA c) (Col.count c)) else s
  | 4 =>
    let n := Col.count c / r.np
    (List.range r.np).foldl (fun t k => rawTo t u r (r.devOfRank s.straps k) (r.rank * n) (t.rawRead (Col.inA c + k * n) n)) s
  | 5 =>
    let own := ((r.perm.filter (fun e => r.devOfRank s.straps e.1 == s.straps)).map (fun e => e.2.2.1)).foldl (· + ·) 0
    let s1 := r.perm.foldl (fun t e => rawTo t u r (r.devOfRank s.straps e.1) e.2.2.2 (t.rawRead (Col.inA c + e.2.1) e.2.2.1)) s
    s1.setColl u (r.count s.straps own)
  | _ => s

/-! ## Contributions (R345, R347, R350) -/

/-- The own values of chunk c with their conditions: COUNT elements, then zeros (R338). -/
def ownVals (s : State) (r : CollRun) (c : Nat) : List (Val × Cond) :=
  let k := r.cmd
  (List.range (Col.ch k)).map (fun i =>
    let e := c * Col.ch k + i
    if Col.count k ≤ e then (.fin false 0, Cond.none)
    else
      match s.read (Col.inA k + 4 * e) 4 with
      | none => (.nan, Cond.none)
      | some b => if Col.ifmt k = 0 then (rf32Read (fromLe b) (Col.xin k), Cond.none) else fpOperand (fromLe b) FP32)

/-- The smallest exponent from x on at which every value rounds to at most `lim`; `k` bounds the search. -/
def raiseTo (vs : List Val) (lim : Int) : Nat → Int → Int
  | 0, x => x
  | k + 1, x => if vs.any (fun v => decide ((rne (v.toRat * pow2 (-x))).natAbs > lim)) then raiseTo vs lim k (x + 1) else x

/-- A value rounded to a multiple of 2^x, with inexact where it changes. -/
def toGrid (x : Int) (v : Val) : Val × Cond :=
  match v with
  | .nan => (.nan, Cond.none)
  | _ =>
    let y := v.toRat * pow2 (-x)
    let n := rne y
    (Val.ofRat ((n : Rat) * pow2 x), if (n : Rat) = y then Cond.none else Cond.inexact)

/-- The empty chunk (R346). -/
def emptyPart (c : Cmd) (attempt : Nat) (x : Int) : Part :=
  { vals := List.replicate (Col.ch c) (.fin false 0), x := x, count := 0, attempt := attempt }

/-- Is an FP32 residual of a chunk that this module sends a NaN, or poisoned (R250, R349)? The owner of a chunk sends none of it. -/
def residBad (s : State) (r : CollRun) (c : Nat) : Bool :=
  Col.comp r.cmd && !(decide (r.shard.1 ≤ c) && decide (c < r.shard.2)) && (List.range 352).any (fun i =>
    decide (c * 352 + i < Col.count r.cmd) && (match s.read (Col.resid r.auxb + 4 * (c * 352 + i)) 4 with
      | none => true
      | some b => (fpOperand (fromLe b) FP32).1.isNan))

/-- The own contribution to the first stage, its conditions, and whether NaN excluded it; a residual that counts as NaN is one of it (R250, R350). -/
def ownPart (s : State) (r : CollRun) (c : Nat) (k : ChunkSt) : Part × Cond × Bool :=
  let cmd := r.cmd
  let vs := ownVals s r c
  let cond := vs.foldl (fun a v => a.or v.2) Cond.none
  let vals := vs.map (·.1)
  let nan := vals.any Val.isNan || residBad s r c
  let x := if k.attempt = 2 then k.x2 else Col.xin cmd
  if nan && !Col.poison cmd then (emptyPart cmd k.attempt x, cond, true)
  else if Col.exact cmd then
    let bound : Int := (2 ^ 31 - 1) / (r.np : Int)
    let req := raiseTo vals bound 4096 x
    if req ≠ x then ({ emptyPart cmd k.attempt x with raise := some req, nan := nan }, cond, false)
    else
      let g := vals.map (toGrid x)
      ({ vals := g.map (·.1), x := x, count := 1, nan := nan, attempt := k.attempt }, g.foldl (fun a v => a.or v.2) cond, false)
  else ({ vals := vals, x := x, count := 1, nan := nan, attempt := k.attempt }, cond, false)

/-- `fast_combine` of R346, the exact sum of R347, or the exact sum of decoded values of R349: an incoming chunk with a
contribution, whose own exponent is no floor. -/
def combineParts (cmd : Cmd) (a v : Part) : Part × Cond :=
  let raise := match a.raise, v.raise with
    | some p, some q => some (max p q)
    | some p, none => some p
    | none, q => q
  let sums := (a.vals.zip v.vals).map (fun p => vadd p.1 p.2)
  let base : Part := { vals := sums, x := max a.x (Col.xin cmd), count := a.count + v.count, rescaled := a.rescaled,
                       nan := a.nan || v.nan, raise := raise, attempt := v.attempt }
  if raise.isSome then ({ base with vals := [], count := 0 }, Cond.none)
  else if Col.comp cmd then (base, Cond.none)
  else if Col.exact cmd then ({ base with x := v.x }, Cond.none)
  else
    let x := raiseTo sums (2 ^ 31 - 1) 4096 base.x
    let g := sums.map (toGrid x)
    ({ base with vals := g.map (·.1), x := x, rescaled := base.rescaled || decide (Col.xin cmd < x) }, g.foldl (fun c y => c.or y.2) Cond.none)

/-- A sum at a part owner in stage S with the next contribution (R342), which is an incoming chunk too: its exponent is a floor and its RESCALED
stays. -/
def joinPart (cmd : Cmd) (a e : Part) : Part × Cond := combineParts cmd { a with x := max a.x e.x, rescaled := a.rescaled || e.rescaled } e

/-- A chunk that is first seen RESCALED here, raised or received so, is counted, and the first of a run is logged (R346, R353). -/
def State.noteRescaled (s : State) (u : Fin 4) (r : CollRun) (c : Nat) (on : Bool) : State × CollRun :=
  let k := r.chunk c
  if on && !k.resc then
    let s1 := s.collCount u 1 1
    ((if r.nResc = 0 then s1.ev 0x912 u (leBytes 8 (Col.id r.cmd) ++ leBytes 4 c) else s1), { r.setChunk c { k with resc := true } with nResc := r.nResc + 1 })
  else (s, r)

/-! ## Sending a chunk of a reduction (R338, R349) -/

/-- The integer code of an element at an exponent (R47, R338). -/
def rfCode (x : Int) (v : Val) : Nat := match v with
  | .nan => 0x80000000
  | _ => toBits 32 (rne (v.toRat * pow2 (-x)))

/-- The header flags of a part. -/
def Part.flags (p : Part) : Nat := b2n p.rescaled + 2 * b2n p.raise.isSome + 4 * b2n (p.attempt == 2) + 8 * b2n p.nan

/-- The MXFP4 form of a compressed chunk (R349): the data bytes, the conditions, and the residual bytes of each element. Residuals are operands
under R34; those of an excluded chunk that count as NaN are left out and stay as they are (`skip`, log 96). -/
def compress (s : State) (r : CollRun) (c : Nat) (p : Part) (skip : Bool) : Bytes × Cond × List (Nat × Bytes) :=
  let base := c * 352
  let rr := Col.resid r.auxb
  let ops := p.vals.zipIdx.map (fun e =>
    if skip || decide (Col.count r.cmd ≤ base + e.2) then (e.1, Cond.none)
    else match s.read (rr + 4 * (base + e.2)) 4 with
      | none => (Val.nan, Cond.none)
      | some b => let o := fpOperand (fromLe b) FP32; (vadd e.1 o.1, o.2))
  let vals := ops.map (·.1)
  let rnd := randVals (r.key.getD 0) (bits (Col.strmRef r.auxb) 63 16 + base) 352
  let blocks := (List.range 11).map (fun j =>
    let vs := (vals.drop (32 * j)).take 32
    (vs, mxEncode 5 vs (some ((rnd.drop (32 * j)).take 32))))
  let data := blocks.flatMap (fun b => packElems 5 b.2.2.1) ++ blocks.flatMap (fun b => leBytes 1 b.2.1)
  let sent := blocks.flatMap (fun b => b.2.2.1.map (fun e => (mxVal 5 b.2.1 e).1))
  let res := (vals.zip sent).zipIdx.map (fun q =>
    let d := fpEncode (vadd q.1.1 (vneg q.1.2)) FP32
    (q.2, leBytes 4 d.1, d.2)) |>.filter (fun q => !skip && decide (base + q.1 < Col.count r.cmd))
  (padTo 192 data, (ops.map (·.2) ++ blocks.map (fun b => b.2.2.2) ++ res.map (fun q => q.2.2)).foldl Cond.or Cond.none,
    res.map (fun q => (rr + 4 * (base + q.1), q.2.1)))

/-- A part sent to a device in a stage. `pass` is the incoming chunk, or the empty one, where the own contribution is excluded: it travels
unchanged (R350). -/
def sendPart (s : State) (u : Fin 4) (r : CollRun) (c code dst : Nat) (p : Part) (pass : Option Part) (skip : Bool) : State :=
  let h : ChunkHdr := { x := p.x, fmt := if Col.comp r.cmd then 1 else 0, flags := p.flags, chunk := c, count := p.count, stage := code,
                        attempt := p.attempt, req := p.raise.getD 0 }
  if p.raise.isSome then s.collSend u dst (Col.id r.cmd) h []
  else if Col.comp r.cmd then
    match pass with
    | some a => s.collSend u dst (Col.id r.cmd) h (padTo 192 a.raw)
    | none =>
      let z := compress s r c p skip
      let s1 := z.2.2.foldl (fun t w => t.write w.1 w.2) (s.collFlags u z.2.1)
      s1.collSend u dst (Col.id r.cmd) h z.1
  else s.collSend u dst (Col.id r.cmd) h (p.vals.flatMap (fun v => leBytes 4 (rfCode p.x v)))

/-! ## Output (R348) -/

/-- An element of an output chunk with its conditions. -/
def outCode (c : Cmd) (p : Part) (v : Val) : Nat × Cond :=
  if Col.ofmt c = 0 then (if p.count = 0 then (0, Cond.none) else if Col.comp c then rf32Encode v (Col.xin c) else (rfCode p.x v, Cond.none))
  else if p.count = 0 then (if Col.mean c then FP32.nanCode else 0, Cond.none)
  else match v with
    | .fin s m => fpEncode (.fin s (if Col.mean c then m / (p.count : Rat) else m)) FP32
    | w => fpEncode w FP32

/-- Writes the chunk-information entry of a chunk (R348). -/
def writeCinfo (s : State) (r : CollRun) (c : Nat) (x : Int) (flags count : Nat) : State :=
  if Col.aux r.cmd = 0 ∨ Col.cinfo r.auxb = 0 then s
  else
    let i := if Col.kind r.cmd = 0 then c - r.shard.1 else c
    s.write (Col.cinfo r.auxb + 8 * i) (leBytes 2 (toBits 16 x) ++ leBytes 2 flags ++ leBytes 4 count)

/-- The valid elements of a chunk. -/
def chunkLen (c : Cmd) (i : Nat) : Nat := min (Col.ch c) (Col.count c - i * Col.ch c)

/-- A finished chunk at its shard owner, which writes it and, for all-reduce, starts its gathering (R342, R348). -/
def ownerWrite (s : State) (u : Fin 4) (r : CollRun) (c : Nat) (p : Part) : State × CollRun :=
  let cmd := r.cmd
  let els := (p.vals.take (chunkLen cmd c)).map (outCode cmd p)
  let els := if els.isEmpty then List.replicate (chunkLen cmd c) (outCode cmd p (.fin false 0)) else els
  let data := els.flatMap (fun e => leBytes 4 e.1)
  let e0 := c * Col.ch cmd
  let at0 := Col.out cmd + 4 * (if Col.kind cmd = 0 then e0 - r.shard.1 * Col.ch cmd else e0)
  let flags := p.flags + (if p.count = 0 then 16 else 0)
  let s1 := ((s.write at0 data).collFlags u (els.foldl (fun k e => k.or e.2) Cond.none)).collCount u 0 1
  let s2 := writeCinfo s1 r c p.x flags p.count
  let s3 := if Col.kind cmd = 2 then
      (pieces 9 (4 * e0) data).foldl (fun t q => spread t u r
        { rawHdr q.1 q.2.length with x := p.x, flags := flags, count := p.count, attempt := p.attempt } q.2 r.stages.length) s2
    else s2
  (s3, { r with minCount := some (match r.minCount with | some m => min m p.count | none => p.count), nan := r.nan || p.nan })

/-- The restart of a chunk under a RETRY with its exponent (R347): what was held of attempt 1 is dropped. -/
def ChunkSt.retry (k : ChunkSt) (x : Int) : ChunkSt :=
  { k with stage := 0, res := none, attempt := 2, x2 := x, fin := false, raised := false, inn := k.inn.filter (fun e => e.2.2.attempt == 2) }

/-- A chunk that has passed the last stage, at its owner. -/
def finishChunk (s : State) (u : Fin 4) (r : CollRun) (c : Nat) (p : Part) : State :=
  let k := r.chunk c
  match p.raise with
  | some q =>
    if r.closed then
      let o := ownerWrite s u (r.setChunk c { k with fin := true }) c { emptyPart r.cmd p.attempt p.x with nan := p.nan }
      o.1.setColl u o.2
    else
      let s1 := (s.ev 0x913 u (leBytes 8 (Col.id r.cmd) ++ leBytes 4 c ++ leBytes 2 (toBits 16 q))).collCount u 2 1
      let r1 := { r.setChunk c (k.retry q) with nRetr := r.nRetr + 1 }
      (spread s1 u r { x := q, flags := 4, chunk := c, stage := 4, attempt := 2, req := q } [] r.stages.length).setColl u r1
  | none =>
    let o := ownerWrite s u (r.setChunk c { k with fin := true }) c p
    o.1.setColl u o.2

/-! ## CHUNK_COMBINE (R346 to R350) -/

/-- Is an input from a device awaited: its module a member, and the collective not closed (R333, R351)? -/
def State.awaited (s : State) (r : CollRun) (dev : Nat) : Bool := !r.closed && s.members.contains dev

/-- What a chunk waits for in its stage: the positions that owe it an input. -/
def CollRun.sources (r : CollRun) (c : Nat) (i : Nat) : List Nat :=
  match r.stages[i]? with
  | none => []
  | some (k, n, q) =>
    let ab := r.rangeAt i
    let j := partOf ab.1 ab.2 n c
    if k = 0 then (if j = q then (List.range n).filter (· != q) else [])
    else if q = (j + 1) % n then [] else [(q + n - 1) % n]


/-- What a member makes of a chunk in its stage (R342, R346, R347, R349): in stage S, and where the set has no stage, the inputs join a combination of the
empty chunk with the own contribution; in a ring the chunk before combines with it. An excluded contribution adds nothing (R350). -/
def CollRun.sum (r : CollRun) (k : ChunkSt) (own : Part) (excluded : Bool) (inputs : List Part) : Part × Cond :=
  let empty := emptyPart r.cmd k.attempt (if Col.exact r.cmd then own.x else Col.xin r.cmd)
  let direct := match r.stages[k.stage]? with
    | some (code, _) => decide (code = 0)
    | none => true
  let start := if direct then empty else inputs.headD empty
  let c1 := if excluded then (start, Cond.none) else combineParts r.cmd start own
  if direct then inputs.foldl (fun a e => let z := joinPart r.cmd a.1 e; (z.1, a.2.or z.2)) c1 else c1

/-- CHUNK_COMBINE: the chunk's inputs in its stage are present or closed, so the member combines them with its contribution and sends
the chunk on, or keeps it for the next stage. An owner whose attempt 2 is closed incomplete has COUNT 0 (R351). -/
def State.combine (s : State) (u : Fin 4) (id c : Nat) : State :=
  match (s.coll u).run? id with
  | none => s
  | some r =>
    let k := r.chunk c
    let ab := r.rangeAt k.stage
    if !Col.reduces r.cmd || k.fin || decide (c < ab.1) || decide (ab.2 ≤ c) then s
    else
      let own : Part × Cond × Bool := match k.res with
        | some p => (p, Cond.none, false)
        | none => ownPart s r c k
      let src := r.sources c k.stage
      let have' := k.inn.filter (fun e => e.1 == k.stage && e.2.2.attempt == k.attempt)
      let missing := src.filter (fun p => !have'.any (fun e => e.2.1 == p))
      if missing.any (fun p => s.awaited r (r.devAt s.straps k.stage p)) then s
      else
        let s1 := s.collFlags u own.2.1
        let fresh := own.2.2 && !k.excl
        let s2 := if fresh then (s1.ev 0x910 u (leBytes 8 id ++ leBytes 4 c ++ leBytes 2 s.straps)).collCount u 3 1 else s1
        let nc := if r.closed then 0 else missing.length
        let k1 := { k with inn := k.inn.filter (fun e => e.1 != k.stage), excl := k.excl || own.2.2 }
        let r1 := { r.setChunk c k1 with nExcl := if fresh then r.nExcl + 1 else r.nExcl, nClosed := r.nClosed + nc }
        let s3 := if nc = 0 then s2 else s2.collCount u 4 nc
        let sum := r.sum k own.1 own.2.2 (have'.map (·.2.2))
        let n1 := (s3.collFlags u sum.2).noteRescaled u { r1 with nan := r1.nan || sum.1.nan } c sum.1.rescaled
        let k2 := n1.2.chunk c
        let last := if r.closed && decide (k.attempt = 2) && !missing.isEmpty then { emptyPart r.cmd 2 k.x2 with nan := sum.1.nan } else sum.1
        match r.stages[k.stage]? with
        | none => finishChunk n1.1 u n1.2 c last
        | some (code, n, q) =>
          let j := partOf ab.1 ab.2 n c
          if j ≠ q then
            let dst := r.devAt s.straps k.stage (if code = 0 then j else (q + 1) % n)
            let pass := if own.2.2 then some ((have'.map (·.2.2)).headD (emptyPart r.cmd k.attempt (Col.xin r.cmd))) else none
            let s4 := sendPart n1.1 u n1.2 c code dst sum.1 pass (k1.excl && residBad s r c)
            (s4.collCount u 0 1).setColl u (n1.2.setChunk c { k2 with fin := true, raised := sum.1.raise.isSome })
          else if k.stage + 1 = r.stages.length then finishChunk n1.1 u n1.2 c last
          else n1.1.setColl u (n1.2.setChunk c { k2 with stage := k.stage + 1, res := some sum.1 })

/-- CHUNK_COMBINE; where `bad`, the first line of the member's own input proves uncorrectable in the unit's buffer, and its request completes as a
poisoned response (R250, R423). -/
def chunkCombine (s : State) (u : Fin 4) (id c : Nat) (bad : Bool) : State :=
  match bad, (s.coll u).run? id with
  | true, some r =>
    let t := (s.spoil (Col.inA r.cmd + 4 * (c * Col.ch r.cmd))).combine u id c
    { t with bridge := { t.bridge with late := s.bridge.late } }
  | _, _ => s.combine u id c

/-! ## COLL_FLIT (R338, R340, R347, R354) -/

/-- A late flit (R340): discarded, counted, and logged once for its identifier. -/
def State.lateFlit (s : State) (u : Fin 4) (id : Nat) : State :=
  let s1 := s.collCount u 5 1
  if s.lateLog.contains id then s1 else { s1.ev 0x914 u (leBytes 8 id) with lateLog := SSet.insert id s.lateLog }

/-- An accepted flit enters the received digest (R354). -/
def State.tallyRecv (s : State) (f : Flit) : State :=
  match s.tallyOf f.id with
  | some (i, t) => s.setTally i { t with recv := (t.recv + crc64 f.body) % 2 ^ 64 }
  | none => s

/-- The elements of a reduction flit, MXFP4 or RF32, with what reading them signals (R34, R338). -/
def flitVals (h : ChunkHdr) (data : Bytes) : List (Val × Cond) :=
  if h.fmt = 1 then (List.range 11).flatMap (fun j => (List.range 32).map (fun i => mxVal 5 ((data.getD (176 + j) 0).toNat) (elemAt 5 data (32 * j + i))))
  else (List.range 48).map (fun i => (rf32Read (leAt data (4 * i) 4) h.x, Cond.none))

/-- The part that a reduction flit carries. -/
def partOfFlit (c : Cmd) (h : ChunkHdr) (data : Bytes) : Part :=
  let vals := (flitVals h data).map (·.1)
  { vals := if h.flags.testBit 1 then [] else vals.take (Col.ch c), x := h.x, count := h.count, rescaled := h.flags.testBit 0,
    nan := h.flags.testBit 3, raise := if h.flags.testBit 1 then some h.req else none, attempt := h.attempt, raw := data }

/-- A flit of a running collective: accepted into its chunk, its output or its retry, or late. -/
def collAccept (s : State) (u : Fin 4) (r : CollRun) (f : Flit) : State :=
  let h := ChunkHdr.ofBytes f.payload
  let data := f.payload.drop 32
  let id := f.id
  if r.closed then s.lateFlit u id
  else if h.stage = 4 ∧ h.flags.testBit 2 ∧ h.fmt ≠ 2 then
    -- RETRY: the chunk starts again under its exponent, and the flit goes on by the gathering paths
    let s1 := s.tallyRecv f
    let s2 := match r.stageFrom s.straps f.src with
      | some i => relay s1 u r i h.chunk h []
      | none => s1
    (s2.collCount u 2 1).setColl u { r.setChunk h.chunk ((r.chunk h.chunk).retry h.x) with nRetr := r.nRetr + 1 }
  else if h.stage = 4 then
    let s1 := s.tallyRecv f
    let b := data.take h.bytes
    let s2 := s1.write (Col.out r.cmd + h.offset) b
    if Col.kind r.cmd = 4 ∨ Col.kind r.cmd = 5 then s2.setColl u (r.count f.src b.length)
    else
      let c := if Col.kind r.cmd = 2 then h.offset / (4 * Col.ch r.cmd) else h.offset / 64
      let s3 := match r.stageFrom s.straps f.src with
        | some i => relay s2 u r i c h b
        | none => s2
      if Col.kind r.cmd = 2 then
        let n := s3.noteRescaled u r c (h.flags.testBit 0)
        let r := n.2
        let k := r.chunk c
        let done := decide (4 * chunkLen r.cmd c ≤ k.got + b.length)
        let s4 := if done then writeCinfo n.1 r c h.x h.flags h.count else n.1
        let mc := match r.minCount with
          | some m => min m h.count
          | none => h.count
        let r1 := (r.setChunk c { k with got := k.got + b.length }).count (r.ownerOf s.straps c) b.length
        s4.setColl u { r1 with minCount := some mc, nan := r.nan || h.flags.testBit 3 }
      else s3.setColl u (r.count (r.ownerOf s.straps c) b.length)
  else
    let c := h.chunk
    let k := r.chunk c
    match r.stages.findIdx? (fun x => x.1 == h.stage) with
    | none => s.lateFlit u id
    | some i =>
      if h.attempt < k.attempt then s.tallyRecv f
      else if (k.fin && decide (h.attempt = k.attempt)) || decide (i < k.stage ∧ h.attempt = k.attempt) then s.lateFlit u id
      else
        let n := ((s.tallyRecv f).collFlags u (if h.flags.testBit 1 then Cond.none else (flitVals h data).foldl (fun a v => a.or v.2) Cond.none)).noteRescaled u r c
          (h.flags.testBit 0)
        n.1.setColl u (n.2.setChunk c { n.2.chunk c with inn := k.inn ++ [(i, posOf r.terr f.src h.stage, partOfFlit r.cmd h data)] })

/-- A COLL flit of a reduction or data movement: accepted, held early (R340), or late. -/
def collFlit (s : State) (f : Flit) : State :=
  match s.collUnit f.id with
  | some (u, r) => collAccept s u r f
  | none =>
    if s.ended.contains f.id then s.lateFlit 0 f.id
    else if 512 ≤ s.early.length then s.collCount 0 6 1 else { s with early := s.early ++ [f] }

/-! ## COLL (R337, R354) -/

/-- The lowest free index of the tally table, or none. -/
def State.tallyFree (s : State) : Option Nat := (List.range 4096).find? (fun i => !s.tally.any (fun e => e.1 == i))

/-- The head COLL starts: what it sends goes out, and the flits that came early are handed over (R340). -/
def collBegin (s : State) (u : Fin 4) (c : Cmd) (key : Option Nat) : State :=
  let auxb := if Col.aux c = 0 then [] else s.bytes (Col.aux c) 64
  let pb := if Col.kind c = 5 then (s.permBlock (Col.permAt auxb)).getD (0, []) else (0, [])
  let r : CollRun := { cmd := c, job := (s.coll u).q.job, start := s.us, stages := s.stagesOf c, terr := s.setTerraces c, auxb := auxb,
                       perm := pb.2, expect := pb.1, key := key }
  let s1 := s.modColl u (fun x => { x with q := x.q.popJob, runs := x.runs ++ [r], wait := false })
  let s2 := collLaunch s1 u r
  let mine := s2.early.filter (fun f => f.id == Col.id c)
  let s3 : State := { s2 with early := s2.early.filter (fun f => f.id != Col.id c), ended := SSet.erase (Col.id c) s2.ended, lateLog := SSet.erase (Col.id c) s2.lateLog }
  mine.foldl (fun t f => collFlit t f) s3

/-- COLL (R337): checked; its tally entry allocated; its stream claimed with COMPRESS, and otherwise started. -/
def coll (s : State) (u : Fin 4) : State :=
  collDispatch s u 0x90 (fun c =>
    if 4 ≤ (s.coll u).runs.length then s
    else
      match collItem s c with
      | some i => s.collRefuse u i c
      | none =>
        let alloc : Option State := match s.tallyOf (Col.id c) with
          | some (i, t) => some (s.setTally i t)
          | none => match s.tallyFree with
            | some i => some (s.setTally i { id := Col.id c })
            | none => none
        match alloc with
        | none => (s.ev 0x915 u (leBytes 3 c.tag)).collHalt u 4 0 c.tag
        | some s1 =>
          if Col.comp c then
            let a := s.bytes (Col.aux c) 64
            (s1.modColl u (fun x => { x with wait := true })).submitClaim (.coll u) (Col.strmStep a) (Col.strmRef a)
          else collBegin s1 u c none)

/-- The claim of the waiting COLL is decided (R167, R337). -/
def collClaimed (s : State) (u : Fin 4) (res : Nat ⊕ Nat) : State :=
  let x := s.coll u
  match x.wait, x.q.cmds with
  | true, c :: _ => (match res with
    | .inl key => collBegin s u c (some key)
    | .inr _ => s.collHalt u 3 0 c.tag)
  | _, _ => s.modColl u (fun y => { y with wait := false })

/-! ## Patience and completion (R351 to R353) -/

/-- What each other device owes this module and has not sent, in bytes (R342 to R344); a reshard knows the total alone, which stands under the own
number. -/
def CollRun.owed (r : CollRun) (own : Nat) : List (Nat × Nat) :=
  let c := r.cmd
  let sz := fun (x : Nat × Nat) => if Col.reduces c then 4 * (min (Col.count c) (x.2 * Col.ch c) - min (Col.count c) (x.1 * Col.ch c)) else 64 * (x.2 - x.1)
  let debt := fun (k : Nat) => match Col.kind c with
    | 1 => sz (r.shardOfRank own k)
    | 2 => sz (r.shardOfRank own k)
    | 3 => if r.devOfRank own k = Col.root c then Col.count c else 0
    | 4 => Col.count c / r.np
    | _ => 0
  if Col.kind c = 5 then [(own, r.expect - (r.rx.map (·.2)).foldl (· + ·) 0)]
  else ((List.range r.np).filter (fun k => k != r.rank)).map (fun k => (r.devOfRank own k, debt k - r.from (r.devOfRank own k)))

/-- Inputs of data, counted by the 192 bytes of a flit: those that the given devices still owe. -/
def dataInputs (l : List (Nat × Nat)) : Nat := l.foldl (fun a e => a + cdiv e.2 192) 0

/-- What members still owe, and what others do (R333). -/
def State.owedBy (s : State) (r : CollRun) : List (Nat × Nat) × List (Nat × Nat) :=
  (r.owed s.straps).partition (fun e => e.1 == s.straps || s.members.contains e.1)

/-- The inputs that a chunk still waits for, in its stage and in the later ones that it passes here. -/
def CollRun.openInputs (r : CollRun) (c : Nat) : Nat → Nat → List (Nat × Nat)
  | 0, _ => []
  | k + 1, i =>
    match r.stages[i]? with
    | none => []
    | some (_, n, q) =>
      let ab := r.rangeAt i
      let ck := r.chunk c
      let need := ((r.sources c i).filter (fun p => !ck.inn.any (fun e => e.1 == i && e.2.1 == p && e.2.2.attempt == ck.attempt))).map (fun p => (i, p))
      need ++ (if partOf ab.1 ab.2 n c = q then r.openInputs c k (i + 1) else [])

/-- The chunk-information entries of the chunks of others that did not come whole (R351): MISSING, with COUNT 0 at XIN. -/
def missingInfo (s : State) (r : CollRun) : State :=
  if Col.kind r.cmd = 2 then
    (List.range (Col.units r.cmd)).foldl (fun t c =>
      if (r.shard.1 ≤ c ∧ c < r.shard.2) ∨ 4 * chunkLen r.cmd c ≤ (r.chunk c).got then t
      else writeCinfo t r c (Col.xin r.cmd) 16 0) s
  else s

/-- PATIENCE_EXPIRY (R351): every input still awaited is closed, a RETRY after a RAISE among them, counted, and logged once. -/
def patienceExpiry (s : State) (u : Fin 4) (id : Nat) : State :=
  match (s.coll u).run? id with
  | none => s
  | some r =>
    if r.closed then s
    else
      let red := if Col.reduces r.cmd then
          (List.range (Col.units r.cmd)).flatMap (fun c => if (r.chunk c).fin then [] else r.openInputs c 4 (r.chunk c).stage)
        else []
      let retries := (r.chunks.filter (fun e => e.2.raised)).length
      let mem := red.filter (fun e => s.members.contains (r.devAt s.straps e.1 e.2))
      let ow := s.owedBy r
      let waited := mem.length + retries + dataInputs ow.1
      let all := red.length + retries + dataInputs ow.1 + dataInputs ow.2
      let s1 := if waited = 0 then s else s.ev 0x911 u (leBytes 8 id ++ leBytes 4 waited)
      let r1 := { r with closed := true, nClosed := r.nClosed + all }
      missingInfo ((s1.collCount u 4 all).setColl u r1) r

/-- Has the module written every output, and have its sends been accepted (R260, R352): none waits for a port or for its E2E_ACK, and no chunk that it
sent with RAISE waits for RETRY? -/
def collDone (s : State) (r : CollRun) : Bool :=
  (!Col.reduces r.cmd || (List.range (Col.units r.cmd)).all (fun c => (r.chunk c).fin))
    && (r.closed || ((s.owedBy r).1.all (fun e => e.2 == 0) && r.chunks.all (fun e => !e.2.raised)))
    && s.ports.toList.all (fun p => p.wait.all (fun w => !(w.flit.typ == 0x10 && w.flit.id == Col.id r.cmd && w.flit.src == s.straps)))
    && s.e2eTx.all (fun w => (w.hold ++ w.unacked.map (·.1)).all (fun f => !(f.typ == 0x10 && f.id == Col.id r.cmd)))

/-- What participants that are not awaited never sent closes without an event (R333): counted, and marked MISSING. -/
def closeAbsent (s : State) (u : Fin 4) (r : CollRun) : State × CollRun :=
  let n := dataInputs (s.owedBy r).2
  if r.closed ∨ n = 0 then (s, r)
  else (missingInfo (s.collCount u 4 n) r, { r with nClosed := r.nClosed + n })

/-- The completion record (R353). -/
def collRecord (s : State) (r : CollRun) : Bytes :=
  let c := r.cmd
  let n := r.nClosed
  let t := (s.tallyOf (Col.id c)).map (·.2)
  leBytes 8 (Col.id c) ++ leBytes 1 (if n = 0 then 0 else 1)
    ++ leBytes 1 (b2n (decide (0 < r.nResc)) + 2 * b2n (decide (0 < r.nRetr)) + 4 * b2n (decide (0 < r.nExcl)) + 8 * b2n r.nan) ++ leBytes 2 0
    ++ leBytes 4 (if Col.reduces c then r.minCount.getD r.np else r.np) ++ leBytes 4 r.np ++ leBytes 4 n ++ leBytes 4 r.nResc
    ++ leBytes 4 r.nRetr ++ leBytes 4 r.nExcl ++ leBytes 4 (s.us - r.start) ++ leBytes 8 ((t.map Tally.sent).getD 0)
    ++ leBytes 8 ((t.map Tally.recv).getD 0) ++ leBytes 8 0

/-- COLL_COMPLETE (R352, R353). -/
def collComplete (s : State) (u : Fin 4) (id : Nat) : State :=
  match (s.coll u).run? id with
  | none => s
  | some r =>
    if !collDone s r then s
    else
      let a := closeAbsent s u r
      let s1 := (a.1.write (Col.status r.cmd) (collRecord a.1 a.2)).modColl u (fun x => { x with runs := x.runs.filter (fun y => Col.id y.cmd != id) })
      { s1 with ended := SSet.insert id s1.ended }

/-! ## Registers that act (R358) -/

/-- CL_CTRL.RESUME. -/
def clResume (s : State) (u : Fin 4) : State :=
  if !(s.coll u).q.halted then s
  else (s.modColl u (fun x => { x with q := { x.q with cause := 0 } })).setFld (R.CL_FAULT u) 31 31 0

/-- CL_CTRL.SKIP: the head leaves, and its early flits are discarded (R357). -/
def clSkip (s : State) (u : Fin 4) : State :=
  let x := s.coll u
  match x.q.halted, x.q.cmds with
  | true, c :: _ =>
    if c.op = 0x90 then
      let n := (s.early.filter (fun f => f.id == Col.id c)).length
      (({ s with early := s.early.filter (fun f => f.id != Col.id c) } : State).collPop u).collCount u 6 n
    else s.collPop u
  | _, _ => s

/-- CL_CTRL.CNT_CLR. -/
def clCntClr (s : State) (u : Fin 4) : State := (List.range 8).foldl (fun t i => t.setRn (R.CL_COUNT u i) 0) s

/-- CL_TALLY_VIEW filled from an entry. -/
def State.tallyView (s : State) (t : Option Tally) : State :=
  ([(t.map Tally.id).getD 0, (t.map Tally.sent).getD 0, (t.map Tally.recv).getD 0, b2n t.isSome].zipIdx).foldl
    (fun u p => u.setRn (R.CL_TALLY_VIEW p.2) p.1) s

/-- A write to CL_TALLY_SEL. -/
def tallySelWrite (s : State) (v : Nat) : State :=
  (s.setRn R.CL_TALLY_SEL (v % 4096)).tallyView ((s.tally.find? (fun e => e.1 == v % 4096)).map (·.2))

/-- A write to CL_TALLY_FIND. -/
def tallyFind (s : State) (v : Nat) : State := s.tallyView ((s.tallyOf (v % 2 ^ 64)).map (·.2))

/-- CL_TALLY_RETIRE, and the retirement after a decision (R354). -/
def tallyRetire (s : State) (v : Nat) : State := { s with tally := s.tally.filter (fun e => decide (v % 2 ^ 32 < e.2.id / 2 ^ 32)) }

/-- A tally entry proves uncorrectable (R423). -/
def tallyUe (s : State) (i : Nat) : State :=
  match s.tally.find? (fun e => e.1 == i) with
  | some (j, t) => (s.setTally j { t with bad := true }).ev 0x917 0 (leBytes 8 t.id)
  | none => s

end Sys2Proof.Machine
end

