-- ==== Sys2Proof/Machine/Derrick.lean ====
section
/-! DEFINITION. The derricks (R255 to R261, R267, R270). -/
namespace Sys2Proof.Machine

/-! ## Descriptor fields (R256, R259) -/

namespace Dsc
def rows (c : Cmd) : Nat := c.f 1 63 48
def rlen (c : Cmd) : Nat := c.f 1 47 32
def esize (c : Cmd) : Nat := c.f 1 31 30
def srct (c : Cmd) : Nat := c.f 1 29 28
def dstt (c : Cmd) : Nat := c.f 1 27 26
def phys (c : Cmd) : Bool := c.b 1 25
def trans (c : Cmd) : Bool := c.b 1 24
def sfmt (c : Cmd) : Nat := c.f 1 23 20
def dfmt (c : Cmd) : Nat := c.f 1 19 16
def cls (c : Cmd) : Nat := c.f 1 15 13
def tokv (c : Cmd) : Bool := c.b 1 12
def src (c : Cmd) : Nat := c.w 2
def dst (c : Cmd) : Nat := c.w 3
def dstride (c : Cmd) : Nat := c.f 4 63 32
def sstride (c : Cmd) : Nat := c.f 4 31 0
def w5 (c : Cmd) : Nat := c.w 5
def window (c : Cmd) : Nat := c.f 6 31 0
/-- The bench of SLOTFILL and PLANE. -/
def bench (c : Cmd) : Nat := c.f 6 63 59
def start (c : Cmd) : Nat := c.f 6 58 48
def tag0 (c : Cmd) : Nat := c.f 6 47 44
def span (c : Cmd) : Nat := c.f 6 43 41
def endEn (c : Cmd) : Bool := c.b 6 40
def endSlot (c : Cmd) : Nat := c.f 7 63 48
def metaAddr (c : Cmd) : Nat := c.f 7 47 0
def plane (c : Cmd) : Nat := c.f 6 58 58
def ptag (c : Cmd) : Nat := c.f 6 57 54
def bit (c : Cmd) : Nat := c.f 6 49 49
def azp (c : Cmd) : Nat := c.f 6 48 33
/-- The address space of META, as SRCT names that of SRC; beside a region source it is this module's. -/
def metaSpace (c : Cmd) : Nat := if srct c = 3 then 0 else srct c
/-- Row stride of the scale bytes: word 5 for SLOTFILL, MSTRIDE′ for PLANE. -/
def mstride (c : Cmd) : Nat := if c.op = 0x72 then c.f 5 15 0 else c.f 7 63 48
def isMx (f : Nat) : Bool := decide (9 ≤ f) && decide (f ≤ 14)
def isNw (f : Nat) : Bool := f == 5 || f == 6
def isLog (f : Nat) : Bool := decide (f < 4)
/-- Bits of an element of a format, raw elements by ESIZE. -/
def elBits (f es : Nat) : Nat :=
  if isLog f then (logFmtOf f).W else if isNw f then f - 4 else if isMx f then elemBits (f - 8) else 8 * 2 ^ es
/-- Bytes of a source row. -/
def srcBytes (c : Cmd) : Nat := if c.op = 0x71 then rlen c else cdiv (rlen c * elBits (sfmt c) (esize c)) 8
/-- Bytes of a destination element of COPY and SLOTFILL. -/
def dstSize (c : Cmd) : Nat := elBits (dfmt c) (esize c) / 8
/-- Is a COPY or SLOTFILL transposed, so that destination row j holds source column j (R188, R259)? -/
def turns (c : Cmd) : Bool := trans c && (c.op == 0x70 || c.op == 0x72)
/-- The destination rows of a descriptor. -/
def outs (c : Cmd) : Nat := if turns c then rlen c else rows c
/-- Bytes of a row that SLOTFILL writes. -/
def slotBytes (c : Cmd) : Nat := if turns c then rows c * dstSize c else cdiv (rlen c * elBits (dfmt c) (esize c)) 8
end Dsc

/-! ## Queue (R256, R258) -/

/-- A derrick. -/
def State.dk (s : State) (d : Fin 48) : Dk := s.derricks[d]
/-- Changes a derrick. -/
def State.modDk (s : State) (d : Fin 48) (f : Dk → Dk) : State := { s with derricks := s.derricks.set d (f (s.dk d)) }
/-- The bench that owns a derrick (R255). -/
def dkBench (d : Fin 48) : Fin 24 := Fin.ofNat 24 (d / 2)

/-- A derrick halts (R258, R270). -/
def State.dkHalt (s : State) (d : Fin 48) (cause detail tag : Nat) : State :=
  ((s.modDk d (fun x => { x with q := x.q.halt cause })).setRn (R.DK_FAULT d) (2 ^ 31 + detail * 2 ^ 27 + tag)).raise 81

/-- A descriptor refused (R256, R257). -/
def State.dkRefuse (s : State) (d : Fin 48) (item : Nat) (c : Cmd) : State :=
  (s.ev 0x501 d (leBytes 3 c.tag ++ leBytes 1 item)).dkHalt d 1 item c.tag

/-- The head of a derrick queue under a row of opcode `op` (R256); an unlisted opcode is refused under item 1 (R257). -/
def dkDispatch (s : State) (d : Fin 48) (op : Nat) (f : Cmd → State) : State :=
  let x := s.dk d
  if (s.bench (dkBench d)).out then s
  else dispatch s x.q [0, 0x20, 0x21, 0x70, 0x71, 0x72, 0x73] op
    (let tag := (x.q.cmds.head?.map Cmd.tag).getD 0; (s.ev 0x502 d (leBytes 3 tag)).dkHalt d 2 0 tag) (s.dkRefuse d 1) f

/-- The same for a command that moves nothing: a reserved bit of word 0 is refused (R257). -/
def dkPlain (s : State) (d : Fin 48) (op : Nat) (f : Cmd → State) : State :=
  dkDispatch s d op (fun c => if word0Reserved c then s.dkRefuse d 1 c else f c)

/-- The head descriptor leaves the queue. -/
def State.dkPop (s : State) (d : Fin 48) : State := s.modDk d (fun x => { x with q := x.q.pop })

/-- Is some descriptor numbered below a bound not complete (R260)? -/
def Dk.live (x : Dk) (n : Nat) : Bool := x.runs.any (fun r => decide (r.id < n))

/-- NOP (R256). -/
def dkNop (s : State) (d : Fin 48) : State := dkPlain s d 0 (fun _ => s.dkPop d)

/-- SYNC_WAIT (R256). -/
def dkSyncWait (s : State) (d : Fin 48) : State :=
  dkPlain s d 0x20 (fun c => if c.w 2 ≤ s.syncVal (c.f 1 7 0) then s.dkPop d else s)

/-- SYNC_SIGNAL (R256, R260). -/
def dkSyncSignal (s : State) (d : Fin 48) : State :=
  dkPlain s d 0x21 (fun c =>
    let x := s.dk d
    if c.b 1 8 && x.live x.q.nextJob then s.modDk d (fun y => { y with q := y.q.pop.defer (c.f 1 7 0) })
    else (s.dkPop d).addSync (c.f 1 7 0) 1)

/-- DEFERRED_SIGNAL_ADD of a derrick queue. -/
def dkSigAdd (s : State) (d : Fin 48) : State :=
  let x := s.dk d
  match x.q.takeSig x.live with
  | none => s
  | some (c, q) => (s.modDk d (fun y => { y with q := q })).addSync c 1

/-! ## Checks (R257) -/

/-- The physical ranges that a PHYS = 1 descriptor reads and writes in this module's address space: start, stride, count, size. -/
def Dsc.localOf (own t a : Nat) : Option Nat :=
  if t = 0 then some a else if t = 1 ∧ a / 2 ^ 48 = own then some (a % 2 ^ 48) else none

/-- Does a strided set of ranges meet register space? -/
def meetsRegs (base stride n size : Nat) : Bool :=
  (List.range n).any (fun i => overlap (base + i * stride) size 0x020000000000 0x04000000)

/-- Is an address aligned, with the stride to the next where there are several? -/
def offBy (al a stride n : Nat) : Bool := decide (a % al ≠ 0) || (decide (1 < n) && decide (stride % al ≠ 0))

/-- The item of R257 that a descriptor fails first (DESIGN CHOICE, log 89: what its items 2, 3 and 5 leave open). -/
def dkItem (s : State) (d : Fin 48) (c : Cmd) : Option Nat :=
  let sf := Dsc.sfmt c
  let df := Dsc.dfmt c
  let rows := Dsc.rows c
  let rlen := Dsc.rlen c
  let fill := decide (c.op = 0x71)
  let copy := decide (c.op = 0x70)
  let slot := decide (c.op = 0x72)
  let plane := decide (c.op = 0x73)
  let logs := Dsc.isLog sf && Dsc.isLog df
  let fmtOk := fun (f : Nat) => Dsc.isLog f || Dsc.isNw f || Dsc.isMx f || f == 15
  let n := Dsc.srcBytes c
  let ss := max 1 (Dsc.elBits sf (Dsc.esize c) / 8)
  let ds := max 1 (Dsc.elBits df (Dsc.esize c) / 8)
  let src := Dsc.localOf s.dev (Dsc.srct c) (Dsc.src c)
  let dst := Dsc.localOf s.dev (Dsc.dstt c) (Dsc.dst c)
  let (drows, dlen) := if fill then (rows, rlen) else if Dsc.trans c then (rlen, rows * ds) else (rows, rlen * ds)
  if word0Reserved c || c.f 1 11 0 != 0 || Dsc.esize c == 3 || Dsc.dstt c == 3 || !(Dsc.cls c == 3 || Dsc.cls c == 4)
      || !fmtOk sf || !fmtOk df || (!Dsc.phys c && (!fill && Dsc.srct c != 3 && decide (2 ^ 48 ≤ Dsc.src c) || ((fill || copy) && decide (2 ^ 48 ≤ Dsc.dst c))))
      || ((slot || plane) && decide (23 < Dsc.bench c)) || (slot && (decide (Dsc.span c = 0) || decide (4 < Dsc.span c)))
      || ((fill || copy) && (c.f 6 63 32 != 0 || c.w 7 != 0)) || (slot && c.f 6 39 32 != 0)
      || (plane && (c.f 6 53 50 != 0 || c.b 6 32)) then some 1
  else if rows = 0 ∨ rlen = 0 ∨ (slot ∧ (1024 < n ∨ 1024 < Dsc.slotBytes c)) ∨ (plane ∧ (512 < rows ∨ sf = 15 ∨ (Dsc.isLog sf ∧ 512 < rlen)
      ∨ (Dsc.isMx sf ∧ (rlen % 32 ≠ 0 ∨ 512 < rlen)) ∨ (Dsc.isNw sf ∧ (rlen % 4 ≠ 0 ∨ 2048 < rlen)))) then some 2
  else if !(sf == df || logs) || (Dsc.trans c && !(logs && decide (Dsc.esize c < 2)))
      || ((Dsc.isMx sf || Dsc.isNw sf) && !(plane || slot)) then some 3
  else if (Dsc.phys c && !s.rbit (R.DK_CTRL d) 8) || (!Dsc.phys c && (Dsc.dstt c != 0 || !(Dsc.srct c == 0 || Dsc.srct c == 3))) then some 4
  else if ((plane || slot) && (offBy 64 (Dsc.src c) 0 1 || offBy ss (Dsc.src c) (Dsc.sstride c) rows)) || (copy && offBy ss (Dsc.src c) (Dsc.sstride c) rows)
      || (copy && offBy ds (Dsc.dst c) (Dsc.dstride c) drows) || (fill && offBy (2 ^ Dsc.esize c) (Dsc.dst c) (Dsc.dstride c) rows)
      || (plane && Dsc.isNw sf && Dsc.metaAddr c % 4 != 0) then some 5
  else if Dsc.phys c && ((!fill && decide (Dsc.srct c ≠ 3) && (match src with | some a => meetsRegs a (Dsc.sstride c) rows n | none => false))
      || (match Dsc.localOf s.dev (Dsc.metaSpace c) (Dsc.metaAddr c) with
          | some a => (slot && Dsc.isMx sf && meetsRegs a (Dsc.mstride c) rows 16)
              || (plane && Dsc.isMx sf && meetsRegs a (Dsc.mstride c) rows (rlen / 32)) || (plane && Dsc.isNw sf && meetsRegs a 4 rows 4)
          | none => false)
      || ((fill || copy) && (match dst with
          | some a => meetsRegs a (Dsc.dstride c) drows dlen || (List.range drows).any (fun i => s.inSlots (a + i * Dsc.dstride c) dlen)
          | none => false))) then some 6
  else none

/-- Does a descriptor read a registered region (R200)? -/
def Dsc.ofRegion (c : Cmd) : Bool := srct c == 3 && c.op != 0x71

/-- The region source of a descriptor that starts (R200): the token's slot, or CURRENT, resolved once and held by an implicit pin; none where
the region is not registered or has no such slot, which the first request then finds. -/
def State.dkResolve (s : State) (c : Cmd) : State × Option RegSrc :=
  if !Dsc.ofRegion c then (s, none)
  else
    let rg := Dsc.w5 c % 2 ^ 14
    match s.region? rg with
    | none => (s, none)
    | some g =>
      if Dsc.tokv c then
        let i := bits (Dsc.w5 c) 15 14
        (s, if i < g.nslots then some ⟨rg, g.uid, i, bits (Dsc.w5 c) 31 24, (g.slot i).addr, true⟩ else none)
      else
        match g.find .current with
        | some i => (s.implPin rg i, some ⟨rg, g.uid, i, (g.slot i).gen, (g.slot i).addr, false⟩)
        | none => (s, none)

/-- Does a request still read its region (R200): registered, and under a token still of the token's GEN? A TENTATIVE slot is never read (R19,
R196), whatever GEN a token carries (DEDUCED, log 84). -/
def State.dkRegionOk (s : State) (r : DkRun) : Bool :=
  !Dsc.ofRegion r.cmd ||
    (match r.src with
    | none => false
    | some x =>
      match s.region? x.region with
      | none => false
      | some g => g.uid == x.uid && (!x.token || ((g.slot x.slot).gen == x.gen && (g.slot x.slot).st != .tentative)))

/-- Has a descriptor requests still to issue (R260)? -/
def DkRun.open' (r : DkRun) : Bool := decide (r.row < Dsc.rows r.cmd) || decide (r.put < Dsc.outs r.cmd)

/-- A checked descriptor is dispatched once the one before it has issued every request (R260), and its region source is resolved (R200). -/
def dkStart (s : State) (d : Fin 48) (op : Nat) : State :=
  dkDispatch s d op (fun c =>
    if (s.dk d).runs.any (fun r => r.open' || decide (r.cmd.op = 0x73)) then s
    else
      match dkItem s d c with
      | some i => s.dkRefuse d i c
      | none =>
        let ring := stageAddr (Dsc.bench c) 0x108 true
        let q := s.dkResolve c
        let run := fun (x : Dk) => ({ cmd := c, id := x.q.job, src := q.2, ringBase := s.rfld ring 10 0, ringSlots := s.rfld ring 27 16 } : DkRun)
        q.1.modDk d (fun x => { x with q := x.q.popJob, runs := x.runs ++ [run x] }))

/-! ## Faults of a descriptor in progress (R200, R258) -/

/-- The implicit pin of a descriptor is released when its last read is done, or it stops (R200). -/
def State.dkUnpin (s : State) (r : DkRun) : State :=
  match r.src with
  | some x => if x.token then s else s.implUnpin x.region x.uid x.slot
  | none => s

/-- A descriptor stops: it returns to the head of the queue, the address is recorded, and its requests are forgotten. -/
def State.dkStop (s : State) (d : Fin 48) (r : DkRun) (cause detail addr : Nat) : State :=
  (((s.dkUnpin r).modDk d (fun x => { x with q := x.q.putBack r.cmd r.id, runs := x.runs.filter (fun y => y.id != r.id) })).setRn
    (R.DK_FAULT_ADDR d) addr).dkHalt d cause detail r.cmd.tag

/-- DK_XLATE_FAULT (R258). A refusal, kind 7, is counted in MM_FAULTS here, as a translation counts the other kinds (R243, R245). -/
def State.dkXlate (s : State) (d : Fin 48) (r : DkRun) (kind addr : Nat) : State :=
  ((if kind = 7 then s.addReg R.MM_FAULTS 1 else s).ev 0x510 d (leBytes 3 r.cmd.tag ++ leBytes 8 addr ++ leBytes 1 kind)).dkStop d r 3 kind addr
/-- DK_POISON (R258). -/
def State.dkPoison (s : State) (d : Fin 48) (r : DkRun) (addr : Nat) : State :=
  (s.ev 0x520 d (leBytes 3 r.cmd.tag ++ leBytes 8 addr)).dkStop d r 4 0 addr
/-- VERSION_STALE of a descriptor (R200, R258). -/
def State.dkStale (s : State) (d : Fin 48) (r : DkRun) (addr : Nat) : State :=
  (s.ev 0xA13 d (leBytes 3 r.cmd.tag ++ leBytes 8 addr)).dkStop d r 5 0 addr

/-! ## Reading a source -/

/-- One place in a source or destination: this module, a peer, the host. -/
abbrev Place := Target × Nat × Nat

/-- Translates or names a place: `t` is SRCT or DSTT with PHYS = 1. -/
def State.dkPlace (s : State) (d : Fin 48) (c : Cmd) (t a : Nat) (write : Bool) : State × (Nat ⊕ (Place × Option (Nat × Nat))) :=
  if Dsc.phys c then
    if t = 2 then (s, .inr ((.host, 0, a), none))
    else if t = 1 then
      if a / 2 ^ 48 = s.dev then (s, .inr ((.lcl, 0, a % 2 ^ 48), none)) else (s, .inr ((.peer, a / 2 ^ 48, a % 2 ^ 48), none))
    else (s, .inr ((.lcl, 0, a), none))
  else
    let ctx := s.rfld (R.DK_CTRL d) 21 16
    let r := s.xlate d ctx a write
    match r.2 with
    | .inl k => (r.1, .inl k)
    | .inr x => (r.1, .inr ((x.target, x.dev, x.addr), some (ctx, x.page)))

/-- What reading some bytes of a source gives. -/
inductive Got where
  | data (b : Bytes)
  | need (ls : List (Nat × Nat × Option (Nat × Nat)))
  | xlate (kind addr : Nat)
  | poison (addr : Nat)
  deriving DecidableEq, Repr

/-- Joins two reads of neighbouring bytes. -/
def Got.join : Got → Got → Got
  | .data a, .data b => .data (a ++ b)
  | .need a, .need b => .need (a ++ b)
  | .need a, .data _ => .need a
  | .data _, g => g
  | g, _ => g

/-- A source read cut at 64-byte lines, each translated on its own; a line whose request the quota holds back is not there yet (R265). `host` gives the bytes that the host returns, in order, or none
where it refuses the access; `k` bounds the lines. -/
def dkRead (d : Fin 48) (r : DkRun) (t : Nat) : Nat → State → Nat → Nat → Option Bytes → State × Got × Option Bytes
  | 0, s, _, _, h => (s, .data [], h)
  | k + 1, s, a, n, h =>
    if n = 0 then (s, .data [], h)
    else
      let m := min n (64 - a % 64)
      let p := if t = 3 then (s, .inr ((.lcl, 0, a), none)) else s.dkPlace d r.cmd t a false
      let (s1, g, h1) : State × Got × Option Bytes :=
        match p.2 with
        | .inl kind => (p.1, .xlate kind a, h)
        | .inr ((.lcl, _, pa), _) =>
          (p.1, (if p.1.quotaHeld (96 + d) pa then .need [] else match p.1.read pa m with | some b => .data b | none => .poison pa), h)
        | .inr ((.host, _, ha), _) => (match h with
            | some b => if !p.1.busMaster then (p.1, .xlate 7 ha, none) else ((p.1.emit (.hostRead ha m)).addReg (R.HX_COUNT 2) m, .data (padTo m b), some (b.drop m))
            | none => (p.1, .xlate 7 ha, none))
        | .inr ((.peer, dev, pa), x) =>
          match r.lines.find? (fun l => l.1 == dev && l.2.1 == pa / 64) with
          | some l => (p.1, .data ((l.2.2.drop (pa % 64)).take m), h)
          | none => (p.1, .need [(dev, pa / 64, x)], h)
      let q := dkRead d r t k s1 (a + m) (n - m) h1
      (q.1, g.join q.2.1, q.2.2)

/-- READ_REQs for the lines that a row needs from peers (R309): one for each line, as long as the derrick has a tag (R255). The address where
one is refused at once (R315). -/
def askLines (d : Fin 48) (job : Nat) : State → List (Nat × Nat × Option (Nat × Nat)) → State × Option Nat
  | s, [] => (s, none)
  | s, l :: rest =>
    if (s.txns.any (fun t => decide (t.who = .derrick d job) && !t.write && t.dev == l.1 && t.addr == 64 * l.2.1)) then askLines d job s rest
    else if s.tagsOut (96 + d) then (s, none)
    else
      let q := (s.modDk d (fun x => { x with issued := true })).peerRequest ⟨.derrick d job, false, l.1, 64 * l.2.1, 1, l.2.2⟩ []
      if q.2 then askLines d job q.1 rest else (q.1, some (64 * l.2.1))

/-! ## Writing a destination -/

/-- Bytes of the lines of a peer write: the derrick's bytes in place, free bytes around them where it covers a line only in part
(the flit has no byte mask, R309). -/
def peerLine (s : State) (a : Nat) (bs : Bytes) : Bytes :=
  (List.range 64).map (fun i => if a % 64 ≤ i ∧ i < a % 64 + bs.length then bs.getD (i - a % 64) 0 else Config.freeByte (s.freeCtr + i))

/-- Does a write of the derrick to a peer's 64-byte line wait for its WRITE_ACK (R317)? -/
def ackDue (s : State) (d : Fin 48) (dev line : Nat) : Bool :=
  s.txns.any (fun t => t.write && t.dev == dev && t.addr == line && (match t.who with | .derrick e _ => e == d | _ => false))

/-- Must the derrick hold back a write to one line, given its place, by its quota or tags (R255, R265) or for the acknowledgement of an earlier
write to the line (R317)? -/
def lineHeld (s : State) (d : Fin 48) (p : Place) : Bool :=
  match p with
  | (.lcl, _, pa) => s.quotaHeld (96 + d) pa
  | (.peer, dev, pa) => s.tagsOut (96 + d) || ackDue s d dev (pa / 64 * 64)
  | _ => false

/-- A destination write cut at 64-byte lines: the state, the kind and address of a failed translation, and the bytes that wait from the first
line on that is held back. -/
def dkWrite (d : Fin 48) (r : DkRun) : Nat → State → Nat → Bytes → State × Option (Nat × Nat) × Bytes
  | 0, s, _, _ => (s, none, [])
  | k + 1, s, a, bs =>
    if bs.isEmpty then (s, none, [])
    else
      let m := min bs.length (64 - a % 64)
      let p := s.dkPlace d r.cmd (Dsc.dstt r.cmd) a true
      if (match p.2 with | .inr (pl, _) => lineHeld s d pl | .inl _ => false) then (s, none, bs) else
      match p.2 with
      | .inl kind => (p.1, some (kind, a), [])
      | .inr ((.lcl, _, pa), _) => dkWrite d r k ((p.1.write pa (bs.take m)).addReg (R.DK_BYTES d) m) (a + m) (bs.drop m)
      | .inr ((.host, _, ha), _) =>
        if !p.1.busMaster then (p.1, some (7, ha), [])
        else dkWrite d r k (((p.1.emit (.hostWrite ha (bs.take m) (p.1.rbit R.HX_CTRL 0))).addReg (R.DK_BYTES d) m).addReg (R.HX_COUNT 2) m) (a + m) (bs.drop m)
      | .inr ((.peer, dev, pa), x) =>
        let q := p.1.peerRequest ⟨.derrick d r.id, true, dev, pa / 64 * 64, 1, x⟩ (peerLine p.1 pa (bs.take m))
        if q.2 then dkWrite d r k ({ q.1 with freeCtr := q.1.freeCtr + 64 }.addReg (R.DK_BYTES d) m) (a + m) (bs.drop m)
        else (q.1, some (7, a), [])

/-! ## One row (R259) -/

/-- Element i of a packed row. -/
def elemOf (nb : Nat) (b : Bytes) (i : Nat) : Nat := (leAt b (i * nb / 8) ((nb + 7) / 8 + 1) >>> (i * nb % 8)) % 2 ^ nb

/-- A row of log codes converted (R30), with the conditions. -/
def convRow (c : Cmd) (row : Bytes) : List Nat × Cond :=
  let f := logFmtOf (Dsc.sfmt c)
  let t := logFmtOf (Dsc.dfmt c)
  let cs := (List.range (Dsc.rlen c)).map (elemOf f.W row)
  if Dsc.sfmt c = Dsc.dfmt c then (cs, Cond.none)
  else
    let os := cs.map (fun x => logToLog x f t)
    (os.map (·.1), os.foldl (fun k o => k.or o.2) Cond.none)

/-- The bytes of a source row in the destination format, with the conditions. -/
def convBytes (c : Cmd) (row : Bytes) : Bytes × Cond :=
  if Dsc.isLog (Dsc.sfmt c) ∧ Dsc.isLog (Dsc.dfmt c) ∧ Dsc.sfmt c ≠ Dsc.dfmt c then
    let o := convRow c row
    (o.1.flatMap (leBytes ((logFmtOf (Dsc.dfmt c)).W / 8)), o.2)
  else (row, Cond.none)

/-- Replaces the last descriptor in progress. -/
def State.setRun (s : State) (d : Fin 48) (r : DkRun) : State :=
  s.modDk d (fun x => { x with runs := x.runs.map (fun y => if y.id = r.id then r else y) })

/-- The last read of a descriptor done: its implicit pin is released (R200). -/
def State.dkReadDone (s : State) (r : DkRun) : State × DkRun :=
  if r.row < Dsc.rows r.cmd then (s, r) else (s.dkUnpin r, { r with src := none })

/-- A descriptor in progress replaced after it has issued a request. -/
def State.dkNext (s : State) (d : Fin 48) (r : DkRun) : State :=
  (s.setRun d r).modDk d (fun x => { x with issued := true })

/-- Is the write of n bytes at an address of the destination held back at its first line (R265, R317)? -/
def dkHeld (s : State) (d : Fin 48) (r : DkRun) (a n : Nat) : Bool :=
  decide (n ≠ 0) && (match (s.dkPlace d r.cmd (Dsc.dstt r.cmd) a true).2 with | .inr (pl, _) => lineHeld s d pl | .inl _ => false)

/-- Bytes of destination row number `put` written from an address on; from the first line that is held back they wait (R255, R265, R317). -/
def putBytes (s : State) (d : Fin 48) (r : DkRun) (a : Nat) (row : Bytes) : State :=
  let q := dkWrite d r (row.length / 64 + 2) s a row
  match q.2.1 with
  | some (k, a) => q.1.dkXlate d r k a
  | none =>
    if q.2.2.isEmpty then q.1.dkNext d { r with put := r.put + 1, lines := [], rest := (0, []) }
    else q.1.dkNext d { r with lines := [], rest := (a + (row.length - q.2.2.length), q.2.2) }

/-- Destination row number `put` of a COPY or FILL written (R258, R259). -/
def putRow (s : State) (d : Fin 48) (r : DkRun) (row : Bytes) : State :=
  putBytes s d r (Dsc.dst r.cmd + r.put * Dsc.dstride r.cmd) row

/-- A source row of a COPY, read: converted and written as a row, or kept to be transposed (R259). -/
def copyRow (s : State) (d : Fin 48) (r : DkRun) (row : Bytes) : State :=
  let c := r.cmd
  let o := convBytes c row
  let s1 := s.charge (dkBench d) c.tag o.2.toNat
  let q := s1.dkReadDone { r with row := r.row + 1, lines := [] }
  if Dsc.turns c then q.1.dkNext d { q.2 with kept := r.kept ++ [o.1] }
  else putRow q.1 d q.2 o.1

/-- Column j of the rows kept (R259). -/
def keptColumn (r : DkRun) (j : Nat) : Bytes :=
  let n := Dsc.dstSize r.cmd
  r.kept.flatMap (fun b => (b.drop (j * n)).take n)

/-- A source row of a SLOTFILL, read: converted, it waits for its slot; the columns of a transposed one wait once every row is read. -/
def slotRow (s : State) (d : Fin 48) (r : DkRun) (row md : Bytes) : State :=
  let c := r.cmd
  let o := convBytes c row
  let q := (s.charge (dkBench d) c.tag o.2.toNat).dkReadDone { r with row := r.row + 1, lines := [] }
  if Dsc.turns c then
    let r1 := { q.2 with kept := r.kept ++ [o.1] }
    q.1.dkNext d (if r1.row < Dsc.rows c then r1
      else { r1 with kept := [], waits := (List.range (Dsc.rlen c)).map (fun j => (keptColumn r1 j, none)) })
  else q.1.dkNext d { q.2 with waits := [(o.1, if md.isEmpty then none else some md)] }

/-- A write of a plane load: dropped with SKEW_FAULT while the plane is active; otherwise the first one clears VALID (R95). -/
def planeWr (s : State) (b : Fin 24) (n a : Nat) (bs : Bytes) : State :=
  let x := s.bench b
  if x.out then s else if x.planeActive n then s.activeWrite b n
  else (if (x.plane n).valid then s.setBench b (x.setPlane n { x.plane n with valid := false }) else s).wr a bs

/-- Bytes of a plane and its block exponents or metadata, as a load writes them: in all, and for each source row (R85, R137, R259). -/
def planeBytes (c : Cmd) : Nat × Nat :=
  let sf := Dsc.sfmt c
  if Dsc.isNw sf then (0x20000 + 0x604, cdiv (Dsc.rlen c) 8 + 3)
  else if Dsc.isMx sf then (0x80000 + 0x2000, Dsc.rlen c * 2 + Dsc.rlen c / 32)
  else
    let w := (logFmtOf (Dsc.dfmt c)).W / 8
    (0x40000 * w + 0x2000, Dsc.rlen c * w)

/-- The first write of a plane load clears VALID, and every cell is written with the zero code and block exponent 0, or with
pattern 0 and zero metadata (R95, R137, R259). The cells that the source does not reach count as written here. -/
def planeBegin (s : State) (d : Fin 48) (c : Cmd) : State :=
  let b : Fin 24 := Fin.ofNat 24 (Dsc.bench c)
  let n := Dsc.plane c
  let x := s.bench b
  if x.out then s
  else if x.planeActive n then s.activeWrite b n
  else
    let pb := planeBytes c
    let s1 := (s.addReg (R.DK_BYTES d) (pb.1 - Dsc.rows c * pb.2)).setBench b (x.setPlane n { x.plane n with valid := false, conds := 0 })
    if Dsc.isNw (Dsc.sfmt c) then
      ((s1.wr (planeBase b n) (List.replicate 0x20000 0)).wr (bexpBase b n) (List.replicate 0x2000 0)).wr (bexpBase b n + 0x600)
        (leBytes 2 (Dsc.azp c) ++ leBytes 1 (Dsc.bit c))
    else
      let f := if Dsc.isMx (Dsc.sfmt c) then LX16 else logFmtOf (Dsc.dfmt c)
      (s1.wr (planeBase b n) ((List.replicate 0x40000 (leBytes (f.W / 8) f.zero)).flatten)).wr (bexpBase b n) (List.replicate 0x2000 0)

/-- A row of a plane load placed (R259): `row` is the source row, `md` its scale bytes or its metadata word. -/
def planeRow (s : State) (d : Fin 48) (r : DkRun) (row md : Bytes) : State :=
  let c := r.cmd
  let b : Fin 24 := Fin.ofNat 24 (Dsc.bench c)
  let n := Dsc.plane c
  let sf := Dsc.sfmt c
  let base := planeBase b n
  let next := fun (t : State) =>
    let t1 := if (s.bench b).out || (s.bench b).planeActive n then t else t.addReg (R.DK_BYTES d) (planeBytes c).2
    let q := t1.dkReadDone { r with row := r.row + 1, put := r.put + 1, lines := [] }
    q.1.dkNext d q.2
  if Dsc.isMx sf then
    let t := sf - 8
    let nb := elemBits t
    let col := r.row
    let s1 := (List.range (Dsc.rlen c / 32)).foldl (fun acc j =>
      let o := mxBlockToLx16 t ((md.getD j 0).toNat) ((List.range 32).map (fun i => elemOf nb row (32 * j + i)))
      let t1 := (o.1.zipIdx).foldl (fun u p => planeWr u b n (base + (32 * j + p.2) * 1024 + 2 * col) (leBytes 2 p.1)) acc.1
      (planeWr t1 b n (bexpBase b n + j * 512 + col) (leBytes 1 (toBits 8 o.2.1)), acc.2.or o.2.2)) (s, Cond.none)
    let s2 := s1.1.charge (dkBench d) c.tag s1.2.toNat
    next (s2.modBench b (fun x => x.setPlane n { x.plane n with conds := (x.plane n).conds ||| s1.2.toNat }))
  else if Dsc.isNw sf then
    let nb := sf - 4
    let col := r.row
    let pats := (List.range (Dsc.rlen c / 4)).map (fun k =>
      (List.range 4).foldl (fun p j => p + (elemOf nb row (4 * k + j) >>> (if sf = 5 then 0 else Dsc.bit c)) % 2 * 2 ^ j) 0)
    let s1 := pats.zipIdx.foldl (fun u p =>
      let a := base + p.2 * 256 + col / 2
      planeWr u b n a (leBytes 1 (putBits ((u.byte a).toNat) (4 * (col % 2) + 3) (4 * (col % 2)) p.1))) s
    let csum := pats.foldl (fun t p => t + (p % 2 + p / 2 % 2 + p / 4 % 2 + p / 8)) 0
    let s2 := planeWr s1 b n (bexpBase b n + col) (leBytes 1 (bits (fromLe md) 15 8))
    next (planeWr s2 b n (bexpBase b n + 0x200 + 2 * col) (leBytes 2 csum))
  else
    let o := convRow c row
    let w := (logFmtOf (Dsc.dfmt c)).W / 8
    let s1 := if Dsc.trans c then
        (o.1.zipIdx).foldl (fun u p => planeWr u b n (base + (p.2 * 512 + r.row) * w) (leBytes w p.1)) s
      else planeWr s b n (base + r.row * 512 * w) (o.1.flatMap (leBytes w))
    let s2 := s1.charge (dkBench d) c.tag o.2.toNat
    next (s2.modBench b (fun x => x.setPlane n { x.plane n with conds := (x.plane n).conds ||| o.2.toNat }))

/-- The bytes of META that a row reads: none, the 16 or RLEN / 32 scales, or a metadata word (R259). -/
def metaRow (r : DkRun) : Nat × Nat :=
  let c := r.cmd
  let sf := Dsc.sfmt c
  if Dsc.isMx sf then (Dsc.metaAddr c + r.row * Dsc.mstride c, if c.op = 0x72 then 16 else if c.op = 0x73 then Dsc.rlen c / 32 else 0)
  else if Dsc.isNw sf ∧ c.op = 0x73 then (Dsc.metaAddr c + 4 * r.row, 4) else (0, 0)

/-- The next source row of a COPY, SLOTFILL or PLANE read, and handed on once it is whole (R200, R258, R259). DESIGN CHOICE (log 102): a region read
(SRCT = 3) whose offset and rows run past the slot's LENGTH reads the bytes that lie behind the slot. -/
def sourceRow (s : State) (d : Fin 48) (r : DkRun) (host : Option Bytes) : State :=
  let c := r.cmd
  let n := Dsc.srcBytes c
  let t := Dsc.srct c
  let ask := fun (u : State) (ls : List (Nat × Nat × Option (Nat × Nat))) =>
    match askLines d r.id u ls with
    | (v, none) => v
    | (v, some a) => v.dkXlate d r 7 a
  let g := dkRead d r t (n / 64 + 2) s ((match r.src with | some q => q.addr | none => 0) + Dsc.src c + r.row * Dsc.sstride c) n host
  let md := metaRow r
  let m := if md.2 = 0 then (g.1, .data [], g.2.2) else dkRead d r (Dsc.metaSpace c) 3 g.1 md.1 md.2 g.2.2
  match g.2.1, m.2.1 with
  | .xlate k a, _ => m.1.dkXlate d r k a
  | .poison a, _ => m.1.dkPoison d r a
  | _, .xlate k a => m.1.dkXlate d r k a
  | _, .poison a => m.1.dkPoison d r a
  | .need l, .need l2 => ask m.1 (l ++ l2)
  | .need l, _ => ask m.1 l
  | _, .need l => ask m.1 l
  | .data row, .data md =>
    if c.op = 0x70 then copyRow m.1 d r row
    else if c.op = 0x73 then planeRow m.1 d r row md
    else slotRow m.1 d r row md

/-- The destination bytes of the next row that a COPY or FILL writes with this request, if it writes one. -/
def nextPut (r : DkRun) : Nat :=
  let c := r.cmd
  if c.op = 0x71 then Dsc.rlen c
  else if c.op ≠ 0x70 then 0
  else if Dsc.turns c then (if r.row < Dsc.rows c then 0 else Dsc.rows c * Dsc.dstSize c)
  else cdiv (Dsc.rlen c * Dsc.elBits (Dsc.dfmt c) (Dsc.esize c)) 8

/-- DERRICK_REQUEST (R200, R258, R259): the descriptor in progress reads its next row, and writes it but for a SLOTFILL row, which
waits for its slot; a transposed COPY writes its rows once it has read every source row. A request that the quota holds back changes nothing
(R265), and neither does a write to a peer's line whose earlier write is not acknowledged (R317); where a later line of a row is held back, the
lines before it are written and a later request writes the rest. `host` gives the bytes that the host returns for a host
source, or none where it refuses; where `bad`, a word of the request proves uncorrectable in the derrick's buffer, and it completes as a poisoned
response (R423). -/
def derrickRequest (s : State) (d : Fin 48) (host : Option Bytes) (bad : Bool) : State :=
  let x := s.dk d
  if (s.bench (dkBench d)).out || x.q.halted then s
  else
    match x.runs.find? (fun r => r.open' && r.waits.isEmpty) with
    | none => s
    | some r0 =>
      let c := r0.cmd
      if !r0.rest.2.isEmpty then
        (if dkHeld s d r0 r0.rest.1 r0.rest.2.length then s else if bad then s.dkPoison d r0 r0.rest.1 else putBytes s d r0 r0.rest.1 r0.rest.2)
      else if !s.dkRegionOk r0 && decide (r0.row < Dsc.rows c) then s.dkStale d r0 (Dsc.src c)
      else
        let r := { r0 with begun := true }
        let s1 := (if c.op = 0x73 ∧ !r0.begun then planeBegin s d c else s).setRun d r
        let n := nextPut r
        if dkHeld s1 d r (Dsc.dst c + r.put * Dsc.dstride c) n then s1
        else if bad then s1.dkPoison d r (if c.op = 0x71 ∨ Dsc.rows c ≤ r.row then Dsc.dst c + r.put * Dsc.dstride c else Dsc.src c + r.row * Dsc.sstride c)
        else if c.op = 0x71 then
          putRow s1 d { r with row := r.row + 1 } ((List.range (Dsc.rlen c)).map (fun i => BitVec.ofNat 8 (Dsc.w5 c >>> (8 * (i % 8)))))
        else if r.row < Dsc.rows c then sourceRow s1 d r host
        else putRow s1 d r (keptColumn r r.put)

/-! ## What the next request waits for (R269) -/

/-- The pages that some bytes touch. -/
def pagesOf (a n : Nat) : List Nat := if n = 0 then [] else (List.range ((a + n - 1) / 65536 - a / 65536 + 1)).map (fun i => a / 65536 + i)

/-- The address and length of what the next request of a descriptor reads of its source, and of what it writes. -/
def DkRun.nextSpans (r : DkRun) : (Nat × Nat) × (Nat × Nat) :=
  let c := r.cmd
  if !r.rest.2.isEmpty then ((0, 0), (r.rest.1, r.rest.2.length))
  else (if c.op = 0x71 ∨ Dsc.rows c ≤ r.row then (0, 0) else (Dsc.src c + r.row * Dsc.sstride c, Dsc.srcBytes c),
        (Dsc.dst c + r.put * Dsc.dstride c, nextPut r))

/-- Does the next request of a descriptor wait for a table walk: is a page of its source, of META or of its destination not cached? -/
def State.dkWalks (s : State) (d : Fin 48) (r : DkRun) : Bool :=
  let c := r.cmd
  let sp := r.nextSpans
  let md := if sp.1.2 = 0 ∨ Dsc.srct c = 3 then (0, 0) else metaRow r
  let pages := (if Dsc.srct c = 3 then [] else pagesOf sp.1.1 sp.1.2) ++ pagesOf md.1 md.2 ++ pagesOf sp.2.1 sp.2.2
  !Dsc.phys c && r.waits.isEmpty
    && pages.any (fun p => !s.tlb.any (fun e => e.agent == d.val && e.ctx == s.rfld (R.DK_CTRL d) 21 16 && e.page == p))

/-- Does the next request of a descriptor wait for its quota at an arbiter of this module (R265)? -/
def State.dkQuota (s : State) (d : Fin 48) (r : DkRun) : Bool :=
  let c := r.cmd
  let sp := r.nextSpans
  let full := fun (t a : Nat) (write : Bool) =>
    match (s.dkPlace d c t a write).2 with
    | .inr ((.lcl, _, pa), _) => (arbOf pa).any (fun i => (s.arb i).full (96 + d))
    | _ => false
  let base := match r.src with | some q => q.addr | none => 0
  r.waits.isEmpty && ((decide (0 < sp.2.2) && full (Dsc.dstt c) sp.2.1 true)
    || (List.range (cdiv sp.1.2 64)).any (fun j =>
      if Dsc.srct c = 3 then (arbOf (base + sp.1.1 + 64 * j)).any (fun i => (s.arb i).full (96 + d)) else full (Dsc.srct c) (sp.1.1 + 64 * j) false))

/-- The staging slot that SLOTFILL row i goes to: RING_BASE + ((START − RING_BASE + i) mod RING_SLOTS) (R259). -/
def ringSlot (r : DkRun) (i : Nat) : Nat :=
  r.ringBase + (((Dsc.start r.cmd : Int) - r.ringBase + i) % (r.ringSlots : Int)).toNat

/-- SLOT_WRITE (R259, R261): the first waiting row of a SLOTFILL goes into its slot once PEND is clear, with its tag and END mark, and sets
PEND. -/
def slotWrite (s : State) (d : Fin 48) : State :=
  let x := s.dk d
  if (s.bench (dkBench d)).out || x.q.halted then s
  else
    match x.runs.find? (fun r => !r.waits.isEmpty) with
    | none => s
    | some r =>
      let c := r.cmd
      let b : Fin 24 := Fin.ofNat 24 (Dsc.bench c)
      let k := ringSlot r r.put
      let y := s.bench b
      match r.waits with
      | [] => s
      | (row, md) :: rest =>
        if (y.slotMeta k).pend then s
        else
          let s0 := s.dkNext d { r with waits := rest, put := r.put + 1 }
          if y.out then s0
          else
            let s1 := s0.wr (slotBase b k) row
            let s2 := match md with
              | some m => s1.wr (slotBase b k + 1008) m
              | none => s1
            (s2.modBench b (fun z => z.setSlot k ⟨(Dsc.tag0 c + r.put / Dsc.span c) % 16, Dsc.endEn c && decide (r.put = Dsc.endSlot c), true⟩)).addReg
              (R.DK_BYTES d) (row.length + (md.getD []).length)

/-- DESCRIPTOR_COMPLETE (R260): the oldest descriptor whose writes have all been accepted; a plane load then sets VALID with its TAG
and PFMT (R95, R259). -/
def descComplete (s : State) (d : Fin 48) : State :=
  let x := s.dk d
  match x.runs with
  | [] => s
  | r :: rest =>
    let c := r.cmd
    if r.open' || s.txns.any (fun t => decide (t.who = .derrick d r.id)) then s
    else
      let s1 := s.modDk d (fun y => { y with runs := rest })
      if c.op ≠ 0x73 then s1
      else
        let b : Fin 24 := Fin.ofNat 24 (Dsc.bench c)
        if (s.bench b).out || (s.bench b).planeActive (Dsc.plane c) then s1
        else
          let sf := Dsc.sfmt c
          s1.modBench b (fun y => y.setPlane (Dsc.plane c) { y.plane (Dsc.plane c) with
            valid := true, tag := Dsc.ptag c, pfmt := if Dsc.isMx sf then 4 else sf })

/-- RUN_AHEAD_READ (R267): one line of the source window read ahead of demand; it changes nothing but DK_RA_DROPPED where its page or
line cannot be read. -/
def runAhead (s : State) (d : Fin 48) : State :=
  let x := s.dk d
  if (s.bench (dkBench d)).out || x.q.halted then s
  else
    match x.runs.find? (fun r => decide (r.row < Dsc.rows r.cmd) && decide (r.ahead < Dsc.window r.cmd)) with
    | none => s
    | some r =>
      let c := r.cmd
      let a := Dsc.src c + 64 * r.ahead
      let need := Dsc.src c + r.row * Dsc.sstride c
      if c.op = 0x71 ∨ Dsc.srct c = 3 ∨ need + 65536 < a then s
      else
        let p := s.dkPlace d c (Dsc.srct c) a false
        let s1 := (match p.2 with
          | .inl _ => s.setReg R.MM_WALKS (p.1.reg R.MM_WALKS)
          | .inr _ => p.1).setRun d { r with ahead := r.ahead + 1 }
        match p.2 with
        | .inl _ => s1.addReg (R.DK_RA_DROPPED d) 1
        | .inr ((.lcl, _, pa), _) =>
          if isMergo pa || isYard pa then (if s.badRead pa 1 then s1.addReg (R.DK_RA_DROPPED d) 1 else s1) else s1
        | .inr _ => s1

/-! ## Registers that act (R270) -/

/-- DK_CTRL.RESUME. -/
def dkResume (s : State) (d : Fin 48) : State :=
  let x := s.dk d
  if (s.bench (dkBench d)).out || !x.q.halted then s
  else (s.modDk d (fun y => { y with q := { y.q with cause := 0 } })).setFld (R.DK_FAULT d) 31 31 0

/-- DK_CTRL.SKIP. -/
def dkSkip (s : State) (d : Fin 48) : State :=
  let x := s.dk d
  if (s.bench (dkBench d)).out || !x.q.halted || x.q.cmds.isEmpty then s else s.dkPop d

/-- DK_CTRL.CNT_CLR. -/
def dkCntClr (s : State) (d : Fin 48) : State :=
  if (s.bench (dkBench d)).out then s
  else (((List.range 10).foldl (fun t i => t.setRn (R.DK_STALL d i) 0) s).setRn (R.DK_RA_DROPPED d) 0).setRn (R.DK_BYTES d) 0

end Sys2Proof.Machine
end

