-- ==== Sys2Proof/Machine/Cores.lean ====
section
/-! DEFINITION. The control cores outside their instructions: engine queues and pushes (R290, R291), faults, breaks and halts (R288, R289,
R301), caches (R273, R274), run completion (R279, R289), marks (R300) and the CC registers that act (R302). -/
namespace Sys2Proof.Machine

/-! ## Cores and queues -/

/-- A control core. -/
def State.core (s : State) (b : Fin 24) : Core := s.cores[b]
/-- Changes a control core. -/
def State.modCore (s : State) (b : Fin 24) (f : Core → Core) : State := { s with cores := s.cores.set b (f (s.core b)) }

/-- A queue. -/
def State.queue (s : State) : QRef → EQ
  | .bench b => (s.bench b).q
  | .mason b => (s.bench b).mu
  | .crusher b => (s.bench b).cr
  | .derrick d => (s.dk d).q
  | .update k => (s.ue k).q
  | .coll u => (s.coll u).q

/-- Is a command of a queue, numbered at most n, dispatched and not complete in the sense of SYNC_SIGNAL with WHEN = 1? -/
def State.queueLive (s : State) (n : Nat) : QRef → Bool
  | .bench b => (s.bench b).tileLive (n + 1)
  | .mason b => (s.bench b).masonLive (n + 1)
  | .crusher b => (s.bench b).crusherLive (n + 1)
  | .derrick d => (s.dk d).live (n + 1)
  | .update k => (s.ue k).live (n + 1)
  | .coll u => (s.coll u).live (n + 1)

/-- The depth of a queue (R291, R334). -/
def QRef.depth : QRef → Nat
  | .mason _ => 32
  | .crusher _ => 16
  | _ => 64

/-- A command appended to a queue; a fenced bench's queues accept none (R426). -/
def State.pushTo (s : State) (q : QRef) (c : Cmd) : State :=
  match q with
  | .bench b => if (s.bench b).out then s else s.modBench b (fun x => { x with q := x.q.push c })
  | .mason b => if (s.bench b).out then s else s.modBench b (fun x => { x with mu := x.mu.push c })
  | .crusher b => if (s.bench b).out then s else s.modBench b (fun x => { x with cr := x.cr.push c })
  | .derrick d => if (s.bench (dkBench d)).out then s else s.modDk d (fun x => { x with q := x.q.push c })
  | .update k => s.modUe k (fun x => { x with q := x.q.push c })
  | .coll u => s.modColl u (fun x => { x with q := x.q.push c })

/-- The queue that a QID opens to core b (R291, R225). -/
def State.openQueue (s : State) (b : Fin 24) (qid : Nat) : Option QRef :=
  if qid = 0 then some (.bench b)
  else if qid = 1 then some (.mason b)
  else if qid = 2 then some (.crusher b)
  else if qid = 3 then some (.derrick (Fin.ofNat 48 (2 * b)))
  else if qid = 4 then some (.derrick (Fin.ofNat 48 (2 * b + 1)))
  else if 0x10 ≤ qid ∧ qid < 0x18 then (if s.stackUp (qid - 0x10) then some (.update (Fin.ofNat 8 (qid - 0x10))) else none)
  else if 0x20 ≤ qid ∧ qid < 0x24 then some (.coll (Fin.ofNat 4 (qid - 0x20)))
  else none

/-- Does a queue have room? -/
def State.hasRoom (s : State) (q : QRef) : Bool := decide ((s.queue q).cmds.length < q.depth)

/-- Has every command up to a push been dispatched, skipped or discarded? -/
def State.dispatched (s : State) (p : QRef × Nat) : Bool :=
  decide (p.2 ≤ (s.queue p.1).taken) && !(s.queue p.1).kept.any (· ≤ p.2)

/-- Has every command up to a push completed (R279, R428)? -/
def State.pushDone (s : State) (p : QRef × Nat) : Bool := s.dispatched p && !s.queueLive p.2 p.1

/-- A list of last pushes with one brought up to date. -/
def notePush (l : List (QRef × Nat)) (q : QRef) (n : Nat) : List (QRef × Nat) := l.filter (fun e => e.1 ≠ q) ++ [(q, n)]

/-- A push made by core b (R290): PAR computed over the command, the push counted (R302). -/
def State.corePush (s : State) (b : Fin 24) (qid : Nat) (q : QRef) (c : Cmd) : State :=
  let s1 := s.pushTo q c.withPar
  let n := (s1.queue q).pushed
  (s1.modCore b (fun x => { x with allPush := notePush x.allPush q n, runPush := notePush x.runPush q n })).addReg (R.CC_QCOUNT b qid) 1

/-! ## Halts (R288, R289) -/

/-- The run that a core belongs to. -/
def State.runOf (s : State) (b : Fin 24) : Option Run := (s.core b).ring.bind (fun r => s.runs.find? (fun x => x.ring == r))

/-- Is the core inside an instruction: a claim undecided, or a peer access under way? Its next boundary is that instruction's end. -/
def Core.mid (x : Core) : Bool := x.claim.isSome || x.io != .none

/-- The rings whose runs a halt of a core breaks: none for HALT and HALT_REQ, every run whose gang has the core for a fence, even one whose entry
the core has ended (R428), and its own run for a fault, a break or a single step (R289). -/
def State.brokenBy (s : State) (b : Fin 24) (cause : Nat) : List Nat :=
  if cause = 3 ∨ cause = 4 then []
  else if cause = 6 then (s.runs.filter (fun x => x.mask.testBit b)).map Run.ring
  else (s.runOf b).toList.map Run.ring

/-- The core halts; for a fault, a break, a step or a fence every other core of its gang is to halt at its next boundary, and its run ends
with status 8 (R289, R304, R425, R428). -/
def State.coreHalt (s : State) (b : Fin 24) (cause : Nat) : State :=
  let rs := s.brokenBy b cause
  let s1 := s.modCore b (fun x => { x with st := 3, cause := cause, due := 0, stepping := false, why := 0, claim := none, io := .none, lines := [] })
  if rs.isEmpty then s1
  else
    let s2 := { s1 with runs := s1.runs.map (fun x => if rs.contains x.ring then { x with broken := true } else x) }
    (List.finRange 24).foldl (fun t c =>
      if c ≠ b ∧ (t.core c).ring.any rs.contains ∧ (t.core c).st = 2 ∧ (t.core c).due = 0 then t.modCore c (fun x => { x with due := 3 }) else t) s2

/-- A precise fault (R288); a refusal, kind 7, is counted in MM_FAULTS here, as a translation counts the other kinds (R243, R245). -/
def State.coreFault (s : State) (b : Fin 24) (cause kind addr : Nat) : State :=
  (((((if cause = 3 ∧ kind = 7 then s.addReg R.MM_FAULTS 1 else s).setRn (R.CC_FAULT b) (2 ^ 31 + cause * 2 ^ 28 + kind * 2 ^ 24)).setRn (R.CC_FAULT_PC b)
    (s.core b).pc).setRn (R.CC_FAULT_ADDR b) addr).ev 0x710 b (leBytes 1 cause)).coreHalt b 1

/-- A break (R301). -/
def State.coreBreak (s : State) (b : Fin 24) : State := (s.ev 0x720 b []).coreHalt b 2

/-- GANG_HALT (R289): a core whose gang is halting, or that HALT_REQ is to halt, halts at its instruction boundary. -/
def gangHalt (s : State) (b : Fin 24) : State :=
  let x := s.core b
  if x.st = 2 ∧ x.due ≠ 0 ∧ x.mid = false then s.coreHalt b x.due else s

/-- A stalled instruction: what its cycles are charged to (R303). -/
def State.stallCore (s : State) (b : Fin 24) (why : Nat) : State := s.modCore b (fun x => { x with why := why })

/-! ## Caches (R273, R274) -/

/-- The half of a bench. -/
def halfOf (b : Nat) : Fin 2 := Fin.ofNat 2 (b / 12)
/-- The L2 of a half. -/
def State.l2Of (s : State) (h : Fin 2) : List CLine := s.l2[h]
/-- Replaces the L2 of a half. -/
def State.setL2 (s : State) (h : Fin 2) (l : List CLine) : State := { s with l2 := s.l2.set h l }

/-- A dirty line written back; one that proved uncorrectable leaves its memory line poisoned (R423). -/
def State.writeBack (s : State) (c : CLine) : State :=
  if !c.dirty then s else if c.bad then s.poisonLine (64 * c.line) else s.write (64 * c.line) c.data

/-- Lines leave a cache at times that the spec leaves open (R273): which of them have left before an access of core b is free. -/
def State.evict (s : State) (b : Fin 24) : State :=
  let l := s.l2Of (halfOf b)
  let n := s.freeCtr
  let gone := l.zipIdx.filter (fun e => Config.freeBool (n + e.2))
  let stay := l.zipIdx.filter (fun e => !Config.freeBool (n + e.2))
  let m := n + l.length
  let x := s.core b
  let d := (x.dcache.zipIdx.filter (fun e => !Config.freeBool (m + e.2))).map (·.1)
  let i := (x.icache.zipIdx.filter (fun e => !Config.freeBool (m + x.dcache.length + e.2))).map (·.1)
  let s1 := gone.foldl (fun t e => t.writeBack e.1) (s.setL2 (halfOf b) (stay.map (·.1)))
  { s1.modCore b (fun y => { y with dcache := d, icache := i }) with freeCtr := m + x.dcache.length + x.icache.length }

/-- Is an address of a local page cached: Mergo or stockyard, with NC = 0? -/
def cacheable (a : Nat) (nc : Bool) : Bool := !nc && (isMergo a || isYard a)

/-- A line put into a cache of n lines (R273: 1,024 lines of instructions, 1,024 of data, 65,536 in an L2); of a full one a line leaves that
the spec leaves open: `v` names it. -/
def fillLine {α : Type} (n v : Nat) (l : List α) (x : α) : List α × Option α :=
  if l.length < n then (l ++ [x], none) else (l.eraseIdx (v % l.length) ++ [x], l[v % l.length]?)

/-- A line filled into the L2 of a half; a dirty victim is written back. -/
def State.l2Fill (s : State) (h : Fin 2) (c : CLine) : State :=
  let r := fillLine 65536 (Config.freeWord s.freeCtr).toNat (s.l2Of h) c
  match r.2 with
  | none => s.setL2 h r.1
  | some v => (s.draw.setL2 h r.1).writeBack v

/-- A line through the L2: its bytes, or none for a poisoned response. -/
def State.l2Read (s : State) (b : Fin 24) (line : Nat) : State × Option Bytes :=
  match (s.l2Of (halfOf b)).find? (fun c => c.line == line) with
  | some c => (s, if c.bad then none else some c.data)
  | none =>
    match s.read (64 * line) 64 with
    | none => (s, none)
    | some d => (s.l2Fill (halfOf b) { line := line, data := d }, some d)

/-- `n` bytes of one line read through the data cache. -/
def State.dRead (s : State) (b : Fin 24) (a n : Nat) : State × Option Bytes :=
  match (s.core b).dcache.find? (fun e => e.1 == a / 64) with
  | some e => (s, some ((e.2.drop (a % 64)).take n))
  | none =>
    let r := s.l2Read b (a / 64)
    match r.2 with
    | none => r
    | some d => (r.1.draw.modCore b (fun x => { x with dcache := (fillLine 1024 (Config.freeWord r.1.freeCtr).toNat x.dcache (a / 64, d)).1 }), some ((d.drop (a % 64)).take n))

/-- Bytes placed in a line. -/
def patch (d : Bytes) (o : Nat) (bs : Bytes) : Bytes := d.take o ++ bs ++ d.drop (o + bs.length)

/-- A store in one line through the caches: every data cache of the half that holds the line follows (R273). -/
def State.dWrite (s : State) (b : Fin 24) (a : Nat) (bs : Bytes) : State :=
  let line := a / 64
  let h := halfOf b
  let r := s.l2Read b line
  match r.2 with
  | none => s.write a bs
  | some _ =>
    let upd := fun (d : Bytes) => patch d (a % 64) bs
    let s1 := r.1.setL2 h ((r.1.l2Of h).map (fun c => if c.line = line then { c with data := upd c.data, dirty := true } else c))
    (List.finRange 24).foldl (fun t (c : Fin 24) => if halfOf c = h then
      t.modCore c (fun x => { x with dcache := x.dcache.map (fun e => if e.1 = line then (e.1, upd e.2) else e) }) else t) s1

/-- A 32-bit word fetched through the instruction cache. -/
def State.iRead (s : State) (b : Fin 24) (a : Nat) : State × Option Bytes :=
  match (s.core b).icache.find? (fun e => e.1 == a / 64) with
  | some e => (s, some ((e.2.drop (a % 64)).take 4))
  | none =>
    let r := s.l2Read b (a / 64)
    match r.2 with
    | none => r
    | some d => (r.1.draw.modCore b (fun x => { x with icache := (fillLine 1024 (Config.freeWord r.1.freeCtr).toNat x.icache (a / 64, d)).1 }), some ((d.drop (a % 64)).take 4))

/-- DCLEAN of a line (R282): a dirty line of the half's L2 is written back. -/
def State.cleanLine (s : State) (b : Fin 24) (line : Nat) : State :=
  let h := halfOf b
  match (s.l2Of h).find? (fun c => c.line == line) with
  | none => s
  | some c => (s.writeBack c).setL2 h ((s.l2Of h).map (fun e => if e.line = line then { e with dirty := false } else e))

/-- DINV of a line (R282). -/
def State.dropLine (s : State) (b : Fin 24) (line : Nat) : State :=
  let s1 := (s.modCore b (fun x => { x with dcache := x.dcache.filter (fun e => e.1 != line) })).cleanLine b line
  s1.setL2 (halfOf b) ((s1.l2Of (halfOf b)).filter (fun e => e.line != line))

/-- The TLB agent of a core. -/
def coreAgent (b : Nat) : Nat := 48 + b

/-- The place of a virtual address for a core (R278): a 48-bit address is translated in the run's context, any other is unmapped, which
is a translation fault too (R243, R245). -/
def State.coreXlate (s : State) (b : Fin 24) (va : Nat) (write : Bool) : State × (Nat ⊕ Xl) :=
  if 2 ^ 48 ≤ va then (s.addReg R.MM_FAULTS 1, .inl 1) else s.xlate (coreAgent b) (s.core b).ctx va write

/-! ## Runs (R276, R279, R289) -/

/-- A core is idle: it runs nothing, or it stands halted from a run that has completed. -/
def State.coreIdle (s : State) (b : Fin 24) : Bool :=
  let x := s.core b
  x.st == 0 || (x.st == 3 && (s.runOf b).isNone)

/-- The cores of a mask, ascending. -/
def gang (mask : Nat) : List (Fin 24) := (List.finRange 24).filter (fun b => mask.testBit b)

/-- Is every core of a gang idle? -/
def State.gangIdle (s : State) (mask : Nat) : Bool := (gang mask).all s.coreIdle

/-- Has a run completed: each core has ended, or each core has ended or halted after a fault or halt, and every push is done? The
status is 0 or 8. -/
def State.runDone (s : State) (r : Run) : Option Nat :=
  let cs := (gang r.mask).filter (fun b => (s.core b).ring == some r.ring)
  let pushes := r.pushed ++ cs.flatMap (fun b => (s.core b).runPush)
  if !pushes.all s.pushDone then none
  else if cs.isEmpty then some (if r.broken then 8 else 0)
  else if r.broken && cs.all (fun b => (s.core b).st == 3) then some 8
  else none

/-- A run taken out of the list; its halted cores keep their state and belong to no run. -/
def State.endRun (s : State) (ring : Nat) : State :=
  (List.finRange 24).foldl (fun t b => if (t.core b).ring = some ring then t.modCore b (fun x => { x with ring := none, runPush := [] }) else t)
    { s with runs := s.runs.filter (fun r => r.ring != ring) }

/-- END (R282): the core's part of the run ends. -/
def State.coreEnd (s : State) (b : Fin 24) : State :=
  let x := s.core b
  let s1 := match x.ring with
    | none => s
    | some r => { s with runs := s.runs.map (fun (y : Run) => if y.ring = r then { y with pushed := y.pushed ++ x.runPush } else y) }
  s1.modCore b (fun y => { y with st := 0, cause := 0, ring := none, runPush := [], due := 0, stepping := false, why := 0, retired := y.retired + 1 })

/-! ## Registers that act (R289, R301, R302) -/

/-- CC_CTRL.RESUME: a halted core restarts at CC_PC; CC_FAULT.VALID clears. -/
def ccResume (s : State) (b : Fin 24) : State :=
  if (s.bench b).out || (s.core b).st != 3 then s
  else (s.setFld (R.CC_FAULT b) 31 31 0).modCore b (fun x => { x with st := 2, cause := 0, due := 0 })

/-- CC_CTRL.STEP: a halted core is set to execute one instruction or push. -/
def ccStepArm (s : State) (b : Fin 24) : State :=
  if (s.bench b).out || (s.core b).st != 3 then s
  else s.modCore b (fun x => { x with st := 2, cause := 0, stepping := true, due := 0 })

/-- CC_CTRL.HALT_REQ: the core halts at the next boundary, before any pending push (R302, R304). -/
def ccHaltReq (s : State) (b : Fin 24) : State :=
  let x := s.core b
  if (s.bench b).out || x.st != 2 then s else if x.mid then s.modCore b (fun y => { y with due := 4 }) else s.coreHalt b 4

/-- CC_CTRL.CNT_CLR. -/
def ccCntClr (s : State) (b : Fin 24) : State :=
  if (s.bench b).out then s
  else ((List.range 16).foldl (fun t i => t.setRn (R.CC_STALL b i) 0)
    ((List.range 64).foldl (fun t i => t.setRn (R.CC_QCOUNT b i) 0) s)).setRn (R.CC_MISPREDICT b) 0

/-- A write to CC_SYNC(i) of any core's block (R293). -/
def ccSyncWrite (s : State) (i v : Nat) : State := s.setSync (i % 256) v

end Sys2Proof.Machine
end

