-- ==== Sys2Proof/Machine/HostIf.lean ====
section
/-! DEFINITION. The host interface (R360 to R371): configuration requests, command rings and their completion records, interrupts and
resets of the endpoint. -/
namespace Sys2Proof.Machine

/-! ## Rings (R364 to R366) -/

/-- A ring. -/
def State.ring (s : State) (r : Fin 64) : Ring := s.rings[r]
/-- Changes a ring. -/
def State.modRing (s : State) (r : Fin 64) (f : Ring → Ring) : State := { s with rings := s.rings.set r (f (s.ring r)) }
/-- Entries of a ring. -/
def State.ringSize (s : State) (r : Nat) : Nat := 2 ^ s.rfld (R.HX_RB_CFG r) 51 48
/-- May the host interface issue requests to the host: the link is up, the function a bus master in D0 (R360, R367)? -/
def State.hostUp (s : State) : Bool := s.busMaster && s.pci.up && !s.pci.d3

/-- The entries of a ring that wait behind the running one are dropped; `silent` marks that one as having no record. -/
def Ring.stop (x : Ring) (silent : Bool) : Ring := { x with q := (x.q.take 1).map (fun e => { e with silent := e.silent || silent }), asked := 0 }

/-- A ring halts (R366): nothing runs behind the entry that is running. -/
def State.ringHalt (s : State) (r : Fin 64) (err : Nat) : State :=
  ((s.modRing r (fun x => x.stop false)).setRn (R.HX_RB_STATUS r) (err * 256 + 2 + s.rn (R.HX_RB_STATUS r) % 2)).ev 0xB80 0xFF
    (leBytes 1 r ++ leBytes 1 err)

/-- A ring that may fetch: enabled and not halted. -/
def State.ringOn (s : State) (r : Nat) : Bool := s.rbit (R.HX_RB_CFG r) 63 && !s.rbit (R.HX_RB_STATUS r) 1

/-- Entries between the next slot to fetch and TAIL. -/
def State.ringAhead (s : State) (r : Fin 64) : Nat :=
  let n := s.ringSize r
  (s.rfld (R.HX_DB r) 15 0 + n - (s.ring r).next % n) % n

/-- Entries up to TAIL that are not yet asked for are read from the ring's array, whose end splits the read, while at most 16 wait behind the one that
executes (R364). -/
def State.fetchMore (s : State) (r : Fin 64) : State :=
  let x := s.ring r
  let n := min (17 - x.q.length) (s.ringAhead r) - x.asked
  if s.ringOn r && s.hostUp && decide (0 < n) then
    let size := s.ringSize r
    let first := (x.next + x.asked) % size
    let m := min n (size - first)
    let base := s.rfld (R.HX_RB_BASE r) 63 12 * 4096
    let s1 := (s.modRing r (fun y => { y with asked := y.asked + n })).emit (.hostRead (base + 64 * first) (64 * m))
    if m < n then s1.emit (.hostRead base (64 * (n - m))) else s1
  else s
/-- Every ring fetches what it may, once the endpoint may issue requests again. -/
def State.fetchAll (s : State) : State := (List.finRange 64).foldl State.fetchMore s

/-- HX_DB(r) (R364, R366): TAIL is set and the fetch of the entries up to it starts, or the ring halts. -/
def hxDb (s : State) (r : Fin 64) (v : Nat) : State :=
  let t := v % 2 ^ 16
  if s.ringSize r ≤ t then (s.setRn (R.HX_DB r) t).ringHalt r 1 else (s.setRn (R.HX_DB r) t).fetchMore r

/-- RING_FETCH (R364, R366): a fetch completes with the bytes of its entries, or with an error. At most 16 entries wait behind the one
that executes. -/
def ringFetch (s : State) (r : Fin 64) (data : Option Bytes) : State :=
  if !(s.ringOn r && s.hostUp) then s
  else
    match data with
    | none => s.ringHalt r 2
    | some d =>
      let x := s.ring r
      let sz := s.ringSize r
      let n := min (min (17 - x.q.length) (s.ringAhead r)) (d.length / 64)
      let es : List RingEntry := (List.range n).map (fun i =>
        { cmd := Cmd.ofBytes ((d.drop (64 * i)).take 64), slot := (x.next + i) % sz,
          phase := if x.next + i < sz then x.phase else !x.phase, time := s.us })
      let nx := x.next + n
      ((s.modRing r (fun y => { y with q := y.q ++ es, next := nx % sz, asked := y.asked - n, phase := if nx < sz then y.phase else !y.phase })).addReg
        (R.HX_COUNT 2) (64 * n)).setFld (R.HX_RB_STATUS r) 0 0 (b2n (decide (0 < x.q.length + n)))

/-- The head entry of a ring with an opcode, not yet complete; in D3hot no ring is processed (R360). -/
def State.ringHead (s : State) (r : Fin 64) (op : Nat) : Option RingEntry :=
  match (s.ring r).q with
  | e :: _ => if e.done.isNone && !e.started && e.cmd.op == op && !s.pci.d3 then some e else none
  | [] => none

/-- The head entry gets its status and result. -/
def State.ringDone (s : State) (r : Fin 64) (status result : Nat) : State :=
  s.modRing r (fun x => match x.q with
    | e :: rest => { x with q := { e with done := some (status, result) } :: rest }
    | [] => x)

/-- The context of a ring. -/
def State.ringCtx (s : State) (r : Nat) : Nat := s.rfld (R.HX_RB_CFG r) 61 56

/-- The opcodes of ring entries (R279). -/
def ringOps : List Nat := [0x80, 0x81, 0x82, 0x83, 0x84, 0x85]

/-- The status of the head entry: what its row gave it, the end of its run, or 9 for an opcode that R279 does not list (DESIGN CHOICE,
log 22). -/
def State.ringStatus (s : State) (r : Fin 64) (e : RingEntry) : Option (Nat × Nat) :=
  match e.done with
  | some d => some d
  | none =>
    if e.started then ((s.runs.find? (fun x => x.ring == r.val)).bind s.runDone).map (fun c => (c, 0))
    else if ringOps.contains e.cmd.op then none else some (9, 0)

/-- A record is reported by the ring's interrupt, no sooner than MOD µs after the one before; while EN is 0 the occurrence is not kept (R368). -/
def State.ringIrq (s : State) (r : Fin 64) : State :=
  let x := s.ring r
  let m := s.rfld (R.HX_RB_CFG r) 31 16
  if !s.rbit (R.HX_VEC_MAP r) 31 then s
  else match x.lastIrq with
  | some t => if s.us < t + m then s.modRing r (fun y => { y with held := true })
      else (s.modRing r (fun y => { y with lastIrq := some s.us, held := false })).raise r
  | none => (s.modRing r (fun y => { y with lastIrq := some s.us, held := false })).raise r

/-- The completion record (R365). -/
def ringRecord (s : State) (e : RingEntry) (d : Nat × Nat) : Bytes :=
  leBytes 4 e.cmd.tag ++ leBytes 1 d.1 ++ leBytes 1 (b2n e.phase) ++ leBytes 2 e.slot ++ leBytes 8 d.2 ++ leBytes 4 (s.us - e.time) ++ List.replicate 12 0

/-- RING_ENTRY_COMPLETE (R364 to R366): the record of a finished entry is written, HEAD advances, the interrupt is raised, and entries for which there is room
again are fetched; where the link
refuses the record the ring halts, and the entries behind do not run. `ok` says whether the link accepts it. -/
def ringComplete (s : State) (r : Fin 64) (ok : Bool) : State :=
  match (s.ring r).q with
  | [] => s
  | e :: rest =>
    match (if s.pci.d3 then none else s.ringStatus r e) with
    | none => s
    | some d =>
      let s0 := if e.started then s.endRun r else s
      let s1 := (s0.modRing r (fun x => { x with q := rest })).setFld (R.HX_RB_STATUS r) 0 0 (b2n (!rest.isEmpty))
      if e.silent then s1
      else if !(ok && s.hostUp) then ((s1.modRing r (fun x => { x with q := [], asked := 0 })).setFld (R.HX_RB_STATUS r) 0 0 0).ringHalt r 3
      else
        let rec' := ringRecord s e d
        -- with Relaxed Ordering a zero-length read, ordered behind the entry's writes, comes first (R367)
        let s1 := if s1.rbit R.HX_CTRL 0 then s1.emit (.hostRead (s.rfld (R.HX_CQ_BASE r) 63 12 * 4096 + 32 * e.slot) 0) else s1
        let s2 := (s1.emit (.hostWrite (s.rfld (R.HX_CQ_BASE r) 63 12 * 4096 + 32 * e.slot) rec')).addReg (R.HX_COUNT 2) 32
        ((s2.setRn (R.HX_RB_HEAD r) ((e.slot + 1) % s.ringSize r)).ringIrq r).fetchMore r

/-- HX_RB_CFG(r) (R366): LOG2SIZE outside 6 to 16 stays; clearing EN stops the ring behind the running entry; setting it again clears
HALTED and ERR and resets HEAD, TAIL and the lap. -/
def hxRbCfg (s : State) (r : Fin 64) (v : Nat) : State :=
  let a := R.HX_RB_CFG r
  let l := bits v 51 48
  let size := if 6 ≤ l then l else s.rfld a 51 48
  let was := s.rbit a 63
  let now := v.testBit 63
  let s1 := s.setRn a (b2n now * 2 ^ 63 + bits v 61 56 * 2 ^ 56 + size * 2 ^ 48 + bits v 31 16 * 2 ^ 16)
  if was && !now then s1.modRing r (fun x => x.stop false)
  else if !was && now then
    (((s1.setRn (R.HX_RB_STATUS r) (s1.rn (R.HX_RB_STATUS r) % 2)).setRn (R.HX_RB_HEAD r) 0).setRn (R.HX_DB r) 0).modRing r
      (fun x => { x with next := 0, asked := 0, phase := true, held := false })
  else s1

/-- HX_CTRL.CNT_CLR (R371). -/
def hxCntClr (s : State) : State := (List.range 4).foldl (fun t i => t.setRn (R.HX_COUNT i) 0) s

/-! ## Interrupts (R368) -/

/-- MSIX_MOD_EXPIRY: records held back raise one interrupt when MOD µs have passed since the ring's last; none where EN is 0 by then. -/
def msixModExpiry (s : State) (r : Fin 64) : State :=
  if (s.ring r).held && (s.ring r).lastIrq.all (fun t => decide (t + s.rfld (R.HX_RB_CFG r) 31 16 ≤ s.us)) then
    (if s.rbit (R.HX_VEC_MAP r) 31 then (s.modRing r (fun y => { y with lastIrq := some s.us, held := false })).raise r
    else s.modRing r (fun y => { y with held := false }))
  else s

/-- A pending vector goes out once MSI-X is enabled and nothing masks it. -/
def State.flushVector (s : State) (v : Nat) : State :=
  let a := R.HX_MSIX_PBA (v / 64)
  if s.rbit a (v % 64) && s.msixEn && !s.msixMask && !s.rbit (R.HX_MSIX_ENTRY (2 * v + 1)) 32 then
    (s.setRn a (s.rn a - 2 ^ (v % 64))).emit (.msix v (s.rn (R.HX_MSIX_ENTRY (2 * v))) (s.rfld (R.HX_MSIX_ENTRY (2 * v + 1)) 31 0))
  else s

/-- MSIX_UNMASK (R368): vector v is unmasked, and its pending message is sent; with MSI-X enabled and the function unmasked by a
configuration write, every pending vector goes out (`all`). -/
def msixUnmask (s : State) (v : Fin 512) (all : Bool) : State :=
  if all then (List.range 512).foldl State.flushVector { s with msixEn := true, msixMask := false }
  else
    let a := R.HX_MSIX_ENTRY (2 * v + 1)
    (if s.rbit a 32 then s.setRn a (s.rn a - 2 ^ 32) else s).flushVector v

/-! ## Configuration requests (R360 to R362) -/

/-- CONFIG_REQUEST (R361): retry status before release; then the field is read or written. `vis` is Configuration RRS Software
Visibility: a read of the Vendor ID then returns 0x0001 before release. -/
def configRequest (s : State) (op : CfgOp) (vis : Bool) : State :=
  if !s.pci.up then s
  else if !s.released then s.emit (.cfgReply true (if vis ∧ op = .readId then 1 else 0))
  else
    let p := s.pci
    let ok := fun (t : State) => t.emit (.cfgReply false 0)
    match op with
    | .readId => s.emit (.cfgReply false 0xC9091F9A)
    | .readClass => s.emit (.cfgReply false 0x120000)
    | .readSerial => s.emit (.cfgReply false (s.rn R.FZ_SERIAL))
    | .readCommand => s.emit (.cfgReply false (2 * b2n p.memEn + 4 * b2n s.busMaster))
    -- 64-bit memory, and prefetchable but for BAR0
    | .readBar i => s.emit (.cfgReply false (p.bars.getD i 0 + 4 + 8 * b2n (decide (i ≠ 0))))
    | .readCap c => s.emit (.cfgReply false (b2n c.held))
    -- payloads up to 512 bytes, Function Level Reset; 10-bit tags as completer and requester
    | .readDeviceCap => s.emit (.cfgReply false (2 + 2 ^ 28))
    | .readDeviceCap2 => s.emit (.cfgReply false (2 ^ 16 + 2 ^ 17))
    | .readDevice => s.emit (.cfgReply false (p.mps * 2 ^ 5 + p.mrrs * 2 ^ 12))
    | .readDevice2 => s.emit (.cfgReply false (b2n p.tags10 * 2 ^ 12))
    | .readMsix => s.emit (.cfgReply false (511 + b2n s.msixMask * 2 ^ 14 + b2n s.msixEn * 2 ^ 15))
    | .readPower => s.emit (.cfgReply false (3 * b2n p.d3))
    -- one resizable BAR, BAR4: bit 4 + n for 2^n MiB, from 1 GiB to 512 GiB, and the BAR Size field
    | .readBarSizes => s.emit (.cfgReply false ((List.range 10).foldl (fun a n => a + 2 ^ (14 + n)) 0))
    | .readBar4Size => s.emit (.cfgReply false (4 + 2 ^ 5 + (p.bar4k - 20) * 2 ^ 8))
    | .readErrors => s.emit (.cfgReply false p.errors)
    | .writeCommand m b => ok ({ s with pci := { p with memEn := m }, busMaster := b } : State).fetchAll
    | .writeBar i a =>
      let k := match i with
        | 0 => 26
        | 1 => 29
        | _ => p.bar4k
      ok { s with pci := { p with bars := p.bars.set i (a % 2 ^ 64 / 2 ^ k * 2 ^ k) } }
    | .writeBar4Size k => if 30 ≤ k ∧ k ≤ 39 then ok { s with pci := { p with bar4k := k } } else ok s
    | .writeMsix en mask => (List.range 512).foldl State.flushVector (ok { s with msixEn := en, msixMask := mask })
    | .writePower d => ok ({ s with pci := { p with d3 := d } } : State).fetchAll
    | .writeDevice m r => ok { s with pci := { p with mps := if m ≤ 2 then m else p.mps, mrrs := if r ≤ 5 then r else p.mrrs } }
    | .writeDevice2 t => ok { s with pci := { p with tags10 := t } }
    | .clearErrors => ok { s with pci := { p with errors := 0 } }

/-- HOST_LINK_UP (R360): the link trains at 16, 32 or 64 GT/s (SPEED 4, 5, 6) and ×8 or ×16 (WIDTH 2, 3), and at nothing else; it needs
the endpoint, which stage 1 brings up. -/
def hostLinkUp (s : State) (speed width : Nat) : State :=
  if (speed = 4 ∨ speed = 5 ∨ speed = 6) ∧ (width = 2 ∨ width = 3) ∧ s.rbit R.PW_DOMAIN 34 then
    ({ s with pci := { s.pci with up := true } } : State).setRn R.HX_LINK (256 + speed * 16 + width)
  else s

/-! ## Resets of the endpoint (R369) -/

/-- The HX registers and the MSI-X table at their Reset column. -/
def State.resetHx (s : State) : State := s.resetRegs HX.base (HX.base + 0x10000)

/-- Every ring stopped without records for running entries. -/
def State.stopRings (s : State) : State :=
  { s with rings := s.rings.map (fun x => { (x.stop true) with next := 0, asked := 0, phase := true, lastIrq := none, held := false }) }

/-- The configuration space at its values after a reset of the endpoint; `up` says whether the link stays up. -/
def State.resetPci (s : State) (up : Bool) : State := { s with pci := { up }, busMaster := false, msixEn := false, msixMask := false }

/-- FUNCTION_LEVEL_RESET (R369): HX_LINK reads its Reset value though the link itself stays up (log 87). -/
def functionReset (s : State) : State := (s.stopRings.resetHx.resetPci s.pci.up).ev 0xB81 0xFF []

/-- PERST_N, a hot reset or a link-down (R369): the endpoint and the HX registers are reset, and the link is down. -/
def perstN (s : State) : State := s.stopRings.resetHx.resetPci false

end Sys2Proof.Machine
end

