-- ==== Sys2Proof/Machine/Loader.lean ====
section
/-! DEFINITION. Ring commands (R279, R280): LOAD with the checks of R296 to R299, RUN with its prologue (R295), UNLOAD, CTX, WAIT and SIGNAL. The
spec fixes no tiling and no placement, so what the translator makes of the tensor operations is the LOAD command's operand, held against the rules of
Translate and Backward (DESIGN CHOICE, log 23). -/
namespace Sys2Proof.Machine

/-! ## Virtual memory as the loader sees it (R241, R299) -/

/-- Part of a range of virtual addresses that lies in one page: its place, its offset in the range, and its bytes. -/
structure Piece where
  xl : Xl
  off : Nat
  len : Nat
  deriving DecidableEq, Repr

/-- The pieces of a range in a context, or none where a page gives no access; `k` bounds the pages. -/
def vaPieces (ctx : Nat) (write : Bool) : Nat → State → Nat → Nat → Nat → State × Option (List Piece)
  | 0, s, _, _, _ => (s, some [])
  | k + 1, s, va, off, n =>
    if n = 0 then (s, some [])
    else if 2 ^ 48 ≤ va then (s, none)
    else
      let m := min n (65536 - va % 65536)
      let p := s.xlate 200 ctx va write
      match p.2 with
      | .inl _ => (p.1, none)
      | .inr x =>
        let q := vaPieces ctx write k p.1 (va + m) (off + m) (n - m)
        (q.1, q.2.map (fun r => ⟨x, off, m⟩ :: r))

/-- The pieces of a range of n bytes. -/
def State.pieces (s : State) (ctx va n : Nat) (write : Bool) : State × Option (List Piece) := vaPieces ctx write (n / 65536 + 2) s va 0 n

/-- How far the loader's access has come: its bytes, waiting for a peer, or refused. -/
inductive LoadIo where
  | got (b : Bytes)
  | wait
  | bad
  deriving DecidableEq, Repr

/-- The lines of a peer that a piece covers. -/
def Piece.lines (p : Piece) : List (Nat × Nat) :=
  if p.xl.target = .peer then (List.range (cdiv (p.xl.addr % 64 + p.len) 64)).map (fun i => (p.xl.dev, p.xl.addr / 64 + i)) else []

/-- Has a ring's LOAD requests of peers outstanding? -/
def State.ringOut (s : State) (r : Fin 64) : Bool := s.txns.any (fun t => decide (t.who = .ring r))

/-- The bytes of a piece: of local memory, of the host's memory as `host` gives them, or of the lines that peers returned. -/
def State.pieceBytes (s : State) (r : Fin 64) (host : Option Bytes) (p : Piece) : State × Option Bytes :=
  match p.xl.target with
  | .lcl => (s, s.read p.xl.addr p.len)
  | .host => if s.busMaster then ((s.emit (.hostRead p.xl.addr p.len)).addReg (R.HX_COUNT 2) p.len, host.map (fun d => padTo p.len (d.drop p.off))) else (s, none)
  | .peer =>
    let ls := p.lines.map (fun l => (s.ring r).lines.find? (fun e => e.1 == l.1 && e.2.1 == l.2))
    (s, some (((ls.flatMap (fun e => (e.elim [] (fun x => x.2.2)))).drop (p.xl.addr % 64)).take p.len))

/-- The pieces of a range read one after another. -/
def State.piecesBytes (s : State) (r : Fin 64) (host : Option Bytes) (ps : List Piece) : State × Option Bytes :=
  ps.foldl (fun acc p => match acc.2 with
    | none => acc
    | some d => let q := acc.1.pieceBytes r host p; (q.1, q.2.map (fun b => d ++ b))) (s, some [])

/-- A read by the loader (R240, R278): requests for lines of peers go out once and it waits for them. -/
def State.loadRead (s : State) (r : Fin 64) (ctx va n : Nat) (host : Option Bytes) : State × LoadIo :=
  let q := s.pieces ctx va n false
  match q.2 with
  | none => (q.1, .bad)
  | some ps =>
    let page := fun (p : Piece) => some (ctx, p.xl.page)
    let want := ps.flatMap (fun p => (p.lines.filter (fun l => !(s.ring r).lines.any (fun e => e.1 == l.1 && e.2.1 == l.2))).map (fun l => (l, page p)))
    if (s.ring r).refused then (q.1, .bad)
    else if s.ringOut r then (q.1, .wait)
    else if want.isEmpty then
      let d := q.1.piecesBytes r host ps
      (d.1, match d.2 with | some b => .got b | none => .bad)
    else
      let go := want.foldl (fun acc w => if acc.2 then acc.1.peerRequest ⟨.ring r, false, w.1.1, w.1.2 * 64, 1, w.2⟩ [] else acc) (q.1, true)
      (go.1, if go.2 then .wait else .bad)

/-- A line that the loader writes leaves every cache, so that cores and engines see the new bytes. -/
def State.purge (s : State) (line : Nat) : State :=
  let s1 := [(0 : Fin 2), 1].foldl (fun t h => (t.setL2 h ((t.l2Of h).filter (fun c => c.line != line)))) s
  { s1 with cores := s1.cores.map (fun c => { c with icache := c.icache.filter (fun e => e.1 != line), dcache := c.dcache.filter (fun e => e.1 != line) }) }

/-- Dirty lines of a range go to memory before the loader writes there. -/
def State.flush (s : State) (line : Nat) : State :=
  [(0 : Fin 2), 1].foldl (fun t h => match (t.l2Of h).find? (fun c => c.line == line) with | some c => t.writeBack c | none => t) s

/-- Bytes written to a piece; to a peer line by line, each waiting for its acknowledgement. -/
def State.piecePut (s : State) (r : Fin 64) (ctx : Nat) (p : Piece) (bs : Bytes) : State × Bool :=
  match p.xl.target with
  | .lcl =>
    let ls := (List.range (cdiv (p.xl.addr % 64 + p.len) 64)).map (fun i => p.xl.addr / 64 + i)
    ((ls.foldl State.purge ((ls.foldl State.flush s).write p.xl.addr bs)), true)
  | .host => if s.busMaster then ((s.emit (.hostWrite p.xl.addr bs)).addReg (R.HX_COUNT 2) bs.length, true) else (s, false)
  | .peer =>
    p.lines.foldl (fun acc l =>
      if !acc.2 then acc
      else
        let a := max p.xl.addr (64 * l.2)
        let part := (bs.drop (a - p.xl.addr)).take (64 * l.2 + 64 - a)
        let q := acc.1.peerRequest ⟨.ring r, true, l.1, 64 * l.2, 1, some (ctx, p.xl.page)⟩ (peerLine acc.1 a part)
        ({ q.1 with freeCtr := q.1.freeCtr + 64 }, q.2)) (s, true)

/-- Writes by the loader, all of them or none: false where a page gives no access. -/
def State.loadWrite (s : State) (r : Fin 64) (ctx : Nat) (ws : List (Nat × Bytes)) : State × Bool :=
  let q := ws.foldl (fun (acc : State × Option (List (Piece × Bytes))) w => match acc.2 with
    | none => acc
    | some l => let p := acc.1.pieces ctx w.1 w.2.length true; (p.1, p.2.map (fun ps => l ++ ps.map (fun x => (x, (w.2.drop x.off).take x.len))))) (s, some [])
  match q.2 with
  | none => (q.1, false)
  | some l => l.foldl (fun acc p => if acc.2 then acc.1.piecePut r ctx p.1 p.2 else acc) (q.1, true)

/-! ## The module format (R298) -/

/-- A section of a module. -/
structure Section where
  typ : Nat
  off : Nat
  size : Nat
  deriving DecidableEq, Repr

/-- The section table; the reserved word of each entry is the third component of the pair. -/
def sectionsOf (m : Bytes) : List (Section × Nat) :=
  (List.range (leAt m 6 2)).map (fun i => let o := 64 + 16 * i; (⟨leAt m o 4, leAt m (o + 8) 4, leAt m (o + 12) 4⟩, leAt m (o + 4) 4))

/-- The header is good (status 1 otherwise): MAGIC, NSECT, LENGTH and the reserved bytes. -/
def headerOk (m : Bytes) (len : Nat) : Bool :=
  leAt m 0 4 == 0x4E564445 && decide (1 ≤ leAt m 6 2) && decide (leAt m 6 2 ≤ 64) && leAt m 8 8 == len && decide (64 + 16 * leAt m 6 2 ≤ len)
    && decide (leAt m 16 4 ≤ 256) && leAt m 22 2 == 0 && (m.take 64).drop 28 == List.replicate 36 0

/-- The CRC is that of the module with its own bytes taken as 0 (status 2 otherwise). -/
def moduleCrcOk (m : Bytes) : Bool := leAt m 24 4 == crc32c (m.take 24 ++ [0, 0, 0, 0] ++ m.drop 28)

/-- The section table is good (status 4 otherwise). -/
def tableOk (m : Bytes) : Bool :=
  let l := sectionsOf m
  let ss := l.map (·.1)
  l.all (fun e => e.2 == 0 && decide (1 ≤ e.1.typ) && decide (e.1.typ ≤ 6) && e.1.off % 64 == 0
      && decide (e.1.off + e.1.size ≤ m.length))
    && (ss.filter (fun x => x.typ == 1)).length == 1 && (ss.filter (fun x => x.typ == 2)).length == 1
    && (List.range ss.length).all (fun i => (List.range i).all (fun j =>
      match ss[i]?, ss[j]? with
      | some a, some b => !overlap a.off a.size b.off b.size
      | _, _ => true))

/-- The bytes of the sections of a type, in the table's order. -/
def sectionBytes (m : Bytes) (t : Nat) : Bytes :=
  (((sectionsOf m).map (·.1)).filter (fun x => x.typ == t)).flatMap (fun x => (m.drop x.off).take x.size)

/-- The size of the ZERO sections. -/
def zeroSize (m : Bytes) : Nat := (((sectionsOf m).map (·.1)).filter (fun x => x.typ == 4)).foldl (fun n x => n + x.size) 0

/-- ENTRY and RELOC are good (DESIGN CHOICE, log 92: status 4 otherwise): offsets and indices in CODE, listed kinds, other bits 0. -/
def entriesOk (m : Bytes) : Bool :=
  let n := (sectionBytes m 1).length / 4
  let en := sectionBytes m 5
  let rs := sectionBytes m 6
  (List.range (en.length / 4)).all (fun i => decide (leAt en (4 * i) 4 < n))
    && (List.range (rs.length / 8)).all (fun i =>
      let e := leAt rs (8 * i) 8
      let k := bits e 39 32
      e / 2 ^ 40 == 0 && decide (1 ≤ k) && decide (k ≤ 3) && decide (bits e 31 0 + (if k = 1 then 1 else 4) ≤ n))

/-! ## Relocation (R298) -/

/-- Imm16 of word i of CODE. -/
def immAt (ws : List Nat) (i : Nat) : Nat := ws.getD i 0 % 65536
/-- Word i of CODE with its imm16 replaced. -/
def setImm (ws : List Nat) (i v : Nat) : List Nat := ws.set i (ws.getD i 0 / 65536 * 65536 + v % 65536)

/-- One RELOC entry applied. -/
def reloc (sync ro zb : Nat) (ws : List Nat) (e : Nat) : List Nat :=
  let i := bits e 31 0
  if ws.length ≤ i then ws
  else match bits e 39 32 with
    | 1 =>
      let w := ws.getD i 0
      ws.set i (putBits w 15 8 (bits w 15 8 + sync))
    | 2 => shift4 ws i ro
    | 3 => shift4 ws i zb
    | _ => ws
where
  /-- The base added to the offset in a LUI and three SHLORI. -/
  shift4 (ws : List Nat) (i base : Nat) : List Nat :=
    let v := immAt ws i * 2 ^ 48 + immAt ws (i + 1) * 2 ^ 32 + immAt ws (i + 2) * 2 ^ 16 + immAt ws (i + 3) + base
    setImm (setImm (setImm (setImm ws i (v / 2 ^ 48)) (i + 1) (v / 2 ^ 32)) (i + 2) (v / 2 ^ 16)) (i + 3) v

/-- The relocated CODE bytes. -/
def relocated (m : Bytes) (sync ro zb : Nat) : Bytes :=
  let c := sectionBytes m 1
  let ws := (List.range (c.length / 4)).map (fun i => leAt c (4 * i) 4)
  let rs := sectionBytes m 6
  (((List.range (rs.length / 8)).map (fun i => leAt rs (8 * i) 8)).foldl (reloc sync ro zb) ws).flatMap (leBytes 4)

/-! ## LOAD (R279, R299) -/

/-- The lowest run of free sync counters (R293). -/
def State.syncFree (s : State) (need : Nat) : Option Nat :=
  (List.range (257 - need)).find? (fun b => s.modules.all (fun m => !overlap b need m.syncBase m.syncNeed || need == 0))

/-- The lowest free handle. -/
def State.handleFree (s : State) : Option Nat := ((List.range 64).map (· + 1)).find? (fun h => !s.modules.any (fun m => m.handle == h))

/-- The gang's cores stop loading. -/
def State.loadEnd (s : State) (r : Fin 64) : State :=
  ({ s with cores := s.cores.map (fun (c : Core) => if c.st = 1 ∧ c.ring = some r.val then { c with st := 0, ring := none } else c) } : State).modRing r
    (fun x => { x with lines := [], refused := false, after := none })

/-- A refused module (R299). -/
def State.loadRefuse (s : State) (r : Fin 64) (status k o : Nat) : State :=
  ((s.loadEnd r).ev 0x731 0xFF (leBytes 1 status ++ (if status = 5 then leBytes 4 k ++ leBytes 1 o else []))).ringDone r status
    (if status = 5 then k + o * 2 ^ 32 else 0)

/-- The gang begins to load (R276, R299): each core shows STATE 1, and belongs to the ring. -/
def State.loadStart (s : State) (r : Fin 64) (mask : Nat) : State :=
  (gang mask).foldl (fun t b => t.modCore b (fun c => { c with st := 1, cause := 0, ring := some r.val })) s

/-- Are all cores of a gang loading for a ring? -/
def State.loading (s : State) (r : Fin 64) (mask : Nat) : Bool := (gang mask).all (fun b => (s.core b).st == 1 && (s.core b).ring == some r.val)

/-- The address that a bound range gives at load (R241, R294): its pages must be contiguous; a derrick without PHYS keeps the virtual one. -/
def State.bindEarly (s : State) (ctx : Nat) (keepVa : Bool) (i : Bind) : State × Option Nat :=
  let q := s.pieces ctx i.va (max 1 i.len) false
  match q.2 with
  | some (p :: ps) =>
    if ps.all (fun x => decide (x.xl.target = p.xl.target) && x.xl.dev == p.xl.dev && x.xl.addr == p.xl.addr + x.off) then
      (q.1, some (if keepVa then i.va else if p.xl.target = .peer then p.xl.dev * 2 ^ 48 + p.xl.addr else p.xl.addr))
    else (q.1, none)
  | _ => (q.1, none)

/-- A bound address put into a word of a command: 48 bits of it, or the whole word where it takes more. -/
def Cmd.bindWord (c : Cmd) (i : Bind) (a : Nat) : Cmd := c.set i.word (BitVec.ofNat 64 (if a < 2 ^ 48 then putBits (c.w i.word) 47 0 a else a))

/-- Does a command of a queue take virtual addresses: a derrick's, with PHYS = 0 (R256)? -/
def takesVa (qid : Nat) (c : Cmd) : Bool := (qid == 3 || qid == 4) && decide (0x70 ≤ c.op) && decide (c.op ≤ 0x73) && !c.b 1 25

/-- The addresses of a command that no TOP binds are translated at load (R294). -/
def State.bindCmd (s : State) (ctx qid : Nat) (c : Cmd) (binds : List Bind) : State × Option Cmd :=
  (binds.filter (fun i => !i.late)).foldl (fun acc i => match acc.2 with
    | none => acc
    | some d => let q := acc.1.bindEarly ctx (takesVa qid c) i; (q.1, q.2.map (d.bindWord i))) (s, some c)

/-- A step with its addresses translated at load. -/
def State.bindStep (s : State) (ctx : Nat) (st : OpStep) : State × Option OpStep :=
  match st.kind with
  | .push p =>
    let q := s.bindCmd ctx p.qid p.cmd p.binds
    (match q.2, p.drain with
    | none, _ => (q.1, none)
    | some c, none => (q.1, some { st with kind := .push { p with cmd := c, binds := p.binds.filter Bind.late } })
    | some c, some d =>
      let e := q.1.bindCmd ctx 0 d.cmd d.binds
      (e.1, e.2.map (fun f => { st with kind := .push { p with cmd := c, binds := p.binds.filter Bind.late, drain := some { d with cmd := f, binds := d.binds.filter Bind.late } } })))
  | _ => (s, some st)

/-- Every operation with its addresses translated at load, or the first whose are not. -/
def State.bindOps (s : State) (ctx : Nat) (ops : List (List OpStep)) : State × (Nat ⊕ List (List OpStep)) :=
  ops.zipIdx.foldl (fun (acc : State × (Nat ⊕ List (List OpStep))) p => match acc.2 with
    | .inl _ => acc
    | .inr l =>
      let q := p.1.foldl (fun (a : State × Option (List OpStep)) st => match a.2 with
        | none => a
        | some m => let b := a.1.bindStep ctx st; (b.1, b.2.map (fun z => m ++ [z]))) (acc.1, some [])
      (q.1, match q.2 with | some m => .inr (l ++ [m]) | none => .inl p.2)) (s, .inr [])

/-- A push's command with its tag (R294): the operation, and the push's position in its queue's part of the core's steps. -/
def tagged (k : Nat) (before : List OpStep) (p : Push) : Cmd :=
  let pos := (before.filter (fun st => st.push?.any (fun o => o.qid == p.qid))).length
  p.cmd.set 0 (BitVec.ofNat 64 (putBits (p.cmd.w 0) 39 16 (k % 65536 * 256 + pos % 256)))

/-- The command blocks of translated code, which LOAD puts into the work area (R299): each operation's commands, core by core. -/
def commandsOf (ops : List (List OpStep)) : Bytes :=
  ops.zipIdx.flatMap (fun e => (List.range 24).flatMap (fun b =>
    let mine := e.1.filter (fun st => st.core == b)
    mine.zipIdx.flatMap (fun p => (p.1.push?.map (fun q => (tagged e.2 (mine.take p.2) q).toBytes)).getD [])))

/-- The drain descriptors of translated code, which LOAD puts into the work area (R299). -/
def drainsOf (ops : List (List OpStep)) : List (Nat × Bytes) :=
  ops.flatten.filterMap (fun st => st.push?.bind (fun p => p.drain.map (fun d => (d.va, d.cmd.toBytes))))

/-- A gradient image of frozen weights (R189, R190): the values of the weights in the FMT of the gradient tile, as an identity pass writes them. -/
def State.imageBytes (s : State) (o : Opnd) (fmt : Nat) : Option Bytes :=
  match s.regions.find? (fun e => e.1 == o.region) with
  | none => none
  | some e =>
    let base := (e.2.slot 0).addr
    let w := { o with va := base + o.va, side := base + o.side }
    let f := logFmtOf fmt
    let sh := imageShape o fmt
    let code := fun (n k : Nat) =>
      let ix := unflat w.dims (n * w.last + k)
      let got := (w.reads ix).map (fun a => (s.read a.1 a.2).getD [])
      leBytes f.size (logEncode (w.val ix got).1 f).1
    some ((List.range sh.1).flatMap (fun i => padTo sh.2.2 ((List.range sh.2.1).flatMap (fun j => if typeMx o.typ then code i j else code j i))))

/-- The images that LOAD forms. -/
def State.imagesOf (s : State) (tops : List TOp) (images : List (Nat × Nat)) : List (Nat × Bytes) :=
  images.filterMap (fun i => (tops[i.1]?).bind (fun t => (s.imageBytes t.passed (widthFmt t.gradw)).map (fun b => (i.2, b))))

/-- The frozen regions that operations read (R193). -/
def State.frozenOf (s : State) (tops : List TOp) : List Nat :=
  (tops.flatMap (fun t => (t.opnds.filter Opnd.reg).map Opnd.region)).filter (fun r => s.regions.any (fun e => e.1 == r && e.2.frozen))

/-- Do the places of what LOAD writes lie in the work area and apart, CODE on a word boundary? -/
def placesOk (wa wsz code : Nat) (all : List (Nat × Bytes)) : Bool :=
  let l := all.filter (fun w => !w.2.isEmpty)
  code % 4 == 0 && l.all (fun w => inside w.1 w.2.length wa wsz)
    && (List.range l.length).all (fun i => (List.range i).all (fun j => match l[i]?, l[j]? with
      | some a, some b => !overlap a.1 a.2.length b.1 b.2.length
      | _, _ => true))

/-- The first operation of a module that fails by itself, with its operand: a reserved encoding, shapes that disagree, or a checkpointed block that does
not pair (R183, R296, R299). -/
def tensorFault (m : Bytes) : Option (Nat × Nat) :=
  match opsCheck m.length 0 (sectionBytes m 2) with
  | some e => some e
  | none => match blocksOf 0 none (parseOps m.length (sectionBytes m 2)) with
    | .inl k => some (k, 0)
    | .inr _ => none

/-- The first operand of an operation, of those that LOAD binds, whose pages give no access (R241, R294). -/
def State.opndFault (s : State) (ctx : Nat) (t : TOp) : Option Nat :=
  (List.range t.opnds.length).find? (fun i => let o := t.opnd i; !o.bind && !o.reg && (s.pieces ctx o.va (max 1 o.extent) false).2.isNone)

/-- The first operation that fails, with its operand, in increasing k: by itself, or because LOAD cannot translate an operand's addresses (R299). -/
def State.loadFault (s : State) (ctx : Nat) (m : Bytes) : Option (Nat × Nat) :=
  let f := tensorFault m
  let n := (f.map Prod.fst).getD m.length
  (((parseOps m.length (sectionBytes m 2)).take n).zipIdx.findSome? (fun e => (s.opndFault ctx e.1).map (fun o => (e.2, o)))).or f

/-- The module is translated and placed, and the entry completes with its handle once peers have taken its writes (R279, R299). A translation that the
rules do not allow leaves the LOAD as it stands (DESIGN CHOICE, log 1). -/
def State.loadPlace (s : State) (r : Fin 64) (c : Cmd) (m : Bytes) (h sb : Nat) (t : Translated) : Option State :=
  let ctx := s.ringCtx r
  let tops := parseOps m.length (sectionBytes m 2)
  let need := leAt m 16 4
  match t, blocksOf 0 none tops with
  | .ok code ro zb cb ops bufs writes images us ver, .inr blocks =>
    if !(Tr.ok ⟨c.f 5 23 0, c.w 3, c.w 4, sb, need, tops, ops, blocks, s.frozenOf tops, bufs, writes, images⟩) then none
    else
      let q := s.bindOps ctx ops
      (match q.2 with
      | .inl k => some (q.1.loadRefuse r 5 k 0)
      | .inr bound =>
        let all := [(code, relocated m sb ro zb), (ro, sectionBytes m 3), (zb, List.replicate (zeroSize m) (0 : Byte)), (cb, commandsOf bound)] ++ writes ++ drainsOf bound
          ++ s.imagesOf tops images
        if !placesOk (c.w 3) (c.w 4) code all then none
        else
          let w := q.1.loadWrite r ctx all
          if !w.2 then some (w.1.loadRefuse r 6 0 0)
          else
            let en := sectionBytes m 5
            let es := (List.range (en.length / 4)).map (fun i => code + 4 * leAt en (4 * i) 4)
            let md : Module := { handle := h, mask := c.f 5 23 0, ctx := ctx, code := code, entries := es, syncBase := sb, syncNeed := need,
                                 freeze := leAt m 20 2, ops := bound, version := ver }
            let s2 := (List.range need).foldl (fun u i => u.setSync (sb + i) 0) { w.1 with modules := w.1.modules ++ [md] }
            let s3 := s2.ev 0x730 0xFF (leBytes 2 h ++ leBytes 4 us ++ leBytes 4 ver)
            some (if s3.ringOut r then s3.modRing r (fun x => { x with after := some (0, h) }) else (s3.loadEnd r).ringDone r 0 h))
  | _, _ => none

/-- The module's bytes checked in the order of R299, and translated. -/
def State.loadCheck (s : State) (r : Fin 64) (c : Cmd) (m : Bytes) (t : Translated) : Option State :=
  if !headerOk m (c.f 2 31 0) then some (s.loadRefuse r 1 0 0)
  else if !moduleCrcOk m then some (s.loadRefuse r 2 0 0)
  else if leAt m 4 2 ≠ 0x0100 then some (s.loadRefuse r 3 0 0)
  else if !(tableOk m && entriesOk m) then some (s.loadRefuse r 4 0 0)
  else
    match s.handleFree, s.syncFree (leAt m 16 4) with
    | some h, some sb =>
      (match s.loadFault (s.ringCtx r) m, t with
      | some (k, o), _ => some (s.loadRefuse r 5 k o)
      | none, .noRoom => some (s.loadRefuse r 6 0 0)
      | none, t => s.loadPlace r c m h sb t)
    | _, _ => some (s.loadRefuse r 6 0 0)

/-- LOAD (R276, R279, R299): waits until the gang is idle, whose cores then load; reads the module, from the host's memory as `host` gives it; checks and
translates it; and completes with its handle or a status, once peers have taken the writes that lie with them. -/
def load (s : State) (r : Fin 64) (t : Translated) (host : Option Bytes) : State :=
  match s.ringHead r 0x80 with
  | none => s
  | some e =>
    let c := e.cmd
    let mask := c.f 5 23 0
    match (s.ring r).after with
    | some d => if s.ringOut r then s else if (s.ring r).refused then
        ({ s with modules := s.modules.filter (fun m => m.handle != d.2) } : State).loadRefuse r 6 0 0 else (s.loadEnd r).ringDone r d.1 d.2
    | none =>
      if mask = 0 ∨ (gang mask).any (fun b => (s.bench b).out) then s.loadRefuse r 7 0 0
      else if !(s.loading r mask || s.gangIdle mask) then s
      else
        let s0 := if s.loading r mask then s else s.loadStart r mask
        let g := s0.loadRead r (s.ringCtx r) (c.w 1) (c.f 2 31 0) host
        match g.2 with
        | .wait => g.1
        | .bad => g.1.loadRefuse r 1 0 0
        | .got m => (g.1.loadCheck r c m t).getD s

/-! ## RUN (R276, R277, R295) -/

/-- A module by its handle. -/
def State.module? (s : State) (h : Nat) : Option Module := s.modules.find? (fun m => m.handle == h)

/-- A core at the start of a run (R277). -/
def Core.begin (x : Core) (ring : Nat) (m : Module) (rank size : Nat) (pc : Nat) (arg : Nat) : Core :=
  { x with st := 2, cause := 0, ctx := m.ctx, handle := m.handle, ring := some ring,
           g := ((((Vector.replicate 32 (0 : W64)).set 1 (BitVec.ofNat 64 rank)).set 2 (BitVec.ofNat 64 size)).set 3 (BitVec.ofNat 64 arg)).set 4
             (BitVec.ofNat 64 m.handle),
           pc := pc % 2 ^ 48, lc := Vector.replicate 4 0, loops := Vector.replicate 4 {}, slots := Vector.replicate 4 none, claim := none,
           topPos := 0, due := 0, stepping := false, runPush := [], io := .none, lines := [], why := 0, retired := 0, owed := [], work := {}, strm := none }

/-- The two commands of the prologue (R295): SETREG of BN_TILE_CFG with FREEZE and REPRO, and COMMIT. -/
def prologue (freeze : Nat) (repro : Bool) : List Cmd :=
  [[0x30, 0x100, BitVec.ofNat 64 (freeze * 65536 + b2n repro), 0, 0, 0, 0, 0], [0x31, 0, 0, 0, 0, 0, 0, 0]]

/-- Does a ring below r have a RUN at its head that is as ready, on a core of the same gang (R276)? -/
def State.runBefore (s : State) (r : Fin 64) (mask : Nat) : Bool :=
  (List.finRange 64).any (fun k => decide (k < r) && (match s.ringHead k 0x81 with
    | none => false
    | some e => match s.module? (e.cmd.f 1 15 0) with
      | none => false
      | some m => m.entries[e.cmd.f 1 31 16]?.isSome && (m.mask &&& mask) != 0 && s.gangIdle m.mask))

/-- RUN (R276, R279, R295): once every core of the gang is idle, no lower ring's RUN is as ready, and its bench queues have room for the prologue, the
entry starts on each. -/
def run (s : State) (r : Fin 64) : State :=
  match s.ringHead r 0x81 with
  | none => s
  | some e =>
    let c := e.cmd
    match s.module? (c.f 1 15 0) with
    | none => s.ringDone r 9 0
    | some m =>
      match m.entries[c.f 1 31 16]? with
      | none => s.ringDone r 9 0
      | some pc =>
        let g := gang m.mask
        if g.any (fun b => (s.bench b).out) then s.ringDone r 7 0
        else if !s.gangIdle m.mask || s.runBefore r m.mask || g.any (fun b => decide (62 < (s.bench b).q.cmds.length)) then s
        else
          let s1 := { s with runs := s.runs ++ [({ ring := r, handle := m.handle, mask := m.mask } : Run)] }
          let s2 := g.zipIdx.foldl (fun t p =>
            let t1 := t.modCore p.1 (fun (x : Core) => x.begin r m p.2 g.length pc (c.w 2))
            (prologue m.freeze (s.repro.getD m.ctx false)).foldl (fun u k => u.corePush p.1 0 (.bench p.1) k) t1) s1
          s2.modRing r (fun x => { x with q := ({ e with started := true } : RingEntry) :: x.q.drop 1 })

/-! ## The others (R279) -/

/-- Is a RUN of a handle executing, or queued on another ring (R304)? -/
def State.runPending (s : State) (r : Fin 64) (h : Nat) : Bool :=
  s.runs.any (fun x => x.handle == h)
    || (List.finRange 64).any (fun k => k != r && (s.ring k).q.any (fun e => e.done.isNone && e.cmd.op == 0x81 && e.cmd.f 1 15 0 == h))

/-- UNLOAD. -/
def unload (s : State) (r : Fin 64) : State :=
  match s.ringHead r 0x82 with
  | none => s
  | some e =>
    let h := e.cmd.f 1 15 0
    if (s.module? h).isNone || s.runPending r h then s.ringDone r 9 0
    else ({ s with modules := s.modules.filter (fun m => m.handle != h) } : State).ringDone r 0 0

/-- CTX: the reproducible flag of the ring's context (R295). -/
def ctxCmd (s : State) (r : Fin 64) : State :=
  match s.ringHead r 0x83 with
  | none => s
  | some e => ({ s with repro := s.repro.set (Fin.ofNat 64 (s.ringCtx r)) (e.cmd.b 1 0) } : State).ringDone r 0 0

/-- WAIT. -/
def ringWait (s : State) (r : Fin 64) : State :=
  match s.ringHead r 0x84 with
  | none => s
  | some e => if e.cmd.w 2 ≤ s.syncVal (e.cmd.f 1 7 0) then s.ringDone r 0 0 else s

/-- SIGNAL. -/
def ringSignal (s : State) (r : Fin 64) : State :=
  match s.ringHead r 0x85 with
  | none => s
  | some e => (s.addSync (e.cmd.f 1 7 0) 1).ringDone r 0 0

end Sys2Proof.Machine
end

