-- ==== Sys2Proof/Machine/Dresser.lean ====
section
/-! DEFINITION. The dresser (R116 to R135) and the tile status record (R81, R82). -/
namespace Sys2Proof.Machine

/-! ## The drain descriptor (R118) -/

namespace Drain
def ofmt (d : Cmd) : Nat := d.f 0 55 52
def mxt (d : Cmd) : Nat := d.f 0 51 48
def mode (d : Cmd) : Nat := d.f 0 45 44
def fn (d : Cmd) : Nat := d.f 0 43 40
def rowScale (d : Cmd) : Bool := d.b 0 39
def bias (d : Cmd) : Bool := d.b 0 38
def scale (d : Cmd) : Bool := d.b 0 37
def clip (d : Cmd) : Bool := d.b 0 36
def aux (d : Cmd) : Bool := d.b 0 35
def auxFmt (d : Cmd) : Nat := d.f 0 34 32
def ebase (d : Cmd) : Int := signed 12 (d.f 0 31 20)
def ncols (d : Cmd) : Nat := d.f 0 19 10
def norerun (d : Cmd) : Bool := d.b 0 9
def out (d : Cmd) : Nat := d.f 1 47 0
def alpha (d : Cmd) : Nat := d.f 2 63 48
def tmax (d : Cmd) : Nat := d.f 2 47 32
def ostride (d : Cmd) : Nat := 64 * d.f 2 31 16
def pstride (d : Cmd) : Nat := 64 * d.f 2 15 0
def sstride (d : Cmd) : Nat := d.f 3 63 48
def scaleAddr (d : Cmd) : Nat := d.f 3 47 0
def biasAddr (d : Cmd) : Nat := d.f 4 47 0
def pre (d : Cmd) : Nat := d.f 5 47 0
def clipHi (d : Cmd) : Nat := d.f 6 63 32
def clipLo (d : Cmd) : Nat := d.f 6 31 0
def rfx (d : Cmd) : Int := signed 12 (d.f 7 63 52)
def side (d : Cmd) : Nat := d.f 7 47 0
/-- Bytes of an output element; a Microscaling element is sized by its bits (R125). -/
def rowBytes (d : Cmd) : Nat :=
  let n := ncols d
  match ofmt d with
  | 0 => n | 1 => n | 2 => 2 * n | 3 => 2 * n | 4 => 4 * n | 5 => 2 * n
  | 6 => n * elemBits (mxt d) / 8
  | _ => 4 * n
/-- Bytes of a pre-activation element. -/
def auxSize (d : Cmd) : Nat := if auxFmt d = 1 then 4 else 2
end Drain

open Drain

/-- A finite LX16 code that is not zero. -/
def lx16Finite (c : Nat) : Bool := !LX16.special c

/-- Is an FP32 bound normal or zero? -/
def boundOk (c : Nat) : Bool := decide (bits c 30 0 = 0) || (decide (bits c 30 23 ≠ 0) && decide (bits c 30 23 ≠ 255))

/-- The check of R133 that fails first. DESIGN CHOICE (log 82): NCOLS = 0, which R118 calls reserved and check 2 puts out of range, fails
check 2. -/
def drainItem (addr : Nat) (d : Cmd) : Option Nat :=
  let o := ofmt d
  let res := d.f 0 63 56 != 0 || d.f 0 47 46 != 0 || d.f 0 8 0 != 0 || d.f 1 63 48 != 0 || d.f 4 63 48 != 0
    || d.f 5 63 48 != 0 || d.f 7 51 48 != 0 || decide (7 < o) || decide (1 < mode d) || decide (4 < fn d)
    || decide (2 < auxFmt d) || decide (6 < mxt d) || (decide (o ≠ 6) && decide (mxt d ≠ 0))
  if addr % 64 ≠ 0 ∨ res then some 1
  else if ncols d = 0 ∨ 512 < ncols d ∨ (o = 6 ∧ (ncols d % 32 ≠ 0 ∨ mxt d = 0)) then some 2
  else if rowScale d && (decide (mode d ≠ 0) || decide (5 < o) || !(lx16Finite (tmax d)) || LX16.sgn (tmax d)) then some 3
  else if mode d = 1 && (bias d || aux d != decide (fn d ≠ 0)) then some 4
  else if (decide (fn d = 2) && decide (alpha d = LX16.nan))
      || (clip d && !(boundOk (clipLo d) && boundOk (clipHi d)
          && decide ((fpRead (clipLo d) FP32).1.toRat ≤ (fpRead (clipHi d) FP32).1.toRat))) then some 5
  else if out d % 64 ≠ 0 ∨ (scale d ∧ scaleAddr d % 64 ≠ 0) ∨ (bias d ∧ biasAddr d % 64 ≠ 0) ∨ ostride d < rowBytes d
      ∨ (aux d ∧ pstride d < ncols d * auxSize d) ∨ (o = 6 ∧ sstride d < ncols d / 32) then some 6
  else none

/-- The tile's drain fails its checks (R133): DRAIN_INVALID, and the queue halts with cause 4 at the next command boundary, which a
COMMIT command in wait of its copy puts off. DESIGN CHOICE (log 82): a queue that is already halted keeps its HALT_CAUSE. -/
def State.drainBad (s : State) (b : Fin 24) (t : Tile) (d : Cmd) (item : Nat) : State :=
  let s1 := (s.ev 0x211 b (leBytes 3 t.tag ++ leBytes 1 item)).modBench b (fun x => x.setTile { t with drain := .bad d })
  let x := s1.bench b
  if x.q.halted then s1
  else if x.commitCmd then s1.modBench b (fun y => { y with q := y.q.haltSoon 4 })
  else (s1.modBench b Bench.clearPend).benchHalt b 4

/-- DRAIN_DESCRIPTOR_ARRIVAL (R117): the descriptor and the tables that it enables are read, a poisoned entry as NaN and a poisoned
descriptor failing check 1 (R250). -/
def drainArrive (s : State) (b : Fin 24) : State :=
  let x := s.bench b
  if x.out then s
  else
    match x.tiles.find? (fun t => t.fin && decide (t.drain = .waiting)) with
    | none => s
    | some t =>
      match s.read t.drainAddr 64 with
      | none => s.drainBad b t [] 1
      | some bs =>
        let d := Cmd.ofBytes bs
        match drainItem t.drainAddr d with
        | some i => s.drainBad b t d i
        | none =>
          let ent := fun (on : Bool) (a n bad : Nat) => if on then (match s.read a n with | some v => fromLe v | none => bad) else 0
          let cs := (List.range 512).map (fun n => ent (scale d) (scaleAddr d + 2 * n) 2 LX16.nan)
          let bi := (List.range 512).map (fun n => ent (bias d) (biasAddr d + 4 * n) 4 FP32.nanCode)
          s.modBench b (fun y => y.setTile { t with drain := .ready d cs bi })

/-! ## The fused pass (R119 to R126) -/

/-- `lmul` of R119. -/
def lmul (sg : Bool) (q : Int) : Rat :=
  let d := decodeQ 9 q 0
  let m := (d.1 : Rat) * pow2 (d.2 - 24)
  if sg then -m else m

/-- A value of `dress`, a real: its zero has no sign, so it converts to +0 (R75, R120). -/
def Val.unsignedZero (v : Val) : Val :=
  match v with
  | .fin s m => .fin (s && decide (m ≠ 0)) m
  | w => w

/-- A real in the dresser times k: NaN, an infinity from a bias or pre-activation, or an exact value. -/
def scaleVal (v : Val) (k : Rat) : Val :=
  match v with
  | .fin s m => Val.unsignedZero (.fin (xor s (decide (k < 0))) (m * (if k < 0 then -k else k)))
  | .inf s => if k = 0 then .fin false 0 else .inf (xor s (decide (k < 0)))
  | .nan => .nan

/-- The sum with a bias entry: an infinite entry makes the sum infinite with its sign (R120). -/
def addBias (u b : Val) : Val :=
  match b with
  | .inf s => .inf s
  | _ => (vadd u b).unsignedZero

/-- idx of R121. -/
def tableIdx (x : Val) : Nat :=
  match x with
  | .inf s => if s then 0 else 2047
  | v => (clampInt ((v.toRat * 64).floor + 1024) 0 2047).toNat

/-- Entry of a dresser table pair: GATE(p) or DERIV(p) at index i (R122). -/
def drTable (s : State) (b p : Nat) (deriv : Bool) (i : Nat) : Nat :=
  let e := p * 4096 + (if deriv then 2048 else 0) + i
  bits (s.rn (R.DR_TABLE b (e / 4))) (16 * (e % 4) + 15) (16 * (e % 4))

/-- Is a value above zero? -/
def Val.pos : Val → Bool
  | .fin s m => !s && decide (m ≠ 0)
  | .inf s => !s
  | .nan => false

/-- The gate or the derivative of R121, an LX16 code. -/
def actCode (s : State) (b : Nat) (d : Cmd) (deriv : Bool) (x : Val) : Nat :=
  match fn d with
  | 0 => 0
  | 1 => if x.pos then 0 else 0x4000
  | 2 => if x.pos then 0 else alpha d
  | 3 => drTable s b 0 deriv (tableIdx x)
  | _ => drTable s b 1 deriv (tableIdx x)

/-- One element after `dress`: the value w, the pre-activation to write, and the conditions of the reads (R120, R128). -/
structure Dressed where
  w : Val
  u : Option Val
  conds : Cond
  deriving DecidableEq, Repr

/-- The product with an LX16 code. -/
def mulCode (v : Val) (c : Nat) : Val :=
  if LX16.special c then (if LX16.sgn c then .nan else .fin false 0) else scaleVal v (lmul (LX16.sgn c) (LX16.q c))

/-- The clip of R120 under the primitives of R73, with the conditions of reading the bounds. -/
def clipVal (d : Cmd) (w : Val) : Val × Cond :=
  if clip d then
    let lo := fpRead (clipLo d) FP32
    let hi := fpRead (clipHi d) FP32
    let lt := fun (a b : Val) => match a, b with
      | .inf s, .inf t => s && !t
      | .inf s, _ => s
      | _, .inf t => !t
      | _, _ => vlt a b
    let w1 := if lt w lo.1 then lo.1 else w
    ((if lt hi.1 w1 then hi.1 else w1).unsignedZero, lo.2.or hi.2)
  else (w, Cond.none)

/-- A pre-activation read in AUXFMT under R34 (R120, R125, R128). -/
def readAux (d : Cmd) (c : Nat) : Val × Cond :=
  match auxFmt d with
  | 0 => (logDecode c LX16 0, Cond.none)
  | 1 => fpOperand c FP32
  | _ => fpOperand c BF16

/-- `dress` of R120 for column n, with the pre-activation z that a gradient tile reads. -/
def dress (s : State) (b : Nat) (d : Cmd) (v : Val) (cs bi : Nat) (z : Val × Cond) : Dressed :=
  let fwd := decide (mode d = 0)
  if v.isNan then ⟨.nan, if fwd && aux d then some .nan else none, Cond.none⟩
  else if fwd then
    let u0 := if scale d then mulCode v cs else v.unsignedZero
    let br := if bias d && !u0.isNan then fpRead bi FP32 else (.fin false 0, Cond.none)
    let u := if bias d && !u0.isNan then (if br.1.isNan then .nan else addBias u0 br.1) else u0
    let ua := if aux d then some u else none
    if u.isNan then ⟨.nan, ua, br.2⟩
    else
      let g := actCode s b d false u
      if g = 0xC000 then ⟨.nan, ua, br.2⟩
      else
        let w := mulCode u g
        let cl := clipVal d w
        ⟨cl.1, ua, br.2.or cl.2⟩
  else
    if fn d ≠ 0 ∧ z.1.isNan then ⟨.nan, none, z.2⟩
    else
      let dc := if fn d = 0 then 0 else actCode s b d true z.1
      let c := if scale d then cs else 0
      if c = 0xC000 ∨ dc = 0xC000 then ⟨.nan, none, z.2⟩
      else
        let w := if c = 0x4000 ∨ dc = 0x4000 then .fin false 0
          else scaleVal v (lmul (xor (LX16.sgn c) (LX16.sgn dc)) (LX16.q c + LX16.q dc))
        let cl := clipVal d w
        ⟨cl.1, none, z.2.or cl.2⟩

/-- The ceiling of log2(m) × 512 for a positive rational, decided by integer powers (R124). -/
def ceilLog2x512 (m : Rat) : Int :=
  let P := m.num.natAbs ^ 512
  let D := m.den ^ 512
  let f := flog2Nat P D
  let ex := if 0 ≤ f then decide (P = D * 2 ^ f.toNat) else decide (P * 2 ^ (-f).toNat = D)
  if ex then f else f + 1

/-- `row_scale` of R124: qr, whose code is qr in the low 15 bits. -/
def rowScaleQ (ws : List Val) (tm : Nat) : Int :=
  let fins := ws.filter (fun w => !w.isNan)
  let amax := fins.foldl (fun a w => max a w.mag) 0
  if fins.any Val.isInf then 16383
  else if amax = 0 then 0
  else clampInt (ceilLog2x512 amax - LX16.q tm) (-16383) 16383

/-- One output element rounded (R125): its code, conditions, and the exponent of the rounded value if nonzero and finite. -/
structure OutEl where
  code : Nat
  conds : Cond
  e : Option Int
  zero : Bool
  nan : Bool
  deriving DecidableEq, Repr

/-- A value rounded to a log format. -/
def outLog (w : Val) (f : LogFmt) : OutEl :=
  let r := logEncode w f
  ⟨r.1, r.2, if f.special r.1 then none else some (f.q r.1 / (2 ^ f.F : Nat)), decide (r.1 = f.zero), decide (r.1 = f.nan)⟩

/-- A value rounded to FP32 or BF16. -/
def outFp (w : Val) (f : FpFmt) : OutEl :=
  let r := fpEncode w f
  match (fpRead r.1 f).1 with
  | .fin _ m => ⟨r.1, r.2, if m = 0 then none else some (flog2 m), decide (m = 0), false⟩
  | _ => ⟨r.1, r.2, none, false, true⟩

/-- A value rounded to RF32 (R47). -/
def outRf (w : Val) (x : Int) : OutEl :=
  let r := rf32Encode w x
  match rf32Read r.1 x with
  | .fin _ m => ⟨r.1, r.2, if m = 0 then none else some (flog2 m), decide (m = 0), false⟩
  | _ => ⟨r.1, r.2, none, false, true⟩

/-- A block rounded to Microscaling (R42): the scale byte and the elements. -/
def outMx (t : Nat) (ws : List Val) : Nat × List OutEl :=
  let r := mxEncodeEls t ws none
  (r.1, r.2.map (fun e =>
    match (mxVal t r.1 e.1).1 with
    | .fin _ m => ⟨e.1, e.2, if m = 0 then none else some (flog2 m), decide (m = 0), false⟩
    | _ => ⟨e.1, e.2, none, false, true⟩))

/-- The screen bin of an element (R127). DESIGN CHOICE (log 83): a Microscaling element that saturates only by rounding, with no overflow
signalled (R42), lies in the bin of its exponent. -/
def binOf (ebase : Int) (o : OutEl) : Nat :=
  if o.nan then 63
  else if o.conds.ovf then 62
  else match o.e with
    | some e => (2 + clampInt (e - ebase) 0 59).toNat
    | none => if o.conds.unf then 1 else 0

/-- One count added in a screen. -/
def addBin (sc : List Nat) (k : Nat) : List Nat := sc.set k (sc.getD k 0 + 1)

/-- A pre-activation rounded to AUXFMT (R125). -/
def auxOut (d : Cmd) (u : Val) : OutEl :=
  match auxFmt d with
  | 0 => outLog u LX16
  | 1 => outFp u FP32
  | _ => outFp u BF16

/-- The columns of a row rounded to the output format: scale bytes and elements. -/
def roundRow (d : Cmd) (ws : List Val) : List Nat × List OutEl :=
  match ofmt d with
  | 4 => ([], ws.map (fun w => outFp w FP32))
  | 5 => ([], ws.map (fun w => outFp w BF16))
  | 6 =>
    let bl := (List.range (ncols d / 32)).map (fun j => outMx (mxt d) ((ws.drop (32 * j)).take 32))
    (bl.map (·.1), bl.flatMap (·.2))
  | 7 => ([], ws.map (fun w => outRf w (rfx d)))
  | k => ([], ws.map (fun w => outLog w (logFmtOf k)))

/-- The bytes of the rounded row (R125). -/
def rowOut (d : Cmd) (els : List OutEl) : Bytes :=
  match ofmt d with
  | 6 => (List.range (ncols d / 32)).flatMap (fun j => packElems (mxt d) (((els.drop (32 * j)).take 32).map (·.code)))
  | _ => els.flatMap (fun e => leBytes (rowBytes d / ncols d) e.code)

/-! ## One row (R116, R120, R131) -/

/-- The dresser's input values for a row, the state with the spill records that the final accumulators entered, whether an OVF
record and whether a poisoned record was met (R65, R94, R102, R116). -/
def drainVals (s : State) (t : Tile) (r : ShRow) (n : Nat) : List Val × State × Bool × Bool :=
  match r.accs with
  | .d l =>
    let l := l.take n
    (l.map Wp.val, s, l.any (fun w => w.ovf && !w.nan && !w.poison), l.any (·.poison))
  | .a l =>
    if t.spill then
      let recs := l.zipIdx.map (fun p => spillAdd (rdWp s (t.spillAt r.row p.2)) p.1)
      ((recs.take n).map Wp.val, s.wrAdd (t.spillAt r.row 0) (recs.flatMap Wp.toBytes),
        (recs.take n).any (fun w => w.ovf && !w.nan && !w.poison), (recs.take n).any (·.poison))
    else ((l.take n).map AccA.val, s, false, (l.take n).any (·.poison))

/-- Does the screen mark the tile (R129)? -/
def Tile.rerunDue (t : Tile) (d : Cmd) : Bool :=
  !norerun d && t.rerun.testBit 31 &&
    decide (bits t.rerun 15 0 * t.M * ncols d
      < (t.screen.getD 62 0 + (if t.rerun.testBit 30 then t.screen.getD 1 0 else 0)) * 65536)

/-- The head of the shadow set has left, its tile given as it now stands: the slot frees with the tile's last row (R96), a faulted tile's with
the last row that it has in the set (R101). A tile that drained whole waits for its status record (R82). DESIGN CHOICE (log 82): a tile whose
descriptor failed R133 writes no status record and is not counted in BN_TILES_DONE, and once its rows have left it holds no SYNC_SIGNAL
back. -/
def Bench.rowLeft (x : Bench) (t : Tile) : Bench :=
  let y := { x.setTile t with shadow := x.shadow.drop 1 }
  if t.dead then (if y.shadow.any (fun q => q.tile == t.id) then y else y.dropTile t.id)
  else if t.rowsOut < t.M then y
  else { y.dropTile t.id with drained := match t.drain with
    | .ready _ _ _ => y.drained ++ [t]
    | _ => y.drained }

/-- The row written and counted: events, conditions, screen, outputs, and after the last row the RERUN_WIDE decision. DESIGN CHOICE (log 83):
BOUND_EXCEEDED comes with the first drained row, before that row's other events, for a tile of either class; the drain of a record with
OVF raises overflow alone. -/
def dressRow (s0 : State) (b : Fin 24) (t : Tile) (d : Cmd) (cs bi : List Nat) (r : ShRow) : State :=
  let n := ncols d
  let (vs, s1, ovf, poi) := drainVals s0 t r n
  let fwdAux := decide (mode d = 0) && aux d
  let paddr := pre d + pstride d * r.row
  let zOf := fun i => if decide (mode d = 1) && decide (fn d ≠ 0) then
      (match s1.read (paddr + auxSize d * i) (auxSize d) with
        | some z => readAux d (fromLe z)
        | none => (.nan, Cond.none))
    else (.fin false 0, Cond.none)
  let ds := vs.zipIdx.map (fun p => dress s1 b d p.1 (cs.getD p.2 0) (bi.getD p.2 0) (zOf p.2))
  let auxs := ds.filterMap (fun x => x.u.map (auxOut d))
  let ws0 := ds.map (·.w)
  let qr := rowScaleQ ws0 (tmax d)
  let ws := if rowScale d then ws0.map (fun w => scaleVal w (lmul false (-qr))) else ws0
  let (scales, els) := roundRow d ws
  let c1 := ds.foldl (fun k x => k.or x.conds) (if ovf then { ovf := true } else Cond.none)
  let c2 := auxs.foldl (fun k x => k.or x.conds) c1
  let c3 := els.foldl (fun k x => k.or x.conds) c2
  let first := decide (t.rowsOut = 0)
  let bnd := first && t.bound
  let cn := c3.toNat ||| (if bnd then 16 else 0)
  let sat := (els.filter (fun e => decide (binOf (ebase d) e = 62))).length
  let t1 := { t with conds := t.conds ||| cn, rowsOut := t.rowsOut + 1,
                     screen := els.foldl (fun sc e => addBin sc (binOf (ebase d) e)) t.screen,
                     anchorOvf := t.anchorOvf || ovf, poisonSeen := t.poisonSeen || poi }
  let t2 := { t1 with marked := decide (t1.rowsOut = t.M) && t1.rerunDue d }
  let s2 := if fwdAux then s1.write paddr (auxs.flatMap (fun e => leBytes (auxSize d) e.code)) else s1
  let s3 := s2.write (out d + ostride d * r.row) (rowOut d els)
  let s4 := if decide (ofmt d = 6) then s3.write (side d + sstride d * r.row) (scales.flatMap (leBytes 1)) else s3
  let s5 := if rowScale d then s4.write (side d + 2 * r.row) (leBytes 2 (toBits 15 qr)) else s4
  let tagB := leBytes 3 t.tag
  let s6 := if bnd then s5.ev 0x220 b tagB else s5
  let s7 := if ovf && !t.anchorOvf then s6.ev 0x221 b tagB else s6
  let s8 := if poi && !t.poisonSeen then s7.ev 0x112 b tagB else s7
  let s9 := ((s8.charge b t.tag (if t.clsD then c3.toNat else cn)).addReg (R.DR_ROWS b) 1).addReg (R.DR_SATURATED b) sat
  let s10 := if t2.marked then (s9.ev 0x210 b (tagB ++ leBytes 4 (t2.screen.getD 62 0))).addReg (R.DR_MARKED b) 1 else s9
  s10.modBench b (·.rowLeft t2)

/-- DRESSER_ROW (R120, R131): the oldest row of the shadow set; it waits for its descriptor and tables. A row of a tile whose drain failed
leaves undrained (R133). -/
def dresserRow (s : State) (b : Fin 24) : State :=
  let x := s.bench b
  if x.out then s
  else
    match x.shadow with
    | [] => s
    | r :: rest =>
      match x.tile? r.tile with
      | none => s.setBench b { x with shadow := rest }
      | some t =>
        match t.drain with
        | .waiting => s
        | .bad _ => s.modBench b (·.rowLeft { t with rowsOut := t.rowsOut + 1 })
        | .ready d cs bi => dressRow s b t d cs bi r

/-- The 16 first bytes of a tile status record (R81). -/
def statusHead (t : Tile) : Bytes :=
  leBytes 4 t.tag
    ++ leBytes 4 (b2n (t.wb.testBit 1) * 2048 + b2n (t.wb.testBit 0) * 1024 + b2n t.anchorOvf * 512 + b2n t.marked * 256
        + (if t.wb.testBit 0 then t.conds % 32 else 0))
    ++ leBytes 4 t.count ++ leBytes 4 0

/-- TILE_STATUS_WRITE (R81, R82): the record of the oldest drained tile is written and the tile reports complete. -/
def tileStatus (s : State) (b : Fin 24) : State :=
  let x := s.bench b
  if x.out then s
  else
    match x.drained with
    | [] => s
    | t :: _ =>
      let bs := statusHead t ++ (if t.wb.testBit 1 then t.screen.flatMap (leBytes 4) else [])
      ((s.write t.status bs).modBench b (fun y => { y with drained := y.drained.drop 1 })).addReg (R.BN_TILES_DONE b) 1

/-! ## Dresser registers (R123, R134) -/

/-- Does a captured tile reference table pair p (R123)? A tile whose descriptor has not arrived references what its descriptor
in memory names. -/
def tileRefs (s : State) (t : Tile) (p : Nat) : Bool :=
  t.fin && decide (t.rowsOut < t.M) &&
    match t.drain with
    | .ready d _ _ => decide (fn d = 3 + p)
    | .waiting => decide (fn (Cmd.ofBytes (s.bytes t.drainAddr 64)) = 3 + p)
    | .bad d => decide (fn d = 3 + p)

/-- TBUSY of pair p (R123). -/
def tbusy (s : State) (b : Fin 24) (p : Nat) : Bool := (s.bench b).tiles.any (fun t => tileRefs s t p)

/-- DR_TABLE_WRITE (R123): one 16-bit entry at a byte offset of the pair's window; dropped with TABLE_BUSY while the pair is
referenced. -/
def drTableWrite (s : State) (b : Fin 24) (p off v : Nat) : State :=
  if (s.bench b).out then s
  else if tbusy s b p then s.ev 0x212 b (leBytes 2 (0x1000 + 0x2000 * p + off))
  else
    let e := (p % 2) * 4096 + off / 2 % 4096
    s.setFld (R.DR_TABLE b (e / 4)) (16 * (e % 4) + 15) (16 * (e % 4)) v

/-- DR_CTRL.CNT_CLR (R134). -/
def drCntClr (s : State) (b : Fin 24) : State :=
  if (s.bench b).out then s
  else ((s.setRn (R.DR_MARKED b) 0).setRn (R.DR_SATURATED b) 0).setRn (R.DR_ROWS b) 0

end Sys2Proof.Machine
end

