-- ==== Sys2Proof/Machine/Commit.lean ====
section
/-! DEFINITION. The step commit of the gatehouse (R224 to R233, R396): the prepare request, the tally exchange (R355), votes, decisions,
takeover, and the flip. -/
namespace Sys2Proof.Machine

/-! ## Who takes part (R226) -/

/-- Is a device in membership at the epoch in force? -/
def State.inMembership (s : State) (d : Nat) : Bool := s.members.contains d || (s.member && d == s.dev)
/-- The members of the commit group that are in membership, in ascending order. -/
def State.cmLive (s : State) : List Nat := ((s.cm.group.map (·.2)).getD []).filter s.inMembership
/-- The coordinator of the epoch in force, if a group is known. -/
def State.coordinator (s : State) : Option Nat := s.cmLive.head?
/-- Is this module the coordinator? -/
def State.isCoord (s : State) : Bool := s.member && s.coordinator == some s.dev
/-- The state code of R228. -/
def State.cmState (s : State) : Nat := s.rfld R.GH_CM_STATE 2 0
/-- The current step. -/
def State.cmStep (s : State) : Nat := s.rn R.GH_CM_STEP
/-- Is the current step undecided: UPDATING, PREPARED or NOT_PREPARED? -/
def State.undecided (s : State) : Bool := decide (1 ≤ s.cmState) && decide (s.cmState ≤ 3)
/-- The stacks in service (R225). -/
def State.liveStacks (s : State) : List (Fin 8) := (List.finRange 8).filter (fun k => s.stackUp k)
/-- Changes the commit state. -/
def State.modCm (s : State) (f : Cm → Cm) : State := { s with cm := f s.cm }

/-! ## Messages (R227) -/

/-- The 32 bytes of a commit message. -/
def CmMsg.toBytes (m : CmMsg) : Bytes :=
  leBytes 8 m.group ++ leBytes 8 m.step ++ leBytes 4 m.epoch ++ leBytes 2 m.src ++ leBytes 1 m.typ ++ leBytes 1 m.value ++ leBytes 8 0
/-- A commit message read from 32 bytes. -/
def CmMsg.ofBytes (b : Bytes) : CmMsg :=
  { group := leAt b 0 8, step := leAt b 8 8, epoch := leAt b 16 4, src := leAt b 20 2, typ := leAt b 22 1, value := leAt b 23 1 }

/-- A message of this module's group sent to a member. -/
def State.cmSend (s : State) (dst typ step value : Nat) : State :=
  let m : CmMsg := { group := (s.cm.group.map (·.1)).getD 0, step := step, epoch := s.rn R.LK_EPOCH % 2 ^ 32, src := s.dev, typ := typ, value := value }
  s.sendCommit dst m.toBytes
/-- A message to every other member of the group that is in membership. -/
def State.cmSendAll (s : State) (typ step : Nat) : State :=
  (s.cmLive.filter (· != s.dev)).foldl (fun t d => t.cmSend d typ step 0) s

/-- The first waiting message of a type, taken; a message of another group is dropped (R227). -/
def State.cmTake (s : State) (typ : Nat) (f : State → CmMsg → State) : State :=
  match s.cmBox.find? (fun m => m.typ == typ) with
  | none => s
  | some m =>
    let s1 := { s with cmBox := s.cmBox.erase m }
    if (s.cm.group.map (·.1)) = some m.group then f s1 m else s1

/-! ## The coordinator's decision (R229, R230) -/

/-- A decision becomes due on this module, unless one already is. -/
def State.cmDecide (s : State) (d : CmDue) : State := if s.cm.due.isSome then s else s.modCm (fun c => { c with due := some d })

/-- The coordinator decides as soon as a condition of R229 holds. -/
def State.cmEvaluate (s : State) : State :=
  let S := s.cmStep
  let e := s.rn R.LK_EPOCH
  if !(s.isCoord && s.undecided && s.cm.due.isNone && s.cm.take.isNone && !s.cm.takeDue) then s
  else
    let vs := s.cm.votes.filter (fun v => v.2.1 == S)
    if s.cmState = 3 then s.cmDecide ⟨S, false, e, false, false, true, s.dev⟩
    else if vs.any (fun v => !v.2.2) then s.cmDecide ⟨S, false, e, true, false, true, s.dev⟩
    else if s.cmState = 2 ∧ s.cmLive.all (fun d => d == s.dev || vs.any (fun v => v.1 == d)) then s.cmDecide ⟨S, true, e, false, false, true, s.dev⟩
    else s

/-- A takeover ends once every awaited STATE is there, or at once where this module committed its step (R230). A decision that arrived
before is applied first. -/
def State.cmConclude (s : State) : State :=
  match s.cm.take with
  | none => s
  | some rs =>
    let own := s.cmStep
    let have' := s.cmLive.all (fun d => d == s.dev || rs.any (fun r => r.1 == d))
    if s.cm.due.isSome || !s.isCoord || !(s.cmState == 4 || have') then s
    else
      let S := rs.foldl (fun m r => max m r.2.1) own
      let commit := (s.cmState == 4 && own == S) || rs.any (fun r => r.2.1 == S && r.2.2 == 4)
      let e := s.rn R.LK_EPOCH
      let s1 := (s.modCm (fun c => { c with take := none })).ev 0xA33 0xFF (leBytes 8 S ++ leBytes 8 e ++ leBytes 1 (if commit then 2 else 3))
      let applied := s1.cm.hist.contains (S, commit)
      if applied then s1.cmSendAll (if commit then 2 else 3) S
      else if commit && !(s1.cmState == 2 && own == S) then
        (s1.ev 0xA36 0xFF (leBytes 8 S ++ leBytes 1 s1.cmState ++ leBytes 2 s1.dev)).cmSendAll 2 S
      else s1.cmDecide ⟨S, commit, e, true, false, true, s.dev⟩

/-- What an epoch that takes force does to the commit: `old` was the coordinator before it (R229, R230). A module that is no longer the
coordinator takes over nothing. -/
def State.cmEpoch (s : State) (old : Option Nat) : State :=
  if !s.isCoord then s.modCm (fun c => { c with takeDue := false, take := none })
  else if s.coordinator != old then s.modCm (fun c => { c with takeDue := true, take := none })
  else s.cmEvaluate.cmConclude

/-- COMMIT_TAKEOVER (R230): the new coordinator queries every other member. -/
def commitTakeover (s : State) : State :=
  if s.cm.takeDue && s.isCoord then
    ((s.modCm (fun c => { c with takeDue := false, take := some [] })).cmSendAll 4 s.cmStep).cmConclude
  else s.modCm (fun c => { c with takeDue := false })

/-! ## The prepare request (R224, R226) -/

/-- Does a range lie wholly in local Mergo memory or the stockyard? -/
def inLocal (a n : Nat) : Bool := inMergo a n || inYard a n

/-- A range read for the gatehouse: none outside Mergo memory and the stockyard, or where a line is poisoned. -/
def State.ghRead (s : State) (a n : Nat) : Option Bytes := if inLocal a n then (if n = 0 then some [] else s.read a n) else none

/-- The group record at GH_CM_GROUP (R226): GROUP and the members, or none where item 5 refuses it. -/
def State.readGroup (s : State) : Option (Nat × List Nat) :=
  let a := s.rfld R.GH_CM_GROUP 47 0
  if a % 64 ≠ 0 then none
  else
    match s.ghRead a 64 with
    | none => none
    | some b =>
      let c := Cmd.ofBytes b
      let n := c.f 1 16 0
      if c.f 1 63 17 != 0 || c.f 2 63 48 != 0 || [3, 4, 5, 6, 7].any (fun i => c.w i != 0) || decide (n = 0) || decide (65536 < n) then none
      else
        match s.ghRead (c.f 2 47 0) (2 * n) with
        | none => none
        | some l =>
          let ds := (List.range n).map (fun i => leAt l (2 * i) 2)
          if (ds.zip (ds.drop 1)).all (fun p => decide (p.1 < p.2)) then some (c.w 0, ds) else none

/-- The identifiers that a prepare record lists, or none where item 3 refuses it. -/
def State.readIds (s : State) (c : Cmd) : Option (List Nat) :=
  let n := c.f 1 31 0
  let a := c.f 2 47 0
  if c.f 1 63 32 != 0 || c.f 2 63 48 != 0 || [3, 4, 5, 6, 7].any (fun i => c.w i != 0) || decide (4096 < n) || a % 8 != 0 then none
  else
    match s.ghRead a (8 * n) with
    | none => none
    | some l =>
      let ids := (List.range n).map (fun i => leAt l (8 * i) 8)
      if ids.all (fun d => decide (bits d 7 0 = 0) && decide (bits d 31 8 ≠ 0xFFFFFF)) then some ids else none

/-- A refusal of a prepare request changes nothing and is logged with its item (R224). -/
def State.prepRefuse (s : State) (step item : Nat) : State := s.ev 0xA35 0xFF (leBytes 8 step ++ leBytes 1 item)

/-- A write to GH_CM_PREP (R224). A takeover that awaits STATE replies goes on, and then decides the new step with the others (R230). -/
def prepareRequest (s : State) (v : Nat) : State :=
  let a := v % 2 ^ 48
  match (if a % 64 = 0 then s.ghRead a 64 else none) with
  | none => (s.draw).prepRefuse (Config.freeWord s.freeCtr).toNat (if s.undecided then 2 else 3)
  | some b =>
    let c := Cmd.ofBytes b
    let S := c.w 0
    if S ≤ s.rn R.GH_CM_DECIDED then s.prepRefuse S 1
    else if s.undecided then s.prepRefuse S 2
    else
      match s.readIds c with
      | none => s.prepRefuse S 3
      | some ids =>
        if s.rfld R.GH_CM_GROUP 47 0 = 0 then s.prepRefuse S 4
        else
          match s.readGroup with
          | none => s.prepRefuse S 5
          | some g =>
            if !s.member || !g.2.contains s.dev then s.prepRefuse S 6
            else
              let s1 := ((s.setRn R.GH_CM_STEP S).setRn R.GH_CM_STATE 1).setRn R.GH_CM_EPOCH 0
              (s1.modCm (fun k => { k with group := some g, ids := ids, verdict := none, answered := 0, restarted := false, tx := none })).cmEvaluate

/-! ## The tally exchange (R355) -/

/-- The identifier of the exchange for a step. -/
def exchangeId (S : Nat) : Nat := S % 2 ^ 32 * 2 ^ 32 + 0xFFFFFF00

/-- The index of a device in the tree. -/
def TallyX.index (t : TallyX) (d : Nat) : Nat := (t.tree.findIdx? (· == d)).getD 0
/-- The children of a device. -/
def TallyX.children (t : TallyX) (d : Nat) : List Nat :=
  (List.range 8).filterMap (fun j => t.tree[8 * t.index d + 1 + j]?)
/-- The parent of a device, unless it is the root. -/
def TallyX.parent (t : TallyX) (d : Nat) : Option Nat := if t.index d = 0 then none else t.tree[(t.index d - 1) / 8]?
/-- The flits of a vector: 24 entries each, and at least one. -/
def TallyX.flits (t : TallyX) : Nat := max 1 (cdiv t.own.length 24)
/-- Has every chunk of a child's vector come? -/
def TallyX.whole (t : TallyX) (d : Nat) : Bool :=
  match t.kids.find? (fun k => k.1 == d) with
  | some k => decide (k.2.1.length = t.flits)
  | none => false
/-- The sum of the own vector and the children's that are whole, with COUNT. -/
def TallyX.sum (t : TallyX) (d : Nat) : List Nat × Nat :=
  ((t.children d).filter t.whole).foldl (fun acc e =>
    match t.kids.find? (fun k => k.1 == e) with
    | some k =>
      let at' := fun (i : Nat) => (((k.2.1.find? (fun x => x.1 == i / 24)).map (·.2)).getD []).getD (i % 24) 0
      ((acc.1.zipIdx.map (fun p => (p.1 + at' p.2) % 2 ^ 64)), acc.2 + k.2.2)
    | none => acc) (t.own, if t.bad then 0 else 1)

/-- A verdict goes to the children and is taken (R355). -/
def State.tallyVerdict (s : State) (t : TallyX) (agree : Bool) : State :=
  let h : ChunkHdr := { fmt := 3, flags := 32 + b2n agree, stage := 4 }
  let s1 := (t.children s.dev).foldl (fun u d => u.collSend 0 d (exchangeId t.step) h []) s
  s1.modCm (fun c => { c with verdict := some agree, tx := some { t with sent := true } })

/-- A member whose vector is complete, or whose patience is over, sends it to its parent, or decides as the root (R355). -/
def State.tallySum (s : State) (t : TallyX) : State :=
  let sum := t.sum s.dev
  match t.parent s.dev with
  | some p =>
    ((List.range t.flits).foldl (fun u i =>
      let h : ChunkHdr := { fmt := 3, chunk := i, count := sum.2, stage := 4 }
      u.collSend 0 p (exchangeId t.step) h (((sum.1.drop (24 * i)).take 24).flatMap (leBytes 8))) s).modCm (fun c => { c with tx := some { t with sent := true } })
  | none =>
    let agree := decide (sum.2 = t.tree.length) && sum.1.all (· == 0)
    if agree then s.tallyVerdict t true
    else
      match sum.1.findIdx? (· != 0) with
      | some i => (s.ev 0x916 0 (leBytes 8 t.step ++ leBytes 4 i)).tallyVerdict t false
      | none => ((s.draw).ev 0x916 0 (leBytes 8 t.step ++ leBytes 4 (Config.freeWord s.freeCtr).toNat)).tallyVerdict t false

/-- An exchange flit handed to a running exchange: a verdict, or a chunk of a child's vector; after the sum has left it is late. -/
def State.tallyFlitIn (s : State) (t : TallyX) (f : Flit) : State :=
  let h := ChunkHdr.ofBytes f.payload
  let data := f.payload.drop 32
  if h.flags.testBit 5 then
    if t.parent s.dev = some f.src ∧ s.cm.verdict = none then s.tallyVerdict t (h.flags.testBit 0) else s
  else if t.sent then
    let s1 := s.collCount 0 5 1
    if t.late then s1 else (s1.ev 0x914 0 (leBytes 8 f.id)).modCm (fun c => { c with tx := some { t with late := true } })
  else if !(t.children s.dev).contains f.src then s
  else
    let old := ((t.kids.find? (fun k => k.1 == f.src)).map (·.2)).getD ([], 0)
    let piece := (h.chunk, (List.range 24).map (fun i => leAt data (8 * i) 8))
    let kid := (f.src, (old.1.filter (fun e => e.1 != h.chunk) ++ [piece], h.count))
    let t1 := { t with kids := t.kids.filter (fun k => k.1 != f.src) ++ [kid] }
    if (t1.children s.dev).all (fun d => t1.whole d && ((t1.kids.find? (fun k => k.1 == d)).map (fun k => k.2.1.all (fun e => decide (e.1 < t1.flits)))).getD false)
    then s.tallySum t1
    else s.modCm (fun c => { c with tx := some t1 })

/-- A COLL flit of a tally exchange (R340, R355): handed over while its exchange runs, held early before, dropped when full. -/
def tallyFlit (s : State) (f : Flit) : State :=
  match s.cm.tx with
  | some t => if exchangeId t.step = f.id then s.tallyFlitIn t f
      else if 512 ≤ s.early.length then s.collCount 0 6 1 else { s with early := s.early ++ [f] }
  | none => if 512 ≤ s.early.length then s.collCount 0 6 1 else { s with early := s.early ++ [f] }

/-- TALLY_EXCHANGE_START (R355): the prepare is accepted and no listed collective still runs here. -/
def tallyStart (s : State) : State :=
  if !(s.undecided && s.cmState == 1 && s.cm.tx.isNone && s.cm.ids.all (fun d => (s.collUnit d).isNone)) then s
  else
    let es := s.cm.ids.map s.tallyOf
    let own := es.map (fun e => match e with
      | some (_, t) => (t.sent + 2 ^ 64 - t.recv) % 2 ^ 64
      | none => 0)
    let bad := es.any (fun e => match e with
      | some (_, t) => t.bad
      | none => false)
    let t : TallyX := { step := s.cmStep, tree := s.cmLive, own := own, bad := bad }
    let id := exchangeId t.step
    let held := s.early.filter (fun f => f.id == id)
    let s1 := ({ s with early := s.early.filter (fun f => f.id != id) } : State).modCm (fun c => { c with tx := some t })
    let s2 := if (t.children s.dev).isEmpty then s1.tallySum t else s1
    held.foldl tallyFlit s2

/-- TPATIENCE_EXPIRY (R355): the sum leaves without the children whose vectors have not come. -/
def tallyExpiry (s : State) : State :=
  match s.cm.tx with
  | some t => if t.sent then s else s.tallySum t
  | none => s

/-! ## Votes (R224, R228, R229, R396) -/

/-- The stacks in service whose MARK of the step reported FAIL, as a mask; none while a MARK is missing. -/
def State.markMask (s : State) : Option Nat :=
  s.liveStacks.foldl (fun acc k =>
    match acc, (s.ue k).marks.reverse.find? (fun m => m.1 == s.cmStep) with
    | some m, some (_, fail) => some (m + b2n fail * 2 ^ k.val)
    | _, _ => none) (some 0)

/-- The stacks whose MARK of step S reported FAIL (R235). -/
def State.failMask (s : State) (S : Nat) : Nat :=
  (List.finRange 8).foldl (fun m k => m + b2n ((s.ue k).marks.reverse.find? (fun e => e.1 == S) == some (S, true)) * 2 ^ k.val) 0

/-- The VOTE goes to the coordinator; the coordinator's own is recorded. -/
def State.sendVote (s : State) : State :=
  match s.coordinator with
  | some d => if d = s.dev then s else s.cmSend d 1 s.cmStep s.cmState
  | none => s

/-- VOTE_SEND (R224): every MARK of the step is done and the verdict is known. -/
def voteSend (s : State) : State :=
  if !(s.cmState == 1 && s.cm.due.isNone) then s
  else
    match s.markMask, s.cm.verdict with
    | some m, some agree =>
      let cause := m * 256 + b2n (!agree) * 2
      let vote := if m = 0 ∧ agree then 2 else 3
      let s1 := (s.setRn R.GH_CM_STATE vote).modCm (fun c => { c with voteTime := s.us })
      ((s1.ev 0xA30 0xFF (leBytes 8 s.cmStep ++ leBytes 1 vote ++ leBytes 2 cause)).sendVote).cmEvaluate
    | _, _ => s

/-- VOTE_REPEAT (R396): a member that restarted with its vote out sends it again. -/
def voteRepeat (s : State) : State :=
  if s.cm.restarted && (s.cmState == 2 || s.cmState == 3) && s.cm.due.isNone then s.sendVote else s

/-- CM_VOTE (R229, R396): recorded and evaluated; a vote for a step already decided is answered with the decision. -/
def cmVote (s : State) : State := s.cmTake 1 (fun s m =>
  if !s.isCoord || s.cm.take.isSome || s.cm.takeDue then s
  else
    match s.cm.hist.find? (fun d => d.1 == m.step) with
    | some d => s.cmSend m.src (if d.2 then 2 else 3) m.step 0
    | none =>
      if m.value ≠ 2 ∧ m.value ≠ 3 then s
      else (s.modCm (fun c => { c with votes := c.votes.filter (fun v => !(v.1 == m.src && v.2.1 == m.step)) ++ [(m.src, m.step, m.value == 2)] })).cmEvaluate)

/-- PTIMEOUT_EXPIRY (R229, R396): PTIMEOUT µs have passed since the coordinator sent its own vote or restarted. -/
def ptimeoutExpiry (s : State) : State :=
  if s.isCoord && (s.cmState == 2 || s.cmState == 3) && s.cm.take.isNone && !s.cm.takeDue
      && decide (s.cm.voteTime + s.rfld R.GH_CM_CFG 15 0 ≤ s.us) then
    s.cmDecide ⟨s.cmStep, false, s.rn R.LK_EPOCH, false, true, true, s.dev⟩
  else s

/-! ## Decisions at a member (R228, R230, R231) -/

/-- GH_CM_EPOCH keeps the highest epoch answered or accepted (R235). -/
def State.cmSeen (s : State) (e : Nat) : State := s.setRn R.GH_CM_EPOCH (max (s.rn R.GH_CM_EPOCH) (e % 2 ^ 32))

/-- COMMIT_STALE (R228): is the message of an epoch below the QUERY answered for the step? -/
def State.cmStale (s : State) (m : CmMsg) : Bool := m.step == s.cmStep && decide (m.epoch < s.cm.answered)
/-- COMMIT_STALE logged. -/
def State.logStale (s : State) (m : CmMsg) : State := s.ev 0xA34 0xFF (leBytes 8 m.step ++ leBytes 4 m.epoch ++ leBytes 2 m.src)

/-- CM_COMMIT (R228). -/
def cmCommit (s : State) : State := s.cmTake 2 (fun s m =>
  if s.cmStale m then s.logStale m
  else if s.cm.hist.contains (m.step, true) then s
  else if s.cmState = 2 ∧ s.cmStep = m.step then (s.cmSeen m.epoch).cmDecide ⟨m.step, true, m.epoch, s.cm.answered != 0, false, false, m.src⟩
  else s.ev 0xA36 0xFF (leBytes 8 m.step ++ leBytes 1 s.cmState ++ leBytes 2 m.src))

/-- CM_DISCARD (R228, R230): also accepted for a step not begun here. -/
def cmDiscard (s : State) : State := s.cmTake 3 (fun s m =>
  if s.cmStale m then s.logStale m
  else if m.step ≤ s.rn R.GH_CM_DECIDED then s
  else (s.cmSeen m.epoch).cmDecide ⟨m.step, false, m.epoch, s.cmState != 3 || s.cm.answered != 0, false, false, m.src⟩)

/-- A decision of an epoch below a QUERY that this module answers for its step, received and not yet applied, is ignored with COMMIT_STALE
(R228). -/
def State.cmOutrun (s : State) (e : Nat) : State :=
  match s.cm.due with
  | none => s
  | some d =>
    if d.step = s.cmStep ∧ d.epoch < e then
      (s.modCm (fun c => { c with due := none })).logStale { group := 0, step := d.step, epoch := d.epoch, src := d.src, typ := 0 }
    else s

/-- CM_QUERY (R228, R230): answered with the current step and state. -/
def cmQuery (s : State) : State := s.cmTake 4 (fun s m =>
  (((s.cmOutrun m.epoch).cmSeen m.epoch).modCm (fun c => { c with answered := max c.answered m.epoch })).cmSend m.src 5 s.cmStep s.cmState)

/-- CM_STATE (R230). -/
def cmStateMsg (s : State) : State := s.cmTake 5 (fun s m =>
  match s.cm.take with
  | some rs => (s.modCm (fun c => { c with take := some (rs.filter (fun r => r.1 != m.src) ++ [(m.src, m.step, m.value)]) })).cmConclude
  | none => s)

/-- DECISION_APPLY (R231): one broadcast to the version tables in service, the streams and tallies of the step retired, the registers
and the event; a coordinator then sends the decision (R229). -/
def decisionApply (s : State) : State :=
  match s.cm.due with
  | none => s
  | some d =>
    let S := d.step
    let s1 := tallyRetire ((s.decideTables S d.commit).retireClaims S) (S % 2 ^ 32)
    let s2 := (List.finRange 8).foldl (fun t k => t.modUe k (fun u =>
      { u with marks := u.marks.filter (fun m => decide (S < m.1)), claims := u.claims.filter (fun c => decide (S < c.1)) })) s1
    let cause := s.failMask S * 256 + b2n (decide (s.cmStep = S) && s.cm.verdict == some false) * 2 + b2n d.timeout * 4 + b2n d.remote
    let s3 := (((s2.setRn R.GH_CM_STEP S).setRn R.GH_CM_STATE (if d.commit then 4 else 5)).setRn R.GH_CM_DECIDED S).setRn R.GH_CM_CAUSE cause
    let s4 := s3.modCm (fun c => { c with due := none, verdict := none, tx := none, votes := c.votes.filter (fun v => decide (S < v.2.1)), hist := c.hist ++ [(S, d.commit)] })
    let e := leBytes 8 S ++ leBytes 8 d.epoch
    let s5 := if d.commit then s4.ev 0xA31 0xFF e else s4.ev 0xA32 0xFF (e ++ leBytes 2 cause)
    (if d.send then s5.cmSendAll (if d.commit then 2 else 3) S else s5).cmConclude

/-- What a restart of the gatehouse does to the commit (R396). -/
def State.cmRestart (s : State) : State := s.modCm (fun c => { c with restarted := true, voteTime := s.us })

end Sys2Proof.Machine
end

