-- ==== Sys2Proof/Machine/LinkRx.lean ====
section
/-! DEFINITION. The receive side of the ports (R308 to R312), the port states (R318 to R322), the end-to-end windows (R316), and the
flits addressed to this module (R309). -/
namespace Sys2Proof.Machine

/-! ## Reception (R308, R311, R312) -/

/-- Does the port carry flits of any kind? -/
def Port.live (x : Port) : Bool := x.st == .quarantine || x.st == .admitted

/-- The replay buffer without the flits that an ACK covers. -/
def ackReplay (l : List (Nat × Wire × Nat)) (ack : Nat) : List (Nat × Wire × Nat) :=
  match l.findIdx? (fun e => e.1 == ack) with
  | some i => l.drop (i + 1)
  | none => l

/-- What the link word of every received flit does: the count, the acknowledgement, the returned credits, and what can now go. -/
def State.rxLink (s : State) (p : Fin 16) (w : Wire) : State :=
  let s1 := s.modPort p (fun x => { x with replay := if w.ackv then ackReplay x.replay w.ack else x.replay, credits := x.credits.set w.crvc (x.credits.getD w.crvc 0 + w.crn) })
  (s1.portCount p 6 1).pump p ((s1.port p).wait.length + 1)

/-- A NAK with the next LSEQ expected; what follows is discarded until the replay (R311). -/
def State.sendNak (s : State) (p : Fin 16) : State :=
  (s.modPort p (fun y => { y with discard := true })).send p { kind := 3, lseq := (s.port p).rxSeq }

/-- A flit under way whose CRC fails leaves stomped (R310): with no LSEQ and no credit. Whether its forwarding had begun is a free choice. -/
def State.stompOut (s : State) (p : Fin 16) (w : Wire) : State :=
  match w.data with
  | none => s
  | some f =>
    if f.dst = s.dev ∨ w.lseq ≠ (s.port p).rxSeq then s
    else
      match s.route { f with hops := f.hops + 1 } w.vc with
      | .port q v g =>
        let x := s.port q
        if x.canSend ⟨v, needCredits (some p) q, none, g⟩ && x.wait.isEmpty && Config.freeBool s.freeCtr then
          (s.draw.emit (.flit q { kind := 1, vc := v, lseq := x.txSeq, ack := (x.rxSeq + 4095) % 4096, ackv := x.rxAny, data := some g, stomp := true })).portCount q 5 1
        else s.draw
      | _ => s

/-- A flit whose CRC fails is counted and a NAK asks for the replay (R311); what of it was already being forwarded is stomped. -/
def State.crcBad (s : State) (p : Fin 16) (w : Wire) : State := ((s.stompOut p w).portCount p 2 1).sendNak p

/-- The reception of a flit: the decoder first, and a flit that it fails fails its CRC (R307). -/
def State.receive (s : State) (p : Fin 16) (w : Wire) (f : State → State) : State :=
  let r := s.decode p w
  if r.2 then f r.1 else r.1.crcBad p w

/-- IDLE_FLIT (R308). -/
def idleFlit (s : State) (p : Fin 16) (w : Wire) : State :=
  if (s.port p).live && w.kind == 0 then s.receive p w (fun s => s.rxLink p w) else s

/-- A port enters QUARANTINE with a cause, its grants gone. -/
def State.quarantine (s : State) (p : Fin 16) (cause : Nat) : State :=
  (s.modPort p (fun x => { x with qcause := cause, localGrant := false, remoteGrant := false })).portTo p .quarantine

/-! ## End-to-end receipt (R316) -/

/-- The E2E_ACK of a source: the PSEQ up to which all arrived, and those received above it. -/
def State.sendE2eAck (s : State) (src : Nat) : State :=
  match s.e2eRx.find? (fun r => r.src == src) with
  | none => s
  | some r =>
    let top := (r.cum + 2 ^ 32 - 1) % 2 ^ 32
    let bm := (List.range 32).map (fun i => BitVec.ofNat 8 ((List.range 8).foldl (fun a j => a + b2n (r.above.contains ((r.cum + 8 * i + j) % 2 ^ 32)) * 2 ^ j) 0))
    let s1 := { s with e2eRx := s.e2eRx.map (fun (x : E2eRx) => if x.src = src then { x with fresh := 0 } else x) }
    (s1.inject { src := s.dev, dst := src, typ := 0x21, id := 0, payload := leBytes 4 top ++ bm }).1

/-- The cumulative PSEQ moved past what has arrived. -/
def E2eRx.advance : Nat → E2eRx → E2eRx
  | 0, r => r
  | k + 1, r => if r.above.contains r.cum then E2eRx.advance k { r with cum := (r.cum + 1) % 2 ^ 32, above := r.above.filter (· != r.cum) } else r

/-- The receipt of an end-to-end flit: whether it is new, with the window moved on; after 16 receipts the acknowledgement goes. -/
def State.e2eReceive (s : State) (src pseq : Nat) : State × Bool :=
  let r := (s.e2eRx.find? (fun x => x.src == src)).getD { src := src }
  let d := (pseq + 2 ^ 32 - r.cum) % 2 ^ 32
  let new := decide (d < 256) && !r.above.contains pseq
  let r1 : E2eRx := E2eRx.advance 257 { r with above := if new then r.above ++ [pseq] else r.above, fresh := r.fresh + 1 }
  let s1 := { s with e2eRx := s.e2eRx.filter (fun x => x.src != src) ++ [r1] }
  (if 16 ≤ r1.fresh then s1.sendE2eAck src else s1, new)

/-- E2E_ACK_TIMER (R316). -/
def e2eAckTimer (s : State) (src : Nat) : State :=
  match s.e2eRx.find? (fun r => r.src == src) with
  | some r => if r.fresh = 0 then s else s.sendE2eAck src
  | none => s

/-! ## DATA_FLIT (R309 to R311, R314) -/

/-- The listed TYPEs (R309). -/
def typeKnown (t : Nat) : Bool := [1, 2, 3, 4, 5, 0x10, 0x20, 0x21].contains t

/-- Does the port carry data flits of a VC (R318)? In QUARANTINE it carries VC7, and what was sent before a REVOKE is delivered (R319). -/
def Port.takes (x : Port) (vc : Nat) : Bool := x.st == .admitted || vc == 7 || x.was

/-- A data flit accepted in order: credit check, port state, type check, then delivery or the router. -/
def State.acceptData (s : State) (p : Fin 16) (w : Wire) (f : Flit) : State :=
  let x := s.port p
  if x.room.getD w.vc 0 = 0 then ((s.routeCount 4 1).ev 0x807 p []).quarantine p 3
  else
    let s1 := s.modPort p (fun y => { y with room := y.room.set w.vc (y.room.getD w.vc 0 - 1) })
    let from? := some (p.val, w.vc)
    if !x.takes w.vc then s1.freeBuf from?
    else if !typeKnown f.typ then ((s1.routeCount 4 1).ev 0x807 p []).freeBuf from?
    else if f.dst = s1.dev ∨ (!s1.member ∧ f.typ = 0x20) then
      let s2 := s1.freeBuf from?
      if f.e2e then
        let r := s2.e2eReceive f.src f.pseq
        if r.2 then { r.1 with inbox := r.1.inbox ++ [(p.val, f)] } else r.1
      else { s2 with inbox := s2.inbox ++ [(p.val, f)] }
    else s1.relay { f with hops := f.hops + 1 } w.vc from?

/-- A data flit accepted whole, a word of which proves uncorrectable in the port's buffer (R423): a READ_RSP for this module is a poisoned response, a
flit in transit goes out stomped, and any other is discarded as one that came stomped. -/
def State.acceptSpoiled (s : State) (p : Fin 16) (w : Wire) (f : Flit) : State :=
  if f.dst = s.dev ∧ f.typ = 2 then
    s.acceptData p w { f with payload := f.payload.take 193 ++ [(f.payload.getD 193 0) ||| 1] }
  else if (s.port p).room.getD w.vc 0 = 0 then s.acceptData p w f
  else ((s.modPort p (fun y => { y with room := y.room.set w.vc (y.room.getD w.vc 0 - 1) })).freeBuf (some (p.val, w.vc))).portCount p 4 1

/-- DATA_FLIT (R310, R311, R423). -/
def dataFlit (s : State) (p : Fin 16) (w : Wire) (a : Arrival) : State :=
  if !(s.port p).live then s
  else
    s.receive p w (fun s => match a with
    | .stomped => s.portCount p 4 1
    | .crcFail => s.crcBad p w
    | _ =>
      match w.kind, w.data with
      | 1, some f =>
        let s1 := s.rxLink p w
        if w.lseq ≠ (s1.port p).rxSeq then (if (s1.port p).discard then s1 else s1.sendNak p)
        else
          let s2 := if a = .spoiled then s1.stompOut p w else s1
          let s3 := s2.modPort p (fun x => { x with rxSeq := (x.rxSeq + 1) % 4096, rxAny := true, discard := false, sinceCr := x.sinceCr + 1 })
          if a = .spoiled then s3.acceptSpoiled p w f else s3.acceptData p w f
      | _, _ => s)

/-- ESCAPE_WAIT_EXPIRY (R314): the first waiting flit of a channel goes by a course port where its own port is not ADMITTED or has had no
credit; one that waits to leave its gateway is dropped once its port is out of service (R315). -/
def escapeExpiry (s : State) (p : Fin 16) (vc : Nat) : State :=
  let x := s.port p
  match x.wait.find? (fun w => w.vc == vc) with
  | none => s
  | some w =>
    let s1 := s.modPort p (fun y => { y with wait := y.wait.erase w })
    if x.carries vc && x.credits.getD vc 0 != 0 then s
    else if isWork p then
      if x.serves vc then s else (s1.routeCount 0 1).freeBuf w.from?
    else if !s.rbit R.LK_ESC 16 then s
    else if 7 ≤ w.flit.esc then
      let s2 := (s1.unreachable w.flit).freeBuf w.from?
      if w.flit.typ = 1 ∨ w.flit.typ = 3 then (s2.inject (refuseOf s2.dev w.flit 2)).1 else s2
    else
      match s1.escapePort with
      | some e => (s1.routeCount 1 1).enqueue e { w with need := needCredits (w.from?.map (·.1)) e, flit := { w.flit with esc := w.flit.esc + 1 } }
      | none => s

/-! ## NAK and replay (R311, R329) -/

/-- A port starts to retrain (R320). -/
def State.retrain (s : State) (p : Fin 16) : State :=
  let x := s.port p
  if x.live then (s.modPort p (fun y => { y with prev := y.st })).portTo p .retrain else s

/-- The replay from an LSEQ; a flit replayed 16 times makes the port retrain. -/
def State.replayFrom (s : State) (p : Fin 16) (lseq : Nat) : State :=
  let x := s.port p
  match x.replay.findIdx? (fun e => e.1 == lseq) with
  | none => s
  | some i =>
    let again := x.replay.drop i
    let s1 := s.modPort p (fun y => { y with replay := y.replay.take i ++ again.map (fun e => (e.1, e.2.1, e.2.2 + 1)) })
    let s2 := again.foldl (fun t e => t.send p e.2.1) (s1.portCount p 3 again.length)
    if again.any (fun e => decide (16 ≤ e.2.2 + 1)) then s2.retrain p else s2

/-- NAK (R311, R329). -/
def nakFlit (s : State) (p : Fin 16) (w : Wire) : State :=
  let x := s.port p
  if w.kind ≠ 3 then s
  else if x.st = .retrain then s.modPort p (fun y => { y with nak := some w.lseq })
  else if x.live then s.receive p w (fun s => (s.rxLink p w).replayFrom p w.lseq)
  else s

/-! ## Heartbeats (R321, R322) -/

/-- HEARTBEAT_TIMER (R321). -/
def heartbeatTimer (s : State) (p : Fin 16) : State :=
  if (s.port p).live then
    s.send p { kind := 2, area := leBytes 2 (if s.member then s.dev else 0xFFFF) ++ leBytes 8 (s.rn R.LK_EPOCH) ++ leBytes 8 (s.rn R.LK_DIGEST)
      ++ leBytes 8 (s.rn R.LK_STAGED_EPOCH) ++ leBytes 8 (s.rn R.LK_STAGED_DIGEST) }
  else s

/-- Do two heartbeats match (R322)? -/
def State.hbMatch (s : State) (act stg : Nat × Nat) : Bool :=
  let own := (s.rn R.LK_EPOCH, s.rn R.LK_DIGEST)
  let ownS := (s.rn R.LK_STAGED_EPOCH, s.rn R.LK_STAGED_DIGEST)
  act == own || (act == ownS && ownS.1 != 0) || (own == stg && stg.1 != 0)

/-- Does the last heartbeat of a port not match (R322)? -/
def State.mismatch (s : State) (p : Fin 16) : Bool :=
  (s.port p).hb && !s.hbMatch (s.rn (R.LK_HB_EPOCH p), s.rn (R.LK_HB_DIGEST p)) (s.port p).staged

/-! ## Admission (R319) -/

/-- Both grants admit the port. -/
def State.tryAdmit (s : State) (p : Fin 16) : State :=
  let x := s.port p
  if x.st = .quarantine ∧ x.localGrant ∧ x.remoteGrant then
    ((s.modPort p (fun y => { y with qcause := 0, was := true })).portTo p .admitted).pump p (x.wait.length + 1)
  else s

/-- ADMIT (R319): it must carry the nonce of this end. -/
def admitFlit (s : State) (p : Fin 16) (w : Wire) : State :=
  if (s.port p).live && w.kind == 4 then
    s.receive p w (fun s =>
      let s1 := s.rxLink p w
      if leAt w.area 0 8 = (s.port p).nonce then (s1.modPort p (fun y => { y with remoteGrant := true })).tryAdmit p else s1)
  else s

/-- REVOKE (R319). -/
def revokeFlit (s : State) (p : Fin 16) (w : Wire) : State :=
  if (s.port p).live && w.kind == 5 then s.receive p w (fun s => (s.rxLink p w).quarantine p 3) else s

/-- A port sends REVOKE and enters QUARANTINE with cause 3. -/
def State.revoke (s : State) (p : Fin 16) : State := (s.send p { kind := 5 }).quarantine p 3

/-- A port sends ADMIT with the partner's nonce. -/
def State.grant (s : State) (p : Fin 16) : State :=
  ((s.send p { kind := 4, area := leBytes 8 (s.rn (R.LK_NONCE p)) }).modPort p (fun y => { y with localGrant := true })).tryAdmit p

/-- A write to LK_ADMIT (R319, R329): 0 revokes, and so does any grant while the last heartbeat does not match; the partner's nonce admits; any
other value does nothing. In RETRAIN the port carries nothing: the flit leaves as it ends, and a revoked port returns to QUARANTINE. -/
def lkAdmit (s : State) (p : Fin 16) (v : Nat) : State :=
  let x := s.port p
  let n := v % 2 ^ 64
  if n ≠ 0 ∧ n ≠ s.rn (R.LK_NONCE p) then s
  else
    let no := decide (n = 0) || s.mismatch p
    if x.live then (if no then s.revoke p else s.grant p)
    else if x.st = .retrain then
      s.modPort p (fun y => if no then { y with prev := .quarantine, qcause := 3, localGrant := false, remoteGrant := false, later := [{ kind := 5 }] }
        else { y with later := y.later ++ [{ kind := 4 }] })
    else s

/-- The flits that a port owes at the end of RETRAIN. -/
def State.sendLater (s : State) (p : Fin 16) : State :=
  let s1 := s.modPort p (fun y => { y with later := [] })
  (s.port p).later.foldl (fun t w => if w.kind = 4 then t.grant p else t.send p w) s1

/-! ## Agreement (R322) -/

/-- The quarantine for a mismatch is cleared once both ends hold the same epoch and the same full digest; the gatehouse then grants the port (R319). -/
def State.tryClear (s : State) (p : Fin 16) : State :=
  let x := s.port p
  if x.st = .quarantine ∧ x.exch = true ∧ (x.qcause = 2 ∨ x.qcause = 3) ∧ x.peerDig = some s.mb.digest ∧ s.rn (R.LK_HB_EPOCH p) = s.rn R.LK_EPOCH ∧ s.member = true
      ∧ s.mismatch p = false then
    lkAdmit ((s.modPort p (fun y => { y with qcause := 0, exch := false, peerDig := none })).ev 0x811 p []) p (s.rn (R.LK_NONCE p))
  else s

/-- This end's full digest goes to the partner on VC7. -/
def State.sendDigest (s : State) (p : Fin 16) : State := (s.modPort p (fun y => { y with exch := true })).memSendPort p (.digest s.mb.digest)

/-- HEARTBEAT_FLIT (R321, R322, R329): a mismatch quarantines an ADMITTED port, sends REVOKE and starts the exchange of full digests; in QUARANTINE
it withdraws a grant. -/
def heartbeatFlit (s : State) (p : Fin 16) (w : Wire) : State :=
  if !((s.port p).live && w.kind == 2) then s
  else s.receive p w (fun s =>
    let a := w.area
    let s1 := (((s.rxLink p w).modPort p (fun x => { x with hbDev := leAt a 0 2, staged := (leAt a 18 8, leAt a 26 8), hb := true })).setRn (R.LK_HB_EPOCH p)
      (leAt a 2 8)).setRn (R.LK_HB_DIGEST p) (leAt a 10 8)
    let x := s1.port p
    if s1.mismatch p then
      if x.st = .admitted then (((s1.send p { kind := 5 }).quarantine p 2).ev 0x810 p []).sendDigest p
      else if x.localGrant then s1.revoke p
      else s1
    else s1.tryClear p)

/-! ## Port states (R318, R320) -/

/-- The session of a port is forgotten as it goes DOWN. -/
def State.portDown (s : State) (p : Fin 16) : State :=
  ((s.portTo p .down).modPort p (fun x => { x.fresh with st := .down })).setRn (R.LK_HB_EPOCH p) 0 |>.setRn (R.LK_HB_DIGEST p) 0

/-- A write to LK_CTRL.ENABLE (R318). -/
def lkEnable (s : State) (p : Fin 16) (v : Bool) : State :=
  let s1 := s.setFld (R.LK_CTRL p) 0 0 (b2n v)
  if v && (s.port p).st == .down then s1.portTo p .train else s1

/-- The width that good lanes allow (R305, R320): codes of LK_STATUS.WIDTH. -/
def widthOf (lanes : Nat) : Nat :=
  if lanes % 16 = 15 then 3 else if lanes % 4 = 3 ∨ lanes / 4 % 4 = 3 then 2 else if lanes % 16 = 0 then 0 else 1

/-- TRAIN_COMPLETE (R318): a width is agreed and the session nonce is drawn. -/
def trainComplete (s : State) (p : Fin 16) (lanes : Nat) : State :=
  if (s.port p).st = .train ∧ widthOf lanes ≠ 0 then
    let n := (Config.freeWord s.freeCtr).toNat
    let s1 := s.draw.modPort p (fun x => { x with lanes := lanes % 16, width := widthOf lanes, nonce := n })
    (s1.portTo p .ident).emit (.ident p s.straps n)
  else s

/-- TRAIN_TIMEOUT (R318). -/
def trainTimeout (s : State) (p : Fin 16) : State := if (s.port p).st = .train then s.portTo p .down else s
/-- TRAIN_RETRY (R318). -/
def trainRetry (s : State) (p : Fin 16) : State := if (s.port p).st = .down ∧ s.rbit (R.LK_CTRL p) 0 then s.portTo p .train else s

/-- The number j of course port Cj (R306). -/
def courseIndex (p : Nat) : Nat := if p < 4 then p else p - 4

/-- Do port p of a device and port q of another satisfy the wiring rules (R313)? -/
def State.wired (s : State) (p own q dev : Nat) : Bool :=
  let tx := s.rfld R.LK_TORUS 3 0 + 1
  let ty := s.rfld R.LK_TORUS 7 4 + 1
  if isCourse p then
    isCourse q && decide (courseIndex p + courseIndex q = 6) && decide (dev / 8 = own / 8) && decide (devS dev = (devS own + courseIndex p + 1) % 8)
  else if isTerrace p then
    let sameTS := decide (devT dev = devT own) && decide (devS dev = devS own)
    if p < 6 then
      decide (1 < tx) && decide (q + p = 9) && sameTS && decide (devY dev = devY own)
        && (if p = 4 then decide (devX dev = (devX own + 1) % tx) else decide (devX own = (devX dev + 1) % tx))
    else
      decide (1 < ty) && decide (q + p = 13) && sameTS && decide (devX dev = devX own)
        && (if p = 6 then decide (devY dev = (devY own + 1) % ty) else decide (devY own = (devY dev + 1) % ty))
  else isWork q && decide (devT dev ≠ devT own)

/-- IDENT_FRAME (R318): the pair passes to QUARANTINE, or the mismatch is logged and the port stays. -/
def identFrame (s : State) (p : Fin 16) (dev port nonce : Nat) : State :=
  if (s.port p).st ≠ .ident then s
  else
    let s1 := (s.setRn (R.LK_PARTNER p) (port % 16 * 65536 + dev % 65536)).setRn (R.LK_NONCE p) nonce
    if s1.wired p s.straps (port % 16) (dev % 65536) then
      (s1.modPort p (fun x => { x with ident := true, qcause := if s.member && s.members.contains (dev % 65536) then 0 else 1 })).portTo p .quarantine
    else s1.ev 0x806 p []

/-- The lanes that fail (R320): those that lost lock, and those whose symbols corrected in 1 µs exceed LK_CFG.SER_LIMIT. -/
def State.lanesLost (s : State) (p : Fin 16) (lock : Nat) (ser : List Nat) : Nat :=
  (List.range 4).foldl (fun m i => m + b2n (lock.testBit i || decide (s.rfld (R.LK_CFG p) 15 0 < ser.getD i 0)) * 2 ^ i) 0

/-- LANE_ERROR (R320): the lanes that lost lock, and the symbols corrected on each lane in the last µs. A second loss in RETRAIN changes only the
lanes that are good. -/
def laneError (s : State) (p : Fin 16) (lock : Nat) (ser : List Nat) : State :=
  let x := s.port p
  let good := x.lanes &&& (15 - s.lanesLost p lock ser)
  if good ≠ x.lanes ∧ (x.live = true ∨ x.st = .retrain) then (s.modPort p (fun y => { y with lanes := good })).retrain p else s

/-- RETRAIN_COMPLETE (R320, R329): never wider than before, unless LK_CTRL.RETRAIN asked for the full width. -/
def retrainComplete (s : State) (p : Fin 16) (lanes : Nat) : State :=
  let x := s.port p
  let w := if x.wide then widthOf lanes else min x.width (widthOf (x.lanes &&& lanes))
  if x.st ≠ .retrain ∨ w = 0 then s
  else
    let s1 := s.modPort p (fun y => { y with width := w, lanes := if x.wide then lanes % 16 else x.lanes &&& lanes, wide := false, nak := none, replay := y.replay.map (fun e => (e.1, e.2.1, 0)) })
    let s2 := s1.portTo p x.prev
    let s3 := if w < x.width then s2.ev 0x803 p [] else s2
    let s4 := match x.nak with
      | some l => s3.replayFrom p l
      | none => s3
    (s4.sendLater p).pump p (x.wait.length + 1)

/-- RETRAIN_TIMEOUT (R318). -/
def retrainTimeout (s : State) (p : Fin 16) : State := if (s.port p).st = .retrain then s.portDown p else s

/-- LK_CTRL.RETRAIN (R320). -/
def lkRetrain (s : State) (p : Fin 16) : State :=
  if (s.port p).live then (s.modPort p (fun x => { x with wide := true })).retrain p else s

/-- LK_CTRL.CNT_CLR (R330); that of LK(0) also clears the router's counters. -/
def lkCntClr (s : State) (p : Fin 16) : State :=
  let s1 := (List.range 8).foldl (fun t i => t.setRn (R.LK_COUNT p i) 0) s
  if p = 0 then (List.range 5).foldl (fun t i => t.setRn (R.LK_RCOUNT i) 0) s1 else s1

/-! ## Flits addressed to this module (R240, R309, R317) -/

/-- The first flit of a type in the inbox, taken. -/
def State.takeFlit (s : State) (typ : Nat) (f : State → Flit → State) : State :=
  match s.inbox.find? (fun e => e.2.typ == typ) with
  | none => s
  | some e => f { s with inbox := s.inbox.erase e } e.2

/-- Does a peer request lie in the ranges that peers reach (R240), in one to three whole lines? -/
def peerRange (s : State) (a n : Nat) : Bool :=
  decide (a % 64 = 0) && decide (1 ≤ n) && decide (n ≤ 3) && (inMergo a (64 * n) || inYard a (64 * n)) && s.mapped a && s.mapped (a + 64 * n - 1)

/-- The answer to a request, on the virtual channel of replies. -/
def State.answer (s : State) (f : Flit) (typ : Nat) (payload : Bytes) : State :=
  (s.inject { src := s.dev, dst := f.src, typ := typ, id := f.id, payload := payload }).1

/-- Why a request is refused, if it is: 3 not a member, 1 range. -/
def State.peerRefusal (s : State) (f : Flit) (n : Nat) : Option Nat :=
  if !s.member then some 3 else if !peerRange s (f.id % 2 ^ 48) n then some 1 else none

/-- READ_REQ (R309): a poisoned line makes the whole response poisoned. -/
def readReq (s : State) : State := s.takeFlit 1 (fun s f =>
  let n := leAt f.payload 0 1
  match s.peerRefusal f n with
  | some r => s.answer f 5 (leBytes 1 r)
  | none =>
    match s.read (f.id % 2 ^ 48) (64 * n) with
    | some b => s.answer f 2 (padTo 192 b ++ leBytes 1 n ++ leBytes 1 0)
    | none => s.answer f 2 (padTo 192 [] ++ leBytes 1 n ++ leBytes 1 1))

/-- WRITE (R309): the lines written, then the acknowledgement. -/
def writeReq (s : State) : State := s.takeFlit 3 (fun s f =>
  let n := leAt f.payload 192 1
  match s.peerRefusal f n with
  | some r => s.answer f 5 (leBytes 1 r)
  | none => (s.write (f.id % 2 ^ 48) (f.payload.take (64 * n))).answer f 4 [])

/-- A request that ends as refused, kind 7 (R243, R258, R317). -/
def State.txnRefused (s : State) (t : Txn) : State :=
  let s1 := { s with txns := s.txns.erase t }
  match t.who with
  | .core b => s1.modCore b (fun x => { x with io := .refused })
  | .ring r => s1.modRing r (fun x => { x with refused := true })
  | .derrick d job =>
    match (s1.dk d).runs.find? (fun r => r.id == job) with
    | some r => s1.dkXlate d r 7 t.addr
    | none => s1

/-- The request that a reply answers. -/
def State.txnOf (s : State) (f : Flit) (write : Option Bool) : Option Txn :=
  s.txns.find? (fun t => t.dev == f.src && t.addr == f.id % 2 ^ 48 && (match write with | some w => t.write == w | none => true))

/-- The request that a REFUSE ends: the one to its source, or for reason 2, which a router on the way may send (R314), the oldest one with its address
(log 95). -/
def State.refused (s : State) (f : Flit) : Option Txn :=
  (s.txnOf f none).or (if leAt f.payload 0 1 = 2 then s.txns.find? (fun t => t.addr == f.id % 2 ^ 48) else none)

/-- READ_RSP (R250, R309): the lines reach the requester; poison stops a derrick and is a data error of a core. -/
def readRsp (s : State) : State := s.takeFlit 2 (fun s f =>
  match s.txnOf f (some false) with
  | none => s
  | some t =>
    let s1 := { s with txns := s.txns.erase t }
    let bad := (leAt f.payload 193 1).testBit 0
    let ls := (List.range t.lines).map (fun i => (t.dev, t.addr / 64 + i, if bad then [] else (f.payload.drop (64 * i)).take 64))
    match t.who with
    | .core b => s1.modCore b (fun x => { x with io := .done, lines := x.lines ++ ls })
    | .ring r => s1.modRing r (fun x => if bad then { x with refused := true } else { x with lines := x.lines ++ ls })
    | .derrick d job =>
      match (s1.dk d).runs.find? (fun r => r.id == job) with
      | some r => if bad then s1.dkPoison d r t.addr else s1.setRun d { r with lines := r.lines ++ ls }
      | none => s1)

/-- WRITE_ACK (R309). -/
def writeAck (s : State) : State := s.takeFlit 4 (fun s f =>
  match s.txnOf f (some true) with
  | none => s
  | some t =>
    let s1 := { s with txns := s.txns.erase t }
    match t.who with
    | .core b => s1.modCore b (fun x => { x with io := .done })
    | _ => s1)

/-- REFUSE (R309). -/
def refuseFlit (s : State) : State := s.takeFlit 5 (fun s f =>
  match s.refused f with
  | none => s
  | some t => s.txnRefused t)

/-- RSP_TIMEOUT (R317): the i-th open request. -/
def rspTimeout (s : State) (i : Nat) : State :=
  match s.txns[i]? with
  | none => s
  | some t => s.txnRefused t

/-- COLL_FLIT (R338, R355). -/
def collFlitIn (s : State) : State := s.takeFlit 0x10 (fun s f => if isExchange f.id then tallyFlit s f else collFlit s f)

/-- E2E_ACK (R316): flits that it covers are done, and held flits move up. -/
def e2eAck (s : State) : State := s.takeFlit 0x21 (fun s f =>
  let cum := leAt f.payload 0 4
  let w := s.e2eOf f.src
  let covered := fun (q : Nat) =>
    let d := (cum + 2 ^ 32 - q) % 2 ^ 32
    let u := (q + 2 ^ 32 - 1 - cum) % 2 ^ 32
    decide (d < 2 ^ 31) || (decide (u < 256) && (leAt f.payload (4 + u / 8) 1).testBit (u % 8))
  let s1 := s.setE2e { w with unacked := w.unacked.filter (fun e => !covered e.1.pseq) }
  s1.e2ePump f.src (w.hold.length + 1))

/-- E2E_TIMEOUT (R315, R316): the resend by the next alternative, the end of the flit and of those held behind it where none is left, or the failure after the last send. -/
def e2eTimeout (s : State) (dst pseq : Nat) : State :=
  let w := s.e2eOf dst
  match w.unacked.find? (fun e => e.1.pseq == pseq) with
  | none => s
  | some (f, n, a) =>
    if s.rfld R.LK_E2E 18 16 ≤ n then
      let s1 := ((s.setE2e { w with unacked := w.unacked.filter (fun e => e.1.pseq != pseq) }).routeCount 3 1).ev 0x830 0xFF []
      let s2 := match s1.txns.find? (fun t => t.dev == dst && t.addr == f.id % 2 ^ 48 && ((t.write && f.typ == 3) || (!t.write && f.typ == 1))) with
        | some t => s1.txnRefused t
        | none => s1
      s2.e2ePump dst ((s2.e2eOf dst).hold.length + 1)
    else
      let alts := s.routeAlts (devT dst)
      let g := s.viaAlt f (altAt alts (a + 1))
      if alts.isEmpty then ((s.setE2e { w with unacked := w.unacked.filter (fun e => e.1.pseq != pseq) }).noRoute f).e2ePump dst (w.hold.length + 1)
      else
        (((s.setE2e { w with unacked := w.unacked.map (fun e => if e.1.pseq = pseq then (g, n + 1, a + 1) else e) }).routeCount 2 1).place g (injectVc f) none).1

end Sys2Proof.Machine
end

