-- ==== Sys2Proof/Machine/Fence.lean ====
section
/-! DEFINITION. Fault detection and containment (R421 to R436): fences, corrected errors, and the die-to-die bridge. -/
namespace Sys2Proof.Machine

/-- The two derricks of a bench (R255). -/
def dkOf (b : Fin 24) (i : Nat) : Fin 48 := Fin.ofNat 48 (2 * b + i)

/-- The queue of a derrick discarded, with what it was running; implicit pins are released. -/
def State.dkDrop (s : State) (d : Fin 48) : State :=
  let s1 := ((s.dk d).runs).foldl (fun t r => t.dkUnpin r) s
  { s1.modDk d (fun x => { x with q := x.q.clear, runs := [] }) with
    txns := s1.txns.filter (fun t => match t.who with | .derrick e _ => e != d | _ => true) }

/-- BENCH_FENCE (R425, steps 1 to 4): what the bench holds is discarded, the partial regions and spill records of its tiles are poisoned, its
queues are emptied, and its core and gang halt. The status registers follow at FENCE_COMPLETE. Of a FENCE request and a residue fault in one core
cycle the fence carries the residue cause (R436). -/
def State.fence (s : State) (b : Fin 24) (cause : Nat) (site : Bytes) : State :=
  let x := s.bench b
  if x.out then
    (if cause = 1 ∧ x.fenceDue = some 6 ∧ x.fenceAt = s.time then s.modBench b (fun y => { y with fenceDue := some 1, fenceSite := site }) else s)
  else
    let s1 := x.tiles.foldl poisonTile s
    let s2 := s1.modBench b (fun y =>
      let y1 := { y with q := y.q.clear, mu := y.mu.clear, cr := y.cr.clear, tiles := [], inArray := [], parts := [], tables := [], shadow := [], finWait := false, drained := [], fault := none }
      { y1 with muRun := none, crRun := none, crWait := false, commitReg := false, commitCmd := false, fenceDue := some cause, fenceSite := site, fenceAt := s.time })
    let s3 := { s2 with txns := s2.txns.filter (fun t => t.who != TxnFor.core b), spall := { s2.spall with queue := s2.spall.queue.filter (fun c => c.who != Claimant.crusher b && c.who != Claimant.core b) } }
    ((s3.dkDrop (dkOf b 0)).dkDrop (dkOf b 1)).coreHalt b 6

/-- RESIDUE_MISMATCH (R422): the fence carries the tag, pass, row, column and site of the fault (R435). -/
def residueMismatch (s : State) (b : Fin 24) (tag pass row col site : Nat) : State :=
  s.fence b 1 (leBytes 1 b ++ leBytes 3 tag ++ leBytes 2 pass ++ leBytes 2 row ++ leBytes 2 col ++ leBytes 1 site)

/-- BENCH_UNCORRECTABLE (R423): a corrected word is logged at most once a second, an uncorrectable word or a parity error fences. -/
def benchError (s : State) (b : Fin 24) (structure' : Nat) (e : BenchErr) : State :=
  match e with
  | .uncorrectable => s.fence b 2 []
  | .parity => s.fence b 3 []
  | .corrected =>
    match (s.bench b).ceLast with
    | some t => if s.us < t + 1000000 then s
        else (s.ev 0x150 b (leBytes 1 b ++ leBytes 1 structure')).modBench b (fun x => { x with ceLast := some s.us })
    | none => (s.ev 0x150 b (leBytes 1 b ++ leBytes 1 structure')).modBench b (fun x => { x with ceLast := some s.us })

/-- The queues of a fenced bench show it (R425, step 5). -/
def State.fenceShown (s : State) (b : Fin 24) : State :=
  let s1 := s.modBench b (fun y => { y with fenced := true, fenceDue := none, q := y.q.halt 7, mu := y.mu.halt 3, cr := y.cr.halt 4 })
  (s1.modDk (dkOf b 0) (fun d => { d with q := d.q.halt 6 })).modDk (dkOf b 1) (fun d => { d with q := d.q.halt 6 })

/-- Does the fence of a lower bench, of the same core cycle, still wait to be logged (R436)? -/
def State.fenceBefore (s : State) (b : Fin 24) : Bool :=
  (List.finRange 24).any (fun c => decide (c < b) && (s.bench c).fenceDue.isSome && decide ((s.bench c).fenceAt = (s.bench b).fenceAt))

/-- The domain of a bench switches off after a domain fault (R400, R425). -/
def State.cutBench (s : State) (b : Fin 24) : State := (s.setFld R.PW_DOMAIN b b 0).modBench b (fun x => { x with cut := true })

/-- FENCE_COMPLETE (R425, steps 5 and 6); after cause 5 the domain switches off. Benches fenced in one core cycle are logged in ascending
order (R436). -/
def fenceComplete (s : State) (b : Fin 24) : State :=
  match (s.bench b).fenceDue with
  | none => s
  | some cause =>
    if s.fenceBefore b then s else
    let s1 := s.fenceShown b
    let s2 := if cause = 1 then s1.ev 0x140 b (s.bench b).fenceSite else s1
    let s3 := (s2.ev 0x141 b (leBytes 1 b ++ leBytes 1 cause)).raise 81
    if cause = 5 then s3.cutBench b else s3

/-! ## The bridge (R424) -/

/-- BRIDGE_FLIT (R424): `fails` of up to 16 sends failed. After 16 the flit is a dropped write, or a poisoned response to its
requester: to a derrick, a core or a ring that `who` names, and to whatever else reads the line in this core cycle where it names none (a mason unit, a
crusher, a dresser, an update engine, a collective unit, a table walk, a BAR read; R250). -/
def bridgeFlit (s : State) (dir addr fails : Nat) (write : Bool) (who : Option TxnFor) : State :=
  if s.bridge.retraining then s
  else if fails < 16 then { s with bridge := { s.bridge with replays := s.bridge.replays + fails } }
  else
    let s1 := ({ s with bridge := { s.bridge with replays := s.bridge.replays + 15, retraining := true } } : State).ev 0x421 0xFF (leBytes 1 dir ++ leBytes 8 addr)
    let s2 := s1.emit (.bridge (!write) addr)
    if write then s2
    else
      match who with
      | some (.derrick d job) =>
        match (s2.dk d).runs.find? (fun r => r.id == job) with
        | some r => s2.dkPoison d r addr
        | none => s2
      | some (.core b) => if (s2.core b).st = 2 then s2.coreFault b 4 0 addr else s2
      | some (.ring r) => s2.modRing r (fun x => { x with refused := true })
      | none => s2.spoil addr

/-- BRIDGE_RETRY (R424). -/
def bridgeRetry (s : State) : State :=
  if s.bridge.replays = 0 then s
  else { s.ev 0x420 0xFF (leBytes 4 s.bridge.replays) with bridge := { s.bridge with replays := 0 } }

/-- BRIDGE_RETRAINED (R424). -/
def bridgeRetrained (s : State) : State := { s with bridge := { s.bridge with retraining := false } }

end Sys2Proof.Machine
end

