-- ==== Sys2Proof/Machine/Sha.lean ====
section
/-! DEFINITION. SHA-384 (FIPS 180-4), the digest of configuration records, images and keys (R322, R384, R411). -/
namespace Sys2Proof.Machine
namespace Sha

/-- The first 80 primes. -/
def primes : List Nat := [
  2, 3, 5, 7, 11, 13, 17, 19, 23, 29, 31, 37, 41, 43, 47, 53, 59, 61, 67, 71,
  73, 79, 83, 89, 97, 101, 103, 107, 109, 113, 127, 131, 137, 139, 149, 151, 157, 163, 167, 173,
  179, 181, 191, 193, 197, 199, 211, 223, 227, 229, 233, 239, 241, 251, 257, 263, 269, 271, 277, 281,
  283, 293, 307, 311, 313, 317, 331, 337, 347, 349, 353, 359, 367, 373, 379, 383, 389, 397, 401, 409]

/-- The largest r below 2^67 with r^e at most x. -/
def root (e x : Nat) : Nat :=
  (List.range 67).foldl (fun r i => let c := r + 2 ^ (66 - i); if c ^ e ≤ x then c else r) 0

/-- The first 64 bits of the fractional part of the e-th root of p. -/
def rootFrac (e p : Nat) : Nat := root e (p * 2 ^ (64 * e)) % 2 ^ 64

/-- The 80 round constants: the cube roots of the first 80 primes. -/
def k : List Nat := primes.map (rootFrac 3)

/-- The initial hash value of SHA-384: the square roots of the ninth to the sixteenth prime. -/
def h0 : List Nat := ((primes.drop 8).take 8).map (rootFrac 2)

/-- Rotation of a 64-bit word right by `n`. -/
def rotr (x n : Nat) : Nat := x >>> n ||| (x % 2 ^ n) <<< (64 - n)
/-- The two functions of the message schedule. -/
def s0 (x : Nat) : Nat := rotr x 1 ^^^ rotr x 8 ^^^ x >>> 7
def s1 (x : Nat) : Nat := rotr x 19 ^^^ rotr x 61 ^^^ x >>> 6
/-- The two functions of a round. -/
def b0 (x : Nat) : Nat := rotr x 28 ^^^ rotr x 34 ^^^ rotr x 39
def b1 (x : Nat) : Nat := rotr x 14 ^^^ rotr x 18 ^^^ rotr x 41
/-- Sum modulo 2^64. -/
def add (a b : Nat) : Nat := (a + b) % 2 ^ 64

/-- The message schedule, newest word first, from the 16 words of a block in reverse. -/
def schedule : Nat → List Nat → List Nat
  | 0, w => w
  | n + 1, w => schedule n (add (add (s1 (w.getD 1 0)) (w.getD 6 0)) (add (s0 (w.getD 14 0)) (w.getD 15 0)) :: w)

/-- One round with constant and word added in `t`. -/
def round (h : List Nat) (t : Nat) : List Nat :=
  match h with
  | [a, b, c, d, e, f, g, x] =>
    let t1 := add (add x (b1 e)) (add ((e &&& f) ^^^ ((2 ^ 64 - 1 - e) &&& g)) t)
    let t2 := add (b0 a) ((a &&& b) ^^^ (a &&& c) ^^^ (b &&& c))
    [add t1 t2, a, b, c, add d t1, e, f, g]
  | l => l

/-- A big-endian word of 8 bytes. -/
def beWord (b : Bytes) : Nat := fromLe (b.take 8).reverse
/-- Big-endian bytes. -/
def beBytes (n v : Nat) : Bytes := (leBytes n v).reverse

/-- One 128-byte block. -/
def block (h : List Nat) (b : Bytes) : List Nat :=
  let w := ((List.range 16).map (fun i => beWord (b.drop (8 * i)))).reverse
  let ws := (schedule 64 w).reverse
  List.zipWith add h ((List.zipWith add ws k).foldl round h)

/-- `n` blocks. -/
def blocks : Nat → List Nat → Bytes → List Nat
  | 0, h, _ => h
  | n + 1, h, b => blocks n (block h (b.take 128)) (b.drop 128)

end Sha

/-- SHA-384 of bytes: 48 bytes. -/
def sha384 (m : Bytes) : Bytes :=
  let p := m ++ [0x80] ++ List.replicate ((239 - m.length % 128) % 128) 0 ++ Sha.beBytes 16 (8 * m.length)
  ((Sha.blocks (p.length / 128) Sha.h0 p).flatMap (Sha.beBytes 8)).take 48

end Sys2Proof.Machine
end

