-- ==== Sys2Proof/Machine/Image.lean ====
section
/-! DEFINITION. The access codes of register fields (R7), the power clamp and the thermal thresholds as writes set them (R402, R404), and the
configuration image (R411). -/
namespace Sys2Proof.Machine

/-! ## Access codes (R7) -/

/-- The value of a register after a write of the bits in `be`: RW and RWS fields take it, W1C fields clear where it is 1. -/
def RegDef.written (r : RegDef) (old be v : Nat) : Nat :=
  let m : W64 := BitVec.ofNat 64 (r.rw ||| r.rws) &&& BitVec.ofNat 64 be
  let c : W64 := BitVec.ofNat 64 r.w1c &&& BitVec.ofNat 64 be &&& BitVec.ofNat 64 v
  (((BitVec.ofNat 64 old &&& ~~~m) ||| (BitVec.ofNat 64 v &&& m)) &&& ~~~c).toNat

/-- REGISTER_WRITE (R7, R8): the fields of a register that have no row of their own take a write according to their access codes; RWS fields
take it in the stage bank, and the active-bank view ignores it (R105). -/
def State.accessWrite (s : State) (a be v : Nat) : State :=
  match regAt a with
  | none => s
  | some r => s.setRn a (r.written (s.rn a) be v)

/-! ## Clamp and thresholds (R402, R404) -/

/-- The cap of the clamp (R402): the fused ceiling, or 900 W in profile 1. -/
def State.clampCap (s : State) : Nat := if s.rfld R.PW_START 1 0 = 1 then min 900 Config.powerCeiling else Config.powerCeiling

/-- The clamp set from a source, saturated to 600 W to the cap, and a change logged. -/
def State.setClamp (s : State) (w source : Nat) : State :=
  let v := min (max w 600) s.clampCap
  if v = s.rfld R.PW_CLAMP 15 0 then s else (s.setRn R.PW_CLAMP v).ev 0xC02 0xFF (leBytes 2 v ++ leBytes 1 source)

/-- PW_CLAMP_WRITE (R402). -/
def pwClampWrite (s : State) (v : Nat) : State := s.setClamp (v % 65536) 1

/-- PW_THERM_WRITE (R404): THROTTLE saturates to TRIP − 5 °C, WARN to THROTTLE. -/
def pwThermWrite (s : State) (stack : Bool) (v : Nat) : State :=
  let a := if stack then R.PW_STACK_THERM else R.PW_THERM
  let thr := min (bits v 15 8) (s.rfld a 7 0 - 5)
  let warn := min (bits v 23 16) thr
  s.setRn a (warn * 65536 + thr * 256 + s.rfld a 7 0)

/-! ## The configuration image (R411) -/

namespace Img
def nreg (b : Bytes) : Nat := leAt b 6 2
def bodyLen (b : Bytes) : Nat := leAt b 8 4
def founder (b : Bytes) : Nat := leAt b 12 2
def solo (b : Bytes) : Bool := (leAt b 14 1).testBit 0
def skipP1 (b : Bytes) : Bool := (leAt b 14 1).testBit 1
def torus (b : Bytes) : Nat := leAt b 15 1
def clampW (b : Bytes) : Nat := leAt b 16 2
/-- The canonical configuration image. -/
def body (b : Bytes) : Bytes := b.take (bodyLen b)
/-- The entries. -/
def entries (b : Bytes) : List (Nat × Nat) := (List.range (nreg b)).map (fun i => (leAt b (128 + 16 * i) 8, leAt b (136 + 16 * i) 8))

/-- The registers that an entry may name. -/
def nameable (a : Nat) : Bool :=
  (List.range 16).any (fun p => a == R.LK_CFG p) || [R.LK_ESC, R.LK_E2E, R.LK_RSP_TIMEOUT, R.LK_MGMT, R.SY_CFG, R.GH_CM_CFG, R.PW_THERM, R.PW_STACK_THERM].contains a
    || (decide (R.LK_ROUTE 0 ≤ a) && decide (a < R.LK_ROUTE 128) && decide ((a - R.LK_ROUTE 0) % 8 = 0))
    || (List.range 4).any (fun u => a == R.CL_CFG u) || (List.range 8).any (fun k => a == R.UE_VT_CFG k || a == R.UE_SCRUB_CFG k)

/-- Are all the bytes of a range 0? -/
def zeros (b : Bytes) (i n : Nat) : Bool := ((b.drop i).take n).all (· == 0)

/-- Does the body hold what R411 asks, certificate and signature aside? -/
def sound (b : Bytes) : Bool :=
  leAt b 0 4 == 0x4D394346 && leAt b 4 2 == 1 && decide (nreg b ≤ 4096) && bodyLen b == 128 + 16 * nreg b && decide (bodyLen b ≤ b.length)
    && leAt b 14 1 / 4 == 0 && zeros b 18 14 && zeros b 80 48 && (entries b).all (fun e => nameable e.1)
end Img

/-- An entry written at stage 3 or at a SWITCH (R411). -/
def State.applyEntry (s : State) (e : Nat × Nat) : State :=
  if e.1 = R.PW_THERM then pwThermWrite s false e.2
  else if e.1 = R.PW_STACK_THERM then pwThermWrite s true e.2
  else
    match (List.finRange 8).find? (fun (k : Fin 8) => e.1 == R.UE_VT_CFG k.val) with
    | some k => vtCfgWrite s k e.2
    | none => s.accessWrite e.1 (2 ^ 64 - 1) e.2

/-- The entries of an image written in order, and TORUS copied to LK_TORUS. -/
def State.applyImage (s : State) (b : Bytes) : State :=
  (Img.entries b).foldl State.applyEntry (s.setRn R.LK_TORUS (Img.torus b))

end Sys2Proof.Machine
end

