-- ==== Sys2Proof/Machine/Member.lean ====
section
/-! DEFINITION. Membership and epochs (R322 to R329): suspicion, probes, the two phases of an epoch change, takeover by a new leader, and joining.
Messages travel as MGMT flits of class 2 that carry the operands of R325 whole; the spec does not give the bytes of their layout. -/
namespace Sys2Proof.Machine

/-- Changes the membership state. -/
def State.modMb (s : State) (f : Memb → Memb) : State := { s with mb := f s.mb }
/-- The active epoch. -/
def State.epoch (s : State) : Nat := s.rn R.LK_EPOCH
/-- Every member of the epoch in force, this module included, in ascending order. -/
def State.allMembers (s : State) : List Nat := if s.member && !s.members.contains s.dev then SSet.insert s.dev s.members else s.members
/-- The lowest-numbered member other than the given ones. -/
def State.lowestBut (s : State) (l : List Nat) : Option Nat := s.allMembers.find? (fun d => !l.contains d)
/-- The leader: the lowest-numbered member not found suspect (R323). -/
def State.leader (s : State) : Option Nat := s.lowestBut s.mb.suspects
/-- Is this module the leader? -/
def State.isLeader (s : State) : Bool := s.member && s.leader == some s.dev

/-! ## The configuration record (R322) -/

/-- The 8 KiB membership bitmap. -/
def bitmapOf (l : List Nat) : Bytes :=
  (List.range 8192).map (fun i => BitVec.ofNat 8 ((l.filter (fun d => d / 8 == i)).foldl (fun a d => a ||| 2 ^ (d % 8)) 0))

/-- The 48-byte digest of the record of an epoch. -/
def recordDigest (image : Bytes) (l : List Nat) (e : Nat) : Bytes := sha384 (image ++ bitmapOf l ++ leBytes 8 e)

/-- The members after a change. -/
def changed (l add rem : List Nat) : List Nat := add.foldl (fun m d => SSet.insert d m) (l.filter (fun d => !rem.contains d))

/-- The members of a staged epoch, as this module knows them. -/
def State.stagedMembers (s : State) (m : StageMsg) : List Nat :=
  match m.full with
  | some l => if s.member then changed s.allMembers m.added m.removed else l
  | none => changed s.allMembers m.added m.removed

/-- Does a staged epoch put the image of CONFIG_STAGE in force: is its record built with that image (R323, R411)? -/
def State.takes (s : State) (m : StageMsg) : Bool :=
  match s.mb.newImage with
  | some i => recordDigest i (s.stagedMembers m) m.epoch == m.digest
  | none => false

/-- The image of a staged epoch. -/
def State.stagedImage (s : State) (m : StageMsg) : Bytes := if s.takes m then s.mb.newImage.getD [] else s.mb.image

/-! ## The broadcast tree (R323) -/

/-- The first module on the way from a device to another of its terrace (R314). -/
def State.nextHop (s : State) (o d : Nat) : Nat :=
  let tx := s.rfld R.LK_TORUS 3 0 + 1
  let ty := s.rfld R.LK_TORUS 7 4 + 1
  if d / 8 = o / 8 then d
  else
    let dx := (devX d + tx - devX o % tx) % tx
    if dx ≠ 0 then putBits o 6 3 (if dx ≤ tx - dx then (devX o + 1) % tx else (devX o + tx - 1) % tx)
    else
      let dy := (devY d + ty - devY o % ty) % ty
      putBits o 10 7 (if dy ≤ ty - dy then (devY o + 1) % ty else (devY o + ty - 1) % ty)

/-- The gateway of the own terrace toward the leader's: GW_DEV and GW_PORT of the lowest VALID alternative (R315). -/
def State.gateway (s : State) (t : Nat) : Option (Nat × Nat) :=
  match s.routeAlts t with
  | a :: _ => let r := s.rn (R.LK_ROUTE (4 * t + a)); some (bits r 15 0, bits r 18 16)
  | [] => none

/-- The device across a working port. -/
def State.across (s : State) (g : Nat) : Nat := s.rfld (R.LK_PARTNER (workPort g)) 15 0

/-- The parent of a device in the tree of a leader or gateway g of its terrace, among the modules `l` (R314, R323): the first on its way to g, or,
where that one is absent, the course sibling to which the flit escapes; g itself where no module of the course has a way on (log 95). -/
def State.parentOf (s : State) (g : Nat) (l : List Nat) (d : Nat) : Nat :=
  let there := fun (m : Nat) => m == g || l.contains m
  let sibs := (List.range 7).map (fun k => d / 8 * 8 + (d % 8 + k + 1) % 8)
  if there (s.nextHop d g) then s.nextHop d g
  else if sibs.any (fun m => l.contains m && there (s.nextHop m g)) then (sibs.find? l.contains).getD g
  else g

/-- The children of this module in the tree of a leader: the members whose parent it is, in its terrace or across a working port. -/
def State.childrenOf (s : State) (lead : Nat) (l : List Nat) : List Nat :=
  let o := s.straps
  let mine := l.filter (fun d => d != o && d != lead && devT d == devT o)
  let toward := if devT lead = devT o then some lead else (s.gateway (devT lead)).map (·.1)
  let inTerrace := match toward with
    | some g => mine.filter (fun d => d != g && s.parentOf g l d == o)
    | none => []
  let beyond := if devT lead = devT o then (List.range 5).filterMap (fun i =>
      let d := s.across i
      if (s.port (workPort i)).carries 7 ∧ devT d ≠ devT o ∧ l.contains d then some d else none) else []
  inTerrace ++ beyond.filter (fun d => !inTerrace.contains d)

/-- The leader whose tree a STAGE comes down: that of the epoch in force, or for a joining module the lowest of the members that it is told of. -/
def State.treeLead (s : State) (m : StageMsg) (src : Nat) : Nat :=
  (if s.member then s.leader else (s.stagedMembers m).find? (fun d => !m.added.contains d)).getD src

/-- The modules that a change reaches from its leader: its children, and the members that leave of themselves, which stage and switch too (R323). -/
def State.leadKids (s : State) (m : StageMsg) : List Nat :=
  let kids := s.childrenOf s.straps (s.stagedMembers m)
  kids ++ s.mb.leavers.filter (fun d => d != s.straps && m.removed.contains d && !kids.contains d)

/-- The modules that a change reaches from a member to which it came from `src`. -/
def State.treeKids (s : State) (m : StageMsg) (src : Nat) : List Nat := (s.childrenOf (s.treeLead m src) (s.stagedMembers m)).filter (· != src)

/-- A message to several devices. -/
def State.memSendAll (s : State) (l : List Nat) (m : MemMsg) : State := l.foldl (fun t d => t.memSend d m) s

/-! ## An epoch takes force (R316, R323, R327) -/

/-- A mailbox request that waited for a change gets its response (R376). -/
def State.release (s : State) (kind status : Nat) (res : Bytes) : State :=
  { s with gate := { s.gate with boxes := s.gate.boxes.map (fun (b : Mailbox) => if b.held = kind then { b with held := 0, result := some (status, res) } else b) } }

/-- Is copy 1 of the boot record the one in force: the higher WSEQ among those whose CRC holds (R410)? -/
def State.bootPick (s : State) : Bool :=
  let a := s.gate.boots[0]
  let b := s.gate.boots[1]
  b.holds && (!a.holds || decide (a.wseq < b.wseq))
/-- The boot record in force; with no copy whose CRC holds, the one of a new module (log 103). -/
def State.boot (s : State) : BootRec :=
  let c := if s.bootPick then s.gate.boots[1] else s.gate.boots[0]
  if c.holds then c.record else {}
/-- Writes the boot record (R410): to the copy that is not in force, with the next 32-bit WSEQ and its CRC. -/
def State.setBoot (s : State) (r : BootRec) : State :=
  let w := ((if s.bootPick then s.gate.boots[1] else s.gate.boots[0]).wseq + 1) % 2 ^ 32
  let c : BootCopy := { wseq := w, record := r, crc := r.crc w }
  { s with gate := { s.gate with boots := if s.bootPick then s.gate.boots.set 0 c else s.gate.boots.set 1 c } }

/-- The configuration slot that is not in force becomes the CFG slot (R411). -/
def State.nextCfg (s : State) : State :=
  let t := s.setBoot { s.boot with cfg := 1 - s.gate.cfgIn }
  { t with gate := { t.gate with cfgIn := 1 - t.gate.cfgIn } }

/-- A slot of a boot record. -/
def slotFin (n : Nat) : Fin 2 := Fin.ofNat 2 n

/-- A configuration image that authenticated is written into the slot that is not in force, and its body waits for the change (R411). -/
def State.storeImage (s : State) (d : Bytes) : State :=
  let t : State := { s with gate := { s.gate with cfgs := s.gate.cfgs.set (slotFin (1 - s.gate.cfgIn)) d } }
  t.modMb (fun b => { b with newImage := some (Img.body d), nextImage := none })

/-- The change to a staged epoch: the pair becomes active, ports to modules outside it are quarantined, numbers are taken or dropped, the image of
CONFIG_STAGE enters force, windows of admitted modules restart, and commit and mailboxes follow. -/
def State.switchTo (s : State) (m : StageMsg) : State :=
  let old := s.coordinator
  let was := s.member
  let l := s.stagedMembers m
  let inNew := l.contains s.straps
  let s1 := ((((s.setRn R.LK_EPOCH m.epoch).setRn R.LK_DIGEST (leAt m.digest 0 8)).setRn R.LK_STAGED_EPOCH 0).setRn R.LK_STAGED_DIGEST 0).setRn R.LK_DEV
    (if inNew then 65536 + s.straps else 0)
  let s2 := { s1 with members := if inNew then l else [] }
  let fresh := fun (d : Nat) => m.added.contains d || (!was && l.contains d)
  let s3 := { s2 with e2eTx := s2.e2eTx.filter (fun w => !fresh w.dst), e2eRx := s2.e2eRx.filter (fun w => !fresh w.src) }
  let s4 := (List.finRange 16).foldl (fun t p =>
    let x := t.port p
    if l.contains (t.rfld (R.LK_PARTNER p) 15 0) then t
    else if x.st = .admitted then t.quarantine p 1
    else if x.st = .retrain ∧ x.prev = .admitted then
      t.modPort p (fun y => { y with prev := .quarantine, qcause := 1, localGrant := false, remoteGrant := false })
    else t) s3
  let takes := s.takes m
  let s5 := if takes then (s4.applyImage (s.stagedImage m)).nextCfg else s4
  let s6 := s5.modMb (fun b => { b with
    image := s.stagedImage m, newImage := if takes then none else b.newImage, digest := m.digest, staged := none, lastStage := some m, leading := false, await := [], replyTo := none, suspects := [], query := none, leavers := [],
    joining := b.joining && !inNew, joins := b.joins.filter (fun d => !m.added.contains d) })
  let s7 := m.added.foldl (fun t _ => t.ev 0x822 0xFF []) (s6.ev 0x824 0xFF [])
  let s8 := m.removed.foldl (fun t _ => t.ev 0x823 0xFF []) s7
  let s9 := if takes then s8.release 1 0 [] else s8
  let s10 := if was && !inNew then s9.release 2 0 [] else s9
  let s11 := if !was && inNew then s10.release 3 0 [] else s10
  let s12 := (List.finRange 16).foldl (fun t p => if (t.port p).exch then (t.sendDigest p).tryClear p else t) s11
  s12.cmEpoch old

/-- The staged pair of this module is cleared (R323, R376). -/
def State.clearStaged (s : State) : State :=
  let s1 := ((s.setRn R.LK_STAGED_EPOCH 0).setRn R.LK_STAGED_DIGEST 0).modMb (fun b => { b with staged := none, leading := false, await := [], replyTo := none })
  if s.mb.staged.any s.takes then (s1.modMb (fun b => { b with newImage := none })).release 1 6 [] else s1

/-- The leader switches and sends SWITCH down the tree. -/
def State.leadSwitch (s : State) (m : StageMsg) : State :=
  (s.switchTo m).memSendAll (s.leadKids m) (.switch m.epoch)

/-- A staged change with a new image: the image goes down the tree before STAGE, so that every member builds the record with it (R323, R376; the spec
names no message for it, log 53). -/
def State.shareImage (s : State) (kids : List Nat) : State :=
  if s.mb.newImage.isSome then kids.foldl (fun t d => t.memSendParts d .config (s.gate.cfgs[slotFin (1 - s.gate.cfgIn)])) s else s

/-- The leader stages E + 1 with the changes gathered (R323); with no other member it switches at once. TIMEOUT is the leader's choice, a free value. -/
def State.stageNext (s0 : State) : State :=
  let s := match s0.mb.nextImage with
    | some d => s0.storeImage d
    | none => s0
  let e := s.epoch + 1
  let add := s.mb.nextAdd
  let rem := s.mb.nextRem.filter (fun d => s.allMembers.contains d)
  let l := changed s.allMembers add rem
  let dg := recordDigest (s.mb.newImage.getD s.mb.image) l e
  let m : StageMsg := { epoch := e, digest := dg, timeout := (Config.freeWord s.freeCtr).toNat, added := add, removed := rem, full := if add.isEmpty then none else some l }
  let kids := s.leadKids m
  let s1 := (((s.shareImage kids).draw).setRn R.LK_STAGED_EPOCH e).setRn R.LK_STAGED_DIGEST (leAt dg 0 8)
  let s2 := s1.modMb (fun b => { b with staged := some m, leading := true, await := kids, replyTo := none, nextAdd := [], nextRem := [] })
  if kids.isEmpty then s2.leadSwitch m else s2.memSendAll kids (.stage m)

/-- The leader starts the next change if none is pending (R323, R324). -/
def State.stageIfFree (s : State) : State := if s.isLeader && s.mb.staged.isNone && s.mb.query.isNone then s.stageNext else s

/-! ## Suspicion and probes (R324) -/

/-- Is a device a member, or is a STAGE that makes it one pending? -/
def State.joined (s : State) (d : Nat) : Bool := s.allMembers.contains d || s.mb.staged.any (fun m => m.added.contains d)

/-- A member receives SUSPECT(D): it probes D unless a probe of D is out, and a join of D that is pending is dropped (R329). -/
def suspectMsg (s : State) (d : Nat) : State :=
  let s1 := s.modMb (fun b => { b with joins := b.joins.filter (· != d), nextAdd := b.nextAdd.filter (· != d) })
  if !(s.member && s.joined d && d != s.dev) || s.mb.probes.any (fun e => e.1 == d) then s1
  else
    let n := (Config.freeWord s.freeCtr).toNat
    (s1.draw.modMb (fun b => { b with probes := b.probes ++ [(d, n)] })).memSend d (.probe n)

/-- PARTNER_LOST (R321, R324): the port goes DOWN and the lowest other member hears of it. -/
def partnerLost (s : State) (p : Fin 16) : State :=
  if !(s.port p).live then s
  else
    let d := s.rfld (R.LK_PARTNER p) 15 0
    let s1 := (s.ev 0x805 p []).portDown p
    if !s1.member then s1
    else
      match s1.lowestBut [d] with
      | some o => if o = s1.dev then suspectMsg s1 d else s1.memSend o (.suspect d)
      | none => s1

/-- PROBE (R324). -/
def probeMsg (s : State) (src nonce : Nat) : State := s.memSend src (.probeAck nonce)

/-- PROBE_ACK (R324): only the link is affected. -/
def probeAckMsg (s : State) (src nonce : Nat) : State := s.modMb (fun b => { b with probes := b.probes.filter (· != (src, nonce)) })

/-- The STAGE content of an epoch that a member reports as in force above this module's own (R326): from that STATE, or as this module staged it. -/
def State.switchedStage (s : State) (l : List (Nat × Nat × Bool × Option StageMsg)) : Option StageMsg :=
  l.findSome? (fun r => (r.2.2.2.toList ++ s.mb.staged.toList).find? (fun m => m.epoch == r.2.1))

/-- A takeover ends once every STATE is there: a switch or an ABORT of what the old leader left, then the own change (R326). A member that has only
staged the epoch that is in force here switches to it: if any member has switched, every surviving member does. It waits on where a reported switch
comes without its STAGE content. -/
def State.leadConclude (s : State) : State :=
  match s.mb.query with
  | none => s
  | some rs =>
    if !(s.allMembers.all (fun d => d == s.dev || s.mb.suspects.contains d || rs.any (fun r => r.1 == d))) then s
    else
      let rem := s.mb.suspects
      let rest := s.allMembers.filter (fun d => d != s.dev && !rem.contains d)
      let s0 := s.modMb (fun b => { b with query := none, nextRem := b.nextRem ++ rem.filter (fun d => !b.nextRem.contains d) })
      let ahead := rs.filter (fun r => decide (s.epoch < r.2.1))
      if ahead.isEmpty then
        let s1 := if rs.any (fun r => decide (r.2.1 < s.epoch)) then s0.memSendAll rest (.switch s.epoch) else s0
        let s2 := if rs.any (fun r => r.2.2.1 && decide (r.2.1 = s.epoch)) || s.mb.staged.isSome then (s1.clearStaged).memSendAll rest (.abort (s.epoch + 1)) else s1
        (s2.ev 0x825 0xFF []).stageNext
      else
        match s.switchedStage ahead with
        | some m => (((s0.switchTo m).memSendAll rest (.switch m.epoch)).ev 0x825 0xFF []).stageNext
        | none => s

/-- PROBE_TIMEOUT (R324, R326) of the oldest probe: the epoch without D is staged, or this module takes over as leader. -/
def probeTimeout (s : State) : State :=
  match s.mb.probes with
  | [] => s
  | (d, _) :: rest =>
    let s1 := s.modMb (fun b => { b with probes := rest })
    if !s1.joined d then s1
    else if s1.leader = some d then
      let s2 := s1.modMb (fun b => { b with suspects := b.suspects ++ [d] })
      if s2.isLeader then
        let others := s2.allMembers.filter (fun x => x != s2.dev && !s2.mb.suspects.contains x)
        ((s2.modMb (fun b => { b with query := some [] })).memSendAll others
          (.query (s2.epoch, s2.rn R.LK_DIGEST) (s2.rn R.LK_STAGED_EPOCH, s2.rn R.LK_STAGED_DIGEST))).leadConclude
      else s2
    else (s1.modMb (fun b => { b with nextRem := b.nextRem ++ (if b.nextRem.contains d then [] else [d]) })).stageIfFree

/-! ## The two phases (R323) -/

/-- STAGE (R323): the record is built and its digest compared; the reply waits for the children's. -/
def stageMsg (s : State) (src : Nat) (m : StageMsg) : State :=
  let l := s.stagedMembers m
  if !(s.member || s.mb.joining) || m.epoch != (if s.member then s.epoch + 1 else m.epoch) || recordDigest (s.stagedImage m) l m.epoch != m.digest then
    s.memSend src (.notStaged m.epoch)
  else
    let kids := s.treeKids m src
    let s1 := ((s.setRn R.LK_STAGED_EPOCH m.epoch).setRn R.LK_STAGED_DIGEST (leAt m.digest 0 8)).modMb (fun b =>
      { b with staged := some m, leading := false, await := kids, replyTo := some src })
    if kids.isEmpty then s1.memSend src (.staged m.epoch) else s1.memSendAll kids (.stage m)

/-- Changes gathered while this one was pending go into the next epoch (R324). -/
def State.stageRest (s : State) : State := if s.mb.nextImage.isNone && s.mb.nextAdd.isEmpty && !s.mb.nextRem.any s.allMembers.contains then s else s.stageIfFree

/-- STAGED (R323). -/
def stagedMsg (s : State) (src e : Nat) : State :=
  match s.mb.staged with
  | none => s
  | some m =>
    if m.epoch ≠ e ∨ !s.mb.await.contains src then s
    else
      let s1 := s.modMb (fun b => { b with await := b.await.filter (· != src) })
      if !s1.mb.await.isEmpty then s1
      else if s1.mb.leading then (s1.leadSwitch m).stageRest
      else
        match s1.mb.replyTo with
        | some p => s1.memSend p (.staged e)
        | none => s1

/-- The leader aborts the staged epoch (R323); what was gathered meanwhile goes into the next one (R324). -/
def State.leadAbort (s : State) (m : StageMsg) : State :=
  ((s.clearStaged).memSendAll (s.leadKids m) (.abort m.epoch)).stageRest

/-- NOT_STAGED (R323): the leader sends ABORT; any other member passes it to its parent. -/
def notStagedMsg (s : State) (e : Nat) : State :=
  match s.mb.staged with
  | none => s
  | some m =>
    if m.epoch ≠ e then s
    else if s.mb.leading then s.leadAbort m
    else
      match s.mb.replyTo with
      | some p => s.memSend p (.notStaged e)
      | none => s

/-- STAGE_TIMEOUT (R323). -/
def stageTimeout (s : State) : State :=
  match s.mb.staged with
  | some m => if s.mb.leading then s.leadAbort m else s
  | none => s

/-- SWITCH (R323): the staged pair takes force, and SWITCH goes on down the tree. -/
def switchMsg (s : State) (src e : Nat) : State :=
  match s.mb.staged with
  | none => s
  | some m =>
    if m.epoch ≠ e ∨ s.mb.leading then s
    else
      (s.switchTo m).memSendAll (s.treeKids m src) (.switch e)

/-- ABORT (R323). -/
def abortMsg (s : State) (src e : Nat) : State :=
  match s.mb.staged with
  | none => s
  | some m =>
    if m.epoch ≠ e then s
    else (s.clearStaged).memSendAll (s.treeKids m src) (.abort e)

/-! ## Takeover by a new leader (R326) -/

/-- MEMBER_QUERY (R326): the reply holds the staged STAGE content, or that of the epoch in force. The sender leads: the members below it are
suspect. -/
def memberQuery (s : State) (src : Nat) : State :=
  (s.modMb (fun b => { b with suspects := s.allMembers.filter (fun d => decide (d < src) && d != s.dev) })).memSend src (.state (s.epoch, s.rn R.LK_DIGEST) (s.rn R.LK_STAGED_EPOCH, s.rn R.LK_STAGED_DIGEST)
    (match s.mb.staged with | some m => some m | none => s.mb.lastStage))

/-- MEMBER_STATE (R326): the sender's active epoch, whether it has staged, and its STAGE content. -/
def memberState (s : State) (src active : Nat) (staged : Bool) (m : Option StageMsg) : State :=
  match s.mb.query with
  | none => s
  | some rs => (s.modMb (fun b => { b with query := some (rs.filter (fun r => r.1 != src) ++ [(src, active, staged, m)]) })).leadConclude

/-! ## Joining (R327) -/

/-- A free run of bytes. -/
def freeBytes (k n : Nat) : Bytes := (List.range n).map (fun i => Config.freeByte (k + i))

/-- The stored certificate chain (R390). -/
def State.certChain (s : State) : Bytes := (s.gate.owner.getD []) ++ s.gate.chain

/-- The partner's number of a port, from IDENT (R330). -/
def State.partner (s : State) (p : Fin 16) : Nat := s.rfld (R.LK_PARTNER p) 15 0

/-- JOIN by a port (R327): the member answers CHALLENGE with 48 random bytes; the leader batches a join that a member forwards. -/
def joinMsg (s : State) (p : Option (Fin 16)) (dev : Nat) (chain : Bytes) : State :=
  match p with
  | some p =>
    if !(s.member && (s.port p).live) then s
    else
      let c := freeBytes s.freeCtr 48
      (({ s with freeCtr := s.freeCtr + 48 } : State).modMb (fun b => { b with chal := b.chal.filter (fun e => e.1 != p.val) ++ [(p.val, c, chain)] })).memSendPort
        p (.challenge c)
  | none => if s.isLeader && !s.mb.joins.contains dev then s.modMb (fun b => { b with joins := b.joins ++ [dev] }) else s

/-- JOIN_BATCH_EXPIRY (R327). -/
def joinBatch (s : State) : State :=
  if !s.isLeader || s.mb.joins.isEmpty then s
  else (s.modMb (fun b => { b with nextAdd := b.nextAdd ++ b.joins.filter (fun d => !b.nextAdd.contains d), joins := [] })).stageIfFree

/-- A module that joins sends JOIN with its certificate chain by a port in QUARANTINE (R327); none in RETURN (R392). -/
def State.sendJoin (s : State) : State :=
  if s.rfld R.FZ_LIFECYCLE 1 0 = 2 then s
  else
  match (List.finRange 16).find? (fun p => (s.port p).st == .quarantine) with
  | some p => s.memSendPort p (.join none s.certChain)
  | none => s

/-- What a RESPONSE signs (R327): the SHA-384 of the challenge, the strapped number of the joining module, the member's number and the digest of
the joining module's image. -/
def joinDigest (challenge : Bytes) (j p : Nat) (image : Bytes) : Bytes := sha384 (challenge ++ leBytes 2 j ++ leBytes 2 p ++ sha384 image)

/-- CHALLENGE (R327): the joining module signs it, in the 96 bytes of RESPONSE (R325). -/
def challengeMsg (s : State) (p : Fin 16) (c : Bytes) : State :=
  if s.mb.joining && !s.member && s.rfld R.FZ_LIFECYCLE 1 0 == 1 then
    s.memSendPort p (.response ((padTo 96 (Config.identitySign (joinDigest c s.straps (s.partner p) s.mb.image))).take 96))
  else s

/-- Why a RESPONSE fails (R327), 0 where every check passes: the chain against the admission root's hash in the image (R411), the signature over
this module's own image digest, which holds only if both images agree, the number, the wiring. -/
def State.joinFault (s : State) (p : Fin 16) (c chain sig : Bytes) : Nat :=
  let dev := s.partner p
  if !Config.chainEnds ((s.mb.image.drop 32).take 48) chain then 1
  else if !Config.signatureValid chain (joinDigest c dev s.dev s.mb.image) sig then 2
  else if s.allMembers.contains dev then 4
  else if !((s.port p).live && (s.port p).ident) then 5
  else 0

/-- MEMBER_RESPONSE (R327): the checks in order, then the JOIN goes to the leader. -/
def memberResponse (s : State) (p : Fin 16) (sig : Bytes) : State :=
  match s.mb.chal.find? (fun e => e.1 == p.val) with
  | none => s
  | some (_, c, chain) =>
    if !s.member then s
    else
      let s1 := s.modMb (fun b => { b with chal := b.chal.filter (fun e => e.1 != p.val) })
      let dev := s.partner p
      let reason := s.joinFault p c chain sig
      if reason ≠ 0 then (s1.ev 0x820 p (leBytes 1 reason)).memSendPort p (.refused reason)
      else
        match s1.leader with
        | some o => if o = s1.dev then joinMsg s1 none dev chain else s1.memSend o (.join (some dev) chain)
        | none => s1

/-- JOIN_RETRY (R327). -/
def joinRetry (s : State) : State := if s.mb.joining && !s.member then s.sendJoin else s

/-- MEMBER_DIGEST (R322): the partner's full digest; this end answers with its own once, and the quarantine ends where they agree. -/
def memberDigest (s : State) (p : Fin 16) (d : Bytes) : State :=
  let x := s.port p
  if x.st ≠ .quarantine then s
  else
    let s1 := s.modPort p (fun y => { y with peerDig := some d })
    (if x.exch then s1 else s1.sendDigest p).tryClear p

/-- The slot that runs. -/
def State.runSlot (s : State) : Nat := s.rfld R.GH_STATUS 8 8
/-- The image that runs. -/
def State.runImage (s : State) : Bytes := (s.gate.slots[slotFin s.runSlot]).image

/-- RUNNING_IMAGE_REQUEST (R386): a member serves its running image to a member that asks. -/
def runningImage (s : State) (src : Nat) : State :=
  if s.allMembers.contains src then s.memSendParts src .image s.runImage else s

/-- A part of a peer's image (R386), in order, up to the size of a slot (R409). -/
def imagePart (s : State) (src total off : Nat) (data : Bytes) : State :=
  match s.gate.peer with
  | some x =>
    if x.src = src ∧ off = x.data.length ∧ total ≤ 1536 * 1024 ∧ x.total.all (· == total) then
      { s with gate := { s.gate with peer := some { x with total := some total, data := x.data ++ data } } }
    else s
  | none => s

/-- A member asks the leader for an epoch without it (R376). -/
def askLeave (s : State) (src : Nat) : State :=
  if !(s.isLeader && s.allMembers.contains src) then s
  else (s.modMb (fun b => { b with nextRem := if b.nextRem.contains src then b.nextRem else b.nextRem ++ [src], leavers := SSet.insert src b.leavers })).stageIfFree

/-- A part of a configuration image joins what came before it from the same module; what is whole then, and what is still on its way. -/
def joinParts (l : List Incoming) (src total off : Nat) (ask : Bool) (data : Bytes) : Option Bytes × List Incoming :=
  let mine := fun (x : Incoming) => x.src == src && x.ask == ask
  let x : Incoming :=
    match l.find? mine with
    | some x => if off = 0 ∨ off ≠ x.data.length ∨ total ≠ x.total then { src, ask, total, data := if off = 0 then data else [] } else { x with data := x.data ++ data }
    | none => { src, ask, total, data := if off = 0 then data else [] }
  if total ≤ x.data.length then (some x.data, l.filter (fun y => !mine y)) else (none, l.filter (fun y => !mine y) ++ [x])

/-- Does a configuration image that came whole authenticate (R411)? -/
def State.authentic (s : State) (d : Bytes) : Bool := Img.sound d && Config.authentic s.certChain d

/-- A member asks the leader for the change to a configuration that it has authenticated (R376): the image joins the next change, or is refused. -/
def askConfig (s : State) (src total off : Nat) (data : Bytes) : State :=
  if !(s.isLeader && s.allMembers.contains src) || decide (2 ^ 20 < total) then s
  else
    let r := joinParts s.mb.inImage src total off true data
    let s1 := s.modMb (fun b => { b with inImage := r.2 })
    match r.1 with
    | none => s1
    | some d =>
      if s1.authentic d && s1.mb.nextImage.isNone && s1.mb.newImage.isNone then (s1.modMb (fun b => { b with nextImage := some d })).stageIfFree
      else s1.memSend src (.refused 6)

/-- A configuration image on its way down the tree (R323, R376): it goes on to this module's children, and once whole and authentic it is stored. -/
def configPart (s : State) (src total off : Nat) (data : Bytes) : State :=
  if !(s.member || s.mb.joining) || decide (2 ^ 20 < total) then s
  else
    let kids := (s.childrenOf (s.leader.getD src) s.allMembers).filter (· != src)
    let r := joinParts s.mb.inImage src total off false data
    let s1 := (s.memSendAll kids (.config total off data)).modMb (fun b => { b with inImage := r.2 })
    match r.1 with
    | none => s1
    | some d => if s1.authentic d then s1.storeImage d else s1

/-- A refusal comes back (R376): REJOIN ends with status 6 and the reason, CONFIG_STAGE with status 6. -/
def refusedMsg (s : State) (reason : Nat) : State :=
  if s.member then (s.modMb (fun b => { b with newImage := none })).release 1 6 [] else s.release 3 6 (leBytes 1 reason)

/-! ## MGMT (R227, R309, R325) -/

/-- What a received membership message does, by its opcode (R325); `p` is the port that its flit came in by, whose partner sends
where no number is given (R321). -/
def memberIn (s : State) (p : Fin 16) (from' : Nat) (m : MemMsg) : State :=
  let src := if from' = 0xFFFF then s.partner p else from'
  match m with
  | .suspect d => suspectMsg s d
  | .probe n => probeMsg s src n
  | .probeAck n => probeAckMsg s src n
  | .stage m => stageMsg s src m
  | .staged e => stagedMsg s src e
  | .notStaged e => notStagedMsg s e
  | .switch e => switchMsg s src e
  | .abort e => abortMsg s src e
  | .query _ _ => memberQuery s src
  | .state a g m => memberState s src a.1 (g.1 != 0) m
  | .join none chain => joinMsg s (some p) 0 chain
  | .join (some d) chain => joinMsg s none d chain
  | .challenge c => challengeMsg s p c
  | .response sig => memberResponse s p sig
  | .digest d => memberDigest s p d
  | .image total off data => imagePart s src total off data
  | .imageAsk => runningImage s src
  | .askLeave => askLeave s src
  | .askConfig total off data => askConfig s src total off data
  | .config total off data => configPart s src total off data
  | .refused reason => refusedMsg s reason

/-- MGMT (R227, R309): a commit message waits for the commit rows; a membership message acts. -/
def mgmtFlit (s : State) : State :=
  match s.inbox.find? (fun e => e.2.typ == 0x20) with
  | none => s
  | some (k, f) =>
    let s1 : State := { s with inbox := s.inbox.erase (k, f) }
    match f.mem with
    | some (_, m) => memberIn s1 (Fin.ofNat 16 k) f.src m
    | none => if leAt f.payload 0 2 = 1 then { s1 with cmBox := s1.cmBox ++ [CmMsg.ofBytes ((f.payload.drop 4).take 32)] } else s1

end Sys2Proof.Machine
end

