-- ==== Sys2Proof/Machine/Power.lean ====
section
/-! DEFINITION. Power, resets and start-up (R399 to R417, R453): which domains a source reaches, the six stages, and release. -/
namespace Sys2Proof.Machine

/-- Changes the power state. -/
def State.modPwr (s : State) (f : Pwr → Pwr) : State := { s with pwr := f s.pwr }
/-- Changes the gatehouse. -/
def State.modGate (s : State) (f : Gate → Gate) : State := { s with gate := f s.gate }
/-- The start-up stage shown in GH_STATUS (R398). -/
def State.stage (s : State) : Nat := s.rfld R.GH_STATUS 31 24
/-- Sets the stage shown. -/
def State.setStage (s : State) (n : Nat) : State := s.setFld R.GH_STATUS 31 24 n
/-- The lifecycle state (R392). -/
def State.lifecycle (s : State) : Nat := s.rfld R.FZ_LIFECYCLE 1 0
/-- What happens only while the auxiliary input holds: below 3.0 V the gatehouse domain is in reset (R401). -/
def powered (s : State) (f : State → State) : State := if s.pwr.aux then f s else s
/-- The duty in force shown in PW_STATUS and GH_WB_POWER (R403, R404, R417). -/
def State.showDuty (s : State) : State :=
  let d := s.pwr.dutyNow
  let cl := b2n (decide (s.pwr.duty < 64))
  (((s.setFld R.PW_STATUS 22 16 d).setFld R.PW_STATUS 2 2 (b2n s.pwr.throttle)).setFld R.PW_STATUS 1 1 cl).setFld R.GH_WB_POWER 16 16 cl
/-- Switches domains on or off in PW_DOMAIN. -/
def State.setDomains (s : State) (l : List Nat) (on : Bool) : State := l.foldl (fun t d => t.setFld R.PW_DOMAIN d d (b2n on)) s

/-! ## The log in flash (R382) -/

/-- Every record not yet in flash is copied there, the oldest first. -/
def State.flushLog (s : State) : State :=
  let new := s.log.filter (fun r => !r.flags.testBit 4)
  { s with flashLog := (new.map LogRec.flashed ++ s.flashLog).take 1024, flashSeq := max s.flashSeq ((new.head?.map LogRec.seq).getD 0), log := s.log.map (fun r => if r.flags.testBit 4 then r else r.flashed) }

/-! ## Domains off (R400, R414, R453) -/

/-- Does a register lie outside domains 0 to 34: the gatehouse, power, clock and fuse blocks? -/
def keptReg (a : Nat) : Bool := decide (PW.base ≤ a)

/-- The benches whose fence stays until stage 5 runs again (R414, R427): those fenced, but for those that only profile 2 counts as fenced. -/
def State.keptFences (s : State) : List (Fin 24) := (List.finRange 24).filter (fun b => (s.bench b).out && !(s.bench b).relay)

/-- The benches of `l` counted as fenced again in a state that has reset every bench (R427): a domain that a fence of cause 5 switched off stays off. -/
def State.refence (s : State) (old : State) (l : List (Fin 24)) : State :=
  l.foldl (fun t b => (t.fenceShown b).modBench b (fun y => { y with cut := (old.bench b).cut || (old.bench b).fenceDue == some 5 })) s

/-- Memory of the addresses that `p` names filled with zeros and valid check bits (R453). -/
def State.zeroMem (s : State) (p : Nat → Bool) : State :=
  { s with mem := SMap.keep (fun a => !p a) s.mem, poison := s.poison.filter (fun l => !p (64 * l)) }

/-- Every register of a range at its Reset column (R453), but for those of the configuration that stage 3 has written (R411). -/
def State.freshRegs (s : State) (lo hi : Nat) : State :=
  { s with regs := SMap.keep (fun a => decide (a < lo) || decide (hi ≤ a) || Img.nameable a || a == R.LK_TORUS) s.regs }

/-- What a bench domain holds once it has switched on (R453). -/
def State.freshBenches (s : State) : State :=
  (({ s with benches := Vector.replicate 24 {}, derricks := Vector.replicate 48 {}, cores := Vector.replicate 24 {} } : State).zeroMem isStore).freshRegs (BN.base 0) (BN.base 24)

/-- Domains 0 to 34 switched off: what they held is lost, and reads as after the next start-up (R453). The gatehouse, its flash and its log stay, and
the log is copied to flash (R382). Fences stay until a start-up runs stage 5 (R414). -/
def State.mainOff (s0 : State) : State :=
  let s := s0.flushLog
  let z : State := {}
  let t : State := { z with pending := s.pending, out := s.out, freeCtr := s.freeCtr, time := s.time, log := s.log, logSeq := s.logSeq, flashLog := s.flashLog, flashSeq := s.flashSeq }
  let u : State := { t with regs := SMap.keep keptReg s.regs, straps := s.straps, cm := s.cm, cmBox := s.cmBox, mb := { image := s.mb.image, digest := s.mb.digest }, pwr := { s.pwr with ready := false }, gate := { s.gate with caps := z.gate.caps } }
  -- no change to the membership that a mailbox request waits for comes any more: the module holds no number
  let v := (u.release 1 6 []).release 2 0 []
  (v.setRn R.PW_DOMAIN (2 ^ 35)).refence s0 s0.keptFences

/-- Start-up is to run from stage 1 (R414). The thermal throttle goes on while the temperature asks for it (R404). -/
def State.restart (s : State) : State :=
  let s1 := ((((s.setStage 1).setFld R.PW_START 15 4 0).setRn R.CK_CORE 8).modPwr (fun p =>
    { p with stopped := false, ready := false, duty := 64, below := 0, floor := some 0, mainFail := false })).showDuty
  (List.range 7).foldl (fun t i => t.setRn (R.PW_STAGE_TIME i) 0) s1

/-- A temperature reading as a number in 1/16 °C. -/
def State.temp (s : State) (i : Nat) : Int := signed 16 (s.rfld (R.GH_WB_TEMP i) 15 0)

/-- Has every sensor that works been sampled below its TRIP − 15 °C (R404, R405)? -/
def State.cooled (s : State) : Bool :=
  (List.range 72).all (fun i => s.pwr.failed.contains (if i < 64 then 0 else 1, i) || s.rfld (R.GH_WB_TEMP i) 15 0 != 0x8000
    && decide (s.temp i < ((s.rfld (if i < 64 then R.PW_THERM else R.PW_STACK_THERM) 7 0 : Nat) - 15 : Int) * 16))

/-- A module reset (R414): counted, domains off, start-up from stage 1; after a trip only once every sensor has cooled (R405). -/
def State.moduleReset (s : State) : State :=
  let s1 := (s.mainOff).modGate (fun g => { g with resets := g.resets + 1 })
  if s1.pwr.tripped then
    if s1.cooled then ((s1.modPwr (fun p => { p with tripped := false })).emit (.thermN false)).restart else s1
  else s1.restart

/-- MOD_RST_N (R414): the time in µs that the pin was low. Between 2 and 10 µs the outcome is free. -/
def modRstN (s : State) (us : Nat) : State := powered s (fun s =>
  if 10 ≤ us then s.moduleReset
  else if 2 ≤ us then (if Config.freeBool s.freeCtr then s.draw.moduleReset else s.draw)
  else s)

/-- DOMAIN_FAULT (R400): a bench domain fences its bench, after which it switches off (at once where the bench is fenced already); any other
main domain resets the module. A failed sensor takes no part (R377). -/
def domainFault (s : State) (d : Fin 35) (mv : Nat) : State :=
  if !s.rbit R.PW_DOMAIN d || s.pwr.failed.contains (2, d.val) then s
  else
    let s1 := s.ev 0xC21 0xFF (leBytes 1 d ++ leBytes 2 mv)
    let b : Fin 24 := Fin.ofNat 24 d.val
    if 24 ≤ d.val then s1.moduleReset else if (s.bench b).out then s1.cutBench b else s1.fence b 5 []

/-- MAIN_POWER_FAIL (R401). -/
def mainFail (s : State) (mv : Nat) : State := powered s (fun s =>
  ((s.ev 0xC20 0xFF (leBytes 2 mv)).mainOff).setFld R.PW_STATUS 0 0 0)

/-- MAIN_POWER_RESTORED (R401): start-up from stage 1. -/
def mainRestored (s : State) : State :=
  if !s.pwr.aux || s.rbit R.PW_STATUS 0 then s else (s.setFld R.PW_STATUS 0 0 1).restart

/-- What the flash and the fuses keep through a loss of the auxiliary input (R401, R408, R409, R414), and a trip that has not ended (R405). -/
def State.powerOnReset (s : State) : State :=
  let z : State := {}
  let g := s.gate
  let t : State := { z with pending := s.pending, out := s.out, freeCtr := s.freeCtr, flashLog := s.flashLog }
  let u : State := { t with gate := { slots := g.slots, boots := g.boots, cfgs := g.cfgs, profile := g.profile, owner := g.owner, chain := g.chain }, pwr := { tripped := s.pwr.tripped, stopped := s.pwr.tripped } }
  (u.setReg R.FZ_ARB (s.reg R.FZ_ARB)).setReg R.FZ_LIFECYCLE (s.reg R.FZ_LIFECYCLE)

/-- AUX_POWER_LOSS (R401): every domain is held in power-on reset. Where the main domains are off already, the gatehouse goes off in the order of
R400, and copies its log first (R382). -/
def auxLoss (s : State) : State :=
  (if s.rbit R.PW_STATUS 0 then s else s.flushLog).powerOnReset.modPwr (fun p => { p with aux := false })

/-- AUX_POWER_ON (R414): stage 0; the log SEQ and CK_TIME restart. `main` says whether the main input is valid. -/
def auxOn (s : State) (main : Bool) : State := (s.powerOnReset.setFld R.PW_STATUS 0 0 (b2n main)).setRn R.PW_DOMAIN (2 ^ 35)

/-- REF_LOST (R407): the reference is lost (`ref`), which clears REF_OK and holds the start-up until it is back, or the root PLL alone loses lock. -/
def refLost (s : State) (ref : Bool) : State := powered s (fun s =>
  let gone := ref || s.pwr.refGone
  ((s.ev 0xC30 0xFF (leBytes 8 s.us)).moduleReset.setRn R.CK_STATUS (if gone then 0 else 2)).modPwr (fun p => { p with refGone := gone }))

/-- REF_RESTORED (R407). -/
def refRestored (s : State) : State :=
  if s.pwr.refGone then ((s.setFld R.CK_STATUS 1 1 1).modPwr (fun p => { p with refGone := false })).restart else s

/-- The class of a temperature sensor (R420). -/
def tempClass (i : Fin 72) : Nat := if i.val < 64 then 0 else 1

/-- Is a reading above the TRIP of its sensor (R404)? -/
def State.aboveTrip (s : State) (i : Fin 72) (reading : Nat) : Bool :=
  decide (((s.rfld (if i.val < 64 then R.PW_THERM else R.PW_STACK_THERM) 7 0 : Nat) * 16 : Int) < signed 16 (reading % 65536))

/-- THERMAL_TRIP (R405): THERM_N low, the domains off, the sensor and its reading logged. A failed sensor takes no part (R404). -/
def thermalTrip (s : State) (i : Fin 72) (reading : Nat) : State :=
  if !s.pwr.aux || s.pwr.failed.contains (tempClass i, i.val) || !s.aboveTrip i reading then s
  else ((((s.emit (.thermN true)).ev 0xC12 0xFF (leBytes 1 i ++ leBytes 2 reading)).mainOff)).modPwr (fun p => { p with tripped := true, stopped := true })

/-! ## Start-up (R412, R413) -/

/-- A failed stage (R413). -/
def State.stageFail (s : State) (stage reason : Nat) : State :=
  (((s.setFld R.PW_START 7 7 1).setFld R.PW_START 6 4 reason).ev 0xC40 0xFF (leBytes 1 stage ++ leBytes 1 reason))

/-- Start-up stops at a stage. -/
def State.stop (s : State) : State := s.modPwr (fun p => { p with stopped := true })

/-- May a stage run now: both inputs valid (R412), no trip and no failure that stopped start-up? -/
def State.stageDue (s : State) (n : Nat) : Bool :=
  s.stage == n && !s.pwr.stopped && !s.pwr.tripped && s.pwr.aux && s.rbit R.PW_STATUS 0 && !s.pwr.refGone

/-- What the fabric and the host interface hold once they have switched on (R453). -/
def State.freshFabric (s : State) : State :=
  ({ s with l2 := Vector.replicate 2 [], tlb := [], invals := [], rings := Vector.replicate 64 {}, pci := {}, busMaster := false, msixEn := false, msixMask := false, spall := {}, bridge := {},
            e2eTx := [], e2eRx := [], txns := [] }.freshRegs SP.base (SP.base + 0x1000)).freshRegs MM.base (MM.base + 0x10000) |>.freshRegs HX.base (HX.base + 0x10000)

/-- START_STAGE_1 (R406, R408, R412): its duration in µs, the straps and profile pins, whether a fuse word was corrected or is uncorrectable, and
whether the root PLL locked. -/
def startStage1 (s : State) (us straps prof : Nat) (ce ue lock : Bool) : State :=
  if !(s.stageDue 0 || s.stageDue 1) then s
  else
    let s0 := (if s.stage = 0 then s.restart else s).freshFabric
    let s1 := ({ s0 with straps := straps % 65536 } : State).modPwr (fun p => { p with prof := prof % 4 })
    let s2 := ((s1.setDomains [26, 27, 34, 35] true).setRn (R.PW_STAGE_TIME 1) us).setRn R.FZ_STATUS (b2n ue * 4 + b2n ce * 2 + 1)
    let s3 := s2.setRn R.CK_STATUS (if lock then 7 else 2)
    if ue then (s3.stageFail 1 1).stop
    else if !lock then (s3.stageFail 1 2).stop
    else s3.setStage (if s3.rbit R.GH_STATUS 0 then 3 else 2)

/-- The fields of a firmware image (R384). -/
def fwVersion (b : Bytes) : Nat := leAt b 4 4
def fwSvn (b : Bytes) : Nat := leAt b 8 4
def fwDigest (b : Bytes) : Bytes := (b.drop 16).take 48

/-- Is the ROOT_KEY of an image the one whose SHA-384 is fused (R384)? -/
def State.rootOk (s : State) (b : Bytes) : Bool := sha384 ((b.drop 64).take 97) == (List.range 6).flatMap (fun i => leBytes 8 (s.rn (R.FZ_ROOTKEY i)))

/-- Does an image hold what R384 asks, ROOT_KEY, its signature and the SVN aside? -/
def fwSound (b : Bytes) : Bool :=
  leAt b 0 4 == 0x4D394657 && decide (fwSvn b ≤ 63) && decide (512 + leAt b 12 4 ≤ b.length) && decide (512 + leAt b 12 4 ≤ 1536 * 1024)
    && Img.zeros b 161 95 && Img.zeros b 352 160 && fwDigest b == sha384 ((b.drop 512).take (leAt b 12 4))

/-- Does the image of a slot verify (R384)? `sig` says that its signature verifies under ROOT_KEY. -/
def State.slotOk (s : State) (i : Fin 2) (sig : Bool) : Bool :=
  let x := s.gate.slots[i]
  x.valid && sig && fwSound x.image && s.rootOk x.image && decide (s.rfld R.FZ_ARB 5 0 ≤ fwSvn x.image)

/-- `choose_slot` of R385. -/
def State.chooseSlot (s : State) (sigA sigB : Bool) : State × Option Nat :=
  let ok := fun (t : State) (n : Nat) => t.slotOk (slotFin n) (if n = 0 then sigA else sigB)
  let r := s.boot
  let fell := r.trial && r.tries == 0
  let r1 : BootRec := if fell then { r with trial := false, active := 1 - r.active } else if r.trial then { r with tries := r.tries - 1 } else r
  let s1 := if r.trial then s.setBoot r1 else s
  let s2 := if fell then s1.ev 0xB12 0xFF (leBytes 1 r.active ++ leBytes 1 r1.active) else s1
  let a := r1.active
  if ok s2 a then (s2, some a)
  else if ok s2 (1 - a) then
    ((s2.setBoot { r1 with active := 1 - a, trial := false }).ev 0xB12 0xFF (leBytes 1 a ++ leBytes 1 (1 - a)), some (1 - a))
  else (s2, none)

/-- START_STAGE_2 (R385, R412, R413): also the ROM's start after a gatehouse-only reset, which is no start-up (R395, R412). -/
def startStage2 (s : State) (us : Nat) (sigA sigB : Bool) : State :=
  if !(s.stageDue 2 || s.pwr.romStart) then s
  else
    let start := s.stageDue 2
    let s1 := ((s.modPwr (fun p => { p with romStart := false })).modGate (fun g => { g with fails := 0, challenge := none })).setFld R.GH_STATUS 4 4 0
    let s2 := if start then s1.setRn (R.PW_STAGE_TIME 2) us else s1
    let q := s2.chooseSlot sigA sigB
    match q.2 with
    | some n =>
      let im := (q.1.gate.slots[slotFin n]).image
      let s3 := (((q.1.setFld R.GH_STATUS 0 0 1).setFld R.GH_STATUS 8 8 n).setFld R.GH_STATUS 9 9 (b2n q.1.boot.trial)).setFld R.GH_FW 39 0 (fwSvn im * 2 ^ 32 + fwVersion im)
      if start then s3.setStage 3 else s3
    | none =>
      let s3 := q.1.setFld R.GH_STATUS 0 0 0
      if start then (s3.stageFail 2 3).stop else s3

/-- Every bench counts as fenced, without an event, its domain off (R416, R427); those fenced before stay so in later start-ups. -/
def State.relayBenches (s : State) : State :=
  (List.finRange 24).foldl (fun t b => if (t.bench b).out then t else (t.fenceShown b).modBench b (fun y => { y with relay := true })) s

/-- What the stockyard holds once its domains have switched on (R253, R453). -/
def State.freshYard (s : State) : State :=
  (({ s with arbs := SMap.keep (fun i => decide (896 ≤ i)) s.arbs } : State).zeroMem isYard).freshRegs SY.base (SY.base + 0x10000)

/-- What the memory interfaces, their stacks and base dies hold once they have switched on (R248, R453). -/
def State.freshStacks (s : State) : State :=
  (({ s with arbs := SMap.keep (fun i => decide (i < 896)) s.arbs, regions := [], ues := Vector.replicate 8 {}, scrubLow := Vector.replicate 8 0, seLast := [] } : State).zeroMem isMergo).freshRegs
    (UE.base 0) (UE.base 8)

/-- What the link groups and collective units hold once they have switched on (R453). -/
def State.freshLinks (s : State) : State :=
  ((({ s with ports := Vector.replicate 16 {}, colls := Vector.replicate 4 {}, tally := [], ended := [], lateLog := [], early := [] } : State).freshRegs (LK.base 0) (LK.base 16)).freshRegs
    (CL.base 0) (CL.base 4))

/-- The registers that an entry could name and that no domain of the start-up holds, at their Reset values: with no configuration every such register
keeps its Reset value (R413). -/
def State.unnamed (s : State) : State := [R.GH_CM_CFG, R.PW_THERM, R.PW_STACK_THERM].foldl (fun (t : State) a => t.setReg a (regReset a)) s

/-- START_STAGE_3 (R402, R411, R413, R415, R416, R453): `ok0` and `ok1` say that the certificate chain and signature of the image in each configuration slot verify. -/
def startStage3 (s0 : State) (us : Nat) (ok0 ok1 : Bool) : State :=
  if !(s0.stageDue 3 && s0.lifecycle != 3) then s0
  else
    let s := s0.freshYard
    let cmd := s.gate.profile.filter (· < 4)
    let prof := cmd.getD s.pwr.prof
    let s1 := (((s.setFld R.PW_START 1 0 prof).setFld R.PW_START 3 3 (b2n cmd.isSome)).setFld R.GH_STATUS 17 16 prof).setRn (R.PW_STAGE_TIME 3) us
    let s2 := s1.modGate (fun g => { g with profile := if cmd.isSome then none else g.profile })
    let s3 := s2.setRn R.CK_CORE (if prof = 1 ∨ s2.rfld R.FZ_CEIL 31 16 < 1300 then 8 else 4)
    let good := fun (n : Nat) => (if n = 0 then ok0 else ok1) && Img.sound (s3.gate.cfgs[slotFin n])
    let n := s3.boot.cfg
    let pick := if good n then some n else if good (1 - n) then some (1 - n) else none
    let s4 := match pick with
      | some m =>
        let im := Img.body (s3.gate.cfgs[slotFin m])
        let t := ((s3.applyImage im).modMb (fun b => { b with image := im })).modGate (fun g => { g with cfgIn := m })
        t.setClamp (if Img.clampW im = 0 then t.clampCap else Img.clampW im) 0
      | none =>
        let t := ((s3.ev 0xC41 0xFF (leBytes 1 n ++ leBytes 1 6)).stageFail 3 4).unnamed.modMb (fun b => { b with image := [] })
        t.setClamp t.clampCap 0
    let s5 := (s4.setDomains [24, 25] true).setStage 4
    if prof = 2 then s5.relayBenches else s5

/-- Is stage 5 skipped (R416)? -/
def State.skip5 (s : State) : Bool := let p := s.rfld R.PW_START 1 0; p == 2 || (p == 1 && Img.skipP1 s.mb.image)

/-- START_STAGE_4 (R412, R413): `fail` is the mask of stacks that failed training. -/
def startStage4 (s : State) (us fail : Nat) : State :=
  if !s.stageDue 4 then s
  else
    let f := fail % 256
    let s1 := ((s.freshStacks.setDomains [32, 33] true).setFld R.PW_START 15 8 f).setRn (R.PW_STAGE_TIME 4) us
    let s2 := if f = 0 then s1 else s1.stageFail 4 5
    if s2.skip5 then
      (if s2.rfld R.PW_START 1 0 = 2 then s2
       else ((s2.freshBenches).refence s2 s2.keptFences).setDomains ((List.range 24).filter (fun b => !(s2.bench (Fin.ofNat 24 b)).cut)) true).setStage 6
    else s2.setStage 5

/-- START_STAGE_5 (R431, R432): the benches that fail a known-answer test, with the test number and the expected and received words. -/
def startStage5 (s : State) (us : Nat) (fails : List (Fin 24 × Nat × Nat × Nat)) : State :=
  if !s.stageDue 5 then s
  else
    let s1 := (s.freshBenches.setDomains (List.range 24) true).setRn (R.PW_STAGE_TIME 5) us
    let s2 := fails.foldl (fun t f => (t.ev 0x142 f.1 (leBytes 1 f.1 ++ leBytes 2 f.2.1 ++ leBytes 8 f.2.2.1 ++ leBytes 8 f.2.2.2)).fence f.1 4 []) s1
    (if fails.isEmpty then s2 else s2.stageFail 5 6).setStage 6

/-- START_STAGE_6 (R318, R327, R412, R413): the ports are enabled, and epoch 1 is formed or a join begins; with no configuration the ports stay DOWN. -/
def startStage6 (s : State) (us : Nat) : State :=
  if !s.stageDue 6 || s.pwr.ready then s
  else
    let s1 := ((s.freshLinks.setDomains [28, 29, 30, 31] true).setRn (R.PW_STAGE_TIME 6) us).modPwr (fun p => { p with ready := true })
    if s1.mb.image.isEmpty then s1
    else
      let s2 := (List.finRange 16).foldl (fun t p => lkEnable t p true) s1
      if Img.solo s2.mb.image || Img.founder s2.mb.image == s2.straps then
        let l := [s2.straps]
        s2.switchTo { epoch := 1, digest := recordDigest s2.mb.image l 1, added := l, full := some l }
      else (s2.modMb (fun b => { b with joining := true })).sendJoin

/-- START_RELEASE (R361, R412, R413): the endpoint leaves retry status; a stop at stage 1 or 2 releases it too. -/
def startRelease (s : State) : State :=
  if !(s.pwr.ready || (s.pwr.stopped && !s.pwr.tripped)) || !s.rbit R.PW_STATUS 0 || s.released || s.lifecycle == 3 then s
  else
    let s1 := if s.pwr.ready && s.mb.joining && !s.member then s.stageFail 6 7 else s
    (({ s1 with released := true } : State).emit .drs).setStage 7

end Sys2Proof.Machine
end

