-- ==== Sys2Proof/Machine/Gatehouse.lean ====
section
/-! DEFINITION. The gatehouse (R372 to R398): mailboxes, firmware update, attestation, lifecycle, the monitor's base set, sensors and the actions that they
cause (R377, R403, R404), phase records (R379), and restarts of the gatehouse (R395). -/
namespace Sys2Proof.Machine

/-! ## Mailboxes (R373 to R375) -/

/-- `n` bytes of the gatehouse's buffer space (R372) from an offset. -/
def State.ghBytes (s : State) (o n : Nat) : Bytes := (List.range n).map (fun i => SMap.get (fun _ => (0 : Byte)) s.gate.bufs (o + i))
/-- Bytes written to the gatehouse's buffer space. -/
def State.ghWrite (s : State) (o : Nat) (b : Bytes) : State :=
  s.modGate (fun g => { g with bufs := b.zipIdx.foldl (fun m p => SMap.set (fun _ => (0 : Byte)) m (o + p.2) p.1) g.bufs })

/-- The request buffer of a mailbox pair. -/
def reqAt (m : Nat) : Nat := 0x20000 + 0x2000 * m
/-- The response buffer of a mailbox pair. -/
def rspAt (m : Nat) : Nat := 0x21000 + 0x2000 * m

/-- A mailbox pair. -/
def State.box (s : State) (m : Fin 16) : Mailbox := s.gate.boxes[m]
/-- Changes a mailbox pair. -/
def State.modBox (s : State) (m : Fin 16) (f : Mailbox → Mailbox) : State := s.modGate (fun g => { g with boxes := g.boxes.set m (f (s.box m)) })
/-- DMA of the gatehouse into host memory (R375), counted in HX_COUNT(2) (R371). -/
def State.dmaOut (s : State) (a : Nat) (b : Bytes) : State := (s.emit (.hostWrite a b)).addReg (R.HX_COUNT 2) b.length
/-- DMA of the gatehouse from host memory (R375), counted in HX_COUNT(2) (R371). -/
def State.dmaIn (s : State) (a n : Nat) : State := (s.emit (.hostRead a n)).addReg (R.HX_COUNT 2) n

/-- A request ends with a status and results; MAILBOX_DONE shows it. -/
def State.respond (s : State) (m : Fin 16) (status : Nat) (res : Bytes) : State := s.modBox m (fun b => { b with result := some (status, res), held := 0 })

/-- GH_MB_DB(m).GO (R373): ignored while BUSY. -/
def mbDoorbell (s : State) (m : Fin 16) : State := if s.rbit (R.GH_MB_STATUS m) 0 then s else s.setRn (R.GH_MB_STATUS m) 1

/-- Did start-up end in stage 1 (R413): a bad fuse word or no root lock? Mailboxes then get no response. -/
def State.startDead (s : State) : Bool := s.rbit R.PW_START 7 && (s.rfld R.PW_START 6 4 == 1 || s.rfld R.PW_START 6 4 == 2)
/-- Does a request wait on this pair, not yet begun? -/
def State.waits (s : State) (m : Fin 16) : Bool := s.rbit (R.GH_MB_STATUS m) 0 && (s.box m).result.isNone && (s.box m).held == 0 && !(s.box m).fw
/-- How far a pair lies behind the one at which the rotation stands (R373). -/
def State.behind (s : State) (m : Fin 16) : Nat := (m.val + 16 - s.gate.turn % 16) % 16
/-- Is a pair the first in rotation among those with waiting requests? -/
def State.inTurn (s : State) (m : Fin 16) : Bool := (List.finRange 16).all (fun k => !s.waits k || decide (s.behind m ≤ s.behind k))
/-- Does the firmware serve a request on this pair now: the next in rotation, or one that it has begun (R373)? -/
def State.serving (s : State) (m : Fin 16) : Bool :=
  s.rbit R.GH_STATUS 0 && s.lifecycle != 3 && !s.startDead && s.rbit (R.GH_MB_STATUS m) 0 && (s.box m).result.isNone && (s.box m).held == 0
    && ((s.box m).fw || s.inTurn m)
/-- The rotation moves past a pair whose request begins. -/
def State.took (s : State) (m : Fin 16) : State := if (s.box m).fw then s else s.modGate (fun g => { g with turn := (m.val + 1) % 16 })

/-- The request of a pair under a row of opcode `op` with `len` operand bytes (R373, R374): the row's effect on its operands, or status 2. -/
def mailbox (s : State) (m : Fin 16) (op len : Nat) (f : State → Bytes → State) : State :=
  let h := s.ghBytes (reqAt m) 8
  if !s.serving m || leAt h 0 2 != op then s
  else if leAt h 2 2 ≠ len then (s.took m).respond m 2 []
  else f (s.took m) (s.ghBytes (reqAt m + 8) len)

/-- Does a host buffer lie wholly in the host mailbox region (R375)? -/
def State.inRegion (s : State) (a n : Nat) : Bool :=
  decide (s.rfld R.GH_HMB_BASE 63 12 * 4096 ≤ a) && decide (a + n ≤ s.rfld R.GH_HMB_LIMIT 63 12 * 4096)

/-- The listed opcodes (R376). -/
def mbOps : List Nat :=
  [0x1, 0x100, 0x101, 0x102, 0x103, 0x200, 0x201, 0x202, 0x203, 0x300, 0x400, 0x401, 0x402, 0x500, 0x501, 0x502, 0x503, 0x504, 0x600, 0x601, 0x602, 0x700]

/-! ## Restarts of the gatehouse (R387, R395, R396) -/

/-- The gatehouse registers that its reset brings to their Reset values (R8, R398), beside the fields of GH_STATUS that the ROM sets: the host
mailbox region, the log and phase configuration, the running slot, its firmware's version, and DONE of every pair. -/
def State.ghRegs (s : State) : State :=
  let s1 := [R.GH_HMB_BASE, R.GH_HMB_LIMIT, R.GH_LOG_CFG, R.GH_PHASE_BASE, R.GH_PHASE_CFG, R.GH_PHASE_SEQ].foldl (fun (t : State) a => t.setReg a (regReset a)) s
  let s2 := ((((s1.setFld R.GH_FW 39 0 0).setFld R.GH_STATUS 0 0 0).setFld R.GH_STATUS 4 4 0).setFld R.GH_STATUS 9 8 0)
  (List.finRange 16).foldl (fun t (m : Fin 16) => t.setFld (R.GH_MB_STATUS m) 1 1 0) s2

/-- A gatehouse start is due: its registers are reset, requests that run complete with status 9, one that MAILBOX_DONE has not ended among them
(R395, R397), and the ROM chooses a slot. What R395 keeps, keeps. -/
def State.ghRestart (s : State) : State :=
  let s1 := (List.finRange 16).foldl (fun t m => if t.rbit (R.GH_MB_STATUS m) 0 then t.respond m 9 [] else t) s.ghRegs
  ((s1.modGate (fun g => { g with boxes := g.boxes.map (fun b => { b with fw := false, stage := false }), peer := none })).modPwr (fun p => { p with romStart := true })).cmRestart

/-- Does the image on trial run (R387, R388)? -/
def State.onTrial (s : State) : Bool := s.boot.trial && s.rbit R.GH_STATUS 9 && s.boot.active == s.runSlot

/-- A watchdog reset (R387, R395); TRIES falls to 0 where it comes during a trial. -/
def State.watchdog (s : State) : State :=
  let s1 := (s.setRn R.GH_WDT ((s.rn R.GH_WDT + 1) % 2 ^ 32)).ev 0xB20 0xFF (leBytes 4 (s.rfld R.GH_FW 31 0) ++ leBytes 1 (b2n (s.rbit R.GH_STATUS 9)))
  let s2 := if s1.onTrial then s1.setBoot { s1.boot with tries := 0 } else s1
  s2.ghRestart

/-- GH_WATCHDOG (R395). -/
def ghWatchdog (s : State) : State := if s.rbit R.GH_STATUS 0 then s.watchdog else s

/-- GATEHOUSE_FIRMWARE_SRAM_UNCORRECTABLE (R423). -/
def ghSramError (s : State) : State := if s.rbit R.GH_STATUS 0 then s.watchdog else s

/-- The image just staged is recorded as valid (R386). -/
def State.fwValid (s : State) : State :=
  let i := slotFin (1 - s.runSlot)
  s.modGate (fun g => { g with slots := g.slots.set i { g.slots[i] with valid := true } })

/-- RESET (R376, R414): a module reset, which is a gatehouse start too where another image than the running one is to run next (R387, log 104), or a
gatehouse start alone. -/
def State.resetKind (s : State) (kind : Nat) : State :=
  if kind = 0 then (if s.rbit R.GH_STATUS 0 && s.boot.active == s.runSlot then s else s.ghRestart).moduleReset else s.ghRestart

/-- MAILBOX_DONE (R373): the response, with an unlisted opcode refused as status 1 (R374); a staged image is valid from here on (R397), and a RESET
acts after its DONE. -/
def mailboxDone (s : State) (m : Fin 16) : State :=
  if !s.rbit (R.GH_MB_STATUS m) 0 then s
  else
    let h := s.ghBytes (reqAt m) 8
    let b := s.box m
    let r := match b.result with
      | some r => some r
      | none => if s.serving m && !mbOps.contains (leAt h 0 2) then some (1, []) else none
    match r with
    | none => s
    | some r =>
      let s0 := if b.result.isNone then s.took m else s
      let s1 := (if b.stage then s0.fwValid else s0).ghWrite (rspAt m) (leBytes 2 r.1 ++ leBytes 2 r.2.length ++ (h.drop 4).take 4 ++ r.2)
      let s2 := ((s1.modBox m (fun _ => {})).setRn (R.GH_MB_STATUS m) 2).raise (64 + m)
      if b.held = 4 ∨ b.held = 5 then s2.resetKind (b.held - 4) else s2

/-! ## Identity and attestation (R389 to R391) -/

/-- Bytes 0 to 255 of an attestation report (R391). -/
def State.report (s : State) (nonce : Bytes) : Bytes :=
  leBytes 4 0x4D394154 ++ leBytes 2 1 ++ leBytes 2 352 ++ padTo 48 nonce ++ leBytes 8 (s.rn R.GH_SERIAL)
    ++ leBytes 8 (s.rn (R.FZ_PART 0)) ++ leBytes 8 (s.rn (R.FZ_PART 1)) ++ leBytes 1 s.lifecycle ++ leBytes 1 (s.rfld R.GH_STATUS 17 16)
    ++ leBytes 2 (if s.member then s.dev else 0xFFFF) ++ leBytes 2 (s.rfld R.FZ_CEIL 15 0) ++ leBytes 2 (s.rfld R.FZ_CEIL 31 16) ++ leBytes 2 Config.romVersion.toNat
    ++ leBytes 1 s.runSlot ++ leBytes 1 (b2n s.boot.trial + 2 * b2n s.gate.everUnlocked + 4 * b2n s.gate.owner.isSome)
    ++ leBytes 4 (s.rfld R.GH_FW 31 0) ++ leBytes 4 (s.rfld R.GH_FW 39 32) ++ leBytes 4 (s.rfld R.FZ_ARB 5 0) ++ padTo 48 (fwDigest s.runImage)
    ++ sha384 s.mb.image ++ leBytes 8 s.epoch ++ leBytes 8 s.gate.resets ++ leBytes 40 0

/-- The identity block (R391). -/
def State.identity (s : State) : Bytes := ((s.report []).drop 56).take 32

/-- GET_INFO: bytes 56 to 215 of the report. -/
def getInfo (s : State) (m : Fin 16) : State := mailbox s m 0x1 0 (fun t _ => t.respond m 0 (((t.report []).drop 56).take 160))

/-- ATTEST (R391, R392): the identity key signs the SHA-384 of bytes 0 to 255. -/
def attest (s : State) (m : Fin 16) : State := mailbox s m 0x600 48 (fun t o =>
  if t.lifecycle ≠ 1 then t.respond m 4 []
  else t.respond m 0 (t.report o ++ padTo 96 (Config.identitySign (sha384 (t.report o)))))

/-- CERTS (R390). -/
def certs (s : State) (m : Fin 16) : State := mailbox s m 0x601 8 (fun t o =>
  let a := leAt o 0 8
  if !t.inRegion a t.certChain.length then t.respond m 8 []
  else (t.dmaOut a t.certChain).respond m 0 (leBytes 4 t.certChain.length))

/-- CERT_INSTALL (R390, R409): at most 64 KiB; `ok` says that the certificate certifies the identity key; `data` is the host buffer. -/
def certInstall (s : State) (m : Fin 16) (data : Bytes) (ok : Bool) : State := mailbox s m 0x602 12 (fun t o =>
  let n := leAt o 8 4
  if 64 * 1024 < n then t.respond m 3 []
  else if !t.inRegion (leAt o 0 8) n then t.respond m 8 []
  else
    let t1 := t.dmaIn (leAt o 0 8) n
    if !ok then t1.respond m 6 [] else (t1.modGate (fun g => { g with owner := some (padTo n data) })).respond m 0 [])

/-! ## Power, profile, reset, fence (R376) -/

/-- POWER_SET (R402). -/
def powerSet (s : State) (m : Fin 16) : State := mailbox s m 0x100 2 (fun t o =>
  let w := leAt o 0 2
  if w < 600 ∨ t.clampCap < w then t.respond m 3 [] else (t.setClamp w 2).respond m 0 [])

/-- PROFILE_STORE (R415). -/
def profileStore (s : State) (m : Fin 16) : State := mailbox s m 0x101 1 (fun t o =>
  let p := leAt o 0 1
  if 3 < p then t.respond m 3 [] else (t.modGate (fun g => { g with profile := some p })).respond m 0 [])

/-- RESET: the reset follows DONE. -/
def mbReset (s : State) (m : Fin 16) : State := mailbox s m 0x102 1 (fun t o =>
  let k := leAt o 0 1
  if 1 < k then t.respond m 3 [] else (t.respond m 0 []).modBox m (fun b => { b with held := 4 + k }))

/-- FENCE (R425, R427). -/
def mbFence (s : State) (m : Fin 16) : State := mailbox s m 0x103 1 (fun t o =>
  let b := leAt o 0 1
  if 23 < b then t.respond m 3 [] else (t.fence (Fin.ofNat 24 b) 6 []).respond m 0 [])

/-! ## Membership (R376, R397) -/

/-- MEMBER_STATUS. -/
def memberStatus (s : State) (m : Fin 16) : State := mailbox s m 0x200 0 (fun t _ =>
  t.respond m 0 (leBytes 2 (if t.member then t.dev else 0xFFFF) ++ leBytes 2 t.straps ++ leBytes 2 (t.leader.getD 0xFFFF) ++ leBytes 4 t.allMembers.length
    ++ leBytes 8 t.epoch ++ leBytes 8 (t.rn R.LK_STAGED_EPOCH) ++ padTo 48 t.mb.digest))

/-- Is an epoch change pending (R397)? -/
def State.changePending (s : State) : Bool :=
  s.mb.staged.isSome || s.mb.query.isSome || s.mb.newImage.isSome || s.mb.nextImage.isSome || s.gate.boxes.toList.any (fun b => decide (1 ≤ b.held) && decide (b.held ≤ 3))

/-- A request holds its pair until the change (R376); the leader is asked for it where it is another module, with the image of CONFIG_STAGE. -/
def State.holdFor (s : State) (m : Fin 16) (kind : Nat) : State :=
  let s1 := s.modBox m (fun b => { b with held := kind })
  if s1.isLeader then s1.stageIfFree
  else
    match s1.leader with
    | some o => if kind = 2 then s1.memSend o .askLeave else s1.memSendParts o .askConfig (s1.gate.cfgs[slotFin (1 - s1.gate.cfgIn)])
    | none => s1

/-- CONFIG_STAGE (R411): `ok` says that the certificate chain and signature verify; `data` is the host buffer. -/
def configStage (s : State) (m : Fin 16) (data : Bytes) (ok : Bool) : State := mailbox s m 0x201 12 (fun t o =>
  let n := leAt o 8 4
  if !t.inRegion (leAt o 0 8) n then t.respond m 8 []
  else if t.changePending then t.respond m 5 []
  else if !t.member then t.respond m 10 []
  else
    let t1 := t.dmaIn (leAt o 0 8) n
    let d := padTo n data
    if !(ok && Img.sound d && decide (n ≤ 2 ^ 20)) then t1.respond m 6 []
    else (t1.storeImage d).holdFor m 1)

/-- LEAVE. -/
def leave (s : State) (m : Fin 16) : State := mailbox s m 0x202 0 (fun t _ =>
  if t.changePending then t.respond m 5 []
  else if !t.member then t.respond m 10 []
  else (if t.isLeader then t.modMb (fun b => { b with nextRem := b.nextRem ++ [t.dev] }) else t).holdFor m 2)

/-- REJOIN (R327, R392). -/
def rejoin (s : State) (m : Fin 16) : State := mailbox s m 0x203 0 (fun t _ =>
  if t.lifecycle ≠ 1 then t.respond m 4 []
  else if t.changePending then t.respond m 5 []
  else if t.member then t.respond m 0 []
  else ((t.modMb (fun b => { b with joining := true })).modBox m (fun b => { b with held := 3 })).sendJoin)

/-! ## Readings and the log (R376, R380, R382) -/

/-- The 64 bytes of a log record (R380). -/
def LogRec.toBytes (r : LogRec) : Bytes :=
  leBytes 8 r.seq ++ leBytes 8 r.time ++ leBytes 2 r.code ++ leBytes 1 r.flags ++ leBytes 1 r.source ++ leBytes 4 r.steplo ++ leBytes 4 r.epochlo ++ padTo 36 r.args

/-- Every weighbridge register in offset order. -/
def State.readings (s : State) : Bytes :=
  (List.range 72).flatMap (fun i => leBytes 8 (s.rn (R.GH_WB_TEMP i))) ++ (List.range 36).flatMap (fun i => leBytes 8 (s.rn (R.GH_WB_VOLT i)))
    ++ (List.range 16).flatMap (fun i => leBytes 8 (s.rn (R.GH_WB_CURR i))) ++ leBytes 8 (s.rn R.GH_WB_POWER)

/-- SENSORS. -/
def sensors (s : State) (m : Fin 16) : State := mailbox s m 0x300 0 (fun t _ => t.respond m 0 t.readings)

/-- LOG_READ. -/
def logRead (s : State) (m : Fin 16) : State := mailbox s m 0x400 20 (fun t o =>
  let rs := (t.log.reverse.filter (fun r => decide (leAt o 0 8 ≤ r.seq))).take (leAt o 8 4)
  let a := leAt o 12 8
  if !t.inRegion a (64 * rs.length) then t.respond m 8 []
  else (t.dmaOut a (rs.flatMap LogRec.toBytes)).respond m 0
    (leBytes 8 ((rs.head?.map (·.seq)).getD 0) ++ leBytes 4 rs.length ++ leBytes 8 ((t.log.head?.map (·.seq)).getD 0)))

/-- LOG_FLUSH. -/
def logFlush (s : State) (m : Fin 16) : State := mailbox s m 0x401 0 (fun t _ => t.flushLog.respond m 0 [])

/-- LOG_FLASH_READ. -/
def logFlashRead (s : State) (m : Fin 16) : State := mailbox s m 0x402 8 (fun t o =>
  let b := t.flashLog.reverse.flatMap LogRec.toBytes
  if !t.inRegion (leAt o 0 8) 65536 then t.respond m 8 [] else (t.dmaOut (leAt o 0 8) b).respond m 0 [])

/-! ## Firmware (R384 to R388) -/

/-- An image written into the slot that does not run and verified (R384, R386): the status (0, 6, 7). `sig` says that the signature verifies under
ROOT_KEY. The slot is valid once `State.fwValid` records it. -/
def State.stageFw (s : State) (source : Nat) (data : Bytes) (sig : Bool) : State × Nat :=
  let i := slotFin (1 - s.runSlot)
  let st := if !(sig && fwSound data && s.rootOk data) then 6 else if fwSvn data < s.rfld R.FZ_ARB 5 0 then 7 else 0
  let s1 := s.modGate (fun g => { g with slots := g.slots.set i { image := data, valid := false } })
  (if st = 0 then s1 else s1.ev 0xB10 0xFF (leBytes 1 source ++ leBytes 1 st), st)

/-- A mailbox request has staged an image: the response, and at DONE the slot's validity (R386, R397). -/
def State.staged (s : State) (m : Fin 16) (source : Nat) (data : Bytes) (sig : Bool) : State :=
  let r := s.stageFw source data sig
  (r.1.respond m r.2 []).modBox m (fun b => { b with stage := r.2 == 0 })

/-- Does a firmware command run on another pair than `m` (R397)? -/
def State.fwBusy (s : State) (m : Option (Fin 16)) : Bool := (List.finRange 16).any (fun k => some k != m && (s.box k).fw)

/-- A firmware command (0x0500 to 0x0503): status 5 while another path runs one (R397). -/
def fwRow (s : State) (m : Fin 16) (op len : Nat) (f : State → Bytes → State) : State := mailbox s m op len (fun t o =>
  if t.fwBusy (some m) then t.respond m 5 [] else (f t o).modBox m (fun b => { b with fw := true }))

/-- FW_STAGE (R386). -/
def fwStage (s : State) (m : Fin 16) (data : Bytes) (sig : Bool) : State := fwRow s m 0x500 12 (fun t o =>
  let n := leAt o 8 4
  if 1536 * 1024 < n then t.respond m 3 []
  else if !t.inRegion (leAt o 0 8) n then t.respond m 8 []
  else (t.dmaIn (leAt o 0 8) n).staged m 0 (padTo n data) sig)

/-- FW_STAGE_PEER (R386): the member is asked for its running image, whose parts come on VC7; the row again, once the whole image is there or its 60 s
(R376) are over, stages what has come. -/
def fwStagePeer (s : State) (m : Fin 16) (sig : Bool) : State := fwRow s m 0x501 2 (fun t o =>
  let d := leAt o 0 2
  match t.gate.peer with
  | some x =>
    if x.whole || decide (x.since + 60000000 ≤ t.us) then (t.modGate (fun g => { g with peer := none })).staged m 1 x.data sig else t
  | none =>
    if !t.member then t.respond m 10 []
    else if !t.allMembers.contains d then t.respond m 3 []
    else (t.memSend d .imageAsk).modGate (fun g => { g with peer := some { src := d, since := t.us } }))

/-- FW_ACTIVATE (R387). -/
def fwActivate (s : State) (m : Fin 16) : State := fwRow s m 0x502 0 (fun t _ =>
  let n := 1 - t.runSlot
  let x := t.gate.slots[slotFin n]
  if !x.valid then t.respond m 3 []
  else ((t.setBoot { t.boot with active := n, trial := true, tries := 3 }).ev 0xB11 0xFF (leBytes 1 n ++ leBytes 4 (fwVersion x.image) ++ leBytes 1 (fwSvn x.image))).respond m 0 [])

/-- FW_CONFIRM (R388). -/
def fwConfirm (s : State) (m : Fin 16) : State := fwRow s m 0x503 1 (fun t o =>
  let adv := leAt o 0 1
  if 1 < adv then t.respond m 3 []
  else if !t.onTrial then t.respond m 4 []
  else
    let t1 := (t.setBoot { t.boot with trial := false }).setFld R.GH_STATUS 9 9 0
    let svn := t1.rfld R.GH_FW 39 32
    let t2 := if adv = 1 ∧ t1.rfld R.FZ_ARB 5 0 < svn then
        (t1.setFld R.FZ_ARB 5 0 svn).ev 0xB13 0xFF (leBytes 4 (t1.rfld R.GH_FW 31 0) ++ leBytes 1 svn)
      else t1
    t2.respond m 0 [])

/-- The boot record, the header of each slot, the counter. -/
def State.fwState (s : State) : Bytes :=
  let r := s.boot
  leBytes 1 r.active ++ leBytes 1 (b2n r.trial) ++ leBytes 1 r.tries ++ leBytes 1 r.cfg
    ++ padTo 512 (s.gate.slots[slotFin 0]).image ++ padTo 512 (s.gate.slots[slotFin 1]).image ++ leBytes 1 (s.rfld R.FZ_ARB 5 0)

/-- FW_STATUS. -/
def fwStatus (s : State) (m : Fin 16) : State := mailbox s m 0x504 0 (fun t _ => t.respond m 0 t.fwState)

/-! ## Lifecycle (R392) -/

/-- An advance by a token whose target is `next`; `ok` says that the token verifies, or in TEST that production test advances it (log 105). The
status. -/
def State.lifeAdvance (s : State) (next : Nat) (ok : Bool) : State × Nat :=
  let l := s.lifecycle
  if !((l == 0 && next == 1) || (l == 1 && (next == 2 || next == 3)) || (l == 2 && next == 3)) then (s, 4)
  else if !ok then (s, 6)
  else
    let s1 := (s.setFld R.FZ_LIFECYCLE 1 0 next).setFld R.GH_STATUS 4 4 0
    let s2 := if next = 2 then s1.modGate (fun g => { g with owner := none }) else s1
    (s2.ev 0xB40 0xFF (leBytes 1 l ++ leBytes 1 next), 0)

/-- LIFECYCLE: the token lies in host memory. -/
def lifecycleCmd (s : State) (m : Fin 16) (next : Nat) (ok : Bool) : State := mailbox s m 0x700 8 (fun t o =>
  if !t.inRegion (leAt o 0 8) 256 then t.respond m 8 []
  else let r := (t.dmaIn (leAt o 0 8) 256).lifeAdvance next ok; r.1.respond m r.2 [])

/-! ## The monitor (R393, R394) -/

/-- The last line of a reply in ASCII (R393): "ok" or "err n". -/
def endLine (status : Nat) : Bytes :=
  let digits : List Nat := if status < 10 then [48 + status] else [48 + status / 10, 48 + status % 10]
  (if status = 0 then [111, 107] else [101, 114, 114, 32] ++ digits).map (BitVec.ofNat 8)
/-- A reply of the monitor: what it prints, and the line that ends it. -/
def State.print (s : State) (b : Bytes) (status : Nat) : State := s.emit (.monitor b (endLine status))
/-- Is the service set open (R392, R394, R416)? In PRODUCTION it needs profile 3. -/
def State.service (s : State) : Bool :=
  s.lifecycle == 0 || (s.rbit R.GH_STATUS 4 && (s.lifecycle == 2 || (s.lifecycle == 1 && s.rfld R.GH_STATUS 17 16 == 3)))
/-- A command of the service set. -/
def monService (s : State) (f : State → State) : State := if s.service then f s else s.print [] 4

/-- ID. -/
def monId (s : State) : State := s.print s.identity 0
/-- STATUS: stage, profile, lifecycle, slots, boot record. -/
def monStatus (s : State) : State :=
  s.print (leBytes 1 s.stage ++ leBytes 1 (s.rfld R.GH_STATUS 17 16) ++ leBytes 1 s.lifecycle
    ++ leBytes 1 (b2n (s.gate.slots[slotFin 0]).valid) ++ leBytes 1 (b2n (s.gate.slots[slotFin 1]).valid) ++ s.fwState.take 4) 0
/-- LOG. -/
def monLog (s : State) (n : Nat) : State := if 1024 < n then s.print [] 3 else s.print ((s.log.take n).reverse.flatMap LogRec.toBytes) 0
/-- SENS. -/
def monSens (s : State) : State := s.print s.readings 0
/-- FWLOAD (R386, R397). -/
def monFwload (s : State) (data : Bytes) (sig : Bool) : State :=
  if s.fwBusy none then s.print [] 5 else
    let r := s.stageFw 2 (data.take (1536 * 1024)) sig
    (if r.2 = 0 then r.1.fwValid else r.1).print [] r.2
/-- BOOT. -/
def monBoot (s : State) (n : Nat) : State :=
  if 1 < n ∨ !(s.gate.slots[slotFin n]).valid then s.print [] 3 else (s.setBoot { s.boot with active := n, trial := false }).print [] 0
/-- RESET. -/
def monReset (s : State) (kind : Nat) : State :=
  if 1 < kind then s.print [] 3 else (s.print [] 0).resetKind kind
/-- UNLOCK: a challenge of 48 bytes, unless three failures locked it. -/
def monUnlock (s : State) : State :=
  if 3 ≤ s.gate.fails then s.print [] 4
  else
    let c := freeBytes s.freeCtr 48
    (({ s with freeCtr := s.freeCtr + 48 } : State).modGate (fun g => { g with challenge := some c })).print c 0
/-- RESP: `ok` says that the service certificate and the signature verify; `serial` is the certificate's serial number. -/
def monResp (s : State) (ok : Bool) (serial : Nat) : State :=
  if !((s.lifecycle == 1 && s.rfld R.GH_STATUS 17 16 == 3) || s.lifecycle == 2) then s.print [] 4
  else
    match s.gate.challenge with
    | none => s.print [] 6
    | some _ =>
      let s1 := s.modGate (fun g => { g with challenge := none })
      if ok then (((s1.setFld R.GH_STATUS 4 4 1).modGate (fun g => { g with everUnlocked := true })).ev 0xB30 0xFF (leBytes 8 serial)).print [] 0
      else ((s1.modGate (fun g => { g with fails := g.fails + 1 })).ev 0xB31 0xFF (leBytes 4 (s.gate.fails + 1))).print [] 6
/-- LOCK. -/
def monLock (s : State) : State := (s.setFld R.GH_STATUS 4 4 0).print [] 0
/-- LC. -/
def monLc (s : State) (next : Nat) (ok : Bool) : State := let r := s.lifeAdvance next ok; r.1.print [] r.2
/-- FUSES: the fuse map without the identity seed (R408). -/
def monFuses (s : State) : State := monService s (fun t =>
  t.print ([R.FZ_SERIAL, R.FZ_PART 0, R.FZ_PART 1, R.FZ_CEIL, R.FZ_ARB, R.FZ_LIFECYCLE, R.FZ_PCI].flatMap (fun a => leBytes 8 (t.rn a))
    ++ (List.range 6).flatMap (fun i => leBytes 8 (t.rn (R.FZ_ROOTKEY i)))) 0)

/-- Is a bench idle for a test (R432): every queue empty and no run on its gang? A bench whose domain is off can run none (DESIGN CHOICE, log 107). -/
def State.benchIdle (s : State) (b : Fin 24) : Bool :=
  let x := s.bench b
  x.q.cmds.isEmpty && x.mu.cmds.isEmpty && x.cr.cmds.isEmpty && x.tiles.isEmpty && x.drained.isEmpty && x.muRun.isNone && x.crRun.isNone
    && (List.range 2).all (fun i => let d := s.dk (dkOf b i); d.q.cmds.isEmpty && d.runs.isEmpty) && !s.runs.any (fun r => r.mask.testBit b) && !s.benchDark b

/-- TEST (R432): `fail` is the first test that fails, with its expected and received words. -/
def monTest (s : State) (b : Fin 24) (fail : Option (Nat × Nat × Nat)) : State := monService s (fun t =>
  if !t.benchIdle b then t.print [] 5
  else
    match fail with
    | none => t.print [] 0
    | some f => ((t.ev 0x142 b (leBytes 1 b ++ leBytes 2 f.1 ++ leBytes 8 f.2.1 ++ leBytes 8 f.2.2)).fence b 4 []).print [] 0)

/-! ## Sensors (R377, R404) -/

/-- SENSOR_FAILED, once for each sensor (R377). -/
def State.sensorFail (s : State) (cls i : Nat) : State :=
  if s.pwr.failed.contains (cls, i) then s
  else (s.ev 0xC05 0xFF (leBytes 1 cls ++ leBytes 1 i)).modPwr (fun p => { p with failed := p.failed ++ [(cls, i)] })

/-- Does every working sensor of a range lie below THROTTLE − 5 °C? -/
def State.below (s : State) (l : List Nat) (lim : Nat) : Bool :=
  l.all (fun i => s.rfld (R.GH_WB_TEMP i) 15 0 == 0x8000 || decide (s.temp i < (s.rfld lim 15 8 : Nat) * 16 - 80))

/-- The sensors whose readings end one throttle (R404): stack k, or the die, which is 8. -/
def State.coolNow (s : State) (k : Nat) : Bool := if k = 8 then s.below (List.range 64) R.PW_THERM else s.below [64 + k] R.PW_STACK_THERM
/-- A sample of sensor i keeps the time since which the readings that end its throttle have been below THROTTLE − 5 °C. -/
def State.noteCool (s : State) (i : Nat) : State :=
  let k := if i < 64 then 8 else i - 64
  if !s.coolNow k then s.modPwr (fun p => { p with cool := p.cool.filter (fun e => e.1 != k) })
  else if s.pwr.cool.any (fun e => e.1 == k) then s
  else s.modPwr (fun p => { p with cool := p.cool ++ [(k, s.us)] })
/-- Have they been below it for 1 ms? -/
def State.cooledFor (s : State) (k : Nat) : Bool := s.coolNow k && s.pwr.cool.any (fun e => e.1 == k && decide (e.2 + 1000 ≤ s.us))

/-- A temperature sample: the reading, the peak, and the crossings of R404; none where the sensor fails its self-check. -/
def tempSample (s : State) (i : Fin 72) (v : Option Nat) : State :=
  let a := R.GH_WB_TEMP i
  match v with
  | none => ((s.setFld a 15 0 0x8000).sensorFail (if i.val < 64 then 0 else 1) i).noteCool i
  | some r =>
    let now := r % 65536
    let t := signed 16 now
    let pk := if signed 16 (s.rfld a 31 16) < t then now else s.rfld a 31 16
    let s1 := s.setFld a 31 0 (pk * 65536 + now)
    let lim := if i.val < 64 then R.PW_THERM else R.PW_STACK_THERM
    let warn : Int := (s.rfld lim 23 16 : Nat) * 16
    let thr : Int := (s.rfld lim 15 8 : Nat) * 16
    let items := leBytes 1 i ++ leBytes 2 now
    let hot := s.pwr.warn.contains i.val
    let s2 := if !hot && decide (warn < t) then (s1.ev 0xC10 0xFF items).modPwr (fun p => { p with warn := p.warn ++ [i.val] })
      else if hot && decide (t < warn - 80) then s1.modPwr (fun p => { p with warn := p.warn.filter (· != i.val) }) else s1
    (if t ≤ thr then s2
    else if i.val < 64 then (if s2.pwr.throttle then s2 else ((s2.ev 0xC11 0xFF items).modPwr (fun p => { p with throttle := true })).showDuty)
    else if s2.pwr.hot.contains (i.val - 64) then s2 else s2.modPwr (fun p => { p with hot := p.hot ++ [i.val - 64] })).noteCool i

/-- A voltage sample, in mV. -/
def voltSample (s : State) (d : Fin 36) (v : Option Nat) : State :=
  let a := R.GH_WB_VOLT d
  match v with
  | none => (s.setFld a 15 0 0xFFFF).sensorFail 2 d
  | some r =>
    let now := r % 65536
    s.setFld a 47 0 (max (s.rfld a 47 32) now * 2 ^ 32 + min (s.rfld a 31 16) now * 65536 + now)

/-- The rated limit of a rail in mA (R444). -/
def railLimit (r : Fin 16) : Nat :=
  (#v[32000, 1500, 480000, 480000, 150000, 150000, 60000, 60000, 80000, 80000, 12000, 12000, 80000, 80000, 20000, 3000] : Vector Nat 16)[r]

/-- POWER_CLAMPED, logged where CLAMPED sets, at most once a second (R403). -/
def State.clampNote (s : State) (was : Nat) (watts : Nat) : State :=
  if decide (was = 64) && decide (s.pwr.duty < 64) && (match s.pwr.clampLog with | some t => decide (t + 1000000 ≤ s.us) | none => true) then
    (s.ev 0xC01 0xFF (leBytes 2 (s.rfld R.PW_CLAMP 15 0) ++ leBytes 2 watts)).modPwr (fun p => { p with clampLog := some s.us })
  else s

/-- RAIL_OVERCURRENT (R403): a current above the rail's limit halves the duty; a failed current sensor takes no part (R377). -/
def railOver (s : State) (r : Fin 16) (ma : Nat) : State :=
  if s.pwr.failed.contains (3, r.val) || decide (ma ≤ railLimit r) then s
  else
    (((s.ev 0xC04 0xFF (leBytes 1 r ++ leBytes 4 ma)).modPwr (fun p => { p with duty := min 32 p.duty, below := 0 })).clampNote s.pwr.duty (s.rfld R.GH_WB_POWER 15 0)).showDuty

/-- A sensor of the main input has failed (R377): WATTS reads 0xFFFF, and the clamp holds the duty at 32 or below. -/
def State.mainSensorFail (s : State) : State :=
  (((s.setFld R.GH_WB_POWER 15 0 0xFFFF).modPwr (fun p => { p with mainFail := true, duty := min 32 p.duty, below := 0, floor := some 0 })).clampNote s.pwr.duty 0xFFFF).showDuty

/-- A current sample, in mA, with the rail's limit (R403, R444); a failed sensor of the main input holds the duty (R377). -/
def currSample (s : State) (r : Fin 16) (v : Option Nat) : State :=
  let a := R.GH_WB_CURR r
  match v with
  | none =>
    let s1 := (s.setFld a 31 0 (2 ^ 32 - 1)).sensorFail 3 r
    if r.val = 0 then s1.mainSensorFail else s1
  | some n => let now := n % 2 ^ 32; railOver (s.setFld a 63 0 (max (s.rfld a 63 32) now * 2 ^ 32 + now)) r now

/-- SENSOR_SAMPLE (R377). -/
def sensorSample (s : State) (x : Sensor) (v : Option Nat) : State :=
  match x with
  | .temp i => tempSample s i v
  | .volt d => voltSample s d v
  | .curr r => currSample s r v

/-- THROTTLE_END (R404): the die throttle, or that of a stack, ends after 1 ms below THROTTLE − 5 °C. -/
def throttleEnd (s : State) (stack : Option (Fin 8)) : State :=
  match stack with
  | none => if s.cooledFor 8 then (s.modPwr (fun p => { p with throttle := false })).showDuty else s
  | some k => if s.cooledFor k then s.modPwr (fun p => { p with hot := p.hot.filter (· != k.val) }) else s

/-- GH_WB_TEMP_READ (R398). -/
def wbTempRead (s : State) (i : Fin 72) : State :=
  let a := R.GH_WB_TEMP i
  (s.emit (.readVal a (s.rn a))).setFld a 31 16 (s.rfld a 15 0)
/-- GH_WB_VOLT_READ (R398). -/
def wbVoltRead (s : State) (d : Fin 36) : State :=
  let a := R.GH_WB_VOLT d
  let n := s.rfld a 15 0
  (s.emit (.readVal a (s.rn a))).setFld a 47 16 (n * 65536 + n)
/-- GH_WB_CURR_READ (R398). -/
def wbCurrRead (s : State) (r : Fin 16) : State :=
  let a := R.GH_WB_CURR r
  (s.emit (.readVal a (s.rn a))).setFld a 63 32 (s.rfld a 31 0)

/-! ## The clamp (R403) -/

/-- CLAMP_TICK (R378, R403): 10 µs have passed, with this voltage of the main input in mV; none where its sensor fails (R377). The power is its product
with the main input's current. -/
def clampTick (s : State) (mv : Option Nat) : State :=
  let s0 := if s.pwr.duty < 64 then s.addReg R.PW_CLAMP_US 10 else s
  let s1 := if s.pwr.throttle then s0.addReg R.PW_THROTTLE_US 10 else s0
  match (if s1.pwr.mainFail then none else mv) with
  | none => s1.mainSensorFail
  | some v =>
    let w := min (v * s1.rfld (R.GH_WB_CURR 0) 31 0 / 1000000) 0xFFFE
    let cl := s1.rfld R.PW_CLAMP 15 0
    let p := s1.pwr
    let fl := if p.duty = 16 ∧ cl < w then p.floor.map (· + 10) else some 0
    let p1 : Pwr :=
      if cl < w then { p with duty := max 16 (p.duty - 1), below := 0 }
      else if w * 100 < cl * 98 then
        (if 100 ≤ p.below + 10 then { p with duty := min 64 (p.duty + 1), below := 0 } else { p with below := p.below + 10 })
      else { p with below := 0 }
    (((s1.setFld R.GH_WB_POWER 15 0 w).modPwr (fun _ => { p1 with floor := fl })).clampNote p.duty w).showDuty

/-- POWER_CLAMP_UNMET (R403): the duty has stayed at 16 for 1 ms with the power above the clamp; once for each such stay. -/
def clampUnmet (s : State) : State :=
  let w := s.rfld R.GH_WB_POWER 15 0
  let cl := s.rfld R.PW_CLAMP 15 0
  if s.pwr.duty = 16 ∧ cl < w ∧ s.pwr.floor.any (fun n => decide (1000 ≤ n)) then
    ((s.modPwr (fun p => { p with floor := none })).setFld R.PW_STATUS 3 3 1).ev 0xC03 0xFF (leBytes 2 cl ++ leBytes 2 w)
  else s

/-! ## Phase records (R300, R379) -/

/-- GH_PHASE_CFG_WRITE (R379). -/
def phaseCfgWrite (s : State) (v : Nat) : State :=
  let on := v.testBit 31
  let n := bits v 4 0
  let s1 := if on && !s.rbit R.GH_PHASE_CFG 31 then s.setRn R.GH_PHASE_SEQ 0 else s
  let s2 := s1.setFld R.GH_PHASE_CFG 31 31 (b2n on)
  if 8 ≤ n ∧ n ≤ 16 then s2.setFld R.GH_PHASE_CFG 4 0 n else s2

/-- The counters as they stand (R300, R379). -/
def State.capture (s : State) (b : Fin 24) (first : Bool) : Capture :=
  let l := List.range 10
  { first := first, vals := l.map (fun i => s.rn (R.BN_STALL b i)) ++ l.map (fun i => s.rn (R.CC_STALL b i)) ++ l.map (fun i => s.rn (R.DK_STALL (dkOf b 0) i)) ++ l.map (fun i => s.rn (R.DK_STALL (dkOf b 1) i)),
    time := s.time / 13 }

/-- The capture at the start of a run, for its first mark. -/
def State.captureRun (s : State) (mask : Nat) : State :=
  (gang mask).foldl (fun (t : State) (b : Fin 24) => t.modGate (fun g => { g with caps := g.caps.set b (some (t.capture b true)) })) s

/-- A phase record from two captures. -/
def phaseBytes (mk : Mark) (b seq : Nat) (c0 c1 : Capture) : Bytes :=
  let sat := fun (x : Nat) => min x (2 ^ 32 - 1)
  let ds := (List.zipWith (fun x y => (y + 2 ^ 64 - x) % 2 ^ 64) c0.vals c1.vals)
  let dt := c1.time - c0.time
  let wrap := ds.any (fun x => decide (2 ^ 32 ≤ x)) || decide (2 ^ 32 ≤ dt)
  leBytes 8 mk.step ++ leBytes 4 seq ++ leBytes 1 mk.code ++ leBytes 1 b ++ leBytes 2 (b2n c0.first + 2 * b2n wrap)
    ++ leBytes 8 ((ds.take 10).foldl (· + ·) 0) ++ ds.flatMap (fun x => leBytes 4 (sat x)) ++ leBytes 4 (sat dt) ++ leBytes 4 0

/-- PHASE_MARK_TAKEN (R300, R379): the core's oldest mark, once every command pushed before it has been dispatched. -/
def phaseMark (s : State) (b : Fin 24) : State :=
  match (s.core b).marks with
  | [] => s
  | mk :: rest =>
    if !mk.need.all s.dispatched then s
    else
      let c1 := s.capture b false
      let c0 := (s.gate.caps[b]).getD { first := true, vals := List.replicate 40 0, time := 0 }
      let s1 := (s.modCore b (fun x => { x with marks := rest })).modGate (fun g => { g with caps := g.caps.set b (some c1) })
      if !s.rbit R.GH_PHASE_CFG 31 then s1
      else
        let q := s.rn R.GH_PHASE_SEQ
        let a := s.rfld R.GH_PHASE_BASE 47 6 * 64 + 192 * (q % 2 ^ s.rfld R.GH_PHASE_CFG 4 0)
        ((if inLocal a 192 then s1.write a (phaseBytes mk b q c0 c1) else s1)).setRn R.GH_PHASE_SEQ ((q + 1) % 2 ^ 32)

end Sys2Proof.Machine
end

