-- ==== Sys2Proof/Machine/Registers.lean ====
section
/-! DEFINITION. Accesses to register space (R7, R8, R238, R239): what each register shows, and what a read or a write of it does. -/
namespace Sys2Proof.Machine

/-! ## What a register shows -/

/-- BN_STATUS (R114). -/
def State.bnStatus (s : State) (b : Fin 24) : Nat :=
  let x := s.bench b
  x.q.cmds.length * 2 ^ 24 + b2n (x.commitReg || x.commitCmd) * 2 ^ 11 + b2n x.fenced * 2 ^ 10 + x.q.cause % 8 * 2 ^ 7 + b2n x.q.halted * 64
    + x.tiles.length % 4 * 16 + b2n (!x.shadow.isEmpty) * 8 + b2n x.entering?.isSome * 4

/-- BN_PLANE(n) (R114). -/
def State.bnPlane (s : State) (b : Fin 24) (n : Nat) : Nat :=
  let x := s.bench b
  let p := x.plane n
  b2n (x.planeActive n) * 512 + b2n p.valid * 256 + p.pfmt % 16 * 16 + p.tag % 16

/-- DR_STATUS (R134): a row is in the dresser pipeline only within DRESSER_ROW. -/
def State.drStatus (s : State) (b : Fin 24) : Nat :=
  let x := s.bench b
  let wait := match x.shadow.head? with
    | some r => (match x.tile? r.tile with | some t => decide (t.drain = .waiting) | none => false)
    | none => false
  b2n (tbusy s b 1) * 8 + b2n (tbusy s b 0) * 4 + b2n wait * 2

/-- MU_STATUS (R157). -/
def State.muStatus (s : State) (b : Fin 24) : Nat :=
  let x := s.bench b
  x.mu.cmds.length * 2 ^ 24 + x.mu.cause % 4 * 4 + b2n x.mu.halted * 2 + b2n x.muRun.isSome

/-- CR_STATUS (R182). -/
def State.crStatus (s : State) (b : Fin 24) : Nat :=
  let x := s.bench b
  x.cr.cmds.length * 2 ^ 24 + x.cr.cause % 8 * 4 + b2n x.cr.halted * 2 + b2n (x.crRun.isSome || x.crWait)

/-- DK_STATUS (R270); a tag is outstanding for each line asked of a peer. -/
def State.dkStatus (s : State) (d : Fin 48) : Nat :=
  let x := s.dk d
  x.q.cmds.length * 2 ^ 24 + min (s.tagsOf (96 + d)) 256 * 2 ^ 15 + x.q.cause % 8 * 16 + b2n x.q.halted * 2 + b2n (!x.runs.isEmpty)

/-- CC_STATUS (R302). -/
def State.ccStatus (s : State) (b : Fin 24) : Nat :=
  let x := s.core b
  x.ctx % 64 * 2 ^ 26 + x.handle % 65536 * 2 ^ 10 + x.cause % 8 * 16 + x.st % 4

/-- UE_STATUS (R234). -/
def State.ueStatus (s : State) (k : Fin 8) : Nat :=
  let x := s.ue k
  x.q.cmds.length * 2 ^ 24 + x.q.cause % 4 * 4 + b2n x.q.halted * 2 + b2n x.run.isSome

/-- UE_VT_STATUS (R207). -/
def State.vtStatus (s : State) (k : Fin 8) : Nat :=
  let n := (s.regions.filter (fun e => regionStack e.1 == k.val)).length
  let w := match (s.ue k).run with
    | some r => (match r.phase with | .slotWait _ => true | _ => false)
    | none => false
  n * 65536 + b2n w

/-- CL_STATUS (R358). -/
def State.clStatus (s : State) (u : Fin 4) : Nat :=
  let x := s.coll u
  x.q.cmds.length * 2 ^ 24 + x.runs.length % 8 * 2 ^ 16 + x.q.cause % 8 * 16 + b2n x.q.halted * 2 + b2n (!x.runs.isEmpty)

/-- LK_STATUS (R330). -/
def State.lkStatus (s : State) (p : Fin 16) : Nat :=
  let x := s.port p
  x.qcause % 8 * 2 ^ 16 + b2n x.localGrant * 2 ^ 13 + b2n x.remoteGrant * 2 ^ 12 + x.lanes % 16 * 256 + x.width % 4 * 16 + x.st.code

/-- A register of a bench window at offset o, read as 8 bytes: for an RWS register, its stage bank. -/
def State.viewBenchHome (s : State) (b : Fin 24) (o : Nat) : Nat :=
  let a := BN.base b + o
  if s.benchDark b then (if o = 0x10 then 2 ^ 10 + 7 * 2 ^ 7 + 64 else 0)
  else if o = 0x10 then s.bnStatus b
  else if o = 0x140 then s.bnPlane b 0
  else if o = 0x148 then s.bnPlane b 1
  else if o = 0x408 then s.rn (R.BN_FLAGS b)
  else if o = 0x1010 then s.muStatus b
  else if o = 0x2008 then s.crStatus b
  else if o = 0x3008 then s.dkStatus (dkOf b 0)
  else if o = 0x4008 then s.dkStatus (dkOf b 1)
  else if o = 0x6010 then s.ccStatus b
  else if o = 0x6028 then (s.core b).pc
  else if o = 0x6030 then (s.core b).topPos
  else if 0x6100 ≤ o ∧ o < 0x6200 then ((s.core b).g[Fin.ofNat 32 ((o - 0x6100) / 8)]).toNat
  else if 0x6200 ≤ o ∧ o < 0x6220 then ((s.core b).lc[Fin.ofNat 4 ((o - 0x6200) / 8)]).toNat
  else if 0x6240 ≤ o ∧ o < 0x6260 then
    let l := (s.core b).loops[Fin.ofNat 4 ((o - 0x6240) / 8)]
    b2n l.active * 2 ^ 63 + l.stop
  else if 0x6260 ≤ o ∧ o < 0x6280 then ((s.core b).loops[Fin.ofNat 4 ((o - 0x6260) / 8)]).start
  else if 0x7000 ≤ o ∧ o < 0x7800 then s.syncVal ((o - 0x7000) / 8)
  else if o = 0x8008 then s.drStatus b
  else if benchRws.contains o then bits (s.rn a) 63 0 &&& rwsMask o
  else if o = 0x8000 then s.rn a &&& 0xC000FFFF
  else s.rn a

/-- Is a bench offset that of an RWS register (R105, R134)? -/
def isRws (o : Nat) : Bool := benchRws.contains o || o == 0x8000

/-- A register of a bench window at offset o, or its active-bank view: that shows the active bank of RWS fields and the current value of
every other field (R105). -/
def State.viewBench (s : State) (b : Fin 24) (o : Nat) : Nat :=
  if isActView (BN.base b + o) then
    let h := o - 0x800
    if s.benchDark b || !isRws h then s.viewBenchHome b h
    else if h = 0x410 then putBits (s.rn (BN.base b + o)) 11 8 (s.rfld (R.BN_FLAG_CFG b) 11 8)
    else s.rn (BN.base b + o)
  else s.viewBenchHome b o

/-- A register of the UE(k) block at offset o; a stack that is out of service reads 0 (R225). -/
def State.viewUe (s : State) (k : Fin 8) (o : Nat) : Nat :=
  if !s.stackUp k then 0
  else if o = 0x8 then s.ueStatus k
  else if o = 0x4008 then s.vtStatus k
  else if 0x4100 ≤ o ∧ o < 0x4300 ∧ o % 16 = 0 then 0
  else s.rn (UE.base k + o)

/-- The 8 bytes of the register at an 8-byte address; a reserved offset reads 0 (R239). -/
def State.view (s : State) (a : Nat) : Nat :=
  if (regHome a).isNone then 0
  else if a < BN.base 24 then s.viewBench (Fin.ofNat 24 ((a - BN.base 0) / 0x10000)) ((a - BN.base 0) % 0x10000)
  else if a = R.SP_JOBKEY 0 ∨ a = R.SP_JOBKEY 1 then 0
  else if a = R.SP_KEY_CTRL then b2n s.spall.valid * 2
  else if a = R.SP_CLAIMS then s.spall.high * 65536 + s.spall.entries.length
  else if UE.base 0 ≤ a ∧ a < UE.base 8 then s.viewUe (Fin.ofNat 8 ((a - UE.base 0) / 0x10000)) ((a - UE.base 0) % 0x10000)
  else if LK.base 0 ≤ a ∧ a < LK.base 16 ∧ (a - LK.base 0) % 0x4000 = 8 then s.lkStatus (Fin.ofNat 16 ((a - LK.base 0) / 0x4000))
  else if CL.base 0 ≤ a ∧ a < CL.base 4 ∧ (a - CL.base 0) % 0x10000 = 8 then s.clStatus (Fin.ofNat 4 ((a - CL.base 0) / 0x10000))
  else if a = R.CL_TALLY_LIVE then s.tally.length
  else if a = R.GH_STATUS then putBits (s.rn a) 14 12 s.lifecycle
  else if a = R.GH_FW then putBits (s.rn a) 47 40 (s.rfld R.FZ_ARB 5 0)
  else if a = R.GH_LOG_NEWEST then (s.log.head?.map LogRec.seq).getD 0
  else if a = R.GH_LOG_OLDEST then (s.log.getLast?.map LogRec.seq).getD 0
  else if a = R.GH_LOG_FLASHED then s.flashSeq
  else if a = R.GH_CM_STATE then putBits (s.rn a) 3 3 (b2n s.isCoord)
  else if a = R.GH_CM_COORD then s.coordinator.getD 0
  else if a = R.CK_TIME then s.us
  else s.rn a

/-- Bytes of the gatehouse's buffers and log window at an offset of its block (R372, R398): a place of the window that holds no record
reads 0 (DESIGN CHOICE, log 31). -/
def State.ghMem (s : State) (o n : Nat) : Option Bytes :=
  if 0x20000 ≤ o ∧ o < 0x40000 then some (s.ghBytes o n)
  else if 0x400000 ≤ o ∧ o < 0x800000 then
    let i := (o - 0x400000) / 64
    match s.log.find? (fun r => (r.seq - 1) % 65536 == i) with
    | some r => some ((r.toBytes.drop (o % 64)).take n)
    | none => some (List.replicate n 0)
  else none

/-! ## Reads -/

/-- The bits that an access of n bytes at a reaches in the register's 8 bytes (R239). -/
def accessMask (a n : Nat) : Nat := if n = 8 then 2 ^ 64 - 1 else if a % 8 = 0 then 2 ^ 32 - 1 else (2 ^ 32 - 1) * 2 ^ 32

/-- Is an access of 4 or 8 bytes naturally aligned in register space (R239)? -/
def regAccess (a n : Nat) : Bool := (n == 4 || n == 8) && decide (a % n = 0) && isRegSpace a

/-- What a read does to fields that clear or reload (R7): those that the access reaches. -/
def State.readEffect (s : State) (a m : Nat) : State :=
  let low := decide (m % 2 = 1)
  if a < BN.base 24 then
    let b := Fin.ofNat 24 ((a - BN.base 0) / 0x10000)
    if low && decide ((a - BN.base 0) % 0x10000 = 0x408) && !s.benchDark b then s.setRn (R.BN_FLAGS b) 0 else s
  else if a = R.SP_CLAIMS ∧ low then { s with spall := { s.spall with high := s.spall.entries.length } }
  else if a = R.SP_REFUSED then (if m = 2 ^ 64 - 1 then s.setRn a 0 else if low then s.setFld a 31 0 0 else s.setFld a 63 32 0)
  else if R.GH_WB_TEMP 0 ≤ a ∧ a < R.GH_WB_TEMP 72 ∧ low then s.setFld a 31 16 (s.rfld a 15 0)
  else if R.GH_WB_VOLT 0 ≤ a ∧ a < R.GH_WB_VOLT 36 then
    let s1 := if low then s.setFld a 31 16 (s.rfld a 15 0) else s
    if m.testBit 32 then s1.setFld a 47 32 (s.rfld a 15 0) else s1
  else if R.GH_WB_CURR 0 ≤ a ∧ a < R.GH_WB_CURR 16 ∧ m.testBit 32 then s.setFld a 63 32 (s.rfld a 31 0)
  else s

/-- A read of n bytes in register space (R239). -/
def State.regRead (s : State) (a n : Nat) : State × Nat :=
  if !regAccess a n then (s, 0)
  else
    match (if GH.base ≤ a then s.ghMem (a - GH.base) n else none) with
    | some b => (s, fromLe b)
    | none =>
      let a8 := a - a % 8
      let v := s.view a8
      (if (regAt a8).isSome then s.readEffect a8 (accessMask a n) else s, if n = 8 then v % 2 ^ 64 else v / 2 ^ (8 * (a % 8)) % 2 ^ 32)

/-! ## Writes -/

/-- A register's 8 bytes with the bits of `m` taken from v. -/
def mergeBits (old m v : Nat) : Nat := ((BitVec.ofNat 64 old &&& ~~~BitVec.ofNat 64 m) ||| (BitVec.ofNat 64 v &&& BitVec.ofNat 64 m)).toNat

/-- A queue's control bits in the order SKIP, RESUME, CNT_CLR, where one write sets several (DESIGN CHOICE, log 32). -/
def ctrlBits (s : State) (v skip resume clr : Nat) (fs fr fc : State → State) : State :=
  let s1 := if v.testBit skip then fs s else s
  let s2 := if v.testBit resume then fr s1 else s1
  if v.testBit clr then fc s2 else s2

/-- A write to a register with RWS fields (R105): it goes to the stage bank whole, reserved bits too, since the validation of R107 checks them. -/
def State.rwsWrite (s : State) (a m v : Nat) : State :=
  let w := match regAt a with
    | some r => if r.rws < 2 ^ 32 then m % 2 ^ 32 else m
    | none => 0
  s.setRn a (mergeBits (s.rn a) w v)

/-- A write to a register of a control core (R289, R301, R302); PC, TOPPOS, g and LC take it while the core is halted. -/
def State.ccWrite (s : State) (b : Fin 24) (o m v : Nat) : State :=
  let x := s.core b
  let halted := x.st == 3
  if o = 0x6008 then
    let s1 := if v.testBit 0 then ccResume s b else s
    let s2 := if v.testBit 1 then ccHaltReq s1 b else s1
    let s3 := if v.testBit 2 then ccStepArm s2 b else s2
    if v.testBit 3 then ccCntClr s3 b else s3
  else if o = 0x6028 then (if halted then s.modCore b (fun y => { y with pc := mergeBits y.pc m v % 2 ^ 48, work := {}, strm := none }) else s)
  else if o = 0x6030 then (if halted then s.modCore b (fun y => { y with topPos := mergeBits y.topPos m v % 2 ^ 32 }) else s)
  else if 0x6100 ≤ o ∧ o < 0x6200 then
    let i := Fin.ofNat 32 ((o - 0x6100) / 8)
    if halted && i != 0 then s.modCore b (fun y => { y with g := y.g.set i (BitVec.ofNat 64 (mergeBits (y.g[i]).toNat m v)) }) else s
  else if 0x6200 ≤ o ∧ o < 0x6220 then
    let i := Fin.ofNat 4 ((o - 0x6200) / 8)
    if halted then s.modCore b (fun y => { y with lc := y.lc.set i (BitVec.ofNat 64 (mergeBits (y.lc[i]).toNat m v)) }) else s
  else if 0x7000 ≤ o ∧ o < 0x7800 then
    let i := (o - 0x7000) / 8
    ccSyncWrite s i (mergeBits (s.syncVal i) m v)
  else s.accessWrite (BN.base b + o) m v

/-- A write to a register of a derrick (R270). -/
def State.dkRegWrite (s : State) (d : Fin 48) (o m v : Nat) : State :=
  if o = 0 then ctrlBits (s.accessWrite (R.DK_CTRL d) m v) v 2 1 3 (fun t => dkSkip t d) (fun t => dkResume t d) (fun t => dkCntClr t d)
  else s.accessWrite (DK.base d + o) m v

/-- A write to DR_TABLE: each 16-bit entry that it reaches (R123). -/
def State.tableWrite (s : State) (b : Fin 24) (o m v : Nat) : State :=
  let p := (o - 0x1000) / 0x2000
  let off := (o - 0x1000) % 0x2000
  let es := (List.range 4).filter (fun i => m.testBit (16 * i))
  if tbusy s b p then drTableWrite s b p (off + 2 * es.headD 0) 0
  else es.foldl (fun t i => drTableWrite t b p (off + 2 * i) (bits v (16 * i + 15) (16 * i))) s

/-- A write to a register of a bench window (R114, R134, R157, R182, R270, R302); a fenced bench ignores it (R426). -/
def State.benchWrite (s : State) (b : Fin 24) (o m v : Nat) : State :=
  if (s.bench b).out then s
  else if o = 0x8 then
    let s1 := ctrlBits s v 2 0 3 (fun t => bnSkip t b) (fun t => bnResume t b) (fun t => bnCntClr t b)
    if v.testBit 1 then bnHaltReq s1 b else s1
  else if o = 0x18 then (if v.testBit 0 then commitGo s b else s)
  else if o = 0x400 then bnFlagsClear s b v
  else if o = 0x1000 then (if m % 2 = 1 then muPassesWrite s b v else s)
  else if o = 0x1008 then ctrlBits s v 1 0 2 (fun t => muSkip t b) (fun t => muResume t b) (fun t => muCntClr t b)
  else if o = 0x2000 then ctrlBits s v 1 0 2 (fun t => crSkip t b) (fun t => crResume t b) (fun t => crCntClr t b)
  else if 0x3000 ≤ o ∧ o < 0x4000 then s.dkRegWrite (dkOf b 0) (o - 0x3000) m v
  else if 0x4000 ≤ o ∧ o < 0x5000 then s.dkRegWrite (dkOf b 1) (o - 0x4000) m v
  else if 0x6000 ≤ o ∧ o < 0x8000 then s.ccWrite b o m v
  else if o = 0x8010 then (if v.testBit 0 then drCntClr s b else s)
  else if 0x9000 ≤ o ∧ o < 0xD000 then s.tableWrite b (o - 0x8000) m v
  else if isRws o then s.rwsWrite (BN.base b + o) m v
  else s.accessWrite (BN.base b + o) m v

/-- A write to a register of the UE(k) block (R207, R211, R234, R251). -/
def State.ueWrite (s : State) (k : Fin 8) (o m v : Nat) : State :=
  let low := decide (m % 2 = 1)
  if !s.stackUp k then s
  else if o = 0 then ctrlBits s v 1 0 2 (fun t => ueSkip t k) (fun t => ueResume t k) (fun t => ueCntClr t k)
  else if 0x2100 ≤ o ∧ o < 0x2140 then
    let w := (o - 0x2100) / 8
    let s1 := s.accessWrite (R.UE_ATM_CFG k w) m v
    if v.testBit 29 then atmZero s1 k w else s1
  else if o = 0x4000 then (if low then vtCfgWrite s k v else s)
  else if o = 0x4010 then (if low then vtSelWrite s k v else s)
  else if o = 0x5020 then (if low then seamSelWrite s k v else s)
  else s.accessWrite (UE.base k + o) m v

/-- A write to a register of a port or of the router (R330). -/
def State.lkWrite (s : State) (p : Fin 16) (o m v : Nat) : State :=
  if o = 0 then
    let s1 := if m % 2 = 1 then lkEnable s p (v.testBit 0) else s
    let s2 := if v.testBit 1 then lkRetrain s1 p else s1
    if v.testBit 2 then lkCntClr s2 p else s2
  else s.accessWrite (LK.base p + o) m v

/-- A write to a register of a collective unit (R358). -/
def State.clWrite (s : State) (u : Fin 4) (o m v : Nat) : State :=
  let low := decide (m % 2 = 1)
  if o = 0 then ctrlBits s v 1 0 2 (fun t => clSkip t u) (fun t => clResume t u) (fun t => clCntClr t u)
  else if o = 0x1000 then (if low then tallySelWrite s v else s)
  else if o = 0x1038 then (if low then tallyRetire s v else s)
  else s.accessWrite (CL.base u + o) m v

/-- A write to a register of the HX block (R368, R371). -/
def State.hxWrite (s : State) (o m v : Nat) : State :=
  let a := HX.base + o
  if o = 0 then
    let s1 := s.accessWrite a m v
    if v.testBit 1 then hxCntClr s1 else s1
  else if 0x4000 ≤ o ∧ o < 0x5000 ∧ o % 64 = 8 then hxRbCfg s (Fin.ofNat 64 ((o - 0x4000) / 64)) (mergeBits (s.rn a) m v)
  else if 0x4000 ≤ o ∧ o < 0x5000 ∧ o % 64 = 24 then (if m % 2 = 1 then hxDb s (Fin.ofNat 64 ((o - 0x4000) / 64)) v else s)
  else if 0x8000 ≤ o ∧ o < 0xA000 then
    let s1 := s.setRn a (mergeBits (s.rn a) m v)
    if o % 16 = 8 then s1.flushVector ((o - 0x8000) / 16) else s1
  else s.accessWrite a m v

/-- A write to a register of the GH, PW or other module-wide block. `host`: it comes from the host through BAR0. -/
def State.modWrite (s : State) (host : Bool) (a m v : Nat) : State :=
  let low := decide (m % 2 = 1)
  if a = R.SP_KEY_CTRL then (if v.testBit 0 then spKeyLoad s else s)
  else if a = R.SY_SEL then (if low then sySelWrite s v else s)
  else if a = R.GH_HMB_BASE ∨ a = R.GH_HMB_LIMIT then (if host then s.accessWrite a m v else s)
  else if R.GH_MB_DB 0 ≤ a ∧ a < R.GH_MB_DB 16 then (if v.testBit 0 then mbDoorbell s (Fin.ofNat 16 ((a - R.GH_MB_DB 0) / 8)) else s)
  else if a = R.GH_PHASE_CFG then (if low then phaseCfgWrite s v else s)
  else if a = R.PW_CLAMP then (if low then pwClampWrite s v else s)
  else if a = R.PW_THERM ∨ a = R.PW_STACK_THERM then (if low then pwThermWrite s (a == R.PW_STACK_THERM) v else s)
  else s.accessWrite a m v

/-- The six 8-byte registers whose write starts an action (R239): what it does with the 64-bit value. -/
def wideAct (a : Nat) : Option (State → Nat → State) :=
  if a = R.SP_RETIRE then some (fun s v => s.retireClaims v)
  else if a = R.GH_CM_PREP then some prepareRequest
  else if a = R.MM_INVAL then some mmInval
  else if a = R.CL_TALLY_FIND then some tallyFind
  else if LK.base 0 ≤ a ∧ a < LK.base 16 ∧ (a - LK.base 0) % 0x4000 = 0x28 then some (fun s v => lkAdmit s (Fin.ofNat 16 ((a - LK.base 0) / 0x4000)) v)
  else if UE.base 0 ≤ a ∧ a < UE.base 8 ∧ 0x4100 ≤ (a - UE.base 0) % 0x10000 ∧ (a - UE.base 0) % 0x10000 < 0x4300 ∧ a % 16 = 0 then
    let k := Fin.ofNat 8 ((a - UE.base 0) / 0x10000)
    some (fun s v => vtIssue s k (Fin.ofNat 32 (((a - UE.base 0) % 0x10000 - 0x4100) / 16)) (fun t => vtOp t k v))
  else none

/-- The write of a register once its bits are known. -/
def State.regAct (s : State) (host : Bool) (a m v : Nat) : State :=
  if (regAt a).isNone then s
  else if a < BN.base 24 then s.benchWrite (Fin.ofNat 24 ((a - BN.base 0) / 0x10000)) ((a - BN.base 0) % 0x10000) m v
  else if UE.base 0 ≤ a ∧ a < UE.base 8 then s.ueWrite (Fin.ofNat 8 ((a - UE.base 0) / 0x10000)) ((a - UE.base 0) % 0x10000) m v
  else if LK.base 0 ≤ a ∧ a < LK.base 16 then s.lkWrite (Fin.ofNat 16 ((a - LK.base 0) / 0x4000)) ((a - LK.base 0) % 0x4000) m v
  else if CL.base 0 ≤ a ∧ a < CL.base 4 then s.clWrite (Fin.ofNat 4 ((a - CL.base 0) / 0x10000)) ((a - CL.base 0) % 0x10000) m v
  else if HX.base ≤ a ∧ a < HX.base + 0x10000 then s.hxWrite (a - HX.base) m v
  else s.modWrite host a m v

/-- REGISTER_WRITE (R7, R8): what a write does to the fields of a register that have no row of their own. -/
def State.plainWrite (s : State) (host : Bool) (a m v : Nat) : State :=
  if (regAt a).isNone then s
  else if a < BN.base 24 then
    let b := Fin.ofNat 24 ((a - BN.base 0) / 0x10000)
    let o := (a - BN.base 0) % 0x10000
    if (s.bench b).out then s
    else if isRws o then s.rwsWrite a m v
    else if 0x6010 ≤ o ∧ o < 0x7000 then s.ccWrite b o m v
    else s.accessWrite a m v
  else if UE.base 0 ≤ a ∧ a < UE.base 8 ∧ !s.stackUp ((a - UE.base 0) / 0x10000) then s
  else if a = R.GH_HMB_BASE ∨ a = R.GH_HMB_LIMIT then (if host then s.accessWrite a m v else s)
  else if R.GH_MB_DB 0 ≤ a ∧ a < R.GH_MB_DB 16 then (if v.testBit 0 then mbDoorbell s (Fin.ofNat 16 ((a - R.GH_MB_DB 0) / 8)) else s)
  else if R.HX_MSIX_ENTRY 0 ≤ a ∧ a < R.HX_MSIX_ENTRY 1024 then s.hxWrite (a - HX.base) m v
  else s.accessWrite a m v

/-- The row's write: its size and alignment as R239 asks, a mailbox's request buffer, or a register. -/
def registerWrite (s : State) (host : Bool) (a n v : Nat) : State :=
  if !regAccess a n then s
  else if GH.base + 0x20000 ≤ a ∧ a < GH.base + 0x40000 then
    (if (a - GH.base) % 0x2000 < 0x1000 then s.ghWrite (a - GH.base) (leBytes n v) else s)
  else s.plainWrite host (a - a % 8) (accessMask a n) (v % 2 ^ (8 * n) * 2 ^ (8 * (a % 8)))

/-- The held lower half of one of the six registers (R239). -/
def State.heldOf (s : State) (a : Nat) : Nat := SMap.get (fun _ => 0) s.held a
/-- Sets a held lower half. -/
def State.setHeld (s : State) (a v : Nat) : State := { s with held := SMap.set (fun _ => 0) s.held a v }

/-- A write of n bytes in register space (R239). -/
def State.regWrite (s : State) (host : Bool) (a n v : Nat) : State :=
  if !regAccess a n then s
  else if GH.base + 0x20000 ≤ a ∧ a < GH.base + 0x40000 then
    (if (a - GH.base) % 0x2000 < 0x1000 then s.ghWrite (a - GH.base) (leBytes n v) else s)
  else
    let a8 := a - a % 8
    let w := v % 2 ^ (8 * n)
    match wideAct a8 with
    | some f =>
      if n = 8 then (f s w).setHeld a8 0
      else if a % 8 = 0 then s.setHeld a8 w
      else (f s (w * 2 ^ 32 + s.heldOf a8)).setHeld a8 0
    | none => s.regAct host a8 (accessMask a n) (w * 2 ^ (8 * (a % 8)))

end Sys2Proof.Machine
end

