-- ==== Sys2Proof/Machine/Edven.lean ====
section
/-! DEFINITION. The Edven scalar instructions as a control core executes them (R281 to R294, R300, R301): fetch, what each computes, memory
accesses, hardware loops, pushes, and the tensor-operation push. -/
namespace Sys2Proof.Machine

/-! ## Registers and the end of an instruction -/

/-- A general register; g0 reads 0 (R277). -/
def State.gr (s : State) (b : Fin 24) (i : Fin 32) : Nat := if i = 0 then 0 else ((s.core b).g[i]).toNat
/-- A general register written, modulo 2^64; a write to g0 is ignored (R277). -/
def State.setG (s : State) (b : Fin 24) (i : Fin 32) (v : Nat) : State :=
  if i = 0 then s else s.modCore b (fun x => { x with g := x.g.set i (BitVec.ofNat 64 v) })

/-- A 16-bit immediate sign-extended to 64 bits. -/
def simm (i : Nat) : Nat := toBits 64 (signed 16 i)

/-- The innermost active loop whose body ends at an address (R286): of nested bodies the inner one starts later. -/
def Core.loopAt (x : Core) (a : Nat) : Option (Fin 4) :=
  (List.finRange 4).foldl (fun (best : Option (Fin 4)) (n : Fin 4) =>
    let l := x.loops[n]
    if l.active && l.stop == a then
      (match best with
      | some m => if (x.loops[m]).start < l.start then some n else best
      | none => some n)
    else best) none

/-- The iteration tests after the instruction at `a` (R285, R286): inner first; the address at which a body starts again. -/
def Core.loopTest (a : Nat) : Nat → Core → Core × Option Nat
  | 0, x => (x, none)
  | k + 1, x =>
    match x.loopAt a with
    | none => (x, none)
    | some n =>
      let l := x.loops[n]
      if (x.lc[n]).toNat ≤ 1 then Core.loopTest a k { x with lc := x.lc.set n 0, loops := x.loops.set n { l with active := false } }
      else ({ x with lc := x.lc.set n (x.lc[n] - 1) }, some l.start)

/-- The instruction is over: a core that single-steps halts (R301), and one that is to halt at its next boundary does (R289, R302). -/
def State.instrEnd (s : State) (b : Fin 24) : State :=
  let s1 := s.modCore b (fun x => { x with why := 0, retired := x.retired + 1 })
  let x := s1.core b
  if x.stepping && x.st == 2 then s1.coreHalt b 5
  else if x.st = 2 ∧ x.due ≠ 0 ∧ x.mid = false then s1.coreHalt b x.due else s1

/-- The instruction costs n cycles more, charged to a cause (R303). -/
def State.owe (s : State) (b : Fin 24) (n why : Nat) : State := s.modCore b (fun x => { x with owed := x.owed ++ [(n, why)] })

/-- The instruction costs a number of cycles that the spec does not state, charged to a cause: a free value (R303, log 90). -/
def State.oweFree (s : State) (b : Fin 24) (why : Nat) : State := s.draw.owe b (Config.freeWord s.freeCtr).toNat why

/-- The next PC: the iteration tests, then PC + 4 or the start of a body (R285). -/
def Core.passed (x : Core) : Core :=
  let r := Core.loopTest x.pc 4 x
  { r.1 with pc := (r.2.getD (x.pc + 4)) % 2 ^ 48 }

/-- The next instruction follows. -/
def State.retire (s : State) (b : Fin 24) : State := (s.modCore b Core.passed).instrEnd b

/-- A taken branch or jump: loops whose bodies do not hold the target end (R286). -/
def State.jumpTo (s : State) (b : Fin 24) (a : Nat) : State :=
  let t := a % 2 ^ 48
  (s.modCore b (fun x => { x with pc := t, loops := x.loops.map (fun l => if l.active && (decide (t < l.start) || decide (l.stop < t)) then { l with active := false } else l) })).instrEnd b

/-- A fault with no access: CC_FAULT_ADDR is free, since the spec states no value for it. -/
def State.plainFault (s : State) (b : Fin 24) (cause : Nat) : State := s.draw.coreFault b cause 0 (Config.freeWord s.freeCtr).toNat

/-! ## Integer operations (R282, R283) -/

/-- The operations of opcode 0x00 by FN. -/
def aluOp (f a c : Nat) : Nat :=
  let sa := signed 64 a
  let sc := signed 64 c
  match f with
  | 0 => (a + c) % 2 ^ 64
  | 1 => (a + 2 ^ 64 - c) % 2 ^ 64
  | 2 => a &&& c
  | 3 => a ||| c
  | 4 => a ^^^ c
  | 5 => a <<< (c % 64) % 2 ^ 64
  | 6 => a >>> (c % 64)
  | 7 => toBits 64 (sa / (2 ^ (c % 64) : Nat))
  | 8 => a * c % 2 ^ 64
  | 9 => a * c / 2 ^ 64
  | 10 => if c = 0 then 0 else a / c
  | 11 => if c = 0 then a else a % c
  | 12 => if c = 0 then 0 else toBits 64 (sa.tdiv sc)
  | 13 => if c = 0 then a else toBits 64 (sa.tmod sc)
  | 14 => b2n (decide (sa < sc))
  | 15 => b2n (decide (a < c))
  | 16 => if sa < sc then a else c
  | _ => if sa < sc then c else a

/-- The operations of opcodes 0x01 to 0x0A, numbered from 0: `x` is gX before, `a` is gY, `i` the immediate. -/
def immOp (f x a i : Nat) : Nat :=
  match f with
  | 0 => (a + simm i) % 2 ^ 64
  | 1 => a &&& i
  | 2 => a ||| i
  | 3 => a ^^^ i
  | 4 => aluOp 5 a i
  | 5 => aluOp 6 a i
  | 6 => aluOp 7 a i
  | 7 => toBits 64 (signed 32 (i * 65536))
  | 8 => (x * 65536 % 2 ^ 64) ||| i
  | _ => b2n (decide (signed 64 a < signed 16 i))

/-- Does a branch of opcodes 0x20 to 0x25 hold? -/
def brHolds (f a c : Nat) : Bool :=
  match f with
  | 0 => a == c
  | 1 => a != c
  | 2 => decide (signed 64 a < signed 64 c)
  | 3 => decide (signed 64 c ≤ signed 64 a)
  | 4 => decide (a < c)
  | _ => decide (c ≤ a)

/-- The FP32 operations by FN (R284, R74, R76, R77): `x` is gX[31:0], used by FMA, and FCVTSI reads the whole of `w`, gY. -/
def fpOp (f x w a c : Nat) : Nat × Cond :=
  match f with
  | 0x00 => fpAdd a c
  | 0x01 => fpSub a c
  | 0x02 => fpMul a c
  | 0x03 => fpDiv a c
  | 0x04 => fpSqrt a
  | 0x05 => fpRsqrt a
  | 0x06 => fpLog2 a
  | 0x07 => fpExp2 a
  | 0x08 => fpFma a c x
  | 0x09 => fpMaximum a c
  | 0x0A => fpMinimum a c
  | 0x0B => fpMaximumNum a c
  | 0x0C => fpMinimumNum a c
  | 0x10 => fpEq a c
  | 0x11 => fpNe a c
  | 0x12 => fpLt a c
  | 0x13 => fpLe a c
  | 0x14 => fpGt a c
  | 0x15 => fpGe a c
  | 0x16 => fpUn a c
  | 0x18 => fpToInt a
  | 0x19 => fpOfInt w
  | 0x1A => (b2n (fpTotal a c), Cond.none)
  | _ => fpRem a c

/-- The cycles of an FP32 instruction beyond the one in which it retires (R284); the spec gives the others none. -/
def fpMore (f : Nat) : Nat :=
  if f ≤ 2 ∨ f = 8 then 3 else if f = 3 ∨ f = 4 ∨ f = 5 then 15 else if f = 6 ∨ f = 7 then 19 else 0

/-! ## Memory accesses (R240, R242, R278, R288) -/

/-- How a core's access goes: done, waiting for a peer, or a fault of a cause and kind. -/
inductive Acc where
  | val (d : Bytes)
  | wait
  | fault (cause kind : Nat)
  deriving DecidableEq, Repr

/-- A load of n bytes from a translated place; one that misses the core's cache costs cycles (R303). `host` is what the host returns for a read of one of its pages; none is a read that fails,
kind 7 (R243). -/
def State.coreRead (s : State) (b : Fin 24) (x : Xl) (n : Nat) (host : Option Bytes) : State × Acc :=
  let got := fun (q : State × Option Bytes) => match q.2 with
    | some d => (q.1, Acc.val d)
    | none => (q.1, Acc.fault 4 0)
  match x.target with
  | .lcl =>
    if isRegSpace x.addr then (let q := s.regRead x.addr n; (q.1.oweFree b 2, .val (leBytes n q.2)))
    else if cacheable x.addr x.nc then
      (let e := s.evict b
       got ((if (e.core b).dcache.any (fun l => l.1 == x.addr / 64) then e else e.oweFree b 2).dRead b x.addr n))
    else got (s.oweFree b 2, s.read x.addr n)
  | .host =>
    match host with
    | some d => if s.busMaster then (((s.emit (.hostRead x.addr n)).addReg (R.HX_COUNT 2) n).oweFree b 2, .val (padTo n d)) else (s, .fault 3 7)
    | none => (s, .fault 3 7)
  | .peer =>
    let c := s.core b
    let hit := c.lines.find? (fun l => l.1 == x.dev && l.2.1 == x.addr / 64)
    let past := s.modCore b (fun y => { y with io := .none, lines := [] })
    match c.io, hit with
    | .waiting, _ => (s, .wait)
    | .refused, _ => (past, .fault 3 7)
    | .done, some l => (past, if l.2.2.isEmpty then .fault 4 0 else .val ((l.2.2.drop (x.addr % 64)).take n))
    | _, _ =>
      let q := past.peerRequest ⟨.core b, false, x.dev, x.addr / 64 * 64, 1, some ((s.core b).ctx, x.page)⟩ []
      if q.2 then (q.1.modCore b (fun y => { y with io := .waiting }), .wait) else (q.1, .fault 3 7)

/-- A load of n bytes from a virtual address. -/
def State.coreLoad (s : State) (b : Fin 24) (a n : Nat) (host : Option Bytes) : State × Acc :=
  let r := s.coreXlate b a false
  match r.2 with
  | .inl k => (r.1, .fault 3 k)
  | .inr x => r.1.coreRead b x n host

/-- A store of bytes that lie in one line. -/
def State.coreStore (s : State) (b : Fin 24) (a : Nat) (bs : Bytes) : State × Acc :=
  let r := s.coreXlate b a true
  match r.2 with
  | .inl k => (r.1, .fault 3 k)
  | .inr x =>
    match x.target with
    | .lcl =>
      if isRegSpace x.addr then (r.1.regWrite false x.addr bs.length (fromLe bs), .val [])
      else if cacheable x.addr x.nc then ((r.1.evict b).dWrite b x.addr bs, .val [])
      else (r.1.write x.addr bs, .val [])
    | .host =>
      if r.1.busMaster then ((r.1.emit (.hostWrite x.addr bs)).addReg (R.HX_COUNT 2) bs.length, .val []) else (r.1, .fault 3 7)
    | .peer =>
      let past := r.1.modCore b (fun y => { y with io := .none, lines := [] })
      match (r.1.core b).io with
      | .waiting => (r.1, .wait)
      | .refused => (past, .fault 3 7)
      | .done => (past, .val [])
      | .none =>
        let q := past.peerRequest ⟨.core b, true, x.dev, x.addr / 64 * 64, 1, some ((s.core b).ctx, x.page)⟩ (peerLine past x.addr bs)
        if q.2 then (({ q.1 with freeCtr := q.1.freeCtr + 64 } : State).modCore b (fun y => { y with io := .waiting }), .wait) else (q.1, .fault 3 7)

/-- An aligned load that goes on with its bytes; a core that waits for memory is charged to DCACHE (R303). -/
def State.withLoad (s : State) (b : Fin 24) (a n : Nat) (host : Option Bytes) (f : State → Bytes → State) : State :=
  if a % n ≠ 0 then s.coreFault b 2 0 a
  else
    let r := s.coreLoad b a n host
    match r.2 with
    | .val d => f r.1 d
    | .wait => r.1.stallCore b 2
    | .fault c k => r.1.coreFault b c k a

/-- A load or an instruction fetch that a predicted path made, if it filled a line (R268, R287): its walk is counted, and anything but a cached
local page drops it. -/
def State.specFill (s : State) (b : Fin 24) (ifetch : Bool) (va : Nat) : State :=
  let r := s.coreXlate b va false
  match r.2 with
  | .inl _ => s.setReg R.MM_WALKS (r.1.reg R.MM_WALKS)
  | .inr x =>
    if decide (x.target = .lcl) && cacheable x.addr x.nc then
      (if ifetch then ((r.1.evict b).iRead b (x.addr / 64 * 64)).1 else ((r.1.evict b).dRead b (x.addr / 64 * 64) 1).1)
    else r.1

/-- What the branch predictor did before a branch resolved: the fetches (true) and loads of the predicted path, no load with SPEC = 0, and
whether it was wrong, at 12 cycles (R268, R287). -/
def State.predict (s : State) (b : Fin 24) (spec : List (Bool × Nat)) (miss : Bool) : State :=
  let s1 := (spec.filter (fun p => p.1 || s.rbit (R.CC_CFG b) 0)).foldl (fun t p => t.specFill b p.1 p.2) s
  if miss then (s1.addReg (R.CC_MISPREDICT b) 1).owe b 12 3 else s1

/-! ## Fetch (R281, R288, R301) -/

/-- The word at PC: its value, or a fault of a cause and kind. A page of a peer or the host cannot be fetched from (kind 7);
a miss costs cycles (R303). -/
def State.fetch (s : State) (b : Fin 24) (pc : Nat) : State × (Nat × Nat ⊕ Nat) :=
  let r := s.coreXlate b pc false
  match r.2 with
  | .inl k => (r.1, .inl (3, k))
  | .inr x =>
    if x.target ≠ .lcl then (r.1, .inl (3, 7))
    else
      let e := r.1.evict b
      let q := if cacheable x.addr x.nc then (if (e.core b).icache.any (fun l => l.1 == x.addr / 64) then e else e.oweFree b 1).iRead b x.addr
        else (r.1.oweFree b 1, r.1.read x.addr 4)
      match q.2 with
      | some d => (q.1, .inr (fromLe d))
      | none => (q.1, .inl (4, 0))

/-! ## Loops (R285, R286) -/

/-- May an instruction not be the last of a body? -/
def Ed.endsBody : Ed → Bool
  | .br _ _ _ _ => true
  | .jal _ => true
  | .j _ => true
  | .jr _ _ => true
  | .loop _ _ _ => true
  | .loopi _ _ _ => true
  | .sys f _ _ => f.val == 4
  | _ => false

/-- LOOP and LOOPI. The last word of the body is read as an instruction fetch reads it. -/
def State.loopEnter (s : State) (b : Fin 24) (n : Fin 4) (count len : Nat) : State :=
  let x := s.core b
  let start := x.pc + 4
  let stop := x.pc + 4 * len
  let meets := (List.finRange 4).any (fun (m : Fin 4) => (x.loops[m]).active && (decide ((x.loops[m]).stop < stop) || decide (start < (x.loops[m]).start)))
  if (x.loops[n]).active || len == 0 || meets then s.plainFault b 5
  else
    let r := s.fetch b stop
    let bad := match r.2 with
      | .inr w => (match Ed.decode w with | some e => e.endsBody | none => false)
      | .inl _ => false
    if bad then r.1.plainFault b 5
    else if count = 0 then (r.1.modCore b (fun y => { y with pc := (stop + 4) % 2 ^ 48 })).instrEnd b
    else (r.1.modCore b (fun y => { y with pc := start % 2 ^ 48, lc := y.lc.set n (BitVec.ofNat 64 count), loops := y.loops.set n ⟨true, start, stop⟩ })).instrEnd b

/-! ## Pushes (R290 to R292, R294, R301) -/

/-- Does a break condition hold for a push (R301)? -/
def State.breaks (s : State) (b : Fin 24) (qid : Nat) (c : Cmd) : Bool :=
  let cfg := s.rn (R.CC_BRK_CFG b)
  let t := s.rn (R.CC_BRK_TAG b)
  let mask := bits t 55 32
  bits cfg 15 8 == qid
    && ((cfg.testBit 0 && (c.tag &&& mask) == (bits t 23 0 &&& mask)) || (cfg.testBit 1 && (s.rn (R.CC_QCOUNT b qid) + 1) % 2 ^ 64 == s.rn (R.CC_BRK_COUNT b)))

/-- One push: a fault for a queue that is not open, a break, a stall on a full queue, or the push and what follows. -/
def State.tryPush (s : State) (b : Fin 24) (qid : Nat) (c : Cmd) (f : State → State) : State :=
  match s.openQueue b qid with
  | none => s.plainFault b 6
  | some q =>
    if s.breaks b qid c then s.coreBreak b
    else if !s.hasRoom q then s.stallCore b 4
    else f (s.corePush b qid q c)

/-- The place of a bound operand (R294): its pages translated, contiguous; the failing kind, or cause 7. -/
def bindPages (b : Fin 24) (va base : Nat) (t : Target) (dev : Nat) : State → List Nat → State × (Nat × Nat) ⊕ State
  | s, [] => .inr s
  | s, off :: rest =>
    let r := s.coreXlate b (va + off) false
    match r.2 with
    | .inl k => .inl (r.1, (3, k))
    | .inr x => if x.target = t ∧ x.dev = dev ∧ x.addr = base + off then bindPages b va base t dev r.1 rest else .inl (r.1, (7, 0))

/-- One bound address of a command (R294): its place in the operand, whose VA plus gX is translated and whose whole extent is contiguous. A peer's
page gives the packed global address (R11); a derrick that translates for itself gets the virtual one (R255). -/
def bindOne (b : Fin 24) (gx : Nat) (keepVa : Bool) (s : State) (c : Cmd) (i : Bind) : State × (Nat × Nat × Nat) ⊕ State × Cmd :=
  let va := (i.base + gx) % 2 ^ 64
  let off := i.va - i.base
  let r := s.coreXlate b va false
  match r.2 with
  | .inl k => .inl (r.1, (3, k, va))
  | .inr x =>
    let first := 65536 - va % 65536
    let offs := if i.ext ≤ first then [] else (List.range (cdiv (i.ext - first) 65536)).map (fun j => first + 65536 * j)
    match bindPages b va x.addr x.target x.dev r.1 offs with
    | .inl (t, e) => .inl (t, (e.1, e.2, va))
    | .inr t =>
      .inr (t, c.bindWord i (if keepVa then (va + off) % 2 ^ 64 else if x.target = .peer then x.dev * 2 ^ 48 + x.addr + off else x.addr + off))

/-- Every bound address of a command. -/
def bindAll (b : Fin 24) (gx : Nat) (keepVa : Bool) : State → Cmd → List Bind → State × (Nat × Nat × Nat) ⊕ State × Cmd
  | s, c, [] => .inr (s, c)
  | s, c, i :: rest =>
    match bindOne b gx keepVa s c i with
    | .inl e => .inl e
    | .inr (t, d) => bindAll b gx keepVa t d rest

/-- The pushes among some steps. -/
def pushCount (l : List OpStep) : Nat := (l.filter (fun st => st.push?.isSome)).length

/-- The addresses of a push that TOP binds, in its command and in its drain descriptor. -/
def bindPush (b : Fin 24) (gx : Nat) (s : State) (p : Push) (c : Cmd) : State × (Nat × Nat × Nat) ⊕ State × (Cmd × Option Cmd) :=
  match bindAll b gx (takesVa p.qid c) s c p.binds with
  | .inl e => .inl e
  | .inr (t, c1) => match p.drain with
    | none => .inr (t, (c1, none))
    | some d => match bindAll b gx false t d.cmd d.binds with
      | .inl e => .inl e
      | .inr (u, d1) => .inr (u, (c1, some d1))

/-! ## What translated code keeps (R183, R190, R203) -/

/-- A note of the module that core b runs. -/
def State.note? (s : State) (b : Fin 24) (n : Note) : Option Nat :=
  (s.modules.find? (fun m => m.handle == (s.core b).handle)).bind (fun m => (m.notes.find? (fun e => e.1 == n)).map (·.2))

/-- Writes a note, or takes it away. -/
def State.setNote (s : State) (b : Fin 24) (n : Note) (v : Option Nat) : State :=
  { s with modules := s.modules.map (fun (m : Module) => if m.handle = (s.core b).handle then
      { m with notes := m.notes.filter (fun e => e.1 != n) ++ (v.map (fun x => (n, x))).toList } else m) }

/-- The slot that a token names (R197). -/
def tokenSlot (t : Nat) : Nat := bits t 15 14
/-- The version that a token names: STEPLO and GEN (R190, R197). -/
def tokenVersion (t : Nat) : Nat := bits t 63 24

/-- Does a guard hold? None while what it asks is not known. -/
def State.guardHolds (s : State) (b : Fin 24) (gx : Nat) : Guard → Option Bool
  | .wide k want => (s.note? b (.wide k gx)).map (fun v => (v == 1) == want)
  | .stale k r => (s.note? b (.token r gx)).map (fun t => decide (s.note? b (.image k (tokenSlot t) b) ≠ some (tokenVersion t)))

/-- Do all guards of a step hold? None while one is not known and the others hold. -/
def State.guardsHold (s : State) (b : Fin 24) (gx : Nat) (l : List Guard) : Option Bool :=
  let vs := l.map (s.guardHolds b gx)
  if vs.contains (some false) then some false else if vs.contains none then none else some true

/-! ## The commands of a TOP (R288, R294) -/

/-- The reads that a push's fixes take: the elements of the index (R297). -/
def fixReads (gx : Nat) (fs : List Fix) : List (Nat × Nat) :=
  fs.filterMap (fun f => match f with | .row _ va late _ => some ((va + if late then gx else 0) % 2 ^ 64, 4) | _ => none)

/-- An operand at its place: BIND adds gX to its VA (R294). -/
def Opnd.at (o : Opnd) (gx : Nat) : Opnd := if o.bind then { o with va := (o.va + gx) % 2 ^ 64 } else o

/-- What a step of a TOP reads (false) and writes (true) by itself: the indices and the drain descriptor of a push, the status records that it judges,
the elements of a loop. -/
def OpStep.touches (gx : Nat) (st : OpStep) : List (Nat × Nat × Bool) :=
  let rd := fun (l : List (Nat × Nat)) => l.map (fun p => (p.1, p.2, false))
  match st.kind with
  | .push p => rd (fixReads gx p.fixes) ++ (match p.drain with
    | some d => if d.binds.isEmpty && d.fixes.isEmpty then [] else (List.range 8).map (fun i => (d.va + 8 * i, 8, true))
    | none => [])
  | .judge _ l => rd (l.map (fun a => (a + 4, 4)))
  | .loop f ins out first count =>
    let is := ins.map (fun o => o.at gx)
    ((List.range count).map (first + ·)).flatMap (fun u =>
      rd (unitReads f is (out.at gx) u) ++ (unitWrites f is (out.at gx) u).map (fun p => (p.1, p.2, true)))
  | _ => []

/-- The first of some accesses that faults: misaligned, or not translated (R278, R288). -/
def touchFault (b : Fin 24) (s : State) (l : List (Nat × Nat × Bool)) : Option (State × (Nat × Nat × Nat)) :=
  l.findSome? (fun a =>
    if a.1 % a.2.1 ≠ 0 then some (s, (2, 0, a.1))
    else let r := s.coreXlate b a.1 a.2.2; match r.2 with | .inl k => some (r.1, (3, k, a.1)) | .inr _ => none)

/-- The commands of a TOP bound from step `i` on, and what its steps access by themselves looked up, before any of them has an effect, since a fault is
precise (R288, R294): one command for each step, empty for one that is over or pushes nothing; or the first fault, whatever the guards. -/
def bindTop (b : Fin 24) (gx k i : Nat) (mine : List OpStep) : Nat → State → List OpStep → State × ((Nat × Nat × Nat) ⊕ List (Cmd × Option Cmd))
  | _, s, [] => (s, .inr [])
  | j, s, st :: rest =>
    let more := fun (t : State) (c : Cmd × Option Cmd) =>
      let q := bindTop b gx k i mine (j + 1) t rest
      (q.1, match q.2 with
        | .inl e => Sum.inl e
        | .inr l => Sum.inr (c :: l))
    if j < i then more s ([], none)
    else match touchFault b s (st.touches gx), st.push? with
    | some e, _ => (e.1, .inl e.2)
    | none, none => more s ([], none)
    | none, some p =>
      let c := tagged k (mine.take j) p
      if (s.openQueue b p.qid).isNone then (s, .inl (6, 0, 0))
      else match bindPush b gx s p c with
        | .inl (t, e) => (t, .inl e)
        | .inr (t, d) => more t d

/-! ## The steps of a TOP (R294, R297, R301) -/

/-- A step done (true), or the state in which the TOP stops for now. -/
abbrev StepRes := State × Bool

/-- A TOP that stops: an access waits, or faults. -/
def State.accStop (s : State) (b : Fin 24) (a : Nat) : Acc → State
  | .fault c k => s.coreFault b c k a
  | _ => s.stallCore b 2

/-- The line of a translated address leaves core b's caches, its half's L2 written back first: the loops of a TOP see what engines wrote (R274). -/
def State.freshLine (s : State) (b : Fin 24) (x : Xl) : State :=
  if decide (x.target = .lcl) && cacheable x.addr x.nc then s.dropLine b (x.addr / 64) else s

/-- The reads of a step, one after another, kept as they come: done, or waiting or faulted. What the host returns serves one read; a step goes on at
the next command. `n` bounds the reads. -/
def gather (b : Fin 24) (reads : List (Nat × Nat)) (host : Option Bytes) : Nat → State → StepRes
  | 0, s => (s, true)
  | n + 1, s =>
    match reads[(s.core b).work.got.length]? with
    | none => (s, true)
    | some (a, len) =>
      if a % len ≠ 0 then (s.coreFault b 2 0 a, false)
      else
        let r := s.coreXlate b a false
        match r.2 with
        | .inl k => (r.1.coreFault b 3 k a, false)
        | .inr x =>
          let q := (r.1.freshLine b x).coreRead b x len host
          match q.2 with
          | .val d =>
            let t := q.1.modCore b (fun y => { y with work := { y.work with got := y.work.got ++ [d] } })
            if x.target = .host then (t.stallCore b 2, false) else gather b reads host n t
          | e => (q.1.accStop b a e, false)

/-- The stores of a step, one after another, each cleaned to memory (R274). -/
def scatter (b : Fin 24) : Nat → State → StepRes
  | 0, s => (s, true)
  | n + 1, s =>
    match (s.core b).work.puts with
    | [] => (s, true)
    | (a, bs) :: rest =>
      if a % bs.length ≠ 0 then (s.coreFault b 2 0 a, false)
      else
        let r := s.coreXlate b a true
        match r.2 with
        | .inl k => (r.1.coreFault b 3 k a, false)
        | .inr x =>
          let q := r.1.coreStore b a bs
          match q.2 with
          | .val _ =>
            let t := if decide (x.target = .lcl) && cacheable x.addr x.nc then q.1.cleanLine b (x.addr / 64) else q.1
            scatter b n (t.modCore b (fun y => { y with work := { y.work with puts := rest } }))
          | e => (q.1.accStop b a e, false)

/-- A loop from its unit on (R297): each unit reads, computes and stores; its conditions go to CC_FLAGS (R79). -/
def loopRun (b : Fin 24) (gx : Nat) (f : LoopFn) (ins : List Opnd) (out : Opnd) (first count : Nat) (host : Option Bytes) : Nat → State → StepRes
  | 0, s => (s, true)
  | n + 1, s =>
    let w := (s.core b).work
    if count ≤ w.unit then (s, true)
    else
      let is := ins.map (fun o => o.at gx)
      let o := out.at gx
      let u := first + w.unit
      let reads := unitReads f is o u
      let g := if w.made then (s, true) else gather b reads host (reads.length + 1) s
      if !g.2 then g
      else
        let t := if w.made then s else
          let ver := ((s.modules.find? (fun m => m.handle == (s.core b).handle)).map Module.version).getD 0
          let r := unitDo ver f is o u (s.core b).strm (g.1.core b).work.got
          (g.1.setRn (R.CC_FLAGS b) (g.1.rn (R.CC_FLAGS b) ||| r.2.toNat % 16)).modCore b (fun y => { y with work := { y.work with puts := r.1, made := true } })
        let p := scatter b ((t.core b).work.puts.length + 1) t
        if !p.2 then p
        else loopRun b gx f ins out first count host n (p.1.modCore b (fun y => { y with work := { step := y.work.step, unit := y.work.unit + 1 } }))

/-- A version operation of core b, as requester index b of its stack (R206, R207, R282): the state, its code and its token. -/
def State.vopRun (s : State) (b : Fin 24) (k w : Nat) : VtRes :=
  let r := if s.stackUp k then vtOp s k w else s.vtRefuse k 1
  (if s.stackUp k then (r.1.setRn (R.UE_VT_RES k b) r.2.2).setRn (R.UE_VT_CODE k b) (2 ^ 31 + r.2.1) else r.1, r.2.1, r.2.2)

/-- A pin of CURRENT, whose token is kept (R203); a refused one keeps 0. -/
def State.stepPin (s : State) (b : Fin 24) (gx r : Nat) : State :=
  let q := s.vopRun b (bits r 13 11) (0x10 * 2 ^ 56 + r)
  (q.1.setNote b (.token r gx) (some q.2.2)).owe b 1 6

/-- The unpin of a kept token, which is kept no longer (R203). -/
def State.stepUnpin (s : State) (b : Fin 24) (gx r : Nat) : State :=
  let t := (s.note? b (.token r gx)).getD 0
  let q := if t = 0 then s else ((s.vopRun b (bits r 13 11) (0x13 * 2 ^ 56 + bits t 63 32 * 2 ^ 24 + bits t 31 24 * 2 ^ 16 + t % 65536)).1.owe b 1 6)
  q.setNote b (.token r gx) none

/-- What a push takes as it is pushed: the kept token, the place of its version's image, the row that the next index names, a step. -/
def State.fixCmd (s : State) (b : Fin 24) (gx : Nat) : Cmd → List Bytes → List Fix → State × Cmd
  | c, _, [] => (s, c)
  | c, got, f :: rest =>
    let put := fun (w v : Nat) => c.set w (BitVec.ofNat 64 v)
    match f with
    | .token r => s.fixCmd b gx (put 5 ((s.note? b (.token r gx)).getD 0)) got rest
    | .image w r size => s.fixCmd b gx (put w (c.w w + size * tokenSlot ((s.note? b (.token r gx)).getD 0))) got rest
    | .row w _ _ stride => s.fixCmd b gx (put w (c.w w + toBits 64 (signed 32 (fromLe (got.headD [])) * stride))) (got.drop 1) rest
    | .step => State.fixCmd s.draw b gx (put 1 (Config.freeWord s.freeCtr).toNat) got rest

/-- Is every token that a push takes known? -/
def State.tokensKnown (s : State) (b : Fin 24) (gx : Nat) (fs : List Fix) : Bool :=
  fs.all (fun f => match f with | .token r => (s.note? b (.token r gx)).isSome | .image _ r _ => (s.note? b (.token r gx)).isSome | _ => true)

/-- A push of a TOP (R290, R294, R301): a fault for a queue that is not open, a break, a stall on a full queue or a token not yet kept; else what it
takes, its drain descriptor, and the push. -/
def State.stepPush (s : State) (b : Fin 24) (gx : Nat) (p : Push) (c : Cmd × Option Cmd) (host : Option Bytes) : StepRes :=
  match s.openQueue b p.qid with
  | none => (s.plainFault b 6, false)
  | some q =>
    if s.breaks b p.qid c.1 then (s.coreBreak b, false)
    else if !s.hasRoom q then (s.stallCore b 4, false)
    else if !s.tokensKnown b gx (p.fixes ++ (p.drain.map Drain.fixes).getD []) then (s.stallCore b 5, false)
    else
      let rs := fixReads gx p.fixes
      let g := gather b rs host (rs.length + 1) s
      if !g.2 then g
      else
        let t := match p.drain, c.2 with
          | some d, some dc => if (g.1.core b).work.made then g.1 else
              let h := g.1.fixCmd b gx dc [] d.fixes
              h.1.modCore b (fun y => { y with work := { y.work with
                puts := if d.binds.isEmpty && d.fixes.isEmpty then [] else (List.range 8).map (fun i => (d.va + 8 * i, leBytes 8 (h.2.w i))), made := true } })
          | _, _ => g.1
        let w := scatter b ((t.core b).work.puts.length + 1) t
        if !w.2 then w
        else
          let f := w.1.fixCmd b gx c.1 (w.1.core b).work.got p.fixes
          ((f.1.corePush b p.qid q f.2).modCore b (fun y => { y with topPos := y.topPos + 1 }), true)

/-- The wide record of an operation (R130, R183): 1 if the status record of any of its tiles is marked RERUN_WIDE (R81). -/
def State.stepJudge (s : State) (b : Fin 24) (gx k : Nat) (status : List Nat) (host : Option Bytes) : StepRes :=
  let g := gather b (status.map (fun a => (a + 4, 4))) host (status.length + 1) s
  if g.2 then (g.1.setNote b (.wide k gx) (some (b2n ((g.1.core b).work.got.any (fun d => (fromLe d).testBit 8)))), true) else g

/-- One step of a TOP. -/
def State.topStep (s : State) (b : Fin 24) (gx : Nat) (kind : StepKind) (c : Cmd × Option Cmd) (host : Option Bytes) : StepRes :=
  match kind with
  | .push p => s.stepPush b gx p c host
  | .await i target => if target ≤ s.syncVal i then (s, true) else (s.stallCore b 5, false)
  | .signal i n => (s.addSync i n, true)
  | .pin r => (s.stepPin b gx r, true)
  | .unpin r => (s.stepUnpin b gx r, true)
  | .judge k l => s.stepJudge b gx k l host
  | .formed k r => (let t := (s.note? b (.token r gx)).getD 0; (s.setNote b (.image k (tokenSlot t) b) (some (tokenVersion t)), true))
  | .claim a w => (((s.submitClaim (.core b) a w).modCore b (fun y => { y with claim := some (32, 0) })).stallCore b 4, false)
  | .loop f ins out first count => loopRun b gx f ins out first count host (count + 1) s

/-- A TOP is over: the next instruction follows. -/
def State.topEnd (s : State) (b : Fin 24) : State := (s.modCore b (fun x => { x with topPos := 0, work := {}, strm := none })).retire b

/-- The steps of a TOP from the one under way (R294): each in order, until one stalls or breaks; a single step makes one push. -/
def topSteps (b : Fin 24) (gx : Nat) (mine : List OpStep) (l : List (Cmd × Option Cmd)) (host : Option Bytes) : Nat → State → State
  | 0, s => s
  | n + 1, s =>
    let i := (s.core b).work.step
    match mine[i]? with
    | none => s.topEnd b
    | some st =>
      let go := fun (u : State) => u.modCore b (fun x => { x with work := { step := i + 1 } })
      match s.guardsHold b gx st.guards with
      | none => s.stallCore b 5
      | some false => topSteps b gx mine l host n (go s)
      | some true =>
        let r := s.topStep b gx st.kind (l.getD i ([], none)) host
        if !r.2 then r.1
        else
          let u := go r.1
          if st.push?.isSome ∧ i + 1 < mine.length ∧ (u.core b).stepping then u.coreHalt b 5 else topSteps b gx mine l host n u

/-- The step at which CC_TOPPOS stands (R302): the one under way, unless CC_TOPPOS was written; then the push that it names. -/
def stepAt (mine : List OpStep) (pos step : Nat) : Nat :=
  if pushCount (mine.take step) = pos then step else ((List.range mine.length).find? (fun i => pushCount (mine.take (i + 1)) == pos + 1)).getD mine.length

/-- TOP (R294): the addresses of the pushes that it can still make are translated as it makes them, and are not kept over a stall (R304). -/
def State.top (s : State) (b : Fin 24) (gx k : Nat) (host : Option Bytes) : State :=
  match (s.modules.find? (fun m => m.handle == (s.core b).handle)).bind (fun m => m.ops[k]?) with
  | none => s.plainFault b 1
  | some ops =>
    let mine := ops.filter (fun o => o.core == b.val)
    let i := stepAt mine (s.core b).topPos (s.core b).work.step
    let s0 := if i = (s.core b).work.step then s else s.modCore b (fun x => { x with work := { step := i } })
    let r := bindTop b gx k i mine 0 s0 mine
    match r.2 with
    | .inl e => if e.1 = 6 then r.1.plainFault b 6 else r.1.coreFault b e.1 e.2.1 e.2.2
    | .inr l => topSteps b gx mine l host (mine.length + 1) r.1

/-! ## Claims, random values, version operations (R282) -/

/-- SCLAIM: the stream reference is read and the claim submitted; the core waits for its decision. -/
def State.sclaim (s : State) (b : Fin 24) (x : Fin 32) (a slot : Nat) (host : Option Bytes) : State :=
  s.withLoad b a 16 host (fun t d =>
    ((t.submitClaim (.core b) (leAt d 0 8) (leAt d 8 8)).modCore b (fun c => { c with claim := some (x.val, slot) })).stallCore b 4)

/-- A claim of a core decided (R166, R282): gX and the slot, and the instruction is over; a claim of a TOP, whose register is none, gives its loops
the stream, if it is granted, and its next step follows (R167, R297). -/
def coreClaimed (s : State) (b : Fin 24) (c : Claim) (res : Nat ⊕ Nat) : State :=
  match (s.core b).claim with
  | none => s
  | some (32, _) => (s.modCore b (fun y => { y with claim := none, strm := (match res with | .inl k => some (k, c.wbase) | .inr _ => none),
                                                     work := { step := y.work.step + 1 } }))
  | some (x, slot) =>
    let v := match res with | .inl _ => 0 | .inr r => r
    let s1 := s.modCore b (fun y => { y with claim := none, slots := match res with | .inl k => y.slots.set (Fin.ofNat 4 slot) (some (k, c.wbase)) | .inr _ => y.slots })
    (s1.setG b (Fin.ofNat 32 x) v).retire b

/-- The stack that a VOP addresses: REGION[13:11] of its word, or of the record for REGISTER, whose word names no region. -/
def State.vopStack (s : State) (w : Nat) : Nat :=
  if bits w 63 56 = 0x01 then (match s.read (w % 2 ^ 48) 64 with | some d => bits (leAt d 48 8) 13 11 | none => 0) else bits w 13 11

/-- VOP, as requester index b of its stack (R206, R207, R282). -/
def State.vop (s : State) (b : Fin 24) (x y z : Fin 32) : State :=
  let w := s.gr b y
  let r := s.vopRun b (s.vopStack w) w
  (((r.1.setG b x r.2.2).setG b z r.2.1).owe b 1 6).retire b

/-! ## Every instruction (R282) -/

/-- The instructions of opcode 0x3C. -/
def State.sysOp (s : State) (b : Fin 24) (f : Nat) (x y : Fin 32) : State :=
  let a := s.gr b y
  let line := fun (g : State → Nat → State) =>
    let r := s.coreXlate b a false
    match r.2 with
    | .inl k => r.1.coreFault b 3 k a
    | .inr t => (if decide (t.target = .lcl) && cacheable t.addr t.nc then g r.1 (t.addr / 64) else r.1).retire b
  match f with
  | 0 => (s.oweFree b 2).retire b
  | 1 => line (fun t l => t.cleanLine b l)
  | 2 => line (fun t l => t.dropLine b l)
  | 3 => (s.modCore b (fun c => { c with icache := [] })).retire b
  | 4 => s.coreEnd b
  | 5 => (s.modCore b (fun c => { c.passed with retired := c.retired + 1 })).coreHalt b 2
  | 6 => (s.setG b x (s.rn (R.CC_CYCLES b))).retire b
  | _ => s.retire b

/-- The instructions of opcode 0x3D. -/
def State.queOp (s : State) (b : Fin 24) (f : Nat) (x y : Fin 32) (i : Nat) (host : Option Bytes) : State :=
  let a := s.gr b y
  match f with
  | 0x00 =>
    if x.val = 8 ∨ x.val = 16 ∨ x.val = 24 then
      s.tryPush b i ((List.range 8).map (fun j => (s.core b).g[Fin.ofNat 32 (x.val + j)])) (fun t => t.retire b)
    else s.plainFault b 6
  | 0x01 => (match s.openQueue b i with
    | none => s.plainFault b 6
    | some _ => s.withLoad b a 64 host (fun t d => t.tryPush b i (Cmd.ofBytes d) (fun u => u.retire b)))
  | 0x02 => (match s.openQueue b i with
    | none => s.plainFault b 6
    | some q => (s.setG b x (q.depth - (s.queue q).cmds.length)).retire b)
  | 0x08 => (s.addSync i a).retire b
  | 0x09 => if a ≤ s.syncVal i then s.retire b else s.stallCore b 5
  | 0x0A => (s.setG b x (s.syncVal i)).retire b
  | 0x0B => (s.setSync i a).retire b
  | 0x10 =>
    if 8 ≤ (s.core b).marks.length then s.stallCore b 4
    else (s.modCore b (fun c => { c with marks := c.marks ++ [⟨i, a, c.allPush⟩] })).retire b
  | 0x18 => s.sclaim b x a (i % 4) host
  | 0x19 => (match (s.core b).slots[Fin.ofNat 4 i] with
    | none => s.plainFault b 1
    | some (k, w) => (s.setG b x (fromLe ((List.range 4).flatMap (fun j => leBytes 2 (randVal k (w + 4 * a + j)))))).retire b)
  | _ => s.vop b x y (Fin.ofNat 32 i)

/-- A load instruction: the bytes it reads and whether it sign-extends. -/
def ldSize (f : Nat) : Nat × Bool :=
  match f with
  | 0 => (1, false)
  | 1 => (2, false)
  | 2 => (4, false)
  | 3 => (8, false)
  | 4 => (1, true)
  | 5 => (2, true)
  | _ => (4, true)

/-- What an instruction does at PC once it is fetched. -/
def State.perform (s : State) (b : Fin 24) (host : Option Bytes) (spec : List (Bool × Nat)) (miss : Bool) : Ed → State
  | .alu f x y z => (s.setG b x (aluOp f (s.gr b y) (s.gr b z))).retire b
  | .imm f x y i => (s.setG b x (immOp f (s.gr b x) (s.gr b y) i)).retire b
  | .ld f x y i =>
    let n := ldSize f
    s.withLoad b ((s.gr b y + simm i) % 2 ^ 64) n.1 host (fun t d =>
      (t.setG b x (if n.2 then toBits 64 (signed (8 * n.1) (fromLe d)) else fromLe d)).retire b)
  | .st f x y i =>
    let n := 2 ^ f.val
    let a := (s.gr b y + simm i) % 2 ^ 64
    if a % n ≠ 0 then s.coreFault b 2 0 a
    else
      let r := s.coreStore b a (leBytes n (s.gr b x))
      match r.2 with
      | .val _ => r.1.retire b
      | .wait => r.1.stallCore b 2
      | .fault c k => r.1.coreFault b c k a
  | .br f x y i =>
    let t := s.predict b spec miss
    let pc := (s.core b).pc
    if brHolds f (s.gr b x) (s.gr b y) then t.jumpTo b (pc + 4 + toBits 48 (4 * signed 16 i)) else t.retire b
  | .jal o => let pc := (s.core b).pc; (s.setG b 31 (pc + 4)).jumpTo b (pc + 4 + toBits 48 (4 * signed 26 o))
  | .j o => s.jumpTo b ((s.core b).pc + 4 + toBits 48 (4 * signed 26 o))
  | .jr x y => let a := s.gr b y; ((s.predict b spec miss).setG b x ((s.core b).pc + 4)).jumpTo b a
  | .loop n y len => s.loopEnter b n (s.gr b y) len
  | .loopi n c len => s.loopEnter b n c len
  | .lcset n y => (s.modCore b (fun c => { c with lc := c.lc.set n (BitVec.ofNat 64 (s.gr b y)) })).retire b
  | .lcget x n => (s.setG b x ((s.core b).lc[n]).toNat).retire b
  | .fp f x y z =>
    let r := fpOp f (s.gr b x % 2 ^ 32) (s.gr b y) (s.gr b y % 2 ^ 32) (s.gr b z % 2 ^ 32)
    (((s.setRn (R.CC_FLAGS b) (s.rn (R.CC_FLAGS b) ||| r.2.toNat % 16)).setG b x r.1).owe b (fpMore f) 7).retire b
  | .sys f x y => s.sysOp b f x y
  | .que f x y i => s.queOp b f x y i host
  | .top x k => s.top b (s.gr b x) k host

/-- A core fetches and executes an instruction (R281, R288, R289, R301). `want` is the instruction that the row names: a word that decodes to
another belongs to another row (DESIGN CHOICE, log 1); none takes whatever is there. -/
def State.issue (s : State) (b : Fin 24) (want : Option Ed) (host : Option Bytes) (spec : List (Bool × Nat)) (miss : Bool) : State :=
  let x := s.core b
  if (s.bench b).out || x.st != 2 || x.claim.isSome then s
  else if x.due ≠ 0 ∧ x.mid = false then s.coreHalt b x.due
  else if x.pc % 4 ≠ 0 then s.coreFault b 2 0 x.pc
  else if !x.stepping && !x.mid && s.rbit (R.CC_BRK_CFG b) 2 && s.rn (R.CC_BRK_PC b) == x.pc then s.coreBreak b
  else
    let r := s.fetch b x.pc
    match r.2 with
    | .inl e => r.1.coreFault b e.1 e.2 x.pc
    | .inr w =>
      match Ed.decode w with
      | none => r.1.plainFault b 1
      | some e =>
        match want with
        | none => r.1.perform b host spec miss e
        | some v => if e = v then r.1.perform b host spec miss e else s

/-- An ECC check of the line that a load of core b reads, as it ends (R423): a corrected word, or an uncorrectable one, which poisons a dirty
line of the L2 and makes a clean line be read again. -/
def State.lineEcc (s : State) (b : Fin 24) (va : Nat) (e : Ecc) : State :=
  match e with
  | .good => s
  | .corrected => benchError s b 0 .corrected
  | .uncorrectable =>
    match (s.coreXlate b va false).2 with
    | .inl _ => s
    | .inr x =>
      let l := x.addr / 64
      let h := halfOf b
      match (s.l2Of h).find? (fun c => c.line == l) with
      | some c =>
        if c.dirty then
          ((s.setL2 h ((s.l2Of h).map (fun d => if d.line = l then { d with bad := true } else d))).modCore b (fun y => { y with dcache := y.dcache.filter (fun d => d.1 != l) }))
        else benchError (s.setL2 h ((s.l2Of h).filter (fun d => d.line != l))) b 0 .corrected
      | none => s

end Sys2Proof.Machine
end

