-- ==== Sys2Proof/Machine/Bars.lean ====
section
/-! DEFINITION. Host accesses through the BARs (R362, R363), the monitor's RD and WR (R393, R394), decisions of submitted claims (R166), deferred
signals (R111), and the passing of a core cycle (R115, R269, R303). -/
namespace Sys2Proof.Machine

/-! ## BARs (R361 to R363) -/

/-- The size of a BAR: BAR0, BAR2, BAR4. -/
def State.barSize (s : State) (i : Fin 3) : Nat :=
  match i with
  | 0 => 2 ^ 26
  | 1 => 2 ^ 29
  | _ => 2 ^ s.pci.bar4k

/-- The device address of a BAR offset (R362): HX_BAR4_BASE counts in whole windows of the selected size (DEDUCED, log 91). -/
def State.barAddr (s : State) (i : Fin 3) (o : Nat) : Nat :=
  match i with
  | 0 => 0x020000000000 + o
  | 1 => 0x010000000000 + o
  | _ => s.rfld R.HX_BAR4_BASE 38 30 * 2 ^ 30 / 2 ^ s.pci.bar4k * 2 ^ s.pci.bar4k + o

/-- Does the endpoint take memory requests: released, memory space enabled, in D0 (R361)? Any other request is unsupported. -/
def State.barOpen (s : State) : Bool := s.released && s.pci.memEn && !s.pci.d3

/-- An error is reported through Advanced Error Reporting (R360, R363): its status bit, and the message to the root (log 11). -/
def State.reportError (s : State) (error : Nat) : State := ({ s with pci := { s.pci with errors := s.pci.errors ||| error } } : State).emit (.aer error)
/-- The status bit of a read that was answered with EP. -/
def poisonError : Nat := 2 ^ 22

/-- BAR_READ (R363): `n` bytes at offset o of a BAR. -/
def barRead (s : State) (i : Fin 3) (o n : Nat) : State :=
  if !s.pci.up then s
  else if !s.barOpen || decide (s.barSize i < o + n) then s.emit (.barReply true false [])
  else
    let s1 := s.addReg (R.HX_COUNT 0) n
    let a := s1.barAddr i o
    if i = 0 then
      (if n = 4 ∨ n = 8 then (let r := s1.regRead a n; r.1.emit (.barReply false false (leBytes n r.2)))
      else s1.emit (.barReply false false (List.replicate n 0)))
    else
      match s1.read a n with
      | some d => s1.emit (.barReply false false d)
      | none => ((s1.addReg (R.HX_COUNT 3) 1).emit (.barReply false true (List.replicate n 0xFF))).reportError poisonError

/-- BAR_WRITE (R363): a posted write. -/
def barWrite (s : State) (i : Fin 3) (o : Nat) (d : Bytes) : State :=
  if !s.pci.up || !s.barOpen || decide (s.barSize i < o + d.length) then s
  else
    let s1 := s.addReg (R.HX_COUNT 1) d.length
    let a := s1.barAddr i o
    if i = 0 then (if d.length = 4 ∨ d.length = 8 then s1.regWrite true a d.length (fromLe d) else s1) else s1.write a d

/-! ## The monitor's RD and WR (R393, R394) -/

/-- RD: an address that cannot be read answers BAD_OPERAND. -/
def monRd (s : State) (a : Nat) : State := monService s (fun t =>
  if isRegSpace a then (let r := t.regRead a 8; r.1.print (leBytes 8 r.2) 0)
  else
    match t.read a 8 with
    | some d => t.print d 0
    | none => t.print [] 3)

/-- WR: 8 bytes; register space follows R239. -/
def monWr (s : State) (a v : Nat) : State := monService s (fun t =>
  if isRegSpace a then (t.regWrite false a 8 v).print [] 0 else (t.write a (leBytes 8 v)).print [] 0)

/-! ## Claims and deferred signals -/

/-- STREAM_CLAIM (R166): the oldest submitted claim is decided and its unit goes on. `bad` is an entry that proves uncorrectable as the table
is read (R423). -/
def streamClaim (s : State) (bad : Option Nat) : State :=
  let s0 := match bad with
    | some i => claimUe s i
    | none => s
  match s0.spall.queue with
  | [] => s0
  | c :: rest =>
    let r := ({ s0 with spall := { s0.spall with queue := rest } } : State).decideClaim c
    match c.who with
    | .crusher b => rotClaimed r.1 b r.2
    | .core b => coreClaimed r.1 b c r.2
    | .update k => updClaimed r.1 k c r.2
    | .coll u => collClaimed r.1 u r.2

/-- DEFERRED_SIGNAL_ADD (R111) of the engine that a queue belongs to. -/
def deferredAdd (s : State) (q : QRef) : State :=
  match q with
  | .bench b => benchSigAdd s b
  | .mason b => muSigAdd s b
  | .crusher b => crSigAdd s b
  | .derrick d => dkSigAdd s d
  | .update k => ueSigAdd s k
  | .coll u => clSigAdd s u

/-- RUN (R276), with the first capture of its phase records (R300, R379). -/
def runRow (s : State) (r : Fin 64) : State :=
  let t := run s r
  match t.runs[s.runs.length]? with
  | some x => t.captureRun x.mask
  | none => t

/-! ## A core cycle -/

/-- Is the head of a queue a SYNC_WAIT that is not yet satisfied? -/
def State.headWaits (s : State) (q : EQ) : Bool :=
  match q.cmds.head? with
  | some c => c.op == 0x20 && decide (s.syncVal (c.f 1 7 0) < c.w 2)
  | none => false

/-- Is the head of the bench queue a TILE that finds no tile slot free (R96, R115)? -/
def Bench.slotWait (x : Bench) : Bool :=
  !x.out && x.fault.isNone && !x.commitCmd && x.q.head?.any (fun c => c.op == 0x10) && decide (2 ≤ x.tiles.length)

/-- The BN_STALL counter that a cycle is charged to (R115): the first cause that applies. The array advances while rows still leave it
before a spill. DESIGN CHOICE (log 82): counter 2 is never charged, since the model's banks take every write at once, and a cycle to which
no cause of the table applies is charged to 9. -/
def State.benchCause (s : State) (b : Fin 24) : Nat :=
  let x := s.bench b
  let fill := x.fill?.filter (fun t => !x.faulty t)
  let spill := fill.any (fun t => t.spillDue && !x.inArray.any (fun r => r.tile == t.id))
  let early := fill.any Tile.early
  if fill.isSome && !x.partWait && !x.shadowFull && !spill && !early then 0
  else if x.partWait then 1
  else if x.shadowFull then 3
  else if spill then 4
  else if early then 5
  else if s.headWaits x.q then 6
  else if x.slotWait then 7
  else if x.q.halted || x.fault.isSome then 8
  else 9

/-- The DK_STALL counter that a derrick's cycle is charged to: the first cause of the table that applies (R269); where none does, ISSUE
(DESIGN CHOICE, log 2). -/
def State.dkCause (s : State) (d : Fin 48) : Nat :=
  let x := s.dk d
  let next := if x.q.halted then none else x.runs.find? DkRun.open'
  let walk := next.any (s.dkWalks d)
  let held := next.isSome && (s.arbs.any (fun e => e.2.held.any (fun r => r.who == 96 + d)) || next.any (s.dkQuota d))
  let slot := next.any (fun r => !r.waits.isEmpty && ((s.bench (Fin.ofNat 24 (Dsc.bench r.cmd))).slotMeta (ringSlot r r.put)).pend)
  let version := next.any (fun r => Dsc.ofRegion r.cmd && !r.begun)
  (([x.issued, walk, held, s.tagsOut (96 + d), slot, version, s.headWaits x.q, next.isNone && !x.runs.isEmpty, x.q.halted, x.q.cmds.isEmpty].findIdx?
    (· == true)).getD 0)

/-- The causes of the first n of the cycles that instructions cost besides their own, and what is left of these. -/
def oweTake : Nat → List (Nat × Nat) → List Nat × List (Nat × Nat)
  | 0, l => ([], l)
  | _, [] => ([], [])
  | k + 1, (n, why) :: r =>
    if k + 1 ≤ n then (List.replicate (k + 1) why, (n - (k + 1), why) :: r)
    else let q := oweTake (k + 1 - n) r; (List.replicate n why ++ q.1, q.2)

/-- What a control-core cycle is charged to where no instruction retires or costs one (R303). DESIGN CHOICE (log 90): a core that waits for a claim is
charged to QUEUE, and one that runs without a cause of the table to ICACHE. -/
def Core.idleCause (x : Core) : Nat := if x.st = 3 then 8 else if x.st ≠ 2 then 9 else if x.why = 0 then 1 else x.why

/-- The CC_STALL counters that n control-core cycles are charged to (R303): instructions retired, then what retired instructions cost besides, then
what the core stalls on. -/
def Core.charges (x : Core) (n : Nat) : List Nat :=
  (List.replicate (min n x.retired) 0 ++ (oweTake (n - x.retired) x.owed).1 ++ List.replicate n x.idleCause).take n

/-- What is still to be charged after n control-core cycles. -/
def Core.charged (x : Core) (n : Nat) : Core := { x with retired := x.retired - n, owed := (oweTake (n - x.retired) x.owed).2 }

/-- The counters of a powered bench that is not fenced, over one core cycle: bench, derricks and core, which runs DIV / 2 cycles meanwhile (R5,
R406). -/
def State.benchTick (s : State) (b : Fin 24) : State :=
  if (s.bench b).out || !s.rbit R.PW_DOMAIN b then s
  else
    let n := s.rfld R.CK_CORE 3 0 / 2
    let s1 := s.addReg (R.BN_STALL b (s.benchCause b)) 1
    let s2 := s1.addReg (R.DK_STALL (dkOf b 0) (s.dkCause (dkOf b 0))) 1
    let s3 := s2.addReg (R.DK_STALL (dkOf b 1) (s.dkCause (dkOf b 1))) 1
    let s4 := (s3.modDk (dkOf b 0) (fun x => { x with issued := false })).modDk (dkOf b 1) (fun x => { x with issued := false })
    let s5 := s4.modCore b (fun x => x.charged n)
    (((s.core b).charges n).foldl (fun t i => t.addReg (R.CC_STALL b i) 1) s5).addReg (R.CC_CYCLES b) n

/-- Does the next edge of the core clock pass the clock trees of the benches (R403)? Of every 64 edges as many pass as the duty says; which they are
is free. -/
def State.edgePasses (s : State) : Bool :=
  let p := s.pwr
  let want := p.dutyNow - p.passed
  decide (64 - p.edges ≤ want) || (decide (0 < want) && Config.freeBool s.freeCtr)

/-- An edge of the core clock counted (R403): passed or swallowed. -/
def Pwr.edge (p : Pwr) (go : Bool) : Pwr :=
  if p.edges = 63 then { p with edges := 0, passed := 0 } else { p with edges := p.edges + 1, passed := p.passed + b2n go }

/-- A VC out of credit on a port that carries flits is counted (R330). -/
def State.portTick (s : State) (p : Fin 16) : State :=
  let x := s.port p
  if x.live && x.credits.contains 0 then s.addReg (R.LK_COUNT p 7) 1 else s

/-- A core cycle passes (DESIGN CHOICE, log 2): local time and the counters of cycles, those of the benches only where its edge is not swallowed
(R403). The unit of time is one cycle of 1.3 GHz. -/
def State.tick (s : State) : State :=
  let go := s.edgePasses
  let s0 := s.draw.modPwr (fun p => p.edge go)
  let s1 := if go then (List.finRange 24).foldl State.benchTick s0 else s0
  let s2 := (List.finRange 16).foldl State.portTick s1
  ({ s2 with time := s2.time + s2.rfld R.CK_CORE 3 0 / 4 } : State).mgmtTick

end Sys2Proof.Machine
end

