-- ==== Sys2Proof/Machine/BenchRows.lean ====
section
/-! DEFINITION. The meanings of the commands of the bench queue, the array and the local store. -/
namespace Sys2Proof.Machine

/-- BENCH_NOP (R111). -/
def execBenchNop (b : Fin 24) (s : State) : Res := .next (benchNop s b)

/-- TILE (R112). -/
def execTile (b : Fin 24) (s : State) : Res := .next (tile s b)

/-- BENCH_SYNC_WAIT (R111). -/
def execBenchSyncWait (b : Fin 24) (s : State) : Res := .next (benchSyncWait s b)

/-- BENCH_SYNC_SIGNAL (R111). -/
def execBenchSyncSignal (b : Fin 24) (s : State) : Res := .next (benchSyncSignal s b)

/-- DEFERRED_SIGNAL_ADD (R111). -/
def execDeferredSignalAdd (q : Machine.QRef) (s : State) : Res := .next (deferredAdd s q)

/-- SETREG (R111). -/
def execSetreg (b : Fin 24) (s : State) : Res := .next (setReg s b)

/-- BENCH_COMMIT (R106). -/
def execBenchCommit (b : Fin 24) (s : State) : Res := .next (benchCommit s b)

/-- BENCH_HALT (R111). -/
def execBenchHalt (b : Fin 24) (s : State) : Res := .next (benchHaltCmd s b)

/-- BN_COMMIT_GO (R106). -/
def execBnCommitGo (b : Fin 24) (s : State) : Res := .next (commitGo s b)

/-- COMMIT_COPY (R106). -/
def execCommitCopy (b : Fin 24) (s : State) : Res := .next (commitCopy s b)

/-- BN_RESUME (R104). -/
def execBnResume (b : Fin 24) (s : State) : Res := .next (bnResume s b)

/-- BN_SKIP (R104). -/
def execBnSkip (b : Fin 24) (s : State) : Res := .next (bnSkip s b)

/-- BN_HALT_REQ (R114). -/
def execBnHaltReq (b : Fin 24) (s : State) : Res := .next (bnHaltReq s b)

/-- BN_CNT_CLR (R114). -/
def execBnCntClr (b : Fin 24) (s : State) : Res := .next (bnCntClr s b)

/-- BN_FLAGS_CLEAR (R80). -/
def execBnFlagsClear (b : Fin 24) (mask : Nat) (s : State) : Res := .next (bnFlagsClear s b mask)

/-- BN_FLAGS_RC_READ (R80). -/
def execBnFlagsRcRead (b : Fin 24) (s : State) : Res := .next (bnFlagsRcRead s b)

/-- BEAT_ENTRY (R87). -/
def execBeatEntry (b : Fin 24) (s : State) : Res := .next (beatEntry s b)

/-- TILE_FAULT_POISON_DONE (R101). -/
def execTileFaultPoisonDone (b : Fin 24) (s : State) : Res := .next (poisonDone s b)

/-- PARTIAL_READ_RETURN (R91). -/
def execPartialReadReturn (b : Fin 24) (s : State) : Res := .next (partialReturn s b)

/-- ROW_FINAL (R87). -/
def execRowFinal (b : Fin 24) (s : State) : Res := .next (rowFinal s b)

/-- PART_TIMEOUT (R103). -/
def execPartTimeout (b : Fin 24) (s : State) : Res := .next (partTimeout s b)

/-- AUTOSPLIT_SPILL (R61). -/
def execAutosplitSpill (b : Fin 24) (s : State) : Res := .next (autosplitSpill s b)

/-- TABLE_BUILD (R146). -/
def execTableBuild (b : Fin 24) (s : State) : Res := .next (tableBuild s b)

/-- LOCAL_STORE_WRITE (R95). -/
def execLocalStoreWrite (b : Fin 24) (off : Nat) (d : Bytes) (s : State) : Res := .next (storeWrite s b off (d.take (64 - off % 64)))

end Sys2Proof.Machine
end

