-- ==== Sys2Proof/Machine/CollectRows.lean ====
section
/-! DEFINITION. The meanings of the commands of the collective units. -/
namespace Sys2Proof.Machine

/-- CL_NOP (R334). -/
def execClNop (u : Fin 4) (s : State) : Res := .next (clNop s u)

/-- CL_SYNC_WAIT (R334). -/
def execClSyncWait (u : Fin 4) (s : State) : Res := .next (clSyncWait s u)

/-- CL_SYNC_SIGNAL (R334). -/
def execClSyncSignal (u : Fin 4) (s : State) : Res := .next (clSyncSignal s u)

/-- COLL (R337). -/
def execColl (u : Fin 4) (s : State) : Res := .next (coll s u)

/-- COLL_FLIT (R338). -/
def execCollFlit (s : State) : Res := .next (collFlitIn s)

/-- CHUNK_COMBINE (R346). -/
def execChunkCombine (u : Fin 4) (id : Nat) (c : Nat) (bad : Bool) (s : State) : Res := .next (chunkCombine s u id c bad)

/-- PATIENCE_EXPIRY (R351). -/
def execPatienceExpiry (u : Fin 4) (id : Nat) (s : State) : Res := .next (patienceExpiry s u id)

/-- COLL_COMPLETE (R352). -/
def execCollComplete (u : Fin 4) (id : Nat) (s : State) : Res := .next (collComplete s u id)

/-- TALLY_EXCHANGE_START (R355). -/
def execTallyExchangeStart (bad : Option Nat) (s : State) : Res := .next (tallyStart (match bad with | some i => tallyUe s i | none => s))

/-- TPATIENCE_EXPIRY (R355). -/
def execTpatienceExpiry (s : State) : Res := .next (tallyExpiry s)

/-- CL_RESUME (R358). -/
def execClResume (u : Fin 4) (s : State) : Res := .next (clResume s u)

/-- CL_SKIP (R358). -/
def execClSkip (u : Fin 4) (s : State) : Res := .next (clSkip s u)

/-- CL_CNT_CLR (R358). -/
def execClCntClr (u : Fin 4) (s : State) : Res := .next (clCntClr s u)

/-- CL_TALLY_SEL_WRITE (R358). -/
def execClTallySelWrite (v : Nat) (s : State) : Res := .next (tallySelWrite s v)

/-- CL_TALLY_FIND (R358). -/
def execClTallyFind (v : Nat) (s : State) : Res := .next (tallyFind s v)

/-- CL_TALLY_RETIRE (R354). -/
def execClTallyRetire (v : Nat) (s : State) : Res := .next (tallyRetire s v)

end Sys2Proof.Machine
end

