-- ==== Sys2Proof/Machine/CommitRows.lean ====
section
/-! DEFINITION. The meanings of the commands of the step commit. -/
namespace Sys2Proof.Machine

/-- PREPARE_REQUEST (R224). -/
def execPrepareRequest (v : Nat) (s : State) : Res := .next (prepareRequest s v)

/-- VOTE_SEND (R224). -/
def execVoteSend (s : State) : Res := .next (voteSend s)

/-- VOTE_REPEAT (R396). -/
def execVoteRepeat (s : State) : Res := .next (voteRepeat s)

/-- CM_VOTE (R229). -/
def execCmVote (s : State) : Res := .next (cmVote s)

/-- PTIMEOUT_EXPIRY (R229). -/
def execPtimeoutExpiry (s : State) : Res := .next (ptimeoutExpiry s)

/-- CM_COMMIT (R228). -/
def execCmCommit (s : State) : Res := .next (cmCommit s)

/-- CM_DISCARD (R228). -/
def execCmDiscard (s : State) : Res := .next (cmDiscard s)

/-- CM_QUERY (R230). -/
def execCmQuery (s : State) : Res := .next (cmQuery s)

/-- CM_STATE (R230). -/
def execCmState (s : State) : Res := .next (cmStateMsg s)

/-- COMMIT_TAKEOVER (R230). -/
def execCommitTakeover (s : State) : Res := .next (commitTakeover s)

/-- DECISION_APPLY (R231). -/
def execDecisionApply (s : State) : Res := .next (decisionApply s)

end Sys2Proof.Machine
end

