-- ==== Sys2Proof/Machine/DerrickRows.lean ====
section
/-! DEFINITION. The meanings of the commands of the derricks. -/
namespace Sys2Proof.Machine

/-- DK_NOP (R256). -/
def execDkNop (d : Fin 48) (s : State) : Res := .next (dkNop s d)

/-- DK_SYNC_WAIT (R256). -/
def execDkSyncWait (d : Fin 48) (s : State) : Res := .next (dkSyncWait s d)

/-- DK_SYNC_SIGNAL (R256). -/
def execDkSyncSignal (d : Fin 48) (s : State) : Res := .next (dkSyncSignal s d)

/-- COPY (R259). -/
def execCopy (d : Fin 48) (s : State) : Res := .next (dkStart s d 0x70)

/-- FILL (R256). -/
def execFill (d : Fin 48) (s : State) : Res := .next (dkStart s d 0x71)

/-- SLOTFILL (R259). -/
def execSlotfill (d : Fin 48) (s : State) : Res := .next (dkStart s d 0x72)

/-- PLANE (R259). -/
def execPlane (d : Fin 48) (s : State) : Res := .next (dkStart s d 0x73)

/-- DERRICK_REQUEST (R258). -/
def execDerrickRequest (d : Fin 48) (host : Option Bytes) (bad : Bool) (s : State) : Res := .next (derrickRequest s d host bad)

/-- RUN_AHEAD_READ (R267). -/
def execRunAheadRead (d : Fin 48) (s : State) : Res := .next (runAhead s d)

/-- SLOT_WRITE (R261). -/
def execSlotWrite (d : Fin 48) (s : State) : Res := .next (slotWrite s d)

/-- DESCRIPTOR_COMPLETE (R260). -/
def execDescriptorComplete (d : Fin 48) (s : State) : Res := .next (descComplete s d)

/-- DK_RESUME (R258). -/
def execDkResume (d : Fin 48) (s : State) : Res := .next (dkResume s d)

/-- DK_SKIP (R258). -/
def execDkSkip (d : Fin 48) (s : State) : Res := .next (dkSkip s d)

/-- DK_CNT_CLR (R270). -/
def execDkCntClr (d : Fin 48) (s : State) : Res := .next (dkCntClr s d)

end Sys2Proof.Machine
end

