-- ==== Sys2Proof/Machine/DresserRows.lean ====
section
/-! DEFINITION. The meanings of the commands of the dresser. -/
namespace Sys2Proof.Machine

/-- DRAIN_DESCRIPTOR_ARRIVAL (R117). -/
def execDrainDescriptorArrival (b : Fin 24) (s : State) : Res := .next (drainArrive s b)

/-- DRESSER_ROW (R120). -/
def execDresserRow (b : Fin 24) (s : State) : Res := .next (dresserRow s b)

/-- TILE_STATUS_WRITE (R81). -/
def execTileStatusWrite (b : Fin 24) (s : State) : Res := .next (tileStatus s b)

/-- DR_TABLE_WRITE (R123). -/
def execDrTableWrite (b : Fin 24) (p : Fin 2) (off : Fin 8192) (v : Nat) (s : State) : Res := .next (drTableWrite s b p off v)

/-- DR_CNT_CLR (R134). -/
def execDrCntClr (b : Fin 24) (s : State) : Res := .next (drCntClr s b)

end Sys2Proof.Machine
end

