-- ==== Sys2Proof/Machine/EdvenRows.lean ====
section
/-! DEFINITION. The meanings of the commands of the control cores. -/
namespace Sys2Proof.Machine

/-- ADD (R282). -/
def execEdAdd (b : Fin 24) (x : Fin 32) (y : Fin 32) (z : Fin 32) (s : State) : Res := .next (s.issue b (some (.alu 0 x y z)) none [] false)

/-- SUB (R282). -/
def execEdSub (b : Fin 24) (x : Fin 32) (y : Fin 32) (z : Fin 32) (s : State) : Res := .next (s.issue b (some (.alu 1 x y z)) none [] false)

/-- AND (R282). -/
def execEdAnd (b : Fin 24) (x : Fin 32) (y : Fin 32) (z : Fin 32) (s : State) : Res := .next (s.issue b (some (.alu 2 x y z)) none [] false)

/-- OR (R282). -/
def execEdOr (b : Fin 24) (x : Fin 32) (y : Fin 32) (z : Fin 32) (s : State) : Res := .next (s.issue b (some (.alu 3 x y z)) none [] false)

/-- XOR (R282). -/
def execEdXor (b : Fin 24) (x : Fin 32) (y : Fin 32) (z : Fin 32) (s : State) : Res := .next (s.issue b (some (.alu 4 x y z)) none [] false)

/-- SLL (R282). -/
def execEdSll (b : Fin 24) (x : Fin 32) (y : Fin 32) (z : Fin 32) (s : State) : Res := .next (s.issue b (some (.alu 5 x y z)) none [] false)

/-- SRL (R282). -/
def execEdSrl (b : Fin 24) (x : Fin 32) (y : Fin 32) (z : Fin 32) (s : State) : Res := .next (s.issue b (some (.alu 6 x y z)) none [] false)

/-- SRA (R282). -/
def execEdSra (b : Fin 24) (x : Fin 32) (y : Fin 32) (z : Fin 32) (s : State) : Res := .next (s.issue b (some (.alu 7 x y z)) none [] false)

/-- MUL (R282). -/
def execEdMul (b : Fin 24) (x : Fin 32) (y : Fin 32) (z : Fin 32) (s : State) : Res := .next (s.issue b (some (.alu 8 x y z)) none [] false)

/-- MULHU (R282). -/
def execEdMulhu (b : Fin 24) (x : Fin 32) (y : Fin 32) (z : Fin 32) (s : State) : Res := .next (s.issue b (some (.alu 9 x y z)) none [] false)

/-- DIVU (R283). -/
def execEdDivu (b : Fin 24) (x : Fin 32) (y : Fin 32) (z : Fin 32) (s : State) : Res := .next (s.issue b (some (.alu 10 x y z)) none [] false)

/-- REMU (R283). -/
def execEdRemu (b : Fin 24) (x : Fin 32) (y : Fin 32) (z : Fin 32) (s : State) : Res := .next (s.issue b (some (.alu 11 x y z)) none [] false)

/-- DIV (R283). -/
def execEdDiv (b : Fin 24) (x : Fin 32) (y : Fin 32) (z : Fin 32) (s : State) : Res := .next (s.issue b (some (.alu 12 x y z)) none [] false)

/-- REM (R283). -/
def execEdRem (b : Fin 24) (x : Fin 32) (y : Fin 32) (z : Fin 32) (s : State) : Res := .next (s.issue b (some (.alu 13 x y z)) none [] false)

/-- SLT (R282). -/
def execEdSlt (b : Fin 24) (x : Fin 32) (y : Fin 32) (z : Fin 32) (s : State) : Res := .next (s.issue b (some (.alu 14 x y z)) none [] false)

/-- SLTU (R282). -/
def execEdSltu (b : Fin 24) (x : Fin 32) (y : Fin 32) (z : Fin 32) (s : State) : Res := .next (s.issue b (some (.alu 15 x y z)) none [] false)

/-- MIN (R282). -/
def execEdMin (b : Fin 24) (x : Fin 32) (y : Fin 32) (z : Fin 32) (s : State) : Res := .next (s.issue b (some (.alu 16 x y z)) none [] false)

/-- MAX (R282). -/
def execEdMax (b : Fin 24) (x : Fin 32) (y : Fin 32) (z : Fin 32) (s : State) : Res := .next (s.issue b (some (.alu 17 x y z)) none [] false)

/-- ADDI (R282). -/
def execEdAddi (b : Fin 24) (x : Fin 32) (y : Fin 32) (i : Fin 65536) (s : State) : Res := .next (s.issue b (some (.imm 0 x y i)) none [] false)

/-- ANDI (R282). -/
def execEdAndi (b : Fin 24) (x : Fin 32) (y : Fin 32) (i : Fin 65536) (s : State) : Res := .next (s.issue b (some (.imm 1 x y i)) none [] false)

/-- ORI (R282). -/
def execEdOri (b : Fin 24) (x : Fin 32) (y : Fin 32) (i : Fin 65536) (s : State) : Res := .next (s.issue b (some (.imm 2 x y i)) none [] false)

/-- XORI (R282). -/
def execEdXori (b : Fin 24) (x : Fin 32) (y : Fin 32) (i : Fin 65536) (s : State) : Res := .next (s.issue b (some (.imm 3 x y i)) none [] false)

/-- SLLI (R282). -/
def execEdSlli (b : Fin 24) (x : Fin 32) (y : Fin 32) (i : Fin 64) (s : State) : Res := .next (s.issue b (some (.imm 4 x y (Fin.ofNat 65536 i))) none [] false)

/-- SRLI (R282). -/
def execEdSrli (b : Fin 24) (x : Fin 32) (y : Fin 32) (i : Fin 64) (s : State) : Res := .next (s.issue b (some (.imm 5 x y (Fin.ofNat 65536 i))) none [] false)

/-- SRAI (R282). -/
def execEdSrai (b : Fin 24) (x : Fin 32) (y : Fin 32) (i : Fin 64) (s : State) : Res := .next (s.issue b (some (.imm 6 x y (Fin.ofNat 65536 i))) none [] false)

/-- LUI (R282). -/
def execEdLui (b : Fin 24) (x : Fin 32) (i : Fin 65536) (s : State) : Res := .next (s.issue b (some (.imm 7 x 0 i)) none [] false)

/-- SHLORI (R282). -/
def execEdShlori (b : Fin 24) (x : Fin 32) (i : Fin 65536) (s : State) : Res := .next (s.issue b (some (.imm 8 x 0 i)) none [] false)

/-- SLTI (R282). -/
def execEdSlti (b : Fin 24) (x : Fin 32) (y : Fin 32) (i : Fin 65536) (s : State) : Res := .next (s.issue b (some (.imm 9 x y i)) none [] false)

/-- LD8U (R282). -/
def execEdLd8u (b : Fin 24) (x : Fin 32) (y : Fin 32) (i : Fin 65536) (host : Option Bytes) (s : State) : Res := .next (s.issue b (some (.ld 0 x y i)) host [] false)

/-- LD16U (R282). -/
def execEdLd16u (b : Fin 24) (x : Fin 32) (y : Fin 32) (i : Fin 65536) (host : Option Bytes) (s : State) : Res := .next (s.issue b (some (.ld 1 x y i)) host [] false)

/-- LD32U (R282). -/
def execEdLd32u (b : Fin 24) (x : Fin 32) (y : Fin 32) (i : Fin 65536) (host : Option Bytes) (s : State) : Res := .next (s.issue b (some (.ld 2 x y i)) host [] false)

/-- LD64 (R282). -/
def execEdLd64 (b : Fin 24) (x : Fin 32) (y : Fin 32) (i : Fin 65536) (host : Option Bytes) (ecc : Machine.Ecc) (s : State) : Res := .next ((s.lineEcc b ((s.gr b y + simm i) % 2 ^ 64) ecc).issue b (some (.ld 3 x y i)) host [] false)

/-- LD8S (R282). -/
def execEdLd8s (b : Fin 24) (x : Fin 32) (y : Fin 32) (i : Fin 65536) (host : Option Bytes) (s : State) : Res := .next (s.issue b (some (.ld 4 x y i)) host [] false)

/-- LD16S (R282). -/
def execEdLd16s (b : Fin 24) (x : Fin 32) (y : Fin 32) (i : Fin 65536) (host : Option Bytes) (s : State) : Res := .next (s.issue b (some (.ld 5 x y i)) host [] false)

/-- LD32S (R282). -/
def execEdLd32s (b : Fin 24) (x : Fin 32) (y : Fin 32) (i : Fin 65536) (host : Option Bytes) (s : State) : Res := .next (s.issue b (some (.ld 6 x y i)) host [] false)

/-- ST8 (R282). -/
def execEdSt8 (b : Fin 24) (x : Fin 32) (y : Fin 32) (i : Fin 65536) (s : State) : Res := .next (s.issue b (some (.st 0 x y i)) none [] false)

/-- ST16 (R282). -/
def execEdSt16 (b : Fin 24) (x : Fin 32) (y : Fin 32) (i : Fin 65536) (s : State) : Res := .next (s.issue b (some (.st 1 x y i)) none [] false)

/-- ST32 (R282). -/
def execEdSt32 (b : Fin 24) (x : Fin 32) (y : Fin 32) (i : Fin 65536) (s : State) : Res := .next (s.issue b (some (.st 2 x y i)) none [] false)

/-- ST64 (R282). -/
def execEdSt64 (b : Fin 24) (x : Fin 32) (y : Fin 32) (i : Fin 65536) (s : State) : Res := .next (s.issue b (some (.st 3 x y i)) none [] false)

/-- BEQ (R282). -/
def execEdBeq (b : Fin 24) (x : Fin 32) (y : Fin 32) (i : Fin 65536) (spec : List (Bool × Nat)) (miss : Bool) (s : State) : Res := .next (s.issue b (some (.br 0 x y i)) none spec miss)

/-- BNE (R282). -/
def execEdBne (b : Fin 24) (x : Fin 32) (y : Fin 32) (i : Fin 65536) (spec : List (Bool × Nat)) (miss : Bool) (s : State) : Res := .next (s.issue b (some (.br 1 x y i)) none spec miss)

/-- BLT (R282). -/
def execEdBlt (b : Fin 24) (x : Fin 32) (y : Fin 32) (i : Fin 65536) (spec : List (Bool × Nat)) (miss : Bool) (s : State) : Res := .next (s.issue b (some (.br 2 x y i)) none spec miss)

/-- BGE (R282). -/
def execEdBge (b : Fin 24) (x : Fin 32) (y : Fin 32) (i : Fin 65536) (spec : List (Bool × Nat)) (miss : Bool) (s : State) : Res := .next (s.issue b (some (.br 3 x y i)) none spec miss)

/-- BLTU (R282). -/
def execEdBltu (b : Fin 24) (x : Fin 32) (y : Fin 32) (i : Fin 65536) (spec : List (Bool × Nat)) (miss : Bool) (s : State) : Res := .next (s.issue b (some (.br 4 x y i)) none spec miss)

/-- BGEU (R282). -/
def execEdBgeu (b : Fin 24) (x : Fin 32) (y : Fin 32) (i : Fin 65536) (spec : List (Bool × Nat)) (miss : Bool) (s : State) : Res := .next (s.issue b (some (.br 5 x y i)) none spec miss)

/-- JAL (R282). -/
def execEdJal (b : Fin 24) (o : Fin 67108864) (s : State) : Res := .next (s.issue b (some (.jal o)) none [] false)

/-- J (R282). -/
def execEdJ (b : Fin 24) (o : Fin 67108864) (s : State) : Res := .next (s.issue b (some (.j o)) none [] false)

/-- JR (R282). -/
def execEdJr (b : Fin 24) (x : Fin 32) (y : Fin 32) (spec : List (Bool × Nat)) (miss : Bool) (s : State) : Res := .next (s.issue b (some (.jr x y)) none spec miss)

/-- LOOP (R285). -/
def execEdLoop (b : Fin 24) (n : Fin 4) (y : Fin 32) (len : Fin 65536) (s : State) : Res := .next (s.issue b (some (.loop n y len)) none [] false)

/-- LOOPI (R285). -/
def execEdLoopi (b : Fin 24) (n : Fin 4) (c : Fin 256) (len : Fin 65536) (s : State) : Res := .next (s.issue b (some (.loopi n c len)) none [] false)

/-- LCSET (R285). -/
def execEdLcset (b : Fin 24) (n : Fin 4) (y : Fin 32) (s : State) : Res := .next (s.issue b (some (.lcset n y)) none [] false)

/-- LCGET (R282). -/
def execEdLcget (b : Fin 24) (x : Fin 32) (n : Fin 4) (s : State) : Res := .next (s.issue b (some (.lcget x n)) none [] false)

/-- FADD (R284). -/
def execEdFadd (b : Fin 24) (x : Fin 32) (y : Fin 32) (z : Fin 32) (s : State) : Res := .next (s.issue b (some (.fp 0x00 x y z)) none [] false)

/-- FSUB (R284). -/
def execEdFsub (b : Fin 24) (x : Fin 32) (y : Fin 32) (z : Fin 32) (s : State) : Res := .next (s.issue b (some (.fp 0x01 x y z)) none [] false)

/-- FMUL (R284). -/
def execEdFmul (b : Fin 24) (x : Fin 32) (y : Fin 32) (z : Fin 32) (s : State) : Res := .next (s.issue b (some (.fp 0x02 x y z)) none [] false)

/-- FDIV (R284). -/
def execEdFdiv (b : Fin 24) (x : Fin 32) (y : Fin 32) (z : Fin 32) (s : State) : Res := .next (s.issue b (some (.fp 0x03 x y z)) none [] false)

/-- FSQRT (R284). -/
def execEdFsqrt (b : Fin 24) (x : Fin 32) (y : Fin 32) (z : Fin 32) (s : State) : Res := .next (s.issue b (some (.fp 0x04 x y z)) none [] false)

/-- FRSQRT (R284). -/
def execEdFrsqrt (b : Fin 24) (x : Fin 32) (y : Fin 32) (z : Fin 32) (s : State) : Res := .next (s.issue b (some (.fp 0x05 x y z)) none [] false)

/-- FLOG2 (R284). -/
def execEdFlog2 (b : Fin 24) (x : Fin 32) (y : Fin 32) (z : Fin 32) (s : State) : Res := .next (s.issue b (some (.fp 0x06 x y z)) none [] false)

/-- FEXP2 (R284). -/
def execEdFexp2 (b : Fin 24) (x : Fin 32) (y : Fin 32) (z : Fin 32) (s : State) : Res := .next (s.issue b (some (.fp 0x07 x y z)) none [] false)

/-- FMA (R284). -/
def execEdFma (b : Fin 24) (x : Fin 32) (y : Fin 32) (z : Fin 32) (s : State) : Res := .next (s.issue b (some (.fp 0x08 x y z)) none [] false)

/-- FMAXIMUM (R74). -/
def execEdFmaximum (b : Fin 24) (x : Fin 32) (y : Fin 32) (z : Fin 32) (s : State) : Res := .next (s.issue b (some (.fp 0x09 x y z)) none [] false)

/-- FMINIMUM (R74). -/
def execEdFminimum (b : Fin 24) (x : Fin 32) (y : Fin 32) (z : Fin 32) (s : State) : Res := .next (s.issue b (some (.fp 0x0A x y z)) none [] false)

/-- FMAXIMUM_NUMBER (R74). -/
def execEdFmaximumNumber (b : Fin 24) (x : Fin 32) (y : Fin 32) (z : Fin 32) (s : State) : Res := .next (s.issue b (some (.fp 0x0B x y z)) none [] false)

/-- FMINIMUM_NUMBER (R74). -/
def execEdFminimumNumber (b : Fin 24) (x : Fin 32) (y : Fin 32) (z : Fin 32) (s : State) : Res := .next (s.issue b (some (.fp 0x0C x y z)) none [] false)

/-- FEQUAL (R77). -/
def execEdFequal (b : Fin 24) (x : Fin 32) (y : Fin 32) (z : Fin 32) (s : State) : Res := .next (s.issue b (some (.fp 0x10 x y z)) none [] false)

/-- FNOT_EQUAL (R77). -/
def execEdFnotEqual (b : Fin 24) (x : Fin 32) (y : Fin 32) (z : Fin 32) (s : State) : Res := .next (s.issue b (some (.fp 0x11 x y z)) none [] false)

/-- FLESS (R77). -/
def execEdFless (b : Fin 24) (x : Fin 32) (y : Fin 32) (z : Fin 32) (s : State) : Res := .next (s.issue b (some (.fp 0x12 x y z)) none [] false)

/-- FLESS_EQUAL (R77). -/
def execEdFlessEqual (b : Fin 24) (x : Fin 32) (y : Fin 32) (z : Fin 32) (s : State) : Res := .next (s.issue b (some (.fp 0x13 x y z)) none [] false)

/-- FGREATER (R77). -/
def execEdFgreater (b : Fin 24) (x : Fin 32) (y : Fin 32) (z : Fin 32) (s : State) : Res := .next (s.issue b (some (.fp 0x14 x y z)) none [] false)

/-- FGREATER_EQUAL (R77). -/
def execEdFgreaterEqual (b : Fin 24) (x : Fin 32) (y : Fin 32) (z : Fin 32) (s : State) : Res := .next (s.issue b (some (.fp 0x15 x y z)) none [] false)

/-- FUNORDERED (R77). -/
def execEdFunordered (b : Fin 24) (x : Fin 32) (y : Fin 32) (z : Fin 32) (s : State) : Res := .next (s.issue b (some (.fp 0x16 x y z)) none [] false)

/-- FCVTIS (R284). -/
def execEdFcvtis (b : Fin 24) (x : Fin 32) (y : Fin 32) (z : Fin 32) (s : State) : Res := .next (s.issue b (some (.fp 0x18 x y z)) none [] false)

/-- FCVTSI (R284). -/
def execEdFcvtsi (b : Fin 24) (x : Fin 32) (y : Fin 32) (z : Fin 32) (s : State) : Res := .next (s.issue b (some (.fp 0x19 x y z)) none [] false)

/-- FTOTAL (R284). -/
def execEdFtotal (b : Fin 24) (x : Fin 32) (y : Fin 32) (z : Fin 32) (s : State) : Res := .next (s.issue b (some (.fp 0x1A x y z)) none [] false)

/-- FREM (R284). -/
def execEdFrem (b : Fin 24) (x : Fin 32) (y : Fin 32) (z : Fin 32) (s : State) : Res := .next (s.issue b (some (.fp 0x1B x y z)) none [] false)

/-- FENCE (R282). -/
def execEdFence (b : Fin 24) (s : State) : Res := .next (s.issue b (some (.sys 0 0 0)) none [] false)

/-- DCLEAN (R282). -/
def execEdDclean (b : Fin 24) (y : Fin 32) (s : State) : Res := .next (s.issue b (some (.sys 1 0 y)) none [] false)

/-- DINV (R282). -/
def execEdDinv (b : Fin 24) (y : Fin 32) (s : State) : Res := .next (s.issue b (some (.sys 2 0 y)) none [] false)

/-- IINV (R282). -/
def execEdIinv (b : Fin 24) (s : State) : Res := .next (s.issue b (some (.sys 3 0 0)) none [] false)

/-- END (R282). -/
def execEdEnd (b : Fin 24) (s : State) : Res := .next (s.issue b (some (.sys 4 0 0)) none [] false)

/-- BRK (R282). -/
def execEdBrk (b : Fin 24) (s : State) : Res := .next (s.issue b (some (.sys 5 0 0)) none [] false)

/-- RDCYC (R282). -/
def execEdRdcyc (b : Fin 24) (x : Fin 32) (s : State) : Res := .next (s.issue b (some (.sys 6 x 0)) none [] false)

/-- NOP (R282). -/
def execEdNop (b : Fin 24) (s : State) : Res := .next (s.issue b (some (.sys 7 0 0)) none [] false)

/-- PUSH (R290). -/
def execEdPush (b : Fin 24) (x : Fin 32) (i : Fin 256) (s : State) : Res := .next (s.issue b (some (.que 0x00 x 0 i)) none [] false)

/-- PUSHM (R290). -/
def execEdPushm (b : Fin 24) (y : Fin 32) (i : Fin 256) (host : Option Bytes) (s : State) : Res := .next (s.issue b (some (.que 0x01 0 y i)) host [] false)

/-- QFREE (R282). -/
def execEdQfree (b : Fin 24) (x : Fin 32) (i : Fin 256) (s : State) : Res := .next (s.issue b (some (.que 0x02 x 0 i)) none [] false)

/-- SSIG (R293). -/
def execEdSsig (b : Fin 24) (y : Fin 32) (i : Fin 256) (s : State) : Res := .next (s.issue b (some (.que 0x08 0 y i)) none [] false)

/-- SWAIT (R293). -/
def execEdSwait (b : Fin 24) (y : Fin 32) (i : Fin 256) (s : State) : Res := .next (s.issue b (some (.que 0x09 0 y i)) none [] false)

/-- SREAD (R282). -/
def execEdSread (b : Fin 24) (x : Fin 32) (i : Fin 256) (s : State) : Res := .next (s.issue b (some (.que 0x0A x 0 i)) none [] false)

/-- SSET (R293). -/
def execEdSset (b : Fin 24) (y : Fin 32) (i : Fin 256) (s : State) : Res := .next (s.issue b (some (.que 0x0B 0 y i)) none [] false)

/-- PHASE (R300). -/
def execEdPhase (b : Fin 24) (y : Fin 32) (i : Fin 256) (s : State) : Res := .next (s.issue b (some (.que 0x10 0 y i)) none [] false)

/-- PHASE_MARK_TAKEN (R300). -/
def execPhaseMarkTaken (b : Fin 24) (s : State) : Res := .next (phaseMark s b)

/-- SCLAIM (R282). -/
def execEdSclaim (b : Fin 24) (x : Fin 32) (y : Fin 32) (i : Fin 4) (host : Option Bytes) (s : State) : Res := .next (s.issue b (some (.que 0x18 x y (Fin.ofNat 256 i))) host [] false)

/-- RND (R282). -/
def execEdRnd (b : Fin 24) (x : Fin 32) (y : Fin 32) (i : Fin 4) (s : State) : Res := .next (s.issue b (some (.que 0x19 x y (Fin.ofNat 256 i))) none [] false)

/-- VOP (R282). -/
def execEdVop (b : Fin 24) (x : Fin 32) (y : Fin 32) (z : Fin 32) (s : State) : Res := .next (s.issue b (some (.que 0x20 x y (Fin.ofNat 256 z))) none [] false)

/-- TOP (R294). -/
def execEdTop (b : Fin 24) (x : Fin 32) (k : Fin 2097152) (host : Option Bytes) (s : State) : Res := .next (s.issue b (some (.top x k)) host [] false)

/-- GANG_HALT (R289). -/
def execGangHalt (b : Fin 24) (s : State) : Res := .next (gangHalt s b)

/-- CC_RESUME (R289). -/
def execCcResume (b : Fin 24) (s : State) : Res := .next (ccResume s b)

/-- CC_STEP (R301). -/
def execCcStep (b : Fin 24) (host : Option Bytes) (spec : List (Bool × Nat)) (miss : Bool) (s : State) : Res := .next (if (s.core b).st = 3 then (ccStepArm s b).issue b none host spec miss else s)

/-- CC_HALT_REQ (R302). -/
def execCcHaltReq (b : Fin 24) (s : State) : Res := .next (ccHaltReq s b)

/-- CC_CNT_CLR (R302). -/
def execCcCntClr (b : Fin 24) (s : State) : Res := .next (ccCntClr s b)

/-- CC_SYNC_WRITE (R293). -/
def execCcSyncWrite (b : Fin 24) (i : Fin 256) (v : Nat) (s : State) : Res := .next (if (s.bench b).out then s else ccSyncWrite s i v)

end Sys2Proof.Machine
end

