-- ==== Sys2Proof/Machine/FaultRows.lean ====
section
/-! DEFINITION. The meanings of the commands of fences and the bridge. -/
namespace Sys2Proof.Machine

/-- RESIDUE_MISMATCH (R422). -/
def execResidueMismatch (b : Fin 24) (tag : Nat) (pass : Nat) (row : Nat) (col : Nat) (site : Nat) (s : State) : Res := .next (residueMismatch s b tag pass row col site)

/-- BENCH_UNCORRECTABLE (R423). -/
def execBenchUncorrectable (b : Fin 24) (site : Nat) (e : Machine.BenchErr) (s : State) : Res := .next (benchError s b site e)

/-- FENCE_COMPLETE (R425). -/
def execFenceComplete (b : Fin 24) (s : State) : Res := .next (fenceComplete s b)

/-- BRIDGE_FLIT (R424). -/
def execBridgeFlit (dir : Nat) (addr : Nat) (fails : Nat) (write : Bool) (who : Option Machine.TxnFor) (s : State) : Res := .next (bridgeFlit s dir addr fails write who)

/-- BRIDGE_RETRY (R424). -/
def execBridgeRetry (s : State) : Res := .next (bridgeRetry s)

/-- GATEHOUSE_FIRMWARE_SRAM_UNCORRECTABLE (R423). -/
def execGatehouseFirmwareSramUncorrectable (s : State) : Res := .next (ghSramError s)

/-- BRIDGE_RETRAINED (R424). -/
def execBridgeRetrained (s : State) : Res := .next (bridgeRetrained s)

end Sys2Proof.Machine
end

