-- ==== Sys2Proof/Machine/GatehouseRows.lean ====
section
/-! DEFINITION. The meanings of the commands of the mailboxes. -/
namespace Sys2Proof.Machine

/-- GET_INFO (R376). -/
def execGetInfo (m : Fin 16) (s : State) : Res := .next (getInfo s m)

/-- POWER_SET (R376). -/
def execPowerSet (m : Fin 16) (s : State) : Res := .next (powerSet s m)

/-- PROFILE_STORE (R376). -/
def execProfileStore (m : Fin 16) (s : State) : Res := .next (profileStore s m)

/-- MB_RESET (R376). -/
def execMbReset (m : Fin 16) (s : State) : Res := .next (mbReset s m)

/-- MB_FENCE (R376). -/
def execMbFence (m : Fin 16) (s : State) : Res := .next (mbFence s m)

/-- MEMBER_STATUS (R376). -/
def execMemberStatus (m : Fin 16) (s : State) : Res := .next (memberStatus s m)

/-- CONFIG_STAGE (R376). -/
def execConfigStage (m : Fin 16) (data : Bytes) (ok : Bool) (s : State) : Res := .next (configStage s m data ok)

/-- LEAVE (R376). -/
def execLeave (m : Fin 16) (s : State) : Res := .next (leave s m)

/-- REJOIN (R376). -/
def execRejoin (m : Fin 16) (s : State) : Res := .next (rejoin s m)

/-- SENSORS (R376). -/
def execSensors (m : Fin 16) (s : State) : Res := .next (sensors s m)

/-- LOG_READ (R376). -/
def execLogRead (m : Fin 16) (s : State) : Res := .next (logRead s m)

/-- LOG_FLUSH (R376). -/
def execLogFlush (m : Fin 16) (s : State) : Res := .next (logFlush s m)

/-- LOG_FLASH_READ (R376). -/
def execLogFlashRead (m : Fin 16) (s : State) : Res := .next (logFlashRead s m)

/-- FW_STAGE (R386). -/
def execFwStage (m : Fin 16) (data : Bytes) (sig : Bool) (s : State) : Res := .next (fwStage s m data sig)

/-- FW_STAGE_PEER (R386). -/
def execFwStagePeer (m : Fin 16) (sig : Bool) (s : State) : Res := .next (fwStagePeer s m sig)

/-- FW_ACTIVATE (R387). -/
def execFwActivate (m : Fin 16) (s : State) : Res := .next (fwActivate s m)

/-- FW_CONFIRM (R388). -/
def execFwConfirm (m : Fin 16) (s : State) : Res := .next (fwConfirm s m)

/-- FW_STATUS (R376). -/
def execFwStatus (m : Fin 16) (s : State) : Res := .next (fwStatus s m)

/-- ATTEST (R391). -/
def execAttest (m : Fin 16) (s : State) : Res := .next (attest s m)

/-- CERTS (R390). -/
def execCerts (m : Fin 16) (s : State) : Res := .next (certs s m)

/-- CERT_INSTALL (R390). -/
def execCertInstall (m : Fin 16) (data : Bytes) (ok : Bool) (s : State) : Res := .next (certInstall s m data ok)

/-- LIFECYCLE (R392). -/
def execLifecycle (m : Fin 16) (next : Nat) (ok : Bool) (s : State) : Res := .next (lifecycleCmd s m next ok)

/-- MAILBOX_DONE (R373). -/
def execMailboxDone (m : Fin 16) (s : State) : Res := .next (mailboxDone s m)

end Sys2Proof.Machine
end

