-- ==== Sys2Proof/Machine/HostRows.lean ====
section
/-! DEFINITION. The meanings of the commands of registers and the host interface. -/
namespace Sys2Proof.Machine

/-- REGISTER_WRITE (R7). -/
def execRegisterWrite (host : Bool) (a : Nat) (n : Nat) (v : Nat) (s : State) : Res := .next (registerWrite s host a n v)

/-- CONFIG_REQUEST (R361). -/
def execConfigRequest (op : Machine.CfgOp) (vis : Bool) (s : State) : Res := .next (configRequest s op vis)

/-- BAR_READ (R363). -/
def execBarRead (i : Fin 3) (o : Nat) (n : Nat) (s : State) : Res := .next (barRead s i o n)

/-- BAR_WRITE (R363). -/
def execBarWrite (i : Fin 3) (o : Nat) (d : Bytes) (s : State) : Res := .next (barWrite s i o d)

/-- HX_DB (R364). -/
def execHxDb (r : Fin 64) (v : Nat) (s : State) : Res := .next (hxDb s r v)

/-- RING_FETCH (R364). -/
def execRingFetch (r : Fin 64) (data : Option Bytes) (s : State) : Res := .next (ringFetch s r data)

/-- RING_ENTRY_COMPLETE (R365). -/
def execRingEntryComplete (r : Fin 64) (ok : Bool) (s : State) : Res := .next (ringComplete s r ok)

/-- HX_RB_CFG_WRITE (R366). -/
def execHxRbCfgWrite (r : Fin 64) (v : Nat) (s : State) : Res := .next (hxRbCfg s r v)

/-- HX_CNT_CLR (R371). -/
def execHxCntClr (s : State) : Res := .next (hxCntClr s)

/-- MSIX_MOD_EXPIRY (R368). -/
def execMsixModExpiry (r : Fin 64) (s : State) : Res := .next (msixModExpiry s r)

/-- MSIX_UNMASK (R368). -/
def execMsixUnmask (v : Fin 512) (all : Bool) (s : State) : Res := .next (msixUnmask s v all)

/-- FUNCTION_LEVEL_RESET (R369). -/
def execFunctionLevelReset (s : State) : Res := .next (functionReset s)

/-- PERST_N (R369). -/
def execPerstN (s : State) : Res := .next (perstN s)

/-- HOST_LINK_UP (R360). -/
def execHostLinkUp (speed : Nat) (width : Nat) (s : State) : Res := .next (hostLinkUp s speed width)

end Sys2Proof.Machine
end

