-- ==== Sys2Proof/Machine/LinkRows.lean ====
section
/-! DEFINITION. The meanings of the commands of the links. -/
namespace Sys2Proof.Machine

/-- IDLE_FLIT (R308). -/
def execIdleFlit (p : Fin 16) (w : Machine.Wire) (s : State) : Res := .next (idleFlit s p w)

/-- DATA_FLIT (R311). -/
def execDataFlit (p : Fin 16) (w : Machine.Wire) (a : Machine.Arrival) (s : State) : Res := .next (dataFlit s p w a)

/-- ESCAPE_WAIT_EXPIRY (R314). -/
def execEscapeWaitExpiry (p : Fin 16) (vc : Nat) (s : State) : Res := .next (escapeExpiry s p vc)

/-- NAK (R311). -/
def execNak (p : Fin 16) (w : Machine.Wire) (s : State) : Res := .next (nakFlit s p w)

/-- HEARTBEAT_FLIT (R322). -/
def execHeartbeatFlit (p : Fin 16) (w : Machine.Wire) (s : State) : Res := .next (heartbeatFlit s p w)

/-- ADMIT (R319). -/
def execAdmitLink (p : Fin 16) (w : Machine.Wire) (s : State) : Res := .next (admitFlit s p w)

/-- REVOKE (R319). -/
def execRevoke (p : Fin 16) (w : Machine.Wire) (s : State) : Res := .next (revokeFlit s p w)

/-- READ_REQ (R309). -/
def execReadReq (s : State) : Res := .next (readReq s)

/-- READ_RSP (R309). -/
def execReadRsp (s : State) : Res := .next (readRsp s)

/-- WRITE (R309). -/
def execWrite (s : State) : Res := .next (writeReq s)

/-- WRITE_ACK (R309). -/
def execWriteAck (s : State) : Res := .next (writeAck s)

/-- REFUSE (R309). -/
def execRefuse (s : State) : Res := .next (refuseFlit s)

/-- MGMT (R309). -/
def execMgmt (s : State) : Res := .next (mgmtFlit s)

/-- E2E_ACK (R316). -/
def execE2eAck (s : State) : Res := .next (e2eAck s)

/-- E2E_TIMEOUT (R316). -/
def execE2eTimeout (dst : Nat) (pseq : Nat) (s : State) : Res := .next (e2eTimeout s dst pseq)

/-- E2E_ACK_TIMER (R316). -/
def execE2eAckTimer (src : Nat) (s : State) : Res := .next (e2eAckTimer s src)

/-- RSP_TIMEOUT (R317). -/
def execRspTimeout (i : Nat) (s : State) : Res := .next (rspTimeout s i)

/-- LK_ENABLE (R318). -/
def execLkEnable (p : Fin 16) (v : Bool) (s : State) : Res := .next (lkEnable s p v)

/-- TRAIN_COMPLETE (R318). -/
def execTrainComplete (p : Fin 16) (lanes : Nat) (s : State) : Res := .next (trainComplete s p lanes)

/-- TRAIN_TIMEOUT (R318). -/
def execTrainTimeout (p : Fin 16) (s : State) : Res := .next (trainTimeout s p)

/-- TRAIN_RETRY (R318). -/
def execTrainRetry (p : Fin 16) (s : State) : Res := .next (trainRetry s p)

/-- IDENT_FRAME (R318). -/
def execIdentFrame (p : Fin 16) (dev : Nat) (port : Nat) (nonce : Nat) (s : State) : Res := .next (identFrame s p dev port nonce)

/-- LANE_ERROR (R320). -/
def execLaneError (p : Fin 16) (lock : Nat) (ser : List Nat) (s : State) : Res := .next (laneError s p lock ser)

/-- RETRAIN_COMPLETE (R320). -/
def execRetrainComplete (p : Fin 16) (lanes : Nat) (s : State) : Res := .next (retrainComplete s p lanes)

/-- RETRAIN_TIMEOUT (R318). -/
def execRetrainTimeout (p : Fin 16) (s : State) : Res := .next (retrainTimeout s p)

/-- LK_RETRAIN (R320). -/
def execLkRetrain (p : Fin 16) (s : State) : Res := .next (lkRetrain s p)

/-- LK_CNT_CLR (R330). -/
def execLkCntClr (p : Fin 16) (s : State) : Res := .next (lkCntClr s p)

/-- LK_ADMIT (R319). -/
def execLkAdmit (p : Fin 16) (v : Nat) (s : State) : Res := .next (lkAdmit s p v)

/-- HEARTBEAT_TIMER (R321). -/
def execHeartbeatTimer (p : Fin 16) (s : State) : Res := .next (heartbeatTimer s p)

end Sys2Proof.Machine
end

