-- ==== Sys2Proof/Machine/LoaderRows.lean ====
section
/-! DEFINITION. The meanings of the commands of modules and runs. -/
namespace Sys2Proof.Machine

/-- LOAD (R299). -/
def execLoad (r : Fin 64) (t : Machine.Translated) (host : Option Bytes) (s : State) : Res := .next (load s r t host)

/-- RUN (R276). -/
def execRun (r : Fin 64) (s : State) : Res := .next (runRow s r)

/-- UNLOAD (R279). -/
def execUnload (r : Fin 64) (s : State) : Res := .next (unload s r)

/-- CTX (R279). -/
def execCtx (r : Fin 64) (s : State) : Res := .next (ctxCmd s r)

/-- RING_WAIT (R279). -/
def execRingWait (r : Fin 64) (s : State) : Res := .next (ringWait s r)

/-- RING_SIGNAL (R279). -/
def execRingSignal (r : Fin 64) (s : State) : Res := .next (ringSignal s r)

end Sys2Proof.Machine
end

