-- ==== Sys2Proof/Machine/MasonRows.lean ====
section
/-! DEFINITION. The meanings of the commands of the mason unit. -/
namespace Sys2Proof.Machine

/-- MU_NOP (R151). -/
def execMuNop (b : Fin 24) (s : State) : Res := .next (muNop s b)

/-- MU_SYNC_WAIT (R151). -/
def execMuSyncWait (b : Fin 24) (s : State) : Res := .next (muSyncWait s b)

/-- MU_SYNC_SIGNAL (R151). -/
def execMuSyncSignal (b : Fin 24) (s : State) : Res := .next (muSyncSignal s b)

/-- MM (R153). -/
def execMm (b : Fin 24) (s : State) : Res := .next (mm s b)

/-- RED (R155). -/
def execRed (b : Fin 24) (s : State) : Res := .next (red s b)

/-- MASON_COMMAND_DONE (R153). -/
def execMasonCommandDone (b : Fin 24) (s : State) : Res := .next (masonDone s b)

/-- MU_RESUME (R157). -/
def execMuResume (b : Fin 24) (s : State) : Res := .next (muResume s b)

/-- MU_SKIP (R157). -/
def execMuSkip (b : Fin 24) (s : State) : Res := .next (muSkip s b)

/-- MU_CNT_CLR (R157). -/
def execMuCntClr (b : Fin 24) (s : State) : Res := .next (muCntClr s b)

/-- MU_PASSES_WRITE (R157). -/
def execMuPassesWrite (b : Fin 24) (v : Nat) (s : State) : Res := .next (muPassesWrite s b v)

end Sys2Proof.Machine
end

