-- ==== Sys2Proof/Machine/MemberRows.lean ====
section
/-! DEFINITION. The meanings of the commands of membership. -/
namespace Sys2Proof.Machine

/-- PARTNER_LOST (R321). -/
def execPartnerLost (p : Fin 16) (s : State) : Res := .next (partnerLost s p)

/-- SUSPECT (R324). -/
def execSuspect (d : Nat) (s : State) : Res := .next (suspectMsg s d)

/-- PROBE (R324). -/
def execProbe (src : Nat) (nonce : Nat) (s : State) : Res := .next (probeMsg s src nonce)

/-- PROBE_ACK (R324). -/
def execProbeAck (src : Nat) (nonce : Nat) (s : State) : Res := .next (probeAckMsg s src nonce)

/-- PROBE_TIMEOUT (R324). -/
def execProbeTimeout (s : State) : Res := .next (probeTimeout s)

/-- STAGE (R323). -/
def execStage (src : Nat) (m : Machine.StageMsg) (s : State) : Res := .next (stageMsg s src m)

/-- STAGED (R323). -/
def execStaged (src : Nat) (e : Nat) (s : State) : Res := .next (stagedMsg s src e)

/-- NOT_STAGED (R323). -/
def execNotStaged (e : Nat) (s : State) : Res := .next (notStagedMsg s e)

/-- STAGE_TIMEOUT (R323). -/
def execStageTimeout (s : State) : Res := .next (stageTimeout s)

/-- SWITCH (R323). -/
def execSwitch (src : Nat) (e : Nat) (s : State) : Res := .next (switchMsg s src e)

/-- ABORT (R323). -/
def execAbort (src : Nat) (e : Nat) (s : State) : Res := .next (abortMsg s src e)

/-- MEMBER_QUERY (R326). -/
def execMemberQuery (src : Nat) (s : State) : Res := .next (memberQuery s src)

/-- MEMBER_STATE (R326). -/
def execMemberState (src : Nat) (active : Nat) (held : Bool) (m : Option Machine.StageMsg) (s : State) : Res := .next (memberState s src active held m)

/-- JOIN (R327). -/
def execJoin (p : Option (Fin 16)) (dev : Nat) (chain : Bytes) (s : State) : Res := .next (joinMsg s p dev chain)

/-- JOIN_BATCH_EXPIRY (R327). -/
def execJoinBatchExpiry (s : State) : Res := .next (joinBatch s)

/-- CHALLENGE (R327). -/
def execChallenge (p : Fin 16) (c : Bytes) (s : State) : Res := .next (challengeMsg s p c)

/-- MEMBER_RESPONSE (R327). -/
def execMemberResponse (p : Fin 16) (sig : Bytes) (s : State) : Res := .next (memberResponse s p sig)

/-- JOIN_RETRY (R327). -/
def execJoinRetry (s : State) : Res := .next (joinRetry s)

/-- MEMBER_DIGEST (R322). -/
def execMemberDigest (p : Fin 16) (d : Bytes) (s : State) : Res := .next (memberDigest s p d)

/-- RUNNING_IMAGE_REQUEST (R386). -/
def execRunningImageRequest (src : Nat) (s : State) : Res := .next (runningImage s src)

end Sys2Proof.Machine
end

