-- ==== Sys2Proof/Machine/MemoryRows.lean ====
section
/-! DEFINITION. The meanings of the commands of memory, the MMU and the arbiters. -/
namespace Sys2Proof.Machine

/-- MM_INVAL (R244). -/
def execMmInval (v : Nat) (s : State) : Res := .next (mmInval s v)

/-- MM_INVAL_DONE (R244). -/
def execMmInvalDone (s : State) : Res := .next (mmInvalDone s)

/-- STACK_ACCESS (R248). -/
def execStackAccess (a : Nat) (wdata : Option Bytes) (ecc : Machine.Ecc) (s : State) : Res := .next (stackAccess s a wdata ecc)

/-- STOCKYARD_ACCESS (R253). -/
def execStockyardAccess (a : Nat) (wdata : Option Bytes) (ecc : Machine.Ecc) (s : State) : Res := .next (yardAccess s a wdata ecc)

/-- PATROL_SCRUB (R249). -/
def execPatrolScrub (k : Fin 8) (ecc : Machine.Ecc) (s : State) : Res := .next (patrolScrub s k ecc)

/-- UE_SEAM_SEL_WRITE (R251). -/
def execUeSeamSelWrite (k : Fin 8) (v : Nat) (s : State) : Res := .next (if s.stackUp k then seamSelWrite s k v else s)

/-- SY_SEL_WRITE (R271). -/
def execSySelWrite (v : Nat) (s : State) : Res := .next (sySelWrite s v)

/-- ARBITRATION_DECISION (R263). -/
def execArbitrationDecision (i : Nat) (arrive : List Machine.ArbReq) (refresh : Bool) (s : State) : Res := .next (arbDecide s i arrive refresh)

/-- HOT_BANK (R266). -/
def execHotBank (i : Nat) (s : State) : Res := .next (hotBank s i)

/-- BANK_COOLS (R266). -/
def execBankCools (i : Nat) (s : State) : Res := .next (bankCools s i)

end Sys2Proof.Machine
end

