-- ==== Sys2Proof/Machine/MonitorRows.lean ====
section
/-! DEFINITION. The meanings of the commands of the monitor. -/
namespace Sys2Proof.Machine

/-- MON_ID (R393). -/
def execMonId (s : State) : Res := .next (powered s monId)

/-- MON_STATUS (R393). -/
def execMonStatus (s : State) : Res := .next (powered s monStatus)

/-- MON_LOG (R393). -/
def execMonLog (n : Nat) (s : State) : Res := .next (powered s (monLog · n))

/-- MON_SENS (R393). -/
def execMonSens (s : State) : Res := .next (powered s monSens)

/-- MON_FWLOAD (R393). -/
def execMonFwload (data : Bytes) (sig : Bool) (s : State) : Res := .next (powered s (monFwload · data sig))

/-- MON_BOOT (R393). -/
def execMonBoot (n : Nat) (s : State) : Res := .next (powered s (monBoot · n))

/-- MON_RESET (R393). -/
def execMonReset (kind : Nat) (s : State) : Res := .next (powered s (monReset · kind))

/-- MON_UNLOCK (R393). -/
def execMonUnlock (s : State) : Res := .next (powered s monUnlock)

/-- MON_RESP (R394). -/
def execMonResp (ok : Bool) (serial : Nat) (s : State) : Res := .next (powered s (monResp · ok serial))

/-- MON_RD (R393). -/
def execMonRd (a : Nat) (s : State) : Res := .next (powered s (monRd · a))

/-- MON_WR (R394). -/
def execMonWr (a : Nat) (v : Nat) (s : State) : Res := .next (powered s (monWr · a v))

/-- MON_FUSES (R393). -/
def execMonFuses (s : State) : Res := .next (powered s monFuses)

/-- MON_TEST (R432). -/
def execMonTest (b : Fin 24) (fail : Option (Nat × Nat × Nat)) (s : State) : Res := .next (powered s (monTest · b fail))

/-- MON_LOCK (R393). -/
def execMonLock (s : State) : Res := .next (powered s monLock)

/-- MON_LC (R393). -/
def execMonLc (next : Nat) (ok : Bool) (s : State) : Res := .next (powered s (monLc · next ok))

end Sys2Proof.Machine
end

