-- ==== Sys2Proof/Machine/PowerRows.lean ====
section
/-! DEFINITION. The meanings of the commands of sensors, power and start-up. -/
namespace Sys2Proof.Machine

/-- SENSOR_SAMPLE (R377). -/
def execSensorSample (x : Machine.Sensor) (v : Option Nat) (s : State) : Res := .next (powered s (sensorSample · x v))

/-- THROTTLE_END (R404). -/
def execThrottleEnd (stack : Option (Fin 8)) (s : State) : Res := .next (powered s (throttleEnd · stack))

/-- GH_WB_TEMP_READ (R398). -/
def execGhWbTempRead (i : Fin 72) (s : State) : Res := .next (wbTempRead s i)

/-- GH_WB_VOLT_READ (R398). -/
def execGhWbVoltRead (d : Fin 36) (s : State) : Res := .next (wbVoltRead s d)

/-- GH_WB_CURR_READ (R398). -/
def execGhWbCurrRead (r : Fin 16) (s : State) : Res := .next (wbCurrRead s r)

/-- GH_PHASE_CFG_WRITE (R379). -/
def execGhPhaseCfgWrite (v : Nat) (s : State) : Res := .next (phaseCfgWrite s v)

/-- GH_WATCHDOG (R395). -/
def execGhWatchdog (s : State) : Res := .next (ghWatchdog s)

/-- CLAMP_TICK (R403). -/
def execClampTick (mv : Option Nat) (s : State) : Res := .next (powered s (clampTick · mv))

/-- POWER_CLAMP_UNMET (R403). -/
def execPowerClampUnmet (s : State) : Res := .next (powered s clampUnmet)

/-- RAIL_OVERCURRENT (R403). -/
def execRailOvercurrent (r : Fin 16) (ma : Nat) (s : State) : Res := .next (powered s (railOver · r ma))

/-- PW_CLAMP_WRITE (R402). -/
def execPwClampWrite (v : Nat) (s : State) : Res := .next (pwClampWrite s v)

/-- PW_THERM_WRITE (R404). -/
def execPwThermWrite (stack : Bool) (v : Nat) (s : State) : Res := .next (pwThermWrite s stack v)

/-- THERMAL_TRIP (R405). -/
def execThermalTrip (i : Fin 72) (reading : Nat) (s : State) : Res := .next (thermalTrip s i reading)

/-- MAIN_POWER_FAIL (R401). -/
def execMainPowerFail (mv : Nat) (s : State) : Res := .next (mainFail s mv)

/-- MAIN_POWER_RESTORED (R401). -/
def execMainPowerRestored (s : State) : Res := .next (mainRestored s)

/-- AUX_POWER_LOSS (R401). -/
def execAuxPowerLoss (s : State) : Res := .next (auxLoss s)

/-- AUX_POWER_ON (R414). -/
def execAuxPowerOn (main : Bool) (s : State) : Res := .next (auxOn s main)

/-- DOMAIN_FAULT (R400). -/
def execDomainFault (d : Fin 35) (mv : Nat) (s : State) : Res := .next (domainFault s d mv)

/-- REF_LOST (R407). -/
def execRefLost (ref : Bool) (s : State) : Res := .next (refLost s ref)

/-- REF_RESTORED (R407). -/
def execRefRestored (s : State) : Res := .next (refRestored s)

/-- MOD_RST_N (R414). -/
def execModRstN (us : Nat) (s : State) : Res := .next (modRstN s us)

/-- START_STAGE_1 (R412). -/
def execStartStage1 (us : Nat) (straps : Nat) (prof : Nat) (ce : Bool) (ue : Bool) (lock : Bool) (s : State) : Res := .next (startStage1 s us straps prof ce ue lock)

/-- START_STAGE_2 (R385). -/
def execStartStage2 (us : Nat) (sigA : Bool) (sigB : Bool) (s : State) : Res := .next (startStage2 s us sigA sigB)

/-- START_STAGE_3 (R415). -/
def execStartStage3 (us : Nat) (ok0 : Bool) (ok1 : Bool) (s : State) : Res := .next (startStage3 s us ok0 ok1)

/-- START_STAGE_4 (R412). -/
def execStartStage4 (us : Nat) (fail : Nat) (s : State) : Res := .next (startStage4 s us fail)

/-- START_STAGE_5 (R431). -/
def execStartStage5 (us : Nat) (fails : List (Fin 24 × Nat × Nat × Nat)) (s : State) : Res := .next (startStage5 s us fails)

/-- START_STAGE_6 (R412). -/
def execStartStage6 (us : Nat) (s : State) : Res := .next (startStage6 s us)

/-- START_RELEASE (R412). -/
def execStartRelease (s : State) : Res := .next (startRelease s)

end Sys2Proof.Machine
end

