-- ==== Sys2Proof/Machine/SpallRows.lean ====
section
/-! DEFINITION. The meanings of the commands of the spall streams and the crusher. -/
namespace Sys2Proof.Machine

/-- SP_KEY_LOAD (R165). -/
def execSpKeyLoad (s : State) : Res := .next (spKeyLoad s)

/-- STREAM_CLAIM (R166). -/
def execStreamClaim (bad : Option Nat) (s : State) : Res := .next (streamClaim s bad)

/-- SP_RETIRE (R168). -/
def execSpRetire (step : Nat) (s : State) : Res := .next (s.retireClaims step)

/-- SP_CLAIMS_READ (R181). -/
def execSpClaimsRead (s : State) : Res := .next (spClaimsRead s)

/-- SP_REFUSED_READ (R181). -/
def execSpRefusedRead (s : State) : Res := .next (spRefusedRead s)

/-- CR_NOP (R177). -/
def execCrNop (b : Fin 24) (s : State) : Res := .next (crNop s b)

/-- CR_SYNC_WAIT (R177). -/
def execCrSyncWait (b : Fin 24) (s : State) : Res := .next (crSyncWait s b)

/-- CR_SYNC_SIGNAL (R177). -/
def execCrSyncSignal (b : Fin 24) (s : State) : Res := .next (crSyncSignal s b)

/-- ROT (R179). -/
def execRot (b : Fin 24) (s : State) : Res := .next (rot s b)

/-- ROT_BLOCK (R180). -/
def execRotBlock (b : Fin 24) (s : State) : Res := .next (rotBlock s b)

/-- CR_RESUME (R182). -/
def execCrResume (b : Fin 24) (s : State) : Res := .next (crResume s b)

/-- CR_SKIP (R182). -/
def execCrSkip (b : Fin 24) (s : State) : Res := .next (crSkip s b)

/-- CR_CNT_CLR (R182). -/
def execCrCntClr (b : Fin 24) (s : State) : Res := .next (crCntClr s b)

end Sys2Proof.Machine
end

