-- ==== Sys2Proof/Machine/UpdateRows.lean ====
section
/-! DEFINITION. The meanings of the commands of the stack update engines and add windows. -/
namespace Sys2Proof.Machine

/-- UE_NOP (R213). -/
def execUeNop (k : Fin 8) (s : State) : Res := .next (ueNop s k)

/-- UE_SYNC_WAIT (R213). -/
def execUeSyncWait (k : Fin 8) (s : State) : Res := .next (ueSyncWait s k)

/-- UE_SYNC_SIGNAL (R213). -/
def execUeSyncSignal (k : Fin 8) (s : State) : Res := .next (ueSyncSignal s k)

/-- UPDATE (R217). -/
def execUpdate (k : Fin 8) (s : State) : Res := .next (update s k)

/-- UPDATE_SWEEP (R223). -/
def execUpdateSweep (k : Fin 8) (s : State) : Res := .next (updateSweep s k)

/-- MARK (R224). -/
def execMark (k : Fin 8) (s : State) : Res := .next (mark s k)

/-- UE_RESUME (R234). -/
def execUeResume (k : Fin 8) (s : State) : Res := .next (ueResume s k)

/-- UE_SKIP (R234). -/
def execUeSkip (k : Fin 8) (s : State) : Res := .next (ueSkip s k)

/-- UE_CNT_CLR (R234). -/
def execUeCntClr (k : Fin 8) (s : State) : Res := .next (ueCntClr s k)

/-- ADD_WRITE (R209). -/
def execAddWrite (a : Nat) (d : Bytes) (s : State) : Res := .next (if (s.addWindow a).isSome then s.write a d else s)

/-- ATM_ZERO (R211). -/
def execAtmZero (k : Fin 8) (w : Fin 8) (s : State) : Res := .next (if s.stackUp k then atmZero s k w else s)

/-- ATM_CLEAR_DONE (R211). -/
def execAtmClearDone (k : Fin 8) (w : Fin 8) (s : State) : Res := .next (atmClearDone s k w)

end Sys2Proof.Machine
end

