-- ==== Sys2Proof/Machine/VersionRows.lean ====
section
/-! DEFINITION. The meanings of the commands of the version table. -/
namespace Sys2Proof.Machine

/-- REGISTER (R198). -/
def execRegister (k : Fin 8) (c : Fin 32) (w : Nat) (s : State) : Res := .next (vtIssue s k c (fun t => vtRegister t k w))

/-- DEREGISTER (R199). -/
def execDeregister (k : Fin 8) (c : Fin 32) (r : Nat) (bad : Bool) (s : State) : Res := .next (vtIssue (if bad then vtUe s r else s) k c (fun t => vtDeregister t k r))

/-- PIN_CURRENT (R199). -/
def execPinCurrent (k : Fin 8) (c : Fin 32) (r : Nat) (bad : Bool) (s : State) : Res := .next (vtIssue (if bad then vtUe s r else s) k c (fun t => vtPinCurrent t k r))

/-- PIN_STEP (R199). -/
def execPinStep (k : Fin 8) (c : Fin 32) (r : Nat) (lo : Nat) (bad : Bool) (s : State) : Res := .next (vtIssue (if bad then vtUe s r else s) k c (fun t => vtPinStep t k r lo))

/-- PIN_TOKEN (R199). -/
def execPinToken (k : Fin 8) (c : Fin 32) (r : Nat) (slot : Fin 4) (gen : Nat) (bad : Bool) (s : State) : Res := .next (vtIssue (if bad then vtUe s r else s) k c (fun t => vtPinToken t k r slot gen))

/-- UNPIN (R199). -/
def execUnpin (k : Fin 8) (c : Fin 32) (r : Nat) (slot : Fin 4) (gen : Nat) (bad : Bool) (s : State) : Res := .next (vtIssue (if bad then vtUe s r else s) k c (fun t => vtUnpin t k r slot gen))

/-- VT_SLOT_ACQUIRE (R202). -/
def execVtSlotAcquire (k : Fin 8) (s : State) : Res := .next (slotAcquire s k)

/-- VERSION_EXHAUSTED (R202). -/
def execVersionExhausted (k : Fin 8) (s : State) : Res := .next (versionExhausted s k)

/-- UE_VT_SEL_WRITE (R207). -/
def execUeVtSelWrite (k : Fin 8) (v : Nat) (s : State) : Res := .next (vtSelWrite s k v)

/-- UE_VT_CFG_WRITE (R202). -/
def execUeVtCfgWrite (k : Fin 8) (v : Nat) (s : State) : Res := .next (vtCfgWrite s k v)

end Sys2Proof.Machine
end

