-- ==== Sys2Proof/Machine/Dispatch.lean ====
section
/-! DEFINITION. The dispatch of a command to its meaning. -/
namespace Sys2Proof.Machine

/-- The effect of a command on everything but the queue. -/
def exec (i : Instr) (s : State) : Host.Outcome State Fault Refusal :=
  match i with
  | .registerWrite host a n v => Sys2Proof.Machine.execRegisterWrite host a n v s
  | .benchNop b => Sys2Proof.Machine.execBenchNop b s
  | .tile b => Sys2Proof.Machine.execTile b s
  | .benchSyncWait b => Sys2Proof.Machine.execBenchSyncWait b s
  | .benchSyncSignal b => Sys2Proof.Machine.execBenchSyncSignal b s
  | .deferredSignalAdd q => Sys2Proof.Machine.execDeferredSignalAdd q s
  | .setreg b => Sys2Proof.Machine.execSetreg b s
  | .benchCommit b => Sys2Proof.Machine.execBenchCommit b s
  | .benchHalt b => Sys2Proof.Machine.execBenchHalt b s
  | .bnCommitGo b => Sys2Proof.Machine.execBnCommitGo b s
  | .commitCopy b => Sys2Proof.Machine.execCommitCopy b s
  | .bnResume b => Sys2Proof.Machine.execBnResume b s
  | .bnSkip b => Sys2Proof.Machine.execBnSkip b s
  | .bnHaltReq b => Sys2Proof.Machine.execBnHaltReq b s
  | .bnCntClr b => Sys2Proof.Machine.execBnCntClr b s
  | .bnFlagsClear b mask => Sys2Proof.Machine.execBnFlagsClear b mask s
  | .bnFlagsRcRead b => Sys2Proof.Machine.execBnFlagsRcRead b s
  | .beatEntry b => Sys2Proof.Machine.execBeatEntry b s
  | .tileFaultPoisonDone b => Sys2Proof.Machine.execTileFaultPoisonDone b s
  | .partialReadReturn b => Sys2Proof.Machine.execPartialReadReturn b s
  | .rowFinal b => Sys2Proof.Machine.execRowFinal b s
  | .partTimeout b => Sys2Proof.Machine.execPartTimeout b s
  | .autosplitSpill b => Sys2Proof.Machine.execAutosplitSpill b s
  | .tableBuild b => Sys2Proof.Machine.execTableBuild b s
  | .localStoreWrite b off d => Sys2Proof.Machine.execLocalStoreWrite b off d s
  | .drainDescriptorArrival b => Sys2Proof.Machine.execDrainDescriptorArrival b s
  | .dresserRow b => Sys2Proof.Machine.execDresserRow b s
  | .tileStatusWrite b => Sys2Proof.Machine.execTileStatusWrite b s
  | .drTableWrite b p off v => Sys2Proof.Machine.execDrTableWrite b p off v s
  | .drCntClr b => Sys2Proof.Machine.execDrCntClr b s
  | .muNop b => Sys2Proof.Machine.execMuNop b s
  | .muSyncWait b => Sys2Proof.Machine.execMuSyncWait b s
  | .muSyncSignal b => Sys2Proof.Machine.execMuSyncSignal b s
  | .mm b => Sys2Proof.Machine.execMm b s
  | .red b => Sys2Proof.Machine.execRed b s
  | .masonCommandDone b => Sys2Proof.Machine.execMasonCommandDone b s
  | .muResume b => Sys2Proof.Machine.execMuResume b s
  | .muSkip b => Sys2Proof.Machine.execMuSkip b s
  | .muCntClr b => Sys2Proof.Machine.execMuCntClr b s
  | .muPassesWrite b v => Sys2Proof.Machine.execMuPassesWrite b v s
  | .spKeyLoad => Sys2Proof.Machine.execSpKeyLoad s
  | .streamClaim bad => Sys2Proof.Machine.execStreamClaim bad s
  | .spRetire step => Sys2Proof.Machine.execSpRetire step s
  | .spClaimsRead => Sys2Proof.Machine.execSpClaimsRead s
  | .spRefusedRead => Sys2Proof.Machine.execSpRefusedRead s
  | .crNop b => Sys2Proof.Machine.execCrNop b s
  | .crSyncWait b => Sys2Proof.Machine.execCrSyncWait b s
  | .crSyncSignal b => Sys2Proof.Machine.execCrSyncSignal b s
  | .rot b => Sys2Proof.Machine.execRot b s
  | .rotBlock b => Sys2Proof.Machine.execRotBlock b s
  | .crResume b => Sys2Proof.Machine.execCrResume b s
  | .crSkip b => Sys2Proof.Machine.execCrSkip b s
  | .crCntClr b => Sys2Proof.Machine.execCrCntClr b s
  | .register k c w => Sys2Proof.Machine.execRegister k c w s
  | .deregister k c r bad => Sys2Proof.Machine.execDeregister k c r bad s
  | .pinCurrent k c r bad => Sys2Proof.Machine.execPinCurrent k c r bad s
  | .pinStep k c r lo bad => Sys2Proof.Machine.execPinStep k c r lo bad s
  | .pinToken k c r slot gen bad => Sys2Proof.Machine.execPinToken k c r slot gen bad s
  | .unpin k c r slot gen bad => Sys2Proof.Machine.execUnpin k c r slot gen bad s
  | .vtSlotAcquire k => Sys2Proof.Machine.execVtSlotAcquire k s
  | .versionExhausted k => Sys2Proof.Machine.execVersionExhausted k s
  | .ueVtSelWrite k v => Sys2Proof.Machine.execUeVtSelWrite k v s
  | .ueVtCfgWrite k v => Sys2Proof.Machine.execUeVtCfgWrite k v s
  | .ueNop k => Sys2Proof.Machine.execUeNop k s
  | .ueSyncWait k => Sys2Proof.Machine.execUeSyncWait k s
  | .ueSyncSignal k => Sys2Proof.Machine.execUeSyncSignal k s
  | .update k => Sys2Proof.Machine.execUpdate k s
  | .updateSweep k => Sys2Proof.Machine.execUpdateSweep k s
  | .mark k => Sys2Proof.Machine.execMark k s
  | .ueResume k => Sys2Proof.Machine.execUeResume k s
  | .ueSkip k => Sys2Proof.Machine.execUeSkip k s
  | .ueCntClr k => Sys2Proof.Machine.execUeCntClr k s
  | .addWrite a d => Sys2Proof.Machine.execAddWrite a d s
  | .atmZero k w => Sys2Proof.Machine.execAtmZero k w s
  | .atmClearDone k w => Sys2Proof.Machine.execAtmClearDone k w s
  | .prepareRequest v => Sys2Proof.Machine.execPrepareRequest v s
  | .voteSend => Sys2Proof.Machine.execVoteSend s
  | .voteRepeat => Sys2Proof.Machine.execVoteRepeat s
  | .cmVote => Sys2Proof.Machine.execCmVote s
  | .ptimeoutExpiry => Sys2Proof.Machine.execPtimeoutExpiry s
  | .cmCommit => Sys2Proof.Machine.execCmCommit s
  | .cmDiscard => Sys2Proof.Machine.execCmDiscard s
  | .cmQuery => Sys2Proof.Machine.execCmQuery s
  | .cmState => Sys2Proof.Machine.execCmState s
  | .commitTakeover => Sys2Proof.Machine.execCommitTakeover s
  | .decisionApply => Sys2Proof.Machine.execDecisionApply s
  | .mmInval v => Sys2Proof.Machine.execMmInval v s
  | .mmInvalDone => Sys2Proof.Machine.execMmInvalDone s
  | .stackAccess a wdata ecc => Sys2Proof.Machine.execStackAccess a wdata ecc s
  | .stockyardAccess a wdata ecc => Sys2Proof.Machine.execStockyardAccess a wdata ecc s
  | .patrolScrub k ecc => Sys2Proof.Machine.execPatrolScrub k ecc s
  | .ueSeamSelWrite k v => Sys2Proof.Machine.execUeSeamSelWrite k v s
  | .sySelWrite v => Sys2Proof.Machine.execSySelWrite v s
  | .arbitrationDecision i_ arrive refresh => Sys2Proof.Machine.execArbitrationDecision i_ arrive refresh s
  | .hotBank i_ => Sys2Proof.Machine.execHotBank i_ s
  | .dkNop d => Sys2Proof.Machine.execDkNop d s
  | .dkSyncWait d => Sys2Proof.Machine.execDkSyncWait d s
  | .dkSyncSignal d => Sys2Proof.Machine.execDkSyncSignal d s
  | .copy d => Sys2Proof.Machine.execCopy d s
  | .fill d => Sys2Proof.Machine.execFill d s
  | .slotfill d => Sys2Proof.Machine.execSlotfill d s
  | .plane d => Sys2Proof.Machine.execPlane d s
  | .derrickRequest d host bad => Sys2Proof.Machine.execDerrickRequest d host bad s
  | .runAheadRead d => Sys2Proof.Machine.execRunAheadRead d s
  | .slotWrite d => Sys2Proof.Machine.execSlotWrite d s
  | .descriptorComplete d => Sys2Proof.Machine.execDescriptorComplete d s
  | .dkResume d => Sys2Proof.Machine.execDkResume d s
  | .dkSkip d => Sys2Proof.Machine.execDkSkip d s
  | .dkCntClr d => Sys2Proof.Machine.execDkCntClr d s
  | .load r t host => Sys2Proof.Machine.execLoad r t host s
  | .run r => Sys2Proof.Machine.execRun r s
  | .unload r => Sys2Proof.Machine.execUnload r s
  | .ctx r => Sys2Proof.Machine.execCtx r s
  | .ringWait r => Sys2Proof.Machine.execRingWait r s
  | .ringSignal r => Sys2Proof.Machine.execRingSignal r s
  | .edAdd b x y z => Sys2Proof.Machine.execEdAdd b x y z s
  | .edSub b x y z => Sys2Proof.Machine.execEdSub b x y z s
  | .edAnd b x y z => Sys2Proof.Machine.execEdAnd b x y z s
  | .edOr b x y z => Sys2Proof.Machine.execEdOr b x y z s
  | .edXor b x y z => Sys2Proof.Machine.execEdXor b x y z s
  | .edSll b x y z => Sys2Proof.Machine.execEdSll b x y z s
  | .edSrl b x y z => Sys2Proof.Machine.execEdSrl b x y z s
  | .edSra b x y z => Sys2Proof.Machine.execEdSra b x y z s
  | .edMul b x y z => Sys2Proof.Machine.execEdMul b x y z s
  | .edMulhu b x y z => Sys2Proof.Machine.execEdMulhu b x y z s
  | .edDivu b x y z => Sys2Proof.Machine.execEdDivu b x y z s
  | .edRemu b x y z => Sys2Proof.Machine.execEdRemu b x y z s
  | .edDiv b x y z => Sys2Proof.Machine.execEdDiv b x y z s
  | .edRem b x y z => Sys2Proof.Machine.execEdRem b x y z s
  | .edSlt b x y z => Sys2Proof.Machine.execEdSlt b x y z s
  | .edSltu b x y z => Sys2Proof.Machine.execEdSltu b x y z s
  | .edMin b x y z => Sys2Proof.Machine.execEdMin b x y z s
  | .edMax b x y z => Sys2Proof.Machine.execEdMax b x y z s
  | .edAddi b x y i_ => Sys2Proof.Machine.execEdAddi b x y i_ s
  | .edAndi b x y i_ => Sys2Proof.Machine.execEdAndi b x y i_ s
  | .edOri b x y i_ => Sys2Proof.Machine.execEdOri b x y i_ s
  | .edXori b x y i_ => Sys2Proof.Machine.execEdXori b x y i_ s
  | .edSlli b x y i_ => Sys2Proof.Machine.execEdSlli b x y i_ s
  | .edSrli b x y i_ => Sys2Proof.Machine.execEdSrli b x y i_ s
  | .edSrai b x y i_ => Sys2Proof.Machine.execEdSrai b x y i_ s
  | .edLui b x i_ => Sys2Proof.Machine.execEdLui b x i_ s
  | .edShlori b x i_ => Sys2Proof.Machine.execEdShlori b x i_ s
  | .edSlti b x y i_ => Sys2Proof.Machine.execEdSlti b x y i_ s
  | .edLd8u b x y i_ host => Sys2Proof.Machine.execEdLd8u b x y i_ host s
  | .edLd16u b x y i_ host => Sys2Proof.Machine.execEdLd16u b x y i_ host s
  | .edLd32u b x y i_ host => Sys2Proof.Machine.execEdLd32u b x y i_ host s
  | .edLd64 b x y i_ host ecc => Sys2Proof.Machine.execEdLd64 b x y i_ host ecc s
  | .edLd8s b x y i_ host => Sys2Proof.Machine.execEdLd8s b x y i_ host s
  | .edLd16s b x y i_ host => Sys2Proof.Machine.execEdLd16s b x y i_ host s
  | .edLd32s b x y i_ host => Sys2Proof.Machine.execEdLd32s b x y i_ host s
  | .edSt8 b x y i_ => Sys2Proof.Machine.execEdSt8 b x y i_ s
  | .edSt16 b x y i_ => Sys2Proof.Machine.execEdSt16 b x y i_ s
  | .edSt32 b x y i_ => Sys2Proof.Machine.execEdSt32 b x y i_ s
  | .edSt64 b x y i_ => Sys2Proof.Machine.execEdSt64 b x y i_ s
  | .edBeq b x y i_ spec miss => Sys2Proof.Machine.execEdBeq b x y i_ spec miss s
  | .edBne b x y i_ spec miss => Sys2Proof.Machine.execEdBne b x y i_ spec miss s
  | .edBlt b x y i_ spec miss => Sys2Proof.Machine.execEdBlt b x y i_ spec miss s
  | .edBge b x y i_ spec miss => Sys2Proof.Machine.execEdBge b x y i_ spec miss s
  | .edBltu b x y i_ spec miss => Sys2Proof.Machine.execEdBltu b x y i_ spec miss s
  | .edBgeu b x y i_ spec miss => Sys2Proof.Machine.execEdBgeu b x y i_ spec miss s
  | .edJal b o => Sys2Proof.Machine.execEdJal b o s
  | .edJ b o => Sys2Proof.Machine.execEdJ b o s
  | .edJr b x y spec miss => Sys2Proof.Machine.execEdJr b x y spec miss s
  | .edLoop b n y len => Sys2Proof.Machine.execEdLoop b n y len s
  | .edLoopi b n c len => Sys2Proof.Machine.execEdLoopi b n c len s
  | .edLcset b n y => Sys2Proof.Machine.execEdLcset b n y s
  | .edLcget b x n => Sys2Proof.Machine.execEdLcget b x n s
  | .edFadd b x y z => Sys2Proof.Machine.execEdFadd b x y z s
  | .edFsub b x y z => Sys2Proof.Machine.execEdFsub b x y z s
  | .edFmul b x y z => Sys2Proof.Machine.execEdFmul b x y z s
  | .edFdiv b x y z => Sys2Proof.Machine.execEdFdiv b x y z s
  | .edFsqrt b x y z => Sys2Proof.Machine.execEdFsqrt b x y z s
  | .edFrsqrt b x y z => Sys2Proof.Machine.execEdFrsqrt b x y z s
  | .edFlog2 b x y z => Sys2Proof.Machine.execEdFlog2 b x y z s
  | .edFexp2 b x y z => Sys2Proof.Machine.execEdFexp2 b x y z s
  | .edFma b x y z => Sys2Proof.Machine.execEdFma b x y z s
  | .edFmaximum b x y z => Sys2Proof.Machine.execEdFmaximum b x y z s
  | .edFminimum b x y z => Sys2Proof.Machine.execEdFminimum b x y z s
  | .edFmaximumNumber b x y z => Sys2Proof.Machine.execEdFmaximumNumber b x y z s
  | .edFminimumNumber b x y z => Sys2Proof.Machine.execEdFminimumNumber b x y z s
  | .edFequal b x y z => Sys2Proof.Machine.execEdFequal b x y z s
  | .edFnotEqual b x y z => Sys2Proof.Machine.execEdFnotEqual b x y z s
  | .edFless b x y z => Sys2Proof.Machine.execEdFless b x y z s
  | .edFlessEqual b x y z => Sys2Proof.Machine.execEdFlessEqual b x y z s
  | .edFgreater b x y z => Sys2Proof.Machine.execEdFgreater b x y z s
  | .edFgreaterEqual b x y z => Sys2Proof.Machine.execEdFgreaterEqual b x y z s
  | .edFunordered b x y z => Sys2Proof.Machine.execEdFunordered b x y z s
  | .edFcvtis b x y z => Sys2Proof.Machine.execEdFcvtis b x y z s
  | .edFcvtsi b x y z => Sys2Proof.Machine.execEdFcvtsi b x y z s
  | .edFtotal b x y z => Sys2Proof.Machine.execEdFtotal b x y z s
  | .edFrem b x y z => Sys2Proof.Machine.execEdFrem b x y z s
  | .edFence b => Sys2Proof.Machine.execEdFence b s
  | .edDclean b y => Sys2Proof.Machine.execEdDclean b y s
  | .edDinv b y => Sys2Proof.Machine.execEdDinv b y s
  | .edIinv b => Sys2Proof.Machine.execEdIinv b s
  | .edEnd b => Sys2Proof.Machine.execEdEnd b s
  | .edBrk b => Sys2Proof.Machine.execEdBrk b s
  | .edRdcyc b x => Sys2Proof.Machine.execEdRdcyc b x s
  | .edNop b => Sys2Proof.Machine.execEdNop b s
  | .edPush b x i_ => Sys2Proof.Machine.execEdPush b x i_ s
  | .edPushm b y i_ host => Sys2Proof.Machine.execEdPushm b y i_ host s
  | .edQfree b x i_ => Sys2Proof.Machine.execEdQfree b x i_ s
  | .edSsig b y i_ => Sys2Proof.Machine.execEdSsig b y i_ s
  | .edSwait b y i_ => Sys2Proof.Machine.execEdSwait b y i_ s
  | .edSread b x i_ => Sys2Proof.Machine.execEdSread b x i_ s
  | .edSset b y i_ => Sys2Proof.Machine.execEdSset b y i_ s
  | .edPhase b y i_ => Sys2Proof.Machine.execEdPhase b y i_ s
  | .phaseMarkTaken b => Sys2Proof.Machine.execPhaseMarkTaken b s
  | .edSclaim b x y i_ host => Sys2Proof.Machine.execEdSclaim b x y i_ host s
  | .edRnd b x y i_ => Sys2Proof.Machine.execEdRnd b x y i_ s
  | .edVop b x y z => Sys2Proof.Machine.execEdVop b x y z s
  | .edTop b x k host => Sys2Proof.Machine.execEdTop b x k host s
  | .gangHalt b => Sys2Proof.Machine.execGangHalt b s
  | .ccResume b => Sys2Proof.Machine.execCcResume b s
  | .ccStep b host spec miss => Sys2Proof.Machine.execCcStep b host spec miss s
  | .ccHaltReq b => Sys2Proof.Machine.execCcHaltReq b s
  | .ccCntClr b => Sys2Proof.Machine.execCcCntClr b s
  | .ccSyncWrite b i_ v => Sys2Proof.Machine.execCcSyncWrite b i_ v s
  | .idleFlit p w => Sys2Proof.Machine.execIdleFlit p w s
  | .dataFlit p w a => Sys2Proof.Machine.execDataFlit p w a s
  | .escapeWaitExpiry p vc => Sys2Proof.Machine.execEscapeWaitExpiry p vc s
  | .nak p w => Sys2Proof.Machine.execNak p w s
  | .heartbeatFlit p w => Sys2Proof.Machine.execHeartbeatFlit p w s
  | .admitLink p w => Sys2Proof.Machine.execAdmitLink p w s
  | .revoke p w => Sys2Proof.Machine.execRevoke p w s
  | .readReq => Sys2Proof.Machine.execReadReq s
  | .readRsp => Sys2Proof.Machine.execReadRsp s
  | .write => Sys2Proof.Machine.execWrite s
  | .writeAck => Sys2Proof.Machine.execWriteAck s
  | .refuse => Sys2Proof.Machine.execRefuse s
  | .mgmt => Sys2Proof.Machine.execMgmt s
  | .e2eAck => Sys2Proof.Machine.execE2eAck s
  | .e2eTimeout dst pseq => Sys2Proof.Machine.execE2eTimeout dst pseq s
  | .e2eAckTimer src => Sys2Proof.Machine.execE2eAckTimer src s
  | .rspTimeout i_ => Sys2Proof.Machine.execRspTimeout i_ s
  | .lkEnable p v => Sys2Proof.Machine.execLkEnable p v s
  | .trainComplete p lanes => Sys2Proof.Machine.execTrainComplete p lanes s
  | .trainTimeout p => Sys2Proof.Machine.execTrainTimeout p s
  | .trainRetry p => Sys2Proof.Machine.execTrainRetry p s
  | .identFrame p dev port nonce => Sys2Proof.Machine.execIdentFrame p dev port nonce s
  | .laneError p lock ser => Sys2Proof.Machine.execLaneError p lock ser s
  | .retrainComplete p lanes => Sys2Proof.Machine.execRetrainComplete p lanes s
  | .retrainTimeout p => Sys2Proof.Machine.execRetrainTimeout p s
  | .lkRetrain p => Sys2Proof.Machine.execLkRetrain p s
  | .lkCntClr p => Sys2Proof.Machine.execLkCntClr p s
  | .lkAdmit p v => Sys2Proof.Machine.execLkAdmit p v s
  | .heartbeatTimer p => Sys2Proof.Machine.execHeartbeatTimer p s
  | .partnerLost p => Sys2Proof.Machine.execPartnerLost p s
  | .suspect d => Sys2Proof.Machine.execSuspect d s
  | .probe src nonce => Sys2Proof.Machine.execProbe src nonce s
  | .probeAck src nonce => Sys2Proof.Machine.execProbeAck src nonce s
  | .probeTimeout => Sys2Proof.Machine.execProbeTimeout s
  | .stage src m => Sys2Proof.Machine.execStage src m s
  | .staged src e => Sys2Proof.Machine.execStaged src e s
  | .notStaged e => Sys2Proof.Machine.execNotStaged e s
  | .stageTimeout => Sys2Proof.Machine.execStageTimeout s
  | .switch src e => Sys2Proof.Machine.execSwitch src e s
  | .abort src e => Sys2Proof.Machine.execAbort src e s
  | .memberQuery src => Sys2Proof.Machine.execMemberQuery src s
  | .memberState src active held m => Sys2Proof.Machine.execMemberState src active held m s
  | .join p dev chain => Sys2Proof.Machine.execJoin p dev chain s
  | .joinBatchExpiry => Sys2Proof.Machine.execJoinBatchExpiry s
  | .challenge p c => Sys2Proof.Machine.execChallenge p c s
  | .memberResponse p sig => Sys2Proof.Machine.execMemberResponse p sig s
  | .joinRetry => Sys2Proof.Machine.execJoinRetry s
  | .memberDigest p d => Sys2Proof.Machine.execMemberDigest p d s
  | .clNop u => Sys2Proof.Machine.execClNop u s
  | .clSyncWait u => Sys2Proof.Machine.execClSyncWait u s
  | .clSyncSignal u => Sys2Proof.Machine.execClSyncSignal u s
  | .coll u => Sys2Proof.Machine.execColl u s
  | .collFlit => Sys2Proof.Machine.execCollFlit s
  | .chunkCombine u id c bad => Sys2Proof.Machine.execChunkCombine u id c bad s
  | .patienceExpiry u id => Sys2Proof.Machine.execPatienceExpiry u id s
  | .collComplete u id => Sys2Proof.Machine.execCollComplete u id s
  | .tallyExchangeStart bad => Sys2Proof.Machine.execTallyExchangeStart bad s
  | .tpatienceExpiry => Sys2Proof.Machine.execTpatienceExpiry s
  | .clResume u => Sys2Proof.Machine.execClResume u s
  | .clSkip u => Sys2Proof.Machine.execClSkip u s
  | .clCntClr u => Sys2Proof.Machine.execClCntClr u s
  | .clTallySelWrite v => Sys2Proof.Machine.execClTallySelWrite v s
  | .clTallyFind v => Sys2Proof.Machine.execClTallyFind v s
  | .clTallyRetire v => Sys2Proof.Machine.execClTallyRetire v s
  | .configRequest op vis => Sys2Proof.Machine.execConfigRequest op vis s
  | .barRead i_ o n => Sys2Proof.Machine.execBarRead i_ o n s
  | .barWrite i_ o d => Sys2Proof.Machine.execBarWrite i_ o d s
  | .hxDb r v => Sys2Proof.Machine.execHxDb r v s
  | .ringFetch r data => Sys2Proof.Machine.execRingFetch r data s
  | .ringEntryComplete r ok => Sys2Proof.Machine.execRingEntryComplete r ok s
  | .hxRbCfgWrite r v => Sys2Proof.Machine.execHxRbCfgWrite r v s
  | .hxCntClr => Sys2Proof.Machine.execHxCntClr s
  | .msixModExpiry r => Sys2Proof.Machine.execMsixModExpiry r s
  | .msixUnmask v all => Sys2Proof.Machine.execMsixUnmask v all s
  | .functionLevelReset => Sys2Proof.Machine.execFunctionLevelReset s
  | .perstN => Sys2Proof.Machine.execPerstN s
  | .getInfo m => Sys2Proof.Machine.execGetInfo m s
  | .powerSet m => Sys2Proof.Machine.execPowerSet m s
  | .profileStore m => Sys2Proof.Machine.execProfileStore m s
  | .mbReset m => Sys2Proof.Machine.execMbReset m s
  | .mbFence m => Sys2Proof.Machine.execMbFence m s
  | .memberStatus m => Sys2Proof.Machine.execMemberStatus m s
  | .configStage m data ok => Sys2Proof.Machine.execConfigStage m data ok s
  | .leave m => Sys2Proof.Machine.execLeave m s
  | .rejoin m => Sys2Proof.Machine.execRejoin m s
  | .sensors m => Sys2Proof.Machine.execSensors m s
  | .logRead m => Sys2Proof.Machine.execLogRead m s
  | .logFlush m => Sys2Proof.Machine.execLogFlush m s
  | .logFlashRead m => Sys2Proof.Machine.execLogFlashRead m s
  | .fwStage m data sig => Sys2Proof.Machine.execFwStage m data sig s
  | .fwStagePeer m sig => Sys2Proof.Machine.execFwStagePeer m sig s
  | .fwActivate m => Sys2Proof.Machine.execFwActivate m s
  | .fwConfirm m => Sys2Proof.Machine.execFwConfirm m s
  | .fwStatus m => Sys2Proof.Machine.execFwStatus m s
  | .attest m => Sys2Proof.Machine.execAttest m s
  | .certs m => Sys2Proof.Machine.execCerts m s
  | .certInstall m data ok => Sys2Proof.Machine.execCertInstall m data ok s
  | .lifecycle m next ok => Sys2Proof.Machine.execLifecycle m next ok s
  | .mailboxDone m => Sys2Proof.Machine.execMailboxDone m s
  | .monId => Sys2Proof.Machine.execMonId s
  | .monStatus => Sys2Proof.Machine.execMonStatus s
  | .monLog n => Sys2Proof.Machine.execMonLog n s
  | .monSens => Sys2Proof.Machine.execMonSens s
  | .monFwload data sig => Sys2Proof.Machine.execMonFwload data sig s
  | .monBoot n => Sys2Proof.Machine.execMonBoot n s
  | .monReset kind => Sys2Proof.Machine.execMonReset kind s
  | .monUnlock => Sys2Proof.Machine.execMonUnlock s
  | .monResp ok serial => Sys2Proof.Machine.execMonResp ok serial s
  | .monRd a => Sys2Proof.Machine.execMonRd a s
  | .monWr a v => Sys2Proof.Machine.execMonWr a v s
  | .monFuses => Sys2Proof.Machine.execMonFuses s
  | .monTest b fail => Sys2Proof.Machine.execMonTest b fail s
  | .monLock => Sys2Proof.Machine.execMonLock s
  | .monLc next ok => Sys2Proof.Machine.execMonLc next ok s
  | .sensorSample x v => Sys2Proof.Machine.execSensorSample x v s
  | .throttleEnd stack => Sys2Proof.Machine.execThrottleEnd stack s
  | .ghWbTempRead i_ => Sys2Proof.Machine.execGhWbTempRead i_ s
  | .ghWbVoltRead d => Sys2Proof.Machine.execGhWbVoltRead d s
  | .ghWbCurrRead r => Sys2Proof.Machine.execGhWbCurrRead r s
  | .ghPhaseCfgWrite v => Sys2Proof.Machine.execGhPhaseCfgWrite v s
  | .ghWatchdog => Sys2Proof.Machine.execGhWatchdog s
  | .clampTick mv => Sys2Proof.Machine.execClampTick mv s
  | .powerClampUnmet => Sys2Proof.Machine.execPowerClampUnmet s
  | .railOvercurrent r ma => Sys2Proof.Machine.execRailOvercurrent r ma s
  | .pwClampWrite v => Sys2Proof.Machine.execPwClampWrite v s
  | .pwThermWrite stack v => Sys2Proof.Machine.execPwThermWrite stack v s
  | .thermalTrip i_ reading => Sys2Proof.Machine.execThermalTrip i_ reading s
  | .mainPowerFail mv => Sys2Proof.Machine.execMainPowerFail mv s
  | .mainPowerRestored => Sys2Proof.Machine.execMainPowerRestored s
  | .auxPowerLoss => Sys2Proof.Machine.execAuxPowerLoss s
  | .auxPowerOn main => Sys2Proof.Machine.execAuxPowerOn main s
  | .domainFault d mv => Sys2Proof.Machine.execDomainFault d mv s
  | .refLost ref => Sys2Proof.Machine.execRefLost ref s
  | .refRestored => Sys2Proof.Machine.execRefRestored s
  | .modRstN us => Sys2Proof.Machine.execModRstN us s
  | .startStage1 us straps prof ce ue lock => Sys2Proof.Machine.execStartStage1 us straps prof ce ue lock s
  | .startStage2 us sigA sigB => Sys2Proof.Machine.execStartStage2 us sigA sigB s
  | .startStage3 us ok0 ok1 => Sys2Proof.Machine.execStartStage3 us ok0 ok1 s
  | .startStage4 us fail => Sys2Proof.Machine.execStartStage4 us fail s
  | .startStage5 us fails => Sys2Proof.Machine.execStartStage5 us fails s
  | .startStage6 us => Sys2Proof.Machine.execStartStage6 us s
  | .startRelease => Sys2Proof.Machine.execStartRelease s
  | .residueMismatch b tag pass row col site => Sys2Proof.Machine.execResidueMismatch b tag pass row col site s
  | .benchUncorrectable b site e => Sys2Proof.Machine.execBenchUncorrectable b site e s
  | .fenceComplete b => Sys2Proof.Machine.execFenceComplete b s
  | .bridgeFlit dir addr fails write who => Sys2Proof.Machine.execBridgeFlit dir addr fails write who s
  | .bridgeRetry => Sys2Proof.Machine.execBridgeRetry s
  | .bankCools i_ => Sys2Proof.Machine.execBankCools i_ s
  | .hostLinkUp speed width => Sys2Proof.Machine.execHostLinkUp speed width s
  | .gatehouseFirmwareSramUncorrectable => Sys2Proof.Machine.execGatehouseFirmwareSramUncorrectable s
  | .runningImageRequest src => Sys2Proof.Machine.execRunningImageRequest src s
  | .bridgeRetrained => Sys2Proof.Machine.execBridgeRetrained s

end Sys2Proof.Machine
end

