-- ==== Sys2Proof/WellFormed.lean ====
section
/-! DEFINITION. Well-formed commands: every operand fits the field or signal that carries it. A sender sends only these; a command's meaning is given for the
others too, with the field's width applied. -/
namespace Sys2Proof

/-- Does a number fit n bits? -/
def fits (n v : Nat) : Bool := decide (v < 2 ^ n)

/-- A device physical address (R11). -/
def isAddr (a : Nat) : Bool := fits 48 a

/-- A register access as a command carries it: 4 or 8 bytes, aligned, and a value of that size (R239). -/
def wfAccess (a n v : Nat) : Bool := isAddr a && (decide (n = 4) || decide (n = 8)) && decide (a % n = 0) && fits (8 * n) v

/-- Bytes written by one engine request: at least one, all in one 64-byte line (R208, R239). -/
def wfLine (a : Nat) (d : Bytes) : Bool := isAddr a && decide (0 < d.length) && decide (a % 64 + d.length ≤ 64)

/-- Bytes that the host returns, if it returns any, at most a request of 64 bytes. -/
def wfHost (h : Option Bytes) : Bool := match h with
  | none => true
  | some d => decide (d.length ≤ 64)

/-- A data flit: device numbers, TYPE, ID, PSEQ and at most 224 payload bytes (R307, R309). -/
def wfFlit (f : Machine.Flit) : Bool :=
  fits 16 f.src && fits 16 f.dst && fits 8 f.typ && fits 64 f.id && fits 32 f.pseq && fits 16 f.gwDev && fits 3 f.gwPort && fits 3 f.esc && fits 8 f.hops
    && decide (f.payload.length ≤ 224) && (match f.mem with | none => true | some (e, _) => fits 64 e && decide (f.typ = 0x20))

/-- A flit on a port: the fields of the link word (R308), a data flit exactly when KIND is 1, and at most 56 bytes of area otherwise. -/
def wfWire (kind : Nat) (w : Machine.Wire) : Bool :=
  decide (w.kind = kind) && fits 3 w.vc && fits 12 w.lseq && fits 12 w.ack && fits 3 w.crvc && fits 8 w.crn && decide (w.area.length ≤ 56) && decide (w.errs ≤ 544)
    && (match w.data with | none => decide (kind ≠ 1) | some f => decide (kind = 1) && wfFlit f)

/-- The content of a STAGE (R325). -/
def wfStage (m : Machine.StageMsg) : Bool :=
  fits 64 m.epoch && decide (m.digest.length = 48) && m.added.all (fits 16) && m.removed.all (fits 16)
    && (match m.full with | none => true | some l => l.all (fits 16))

/-- A request of an arbiter: 1 to 16 beats of class 1 to 4, none served yet (R262, R263). -/
def wfReq (r : Machine.ArbReq) : Bool := decide (1 ≤ r.beats) && decide (r.beats ≤ 16) && decide (r.left = r.beats) && decide (1 ≤ r.cls) && decide (r.cls ≤ 4) && r.puts.all (fun p => isAddr p.1)

/-- A step of translated code: a core, and commands and descriptors of eight words (R294, R297). -/
def wfStep (st : Machine.OpStep) : Bool :=
  decide (st.core < 24) && (match st.kind with
    | .push p => decide (p.cmd.length = 8) && (match p.drain with | none => true | some d => decide (d.cmd.length = 8) && isAddr d.va)
    | _ => true)

/-- A translation: addresses in the device space, and well-formed steps (R297). -/
def wfTranslated (t : Machine.Translated) : Bool := match t with
  | .noRoom => true
  | .ok code ro zeroBase cb ops bufs writes images _ _ =>
    isAddr code && isAddr ro && isAddr zeroBase && isAddr cb && bufs.all (fun l => l.all (fun b => isAddr b.o.va)) && ops.all (fun l => l.all wfStep) && writes.all (fun w => isAddr w.1) && images.all (fun i => isAddr i.2)

/-- A configuration request (R360). -/
def wfCfg (op : Machine.CfgOp) : Bool := match op with
  | .writeBar _ a => fits 64 a
  | .writeBar4Size k => fits 6 k
  | .readId => true
  | .readClass => true
  | .readSerial => true
  | .readCommand => true
  | .readBar _ => true
  | .writeCommand _ _ => true
  | .writeMsix _ _ => true
  | .writePower _ => true
  | .writeDevice m r => fits 3 m && fits 3 r
  | .writeDevice2 _ => true
  | .clearErrors => true
  | .readCap _ => true
  | .readDeviceCap => true
  | .readDeviceCap2 => true
  | .readDevice => true
  | .readDevice2 => true
  | .readMsix => true
  | .readPower => true
  | .readBarSizes => true
  | .readBar4Size => true
  | .readErrors => true


/-- Every operand of a command fits what carries it. -/
def Instr.wf (i : Instr) : Bool :=
  match i with
  | .registerWrite _ a n v => wfAccess a n v
  | .benchNop _ => true
  | .tile _ => true
  | .benchSyncWait _ => true
  | .benchSyncSignal _ => true
  | .deferredSignalAdd _ => true
  | .setreg _ => true
  | .benchCommit _ => true
  | .benchHalt _ => true
  | .bnCommitGo _ => true
  | .commitCopy _ => true
  | .bnResume _ => true
  | .bnSkip _ => true
  | .bnHaltReq _ => true
  | .bnCntClr _ => true
  | .bnFlagsClear _ mask => fits 64 mask
  | .bnFlagsRcRead _ => true
  | .beatEntry _ => true
  | .tileFaultPoisonDone _ => true
  | .partialReadReturn _ => true
  | .rowFinal _ => true
  | .partTimeout _ => true
  | .autosplitSpill _ => true
  | .tableBuild _ => true
  | .localStoreWrite _ off d => fits 24 off && decide (0 < d.length) && decide (off % 64 + d.length ≤ 64)
  | .drainDescriptorArrival _ => true
  | .dresserRow _ => true
  | .tileStatusWrite _ => true
  | .drTableWrite _ _ _ v => fits 16 v
  | .drCntClr _ => true
  | .muNop _ => true
  | .muSyncWait _ => true
  | .muSyncSignal _ => true
  | .mm _ => true
  | .red _ => true
  | .masonCommandDone _ => true
  | .muResume _ => true
  | .muSkip _ => true
  | .muCntClr _ => true
  | .muPassesWrite _ v => fits 64 v
  | .spKeyLoad => true
  | .streamClaim bad => (match bad with | none => true | some i => fits 8 i)
  | .spRetire step => fits 64 step
  | .spClaimsRead => true
  | .spRefusedRead => true
  | .crNop _ => true
  | .crSyncWait _ => true
  | .crSyncSignal _ => true
  | .rot _ => true
  | .rotBlock _ => true
  | .crResume _ => true
  | .crSkip _ => true
  | .crCntClr _ => true
  | .register _ _ w => fits 56 w
  | .deregister _ _ r _ => fits 11 r
  | .pinCurrent _ _ r _ => fits 11 r
  | .pinStep _ _ r lo _ => fits 11 r && fits 32 lo
  | .pinToken _ _ r _ gen _ => fits 11 r && fits 8 gen
  | .unpin _ _ r _ gen _ => fits 11 r && fits 8 gen
  | .vtSlotAcquire _ => true
  | .versionExhausted _ => true
  | .ueVtSelWrite _ v => fits 64 v
  | .ueVtCfgWrite _ v => fits 64 v
  | .ueNop _ => true
  | .ueSyncWait _ => true
  | .ueSyncSignal _ => true
  | .update _ => true
  | .updateSweep _ => true
  | .mark _ => true
  | .ueResume _ => true
  | .ueSkip _ => true
  | .ueCntClr _ => true
  | .addWrite a d => wfLine a d
  | .atmZero _ _ => true
  | .atmClearDone _ _ => true
  | .prepareRequest v => fits 64 v
  | .voteSend => true
  | .voteRepeat => true
  | .cmVote => true
  | .ptimeoutExpiry => true
  | .cmCommit => true
  | .cmDiscard => true
  | .cmQuery => true
  | .cmState => true
  | .commitTakeover => true
  | .decisionApply => true
  | .mmInval v => fits 64 v
  | .mmInvalDone => true
  | .stackAccess a wdata _ => (isAddr a && (match wdata with | none => true | some d => wfLine a d))
  | .stockyardAccess a wdata _ => (isAddr a && (match wdata with | none => true | some d => wfLine a d))
  | .patrolScrub _ _ => true
  | .ueSeamSelWrite _ v => fits 64 v
  | .sySelWrite v => fits 64 v
  | .arbitrationDecision _ arrive _ => arrive.all wfReq
  | .hotBank _ => true
  | .dkNop _ => true
  | .dkSyncWait _ => true
  | .dkSyncSignal _ => true
  | .copy _ => true
  | .fill _ => true
  | .slotfill _ => true
  | .plane _ => true
  | .derrickRequest _ host _ => wfHost host
  | .runAheadRead _ => true
  | .slotWrite _ => true
  | .descriptorComplete _ => true
  | .dkResume _ => true
  | .dkSkip _ => true
  | .dkCntClr _ => true
  | .load _ t _ => wfTranslated t
  | .run _ => true
  | .unload _ => true
  | .ctx _ => true
  | .ringWait _ => true
  | .ringSignal _ => true
  | .edAdd _ _ _ _ => true
  | .edSub _ _ _ _ => true
  | .edAnd _ _ _ _ => true
  | .edOr _ _ _ _ => true
  | .edXor _ _ _ _ => true
  | .edSll _ _ _ _ => true
  | .edSrl _ _ _ _ => true
  | .edSra _ _ _ _ => true
  | .edMul _ _ _ _ => true
  | .edMulhu _ _ _ _ => true
  | .edDivu _ _ _ _ => true
  | .edRemu _ _ _ _ => true
  | .edDiv _ _ _ _ => true
  | .edRem _ _ _ _ => true
  | .edSlt _ _ _ _ => true
  | .edSltu _ _ _ _ => true
  | .edMin _ _ _ _ => true
  | .edMax _ _ _ _ => true
  | .edAddi _ _ _ _ => true
  | .edAndi _ _ _ _ => true
  | .edOri _ _ _ _ => true
  | .edXori _ _ _ _ => true
  | .edSlli _ _ _ _ => true
  | .edSrli _ _ _ _ => true
  | .edSrai _ _ _ _ => true
  | .edLui _ _ _ => true
  | .edShlori _ _ _ => true
  | .edSlti _ _ _ _ => true
  | .edLd8u _ _ _ _ host => wfHost host
  | .edLd16u _ _ _ _ host => wfHost host
  | .edLd32u _ _ _ _ host => wfHost host
  | .edLd64 _ _ _ _ host _ => wfHost host
  | .edLd8s _ _ _ _ host => wfHost host
  | .edLd16s _ _ _ _ host => wfHost host
  | .edLd32s _ _ _ _ host => wfHost host
  | .edSt8 _ _ _ _ => true
  | .edSt16 _ _ _ _ => true
  | .edSt32 _ _ _ _ => true
  | .edSt64 _ _ _ _ => true
  | .edBeq _ _ _ _ spec _ => spec.all (fun p => fits 64 p.2)
  | .edBne _ _ _ _ spec _ => spec.all (fun p => fits 64 p.2)
  | .edBlt _ _ _ _ spec _ => spec.all (fun p => fits 64 p.2)
  | .edBge _ _ _ _ spec _ => spec.all (fun p => fits 64 p.2)
  | .edBltu _ _ _ _ spec _ => spec.all (fun p => fits 64 p.2)
  | .edBgeu _ _ _ _ spec _ => spec.all (fun p => fits 64 p.2)
  | .edJal _ _ => true
  | .edJ _ _ => true
  | .edJr _ _ _ spec _ => spec.all (fun p => fits 64 p.2)
  | .edLoop _ _ _ _ => true
  | .edLoopi _ _ _ _ => true
  | .edLcset _ _ _ => true
  | .edLcget _ _ _ => true
  | .edFadd _ _ _ _ => true
  | .edFsub _ _ _ _ => true
  | .edFmul _ _ _ _ => true
  | .edFdiv _ _ _ _ => true
  | .edFsqrt _ _ _ _ => true
  | .edFrsqrt _ _ _ _ => true
  | .edFlog2 _ _ _ _ => true
  | .edFexp2 _ _ _ _ => true
  | .edFma _ _ _ _ => true
  | .edFmaximum _ _ _ _ => true
  | .edFminimum _ _ _ _ => true
  | .edFmaximumNumber _ _ _ _ => true
  | .edFminimumNumber _ _ _ _ => true
  | .edFequal _ _ _ _ => true
  | .edFnotEqual _ _ _ _ => true
  | .edFless _ _ _ _ => true
  | .edFlessEqual _ _ _ _ => true
  | .edFgreater _ _ _ _ => true
  | .edFgreaterEqual _ _ _ _ => true
  | .edFunordered _ _ _ _ => true
  | .edFcvtis _ _ _ _ => true
  | .edFcvtsi _ _ _ _ => true
  | .edFtotal _ _ _ _ => true
  | .edFrem _ _ _ _ => true
  | .edFence _ => true
  | .edDclean _ _ => true
  | .edDinv _ _ => true
  | .edIinv _ => true
  | .edEnd _ => true
  | .edBrk _ => true
  | .edRdcyc _ _ => true
  | .edNop _ => true
  | .edPush _ _ _ => true
  | .edPushm _ _ _ host => wfHost host
  | .edQfree _ _ _ => true
  | .edSsig _ _ _ => true
  | .edSwait _ _ _ => true
  | .edSread _ _ _ => true
  | .edSset _ _ _ => true
  | .edPhase _ _ _ => true
  | .phaseMarkTaken _ => true
  | .edSclaim _ _ _ _ host => wfHost host
  | .edRnd _ _ _ _ => true
  | .edVop _ _ _ _ => true
  | .edTop _ _ _ host => wfHost host
  | .gangHalt _ => true
  | .ccResume _ => true
  | .ccStep _ host spec _ => wfHost host && spec.all (fun p => fits 64 p.2)
  | .ccHaltReq _ => true
  | .ccCntClr _ => true
  | .ccSyncWrite _ _ v => fits 64 v
  | .idleFlit _ w => wfWire 0 w
  | .dataFlit _ w _ => wfWire 1 w
  | .escapeWaitExpiry _ vc => fits 3 vc
  | .nak _ w => wfWire 3 w
  | .heartbeatFlit _ w => wfWire 2 w
  | .admitLink _ w => wfWire 4 w
  | .revoke _ w => wfWire 5 w
  | .readReq => true
  | .readRsp => true
  | .write => true
  | .writeAck => true
  | .refuse => true
  | .mgmt => true
  | .e2eAck => true
  | .e2eTimeout dst pseq => fits 16 dst && fits 32 pseq
  | .e2eAckTimer src => fits 16 src
  | .rspTimeout _ => true
  | .lkEnable _ _ => true
  | .trainComplete _ lanes => fits 4 lanes
  | .trainTimeout _ => true
  | .trainRetry _ => true
  | .identFrame _ dev port nonce => fits 16 dev && fits 4 port && fits 64 nonce
  | .laneError _ lock ser => fits 4 lock && decide (ser.length = 4) && ser.all (fits 16)
  | .retrainComplete _ lanes => fits 4 lanes
  | .retrainTimeout _ => true
  | .lkRetrain _ => true
  | .lkCntClr _ => true
  | .lkAdmit _ v => fits 64 v
  | .heartbeatTimer _ => true
  | .partnerLost _ => true
  | .suspect d => fits 16 d
  | .probe src nonce => fits 16 src && fits 64 nonce
  | .probeAck src nonce => fits 16 src && fits 64 nonce
  | .probeTimeout => true
  | .stage src m => fits 16 src && wfStage m
  | .staged src e => fits 16 src && fits 64 e
  | .notStaged e => fits 64 e
  | .stageTimeout => true
  | .switch src e => fits 16 src && fits 64 e
  | .abort src e => fits 16 src && fits 64 e
  | .memberQuery src => fits 16 src
  | .memberState src active _ m => (fits 16 src && fits 64 active && (match m with | none => true | some y => wfStage y))
  | .join _ dev _ => fits 16 dev
  | .joinBatchExpiry => true
  | .challenge _ c => decide (c.length = 48)
  | .memberResponse _ sig => decide (sig.length = 96)
  | .joinRetry => true
  | .memberDigest _ d => decide (d.length = 48)
  | .clNop _ => true
  | .clSyncWait _ => true
  | .clSyncSignal _ => true
  | .coll _ => true
  | .collFlit => true
  | .chunkCombine _ id c _ => fits 64 id && fits 32 c
  | .patienceExpiry _ id => fits 64 id
  | .collComplete _ id => fits 64 id
  | .tallyExchangeStart bad => (match bad with | none => true | some i => fits 12 i)
  | .tpatienceExpiry => true
  | .clResume _ => true
  | .clSkip _ => true
  | .clCntClr _ => true
  | .clTallySelWrite v => fits 64 v
  | .clTallyFind v => fits 64 v
  | .clTallyRetire v => fits 64 v
  | .configRequest op _ => wfCfg op
  | .barRead _ _ n => decide (0 < n) && decide (n ≤ 4096)
  | .barWrite _ _ d => decide (0 < d.length) && decide (d.length ≤ 4096)
  | .hxDb _ v => fits 64 v
  | .ringFetch _ data => (match data with | none => true | some d => decide (d.length = 64))
  | .ringEntryComplete _ _ => true
  | .hxRbCfgWrite _ v => fits 64 v
  | .hxCntClr => true
  | .msixModExpiry _ => true
  | .msixUnmask _ _ => true
  | .functionLevelReset => true
  | .perstN => true
  | .getInfo _ => true
  | .powerSet _ => true
  | .profileStore _ => true
  | .mbReset _ => true
  | .mbFence _ => true
  | .memberStatus _ => true
  | .configStage _ data _ => decide (data.length ≤ 2 ^ 20)
  | .leave _ => true
  | .rejoin _ => true
  | .sensors _ => true
  | .logRead _ => true
  | .logFlush _ => true
  | .logFlashRead _ => true
  | .fwStage _ data _ => decide (data.length ≤ 2 ^ 21)
  | .fwStagePeer _ _ => true
  | .fwActivate _ => true
  | .fwConfirm _ => true
  | .fwStatus _ => true
  | .attest _ => true
  | .certs _ => true
  | .certInstall _ data _ => decide (data.length ≤ 65536)
  | .lifecycle _ next _ => fits 8 next
  | .mailboxDone _ => true
  | .monId => true
  | .monStatus => true
  | .monLog n => fits 32 n
  | .monSens => true
  | .monFwload data _ => decide (data.length ≤ 2 ^ 21)
  | .monBoot n => fits 32 n
  | .monReset kind => fits 32 kind
  | .monUnlock => true
  | .monResp _ serial => fits 64 serial
  | .monRd a => fits 64 a
  | .monWr a v => fits 64 a && fits 64 v
  | .monFuses => true
  | .monTest _ fail => (match fail with | none => true | some f => fits 16 f.1 && fits 64 f.2.1 && fits 64 f.2.2)
  | .monLock => true
  | .monLc next _ => fits 8 next
  | .sensorSample _ v => (match v with | none => true | some n => fits 32 n)
  | .throttleEnd _ => true
  | .ghWbTempRead _ => true
  | .ghWbVoltRead _ => true
  | .ghWbCurrRead _ => true
  | .ghPhaseCfgWrite v => fits 64 v
  | .ghWatchdog => true
  | .clampTick mv => (match mv with | none => true | some v => fits 16 v)
  | .powerClampUnmet => true
  | .railOvercurrent _ ma => fits 32 ma
  | .pwClampWrite v => fits 64 v
  | .pwThermWrite _ v => fits 64 v
  | .thermalTrip _ reading => fits 16 reading
  | .mainPowerFail mv => fits 16 mv
  | .mainPowerRestored => true
  | .auxPowerLoss => true
  | .auxPowerOn _ => true
  | .domainFault _ mv => fits 16 mv
  | .refLost _ => true
  | .refRestored => true
  | .modRstN _ => true
  | .startStage1 _ straps prof _ _ _ => fits 16 straps && fits 2 prof
  | .startStage2 _ _ _ => true
  | .startStage3 _ _ _ => true
  | .startStage4 _ fail => fits 8 fail
  | .startStage5 _ fails => fails.all (fun f => fits 16 f.2.1 && fits 64 f.2.2.1 && fits 64 f.2.2.2)
  | .startStage6 _ => true
  | .startRelease => true
  | .residueMismatch _ tag pass row col site => fits 24 tag && fits 16 pass && fits 16 row && fits 16 col && fits 8 site
  | .benchUncorrectable _ site _ => fits 8 site
  | .fenceComplete _ => true
  | .bridgeFlit dir addr fails _ _ => decide (dir < 2) && isAddr addr && decide (fails ≤ 16)
  | .bridgeRetry => true
  | .bankCools _ => true
  | .hostLinkUp speed width => fits 4 speed && fits 4 width
  | .gatehouseFirmwareSramUncorrectable => true
  | .runningImageRequest src => fits 16 src
  | .bridgeRetrained => true

end Sys2Proof
end

