-- ==== Sys2Proof/Safety.lean ====
section
/-! DEFINITION. What a safe run is, in the terms that the statements use: memory, the register file and the other sparse parts of the state keep
their canonical form, the machine never stops, and a queue of well-formed commands stays one. -/
namespace Sys2Proof.Machine

/-- The canonical form of memory: addresses strictly rising, and no entry equal to what an unlisted address reads as. -/
def Memory.wf (m : List (Nat × Byte)) : Bool := SMap.wf (fun _ => 0) m

/-- The canonical form of every sparse part of the state: memory (R237, R453), poisoned lines (R248), registers (R8), sync counters (R293). -/
def State.canonical (s : State) : Bool :=
  Memory.wf s.mem && SSet.wfFrom 0 s.poison && SMap.wf regReset s.regs && SMap.wf (fun _ => 0) s.sync

/-- Every command that waits is well-formed. -/
def State.queueWf (s : State) : Bool := s.pending.all Instr.wf

/-- The step answers a next state: it neither faults nor refuses. -/
def State.goesOn (s : State) : Prop := ∃ t, step s = .next t

/-! ## What holds of a queue and its engine when a command runs -/

/-- The queue runs, and its head is a command that passes parity and carries an opcode (R110, R111). -/
def EQ.ready (q : EQ) (op : Nat) (c : Cmd) : Bool := (q.head? == some c) && c.parOk && (c.op == op)

/-- The bench dispatches: no fence, no fault being poisoned, no COMMIT command in wait (R101, R106, R425). -/
def Bench.dispatches (x : Bench) : Bool := !x.out && x.fault.isNone && !x.commitCmd

/-- The bench runs its array: no fence, and no fault being poisoned. -/
def Bench.runs (x : Bench) : Bool := !x.out && x.fault.isNone

/-- Core b runs, at an aligned place that no break stops, and fetches a word that decodes to `e`; `t` is the state after the fetch
(R281, R288, R301). -/
def State.fetches (s : State) (b : Fin 24) (e : Ed) (t : State) : Prop :=
  (s.bench b).out = false ∧ (s.core b).st = 2 ∧ (s.core b).claim = none ∧ (s.core b).due = 0 ∧ (s.core b).pc % 4 = 0
    ∧ (!(s.core b).stepping && !(s.core b).mid && s.rbit (R.CC_BRK_CFG b) 2 && s.rn (R.CC_BRK_PC b) == (s.core b).pc) = false
    ∧ ∃ w, s.fetch b (s.core b).pc = (t, .inr w) ∧ Ed.decode w = some e

end Sys2Proof.Machine
end

