-- ==== Sys2Proof/Certificates/Slice0/Obligations.lean ====
section
/-! DEFINITION. The statements for the provers. Each says in its docstring what it formalises. -/
open Sys2Proof Sys2Proof.Machine

/-- R111, R110, R293, R109, R105, R106: NOP, SYNC_WAIT, SYNC_SIGNAL, SETREG, COMMIT and HALT of a bench queue, with whole next states.
Each of these forms completes with its own effect under the conditions stated: benchNop, benchSyncWait, benchSyncSignal, setreg, benchCommit,
benchHalt. -/
def Obligations.BenchQueueCommands : Prop :=
  ∀ (s : State) (b : Fin 24) (c : Cmd), (s.bench b).dispatches = true →
    let pop : State := s.modBench b (fun x => { x with q := x.q.pop })
    let k := c.f 1 7 0
    ((s.bench b).q.ready 0x00 c = true → exec (.benchNop b) s = .next pop)
    ∧ ((s.bench b).q.ready 0x20 c = true → c.w 2 ≤ s.syncVal k → exec (.benchSyncWait b) s = .next pop)
    ∧ ((s.bench b).q.ready 0x20 c = true → s.syncVal k < c.w 2 → exec (.benchSyncWait b) s = .next s)
    ∧ ((s.bench b).q.ready 0x21 c = true → (c.b 1 8 = false ∨ (s.bench b).tileLive (s.bench b).q.nextJob = false) →
        exec (.benchSyncSignal b) s = .next (pop.addSync k 1))
    ∧ ((s.bench b).q.ready 0x21 c = true → c.b 1 8 = true → (s.bench b).tileLive (s.bench b).q.nextJob = true →
        exec (.benchSyncSignal b) s = .next (s.modBench b (fun x => { x with q := x.q.pop.defer k })))
    ∧ ((s.bench b).q.ready 0x30 c = true → c.f 1 15 0 ∈ [0x110, 0x118, 0x120, 0x128] →
        exec (.setreg b) s = .next (pop.setRn (BN.base b + c.f 1 15 0) (c.w 2)))
    ∧ ((s.bench b).q.ready 0x30 c = true → c.f 1 15 0 ∈ [0x100, 0x108] →
        exec (.setreg b) s = .next (pop.setRn (BN.base b + c.f 1 15 0) (c.w 2 % 2 ^ 32)))
    ∧ ((s.bench b).q.ready 0x30 c = true → c.f 1 15 0 = 0x410 → exec (.setreg b) s =
        .next (pop.setRn (BN.base b + 0x410) (putBits (c.w 2 % 2 ^ 32) 11 8 (s.rfld (BN.base b + 0x410) 11 8))))
    ∧ ((s.bench b).q.ready 0x30 c = true → c.f 1 15 0 ∉ [0x100, 0x108, 0x110, 0x118, 0x120, 0x128, 0x410] →
        exec (.setreg b) s = .next ((s.ev 0x121 b (leBytes 3 c.tag ++ leBytes 1 0)).benchHalt b 4))
    ∧ ((s.bench b).q.ready 0x31 c = true → exec (.benchCommit b) s = .next (s.modBench b (fun x => { x with commitCmd := true })))
    ∧ ((s.bench b).q.ready 0x3F c = true → exec (.benchHalt b) s = .next (pop.benchHalt b 6))

/-- R110: a command that fails parity is not executed and the queue halts with cause 5. -/
def Obligations.BenchParityHalts : Prop :=
  ∀ (s : State) (b : Fin 24) (c : Cmd), (s.bench b).dispatches = true → (s.bench b).q.head? = some c → c.parOk = false →
    ∀ i ∈ [Instr.benchNop b, .tile b, .benchSyncWait b, .benchSyncSignal b, .setreg b, .benchCommit b, .benchHalt b],
      exec i s = .next ((s.ev 0x111 b []).benchHalt b 5)
        ∧ (∃ t, exec i s = .next t ∧ (t.bench b).q.cmds = (s.bench b).q.cmds ∧ (t.bench b).q.cause = 5 ∧ t.mem = s.mem ∧ t.sync = s.sync)

/-- R111, R151, R177, R213, R256, R293, R334: DEFERRED_SIGNAL_ADD for the queue of every engine.
Each of these forms completes with its own effect under the conditions stated: deferredSignalAdd. -/
def Obligations.DeferredSignalAdds : Prop :=
  ∀ (s : State) (b : Fin 24) (d : Fin 48) (k : Fin 8) (u : Fin 4),
    let took (q : EQ) : EQ := { q with sigs := q.sigs.drop 1 }
    let due (q : EQ) (ended : Nat → Prop) (g : DefSig) : Prop := q.sigs.head? = some g ∧ ended g.before ∧ ∀ j ∈ q.kept, g.before ≤ j
    let off (q : EQ) (ended : Nat → Prop) : Prop := q.sigs = [] ∨ ∃ g, q.sigs.head? = some g ∧ (¬ ended g.before ∨ ∃ j ∈ q.kept, j < g.before)
    let tiles (n : Nat) : Prop := (∀ t ∈ (s.bench b).tiles, t.dead = true ∨ n ≤ t.job) ∧ ∀ t ∈ (s.bench b).drained, n ≤ t.job
    let mason (n : Nat) : Prop := ∀ r ∈ (s.bench b).muRun, n ≤ r.id
    let crush (n : Nat) : Prop := ∀ r ∈ (s.bench b).crRun, n ≤ r.id
    let derrick (n : Nat) : Prop := ∀ r ∈ (s.dk d).runs, n ≤ r.id
    let updates (n : Nat) : Prop := ∀ r ∈ (s.ue k).run, n ≤ r.id
    let colls (n : Nat) : Prop := ∀ r ∈ (s.coll u).runs, n ≤ r.job
    (∀ g, due (s.bench b).q tiles g → exec (.deferredSignalAdd (.bench b)) s = .next ((s.modBench b (fun x => { x with q := took x.q })).addSync g.counter 1))
    ∧ (∀ g, due (s.bench b).mu mason g → exec (.deferredSignalAdd (.mason b)) s = .next ((s.modBench b (fun x => { x with mu := took x.mu })).addSync g.counter 1))
    ∧ (∀ g, due (s.bench b).cr crush g → exec (.deferredSignalAdd (.crusher b)) s = .next ((s.modBench b (fun x => { x with cr := took x.cr })).addSync g.counter 1))
    ∧ (∀ g, due (s.dk d).q derrick g → exec (.deferredSignalAdd (.derrick d)) s = .next ((s.modDk d (fun x => { x with q := took x.q })).addSync g.counter 1))
    ∧ (∀ g, due (s.ue k).q updates g → exec (.deferredSignalAdd (.update k)) s = .next ((s.modUe k (fun x => { x with q := took x.q })).addSync g.counter 1))
    ∧ (∀ g, due (s.coll u).q colls g → exec (.deferredSignalAdd (.coll u)) s = .next ((s.modColl u (fun x => { x with q := took x.q })).addSync g.counter 1))
    ∧ (off (s.bench b).q tiles → exec (.deferredSignalAdd (.bench b)) s = .next s) ∧ (off (s.bench b).mu mason → exec (.deferredSignalAdd (.mason b)) s = .next s)
    ∧ (off (s.bench b).cr crush → exec (.deferredSignalAdd (.crusher b)) s = .next s) ∧ (off (s.dk d).q derrick → exec (.deferredSignalAdd (.derrick d)) s = .next s)
    ∧ (off (s.ue k).q updates → exec (.deferredSignalAdd (.update k)) s = .next s) ∧ (off (s.coll u).q colls → exec (.deferredSignalAdd (.coll u)) s = .next s)
    ∧ (s.canonical = true → ∀ n m : Nat, (s.addSync n 1).syncVal m = if m = n then (s.syncVal n + 1) % 2 ^ 64 else s.syncVal m)

/-- R80, R104, R106, R114: the bench registers whose access acts, with whole next states.
Each of these forms completes with its own effect under the conditions stated: bnCommitGo, bnResume, bnSkip, bnHaltReq, bnCntClr,
bnFlagsClear, bnFlagsRcRead. -/
def Obligations.BenchControlRegisters : Prop :=
  ∀ (s : State) (b : Fin 24) (mask : Nat), (s.bench b).out = false →
    ((s.bench b).q.cause ≠ 0 → exec (.bnResume b) s = .next ((s.modBench b (fun x => { x with q := { x.q with cause := 0 } })).setFld (R.BN_FAULT b) 31 31 0))
    ∧ ((s.bench b).q.cause ≠ 0 → (s.bench b).q.cmds ≠ [] → exec (.bnSkip b) s = .next (s.modBench b (fun x => { x with q := x.q.pop })))
    ∧ ((s.bench b).q.cause = 0 → exec (.bnResume b) s = .next s ∧ exec (.bnSkip b) s = .next s)
    ∧ ((s.bench b).q.cause = 0 → (s.bench b).dispatches = true → exec (.bnHaltReq b) s = .next (s.benchHalt b 6))
    ∧ ((s.bench b).q.cause = 0 → (s.bench b).dispatches = false → exec (.bnHaltReq b) s = .next (s.modBench b (fun x => { x with q := { x.q with haltDue := if x.q.haltDue = 0 then 6 else x.q.haltDue } })))
    ∧ exec (.bnCntClr b) s = .next (((List.range 10).foldl (fun t i => t.setRn (R.BN_STALL b i) 0) s).setRn (R.BN_TILES_DONE b) 0)
    ∧ exec (.bnCommitGo b) s = .next (s.modBench b (fun x => { x with commitReg := true }))
    ∧ exec (.bnFlagsClear b mask) s = .next (s.setRn (R.BN_FLAGS b) (s.rn (R.BN_FLAGS b) &&& (31 - mask % 32)))
    ∧ exec (.bnFlagsRcRead b) s = .next ((s.emit (.readVal (R.BN_FLAGS_RC b) (s.rn (R.BN_FLAGS b)))).setRn (R.BN_FLAGS b) 0)

/-- R106, R107, R108: COMMIT_COPY with a passing and with a failing stage bank.
Each of these forms completes with its own effect under the conditions stated: commitCopy. -/
def Obligations.CommitCopiesStageBank : Prop :=
  ∀ (s : State) (b : Fin 24), s.canonical = true → (s.bench b).out = false → ((s.bench b).commitReg || (s.bench b).commitCmd) = true →
    (s.bench b).entering? = none → (s.bench b).q.haltDue = 0 →
    (s.validate b = none → ∃ t, exec (.commitCopy b) s = .next t
        ∧ (∀ o ∈ benchRws, t.reg (BN.base b + o + 0x800) = s.reg (BN.base b + o)) ∧ t.reg (R.DR_RERUN b + 0x800) = s.reg (R.DR_RERUN b)
        ∧ (t.bench b).commitReg = false ∧ (t.bench b).commitCmd = false
        ∧ (t.bench b).q.cmds = (if (s.bench b).commitCmd then (s.bench b).q.dropCommit.cmds else (s.bench b).q.cmds)
        ∧ ((s.bench b).q.kept = [] → (s.bench b).q.dropCommit.cmds = (s.bench b).q.cmds.drop 1)
        ∧ t.mem = s.mem ∧ ∀ c, c ≠ b → t.bench c = s.bench c)
    ∧ (∀ chk off, s.validate b = some (chk, off) → (s.bench b).q.cause = 0 →
        exec (.commitCopy b) s = .next ((((s.modBench b (fun y => { y with commitReg := false, commitCmd := false })).ev 0x120 b
          (leBytes 1 chk ++ leBytes 2 off)).setRn (R.BN_COMMIT_STATUS b) (off * 65536 + chk * 16 + 1)).benchHalt b 3))

/-- R96, R97, R106, R112, R113, R147: TILE captures, refuses or waits.
Each of these forms completes with its own effect under the conditions stated: tile. -/
def Obligations.TileCaptured : Prop :=
  ∀ (s : State) (b : Fin 24) (c : Cmd), (s.bench b).dispatches = true → (s.bench b).q.ready 0x10 c = true →
    let s1 : State := if (s.bench b).commitReg = true then commitNow s b else s
    let t := captureTile s1 b (s1.bench b) c
    let x := s.bench b
    (t.cmd = c ∧ t.id = (s1.bench b).nextTile ∧ t.job = (s1.bench b).q.job ∧ t.clsD = (s1.rbit (BN.base b + 0x900) 0 || c.b 1 0) ∧ t.ringBase = s1.rfld (BN.base b + 0x908) 10 0
      ∧ t.ringSlots = s1.rfld (BN.base b + 0x908) 27 16 ∧ t.wb = s1.rfld (BN.base b + 0xC10) 1 0 ∧ t.freeze = s1.rfld (BN.base b + 0x900) 31 16
      ∧ t.rerun = s1.rn (R.DR_RERUN b + 0x800) ∧ t.count = c.f 1 47 32 ∧ t.spill = c.b 1 48 ∧ t.pass = 0 ∧ t.row = 0 ∧ t.built = 0 ∧ t.dead = false ∧ t.drain = .waiting)
    ∧ (x.canCapture c = true ↔ x.tiles.length < 2 ∧ ∀ u, x.fill? = some u → c.f 1 13 12 ≠ 0 ∧ u.npass * u.M ≤ u.beat + 3)
    ∧ (x.canCapture c = false → exec (.tile b) s = .next s)
    ∧ (x.canCapture c = true → (s1.bench b).q.cause ≠ 0 → exec (.tile b) s = .next s1)
    ∧ (x.canCapture c = true → (s1.bench b).q.cause = 0 → tileItem s1 b t = none → exec (.tile b) s = .next (s1.modBench b (fun y =>
        { y with q := y.q.pop, nextTile := y.nextTile + 1, tiles := y.tiles ++ [t] })))
    ∧ (∀ i, x.canCapture c = true → (s1.bench b).q.cause = 0 → tileItem s1 b t = some i →
        exec (.tile b) s = .next ((s1.ev 0x121 b (leBytes 3 c.tag ++ leBytes 1 i)).benchHalt b 4))
    ∧ (tileItem s1 b t = none ↔
        (tileReserved c = false ∧ (1 ≤ t.M ∧ t.M ≤ 2048 ∧ 1 ≤ t.kpass ∧ t.kpass ≤ 32 ∧ 1 ≤ t.npass)
          ∧ (t.actMx ≠ 0 → t.fmtCode = 2 ∧ t.kpass % 2 = 0) ∧ (t.path ≠ 0 → t.fmtCode % 2 = 0 ∧ (t.path = 2 → t.npass % 2 = 0))
          ∧ (t.cont = false → t.count = 0 ∧ t.spill = false)
          ∧ (t.hasPart = true → t.part % 64 = 0 ∧ s1.winAddr b 0x110 true ≤ t.part ∧ t.part + t.M * 512 * t.recSize ≤ s1.winAddr b 0x118 true)
          ∧ ((t.clsD = false ∧ t.autosplit = true ∧ 65536 < 16 * t.count + t.npass * t.kpass * 16) ∨ t.spill = true →
              t.spillAddr ≠ 0 ∧ t.spillAddr % 8 = 0 ∧ s1.winAddr b 0x120 true ≤ t.spillAddr ∧ t.spillAddr + t.M * 512 * 40 ≤ s1.winAddr b 0x128 true)
          ∧ (t.fin = true → t.status % 16 = 0) ∧ (t.ringBase ≤ t.ringStart ∧ t.ringStart < t.ringBase + t.ringSlots) ∧ lapsOk t = true))

/-- R99: the check of item 10 of R113 makes every stale slot of the previous lap detectable. -/
def Obligations.RingLapsAreCaught : Prop :=
  ∀ (t : Tile), lapsOk t = true → 0 < t.span → 0 < t.M →
    ∀ p r p' r' : Nat, r < t.M → r' < t.M → p * t.M + r = p' * t.M + r' + t.ringSlots / t.span → t.expTag p r ≠ t.expTag p' r'

/-- R99: T(p, r) = (SEED + 7p + r) mod 16, and what a shift of rows does to it. -/
def Obligations.SentinelTags : Prop :=
  ∀ (t : Tile) (p r q : Nat), t.expTag p r = (t.cmd.f 0 43 40 + 7 * p + r) % 16 ∧ (t.expTag p r = t.expTag p q ↔ r % 16 = q % 16)

/-- R87, R92, R95, R99, R100, R146, R148: BEAT_ENTRY on both paths.
Each of these forms completes with its own effect under the conditions stated: beatEntry. -/
def Obligations.BeatEntersArray : Prop :=
  ∀ (s : State) (b : Fin 24) (t : Tile), (s.bench b).runs = true → (s.bench b).fill? = some t → t.spillDue = false → (s.bench b).shadowFull = false →
    (t.readsPart t.pass = true → ((s.bench b).partFor t).isSome = true) →
    let x := s.bench b
    let acc := if t.readsPart t.pass then (x.partFor t).getD (freshRow t) else freshRow t
    let pn := t.planeOf t.pass
    let tab := x.tables.find? (fun r => r.tile == t.id && r.beat == t.beat)
    let built : Prop := ∃ r, tab = some r ∧ min (t.beat + 4) (t.npass * t.M) ≤ t.built
    let codes := slotCodes s b (t.slot t.pass t.row 0) t.fmtCode t.actMx (16 * t.kpass)
    let col := if t.path = 0 then denseCol s b pn (x.plane pn).pfmt t.fmt codes.1 else tableCol s b pn (16 * t.kpass) t.beat ((tab.map TabRow.asum).getD 0)
    let planeGood : Prop := t.row = 0 → planeFault s b x t = none
    let tagGood : Prop := ∀ r, tab = some r → r.tag = t.expTag t.pass t.row
    (t.path ≠ 0 → ¬ built → exec (.beatEntry b) s = .next s)
    ∧ ((t.path ≠ 0 → built) →
      (planeGood → tagGood → (t.path = 0 → slotFault x t t.pass t.row = none) →
        ∃ u, exec (.beatEntry b) s = .next u
          ∧ (u.bench b).inArray = x.inArray ++ [⟨t.id, t.pass, t.row, beatRow t acc col⟩]
          ∧ (∀ y ∈ (u.bench b).tiles, y.id = t.id → y.pass = t.advance.pass ∧ y.row = t.advance.row
              ∧ y.conds = ((if t.row = 0 then t.conds ||| (x.plane pn).conds else t.conds) ||| (if t.path = 0 then codes.2.toNat else 0))
              ∧ y.count = (if t.row = 0 then t.addCount else t.count))
          ∧ (∀ y ∈ x.tiles, y.id ≠ t.id → y ∈ (u.bench b).tiles)
          ∧ (u.bench b).parts = x.parts.filter (fun r => !(r.tile == t.id && r.pass == t.pass && r.row == t.row))
          ∧ (u.bench b).tables = x.tables.filter (fun r => !(r.tile == t.id && r.beat == t.beat))
          ∧ (t.row = 0 → ((u.bench b).plane pn).conds = 0) ∧ ((u.bench b).plane (pn + 1)) = x.plane (pn + 1)
          ∧ (u.bench b).shadow = x.shadow ∧ (u.bench b).q = x.q ∧ (u.bench b).fault = none
          ∧ u.mem = s.mem ∧ u.sync = s.sync ∧ u.cores = s.cores ∧ u.derricks = s.derricks ∧ ∀ c, c ≠ b → u.bench c = s.bench c)
      ∧ (∀ f, t.row = 0 → planeFault s b x t = some f → exec (.beatEntry b) s = .next (s.modBench b (·.beginFault f)))
      ∧ (∀ r, planeGood → tab = some r → r.tag ≠ t.expTag t.pass t.row → exec (.beatEntry b) s =
          .next (s.modBench b (·.beginFault ⟨0, 2, t.id, t.pass, t.row, t.expTag t.pass t.row, r.tag, 1⟩)))
      ∧ (∀ f, planeGood → tagGood → t.path = 0 → slotFault x t t.pass t.row = some f → exec (.beatEntry b) s = .next (s.modBench b (·.beginFault f))))

/-- R87, R91, R92, R61, R94, R103: PARTIAL_READ_RETURN, ROW_FINAL, AUTOSPLIT_SPILL, PART_TIMEOUT.
Each of these forms completes with its own effect under the conditions stated: partialReadReturn, rowFinal, partTimeout, autosplitSpill. -/
def Obligations.ArrayRowsMove : Prop :=
  ∀ (s : State) (b : Fin 24) (t : Tile), (s.bench b).runs = true →
    ((s.bench b).fill? = some t →
      let i := t.beat + ((s.bench b).parts.filter (fun r => r.tile == t.id)).length
      i / t.M = t.pass → t.pass < t.npass → t.readsPart t.pass = true → t.spillDue = false →
      (t.pass = 0 ∨ (i < t.beat + t.M ∧ ∀ a ∈ (s.bench b).inArray, a.tile = t.id → a.row ≠ i % t.M)) →
      exec (.partialReadReturn b) s = .next (s.modBench b (fun x => { x with parts := x.parts ++ [⟨t.id, t.pass, i % t.M, readRow s t (i % t.M)⟩] })))
    ∧ ((s.bench b).partWait = true → (s.bench b).entryHold = false → exec (.rowFinal b) s = .next s)
    ∧ ((s.bench b).fill? = some t → (s.bench b).partWait = true → t.hold = true → (s.bench b).entryHold = true)
    ∧ (∀ r rest, (s.bench b).fill? = some t → (s.bench b).partWait = true → r.tile = t.id → r.row = t.row →
        ∀ y ∈ ((s.bench b).rowGone r rest).tiles, y.id = t.id → y.hold = true)
    ∧ (∀ r rest, ((s.bench b).partWait = true → (s.bench b).entryHold = true) → (s.bench b).inArray = r :: rest → (s.bench b).tile? r.tile = some t →
        let left := s.modBench b (fun x => x.rowGone r rest)
        (t.writesPart r.pass = true → (t.fin = true ∨ r.pass + 1 ≠ t.npass ∨ r.row + 1 ≠ t.M) →
          exec (.rowFinal b) s = .next (left.wr (t.partAt r.row 0) r.accs.toBytes))
        ∧ (t.writesPart r.pass = true → t.fin = false → r.pass + 1 = t.npass → r.row + 1 = t.M →
          exec (.rowFinal b) s = .next (((left.wr (t.partAt r.row 0) r.accs.toBytes).modBench b (·.dropTile t.id)).addReg (R.BN_TILES_DONE b) 1))
        ∧ (t.writesPart r.pass = false → (s.bench b).shadow.length < 64 →
          exec (.rowFinal b) s = .next (s.modBench b (fun x => { x.rowGone r rest with finWait := false, shadow := x.shadow ++ [⟨t.id, r.row, r.accs⟩] })))
        ∧ (t.writesPart r.pass = false → 64 ≤ (s.bench b).shadow.length →
          exec (.rowFinal b) s = .next (s.modBench b (fun x => { x with finWait := true }))))
    ∧ ((s.bench b).fill? = some t → t.spillDue = true → (∀ a ∈ (s.bench b).inArray, a.tile ≠ t.id) →
        exec (.autosplitSpill b) s = .next (((List.range t.M).foldl (fun u m => spillRow u t m) s).modBench b
          (fun y => y.setTile { t with count := 0, spill := true })))
    ∧ ((s.bench b).fill? = some t → ((s.bench b).partWait || (s.bench b).shadowFull) = true →
        exec (.partTimeout b) s = .next (if t.freeze = 0 then s else s.modBench b (·.beginFault ⟨3, 3, t.id, t.pass, t.row, 0, 0, 2⟩)))
    ∧ (∀ r rest, (s.bench b).fill? = none → (s.bench b).shadowFull = true → (s.bench b).inArray = r :: rest → (s.bench b).tile? r.tile = some t →
        exec (.partTimeout b) s = .next (if t.freeze = 0 then s else s.modBench b (·.beginFault ⟨3, 3, t.id, r.pass, r.row, 0, 0, 2⟩)))
    ∧ ((s.bench b).partWait = false → (s.bench b).shadowFull = false → exec (.partTimeout b) s = .next s)
    ∧ ((s.bench b).inArray = [] → exec (.rowFinal b) s = .next s)

/-- R58, R65, R100, R101, R103: TILE_FAULT_POISON_DONE.
Each of these forms completes with its own effect under the conditions stated: tileFaultPoisonDone. -/
def Obligations.TileFaultReported : Prop :=
  ∀ (s : State) (b : Fin 24), (((s.bench b).out = true ∨ (s.bench b).fault = none) → exec (.tileFaultPoisonDone b) s = .next s)
    ∧ ∀ (f : TileFault) (t : Tile), (s.bench b).out = false → (s.bench b).fault = some f → (s.bench b).tile? f.tile = some t →
      let x := s.bench b
      let n := t.M * 512
      let word : Bytes := if t.clsD = true then Wp.poisoned.toBytes else leBytes 8 0x8000000000000002
      let s1 : State := if t.hasPart = true then s.wrAdd t.part (List.replicate n word).flatten else s
      let s2 : State := if t.spill = true then s1.wrAdd t.spillAddr (List.replicate n Wp.poisoned.toBytes).flatten else s1
      let y : Bench := { (x.giveBack t.id).clearPend with fault := none }
      let s3 := ((s2.setBench b y).setRn (R.BN_FAULT b) (2 ^ 31 + f.kind * 2 ^ 26 + f.stream * 2 ^ 24 + t.tag)).setRn (R.BN_FAULT_POS b)
        (f.pass * 2 ^ 48 + f.row * 2 ^ 32 + f.expected * 16 + f.received)
      exec (.tileFaultPoisonDone b) s = .next ((s3.ev (if f.kind = 3 then 0x113 else 0x110) b (leBytes 3 t.tag ++ leBytes 1 f.kind ++ leBytes 1 f.stream
          ++ leBytes 2 f.pass ++ leBytes 2 f.row ++ leBytes 1 f.expected ++ leBytes 1 f.received)).benchHalt b f.cause)
      ∧ y.q.cmds = (x.tiles.filter (fun y => decide (t.id ≤ y.id))).map (·.cmd) ++ x.q.cmds
      ∧ (∀ z ∈ y.tiles, t.id ≤ z.id → z.dead = true ∧ ∃ r ∈ x.shadow, r.tile = z.id) ∧ (∀ z ∈ x.tiles, z.id < t.id → z ∈ y.tiles)
      ∧ (∀ r ∈ y.parts, r.tile < t.id) ∧ (∀ r ∈ y.tables, r.tile < t.id) ∧ y.shadow = x.shadow ∧ y.drained = x.drained
      ∧ (∃ u, exec (.tileFaultPoisonDone b) s = .next u ∧ u.mem = s2.mem ∧ u.poison = s2.poison ∧ (u.bench b).q.cmds = y.q.cmds ∧ (u.bench b).q.cause = f.cause
          ∧ (u.bench b).fault = none ∧ (u.bench b).tiles = y.tiles ∧ u.cores = s.cores ∧ u.derricks = s.derricks ∧ u.sync = s.sync ∧ ∀ c, c ≠ b → u.bench c = s.bench c)

/-- R139 to R142, R146, R148: TABLE_BUILD.
Each of these forms completes with its own effect under the conditions stated: tableBuild. -/
def Obligations.TableBuilt : Prop :=
  ∀ (s : State) (b : Fin 24),
    let x := s.bench b
    let next := x.tiles.find? (fun t => t.filling && decide (t.path ≠ 0) && decide (t.built < t.npass * t.M))
    ((x.out = true ∨ x.frozen = true ∨ next = none) → exec (.tableBuild b) s = .next s)
    ∧ ∀ t : Tile, x.runs = true → x.frozen = false → next = some t →
      let p := t.built / t.M
      let r := t.built % t.M
      let kp := 16 * t.kpass
      let parts := (List.range t.span).map (fun i => slotCodes s b (t.slot p r i) t.fmtCode t.actMx (min 512 (4 * kp - 512 * i)))
      let vals := parts.flatMap (fun q => q.1.map (fun c => logDecode c.1 t.fmt c.2))
      let conds := parts.foldl (fun k q => k.or q.2) Cond.none
      let entry (k i : Nat) : Nat :=
        let four := (vals.drop (4 * k)).take 4
        if four.any Val.isNan = true then 0x40000001 else entRound (sumVals ((List.range 4).map (fun j => if i.testBit j = true then four.getD j (.fin false 0) else .fin false 0)))
      (t.beat + 4 ≤ t.built → exec (.tableBuild b) s = .next s)
      ∧ (∀ f, t.built < t.beat + 4 → slotFault x t p r = some f → exec (.tableBuild b) s = .next (s.modBench b (·.beginFault f)))
      ∧ (t.built < t.beat + 4 → slotFault x t p r = none →
          exec (.tableBuild b) s = .next (((s.modBench b (fun y => { (y.readSlots t p r).setTile { t with built := t.built + 1, conds := t.conds ||| conds.toNat } with
              tables := y.tables ++ [⟨t.id, t.built, t.expTag p r, entRound (sumVals vals)⟩] })).wr (storeBase b + 0x300000 + t.built % 8 * 0x8000)
                ((List.range kp).flatMap (fun k => (List.range 16).flatMap (fun i => leBytes 4 (entry k i))))).charge b t.tag conds.toNat)
          ∧ ∃ u, exec (.tableBuild b) s = .next u ∧ u.cores = s.cores ∧ u.sync = s.sync ∧ u.derricks = s.derricks ∧ (u.bench b).q = x.q ∧ (u.bench b).inArray = x.inArray
            ∧ ∀ c, c ≠ b → u.bench c = s.bench c)

/-- R85, R95, R100, R426: LOCAL_STORE_WRITE.
Each of these forms completes with its own effect under the conditions stated: localStoreWrite. -/
def Obligations.LocalStoreWrites : Prop :=
  ∀ (s : State) (b : Fin 24) (off : Nat) (d : Bytes) (n : Nat),
    let bs := d.take (64 - off % 64)
    ((s.bench b).out = true → exec (.localStoreWrite b off d) s = .next s)
    ∧ ((s.bench b).out = false → planeOfOff off = some n → (s.bench b).planeActive n = false →
        exec (.localStoreWrite b off d) s =
          .next ((s.modBench b (fun x => x.setPlane n { x.plane n with valid := false })).wr (storeBase b + off) bs))
    ∧ (∀ t p r, (s.bench b).runs = true → planeOfOff off = some n → (s.bench b).planeActive n = true → (s.bench b).userOf n = some (t, p, r) →
        exec (.localStoreWrite b off d) s = .next (s.modBench b
          (·.beginFault ⟨2, 1, t.id, p, r, t.expTag p 0, ((s.bench b).plane n).tag, 1⟩)))
    ∧ ((s.bench b).out = false → 0x100000 ≤ off → off < 0x300000 → exec (.localStoreWrite b off d) s = .next (s.wr (storeBase b + off) bs))
    ∧ (0x300000 ≤ off → (off < 0x340000 ∨ 0x344000 ≤ off) → exec (.localStoreWrite b off d) s = .next s)

/-- R81, R82, R116, R117, R120, R123, R125, R131, R133, R134: the dresser's commands.
Each of these forms completes with its own effect under the conditions stated: drainDescriptorArrival, dresserRow, tileStatusWrite,
drTableWrite, drCntClr. -/
def Obligations.DresserCommands : Prop :=
  ∀ (s : State) (b : Fin 24) (t : Tile) (p : Fin 2) (off : Fin 8192) (v : Nat), (s.bench b).out = false →
    let x := s.bench b
    ((x.tiles.find? (fun t => t.fin && decide (t.drain = .waiting)) = none) → exec (.drainDescriptorArrival b) s = .next s)
    ∧ (x.tiles.find? (fun t => t.fin && decide (t.drain = .waiting)) = some t →
      (∀ bs, s.read t.drainAddr 64 = some bs → drainItem t.drainAddr (Cmd.ofBytes bs) = none →
        let d := Cmd.ofBytes bs
        let scales := (List.range 512).map (fun n => if Drain.scale d = true then ((s.read (Drain.scaleAddr d + 2 * n) 2).map fromLe).getD 0xC000 else 0)
        let biases := (List.range 512).map (fun n => if Drain.bias d = true then ((s.read (Drain.biasAddr d + 4 * n) 4).map fromLe).getD 0x7FC00000 else 0)
        exec (.drainDescriptorArrival b) s = .next (s.modBench b (fun y => y.setTile { t with drain := .ready d scales biases })))
      ∧ (∀ i d, ((s.read t.drainAddr 64 = none ∧ i = 1 ∧ d = []) ∨ (∃ bs, s.read t.drainAddr 64 = some bs ∧ d = Cmd.ofBytes bs ∧ drainItem t.drainAddr d = some i)) →
        let bad := (s.ev 0x211 b (leBytes 3 t.tag ++ leBytes 1 i)).modBench b (fun x => x.setTile { t with drain := .bad d })
        (x.q.cause = 0 → x.commitCmd = false → exec (.drainDescriptorArrival b) s = .next ((bad.modBench b (·.clearPend)).benchHalt b 4))
        ∧ (x.q.cause = 0 → x.commitCmd = true → exec (.drainDescriptorArrival b) s = .next (bad.modBench b (fun y => { y with q := y.q.haltSoon 4 })))
        ∧ (x.q.cause ≠ 0 → exec (.drainDescriptorArrival b) s = .next bad)))
    ∧ (∀ r rest d cs bi, x.shadow = r :: rest → x.tile? r.tile = some t → t.drain = .ready d cs bi → t.dead = false →
        let vs := (drainVals s t r (Drain.ncols d)).1
        let s1 := (drainVals s t r (Drain.ncols d)).2.1
        let paddr := Drain.pre d + Drain.pstride d * r.row
        let z (i : Nat) : Val × Cond := if Drain.mode d = 1 ∧ Drain.fn d ≠ 0 then
            (match s1.read (paddr + Drain.auxSize d * i) (Drain.auxSize d) with | some z => readAux d (fromLe z) | none => (.nan, Cond.none)) else (.fin false 0, Cond.none)
        let ds := vs.zipIdx.map (fun q => dress s1 b d q.1 (cs.getD q.2 0) (bi.getD q.2 0) (z q.2))
        let auxs := ds.filterMap (fun x => x.u.map (auxOut d))
        let qr := rowScaleQ (ds.map (·.w)) (Drain.tmax d)
        let out := roundRow d (if Drain.rowScale d = true then (ds.map (·.w)).map (fun w => scaleVal w (lmul false (-qr))) else ds.map (·.w))
        let s2 := if Drain.mode d = 0 ∧ Drain.aux d = true then s1.write paddr (auxs.flatMap (fun e => leBytes (Drain.auxSize d) e.code)) else s1
        let s3 := s2.write (Drain.out d + Drain.ostride d * r.row) (rowOut d out.2)
        let s4 := if Drain.ofmt d = 6 then s3.write (Drain.side d + Drain.sstride d * r.row) (out.1.flatMap (leBytes 1)) else s3
        let s5 := if Drain.rowScale d = true then s4.write (Drain.side d + 2 * r.row) (leBytes 2 (toBits 15 qr)) else s4
        let screen := out.2.foldl (fun sc e => addBin sc (binOf (Drain.ebase d) e)) t.screen
        ∃ u y, exec (.dresserRow b) s = .next u ∧ u.mem = s5.mem ∧ u.poison = s5.poison ∧ (u.bench b).shadow = (s5.bench b).shadow.drop 1
          ∧ y.cmd = t.cmd ∧ y.rowsOut = t.rowsOut + 1 ∧ y.screen = screen ∧ y.dead = false
          ∧ (∀ k, out.2.any (fun e => e.conds.toNat.testBit k) = true → y.conds.testBit k = true)
          ∧ (t.rowsOut + 1 < t.M → ∀ w ∈ (u.bench b).tiles, w.id = t.id → w = y)
          ∧ (t.M ≤ t.rowsOut + 1 → (u.bench b).drained = (s5.bench b).drained ++ [y] ∧ ∀ w ∈ (u.bench b).tiles, w.id ≠ t.id)
          ∧ u.cores = s.cores ∧ u.derricks = s.derricks ∧ u.sync = s.sync)
    ∧ (∀ r rest d, x.shadow = r :: rest → x.tile? r.tile = some t → t.drain = .bad d →
        exec (.dresserRow b) s = .next (s.modBench b (·.rowLeft { t with rowsOut := t.rowsOut + 1 })))
    ∧ (∀ r rest, x.shadow = r :: rest → x.tile? r.tile = some t → t.drain = .waiting → exec (.dresserRow b) s = .next s)
    ∧ (x.shadow = [] → exec (.dresserRow b) s = .next s)
    ∧ (∀ rest, x.drained = t :: rest →
        exec (.tileStatusWrite b) s = .next (((s.write t.status (statusHead t ++ (if t.wb.testBit 1 then t.screen.flatMap (leBytes 4) else []))).modBench b
          (fun y => { y with drained := y.drained.drop 1 })).addReg (R.BN_TILES_DONE b) 1))
    ∧ (x.drained = [] → exec (.tileStatusWrite b) s = .next s)
    ∧ (tbusy s b p = true → exec (.drTableWrite b p off v) s = .next (s.ev 0x212 b (leBytes 2 (0x1000 + 0x2000 * p.val + off.val))))
    ∧ (tbusy s b p = false → exec (.drTableWrite b p off v) s = .next (s.setFld (R.DR_TABLE b ((p.val * 4096 + off.val / 2) / 4))
        (16 * ((p.val * 4096 + off.val / 2) % 4) + 15) (16 * ((p.val * 4096 + off.val / 2) % 4)) v))
    ∧ exec (.drCntClr b) s = .next (((s.setRn (R.DR_MARKED b) 0).setRn (R.DR_SATURATED b) 0).setRn (R.DR_ROWS b) 0)

/-- R151 to R157: the mason queue's commands, completion, and the registers that act.
Each of these forms completes with its own effect under the conditions stated: muNop, muSyncWait, muSyncSignal, mm, red, masonCommandDone,
muResume, muSkip, muCntClr, muPassesWrite. -/
def Obligations.MasonUnit : Prop :=
  ∀ (s : State) (b : Fin 24) (c : Cmd) (v : Nat), (s.bench b).out = false →
    let q := (s.bench b).mu
    let pop : State := s.modBench b (fun x => { x with mu := x.mu.pop })
    let k := c.f 1 7 0
    let refuse (i : Nat) : State := (s.ev 0x301 b (leBytes 3 c.tag ++ leBytes 1 i)).masonHalt b 1 i c.tag
    let start (p : Nat) : State := s.modBench b (fun x => { x with mu := x.mu.pop, muRun := some ⟨c, x.mu.job, p⟩ })
    (q.ready 0x00 c = true → exec (.muNop b) s = .next pop)
    ∧ (q.ready 0x20 c = true → exec (.muSyncWait b) s = .next (if c.w 2 ≤ s.syncVal k then pop else s))
    ∧ (q.ready 0x21 c = true → (c.b 1 8 = false ∨ ∀ r ∈ (s.bench b).muRun, q.nextJob ≤ r.id) → exec (.muSyncSignal b) s = .next (pop.addSync k 1))
    ∧ (∀ r, q.ready 0x21 c = true → c.b 1 8 = true → (s.bench b).muRun = some r → r.id < q.nextJob →
        exec (.muSyncSignal b) s = .next (s.modBench b (fun x => { x with mu := x.mu.pop.defer k })))
    ∧ (q.ready 0x40 c = true → (s.bench b).muRun = none → mmItem c = none → c.b 2 39 = false →
        exec (.mm b) s = .next (start (if c.f 2 41 40 = 0 then s.rfld (R.MU_PASSES b) 1 0 else c.f 2 41 40)))
    ∧ (q.ready 0x40 c = true → (s.bench b).muRun = none → mmItem c = none → c.b 2 39 = true → exec (.mm b) s = .next (start 1))
    ∧ (∀ i, q.ready 0x40 c = true → (s.bench b).muRun = none → mmItem c = some i → exec (.mm b) s = .next (refuse i))
    ∧ (q.ready 0x41 c = true → (s.bench b).muRun = none → redItem c = none → exec (.red b) s = .next (start 1))
    ∧ (∀ i, q.ready 0x41 c = true → (s.bench b).muRun = none → redItem c = some i → exec (.red b) s = .next (refuse i))
    ∧ ((s.bench b).muRun.isSome = true → (q.ready 0x40 c = true → exec (.mm b) s = .next s) ∧ (q.ready 0x41 c = true → exec (.red b) s = .next s))
    ∧ ((s.bench b).muRun = none → exec (.masonCommandDone b) s = .next s)
    ∧ (∀ r, (s.bench b).muRun = some r →
        let d := r.cmd
        let free : State := s.modBench b (fun x => { x with muRun := none })
        let arg := mmOperand (d.b 2 39) (d.b 2 38)
        let M := d.f 1 15 0
        let N := d.f 1 31 16
        let K := d.f 1 47 32
        let a (i j : Nat) : Val × Cond := arg (readEl s (d.f 2 47 46) (d.addr 3 + i * d.stride 3 + j * fpSize (d.f 2 47 46)))
        let b' (i j : Nat) : Val × Cond := arg (readEl s (d.f 2 45 44) (d.addr 4 + i * d.stride 4 + j * fpSize (d.f 2 45 44)))
        let c0 (i j : Nat) : Val × Cond := if d.b 2 37 = true then readEl s (d.f 2 43 42) (d.addr 5 + i * d.stride 5 + j * fpSize (d.f 2 43 42)) else (.fin false 0, Cond.none)
        let el (i j : Nat) : Nat :=
          (mmOut (d.f 2 43 42) (mmElem (d.b 2 39) r.passes (c0 i j) ((List.range K).map (fun k => (a i k).1)) ((List.range K).map (fun k => (b' k j).1)))).1
        let row (i : Nat) : Bytes := (List.range N).flatMap (fun j => leBytes (fpSize (d.f 2 43 42)) (el i j))
        let red (i : Nat) : Nat := (redRow (d.f 2 45 44) ((List.range N).map (a i))).1
        (d.op = 0x40 → exec (.masonCommandDone b) s = .next ((((List.range M).foldl (fun t i => t.wr (d.addr 5 + i * d.stride 5) (row i)) free).addReg (R.MU_BUSY b)
            (M / 32 * (N / 32) * K * r.passes)).charge b d.tag (mmRows s d r.passes).2.toNat))
        ∧ (d.op ≠ 0x40 → exec (.masonCommandDone b) s = .next (((free.wr (d.addr 5) ((List.range M).flatMap (fun i => leBytes 4 (red i)))).addReg (R.MU_BUSY b)
            (cdiv M 32 * N)).charge b d.tag (redRows s d).2.toNat))
        ∧ ∃ t, exec (.masonCommandDone b) s = .next t ∧ (t.bench b).muRun = none ∧ (t.bench b).mu = q ∧ t.cores = s.cores ∧ t.sync = s.sync ∧ ∀ d, d ≠ b → t.bench d = s.bench d)
    ∧ (q.cause ≠ 0 → exec (.muResume b) s = .next ((s.modBench b (fun x => { x with mu := { x.mu with cause := 0 } })).setFld (R.MU_FAULT b) 31 31 0))
    ∧ (q.cause ≠ 0 → q.cmds ≠ [] → exec (.muSkip b) s = .next pop)
    ∧ (q.cause = 0 → exec (.muResume b) s = .next s ∧ exec (.muSkip b) s = .next s)
    ∧ exec (.muCntClr b) s = .next (s.setRn (R.MU_BUSY b) 0)
    ∧ exec (.muPassesWrite b v) s = .next (if v % 4 = 0 then s else s.setRn (R.MU_PASSES b) (v % 4))

/-- R174 to R182: the crusher queue's commands, ROT_BLOCK, and the registers that act.
Each of these forms completes with its own effect under the conditions stated: crNop, crSyncWait, crSyncSignal, rot, rotBlock, crResume,
crSkip, crCntClr. -/
def Obligations.CrusherUnit : Prop :=
  ∀ (s : State) (b : Fin 24) (c : Cmd), (s.bench b).out = false → (s.bench b).crWait = false →
    let q := (s.bench b).cr
    let pop : State := s.modBench b (fun x => { x with cr := x.cr.pop })
    let k := c.f 1 7 0
    (q.ready 0x00 c = true → exec (.crNop b) s = .next pop)
    ∧ (q.ready 0x20 c = true → exec (.crSyncWait b) s = .next (if c.w 2 ≤ s.syncVal k then pop else s))
    ∧ (q.ready 0x21 c = true → (c.b 1 8 = false ∨ ∀ r ∈ (s.bench b).crRun, q.nextJob ≤ r.id) → exec (.crSyncSignal b) s = .next (pop.addSync k 1))
    ∧ (∀ r, q.ready 0x21 c = true → c.b 1 8 = true → (s.bench b).crRun = some r → r.id < q.nextJob →
        exec (.crSyncSignal b) s = .next (s.modBench b (fun x => { x with cr := x.cr.pop.defer k })))
    ∧ (q.ready 0x50 c = true → (s.bench b).crRun = none → rotItem c = none →
        let w : State := s.modBench b (fun x => { x with crWait := true })
        exec (.rot b) s = .next { w with spall := { w.spall with queue := placeClaim ⟨.crusher b, c.w 5, c.w 6, s.rfld R.LK_DEV 15 0, s.time⟩ s.spall.queue } })
    ∧ (∀ i, q.ready 0x50 c = true → (s.bench b).crRun = none → rotItem c = some i →
        exec (.rot b) s = .next ((s.ev 0x320 b (leBytes 3 c.tag ++ leBytes 1 i)).crusherHalt b 1 i c.tag))
    ∧ (q.ready 0x50 c = true → (s.bench b).crRun.isSome = true → exec (.rot b) s = .next s)
    ∧ ((s.bench b).crRun = none → exec (.rotBlock b) s = .next s)
    ∧ (∀ r, (s.bench b).crRun = some r →
        let d := r.cmd
        let n := Rot.n d
        let at_ := r.block * n
        let rv := randVals r.key (bits (d.w 6) 63 16 + at_ / 16) (n / 16)
        let o := rotBlockOut d ((List.range n).map (fun i => rotIn s (Rot.ifmt d) (d.addr 2 + d.stride 2 * r.row + (at_ + i) * Rot.size (Rot.ifmt d))))
          ((List.range n).map (fun i => (rv.getD (i / 16) 0).testBit (i % 16)))
        let s1 := s.wr (d.addr 3 + d.stride 3 * r.row + Rot.outBytes d at_) (rotBytes d o.2.1)
        let s2 := if Rot.ofmt d = 6 then s1.wr (d.addr 4 + d.f 4 63 48 * r.row + at_ / 32) (o.1.flatMap (leBytes 1)) else s1
        let next := if r.block + 1 < Rot.nblk d then some { r with block := r.block + 1 }
            else if r.row + 1 < Rot.rows d then some { r with block := 0, row := r.row + 1 } else none
        exec (.rotBlock b) s = .next (((s2.modBench b (fun y => { y with crRun := next })).addReg (R.CR_BLOCKS b) 1).charge b d.tag o.2.2.toNat)
        ∧ ∃ t, exec (.rotBlock b) s = .next t ∧ t.mem = s2.mem ∧ (t.bench b).crRun = next
          ∧ (t.bench b).cr = q ∧ t.cores = s.cores ∧ t.sync = s.sync ∧ t.spall = s.spall ∧ ∀ d, d ≠ b → t.bench d = s.bench d)
    ∧ (q.cause ≠ 0 → exec (.crResume b) s = .next ((s.modBench b (fun x => { x with cr := { x.cr with cause := 0 } })).setFld (R.CR_FAULT b) 31 31 0))
    ∧ (q.cause ≠ 0 → q.cmds ≠ [] → exec (.crSkip b) s = .next pop)
    ∧ (q.cause = 0 → exec (.crResume b) s = .next s ∧ exec (.crSkip b) s = .next s)
    ∧ exec (.crCntClr b) s = .next (s.setRn (R.CR_BLOCKS b) 0)

/-- R165, R168, R181, R423: SP_KEY_LOAD, SP_RETIRE and the two reads.
Each of these forms completes with its own effect under the conditions stated: spKeyLoad, spRetire, spClaimsRead, spRefusedRead. -/
def Obligations.SpallKeyAndCounts : Prop :=
  ∀ (s : State) (step : Nat),
    (s.spall.entries = [] → exec .spKeyLoad s =
      .next { s with spall := { s.spall with jk := s.rn (R.SP_JOBKEY 0) + s.rn (R.SP_JOBKEY 1) * 2 ^ 64, valid := true } })
    ∧ (s.spall.entries ≠ [] → exec .spKeyLoad s = .next (s.ev 0x313 0xFF []))
    ∧ (∃ t, exec (.spRetire step) s = .next t ∧ t = { s with spall := t.spall } ∧ t.spall = { s.spall with entries := t.spall.entries, spareBad := false }
        ∧ (∀ e, e ∈ t.spall.entries ↔ e ∈ s.spall.entries ∧ e.bad = false ∧ step < e.d / 2 ^ 64) ∧ t.spall.entries.Sublist s.spall.entries)
    ∧ exec .spClaimsRead s = .next { s.emit (.readVal R.SP_CLAIMS (s.spall.high * 65536 + s.spall.entries.length)) with
        spall := { s.spall with high := s.spall.entries.length } }
    ∧ exec .spRefusedRead s = .next ((s.emit (.readVal R.SP_REFUSED (s.rn R.SP_REFUSED))).setRn R.SP_REFUSED 0)

/-- R163, R164, R166, R167, R423: STREAM_CLAIM of every unit's claim.
Each of these forms completes with its own effect under the conditions stated: streamClaim, update, coll. -/
def Obligations.StreamClaimDecides : Prop :=
  ∀ (s : State) (c : Claim) (rest : List Claim), s.spall.queue = c :: rest →
    let s1 : State := { s with spall := { s.spall with queue := rest } }
    let on (t : State) (r : Nat ⊕ Nat) : State := match c.who with
      | .crusher b => rotClaimed t b r
      | .core b => coreClaimed t b c r
      | .update k => updClaimed t k c r
      | .coll u => collClaimed t u r
    let key := aes128 s.spall.jk c.block
    let open' : Prop := s.spall.valid = true ∧ c.allowed = true ∧ s.spall.spareBad = false ∧ ∀ e ∈ s.spall.entries, e.bad = false
    let refused (reason : Nat) (holder : Option Nat) : Prop := ∃ t, exec (.streamClaim none) s = .next (on t (.inr reason)) ∧ t = s1.refuseClaim c reason holder
      ∧ t.spall = s1.spall ∧ t.mem = s.mem ∧ t.benches = s.benches ∧ (s.canonical = true → t.rn R.SP_REFUSED = (s.rn R.SP_REFUSED + 1) % 2 ^ 64)
    (open' → (∀ e ∈ s.spall.entries, e.d ≠ c.block) → s.spall.entries.length < 256 → exec (.streamClaim none) s =
        .next (on { s1 with spall := { s1.spall with entries := s.spall.entries ++ [⟨c.block, c.who.unit, false⟩], high := max s.spall.high (s.spall.entries.length + 1) } } (.inl key)))
    ∧ (open' → (∃ e ∈ s.spall.entries, e.d = c.block) → c.purpose = 3 → exec (.streamClaim none) s = .next (on s1 (.inl key)))
    ∧ (open' → ∀ e, s.spall.entries.find? (fun e => e.d == c.block) = some e → c.purpose ≠ 3 → refused 1 (some e.unit))
    ∧ (open' → (∀ e ∈ s.spall.entries, e.d ≠ c.block) → 256 ≤ s.spall.entries.length → refused 2 none)
    ∧ (¬ open' → refused 3 none)
    ∧ (∀ (t : State) (b : Fin 24) (cmd : Cmd) (cs : List Cmd) (n : Nat), (t.bench b).crWait = true → (t.bench b).cr.cmds = cmd :: cs →
        rotClaimed t b (.inl n) = t.modBench b (fun x => { x with crWait := false, cr := x.cr.pop, crRun := some { cmd := cmd, id := x.cr.job, key := n } })
        ∧ rotClaimed t b (.inr n) = (t.modBench b (fun x => { x with crWait := false })).crusherHalt b 3 0 cmd.tag)
    ∧ (∀ (i : Nat) (e : ClaimEntry), s.spall.entries[i]? = some e → exec (.streamClaim (some i)) s =
        exec (.streamClaim none) (({ s with spall := { s.spall with entries := s.spall.entries.set i { e with bad := true } } } : State).ev 0x314 0xFF (leBytes 1 i)))

/-- R166: distinct derivation blocks are an invariant of the claim table. -/
def Obligations.LiveStreamsStayDistinct : Prop :=
  ∀ (s : State) (bad : Option Nat) (step : Nat), (s.spall.entries.map (·.d)).Nodup → s.spall.entries.length ≤ 256 →
    ∀ i ∈ [Instr.streamClaim bad, .spRetire step, .spKeyLoad, .spClaimsRead, .spRefusedRead],
      ∃ t, exec i s = .next t ∧ (t.spall.entries.map (·.d)).Nodup ∧ t.spall.entries.length ≤ 256

/-- R198, R199, R197, R196: REGISTER, DEREGISTER, PIN_CURRENT, PIN_STEP, PIN_TOKEN, UNPIN.
Each of these forms completes with its own effect under the conditions stated: register, deregister, pinCurrent, pinStep, pinToken, unpin,
vtSlotAcquire, versionExhausted, ueVtSelWrite, ueVtCfgWrite, ueNop, ueSyncWait, ueSyncSignal, update, updateSweep, mark, ueResume, ueSkip,
ueCntClr. -/
def Obligations.VersionTableOperations : Prop :=
  (∀ (s : State) (k : Fin 8) (c : Fin 32) (r lo gen w v : Nat) (i : Fin 4), s.stackUp k = false →
    ∀ j ∈ [Instr.register k c w, .deregister k c r false, .pinCurrent k c r false, .pinStep k c r lo false, .pinToken k c r i gen false, .unpin k c r i gen false, .ueVtCfgWrite k v, .ueVtSelWrite k v,
      .ueNop k, .ueSyncWait k, .ueSyncSignal k, .update k, .updateSweep k, .mark k, .ueResume k, .ueSkip k, .ueCntClr k, .vtSlotAcquire k, .versionExhausted k], exec j s = .next s)
  ∧ ∀ (s : State) (k : Fin 8) (c : Fin 32) (r : Nat) (x : Region) (i : Fin 4) (lo gen w : Nat), s.stackUp k = true →
    let show' (t : State) (code tok : Nat) : State := (t.setRn (R.UE_VT_RES k c) tok).setRn (R.UE_VT_CODE k c) (2 ^ 31 + code)
    let v := x.slot i
    let pinned : State := show' (s.setRegion r (x.setSlot i { v with pins := v.pins + 1 })) 0
      (v.step % 2 ^ 32 * 2 ^ 32 + v.gen * 2 ^ 24 + i * 2 ^ 14 + r)
    (∀ bs y, w < 2 ^ 48 → w % 64 = 0 → s.read w 64 = some bs → recordOf k (Cmd.ofBytes bs) = some (r, y) → s.region? r = none →
        y.selfOverlap = false → (y.slots.take y.nslots).any (fun v => s.inSlots v.addr (y.len * 65536)) = false →
        exec (.register k c w) s = .next (show' (({ s with regionUid := s.regionUid + 1 } : State).setRegion r { y with uid := s.regionUid }) 0 0))
    ∧ (regionStack r = k → s.region? r = some x →
        ((∀ v ∈ x.slots, v.pins = 0 ∧ v.impl = 0 ∧ v.st ≠ .tentative) → exec (.deregister k c r false) s = .next (show' (s.dropRegion r) 0 0))
        ∧ (x.find .current = some i.val → v.pins < 65535 → exec (.pinCurrent k c r false) s = .next pinned)
        ∧ (x.stepSlot lo = some i.val → v.pins < 65535 → exec (.pinStep k c r lo false) s = .next pinned)
        ∧ (i.val < x.nslots → v.st ≠ .free → v.st ≠ .tentative → v.gen = gen → v.pins < 65535 → exec (.pinToken k c r i gen false) s = .next pinned)
        ∧ ((v.st = .tentative ∨ v.st = .free ∨ v.gen ≠ gen ∨ x.nslots ≤ i.val) → exec (.pinToken k c r i gen false) s = .next (show' (s.ev 0xA11 k (leBytes 1 4)) 4 0))
        ∧ (x.find .current = some i.val → v.pins = 65535 → exec (.pinCurrent k c r false) s = .next (show' (s.ev 0xA11 k (leBytes 1 2)) 2 0))
        ∧ (x.stepSlot lo = none → exec (.pinStep k c r lo false) s = .next (show' (s.ev 0xA11 k (leBytes 1 3)) 3 0))
        ∧ (i.val < x.nslots → v.st ≠ .free → v.gen = gen → 0 < v.pins → exec (.unpin k c r i gen false) s =
            .next (show' (s.setRegion r (x.setSlot i (if v.st = .held ∧ v.pins = 1 ∧ v.impl = 0 then { v with pins := 0, st := .free }
              else { v with pins := v.pins - 1 }))) 0 0))
        ∧ ((s.ue k).run = none → (s.regions.map (·.1)).Nodup →
            ∀ j ∈ [Instr.deregister k c r true, .pinCurrent k c r true, .pinStep k c r lo true, .pinToken k c r i gen true, .unpin k c r i gen true],
              ∃ t, exec j s = .next t ∧ t.region? r = none))
    ∧ (s.region? r = none → ∀ j ∈ [Instr.deregister k c r false, .pinCurrent k c r false, .pinStep k c r lo false, .pinToken k c r i gen false, .unpin k c r i gen false],
        exec j s = .next (show' (s.ev 0xA11 k (leBytes 1 1)) 1 0))

/-- R199: a refusal changes no table. -/
def Obligations.RefusedVersionOpsChangeNoTable : Prop :=
  ∀ (s : State) (k : Fin 8) (c : Fin 32) (r lo w gen : Nat) (i : Fin 4),
    ∀ p ∈ [(Instr.register k c w, vtRegister s k w), (.deregister k c r false, vtDeregister s k r), (.pinCurrent k c r false, vtPinCurrent s k r),
        (.pinStep k c r lo false, vtPinStep s k r lo), (.pinToken k c r i gen false, vtPinToken s k r i gen), (.unpin k c r i gen false, vtUnpin s k r i gen)],
      p.2.2.1 ≠ 0 → ∃ t, exec p.1 s = .next t ∧ t.regions = s.regions ∧ t.mem = s.mem ∧ t.regionUid = s.regionUid ∧ t.ues = s.ues

/-- R202, R207: VT_SLOT_ACQUIRE, VERSION_EXHAUSTED, UE_VT_CFG_WRITE, UE_VT_SEL_WRITE.
Each of these forms completes with its own effect under the conditions stated: vtSlotAcquire, versionExhausted, ueVtSelWrite, ueVtCfgWrite. -/
def Obligations.SlotAcquisition : Prop :=
  ∀ (s : State) (k : Fin 8) (r : UpdRun) (x : Region) (since i cur v : Nat), s.stackUp k = true → (s.ue k).run = some r → r.phase = .slotWait since →
    s.region? r.region = some x → x.uid = r.uid →
    (x.find .tentative = none → x.find .free = some i → x.find .current = some cur →
      exec (.vtSlotAcquire k) s = .next
        (((s.setRegion r.region (x.setSlot i { x.slot i with st := .tentative, gen := ((x.slot i).gen + 1) % 256, step := r.cmd.w 1 })).addReg
          (R.UE_VT_WAIT_US k) ((s.time - since) / 1300)).modUe k
          (fun u => { u with run := some { r with phase := if r.prog0.isEmpty then .sweep1 else .sweep0, cur := (x.slot cur).addr, tent := (x.slot i).addr } })))
    ∧ ((x.find .tentative).isSome = true → exec (.vtSlotAcquire k) s = .next s)
    ∧ (s.rfld (R.UE_VT_CFG k) 15 0 ≠ 0 → s.rfld (R.UE_VT_CFG k) 15 0 ≤ (s.time - since) / 1300 → (x.find .free = none ∨ (x.find .tentative).isSome = true) →
        exec (.versionExhausted k) s = .next ((((((s.ev 0xA10 k (exhaustedItems r.region (r.cmd.w 1) x)).addReg (R.UE_VT_EXHAUSTED k) 1).addReg
          (R.UE_VT_WAIT_US k) ((s.time - since) / 1300)).modUe k (fun u => { u with run := none })).setRn (R.UE_FAULT k) (2 ^ 31 + 4 * 2 ^ 24 + r.cmd.tag)).modUe k
          (fun u => { u with fails := u.fails ++ [some (r.cmd.w 1)] })))
    ∧ ((s.rfld (R.UE_VT_CFG k) 15 0 = 0 ∨ (s.time - since) / 1300 < s.rfld (R.UE_VT_CFG k) 15 0 ∨ (x.acquire (r.cmd.w 1)).isSome = true) → exec (.versionExhausted k) s = .next s)
    ∧ ((v % 2 ^ 16 = 0 ∨ (s.time - since) / 1300 < v % 2 ^ 16) → exec (.ueVtCfgWrite k v) s = .next (s.setRn (R.UE_VT_CFG k) (v % 2 ^ 16)))
    ∧ exec (.ueVtSelWrite k v) s = .next ((vtView (s.region? (k * 2048 + v % 2048))).zipIdx.foldl (fun t p => t.setRn (R.UE_VT_VIEW k p.2) p.1)
        (s.setRn (R.UE_VT_SEL k) (v % 2048)))

/-- R213, R216, R217, R223, R224, R234: the update engines.
Each of these forms completes with its own effect under the conditions stated: ueNop, ueSyncWait, ueSyncSignal, update, updateSweep, mark,
ueResume, ueSkip, ueCntClr. -/
def Obligations.UpdateEngineQueue : Prop :=
  ∀ (s : State) (k : Fin 8) (c : Cmd), s.stackUp k = true →
    let q := (s.ue k).q
    let pop : State := s.modUe k (fun u => { u with q := u.q.pop })
    (q.ready 0x00 c = true → exec (.ueNop k) s = .next pop)
    ∧ (q.ready 0x20 c = true → exec (.ueSyncWait k) s = .next (if c.w 2 ≤ s.syncVal (c.f 1 7 0) then pop else s))
    ∧ (q.ready 0x21 c = true → (c.b 1 8 = false ∨ (s.ue k).run = none) → exec (.ueSyncSignal k) s = .next (pop.addSync (c.f 1 7 0) 1))
    ∧ (∀ r, q.ready 0x21 c = true → c.b 1 8 = true → (s.ue k).run = some r → r.id < q.nextJob →
        exec (.ueSyncSignal k) s = .next (s.modUe k (fun u => { u with q := u.q.pop.defer (c.f 1 7 0) })))
    ∧ (∀ i, q.ready 0x60 c = true → (s.ue k).run = none → updCheck s k c = .inl i → exec (.update k) s = .next
        ((((s.ev 0xA20 k (leBytes 3 c.tag ++ leBytes 1 i)).modUe k (fun u => { u with q := u.q.pop })).setRn (R.UE_FAULT k) (2 ^ 31 + i * 2 ^ 27 + 2 ^ 24 + c.tag)).modUe k
          (fun u => { u with fails := u.fails ++ [some (c.w 1)] })))
    ∧ (∀ p0 p1 ks st rb x, q.ready 0x60 c = true → (s.ue k).run = none → updCheck s k c = .inr (p0, p1, ks, st, rb) → s.region? (c.f 2 13 0) = some x →
        let r : UpdRun := ⟨c, q.job, c.f 2 13 0, x.uid, .claim, p0, p1, ks, ⟨.update k, st, rb, s.claimDev, s.time⟩, none, 0, 0, 0, [],
          List.replicate 4 { A := Upd.anchor c }, [0, 0, 0, 0], []⟩
        let begun (r : UpdRun) : State := s.modUe k (fun u => { u with q := u.q.pop, run := some r })
        let waits (r : UpdRun) : Prop :=
          ((x.find .free = none ∨ (x.find .tentative).isSome = true) → exec (.update k) s = .next (begun { r with phase := .slotWait s.time }))
          ∧ (∀ i j, x.find .tentative = none → x.find .free = some i → x.find .current = some j → exec (.update k) s = .next
            (((begun r).setRegion r.region (x.setSlot i { x.slot i with st := .tentative, gen := ((x.slot i).gen + 1) % 256, step := c.w 1 })).addReg
              (R.UE_VT_WAIT_US k) 0 |>.modUe k
              (fun u => { u with run := some { r with phase := if p0.isEmpty then .sweep1 else .sweep0, cur := (x.slot j).addr, tent := (x.slot i).addr } })))
        (c.b 2 48 = false → waits r)
        ∧ (∀ key, c.b 2 48 = true → (s.ue k).claims.find? (fun a => a.1 == st && a.2.1 == r.strm.block) = some (st, r.strm.block, key) → waits { r with key := some key })
        ∧ (c.b 2 48 = true → (s.ue k).claims.find? (fun a => a.1 == st && a.2.1 == r.strm.block) = none →
            exec (.update k) s = .next ((begun r).submitClaim (.update k) st rb)))
    ∧ (∀ r, (s.ue k).run = some r → (r.phase = .sweep0 ∨ r.phase = .sweep1) → ∃ go : Nat → State,
        exec (.updateSweep k) s = .next (go (sweepRate r)) ∧ go 0 = s
        ∧ (∀ n, ((go n).ue k).run = none → go (n + 1) = go n)
        ∧ ∀ n p, ((go n).ue k).run = some p →
          let t := go n
          let d := p.cmd
          let x := (if r.phase = .sweep1 then p.prog1 else p.prog0).foldl (execInstr (ldSec t p p.elem) (p.consts ++ p.ks)) { recs := p.recs }
          let g := if r.phase = .sweep0 ∧ progLoads p.prog0 2 = true then p.gRead ++ [gradWord t p p.elem] else p.gRead
          let fs := p.formed ++ [x.out]
          let w := storeUnit t p (p.elem + 1 - fs.length) fs
          let t1 := if r.phase = .sweep1 then (w.1.ueFlags k (x.conds.or w.2)).addReg (R.UE_ELEMS k) fs.length else w.1.ueFlags k (x.conds.or w.2)
          (p.phase ≠ r.phase → go (n + 1) = t)
          ∧ (p.phase = r.phase → x.nan = true → d.b 2 49 = true → go (n + 1) = ((((t.ueFlags k x.conds).ev 0xA21 k (leBytes 2 p.region ++ leBytes 8 (d.w 1)
              ++ leBytes 4 p.elem)).modUe k (fun u => { u with run := none })).setRn (R.UE_FAULT k) (2 ^ 31 + 2 * 2 ^ 24 + d.tag)).modUe k
              (fun u => { u with fails := u.fails ++ [some (d.w 1)] }))
          ∧ (p.phase = r.phase → (x.nan && d.b 2 49) = false →
            (fs.length < Upd.unit d → go (n + 1) = (t.ueFlags k x.conds).modUe k (fun u => { u with run := some { p with elem := p.elem + 1, formed := fs, recs := x.recs, gRead := g } }))
            ∧ (Upd.unit d ≤ fs.length → p.elem + 1 < Upd.elems d →
                go (n + 1) = t1.modUe k (fun u => { u with run := some { p with elem := p.elem + 1, formed := [], recs := x.recs, gRead := g } }))
            ∧ (Upd.unit d ≤ fs.length → Upd.elems d ≤ p.elem + 1 → r.phase = .sweep1 → go (n + 1) = t1.modUe k (fun u => { u with run := none }))
            ∧ (Upd.unit d ≤ fs.length → Upd.elems d ≤ p.elem + 1 → r.phase = .sweep0 →
                let os := x.recs.map (fun a => fpEncode a.val FP32)
                go (n + 1) = (t1.ueFlags k (os.foldl (fun a o => a.or o.2) Cond.none)).modUe k
                  (fun u => { u with run := some { p with phase := .sweep1, elem := 0, formed := [], recs := [], ks := os.map (·.1), gRead := g } }))))
    ∧ (q.ready 0x61 c = true → (s.ue k).run = none → ∃ f : Bool, (f = true ↔ ∃ g ∈ (s.ue k).fails, g = some (c.w 1) ∨ g = none)
        ∧ exec (.mark k) s = .next (((s.modUe k (fun v => { v with q := v.q.pop, fails := [], marks := v.marks ++ [(c.w 1, f)] })).setRn
            (R.UE_MARK k) (c.w 1)).setRn (R.UE_MARK_FAIL k) (b2n f)))
    ∧ exec (.ueResume k) s = .next (s.modUe k (fun u => { u with q := { u.q with cause := 0 } }))
    ∧ (q.cause ≠ 0 → q.cmds ≠ [] → exec (.ueSkip k) s = .next pop)
    ∧ (q.cause = 0 → exec (.ueSkip k) s = .next s)
    ∧ exec (.ueCntClr k) s = .next ((s.setRn (R.UE_ELEMS k) 0).setRn (R.UE_ADDS k) 0)

/-- R208 to R212: ADD_WRITE, ATM_ZERO, ATM_CLEAR_DONE.
Each of these forms completes with its own effect under the conditions stated: addWrite, atmZero, atmClearDone. -/
def Obligations.AddWindows : Prop :=
  ∀ (s : State) (k w : Fin 8) (a : Nat) (d : Bytes), s.canonical = true →
    (a % 4 = 0 → d.length = 4 → s.mapped a = true → s.mapped (a + 1) = true → s.mapped (a + 2) = true → s.mapped (a + 3) = true →
      s.poisonedAt a = false → s.addWindow a = some w.val → stackOf a = k.val →
      ∃ t, exec (.addWrite a d) s = .next t
        ∧ (s.rbit (R.UE_ATM_CFG k w) 30 = true → s.le a 4 ≠ 0x80000000 → fromLe d ≠ 0x80000000 →
            signed 32 (t.le a 4) = clampInt (signed 32 (s.le a 4) + signed 32 (fromLe d)) (-(2 ^ 31 - 1)) (2 ^ 31 - 1))
        ∧ (s.rbit (R.UE_ATM_CFG k w) 30 = true → (s.le a 4 = 0x80000000 ∨ fromLe d = 0x80000000) → t.le a 4 = 0x80000000)
        ∧ (s.rbit (R.UE_ATM_CFG k w) 30 = false → t.le a 4 = (fpAdd (s.le a 4) (fromLe d)).1 % 2 ^ 32)
        ∧ (∀ b, b < a ∨ a + 4 ≤ b → t.byte b = s.byte b) ∧ t.cores = s.cores)
    ∧ (s.addWindow a = some w.val → stackOf a = k.val → (a + d.length) / 4 ≤ (a + 3) / 4 → 0 < d.length → a % 64 + d.length ≤ 64 → (a + 3) / 4 * 4 ≠ a →
        exec (.addWrite a d) s = .next ((s.addReg (R.UE_ADDS k) 1).ev 0xA23 k (leBytes 8 a)))
    ∧ (s.addWindow a = none → exec (.addWrite a d) s = .next s)
    ∧ (s.stackUp k = true → ∃ t, exec (.atmZero k w) s = .next t
        ∧ (∀ b, (s.rfld (R.UE_ATM_BASE k w) 47 6 * 64 ≤ b ∧ b < s.rfld (R.UE_ATM_LIMIT k w) 47 6 * 64 → t.byte b = 0)
          ∧ (¬ (s.rfld (R.UE_ATM_BASE k w) 47 6 * 64 ≤ b ∧ b < s.rfld (R.UE_ATM_LIMIT k w) 47 6 * 64) → t.byte b = s.byte b))
        ∧ t.regs = (s.setFld (R.UE_ATM_CFG k w) 28 28 1).regs ∧ t.cores = s.cores ∧ t.ues = s.ues)
    ∧ exec (.atmClearDone k w) s = .next (s.setFld (R.UE_ATM_CFG k w) 28 28 0)

/-- R224, R226: PREPARE_REQUEST.
Each of these forms completes with its own effect under the conditions stated: prepareRequest. -/
def Obligations.PrepareRequestAccepted : Prop :=
  ∀ (s : State) (v : Nat) (bytes : Bytes), s.canonical = true → v < 2 ^ 48 → v % 64 = 0 → s.ghRead v 64 = some bytes →
    let c := Cmd.ofBytes bytes
    let S := c.w 0
    let refuse (i : Nat) : State := s.ev 0xA35 0xFF (leBytes 8 S ++ leBytes 1 i)
    (S ≤ s.rn R.GH_CM_DECIDED → exec (.prepareRequest v) s = .next (refuse 1))
    ∧ (s.rn R.GH_CM_DECIDED < S →
        (s.undecided = true → exec (.prepareRequest v) s = .next (refuse 2))
        ∧ (s.undecided = false →
          (s.readIds c = none → exec (.prepareRequest v) s = .next (refuse 3))
          ∧ (∀ ids, s.readIds c = some ids →
            (s.rfld R.GH_CM_GROUP 47 0 = 0 → exec (.prepareRequest v) s = .next (refuse 4))
            ∧ (s.rfld R.GH_CM_GROUP 47 0 ≠ 0 → s.readGroup = none → exec (.prepareRequest v) s = .next (refuse 5))
            ∧ (∀ g, s.rfld R.GH_CM_GROUP 47 0 ≠ 0 → s.readGroup = some g →
              ((s.member = false ∨ s.dev ∉ g.2) → exec (.prepareRequest v) s = .next (refuse 6))
              ∧ (s.member = true → s.dev ∈ g.2 → ∃ t, exec (.prepareRequest v) s = .next t
                  ∧ t.rn R.GH_CM_STEP = S ∧ t.rn R.GH_CM_STATE = 1 ∧ t.rn R.GH_CM_EPOCH = 0
                  ∧ t.cm.group = some g ∧ t.cm.ids = ids ∧ t.cm.verdict = none ∧ t.cm.take = s.cm.take
                  ∧ t.mem = s.mem ∧ t.regions = s.regions ∧ t.ues = s.ues ∧ t.benches = s.benches)))))

/-- R224, R229, R396: VOTE_SEND, VOTE_REPEAT, CM_VOTE, PTIMEOUT_EXPIRY and the evaluation at the coordinator.
Each of these forms completes with its own effect under the conditions stated: voteSend, voteRepeat, cmVote, ptimeoutExpiry. -/
def Obligations.CommitVotes : Prop :=
  ∀ (s : State) (m : CmMsg),
    (∀ k agree, s.cmState = 1 → s.cm.due = none → s.markMask = some k → s.cm.verdict = some agree →
      let vote := if k = 0 ∧ agree = true then 2 else 3
      let cause := k * 256 + b2n (!agree) * 2
      exec .voteSend s = .next ((((s.setRn R.GH_CM_STATE vote).modCm (fun c => { c with voteTime := s.us })).ev 0xA30 0xFF
        (leBytes 8 s.cmStep ++ leBytes 1 vote ++ leBytes 2 cause)).sendVote).cmEvaluate)
    ∧ ((s.markMask = none ∨ s.cm.verdict = none) → exec .voteSend s = .next s)
    ∧ (s.cm.restarted = true → (s.cmState = 2 ∨ s.cmState = 3) → s.cm.due = none → exec .voteRepeat s = .next s.sendVote)
    ∧ (s.cmBox.find? (fun m => m.typ == 1) = some m → s.cm.group.map (·.1) = some m.group →
        let s1 : State := { s with cmBox := s.cmBox.erase m }
        (s1.isCoord = false → exec .cmVote s = .next s1)
        ∧ (s1.isCoord = true → s.cm.take = none → s.cm.takeDue = false →
            (∀ d, s.cm.hist.find? (fun d => d.1 == m.step) = some d → exec .cmVote s = .next (s1.cmSend m.src (if d.2 then 2 else 3) m.step 0))
            ∧ (s.cm.hist.find? (fun d => d.1 == m.step) = none → (m.value = 2 ∨ m.value = 3) → exec .cmVote s =
                .next (s1.modCm (fun c => { c with votes := c.votes.filter (fun v => !(v.1 == m.src && v.2.1 == m.step)) ++ [(m.src, m.step, m.value == 2)] })).cmEvaluate)))
    ∧ (s.isCoord = true → (s.cmState = 2 ∨ s.cmState = 3) → s.cm.take = none → s.cm.takeDue = false → s.cm.due = none →
        s.cm.voteTime + s.rfld R.GH_CM_CFG 15 0 ≤ s.us → exec .ptimeoutExpiry s = .next (s.modCm (fun c => { c with due := some ⟨s.cmStep, false, s.rn R.LK_EPOCH, false, true, true, s.dev⟩ })))
    ∧ (s.us < s.cm.voteTime + s.rfld R.GH_CM_CFG 15 0 → exec .ptimeoutExpiry s = .next s)
    ∧ (s.isCoord = true → s.cm.due = none → s.cm.take = none → s.cm.takeDue = false →
        (s.cmState = 3 → s.cmEvaluate = s.modCm (fun c => { c with due := some ⟨s.cmStep, false, s.rn R.LK_EPOCH, false, false, true, s.dev⟩ }))
        ∧ ((s.cmState = 1 ∨ s.cmState = 2) → (∃ v ∈ s.cm.votes, v.2.1 = s.cmStep ∧ v.2.2 = false) →
            s.cmEvaluate = s.modCm (fun c => { c with due := some ⟨s.cmStep, false, s.rn R.LK_EPOCH, true, false, true, s.dev⟩ }))
        ∧ (s.cmState = 2 → (∀ v ∈ s.cm.votes, v.2.1 = s.cmStep → v.2.2 = true) → (∀ d ∈ s.cmLive, d ≠ s.dev → ∃ v ∈ s.cm.votes, v.1 = d ∧ v.2.1 = s.cmStep) →
            s.cmEvaluate = s.modCm (fun c => { c with due := some ⟨s.cmStep, true, s.rn R.LK_EPOCH, false, false, true, s.dev⟩ }))
        ∧ (s.cmState = 2 → (∀ v ∈ s.cm.votes, v.2.1 = s.cmStep → v.2.2 = true) → (∃ d ∈ s.cmLive, d ≠ s.dev ∧ ∀ v ∈ s.cm.votes, v.1 = d → v.2.1 ≠ s.cmStep) →
            s.cmEvaluate = s))

/-- R228, R230: CM_COMMIT, CM_DISCARD, CM_QUERY, CM_STATE, COMMIT_TAKEOVER.
Each of these forms completes with its own effect under the conditions stated: cmCommit, cmDiscard, cmQuery, cmState, commitTakeover. -/
def Obligations.CommitMessages : Prop :=
  ∀ (s : State) (m : CmMsg), s.cm.group.map (·.1) = some m.group →
    let s1 : State := { s with cmBox := s.cmBox.erase m }
    let stale : Bool := m.step == s.cmStep && decide (m.epoch < s.cm.answered)
    let seen : State := s1.setRn R.GH_CM_EPOCH (max (s.rn R.GH_CM_EPOCH) (m.epoch % 2 ^ 32))
    (s.cmBox.find? (fun m => m.typ == 2) = some m →
      (stale = true → exec .cmCommit s = .next (s1.ev 0xA34 0xFF (leBytes 8 m.step ++ leBytes 4 m.epoch ++ leBytes 2 m.src)))
      ∧ (stale = false →
        ((m.step, true) ∈ s.cm.hist → exec .cmCommit s = .next s1)
        ∧ ((m.step, true) ∉ s.cm.hist → s.cmState = 2 → s.cmStep = m.step → s.cm.due = none →
            exec .cmCommit s = .next (seen.modCm (fun c => { c with due := some ⟨m.step, true, m.epoch, s.cm.answered != 0, false, false, m.src⟩ })))
        ∧ ((m.step, true) ∉ s.cm.hist → (s.cmState ≠ 2 ∨ s.cmStep ≠ m.step) →
            exec .cmCommit s = .next (s1.ev 0xA36 0xFF (leBytes 8 m.step ++ leBytes 1 s.cmState ++ leBytes 2 m.src)))))
    ∧ (s.cmBox.find? (fun m => m.typ == 3) = some m → stale = false →
        (m.step ≤ s.rn R.GH_CM_DECIDED → exec .cmDiscard s = .next s1)
        ∧ (s.rn R.GH_CM_DECIDED < m.step → s.cm.due = none →
            exec .cmDiscard s = .next (seen.modCm (fun c => { c with due := some ⟨m.step, false, m.epoch, s.cmState != 3 || s.cm.answered != 0, false, false, m.src⟩ }))))
    ∧ (s.cmBox.find? (fun m => m.typ == 4) = some m →
        ((∀ d, s.cm.due = some d → d.step = s.cmStep → m.epoch ≤ d.epoch) →
          exec .cmQuery s = .next ((seen.modCm (fun c => { c with answered := max c.answered m.epoch })).cmSend m.src 5 s.cmStep s.cmState))
        ∧ (∀ d, s.cm.due = some d → d.step = s.cmStep → d.epoch < m.epoch → ∃ t, exec .cmQuery s = .next t ∧ t.cm.due = none
            ∧ t.cm.answered = max s.cm.answered m.epoch ∧ t.regions = s.regions ∧ t.mem = s.mem))
    ∧ (s.cmBox.find? (fun m => m.typ == 5) = some m →
        (s.cm.take = none → exec .cmState s = .next s1)
        ∧ (∀ rs, s.cm.take = some rs → exec .cmState s = .next
            (s1.modCm (fun c => { c with take := some (rs.filter (fun r => r.1 != m.src) ++ [(m.src, m.step, m.value)]) })).cmConclude))
    ∧ (s.cm.takeDue = true → s.isCoord = true → exec .commitTakeover s =
        .next ((s.modCm (fun c => { c with takeDue := false, take := some [] })).cmSendAll 4 s.cmStep).cmConclude)

/-- R196, R231: DECISION_APPLY.
Each of these forms completes with its own effect under the conditions stated: decisionApply. -/
def Obligations.DecisionFlipsVersions : Prop :=
  ∀ (s : State) (d : CmDue), s.cm.due = some d → d.send = false → s.cm.take = none →
    ∃ t, exec .decisionApply s = .next t
      ∧ t.regions = s.regions.map (fun e => if s.stackUp (regionStack e.1) then (e.1, e.2.decide d.step d.commit) else e)
      ∧ (∀ e, e ∈ t.spall.entries ↔ e ∈ s.spall.entries ∧ e.bad = false ∧ d.step < e.d / 2 ^ 64)
      ∧ t.cm.due = none ∧ t.cm.hist = s.cm.hist ++ [(d.step, d.commit)]
      ∧ (s.canonical = true → t.rn R.GH_CM_STEP = d.step ∧ t.rn R.GH_CM_DECIDED = d.step ∧ t.rn R.GH_CM_STATE = (if d.commit then 4 else 5)
        ∧ t.rn R.GH_CM_CAUSE = s.failMask d.step * 256
          + b2n (decide (s.cmStep = d.step) && s.cm.verdict == some false) * 2 + b2n d.timeout * 4 + b2n d.remote)
      ∧ t.mem = s.mem ∧ t.benches = s.benches ∧ t.cores = s.cores ∧ t.derricks = s.derricks
      ∧ (∀ (x : Region) (i : Nat) (v : Slot), x.slots[i]? = some v →
          let hasTent : Prop := ∃ u ∈ x.slots, u.st = .tentative ∧ u.step = d.step
          (x.decide d.step d.commit).slots[i]? = some (
            if v.st = .tentative ∧ v.step = d.step then { v with st := if d.commit then .current else .free }
            else if v.st = .current ∧ d.commit = true ∧ (x.slots.any (fun u => u.st == .tentative && u.step == d.step)) = true then
              { v with st := if v.pins = 0 ∧ v.impl = 0 then .free else .held }
            else v) ∧ (hasTent ↔ (x.slots.any (fun u => u.st == .tentative && u.step == d.step)) = true))

/-- R248, R249, R251, R253: STACK_ACCESS, STOCKYARD_ACCESS, PATROL_SCRUB, SY_SEL_WRITE, UE_SEAM_SEL_WRITE.
Each of these forms completes with its own effect under the conditions stated: stackAccess, stockyardAccess, patrolScrub, ueSeamSelWrite,
sySelWrite. -/
def Obligations.MemoryAccesses : Prop :=
  ∀ (s : State) (a v : Nat) (k : Fin 8) (d : Bytes),
    (isMergo a = true → s.stackUp (stackOf a) = true →
      exec (.stackAccess a none .good) s = .next s
      ∧ (s.poisonedAt a = false → exec (.stackAccess a none .uncorrectable) s =
          .next (((s.poisonLine a).addReg (R.UE_ECC_UE (stackOf a)) 1).ev 0x602 (stackOf a) (leBytes 8 (a / 64 * 64))))
      ∧ (s.poisonedAt a = false →
        let key := seamKey (stackOf a) (seamOf a)
        let counted : State := (s.addReg (R.UE_ECC_CE (stackOf a)) 1).setArb key ((s.arb key).count 5 1)
        (∀ e, s.seLast.find? (fun e => e.1 == key) = some e → s.us < e.2 + 1000000 → exec (.stackAccess a none .corrected) s = .next counted)
        ∧ (s.seLast.find? (fun e => e.1 == key) = none →
            exec (.stackAccess a none .corrected) s = .next { counted.ev 0x601 (stackOf a) [] with seLast := s.seLast ++ [(key, s.us)] }))
      ∧ (s.poisonedAt a = true → exec (.stackAccess a none .uncorrectable) s = .next s ∧ exec (.stackAccess a none .corrected) s = .next s)
      ∧ (a % 64 = 0 → d.length = 64 → s.addWindow a = none → exec (.stackAccess a (some d) .uncorrectable) s = .next (s.write a d)))
    ∧ ((isMergo a = false ∨ s.stackUp (stackOf a) = false) → ∀ e, exec (.stackAccess a none e) s = .next s)
    ∧ (isYard a = true →
      exec (.stockyardAccess a none .good) s = .next s
      ∧ (s.poisonedAt a = false → exec (.stockyardAccess a none .uncorrectable) s = .next (((s.poisonLine a).addReg R.SY_ECC_UE 1).ev 0x402 0xFF []))
      ∧ (s.poisonedAt a = false → exec (.stockyardAccess a none .corrected) s =
          .next (((s.addReg R.SY_ECC_CE 1).setArb (bankOf a) ((s.arb (bankOf a)).count 5 1)).ev 0x401 0xFF []))
      ∧ exec (.stockyardAccess a (some d) .good) s = .next (s.write a (d.take (64 - a % 64))))
    ∧ (s.stackUp k = true →
      let w := s.rfld (R.UE_SCRUB_STATUS k) 31 0 * 65536 + s.scrubLow[k]
      let key := seamKey k (seamOf (k * 0x000C00000000 + 64 * w))
      let x := s.arb key
      let busy : State := s.setArb key (x.count 3 1)
      (s.rfld (R.UE_SCRUB_CFG k) 15 0 = 0 → exec (.patrolScrub k .good) s = .next s)
      ∧ ((x.owner.isSome = true ∨ x.waiting ≠ []) → ∀ e, exec (.patrolScrub k e) s = .next s)
      ∧ (s.rfld (R.UE_SCRUB_CFG k) 15 0 ≠ 0 → x.owner = none → x.waiting = [] → ∀ e found,
          ((e = .good ∨ s.poisonedAt (k * 0x000C00000000 + 64 * w) = true) ∧ found = busy
            ∨ e = .uncorrectable ∧ s.poisonedAt (k * 0x000C00000000 + 64 * w) = false ∧ found = busy.stackUe (k * 0x000C00000000 + 64 * w)) →
          (64 * (w + 1) < 0x000C00000000 → exec (.patrolScrub k e) s =
            .next { found.setFld (R.UE_SCRUB_STATUS k) 31 0 ((w + 1) / 65536) with scrubLow := s.scrubLow.set k ((w + 1) % 65536) })
          ∧ (0x000C00000000 ≤ 64 * (w + 1) → exec (.patrolScrub k e) s =
            .next (({ found.setRn (R.UE_SCRUB_STATUS k) ((s.rfld (R.UE_SCRUB_STATUS k) 63 32 + 1) * 2 ^ 32) with scrubLow := s.scrubLow.set k 0 } : State).ev 0x603 k [])))
      ∧ exec (.ueSeamSelWrite k v) s = .next (([0, 3, 4, 5].zipIdx).foldl (fun t p =>
          t.setRn (R.UE_SEAM_VIEW k p.2) ((s.arb (seamKey k (v % 32))).counts.getD p.1 0)) (s.setRn (R.UE_SEAM_SEL k) (v % 32))))
    ∧ exec (.sySelWrite v) s = .next ((List.range 6).foldl (fun t w => t.setRn (R.SY_VIEW w) ((s.arb (v % 1024)).counts.getD w 0)) (s.setRn R.SY_SEL (v % 1024)))

/-- R263 to R266, R272, R404: ARBITRATION_DECISION, HOT_BANK, BANK_COOLS. The requester logged, of several that hold the most tags, is the model's choice (log 88).
Each of these forms completes with its own effect under the conditions stated: arbitrationDecision, hotBank, bankCools. -/
def Obligations.ArbitersChoose : Prop :=
  ∀ (s : State) (i : Nat) (arrive : List ArbReq),
    let x := s.arb i
    let asked := x.held ++ arrive.filter (s.reqOk i)
    let y := Arb.raise (fun w => s.tagsOf w - x.tags w) { x.beat with held := [] } asked
    let moved : State := match x.owner.bind (fun o => o.puts[o.beats - o.left]?) with
      | some p => s.write p.1 p.2
      | none => s
    ((s.seamSlow i = false ∨ x.took = false) → ∃ z : Arb, exec (.arbitrationDecision i arrive false) s = .next (moved.setArb i z)
        ∧ z.took = s.seamSlow i
        ∧ y.waiting.length + z.held.length = x.waiting.length + asked.length
        ∧ (∀ who n, reqTags who = some n → z.tags who ≤ max (x.tags who) (n / (if x.hot then 8 else 4)))
        ∧ (y.owner = none → y.waiting ≠ [] → ∃ r ∈ y.waiting, z.owner = some r ∧ (∀ q ∈ y.waiting, q.before r = false) ∧ z.waiting.length + 1 = y.waiting.length)
        ∧ (∀ o, y.owner = some o → (∀ q ∈ y.waiting, o.eff ≤ q.eff) → z.owner = some o ∧ z.waiting.length = y.waiting.length)
        ∧ (∀ o, y.owner = some o → (∃ q ∈ y.waiting, q.eff < o.eff) → ∃ r ∈ y.waiting, z.owner = some r ∧ r.eff < o.eff
          ∧ z.waiting.getLast? = some { o with left := o.beats, revoked := o.revoked + 1, waited := 0 }))
    ∧ (s.seamSlow i = true → x.took = true → ∃ z : Arb, exec (.arbitrationDecision i arrive false) s = .next (moved.setArb i z)
        ∧ z.owner = y.owner ∧ z.waiting = waitOne y.waiting ∧ z.took = false)
    ∧ (∀ o, x.owner = some o → y.owner = (if o.left ≤ 1 then none else some { o with left := o.left - 1 }))
    ∧ (1024 ≤ i → x.counts.length = 6 → ∃ z : Arb, exec (.arbitrationDecision i arrive true) s = .next (s.setArb i z) ∧ z.owner = x.owner
        ∧ z.counts.getD 3 0 = (x.counts.getD 3 0 + 1) % 2 ^ 64)
    ∧ (x.hot = false → s.rfld R.SY_CFG 7 0 ≠ 0 → 256 ≤ x.hotFor →
        exec (.hotBank i) s = .next (((s.setArb i { x with hot := true }).addReg R.SY_HOT_EVENTS 1).ev 0x410 0xFF (leBytes 2 i ++ leBytes 1 x.most)))
    ∧ ((x.hot = true ∨ s.rfld R.SY_CFG 7 0 = 0 ∨ x.hotFor < 256) → exec (.hotBank i) s = .next s)
    ∧ (256 ≤ x.coolFor → exec (.bankCools i) s = .next (s.setArb i { x with hot := false }))
    ∧ (x.coolFor < 256 → exec (.bankCools i) s = .next s)

/-- R244, R245: MM_INVAL, MM_INVAL_DONE.
Each of these forms completes with its own effect under the conditions stated: mmInval, mmInvalDone. -/
def Obligations.Invalidation : Prop :=
  ∀ (s : State) (v w : Nat) (rest : List Nat), s.canonical = true →
    (exec (.mmInval v) s = .next { s.setRn R.MM_INVAL_STATUS 0 with invals := s.invals ++ [v % 2 ^ 64] })
    ∧ (s.invals = w :: rest →
      ((∀ t ∈ s.txns, ∀ c p, t.xl = some (c, p) → invalNames w c p = false) → ∃ t, exec .mmInvalDone s = .next t
          ∧ t.invals = rest ∧ (∀ e, e ∈ t.tlb ↔ e ∈ s.tlb ∧ invalNames w e.ctx e.page = false)
          ∧ t.rn R.MM_INVAL_STATUS = (if rest = [] then 1 else s.rn R.MM_INVAL_STATUS) ∧ t.mem = s.mem ∧ t.cores = s.cores ∧ t.derricks = s.derricks)
      ∧ ((∃ t ∈ s.txns, ∃ c p, t.xl = some (c, p) ∧ invalNames w c p = true) → exec .mmInvalDone s = .next s))

/-- R256 to R258, R260, R270: DK_NOP, DK_SYNC_WAIT, DK_SYNC_SIGNAL, the refusals of COPY, FILL, SLOTFILL and PLANE, DK_RESUME, DK_SKIP, DK_CNT_CLR.
Each of these forms completes with its own effect under the conditions stated: dkNop, dkSyncWait, dkSyncSignal, dkResume, dkSkip, dkCntClr. -/
def Obligations.DerrickQueue : Prop :=
  ∀ (s : State) (d : Fin 48) (c : Cmd), (s.bench (dkBench d)).out = false →
    let pop : State := s.modDk d (fun x => { x with q := x.q.pop })
    let k := c.f 1 7 0
    let q := (s.dk d).q
    (word0Reserved c = true → ∀ p ∈ [(0x00, Instr.dkNop d), (0x20, .dkSyncWait d), (0x21, .dkSyncSignal d)], q.ready p.1 c = true →
        exec p.2 s = .next ((s.ev 0x501 d (leBytes 3 c.tag ++ leBytes 1 1)).dkHalt d 1 1 c.tag))
    ∧ (q.ready 0x00 c = true → word0Reserved c = false → exec (.dkNop d) s = .next pop)
    ∧ (q.ready 0x20 c = true → word0Reserved c = false → c.w 2 ≤ s.syncVal k → exec (.dkSyncWait d) s = .next pop)
    ∧ (q.ready 0x20 c = true → word0Reserved c = false → s.syncVal k < c.w 2 → exec (.dkSyncWait d) s = .next s)
    ∧ (q.ready 0x21 c = true → word0Reserved c = false → (c.b 1 8 = false ∨ ∀ r ∈ (s.dk d).runs, q.nextJob ≤ r.id) → exec (.dkSyncSignal d) s = .next (pop.addSync k 1))
    ∧ (q.ready 0x21 c = true → word0Reserved c = false → c.b 1 8 = true → (∃ r ∈ (s.dk d).runs, r.id < q.nextJob) →
        exec (.dkSyncSignal d) s = .next (s.modDk d (fun x => { x with q := x.q.pop.defer k })))
    ∧ (q.head? = some c → c.parOk = false → ∀ i ∈ [Instr.dkNop d, .dkSyncWait d, .dkSyncSignal d, .copy d, .fill d, .slotfill d, .plane d],
        exec i s = .next ((s.ev 0x502 d (leBytes 3 c.tag)).dkHalt d 2 0 c.tag))
    ∧ (∀ item, (s.dk d).runs = [] → dkItem s d c = some item →
        let no : State := (s.ev 0x501 d (leBytes 3 c.tag ++ leBytes 1 item)).dkHalt d 1 item c.tag
        (q.ready 0x70 c = true → exec (.copy d) s = .next no) ∧ (q.ready 0x71 c = true → exec (.fill d) s = .next no)
        ∧ (q.ready 0x72 c = true → exec (.slotfill d) s = .next no) ∧ (q.ready 0x73 c = true → exec (.plane d) s = .next no))
    ∧ (q.cause ≠ 0 → exec (.dkResume d) s = .next ((s.modDk d (fun x => { x with q := { x.q with cause := 0 } })).setFld (R.DK_FAULT d) 31 31 0))
    ∧ (q.cause ≠ 0 → q.cmds ≠ [] → exec (.dkSkip d) s = .next pop)
    ∧ (q.cause = 0 → exec (.dkResume d) s = .next s ∧ exec (.dkSkip d) s = .next s)
    ∧ (s.canonical = true → ∃ t, exec (.dkCntClr d) s = .next t ∧ (∀ i : Fin 10, t.rn (R.DK_STALL d i) = 0) ∧ t.rn (R.DK_RA_DROPPED d) = 0
        ∧ t.rn (R.DK_BYTES d) = 0 ∧ t.derricks = s.derricks ∧ t.mem = s.mem)

/-- R259, R260, R261: COPY, FILL, SLOTFILL, PLANE, DERRICK_REQUEST, SLOT_WRITE, DESCRIPTOR_COMPLETE, RUN_AHEAD_READ.
Each of these forms completes with its own effect under the conditions stated: copy, fill, slotfill, plane, derrickRequest, runAheadRead,
slotWrite, descriptorComplete. -/
def Obligations.DerrickTransfers : Prop :=
  ∀ (s : State) (d : Fin 48) (c : Cmd) (r : DkRun) (host : Option Bytes), (s.bench (dkBench d)).out = false →
    let q := (s.dk d).q
    let ring := stageAddr (Dsc.bench c) 0x108 true
    let at0 := s.dkResolve c
    let go : State := at0.1.modDk d (fun x => { x with q := x.q.pop, runs := x.runs ++ [({ cmd := c, id := x.q.job, src := at0.2, ringBase := s.rfld ring 10 0, ringSlots := s.rfld ring 27 16 } : DkRun)] })
    let at_ := Dsc.dst r.cmd + r.put * Dsc.dstride r.cmd
    let from_ := Dsc.src r.cmd + r.row * Dsc.sstride r.cmd
    let n := Dsc.srcBytes r.cmd
    let more : Prop := r.row < Dsc.rows r.cmd ∧ r.waits = [] ∧ r.rest.2 = [] ∧ q.cause = 0 ∧ (s.dk d).runs = [r]
    let lcl : Prop := Dsc.phys r.cmd = true ∧ Dsc.dstt r.cmd = 0 ∧ Dsc.trans r.cmd = false ∧ Dsc.sfmt r.cmd = Dsc.dfmt r.cmd
    ((s.dk d).runs = [] → dkItem s d c = none →
      (q.ready 0x70 c = true → exec (.copy d) s = .next go) ∧ (q.ready 0x71 c = true → exec (.fill d) s = .next go)
      ∧ (q.ready 0x72 c = true → exec (.slotfill d) s = .next go) ∧ (q.ready 0x73 c = true → exec (.plane d) s = .next go))
    ∧ (Dsc.ofRegion c = false → at0 = (s, none))
    ∧ (∀ g i, Dsc.ofRegion c = true → Dsc.tokv c = false → s.region? (Dsc.w5 c % 2 ^ 14) = some g → g.find .current = some i →
        at0 = (s.implPin (Dsc.w5 c % 2 ^ 14) i, some ⟨Dsc.w5 c % 2 ^ 14, g.uid, i, (g.slot i).gen, (g.slot i).addr, false⟩))
    ∧ (∀ g, Dsc.ofRegion c = true → Dsc.tokv c = true → s.region? (Dsc.w5 c % 2 ^ 14) = some g → bits (Dsc.w5 c) 15 14 < g.nslots →
        at0 = (s, some ⟨Dsc.w5 c % 2 ^ 14, g.uid, bits (Dsc.w5 c) 15 14, bits (Dsc.w5 c) 31 24, (g.slot (bits (Dsc.w5 c) 15 14)).addr, true⟩))
    ∧ (more → lcl → r.cmd.op = 0x71 → s.quotaHeld (96 + d) at_ = true → 0 < Dsc.rlen r.cmd → at_ % 64 + Dsc.rlen r.cmd ≤ 64 →
        exec (.derrickRequest d host false) s = .next (s.modDk d (fun x => { x with runs := [{ r with begun := true }] })))
    ∧ (more → lcl → r.cmd.op = 0x71 → s.txns = [] → s.arbs = [] → 0 < Dsc.rlen r.cmd → at_ % 64 + Dsc.rlen r.cmd ≤ 64 → ∃ t, exec (.derrickRequest d host false) s = .next t
        ∧ t.mem = (s.write at_ ((List.range (Dsc.rlen r.cmd)).map (fun i => BitVec.ofNat 8 (Dsc.w5 r.cmd >>> (8 * (i % 8)))))).mem
        ∧ (t.dk d).runs.map (fun u => (u.row, u.put)) = [(r.row + 1, r.put + 1)] ∧ (t.dk d).q = q ∧ t.cores = s.cores)
    ∧ (more → lcl → r.cmd.op = 0x71 → s.txns = [] → s.arbs = [] → 0 < Dsc.rlen r.cmd → ∃ t, exec (.derrickRequest d host true) s = .next t
        ∧ t.mem = s.mem ∧ (t.dk d).runs = [] ∧ (t.dk d).q.cause = 4 ∧ (t.dk d).q.cmds = r.cmd :: q.cmds ∧ t.cores = s.cores)
    ∧ (r.open' = true → r.waits = [] → q.cause = 0 → (s.dk d).runs = [r] → Dsc.phys r.cmd = true → Dsc.dstt r.cmd = 0 → s.txns = [] → s.arbs = [] →
        r.rest.2 ≠ [] → r.rest.1 % 64 + r.rest.2.length ≤ 64 → ∃ t, exec (.derrickRequest d host false) s = .next t
          ∧ t.mem = (s.write r.rest.1 r.rest.2).mem ∧ (t.dk d).runs = [{ r with put := r.put + 1, lines := [], rest := (0, []) }] ∧ t.cores = s.cores)
    ∧ (∀ row, more → lcl → r.cmd.op = 0x70 → Dsc.srct r.cmd = 0 → s.txns = [] → s.arbs = [] → 0 < n → from_ % 64 + n ≤ 64 → at_ % 64 + n ≤ 64 → r.src = none →
        s.read from_ n = some row → row.length = n → ∃ t, exec (.derrickRequest d host false) s = .next t ∧ t.mem = (s.write at_ row).mem
          ∧ (t.dk d).runs.map (fun u => (u.row, u.put)) = [(r.row + 1, r.put + 1)] ∧ (t.dk d).q = q ∧ t.cores = s.cores)
    ∧ (more → lcl → r.cmd.op = 0x70 → Dsc.srct r.cmd = 0 → s.txns = [] → s.arbs = [] → 0 < n → from_ % 64 + n ≤ 64 → at_ % 64 + n ≤ 64 → r.src = none → s.read from_ n = none →
        ∃ t, exec (.derrickRequest d host false) s = .next t ∧ t.mem = s.mem ∧ (t.dk d).runs = [] ∧ (t.dk d).q.cause = 4 ∧ (t.dk d).q.cmds = r.cmd :: q.cmds)
    ∧ (∀ row md rest, q.cause = 0 → (s.dk d).runs = [r] → r.waits = (row, md) :: rest →
        let b : Fin 24 := Fin.ofNat 24 (Dsc.bench r.cmd)
        let k := r.ringBase + (((Dsc.start r.cmd : Int) - r.ringBase + r.put) % (r.ringSlots : Int)).toNat
        (((s.bench b).slotMeta k).pend = true → exec (.slotWrite d) s = .next s)
        ∧ (((s.bench b).slotMeta k).pend = false → (s.bench b).out = false → ∃ t, exec (.slotWrite d) s = .next t
            ∧ (t.bench b).slotMeta k = ⟨(Dsc.tag0 r.cmd + r.put / Dsc.span r.cmd) % 16, Dsc.endEn r.cmd && decide (r.put = Dsc.endSlot r.cmd), true⟩
            ∧ t.mem = (match md with | some m => ((s.wr (slotBase b k) row).wr (slotBase b k + 1008) m).mem | none => (s.wr (slotBase b k) row).mem) ∧ (t.dk d).runs = [{ r with waits := rest, put := r.put + 1 }]))
    ∧ ((s.dk d).runs = [r] → Dsc.rows r.cmd ≤ r.row → Dsc.outs r.cmd ≤ r.put → (∀ t ∈ s.txns, t.who ≠ .derrick d r.id) →
        let b : Fin 24 := Fin.ofNat 24 (Dsc.bench r.cmd)
        (r.cmd.op ≠ 0x73 → exec (.descriptorComplete d) s = .next (s.modDk d (fun x => { x with runs := [] })))
        ∧ (r.cmd.op = 0x73 → (s.bench b).out = false → (s.bench b).planeActive (Dsc.plane r.cmd) = false → ∃ t, exec (.descriptorComplete d) s = .next t
            ∧ ((t.bench b).plane (Dsc.plane r.cmd)).valid = true ∧ ((t.bench b).plane (Dsc.plane r.cmd)).tag = Dsc.ptag r.cmd
            ∧ ((t.bench b).plane (Dsc.plane r.cmd)).pfmt = (if 9 ≤ Dsc.sfmt r.cmd ∧ Dsc.sfmt r.cmd ≤ 14 then 4 else Dsc.sfmt r.cmd)
            ∧ (t.dk d).runs = [] ∧ t.mem = s.mem))
    ∧ (q.cause = 0 → (s.dk d).runs = [r] → r.row < Dsc.rows r.cmd → r.ahead < Dsc.window r.cmd → r.cmd.op ≠ 0x71 → Dsc.srct r.cmd ≠ 3 →
        64 * r.ahead ≤ r.row * Dsc.sstride r.cmd + 65536 → ∃ t, exec (.runAheadRead d) s = .next t ∧ (t.dk d).runs = [{ r with ahead := r.ahead + 1 }] ∧ t.mem = s.mem)
    ∧ (∃ t, exec (.runAheadRead d) s = .next t ∧ t.mem = s.mem ∧ t.poison = s.poison ∧ t.benches = s.benches ∧ t.cores = s.cores ∧ (t.dk d).q = q)

/-- R239, R360 to R363: CONFIG_REQUEST, BAR_READ, BAR_WRITE, REGISTER_WRITE, HOST_LINK_UP.
Each of these forms completes with its own effect under the conditions stated: registerWrite, configRequest, barRead, barWrite, hostLinkUp. -/
def Obligations.HostAccesses : Prop :=
  ∀ (s : State) (vis : Bool) (op : CfgOp) (o n a v : Nat) (d : Bytes),
    (s.pci.up = true →
      (s.released = false → exec (.configRequest op vis) s = .next (s.emit (.cfgReply true (if vis = true ∧ op = .readId then 1 else 0))))
      ∧ (s.released = true →
        exec (.configRequest .readId vis) s = .next (s.emit (.cfgReply false 0xC9091F9A))
        ∧ exec (.configRequest .readClass vis) s = .next (s.emit (.cfgReply false 0x120000))
        ∧ exec (.configRequest .readSerial vis) s = .next (s.emit (.cfgReply false (s.rn R.FZ_SERIAL)))
        ∧ exec (.configRequest .readCommand vis) s = .next (s.emit (.cfgReply false (2 * b2n s.pci.memEn + 4 * b2n s.busMaster)))
        ∧ (∀ i : Fin 3, exec (.configRequest (.readBar i) vis) s = .next (s.emit (.cfgReply false (s.pci.bars.getD i 0 + 4 + 8 * b2n (decide (i ≠ 0))))))
        ∧ (∀ c, exec (.configRequest (.readCap c) vis) s = .next (s.emit (.cfgReply false (b2n c.held))))
        ∧ exec (.configRequest .readDeviceCap vis) s = .next (s.emit (.cfgReply false (2 + 2 ^ 28)))
        ∧ exec (.configRequest .readDeviceCap2 vis) s = .next (s.emit (.cfgReply false (2 ^ 16 + 2 ^ 17)))
        ∧ exec (.configRequest .readDevice vis) s = .next (s.emit (.cfgReply false (s.pci.mps * 2 ^ 5 + s.pci.mrrs * 2 ^ 12)))
        ∧ exec (.configRequest .readDevice2 vis) s = .next (s.emit (.cfgReply false (b2n s.pci.tags10 * 2 ^ 12)))
        ∧ exec (.configRequest .readMsix vis) s = .next (s.emit (.cfgReply false (511 + b2n s.msixMask * 2 ^ 14 + b2n s.msixEn * 2 ^ 15)))
        ∧ exec (.configRequest .readPower vis) s = .next (s.emit (.cfgReply false (3 * b2n s.pci.d3)))
        ∧ exec (.configRequest .readBarSizes vis) s = .next (s.emit (.cfgReply false (2 ^ 24 - 2 ^ 14)))
        ∧ exec (.configRequest .readBar4Size vis) s = .next (s.emit (.cfgReply false (4 + 2 ^ 5 + (s.pci.bar4k - 20) * 2 ^ 8)))
        ∧ exec (.configRequest .readErrors vis) s = .next (s.emit (.cfgReply false s.pci.errors))
        ∧ (∀ m q, m ≤ 2 → q ≤ 5 → exec (.configRequest (.writeDevice m q) vis) s = .next (({ s with pci := { s.pci with mps := m, mrrs := q } } : State).emit (.cfgReply false 0)))
        ∧ (∀ y, exec (.configRequest (.writeDevice2 y) vis) s = .next (({ s with pci := { s.pci with tags10 := y } } : State).emit (.cfgReply false 0)))
        ∧ exec (.configRequest .clearErrors vis) s = .next (({ s with pci := { s.pci with errors := 0 } } : State).emit (.cfgReply false 0))
        ∧ (∀ m b, exec (.configRequest (.writeCommand m b) vis) s = .next (({ s with pci := { s.pci with memEn := m }, busMaster := b } : State).fetchAll.emit (.cfgReply false 0)))
        ∧ exec (.configRequest (.writeBar 0 a) vis) s =
            .next (({ s with pci := { s.pci with bars := s.pci.bars.set 0 (a % 2 ^ 64 - a % 2 ^ 26) } } : State).emit (.cfgReply false 0))
        ∧ (30 ≤ v → v ≤ 39 → exec (.configRequest (.writeBar4Size v) vis) s = .next (({ s with pci := { s.pci with bar4k := v } } : State).emit (.cfgReply false 0)))
        ∧ ((v < 30 ∨ 39 < v) → exec (.configRequest (.writeBar4Size v) vis) s = .next (s.emit (.cfgReply false 0)))
        ∧ (∀ e m, exec (.configRequest (.writeMsix e m) vis) s = .next ((List.range 512).foldl State.flushVector (({ s with msixEn := e, msixMask := m } : State).emit (.cfgReply false 0))))
        ∧ (∀ e, exec (.configRequest (.writePower e) vis) s = .next (({ s with pci := { s.pci with d3 := e } } : State).fetchAll.emit (.cfgReply false 0))))
      ∧ ((s.released = false ∨ s.pci.memEn = false ∨ s.pci.d3 = true ∨ 2 ^ 29 < o + n) → exec (.barRead 1 o n) s = .next (s.emit (.barReply true false [])))
      ∧ ((s.released = false ∨ s.pci.memEn = false ∨ s.pci.d3 = true ∨ 2 ^ 29 < o + d.length) → exec (.barWrite 1 o d) s = .next s)
      ∧ (s.released = true → s.pci.memEn = true → s.pci.d3 = false →
        (o + n ≤ 2 ^ 29 → 0 < n → s.badRead (0x010000000000 + o) n = false →
          exec (.barRead 1 o n) s = .next ((s.addReg (R.HX_COUNT 0) n).emit (.barReply false false (s.bytes (0x010000000000 + o) n))))
        ∧ (o + n ≤ 2 ^ 29 → 0 < n → s.badRead (0x010000000000 + o) n = true → exec (.barRead 1 o n) s =
            .next ((((s.addReg (R.HX_COUNT 0) n).addReg (R.HX_COUNT 3) 1).emit (.barReply false true (List.replicate n 0xFF))).reportError poisonError))
        ∧ (o + d.length ≤ 2 ^ 29 → exec (.barWrite 1 o d) s = .next ((s.addReg (R.HX_COUNT 1) d.length).write (0x010000000000 + o) d))
        ∧ (o + n ≤ 2 ^ 26 → n ≠ 4 → n ≠ 8 → exec (.barRead 0 o n) s = .next ((s.addReg (R.HX_COUNT 0) n).emit (.barReply false false (List.replicate n 0))))))
    ∧ (s.pci.up = false → exec (.configRequest op vis) s = .next s ∧ exec (.barRead 1 o n) s = .next s ∧ exec (.barWrite 1 o d) s = .next s)
    ∧ (((n ≠ 4 ∧ n ≠ 8) ∨ a % n ≠ 0 ∨ isRegSpace a = false) → exec (.registerWrite true a n v) s = .next s)
    ∧ (let w := a - a % 8
       ∀ x, regAt w = some x → (n = 4 ∨ n = 8) → a % n = 0 → isRegSpace a = true → (a < GH.base + 0x20000 ∨ GH.base + 0x40000 ≤ a) → BN.base 24 ≤ w →
        (UE.base 0 ≤ w → w < UE.base 8 → s.stackUp ((w - UE.base 0) / 0x10000) = true) → (w < R.GH_MB_DB 0 ∨ R.GH_MB_DB 16 ≤ w) →
        (w < R.HX_MSIX_ENTRY 0 ∨ R.HX_MSIX_ENTRY 1024 ≤ w) →
        exec (.registerWrite true a n v) s = .next (s.setRn w (x.written (s.rn w) (accessMask a n) (v % 2 ^ (8 * n) * 2 ^ (8 * (a % 8)))))
        ∧ ∀ i < 64, ∀ old be y : Nat, (x.written old be y).testBit i =
            ((if (x.rw.testBit i || x.rws.testBit i) && be.testBit i then y.testBit i else old.testBit i) && !(x.w1c.testBit i && be.testBit i && y.testBit i)))
    ∧ (∀ b : Fin 24, (s.bench b).out = false → ∀ f ∈ [0x110, 0x118, 0x120, 0x128], exec (.registerWrite true (BN.base b + f) 8 v) s = .next (s.setRn (BN.base b + f) (v % 2 ^ 64)))
    ∧ (s.canonical = true → exec (.registerWrite true R.HX_BAR4_BASE 8 v) s = .next (s.setRn R.HX_BAR4_BASE (bits v 38 30 * 2 ^ 30 + (s.rn R.HX_BAR4_BASE - s.rfld R.HX_BAR4_BASE 38 30 * 2 ^ 30))))
    ∧ (∀ sp w, (sp = 4 ∨ sp = 5 ∨ sp = 6) → (w = 2 ∨ w = 3) → s.rbit R.PW_DOMAIN 34 = true → exec (.hostLinkUp sp w) s = .next (({ s with pci := { s.pci with up := true } } : State).setRn R.HX_LINK (256 + sp * 16 + w)))
    ∧ (∀ sp w, (sp < 4 ∨ 6 < sp ∨ w < 2 ∨ 3 < w) → exec (.hostLinkUp sp w) s = .next s)

/-- R364 to R369, R371: HX_DB, RING_FETCH, RING_ENTRY_COMPLETE, HX_RB_CFG_WRITE, HX_CNT_CLR, MSIX_MOD_EXPIRY, MSIX_UNMASK, FUNCTION_LEVEL_RESET, PERST_N.
Each of these forms completes with its own effect under the conditions stated: hxDb, ringFetch, ringEntryComplete, hxRbCfgWrite, hxCntClr,
msixModExpiry, msixUnmask, functionLevelReset, perstN. -/
def Obligations.RingsFetchAndReport : Prop :=
  ∀ (s : State) (r : Fin 64) (v : Nat) (d : Bytes) (x : Fin 512), s.canonical = true →
    let hold (t : State) : Prop := t.mem = s.mem ∧ t.cores = s.cores ∧ t.benches = s.benches
    let cut (t : State) : Prop := (t.ring r).q = (s.ring r).q.take 1 ∧ ∀ k, k ≠ r → t.ring k = s.ring k
    (v % 2 ^ 16 < s.ringSize r → ∃ t, exec (.hxDb r v) s = .next t ∧ t = (s.setRn (R.HX_DB r) (v % 2 ^ 16)).fetchMore r ∧ t.rn (R.HX_DB r) = v % 2 ^ 16
        ∧ (t.ring r).q = (s.ring r).q ∧ (t.ring r).next = (s.ring r).next ∧ (∀ k, k ≠ r → t.ring k = s.ring k) ∧ hold t)
    ∧ (s.ringSize r ≤ v % 2 ^ 16 → ∃ t, exec (.hxDb r v) s = .next t ∧ t.ringOn r = false ∧ t.rfld (R.HX_RB_STATUS r) 15 8 = 1 ∧ cut t ∧ hold t)
    ∧ (s.ringOn r = true → s.hostUp = true → d.length = 64 → (s.ring r).q.length ≤ 16 → 0 < s.ringAhead r → ∃ t, exec (.ringFetch r (some d)) s = .next t
        ∧ (∃ e, (t.ring r).q = (s.ring r).q ++ [e] ∧ e.cmd = Cmd.ofBytes d ∧ e.slot = (s.ring r).next % s.ringSize r ∧ e.done = none ∧ e.started = false)
        ∧ t.rn (R.HX_COUNT 2) = (s.rn (R.HX_COUNT 2) + 64) % 2 ^ 64 ∧ hold t)
    ∧ (s.ringOn r = true → s.hostUp = true → ∃ t, exec (.ringFetch r none) s = .next t ∧ t.ringOn r = false ∧ t.rfld (R.HX_RB_STATUS r) 15 8 = 2 ∧ cut t ∧ hold t)
    ∧ (∀ e rest st res, (s.ring r).q = e :: rest → e.done = some (st, res) → e.started = false → e.silent = false → s.pci.d3 = false →
        (s.hostUp = true → ∃ t o, exec (.ringEntryComplete r true) s = .next t ∧ (t.ring r).q = rest ∧ t.out = s.out ++ o
          ∧ Out.hostWrite (s.rfld (R.HX_CQ_BASE r) 63 12 * 4096 + 32 * e.slot) (leBytes 4 e.cmd.tag ++ leBytes 1 st ++ leBytes 1 (b2n e.phase) ++ leBytes 2 e.slot
              ++ leBytes 8 res ++ leBytes 4 (s.us - e.time) ++ List.replicate 12 0) ∈ o
          ∧ t.rn (R.HX_RB_HEAD r) = (e.slot + 1) % s.ringSize r ∧ hold t)
        ∧ (∃ t, exec (.ringEntryComplete r false) s = .next t ∧ (t.ring r).q = [] ∧ t.ringOn r = false ∧ t.rfld (R.HX_RB_STATUS r) 15 8 = 3 ∧ hold t))
    ∧ (s.pci.d3 = true → ∀ ok, exec (.ringEntryComplete r ok) s = .next s)
    ∧ (∃ t, exec (.hxRbCfgWrite r v) s = .next t ∧ t.rbit (R.HX_RB_CFG r) 63 = v.testBit 63 ∧ hold t
        ∧ (s.rbit (R.HX_RB_CFG r) 63 = true → v.testBit 63 = false → (t.ring r).q = (s.ring r).q.take 1)
        ∧ (s.rbit (R.HX_RB_CFG r) 63 = false → v.testBit 63 = true → (t.ring r).next = 0 ∧ (t.ring r).phase = true ∧ t.rn (R.HX_RB_HEAD r) = 0 ∧ t.rn (R.HX_DB r) = 0
            ∧ t.ringOn r = true))
    ∧ (∃ t, exec .hxCntClr s = .next t ∧ (∀ i : Fin 4, t.rn (R.HX_COUNT i) = 0) ∧ t.rings = s.rings ∧ hold t)
    ∧ ((s.ring r).held = true → (∀ z, (s.ring r).lastIrq = some z → z + s.rfld (R.HX_RB_CFG r) 31 16 ≤ s.us) →
        (s.rbit (R.HX_VEC_MAP r) 31 = true → ∃ t, exec (.msixModExpiry r) s = .next t ∧ t.ring r = { s.ring r with held := false, lastIrq := some s.us } ∧ hold t)
        ∧ (s.rbit (R.HX_VEC_MAP r) 31 = false → exec (.msixModExpiry r) s = .next (s.modRing r (fun y => { y with held := false }))))
    ∧ ((s.ring r).held = false ∨ (∃ z, (s.ring r).lastIrq = some z ∧ s.us < z + s.rfld (R.HX_RB_CFG r) 31 16) → exec (.msixModExpiry r) s = .next s)
    ∧ (s.msixEn = true → s.msixMask = false → s.rbit (R.HX_MSIX_ENTRY (2 * x + 1)) 32 = true → s.rbit (R.HX_MSIX_PBA (x / 64)) (x % 64) = true →
        ∃ t, exec (.msixUnmask x false) s = .next t ∧ t.rbit (R.HX_MSIX_ENTRY (2 * x + 1)) 32 = false ∧ t.rbit (R.HX_MSIX_PBA (x / 64)) (x % 64) = false
          ∧ t.out = s.out ++ [.msix x (s.rn (R.HX_MSIX_ENTRY (2 * x))) (s.rfld (R.HX_MSIX_ENTRY (2 * x + 1)) 31 0)] ∧ hold t)
    ∧ (∀ i ∈ [Instr.functionLevelReset, .perstN], ∃ t, exec i s = .next t ∧ (∀ k : Fin 64, (t.ring k).q = ((s.ring k).q.take 1).map (fun e => { e with silent := true }))
        ∧ t.busMaster = false ∧ t.msixEn = false ∧ t.rn R.HX_LINK = 0 ∧ t.pci.up = (if i = .perstN then false else s.pci.up) ∧ hold t)

/-- R279, R295, R299: LOAD, RUN, UNLOAD, CTX, RING_WAIT, RING_SIGNAL.
Each of these forms completes with its own effect under the conditions stated: load, run, unload, ctx, ringWait, ringSignal. -/
def Obligations.RingEntriesRun : Prop :=
  ∀ (s : State) (r : Fin 64) (e : RingEntry) (tr : Translated) (host : Option Bytes),
    let c := e.cmd
    (s.ringHead r 0x84 = some e →
      (c.w 2 ≤ s.syncVal (c.f 1 7 0) → exec (.ringWait r) s = .next (s.ringDone r 0 0)) ∧ (s.syncVal (c.f 1 7 0) < c.w 2 → exec (.ringWait r) s = .next s))
    ∧ (s.ringHead r 0x85 = some e → exec (.ringSignal r) s = .next ((s.addSync (c.f 1 7 0) 1).ringDone r 0 0))
    ∧ (s.ringHead r 0x83 = some e → exec (.ctx r) s = .next (({ s with repro := s.repro.set (Fin.ofNat 64 (s.ringCtx r)) (c.b 1 0) } : State).ringDone r 0 0))
    ∧ (s.ringHead r 0x82 = some e →
      let h := c.f 1 15 0
      ((∃ m ∈ s.modules, m.handle = h) → s.runPending r h = false →
        exec (.unload r) s = .next (({ s with modules := s.modules.filter (fun m => m.handle != h) } : State).ringDone r 0 0))
      ∧ (((∀ m ∈ s.modules, m.handle ≠ h) ∨ s.runPending r h = true) → exec (.unload r) s = .next (s.ringDone r 9 0)))
    ∧ (s.ringHead r 0x81 = some e →
      ((∀ m ∈ s.modules, m.handle ≠ c.f 1 15 0) → exec (.run r) s = .next (s.ringDone r 9 0))
      ∧ (∀ m, s.module? (c.f 1 15 0) = some m →
        (m.entries.length ≤ c.f 1 31 16 → exec (.run r) s = .next (s.ringDone r 9 0))
        ∧ (∀ pc, m.entries[c.f 1 31 16]? = some pc →
          ((∃ b ∈ gang m.mask, (s.bench b).out = true) → exec (.run r) s = .next (s.ringDone r 7 0))
          ∧ ((∀ b ∈ gang m.mask, (s.bench b).out = false) → s.gangIdle m.mask = false → exec (.run r) s = .next s)
          ∧ ((∀ b ∈ gang m.mask, (s.bench b).out = false) → s.runBefore r m.mask = true → exec (.run r) s = .next s)
          ∧ ((∀ b ∈ gang m.mask, (s.bench b).out = false) → s.gangIdle m.mask = true → s.runBefore r m.mask = false → (∀ b ∈ gang m.mask, (s.bench b).q.cmds.length ≤ 62) →
            ∃ t, exec (.run r) s = .next t ∧ t.runs.length = s.runs.length + 1 ∧ t.mem = s.mem
              ∧ (∀ b ∈ gang m.mask, (t.core b).st = 2 ∧ (t.core b).pc = pc % 2 ^ 48 ∧ (t.core b).ctx = m.ctx ∧ (t.core b).ring = some r.val
                  ∧ (t.core b).g[(1 : Fin 32)] = BitVec.ofNat 64 ((gang m.mask).idxOf b) ∧ (t.core b).g[(2 : Fin 32)] = BitVec.ofNat 64 (gang m.mask).length
                  ∧ (t.core b).g[(3 : Fin 32)] = BitVec.ofNat 64 (c.w 2) ∧ (t.core b).g[(4 : Fin 32)] = BitVec.ofNat 64 m.handle
                  ∧ (t.bench b).q.cmds.length = (s.bench b).q.cmds.length + 2)
              ∧ (∀ b, b ∉ gang m.mask → t.core b = s.core b ∧ (t.bench b).q = (s.bench b).q)))))
    ∧ (s.ringHead r 0x80 = some e → (s.ring r).after = none →
      let mask := c.f 5 23 0
      let no (v : State) (k : Nat) : State := ((v.loadEnd r).ev 0x731 0xFF (leBytes 1 k)).ringDone r k 0
      ((mask = 0 ∨ ∃ b ∈ gang mask, (s.bench b).out = true) → exec (.load r tr host) s = .next (no s 7))
      ∧ (mask ≠ 0 → (∀ b ∈ gang mask, (s.bench b).out = false) → s.loading r mask = false → s.gangIdle mask = false → exec (.load r tr host) s = .next s)
      ∧ (mask ≠ 0 → (∀ b ∈ gang mask, (s.bench b).out = false) → (s.loading r mask = true ∨ s.gangIdle mask = true) →
        ∀ s0 u got, s0 = (if s.loading r mask then s else s.loadStart r mask) → s0.loadRead r (s.ringCtx r) (c.w 1) (c.f 2 31 0) host = (u, got) →
          (∀ b ∈ gang mask, (s0.core b).st = 1)
          ∧ (got = .wait → exec (.load r tr host) s = .next u)
          ∧ (got = .bad → exec (.load r tr host) s = .next (no u 1))
          ∧ (∀ m, got = .got m → headerOk m (c.f 2 31 0) = false → exec (.load r tr host) s = .next (no u 1))
          ∧ (∀ m, got = .got m → headerOk m (c.f 2 31 0) = true → moduleCrcOk m = false → exec (.load r tr host) s = .next (no u 2))
          ∧ (∀ m, got = .got m → headerOk m (c.f 2 31 0) = true → moduleCrcOk m = true → leAt m 4 2 ≠ 0x0100 → exec (.load r tr host) s = .next (no u 3))
          ∧ (∀ m, got = .got m → headerOk m (c.f 2 31 0) = true → moduleCrcOk m = true → leAt m 4 2 = 0x0100 → tableOk m = false → exec (.load r tr host) s = .next (no u 4))
          ∧ (∀ m h sb, got = .got m → headerOk m (c.f 2 31 0) = true → moduleCrcOk m = true → leAt m 4 2 = 0x0100 → tableOk m = true → entriesOk m = true →
              u.handleFree = some h → u.syncFree (leAt m 16 4) = some sb →
              (∀ k o, u.loadFault (u.ringCtx r) m = some (k, o) →
                exec (.load r tr host) s = .next (((u.loadEnd r).ev 0x731 0xFF (leBytes 1 5 ++ (leBytes 4 k ++ leBytes 1 o))).ringDone r 5 (k + o * 2 ^ 32)))
              ∧ (∀ code ro zb cb ops bufs writes images us ver blocks v bound w, u.loadFault (u.ringCtx r) m = none → tr = .ok code ro zb cb ops bufs writes images us ver →
                let tops := parseOps m.length (sectionBytes m 2)
                let all := [(code, relocated m sb ro zb), (ro, sectionBytes m 3), (zb, List.replicate (zeroSize m) (0 : Byte)), (cb, commandsOf bound)] ++ writes ++ drainsOf bound ++ u.imagesOf tops images
                blocksOf 0 none tops = .inr blocks → Tr.ok ⟨mask, c.w 3, c.w 4, sb, leAt m 16 4, tops, ops, blocks, u.frozenOf tops, bufs, writes, images⟩ = true →
                u.bindOps (u.ringCtx r) ops = (v, .inr bound) → placesOk (c.w 3) (c.w 4) code all = true → v.loadWrite r (u.ringCtx r) all = (w, true) → w.ringOut r = false →
                ∃ t md, exec (.load r tr host) s = .next t
                  ∧ t.modules = w.modules ++ [md] ∧ md.handle = h ∧ md.mask = mask ∧ md.ctx = u.ringCtx r ∧ md.syncBase = sb ∧ md.ops = bound ∧ t.mem = w.mem
                  ∧ (∀ b, (w.core b).st = 1 → (w.core b).ring = some r.val → (t.core b).st = 0)
                  ∧ (∀ x rest, (w.ring r).q = x :: rest → (t.ring r).q = { x with done := some (0, h) } :: rest)
                  ∧ (∀ i < leAt m 16 4, w.canonical = true → t.syncVal (sb + i) = 0)))))

/-- R282, R283, R277, R285: the integer instructions, whole next states.
Each of these forms completes with its own effect under the conditions stated: edAdd, edSub, edAnd, edOr, edXor, edSll, edSrl, edSra, edMul,
edMulhu, edDivu, edRemu, edDiv, edRem, edSlt, edSltu, edMin, edMax, edAddi, edAndi, edOri, edXori, edSlli, edSrli, edSrai, edLui, edShlori,
edSlti, edLcset, edLcget. -/
def Obligations.EdvenIntegerOps : Prop :=
  ∀ (s t : State) (b : Fin 24) (x y z : Fin 32) (i : Fin 65536) (j : Fin 64) (n : Fin 4) (v : Nat),
    let a := t.gr b y
    let c := t.gr b z
    let res (v : Nat) : State := (t.setG b x v).retire b
    (s.gr b 0 = 0 ∧ s.setG b 0 v = s ∧ (x ≠ 0 → (s.setG b x v).gr b x = v % 2 ^ 64 ∧ (y ≠ x → (s.setG b x v).gr b y = s.gr b y)))
    ∧ (res v).regs = t.regs
    ∧ (a = 2 ^ 63 → c = 2 ^ 64 - 1 → toBits 64 ((signed 64 a).tdiv (signed 64 c)) = 2 ^ 63 ∧ toBits 64 ((signed 64 a).tmod (signed 64 c)) = 0)
    ∧ (s.fetches b (.alu 0 x y z) t → exec (.edAdd b x y z) s = .next (res ((a + c) % 2 ^ 64)))
    ∧ (s.fetches b (.alu 1 x y z) t → exec (.edSub b x y z) s = .next (res ((a + 2 ^ 64 - c) % 2 ^ 64)))
    ∧ (s.fetches b (.alu 2 x y z) t → exec (.edAnd b x y z) s = .next (res (a &&& c)))
    ∧ (s.fetches b (.alu 3 x y z) t → exec (.edOr b x y z) s = .next (res (a ||| c)))
    ∧ (s.fetches b (.alu 4 x y z) t → exec (.edXor b x y z) s = .next (res (a ^^^ c)))
    ∧ (s.fetches b (.alu 5 x y z) t → exec (.edSll b x y z) s = .next (res (a * 2 ^ (c % 64) % 2 ^ 64)))
    ∧ (s.fetches b (.alu 6 x y z) t → exec (.edSrl b x y z) s = .next (res (a / 2 ^ (c % 64))))
    ∧ (s.fetches b (.alu 7 x y z) t → exec (.edSra b x y z) s = .next (res (toBits 64 (signed 64 a / 2 ^ (c % 64)))))
    ∧ (s.fetches b (.alu 8 x y z) t → exec (.edMul b x y z) s = .next (res (a * c % 2 ^ 64)))
    ∧ (s.fetches b (.alu 9 x y z) t → exec (.edMulhu b x y z) s = .next (res (a * c / 2 ^ 64)))
    ∧ (s.fetches b (.alu 10 x y z) t → exec (.edDivu b x y z) s = .next (res (if c = 0 then 0 else a / c)))
    ∧ (s.fetches b (.alu 11 x y z) t → exec (.edRemu b x y z) s = .next (res (if c = 0 then a else a % c)))
    ∧ (s.fetches b (.alu 12 x y z) t → exec (.edDiv b x y z) s = .next (res (if c = 0 then 0 else toBits 64 ((signed 64 a).tdiv (signed 64 c)))))
    ∧ (s.fetches b (.alu 13 x y z) t → exec (.edRem b x y z) s = .next (res (if c = 0 then a else toBits 64 ((signed 64 a).tmod (signed 64 c)))))
    ∧ (s.fetches b (.alu 14 x y z) t → exec (.edSlt b x y z) s = .next (res (if signed 64 a < signed 64 c then 1 else 0)))
    ∧ (s.fetches b (.alu 15 x y z) t → exec (.edSltu b x y z) s = .next (res (if a < c then 1 else 0)))
    ∧ (s.fetches b (.alu 16 x y z) t → exec (.edMin b x y z) s = .next (res (if signed 64 a < signed 64 c then a else c)))
    ∧ (s.fetches b (.alu 17 x y z) t → exec (.edMax b x y z) s = .next (res (if signed 64 a < signed 64 c then c else a)))
    ∧ (s.fetches b (.imm 0 x y i) t → exec (.edAddi b x y i) s = .next (res (toBits 64 (signed 64 a + signed 16 i))))
    ∧ (s.fetches b (.imm 1 x y i) t → exec (.edAndi b x y i) s = .next (res (a &&& i)))
    ∧ (s.fetches b (.imm 2 x y i) t → exec (.edOri b x y i) s = .next (res (a ||| i)))
    ∧ (s.fetches b (.imm 3 x y i) t → exec (.edXori b x y i) s = .next (res (a ^^^ i)))
    ∧ (s.fetches b (.imm 4 x y (Fin.ofNat 65536 j)) t → exec (.edSlli b x y j) s = .next (res (a * 2 ^ j.val % 2 ^ 64)))
    ∧ (s.fetches b (.imm 5 x y (Fin.ofNat 65536 j)) t → exec (.edSrli b x y j) s = .next (res (a / 2 ^ j.val)))
    ∧ (s.fetches b (.imm 6 x y (Fin.ofNat 65536 j)) t → exec (.edSrai b x y j) s = .next (res (toBits 64 (signed 64 a / 2 ^ j.val))))
    ∧ (s.fetches b (.imm 7 x 0 i) t → exec (.edLui b x i) s = .next (res (toBits 64 (signed 32 (i.val * 65536)))))
    ∧ (s.fetches b (.imm 8 x 0 i) t → exec (.edShlori b x i) s = .next (res ((t.gr b x * 65536 + i) % 2 ^ 64)))
    ∧ (s.fetches b (.imm 9 x y i) t → exec (.edSlti b x y i) s = .next (res (if signed 64 a < signed 16 i then 1 else 0)))
    ∧ (s.fetches b (.lcset n y) t → exec (.edLcset b n y) s = .next ((t.modCore b (fun k => { k with lc := k.lc.set n (BitVec.ofNat 64 a) })).retire b))
    ∧ (s.fetches b (.lcget x n) t → exec (.edLcget b x n) s = .next (res ((t.core b).lc[n]).toNat))

/-- R282, R288, R237, R278: loads and stores.
Each of these forms completes with its own effect under the conditions stated: edLd8u, edLd16u, edLd32u, edLd64, edLd8s, edLd16s, edLd32s,
edSt8, edSt16, edSt32, edSt64. -/
def Obligations.EdvenLoadsAndStores : Prop :=
  ∀ (s t u : State) (b : Fin 24) (x y : Fin 32) (i : Fin 65536) (host : Option Bytes) (ecc : Ecc) (d : Bytes) (cause kind : Nat),
    let a := (t.gr b y + simm i) % 2 ^ 64
    let loads (run : Instr) (f : Fin 7) (n : Nat) (val : Nat) : Prop := s.fetches b (.ld f x y i) t →
      (a % n = 0 → t.coreLoad b a n host = (u, .val d) → exec run s = .next ((u.setG b x val).retire b))
      ∧ (a % n = 0 → t.coreLoad b a n host = (u, .wait) → exec run s = .next (u.stallCore b 2))
      ∧ (a % n = 0 → t.coreLoad b a n host = (u, .fault cause kind) → exec run s = .next (u.coreFault b cause kind a))
      ∧ (a % n ≠ 0 → exec run s = .next (t.coreFault b 2 0 a))
    let stores (run : Instr) (f : Fin 4) (n : Nat) : Prop := s.fetches b (.st f x y i) t →
      (a % n = 0 → t.coreStore b a (leBytes n (t.gr b x)) = (u, .val d) → exec run s = .next (u.retire b))
      ∧ (a % n = 0 → t.coreStore b a (leBytes n (t.gr b x)) = (u, .wait) → exec run s = .next (u.stallCore b 2))
      ∧ (a % n = 0 → t.coreStore b a (leBytes n (t.gr b x)) = (u, .fault cause kind) → exec run s = .next (u.coreFault b cause kind a))
      ∧ (a % n ≠ 0 → exec run s = .next (t.coreFault b 2 0 a))
    loads (.edLd8u b x y i host) 0 1 (fromLe d)
    ∧ loads (.edLd16u b x y i host) 1 2 (fromLe d)
    ∧ loads (.edLd32u b x y i host) 2 4 (fromLe d)
    ∧ loads (.edLd64 b x y i host .good) 3 8 (fromLe d)
    ∧ exec (.edLd64 b x y i host ecc) s = exec (.edLd64 b x y i host .good) (s.lineEcc b ((s.gr b y + simm i) % 2 ^ 64) ecc)
    ∧ loads (.edLd8s b x y i host) 4 1 (toBits 64 (signed 8 (fromLe d)))
    ∧ loads (.edLd16s b x y i host) 5 2 (toBits 64 (signed 16 (fromLe d)))
    ∧ loads (.edLd32s b x y i host) 6 4 (toBits 64 (signed 32 (fromLe d)))
    ∧ stores (.edSt8 b x y i) 0 1
    ∧ stores (.edSt16 b x y i) 1 2
    ∧ stores (.edSt32 b x y i) 2 4
    ∧ stores (.edSt64 b x y i) 3 8
    ∧ (∀ xl n, s.coreXlate b a false = (u, .inr xl) → xl.target = .lcl → isRegSpace xl.addr = false → xl.nc = true →
        (∀ got, u.read xl.addr n = some got → s.coreLoad b a n host = (u.oweFree b 2, .val got)) ∧ (u.read xl.addr n = none → s.coreLoad b a n host = (u.oweFree b 2, .fault 4 0)))
    ∧ (∀ xl, s.coreXlate b a true = (u, .inr xl) → xl.target = .lcl → isRegSpace xl.addr = false → xl.nc = true → s.coreStore b a d = (u.write xl.addr d, .val []))
    ∧ (2 ^ 48 ≤ a → s.coreLoad b a 1 host = (s.addReg R.MM_FAULTS 1, .fault 3 1) ∧ s.coreStore b a d = (s.addReg R.MM_FAULTS 1, .fault 3 1))

/-- R282, R285, R286, R287: branches, jumps and hardware loops.
Each of these forms completes with its own effect under the conditions stated: edBeq, edBne, edBlt, edBge, edBltu, edBgeu, edJal, edJ, edJr,
edLoop, edLoopi. -/
def Obligations.EdvenControlFlow : Prop :=
  ∀ (s t u : State) (b : Fin 24) (x y : Fin 32) (i len : Fin 65536) (o : Fin 67108864) (n : Fin 4) (cnt : Fin 256) (spec : List (Bool × Nat)) (miss : Bool) (w : Nat),
    let p := t.gr b x
    let q := t.gr b y
    let pc := (t.core b).pc
    let off (k : Int) : Nat := (((pc : Int) + 4 + 4 * k) % 2 ^ 48).toNat
    let pr := t.predict b spec miss
    let br (run : Instr) (f : Fin 6) (holds : Prop) : Prop := s.fetches b (.br f x y i) t →
      (holds → exec run s = .next (pr.jumpTo b (off (signed 16 i)))) ∧ (¬holds → exec run s = .next (pr.retire b))
    br (.edBeq b x y i spec miss) 0 (p = q)
    ∧ br (.edBne b x y i spec miss) 1 (p ≠ q)
    ∧ br (.edBlt b x y i spec miss) 2 (signed 64 p < signed 64 q)
    ∧ br (.edBge b x y i spec miss) 3 (signed 64 q ≤ signed 64 p)
    ∧ br (.edBltu b x y i spec miss) 4 (p < q)
    ∧ br (.edBgeu b x y i spec miss) 5 (q ≤ p)
    ∧ (s.fetches b (.jal o) t → exec (.edJal b o) s = .next ((t.setG b 31 (pc + 4)).jumpTo b (off (signed 26 o))))
    ∧ (s.fetches b (.j o) t → exec (.edJ b o) s = .next (t.jumpTo b (off (signed 26 o))))
    ∧ (s.fetches b (.jr x y) t → exec (.edJr b x y spec miss) s = .next ((pr.setG b x (pc + 4)).jumpTo b q))
    ∧ ((t.core b).pc + 4 < 2 ^ 48 → (∀ m : Fin 4, ((t.core b).loops[m]).active = true → ((t.core b).loops[m]).stop ≠ pc) → ((t.retire b).core b).pc = pc + 4)
    ∧ (∀ a, ((t.jumpTo b a).core b).pc = a % 2 ^ 48)
    ∧ (t.rbit (R.CC_CFG b) 0 = false → (∀ p ∈ spec, p.1 = false) →
        t.predict b spec true = (t.addReg (R.CC_MISPREDICT b) 1).modCore b (fun k => { k with owed := k.owed ++ [(12, 3)] }) ∧ t.predict b spec false = t)
    ∧ ((∀ m : Fin 4, ((t.core b).loops[m]).active = false) → t.fetch b (pc + 4 * len) = (u, .inr w) → pc + 4 * len.val + 4 < 2 ^ 48 →
        let legal := 0 < len.val ∧ ∀ e, Ed.decode w = some e → e.endsBody = false
        let go (t' : State) (count : Nat) : Prop := ∃ z, t' = z ∧ (z.core b).pc = pc + 4 ∧ (z.core b).lc[n] = BitVec.ofNat 64 count
          ∧ (z.core b).loops[n] = ⟨true, pc + 4, pc + 4 * len⟩ ∧ (∀ m, m ≠ n → (z.core b).loops[m] = (u.core b).loops[m]) ∧ (z.core b).g = (u.core b).g ∧ z.mem = u.mem
        (s.fetches b (.loopi n cnt len) t → legal → 0 < cnt.val → ∃ z, exec (.edLoopi b n cnt len) s = .next z ∧ go z cnt)
        ∧ (s.fetches b (.loop n y len) t → legal → 0 < q → ∃ z, exec (.edLoop b n y len) s = .next z ∧ go z q)
        ∧ (s.fetches b (.loopi n cnt len) t → legal → cnt.val = 0 → ∃ z, exec (.edLoopi b n cnt len) s = .next z ∧ (z.core b).pc = pc + 4 * len + 4 ∧ (z.core b).loops = (u.core b).loops)
        ∧ (s.fetches b (.loopi n cnt len) t → 0 < len.val → ¬legal → exec (.edLoopi b n cnt len) s = .next (u.plainFault b 5)))
    ∧ (s.fetches b (.loopi n cnt len) t → (((t.core b).loops[n]).active = true ∨ len.val = 0) → exec (.edLoopi b n cnt len) s = .next (t.plainFault b 5))
    ∧ (∀ st, (t.core b).loops[n] = ⟨true, st, pc⟩ → st < 2 ^ 48 → (∀ m : Fin 4, m ≠ n → ((t.core b).loops[m]).active = false) →
        (1 < ((t.core b).lc[n]).toNat → ((t.retire b).core b).pc = st ∧ ((t.retire b).core b).lc[n] = (t.core b).lc[n] - 1)
        ∧ (((t.core b).lc[n]).toNat ≤ 1 → pc + 4 < 2 ^ 48 → ((t.retire b).core b).pc = pc + 4 ∧ (((t.retire b).core b).loops[n]).active = false))

/-- R284, R74, R77: the floating-point instructions.
Each of these forms completes with its own effect under the conditions stated: edFadd, edFsub, edFmul, edFdiv, edFsqrt, edFrsqrt, edFlog2,
edFexp2, edFma, edFmaximum, edFminimum, edFmaximumNumber, edFminimumNumber, edFequal, edFnotEqual, edFless, edFlessEqual, edFgreater,
edFgreaterEqual, edFunordered, edFcvtis, edFcvtsi, edFtotal, edFrem. -/
def Obligations.EdvenFloatingPoint : Prop :=
  ∀ (s t : State) (b : Fin 24) (x y z : Fin 32) (k : Nat),
    let a := t.gr b y % 2 ^ 32
    let c := t.gr b z % 2 ^ 32
    let run (i : Instr) (f : Fin 28) (r : Nat × Cond) : Prop := s.fetches b (.fp f x y z) t →
      exec i s = .next ((((t.setRn (R.CC_FLAGS b) (t.rn (R.CC_FLAGS b) ||| r.2.toNat % 16)).setG b x r.1).owe b (fpMore f) 7).retire b)
    run (.edFadd b x y z) 0 (fpAdd a c)
    ∧ run (.edFsub b x y z) 1 (fpSub a c)
    ∧ run (.edFmul b x y z) 2 (fpMul a c)
    ∧ run (.edFdiv b x y z) 3 (fpDiv a c)
    ∧ run (.edFsqrt b x y z) 4 (fpSqrt a)
    ∧ run (.edFrsqrt b x y z) 5 (fpRsqrt a)
    ∧ run (.edFlog2 b x y z) 6 (fpLog2 a)
    ∧ run (.edFexp2 b x y z) 7 (fpExp2 a)
    ∧ run (.edFma b x y z) 8 (fpFma a c (t.gr b x % 2 ^ 32))
    ∧ run (.edFmaximum b x y z) 9 (fpMaximum a c)
    ∧ run (.edFminimum b x y z) 10 (fpMinimum a c)
    ∧ run (.edFmaximumNumber b x y z) 11 (fpMaximumNum a c)
    ∧ run (.edFminimumNumber b x y z) 12 (fpMinimumNum a c)
    ∧ run (.edFequal b x y z) 16 (fpEq a c)
    ∧ run (.edFnotEqual b x y z) 17 (fpNe a c)
    ∧ run (.edFless b x y z) 18 (fpLt a c)
    ∧ run (.edFlessEqual b x y z) 19 (fpLe a c)
    ∧ run (.edFgreater b x y z) 20 (fpGt a c)
    ∧ run (.edFgreaterEqual b x y z) 21 (fpGe a c)
    ∧ run (.edFunordered b x y z) 22 (fpUn a c)
    ∧ run (.edFcvtis b x y z) 24 (fpToInt a)
    ∧ run (.edFcvtsi b x y z) 25 (fpOfInt (t.gr b y))
    ∧ run (.edFtotal b x y z) 26 ((b2n (fpTotal a c), Cond.none))
    ∧ run (.edFrem b x y z) 27 (fpRem a c)
    ∧ ((fpOperand a FP32).1.isNan = true → (fpAdd a c).1 = FP32.nanCode ∧ (fpAdd c a).1 = FP32.nanCode ∧ (fpMul a c).1 = FP32.nanCode ∧ (fpDiv a c).1 = FP32.nanCode ∧ (fpFma a c k).1 = FP32.nanCode)
    ∧ (∀ p q : Nat,
        let vp := (fpOperand p FP32).1
        let vq := (fpOperand q FP32).1
        ((vp.isNan = true ∨ vq.isNan = true) → (fpEq p q).1 = 0 ∧ (fpLt p q).1 = 0 ∧ (fpLe p q).1 = 0 ∧ (fpGt p q).1 = 0 ∧ (fpGe p q).1 = 0 ∧ (fpNe p q).1 = 1 ∧ (fpUn p q).1 = 1)
        ∧ (vp.isNan = false → vq.isNan = false → (fpEq p q).1 = b2n (decide (vp.toRat = vq.toRat)) ∧ (fpNe p q).1 = b2n (decide (vp.toRat ≠ vq.toRat)) ∧ (fpLt p q).1 = b2n (decide (vp.toRat < vq.toRat))
            ∧ (fpLe p q).1 = b2n (decide (vp.toRat ≤ vq.toRat)) ∧ (fpGt p q).1 = b2n (decide (vq.toRat < vp.toRat)) ∧ (fpGe p q).1 = b2n (decide (vq.toRat ≤ vp.toRat)) ∧ (fpUn p q).1 = 0)
        ∧ (∀ g ∈ [fpEq, fpNe, fpLt, fpLe, fpGt, fpGe, fpUn], (g p q).2.inv = false))
    ∧ (fpOperand 0x80000000 FP32).1.toRat = 0 ∧ (fpOperand 0 FP32).1.toRat = 0

/-- R282, R290, R291, R293, R294, R300: opcodes 0x3C, 0x3D and 0x3F.
Each of these forms completes with its own effect under the conditions stated: edFence, edDclean, edDinv, edIinv, edEnd, edBrk, edRdcyc,
edNop, edPush, edPushm, edQfree, edSsig, edSwait, edSread, edSset, edPhase, edSclaim, edRnd, edVop, edTop. -/
def Obligations.EdvenSystemInstructions : Prop :=
  ∀ (s t : State) (b : Fin 24) (x y z : Fin 32) (i : Fin 256) (j : Fin 4) (k : Fin 2097152) (host : Option Bytes),
    let a := t.gr b y
    let wr (v : Nat) : State := (t.setG b x v).retire b
    (s.fetches b (.sys 0 0 0) t → exec (.edFence b) s = .next ((t.oweFree b 2).retire b))
    ∧ (s.fetches b (.sys 7 0 0) t → exec (.edNop b) s = .next (t.retire b))
    ∧ (s.fetches b (.sys 1 0 y) t → ∀ u xl, t.coreXlate b a false = (u, .inr xl) → exec (.edDclean b y) s =
        .next ((if xl.target = .lcl ∧ cacheable xl.addr xl.nc = true then u.cleanLine b (xl.addr / 64) else u).retire b))
    ∧ (s.fetches b (.sys 2 0 y) t → ∀ u xl, t.coreXlate b a false = (u, .inr xl) → exec (.edDinv b y) s =
        .next ((if xl.target = .lcl ∧ cacheable xl.addr xl.nc = true then u.dropLine b (xl.addr / 64) else u).retire b))
    ∧ (∀ u f, t.coreXlate b a false = (u, .inl f) → (s.fetches b (.sys 1 0 y) t → exec (.edDclean b y) s = .next (u.coreFault b 3 f a))
        ∧ (s.fetches b (.sys 2 0 y) t → exec (.edDinv b y) s = .next (u.coreFault b 3 f a)))
    ∧ (s.fetches b (.sys 3 0 0) t → exec (.edIinv b) s = .next ((t.modCore b (fun c => { c with icache := [] })).retire b))
    ∧ (s.fetches b (.sys 4 0 0) t → ∃ u, exec (.edEnd b) s = .next u ∧ (u.core b).st = 0 ∧ (u.core b).ring = none ∧ u.mem = t.mem ∧ u.benches = t.benches ∧ u.regs = t.regs)
    ∧ (s.fetches b (.sys 5 0 0) t → ∃ u, exec (.edBrk b) s = .next u ∧ (u.core b).st = 3 ∧ (u.core b).cause = 2 ∧ (u.core b).pc = (t.core b).passed.pc
        ∧ (u.core b).g = (t.core b).g ∧ u.mem = t.mem)
    ∧ (s.fetches b (.sys 6 x 0) t → exec (.edRdcyc b x) s = .next (wr (t.rn (R.CC_CYCLES b))))
    ∧ (s.fetches b (.que 0x00 x 0 i) t → (x.val = 8 ∨ x.val = 16 ∨ x.val = 24) →
        let c : Cmd := (List.range 8).map (fun j => (t.core b).g[Fin.ofNat 32 (x.val + j)])
        (t.openQueue b i = none → exec (.edPush b x i) s = .next (t.plainFault b 6))
        ∧ (∀ q, t.openQueue b i = some q → t.breaks b i c = true → exec (.edPush b x i) s = .next (t.coreBreak b))
        ∧ (∀ q, t.openQueue b i = some q → t.breaks b i c = false → q.depth ≤ (t.queue q).cmds.length → exec (.edPush b x i) s = .next (t.stallCore b 4))
        ∧ (∀ q, t.openQueue b i = some q → t.breaks b i c = false → (t.queue q).cmds.length < q.depth → exec (.edPush b x i) s = .next ((t.corePush b i q c).retire b)))
    ∧ (s.fetches b (.que 0x00 x 0 i) t → x.val ≠ 8 → x.val ≠ 16 → x.val ≠ 24 → exec (.edPush b x i) s = .next (t.plainFault b 6))
    ∧ (s.fetches b (.que 0x01 0 y i) t → ∀ q u d, t.openQueue b i = some q → a % 64 = 0 → t.coreLoad b a 64 host = (u, .val d) → u.openQueue b i = some q →
        u.breaks b i (Cmd.ofBytes d) = false → (u.queue q).cmds.length < q.depth → exec (.edPushm b y i host) s = .next ((u.corePush b i q (Cmd.ofBytes d)).retire b))
    ∧ (s.fetches b (.que 0x02 x 0 i) t → ∀ q, t.openQueue b i = some q → exec (.edQfree b x i) s = .next (wr (q.depth - (t.queue q).cmds.length)))
    ∧ (s.fetches b (.que 0x08 0 y i) t → exec (.edSsig b y i) s = .next ((t.setSync i (t.syncVal i + a)).retire b))
    ∧ (s.fetches b (.que 0x09 0 y i) t → (a ≤ t.syncVal i → exec (.edSwait b y i) s = .next (t.retire b)) ∧ (t.syncVal i < a → exec (.edSwait b y i) s = .next (t.stallCore b 5)))
    ∧ (s.fetches b (.que 0x0A x 0 i) t → exec (.edSread b x i) s = .next (wr (t.syncVal i)))
    ∧ (s.fetches b (.que 0x0B 0 y i) t → exec (.edSset b y i) s = .next ((t.setSync i a).retire b))
    ∧ (s.fetches b (.que 0x10 0 y i) t → ((t.core b).marks.length < 8 → exec (.edPhase b y i) s =
          .next ((t.modCore b (fun c => { c with marks := c.marks ++ [⟨i, a, c.allPush⟩] })).retire b))
        ∧ (8 ≤ (t.core b).marks.length → exec (.edPhase b y i) s = .next (t.stallCore b 4)))
    ∧ (s.fetches b (.que 0x18 x y (Fin.ofNat 256 j)) t → ∀ u d, a % 16 = 0 → t.coreLoad b a 16 host = (u, .val d) → ∃ v, exec (.edSclaim b x y j host) s = .next v
        ∧ v.spall.queue = placeClaim ⟨.core b, leAt d 0 8, leAt d 8 8, u.claimDev, u.time⟩ u.spall.queue ∧ (v.core b).claim = some (x.val, j.val) ∧ (v.core b).pc = (u.core b).pc ∧ v.mem = u.mem)
    ∧ (s.fetches b (.que 0x19 x y (Fin.ofNat 256 j)) t → ((t.core b).slots[j] = none → exec (.edRnd b x y j) s = .next (t.plainFault b 1))
        ∧ (∀ key w, (t.core b).slots[j] = some (key, w) → exec (.edRnd b x y j) s =
            .next (wr (randVal key (w + 4 * a) % 2 ^ 16 + randVal key (w + 4 * a + 1) % 2 ^ 16 * 2 ^ 16 + randVal key (w + 4 * a + 2) % 2 ^ 16 * 2 ^ 32 + randVal key (w + 4 * a + 3) % 2 ^ 16 * 2 ^ 48))))
    ∧ (s.fetches b (.que 0x20 x y (Fin.ofNat 256 z)) t → t.stackUp (t.vopStack a) = true → ∀ u r w, vtOp t (t.vopStack a) a = (u, r, w) →
        exec (.edVop b x y z) s = .next (((((u.setRn (R.UE_VT_RES (t.vopStack a) b) w).setRn (R.UE_VT_CODE (t.vopStack a) b) (2 ^ 31 + r)).setG b x w).setG b z r).owe b 1 6 |>.retire b))
    ∧ (s.fetches b (.top x k) t →
        let ops := (t.modules.find? (fun m => m.handle == (t.core b).handle)).bind (fun m => m.ops[k.val]?)
        let gx := t.gr b x
        let done (u : State) : State := (u.modCore b (fun c => { c with topPos := 0, work := {}, strm := none })).retire b
        (ops = none → exec (.edTop b x k host) s = .next (t.plainFault b 1))
        ∧ ((t.core b).topPos = 0 → (t.core b).work = {} →
          (∀ l, ops = some l → (∀ p ∈ l, p.core ≠ b.val) → exec (.edTop b x k host) s = .next (done t))
          ∧ (∀ l qid cmd binds c u q, ops = some l → l.filter (fun o => o.core == b.val) = [⟨b.val, [], none, .push ⟨qid, cmd, binds, [], none⟩⟩] → (t.openQueue b qid).isSome = true →
              let c0 := cmd.set 0 (BitVec.ofNat 64 (putBits (cmd.w 0) 39 16 (k.val % 65536 * 256)))
              bindAll b gx (takesVa qid c0) t c0 binds = .inr (u, c) → u.openQueue b qid = some q → u.core b = t.core b →
              u.breaks b qid c = false → (u.queue q).cmds.length < q.depth → exec (.edTop b x k host) s = .next (done (u.corePush b qid q c)))
          ∧ (∀ l e u, ops = some l → bindTop b gx k 0 (l.filter (fun o => o.core == b.val)) 0 t (l.filter (fun o => o.core == b.val)) = (u, .inl e) → e.1 ≠ 6 →
              exec (.edTop b x k host) s = .next (u.coreFault b e.1 e.2.1 e.2.2))
          ∧ (∀ l n target, ops = some l → l.filter (fun o => o.core == b.val) = [⟨b.val, [], none, .await n target⟩] →
              (target ≤ t.syncVal n → exec (.edTop b x k host) s = .next (done t))
              ∧ (t.syncVal n < target → exec (.edTop b x k host) s = .next (t.stallCore b 5)))
          ∧ (∀ l r, ops = some l → l.filter (fun o => o.core == b.val) = [⟨b.val, [], none, .pin r⟩] → t.stackUp (bits r 13 11) = true →
              ∀ u n w, vtOp t (bits r 13 11) (0x10 * 2 ^ 56 + r) = (u, n, w) →
                exec (.edTop b x k host) s = .next (done ((((u.setRn (R.UE_VT_RES (bits r 13 11) b) w).setRn (R.UE_VT_CODE (bits r 13 11) b) (2 ^ 31 + n)).setNote b (.token r gx) (some w)).owe b 1 6)))))

/-- R288, R289, R301, R302: GANG_HALT, CC_RESUME, CC_STEP, CC_HALT_REQ, CC_CNT_CLR, CC_SYNC_WRITE, PHASE_MARK_TAKEN, precise faults.
Each of these forms completes with its own effect under the conditions stated: edNop, phaseMarkTaken, gangHalt, ccResume, ccStep, ccHaltReq,
ccCntClr, ccSyncWrite. -/
def Obligations.CoresHaltAndResume : Prop :=
  ∀ (s t : State) (b : Fin 24) (i : Fin 256) (v w : Nat) (host : Option Bytes) (spec : List (Bool × Nat)) (miss : Bool), (s.bench b).out = false → s.canonical = true →
    let x := s.core b
    let ready : Prop := x.st = 2 ∧ x.claim = none ∧ x.due = 0 ∧ s.rbit (R.CC_BRK_CFG b) 2 = false
    (ready → x.pc % 4 = 0 → s.fetch b x.pc = (t, .inr w) → Ed.decode w = none → (t.core b).pc = x.pc → t.canonical = true →
      ∃ u, exec (.edNop b) s = .next u ∧ (u.core b).st = 3 ∧ (u.core b).cause = 1 ∧ (u.core b).g = (t.core b).g ∧ (u.core b).pc = x.pc
        ∧ u.rfld (R.CC_FAULT b) 31 28 = 9 ∧ u.rn (R.CC_FAULT_PC b) = x.pc % 2 ^ 64 ∧ u.mem = t.mem)
    ∧ (ready → x.pc % 4 ≠ 0 → ∃ u, exec (.edNop b) s = .next u ∧ (u.core b).st = 3 ∧ (u.core b).cause = 1 ∧ u.rfld (R.CC_FAULT b) 31 28 = 10
        ∧ u.rn (R.CC_FAULT_ADDR b) = x.pc % 2 ^ 64 ∧ u.mem = s.mem)
    ∧ (x.st = 3 → ∃ u, exec (.ccResume b) s = .next u ∧ u.core b = { x with st := 2, cause := 0, due := 0 } ∧ u.rbit (R.CC_FAULT b) 31 = false ∧ u.mem = s.mem ∧ u.benches = s.benches)
    ∧ (x.st ≠ 3 → exec (.ccResume b) s = .next s ∧ exec (.ccStep b host spec miss) s = .next s)
    ∧ (x.st = 2 → x.mid = true → exec (.ccHaltReq b) s = .next (s.modCore b (fun y => { y with due := 4 })))
    ∧ (x.st = 2 → x.mid = false → ∃ u, exec (.ccHaltReq b) s = .next u ∧ u.core b = { x with st := 3, cause := 4, due := 0, stepping := false, why := 0, claim := none, io := .none, lines := [] } ∧ u.mem = s.mem ∧ u.regs = s.regs)
    ∧ (x.st ≠ 2 → exec (.ccHaltReq b) s = .next s)
    ∧ (x.st = 2 → x.due ≠ 0 → x.mid = false → ∃ u, exec (.gangHalt b) s = .next u ∧ u.core b = { x with st := 3, cause := x.due, due := 0, stepping := false, why := 0, claim := none, io := .none, lines := [] } ∧ u.mem = s.mem ∧ u.regs = s.regs)
    ∧ ((x.st ≠ 2 ∨ x.due = 0 ∨ x.mid = true) → exec (.gangHalt b) s = .next s)
    ∧ (x.st = 3 → (s.modCore b (fun y => { y with st := 2, cause := 0, stepping := true, due := 0 })).fetches b (.sys 7 0 0) t → (t.core b).stepping = true → (t.core b).st = 2 →
        ∃ u, exec (.ccStep b host spec miss) s = .next u ∧ (u.core b).st = 3 ∧ (u.core b).cause = 5 ∧ u.mem = t.mem)
    ∧ (∃ u, exec (.ccCntClr b) s = .next u ∧ (∀ k : Fin 16, u.rn (R.CC_STALL b k) = 0) ∧ (∀ k : Fin 64, u.rn (R.CC_QCOUNT b k) = 0) ∧ u.rn (R.CC_MISPREDICT b) = 0 ∧ u.cores = s.cores ∧ u.mem = s.mem)
    ∧ exec (.ccSyncWrite b i v) s = .next (s.setSync i v)
    ∧ (x.marks = [] → exec (.phaseMarkTaken b) s = .next s)
    ∧ (∀ mk rest, x.marks = mk :: rest →
        (mk.need.all s.dispatched = false → exec (.phaseMarkTaken b) s = .next s)
        ∧ (mk.need.all s.dispatched = true → s.rbit R.GH_PHASE_CFG 31 = false → ∃ u, exec (.phaseMarkTaken b) s = .next u ∧ (u.core b).marks = rest ∧ u.mem = s.mem ∧ u.regs = s.regs)
        ∧ (mk.need.all s.dispatched = true → s.rbit R.GH_PHASE_CFG 31 = true → ∃ u, exec (.phaseMarkTaken b) s = .next u ∧ (u.core b).marks = rest
            ∧ u.rn R.GH_PHASE_SEQ = (s.rn R.GH_PHASE_SEQ + 1) % 2 ^ 32
            ∧ (let at_ := s.rfld R.GH_PHASE_BASE 47 6 * 64 + 192 * (s.rn R.GH_PHASE_SEQ % 2 ^ s.rfld R.GH_PHASE_CFG 4 0)
               inLocal at_ 192 = true → u.mem = (s.write at_ (phaseBytes mk b (s.rn R.GH_PHASE_SEQ) ((s.gate.caps[b]).getD { first := true, vals := List.replicate 40 0, time := 0 })
                 (s.capture b false))).mem)))

/-- R318 to R322, R330: LK_ENABLE, TRAIN_COMPLETE, TRAIN_TIMEOUT, TRAIN_RETRY, IDENT_FRAME, LK_ADMIT, ADMIT, REVOKE, HEARTBEAT_FLIT, HEARTBEAT_TIMER,
LANE_ERROR, LK_RETRAIN, RETRAIN_COMPLETE, RETRAIN_TIMEOUT, LK_CNT_CLR.
Each of these forms completes with its own effect under the conditions stated: heartbeatFlit, admitLink, revoke, lkEnable, trainComplete,
trainTimeout, trainRetry, identFrame, laneError, retrainComplete, retrainTimeout, lkRetrain, lkCntClr, lkAdmit, heartbeatTimer. -/
def Obligations.PortStates : Prop :=
  ∀ (s : State) (p : Fin 16) (w : Wire) (v lanes dev port nonce : Nat) (ser : List Nat), s.canonical = true → (s.decode p w).2 = true →
    let x := s.port p
    let to_ (i : Instr) (st : PortSt) : Prop := ∃ t, exec i s = .next t ∧ (t.port p).st = st ∧ t.mem = s.mem ∧ t.cores = s.cores ∧ (∀ q, q ≠ p → (t.port q).st = (s.port q).st)
    (x.st = .down → to_ (.lkEnable p true) .train ∧ (s.rbit (R.LK_CTRL p) 0 = true → to_ (.trainRetry p) .train))
    ∧ (x.st ≠ .down → exec (.trainRetry p) s = .next s ∧ exec (.lkEnable p true) s = .next (s.setFld (R.LK_CTRL p) 0 0 1))
    ∧ (x.st = .train → widthOf lanes ≠ 0 → ∃ t, exec (.trainComplete p lanes) s = .next t ∧ (t.port p).st = .ident ∧ (t.port p).width = widthOf lanes ∧ (t.port p).lanes = lanes % 16
        ∧ (t.port p).nonce = (Config.freeWord s.freeCtr).toNat ∧ Out.ident p s.straps (t.port p).nonce ∈ t.out ∧ t.mem = s.mem)
    ∧ ((x.st ≠ .train ∨ widthOf lanes = 0) → exec (.trainComplete p lanes) s = .next s)
    ∧ (x.st = .train → to_ (.trainTimeout p) .down) ∧ (x.st ≠ .train → exec (.trainTimeout p) s = .next s)
    ∧ (x.st = .ident → s.wired p s.straps (port % 16) (dev % 65536) = true → to_ (.identFrame p dev port nonce) .quarantine)
    ∧ (x.st = .ident → s.wired p s.straps (port % 16) (dev % 65536) = false → to_ (.identFrame p dev port nonce) .ident)
    ∧ (x.st ≠ .ident → exec (.identFrame p dev port nonce) s = .next s)
    ∧ (v % 2 ^ 64 = 0 → x.st = .retrain → ∃ t, exec (.lkAdmit p v) s = .next t ∧ t.ports = s.ports.set p
        { x with prev := .quarantine, qcause := 3, localGrant := false, remoteGrant := false, later := [{ kind := 5 }] } ∧ t.mem = s.mem)
    ∧ (∀ i, i < 4 → ((s.lanesLost p lanes ser).testBit i = true ↔ lanes.testBit i = true ∨ s.rfld (R.LK_CFG p) 15 0 < ser.getD i 0))
    ∧ (x.live = true → to_ (.lkAdmit p 0) .quarantine
        ∧ (v % 2 ^ 64 ≠ 0 → v % 2 ^ 64 ≠ s.rn (R.LK_NONCE p) → exec (.lkAdmit p v) s = .next s)
        ∧ (v % 2 ^ 64 ≠ 0 → v % 2 ^ 64 = s.rn (R.LK_NONCE p) → s.mismatch p = true → to_ (.lkAdmit p v) .quarantine)
        ∧ (v % 2 ^ 64 ≠ 0 → v % 2 ^ 64 = s.rn (R.LK_NONCE p) → s.mismatch p = false → x.st = .quarantine → x.wait = [] → to_ (.lkAdmit p v) (if x.remoteGrant = true then .admitted else .quarantine))
        ∧ (w.kind = 5 → x.wait = [] → to_ (.revoke p w) .quarantine)
        ∧ (w.kind = 4 → leAt w.area 0 8 = x.nonce → x.st = .quarantine → x.wait = [] → to_ (.admitLink p w) (if x.localGrant = true then .admitted else .quarantine))
        ∧ (w.kind = 4 → leAt w.area 0 8 ≠ x.nonce → exec (.admitLink p w) s = .next ((s.decode p w).1.rxLink p w))
        ∧ (∃ t f, exec (.heartbeatTimer p) s = .next t ∧ t.out = s.out ++ [.flit p f] ∧ f.kind = 2
            ∧ f.area = leBytes 2 (if s.member = true then s.dev else 0xFFFF) ++ leBytes 8 (s.rn R.LK_EPOCH) ++ leBytes 8 (s.rn R.LK_DIGEST)
                ++ leBytes 8 (s.rn R.LK_STAGED_EPOCH) ++ leBytes 8 (s.rn R.LK_STAGED_DIGEST) ∧ t.mem = s.mem)
        ∧ (w.kind = 2 → x.wait = [] → x.exch = false → ∃ t, exec (.heartbeatFlit p w) s = .next t ∧ t.rn (R.LK_HB_EPOCH p) = leAt w.area 2 8 ∧ t.rn (R.LK_HB_DIGEST p) = leAt w.area 10 8
            ∧ t.mem = s.mem
            ∧ (t.port p).st = (if x.st = .admitted ∧ s.hbMatch (leAt w.area 2 8, leAt w.area 10 8) (leAt w.area 18 8, leAt w.area 26 8) = false then .quarantine else x.st))
        ∧ (x.lanes &&& (15 - s.lanesLost p lanes ser) ≠ x.lanes → to_ (.laneError p lanes ser) .retrain)
        ∧ (x.lanes &&& (15 - s.lanesLost p lanes ser) = x.lanes → exec (.laneError p lanes ser) s = .next s) ∧ to_ (.lkRetrain p) .retrain)
    ∧ (x.live = false → exec (.heartbeatTimer p) s = .next s ∧ exec (.heartbeatFlit p w) s = .next s ∧ exec (.lkRetrain p) s = .next s ∧ (x.st ≠ .retrain → exec (.lkAdmit p v) s = .next s)
        ∧ exec (.revoke p w) s = .next s ∧ exec (.admitLink p w) s = .next s)
    ∧ (x.st = .retrain → x.wide = false → min x.width (widthOf (x.lanes &&& lanes)) ≠ 0 → x.nak = none → x.wait = [] → x.later = [] → ∃ t, exec (.retrainComplete p lanes) s = .next t
        ∧ (t.port p).st = x.prev ∧ (t.port p).width ≤ x.width ∧ (t.port p).lanes = x.lanes &&& lanes ∧ t.mem = s.mem)
    ∧ (x.st ≠ .retrain → exec (.retrainComplete p lanes) s = .next s ∧ exec (.retrainTimeout p) s = .next s)
    ∧ (x.st = .retrain → to_ (.retrainTimeout p) .down)
    ∧ (∃ t, exec (.lkCntClr p) s = .next t ∧ (∀ i : Fin 8, t.rn (R.LK_COUNT p i) = 0) ∧ (p = 0 → ∀ i : Fin 5, t.rn (R.LK_RCOUNT i) = 0) ∧ t.ports = s.ports ∧ t.mem = s.mem)

/-- R307 to R318, R329: IDLE_FLIT, DATA_FLIT, HEARTBEAT_FLIT, ADMIT and REVOKE that the decoder fails, NAK, ESCAPE_WAIT_EXPIRY, E2E_ACK, E2E_TIMEOUT, E2E_ACK_TIMER.
Each of these forms completes with its own effect under the conditions stated: idleFlit, dataFlit, escapeWaitExpiry, nak, e2eAck, e2eTimeout,
e2eAckTimer. -/
def Obligations.LinkFlitsInOrder : Prop :=
  ∀ (s : State) (p : Fin 16) (w : Wire) (f : Flit), s.canonical = true →
    let x := s.port p
    let r := s.decode p w
    let y := r.1.port p
    (x.live = true →
      (w.errs ≤ 15 → x.cwBad = false → r.2 = true)
      ∧ (15 < w.errs → (codewordIn x.rxFlits).isSome = true → r.2 = false ∧ r.1.rn (R.LK_COUNT p 1) = (s.rn (R.LK_COUNT p 1) + 1) % 2 ^ 64)
      ∧ (r.2 = false → (w.kind = 0 → exec (.idleFlit p w) s = .next (r.1.crcBad p w)) ∧ (∀ a, exec (.dataFlit p w a) s = .next (r.1.crcBad p w))
        ∧ (w.kind = 2 → exec (.heartbeatFlit p w) s = .next (r.1.crcBad p w)) ∧ (w.kind = 3 → exec (.nak p w) s = .next (r.1.crcBad p w))
        ∧ (w.kind = 4 → exec (.admitLink p w) s = .next (r.1.crcBad p w)) ∧ (w.kind = 5 → exec (.revoke p w) s = .next (r.1.crcBad p w)))
      ∧ (∃ g l, (r.1.crcBad p w).out = s.out ++ l ++ [.flit p g] ∧ g.kind = 3 ∧ g.lseq = x.rxSeq ∧ (r.1.crcBad p w).inbox = s.inbox ∧ ((r.1.crcBad p w).port p).rxSeq = x.rxSeq
          ∧ (r.1.crcBad p w).rn (R.LK_COUNT p 2) = (s.rn (R.LK_COUNT p 2) + 1) % 2 ^ 64)
      ∧ (r.2 = true →
        (w.kind = 0 → x.wait = [] → ∃ t, exec (.idleFlit p w) s = .next t
          ∧ t.port p = { y with replay := (if w.ackv = true then ackReplay x.replay w.ack else x.replay), credits := x.credits.set w.crvc (x.credits.getD w.crvc 0 + w.crn) }
          ∧ t.inbox = s.inbox ∧ t.out = s.out ∧ t.mem = s.mem)
        ∧ exec (.dataFlit p w .stomped) s = .next (r.1.addReg (R.LK_COUNT p 4) 1)
        ∧ exec (.dataFlit p w .crcFail) s = .next (r.1.crcBad p w)
        ∧ (w.kind = 1 → w.data = some f → x.wait = [] →
          (w.lseq ≠ x.rxSeq → ∃ t, exec (.dataFlit p w .good) s = .next t ∧ t.inbox = s.inbox ∧ (t.port p).rxSeq = x.rxSeq ∧ t.mem = s.mem ∧ (x.discard = true → t.out = s.out))
          ∧ (w.lseq = x.rxSeq → x.room.getD w.vc 0 = 0 → ∃ t, exec (.dataFlit p w .good) s = .next t ∧ t.inbox = s.inbox ∧ (t.port p).st = .quarantine ∧ (t.port p).qcause = 3)
          ∧ (w.lseq = x.rxSeq → x.room.getD w.vc 0 ≠ 0 → x.takes w.vc = false → ∃ t, exec (.dataFlit p w .good) s = .next t ∧ t.inbox = s.inbox ∧ (t.port p).rxSeq = (x.rxSeq + 1) % 4096)
          ∧ (w.lseq = x.rxSeq → x.room.getD w.vc 0 ≠ 0 → x.takes w.vc = true → typeKnown f.typ = true → f.dst = s.dev → f.e2e = false → ∃ t, exec (.dataFlit p w .good) s = .next t
              ∧ t.inbox = s.inbox ++ [(p.val, f)] ∧ (t.port p).rxSeq = (x.rxSeq + 1) % 4096 ∧ t.mem = s.mem)
          ∧ (w.lseq = x.rxSeq → x.room.getD w.vc 0 ≠ 0 → x.takes w.vc = true → typeKnown f.typ = false → ∃ t, exec (.dataFlit p w .good) s = .next t ∧ t.inbox = s.inbox
              ∧ t.rn (R.LK_RCOUNT 4) = (s.rn (R.LK_RCOUNT 4) + 1) % 2 ^ 64 ∧ (t.port p).rxSeq = (x.rxSeq + 1) % 4096)
          ∧ (w.lseq = x.rxSeq → x.room.getD w.vc 0 ≠ 0 →
              (x.takes w.vc = true → f.dst = s.dev → f.typ = 2 → f.e2e = false → ∃ t, exec (.dataFlit p w .spoiled) s = .next t
                ∧ t.inbox = s.inbox ++ [(p.val, { f with payload := f.payload.take 193 ++ [f.payload.getD 193 0 ||| 1] })] ∧ (t.port p).rxSeq = (x.rxSeq + 1) % 4096)
              ∧ ((f.dst ≠ s.dev ∨ f.typ ≠ 2) → ∃ t, exec (.dataFlit p w .spoiled) s = .next t ∧ t.inbox = s.inbox ∧ (t.port p).rxSeq = (x.rxSeq + 1) % 4096
                ∧ t.rn (R.LK_COUNT p 4) = (s.rn (R.LK_COUNT p 4) + 1) % 2 ^ 64)))
        ∧ (∀ i, w.kind = 3 → x.wait = [] → w.ackv = false → x.replay.findIdx? (fun e => e.1 == w.lseq) = some i → ∃ t, exec (.nak p w) s = .next t
            ∧ (t.port p).replay.map (fun e => (e.1, e.2.1)) = x.replay.map (fun e => (e.1, e.2.1)) ∧ s.out.length + (x.replay.length - i) ≤ t.out.length ∧ t.inbox = s.inbox ∧ t.mem = s.mem))
      ∧ (w.kind ≠ 3 → exec (.nak p w) s = .next s))
    ∧ (x.live = false → exec (.idleFlit p w) s = .next s ∧ ∀ a, exec (.dataFlit p w a) s = .next s)
    ∧ (∀ vc g, x.wait.find? (fun y => y.vc == vc) = some g →
        let took : State := s.modPort p (fun y => { y with wait := y.wait.erase g })
        (x.carries vc = true → x.credits.getD vc 0 ≠ 0 → exec (.escapeWaitExpiry p vc) s = .next s)
        ∧ ((x.carries vc = false ∨ x.credits.getD vc 0 = 0) →
          (isWork p = true → (x.carries vc = true ∨ x.st = .retrain ∧ (x.prev = .admitted ∨ vc = 7)) → exec (.escapeWaitExpiry p vc) s = .next s)
          ∧ (isWork p = true → x.carries vc = false → (x.st ≠ .retrain ∨ x.prev ≠ .admitted ∧ vc ≠ 7) → exec (.escapeWaitExpiry p vc) s = .next ((took.routeCount 0 1).freeBuf g.from?))
          ∧ (isWork p = false → s.rbit R.LK_ESC 16 = false → exec (.escapeWaitExpiry p vc) s = .next s)
          ∧ (isWork p = false → s.rbit R.LK_ESC 16 = true → g.flit.esc < 7 → ∀ e, s.escapePort = some e →
              exec (.escapeWaitExpiry p vc) s = .next ((took.routeCount 1 1).enqueue e { g with need := needCredits (g.from?.map (·.1)) e, flit := { g.flit with esc := g.flit.esc + 1 } }))
          ∧ (isWork p = false → s.rbit R.LK_ESC 16 = true → g.flit.esc < 7 → s.escapePort = none → exec (.escapeWaitExpiry p vc) s = .next s)
          ∧ (isWork p = false → s.rbit R.LK_ESC 16 = true → 7 ≤ g.flit.esc → g.flit.typ ≠ 1 → g.flit.typ ≠ 3 → exec (.escapeWaitExpiry p vc) s = .next ((took.unreachable g.flit).freeBuf g.from?))
          ∧ (isWork p = false → s.rbit R.LK_ESC 16 = true → 7 ≤ g.flit.esc → (g.flit.typ = 1 ∨ g.flit.typ = 3) →
              let gone := (took.unreachable g.flit).freeBuf g.from?
              exec (.escapeWaitExpiry p vc) s = .next (gone.inject { src := gone.dev, dst := g.flit.src, typ := 5, id := g.flit.id, payload := [2] }).1)))
    ∧ ((∀ vc, x.wait.find? (fun y => y.vc == vc) = none → exec (.escapeWaitExpiry p vc) s = .next s))
    ∧ (∀ e rest, s.inbox = e :: rest → e.2.typ = 0x21 → (s.e2eOf e.2.src).hold = [] → ∃ t, exec .e2eAck s = .next t ∧ t.inbox = rest ∧ t.mem = s.mem ∧ t.out = s.out
        ∧ (∀ n, n ∈ (t.e2eOf e.2.src).unacked ↔ n ∈ (s.e2eOf e.2.src).unacked ∧
            let up := (leAt e.2.payload 0 4 + 2 ^ 32 - n.1.pseq) % 2 ^ 32
            let past := (n.1.pseq + 2 ^ 32 - 1 - leAt e.2.payload 0 4) % 2 ^ 32
            ¬(up < 2 ^ 31 ∨ (past < 256 ∧ (leAt e.2.payload (4 + past / 8) 1).testBit (past % 8) = true))))
    ∧ (∀ dst pseq f n a, (s.e2eOf dst).unacked.find? (fun e => e.1.pseq == pseq) = some (f, n, a) →
        let less : State := s.setE2e { s.e2eOf dst with unacked := (s.e2eOf dst).unacked.filter (fun e => e.1.pseq != pseq) }
        (n < s.rfld R.LK_E2E 18 16 → s.routeAlts (devT dst) ≠ [] → exec (.e2eTimeout dst pseq) s =
          .next (((s.setE2e { s.e2eOf dst with unacked := (s.e2eOf dst).unacked.map (fun e => if e.1.pseq = pseq then (s.viaAlt f (altAt (s.routeAlts (devT dst)) (a + 1)), n + 1, a + 1) else e) }).routeCount
            2 1).place (s.viaAlt f (altAt (s.routeAlts (devT dst)) (a + 1))) (injectVc f) none).1)
        ∧ (n < s.rfld R.LK_E2E 18 16 → s.routeAlts (devT dst) = [] → exec (.e2eTimeout dst pseq) s = .next ((less.noRoute f).e2ePump dst ((s.e2eOf dst).hold.length + 1)))
        ∧ (s.rfld R.LK_E2E 18 16 ≤ n → s.txns = [] → (s.e2eOf dst).hold = [] → exec (.e2eTimeout dst pseq) s = .next ((less.routeCount 3 1).ev 0x830 0xFF [])))
    ∧ (∀ src r, s.e2eRx.find? (fun r => r.src == src) = some r → (r.fresh = 0 → exec (.e2eAckTimer src) s = .next s)
        ∧ (r.fresh ≠ 0 → exec (.e2eAckTimer src) s = .next (s.sendE2eAck src)))

/-- R309, R317, R227: READ_REQ, READ_RSP, WRITE, WRITE_ACK, REFUSE, RSP_TIMEOUT, MGMT.
Each of these forms completes with its own effect under the conditions stated: readReq, readRsp, write, writeAck, refuse, mgmt, rspTimeout. -/
def Obligations.PeerRequestsAnswered : Prop :=
  ∀ (s : State) (k : Nat) (f : Flit) (rest : List (Nat × Flit)), s.inbox = (k, f) :: rest →
    let s1 : State := { s with inbox := rest }
    let a := f.id % 2 ^ 48
    let reply (t : State) (typ : Nat) (pl : Bytes) : State := (t.inject { src := s.dev, dst := f.src, typ := typ, id := f.id, payload := pl }).1
    let n := leAt f.payload 0 1
    let m := leAt f.payload 192 1
    (f.typ = 1 →
      (s.member = true → peerRange s a n = true → (∀ b, s.read a (64 * n) = some b → exec .readReq s = .next (reply s1 2 (padTo 192 b ++ leBytes 1 n ++ [0])))
        ∧ (s.read a (64 * n) = none → exec .readReq s = .next (reply s1 2 (padTo 192 [] ++ leBytes 1 n ++ [1]))))
      ∧ (s.member = true → peerRange s a n = false → exec .readReq s = .next (reply s1 5 [1])) ∧ (s.member = false → exec .readReq s = .next (reply s1 5 [3])))
    ∧ (f.typ = 3 →
      (s.member = true → peerRange s a m = true → ∃ t, exec .write s = .next t ∧ t = (((s1.write a (f.payload.take (64 * m))).inject
          { src := (s1.write a (f.payload.take (64 * m))).dev, dst := f.src, typ := 4, id := f.id, payload := [] }).1))
      ∧ (s.member = true → peerRange s a m = false → exec .write s = .next (reply s1 5 [1])) ∧ (s.member = false → exec .write s = .next (reply s1 5 [3])))
    ∧ (f.typ = 2 → (s.txnOf f (some false) = none → exec .readRsp s = .next s1)
      ∧ (∀ x d j r, s.txnOf f (some false) = some x → x.who = .derrick d j → (s.dk d).runs.find? (fun r => r.id == j) = some r → (leAt f.payload 193 1).testBit 0 = false → exec .readRsp s =
          .next (({ s1 with txns := s.txns.erase x } : State).modDk d (fun y => { y with runs := y.runs.map (fun q => if q.id = r.id then
            { r with lines := r.lines ++ (List.range x.lines).map (fun i => (x.dev, x.addr / 64 + i, (f.payload.drop (64 * i)).take 64)) } else q) })))
      ∧ (∀ x b, s.txnOf f (some false) = some x → x.who = .core b → (leAt f.payload 193 1).testBit 0 = false → exec .readRsp s =
          .next (({ s1 with txns := s.txns.erase x } : State).modCore b (fun c => { c with io := .done, lines := c.lines ++ (List.range x.lines).map (fun i => (x.dev, x.addr / 64 + i, (f.payload.drop (64 * i)).take 64)) })))
      ∧ (∀ x b, s.txnOf f (some false) = some x → x.who = .core b → (leAt f.payload 193 1).testBit 0 = true → exec .readRsp s =
          .next (({ s1 with txns := s.txns.erase x } : State).modCore b (fun c => { c with io := .done, lines := c.lines ++ (List.range x.lines).map (fun i => (x.dev, x.addr / 64 + i, [])) }))))
    ∧ (f.typ = 4 → (s.txnOf f (some true) = none → exec .writeAck s = .next s1)
      ∧ (∀ x b, s.txnOf f (some true) = some x → x.who = .core b → exec .writeAck s = .next (({ s1 with txns := s.txns.erase x } : State).modCore b (fun c => { c with io := .done })))
      ∧ (∀ x d j, s.txnOf f (some true) = some x → x.who = .derrick d j → exec .writeAck s = .next { s1 with txns := s.txns.erase x }))
    ∧ (f.typ = 5 → (s.txnOf f none = none → (leAt f.payload 0 1 ≠ 2 ∨ ∀ x ∈ s.txns, x.addr ≠ a) → exec .refuse s = .next s1)
      ∧ (∀ x b, (s.txnOf f none = some x ∨ s.txnOf f none = none ∧ leAt f.payload 0 1 = 2 ∧ s.txns.find? (fun x => x.addr == a) = some x) → x.who = .core b → exec .refuse s = .next (({ s1 with txns := s.txns.erase x } : State).modCore b (fun c => { c with io := .refused }))))
    ∧ (∀ i x b, s.txns[i]? = some x → x.who = .core b → exec (.rspTimeout i) s = .next (({ s with txns := s.txns.erase x } : State).modCore b (fun c => { c with io := .refused })))
    ∧ (∀ i, s.txns[i]? = none → exec (.rspTimeout i) s = .next s)
    ∧ (f.typ = 0x20 → f.mem = none → (leAt f.payload 0 2 = 1 → exec .mgmt s = .next { s1 with cmBox := s.cmBox ++ [CmMsg.ofBytes ((f.payload.drop 4).take 32)] })
      ∧ (leAt f.payload 0 2 ≠ 1 → exec .mgmt s = .next s1))
    ∧ (∀ e g, f.typ = 0x20 → f.mem = some (e, g) → exec .mgmt s = .next (memberIn s1 (Fin.ofNat 16 k) f.src g))
    ∧ (∀ (s : State) (p : Fin 16) (src n : Nat) (c : Bytes), src ≠ 0xFFFF → (∀ g, s.rfld (R.LK_PARTNER p) 15 0 = src → memberIn s p 0xFFFF g = memberIn s p src g) ∧ memberIn s p src (.probe n) = s.memSend src (.probeAck n) ∧ memberIn s p src (.query (n, n) (n, n)) = memberQuery s src
        ∧ memberIn s p src (.join none c) = joinMsg s (some p) 0 c ∧ memberIn s p src (.challenge c) = challengeMsg s p c ∧ memberIn s p src (.response c) = memberResponse s p c
        ∧ memberIn s p src (.suspect n) = suspectMsg s n ∧ memberIn s p src (.switch n) = switchMsg s src n ∧ memberIn s p src (.abort n) = abortMsg s src n)

/-- R322, R323: STAGE, STAGED, NOT_STAGED, STAGE_TIMEOUT, SWITCH, ABORT, and what a switch and an abort leave.
Each of these forms completes with its own effect under the conditions stated: stage, staged, notStaged, stageTimeout, switch, abort. -/
def Obligations.EpochChanges : Prop :=
  ∀ (s : State) (src e : Nat) (m : StageMsg), s.canonical = true → s.straps < 2 ^ 16 →
    let l := s.stagedMembers m
    let fits : Bool := (s.member || s.mb.joining) && (m.epoch == (if s.member then s.epoch + 1 else m.epoch)) && (recordDigest (s.stagedImage m) l m.epoch == m.digest)
    let kids := (s.childrenOf (s.treeLead m src) l).filter (· != src)
    let pair : State := ((s.setRn R.LK_STAGED_EPOCH m.epoch).setRn R.LK_STAGED_DIGEST (leAt m.digest 0 8)).modMb (fun b => { b with staged := some m, leading := false, await := kids, replyTo := some src })
    (fits = false → exec (.stage src m) s = .next (s.memSend src (.notStaged m.epoch)))
    ∧ (fits = true → kids = [] → exec (.stage src m) s = .next (pair.memSend src (.staged m.epoch)))
    ∧ (fits = true → kids ≠ [] → exec (.stage src m) s = .next (pair.memSendAll kids (.stage m)))
    ∧ (s.mb.staged = none → exec (.staged src e) s = .next s ∧ exec (.notStaged e) s = .next s ∧ exec (.switch src e) s = .next s ∧ exec (.abort src e) s = .next s ∧ exec .stageTimeout s = .next s)
    ∧ (s.mb.staged = some m →
      (m.epoch ≠ e → exec (.staged src e) s = .next s ∧ exec (.notStaged e) s = .next s ∧ exec (.switch src e) s = .next s ∧ exec (.abort src e) s = .next s)
      ∧ (m.epoch = e →
        let gone : State := s.modMb (fun b => { b with await := b.await.filter (· != src) })
        (s.mb.await.contains src = true → s.mb.await.filter (· != src) ≠ [] → exec (.staged src e) s = .next gone)
        ∧ (s.mb.await.contains src = true → s.mb.await.filter (· != src) = [] → s.mb.leading = false → ∀ p, s.mb.replyTo = some p →
            exec (.staged src e) s = .next (gone.memSend p (.staged e)))
        ∧ (s.mb.await.contains src = true → s.mb.await.filter (· != src) = [] → s.mb.leading = true → s.mb.nextImage = none → s.mb.nextAdd = [] → s.mb.nextRem = [] →
            exec (.staged src e) s = .next ((gone.switchTo m).memSendAll (gone.leadKids m) (.switch e)))
        ∧ (s.mb.leading = true → exec (.notStaged e) s = .next (((s.clearStaged).memSendAll (s.leadKids m) (.abort e)).stageRest) ∧ exec (.switch src e) s = .next s
            ∧ exec .stageTimeout s = .next (((s.clearStaged).memSendAll (s.leadKids m) (.abort e)).stageRest))
        ∧ (s.mb.leading = false → exec (.switch src e) s = .next ((s.switchTo m).memSendAll kids (.switch e)) ∧ exec .stageTimeout s = .next s
            ∧ (∀ p, s.mb.replyTo = some p → exec (.notStaged e) s = .next (s.memSend p (.notStaged e))))
        ∧ exec (.abort src e) s = .next ((s.clearStaged).memSendAll kids (.abort e))))
    ∧ (s.mb.newImage = none →
      ((s.switchTo m).epoch = m.epoch % 2 ^ 64 ∧ (s.switchTo m).rn R.LK_STAGED_EPOCH = 0 ∧ (s.switchTo m).rn R.LK_STAGED_DIGEST = 0 ∧ (s.switchTo m).mb.staged = none
        ∧ (s.switchTo m).member = l.contains s.straps ∧ (s.switchTo m).members = (if l.contains s.straps = true then l else []) ∧ (s.switchTo m).mem = s.mem)
      ∧ (s.clearStaged.epoch = s.epoch ∧ s.clearStaged.rn R.LK_STAGED_EPOCH = 0 ∧ s.clearStaged.rn R.LK_STAGED_DIGEST = 0 ∧ s.clearStaged.mb.staged = none
        ∧ s.clearStaged.members = s.members ∧ s.clearStaged.mem = s.mem))

/-- R322, R324, R326, R327, R386: PARTNER_LOST, SUSPECT, PROBE, PROBE_ACK, PROBE_TIMEOUT, MEMBER_QUERY, MEMBER_STATE, JOIN, JOIN_BATCH_EXPIRY, CHALLENGE,
MEMBER_RESPONSE, JOIN_RETRY, MEMBER_DIGEST, RUNNING_IMAGE_REQUEST.
Each of these forms completes with its own effect under the conditions stated: partnerLost, suspect, probe, probeAck, probeTimeout,
memberQuery, memberState, join, joinBatchExpiry, challenge, memberResponse, joinRetry, memberDigest, runningImageRequest. -/
def Obligations.SuspectsAndJoins : Prop :=
  ∀ (s : State) (p : Fin 16) (d n e : Nat) (h : Bool) (m : Option StageMsg) (dg sig : Bytes), s.canonical = true →
    let drop (t : State) : State := t.modMb (fun b => { b with joins := b.joins.filter (· != d), nextAdd := b.nextAdd.filter (· != d) })
    ((s.port p).live = false → exec (.partnerLost p) s = .next s)
    ∧ ((s.port p).live = true → ∃ t, exec (.partnerLost p) s = .next t ∧ (t.port p).st = .down ∧ t.mem = s.mem ∧ t.members = s.members ∧ t.epoch = s.epoch)
    ∧ ((s.member = false ∨ s.joined d = false ∨ d = s.dev ∨ s.mb.probes.any (fun x => x.1 == d) = true) → exec (.suspect d) s = .next (drop s))
    ∧ (s.member = true → s.joined d = true → d ≠ s.dev → s.mb.probes.any (fun x => x.1 == d) = false → exec (.suspect d) s = .next (((drop s).draw.modMb (fun b =>
        { b with probes := b.probes ++ [(d, (Config.freeWord s.freeCtr).toNat)] })).memSend d (.probe (Config.freeWord s.freeCtr).toNat)))
    ∧ exec (.probe d n) s = .next (s.memSend d (.probeAck n))
    ∧ exec (.probeAck d n) s = .next (s.modMb (fun b => { b with probes := b.probes.filter (· != (d, n)) }))
    ∧ (s.mb.probes = [] → exec .probeTimeout s = .next s)
    ∧ (∀ rest, s.mb.probes = (d, n) :: rest →
        (s.joined d = false → exec .probeTimeout s = .next (s.modMb (fun b => { b with probes := rest })))
        ∧ (s.joined d = true → s.leader ≠ some d → s.isLeader = false → exec .probeTimeout s = .next (s.modMb (fun b =>
            { b with probes := rest, nextRem := b.nextRem ++ (if b.nextRem.contains d then [] else [d]) })))
        ∧ (s.joined d = true → s.leader = some d →
            let s2 : State := s.modMb (fun b => { b with probes := rest, suspects := b.suspects ++ [d] })
            let others := s2.allMembers.filter (fun x => x != s.dev && !s2.mb.suspects.contains x)
            (s2.isLeader = false → exec .probeTimeout s = .next s2)
            ∧ (s2.isLeader = true → exec .probeTimeout s = .next (((s2.modMb (fun b => { b with query := some [] })).memSendAll others
                (.query (s.epoch, s.rn R.LK_DIGEST) (s.rn R.LK_STAGED_EPOCH, s.rn R.LK_STAGED_DIGEST))).leadConclude))))
    ∧ exec (.memberQuery d) s = .next ((s.modMb (fun b => { b with suspects := s.allMembers.filter (fun x => decide (x < d) && x != s.dev) })).memSend d (.state (s.epoch, s.rn R.LK_DIGEST) (s.rn R.LK_STAGED_EPOCH, s.rn R.LK_STAGED_DIGEST)
        (match s.mb.staged with | some m => some m | none => s.mb.lastStage)))
    ∧ (s.mb.query = none → exec (.memberState d e h m) s = .next s)
    ∧ (∀ rs o, s.mb.query = some rs → o ∈ s.allMembers → o ≠ s.dev → s.mb.suspects.contains o = false → o ≠ d → (∀ r ∈ rs, r.1 ≠ o) → exec (.memberState d e h m) s =
        .next (s.modMb (fun b => { b with query := some (rs.filter (fun r => r.1 != d) ++ [(d, e, h, m)]) })))
    ∧ ((s.member = false ∨ (s.port p).live = false) → exec (.join (some p) d dg) s = .next s)
    ∧ (s.member = true → (s.port p).live = true → exec (.join (some p) d dg) s = .next ((({ s with freeCtr := s.freeCtr + 48 } : State).modMb (fun b =>
        { b with chal := b.chal.filter (fun e => e.1 != p.val) ++ [(p.val, freeBytes s.freeCtr 48, dg)] })).memSendPort p (.challenge (freeBytes s.freeCtr 48))))
    ∧ (s.isLeader = true → s.mb.joins.contains d = false → exec (.join none d dg) s = .next (s.modMb (fun b => { b with joins := b.joins ++ [d] })))
    ∧ ((s.isLeader = false ∨ s.mb.joins.contains d = true) → exec (.join none d dg) s = .next s)
    ∧ ((s.isLeader = false ∨ s.mb.joins = []) → exec .joinBatchExpiry s = .next s)
    ∧ (s.isLeader = true → s.mb.joins ≠ [] → s.mb.staged ≠ none → exec .joinBatchExpiry s = .next (s.modMb (fun b =>
        { b with nextAdd := b.nextAdd ++ b.joins.filter (fun d => !b.nextAdd.contains d), joins := [] })))
    ∧ (s.mb.joining = true → s.member = false → s.rfld R.FZ_LIFECYCLE 1 0 = 1 → exec (.challenge p dg) s =
        .next (s.memSendPort p (.response ((padTo 96 (Config.identitySign (sha384 (dg ++ leBytes 2 s.straps ++ leBytes 2 (s.rfld (R.LK_PARTNER p) 15 0) ++ sha384 s.mb.image)))).take 96))))
    ∧ ((s.mb.joining = false ∨ s.member = true ∨ s.rfld R.FZ_LIFECYCLE 1 0 ≠ 1) → exec (.challenge p dg) s = .next s)
    ∧ ((s.mb.chal.find? (fun x => x.1 == p.val) = none ∨ s.member = false) → exec (.memberResponse p sig) s = .next s)
    ∧ (∀ c chain, s.member = true → s.mb.chal.find? (fun x => x.1 == p.val) = some (p.val, c, chain) →
        let s1 : State := s.modMb (fun b => { b with chal := b.chal.filter (fun e => e.1 != p.val) })
        let j := s.rfld (R.LK_PARTNER p) 15 0
        let wired : Bool := (s.port p).live && (s.port p).ident
        let held : Bool := s.allMembers.contains j
        let no (k : Nat) : State := (s1.ev 0x820 p (leBytes 1 k)).memSendPort p (.refused k)
        let good : Bool := Config.chainEnds ((s.mb.image.drop 32).take 48) chain
        let valid : Bool := Config.signatureValid chain (sha384 (c ++ leBytes 2 j ++ leBytes 2 s.dev ++ sha384 s.mb.image)) sig
        (good = false → exec (.memberResponse p sig) s = .next (no 1))
        ∧ (good = true → valid = false → exec (.memberResponse p sig) s = .next (no 2))
        ∧ (good = true → valid = true → held = true → exec (.memberResponse p sig) s = .next (no 4))
        ∧ (good = true → valid = true → held = false → wired = false → exec (.memberResponse p sig) s = .next (no 5))
        ∧ (good = true → valid = true → held = false → wired = true → ∀ o, s.leader = some o → o ≠ s.dev → exec (.memberResponse p sig) s = .next (s1.memSend o (.join (some j) chain))))
    ∧ (s.mb.joining = true → s.member = false → s.rfld R.FZ_LIFECYCLE 1 0 ≠ 2 → ∀ q, (List.finRange 16).find? (fun p => (s.port p).st == .quarantine) = some q →
        exec .joinRetry s = .next (s.memSendPort q (.join none s.certChain)))
    ∧ ((s.mb.joining = false ∨ s.member = true ∨ s.rfld R.FZ_LIFECYCLE 1 0 = 2) → exec .joinRetry s = .next s)
    ∧ ((s.port p).st = .quarantine → (s.port p).exch = true → ((s.port p).qcause = 2 ∨ (s.port p).qcause = 3) → dg = s.mb.digest → s.rn (R.LK_HB_EPOCH p) = s.epoch → s.member = true →
        s.mismatch p = false → s.rn (R.LK_NONCE p) ≠ 0 → (s.port p).wait = [] →
        ∃ t, exec (.memberDigest p dg) s = .next t ∧ (t.port p).localGrant = true ∧ (t.port p).qcause = 0
          ∧ (t.port p).st = (if (s.port p).remoteGrant = true then .admitted else .quarantine) ∧ t.mem = s.mem)
    ∧ ((s.port p).st = .quarantine → (s.port p).exch = false → dg ≠ s.mb.digest → exec (.memberDigest p dg) s =
        .next (((s.modPort p (fun y => { y with peerDig := some dg })).modPort p (fun y => { y with exch := true })).memSendPort p (.digest s.mb.digest)))
    ∧ ((s.port p).st ≠ .quarantine → exec (.memberDigest p dg) s = .next s)
    ∧ (s.allMembers.contains d = true → exec (.runningImageRequest d) s = .next (s.memSendParts d .image s.runImage))
    ∧ (s.allMembers.contains d = false → exec (.runningImageRequest d) s = .next s)

/-- R334, R337, R354, R358: CL_NOP, CL_SYNC_WAIT, CL_SYNC_SIGNAL, COLL, CL_RESUME, CL_SKIP, CL_CNT_CLR, CL_TALLY_SEL_WRITE, CL_TALLY_FIND, CL_TALLY_RETIRE,
TALLY_EXCHANGE_START, TPATIENCE_EXPIRY.
Each of these forms completes with its own effect under the conditions stated: clNop, clSyncWait, clSyncSignal, coll, tallyExchangeStart,
tpatienceExpiry, clResume, clSkip, clCntClr, clTallySelWrite, clTallyFind, clTallyRetire. -/
def Obligations.CollectiveQueueAndTally : Prop :=
  ∀ (s : State) (u : Fin 4) (c : Cmd) (v : Nat),
    let q := (s.coll u).q
    let pop : State := s.modColl u (fun x => { x with q := x.q.pop })
    let k := c.f 1 7 0
    ((s.coll u).wait = false →
      (q.ready 0x00 c = true → exec (.clNop u) s = .next pop)
      ∧ (q.ready 0x20 c = true → c.w 2 ≤ s.syncVal k → exec (.clSyncWait u) s = .next pop)
      ∧ (q.ready 0x20 c = true → s.syncVal k < c.w 2 → exec (.clSyncWait u) s = .next s)
      ∧ (q.ready 0x21 c = true → (c.b 1 8 = false ∨ ∀ r ∈ (s.coll u).runs, q.nextJob ≤ r.job) → exec (.clSyncSignal u) s = .next (pop.addSync k 1))
      ∧ (q.ready 0x21 c = true → c.b 1 8 = true → (∃ r ∈ (s.coll u).runs, r.job < q.nextJob) → exec (.clSyncSignal u) s = .next (s.modColl u (fun x => { x with q := x.q.pop.defer k })))
      ∧ (q.head? = some c → c.parOk = false → ∀ i ∈ [Instr.clNop u, .clSyncWait u, .clSyncSignal u, .coll u], exec i s = .next ((s.ev 0x902 u (leBytes 1 u)).collHalt u 2 0 c.tag))
      ∧ (q.head? = some c → c.parOk = true → c.op ∉ [0, 0x20, 0x21, 0x90] → ∀ i ∈ [Instr.clNop u, .clSyncWait u, .clSyncSignal u, .coll u],
          exec i s = .next ((s.ev 0x901 u (leBytes 3 c.tag ++ leBytes 1 1)).collHalt u 1 1 c.tag))
      ∧ (q.ready 0x90 c = true → 4 ≤ (s.coll u).runs.length → exec (.coll u) s = .next s)
      ∧ (q.ready 0x90 c = true → (s.coll u).runs.length < 4 →
        (∀ item, collItem s c = some item → exec (.coll u) s = .next ((s.ev 0x901 u (leBytes 3 c.tag ++ leBytes 1 item)).collHalt u 1 item c.tag))
        ∧ (collItem s c = none → s.tallyOf (Col.id c) = none → s.tallyFree = none → exec (.coll u) s = .next ((s.ev 0x915 u (leBytes 3 c.tag)).collHalt u 4 0 c.tag))
        ∧ (∀ i e, collItem s c = none → (s.tallyOf (Col.id c) = some (i, e) ∨ (s.tallyOf (Col.id c) = none ∧ s.tallyFree = some i ∧ e = { id := Col.id c })) →
          (Col.comp c = false → exec (.coll u) s = .next (collBegin (s.setTally i e) u c none))
          ∧ (Col.comp c = true → exec (.coll u) s = .next (((s.setTally i e).modColl u (fun x => { x with wait := true })).submitClaim (.coll u)
              (Col.strmStep (s.bytes (Col.aux c) 64)) (Col.strmRef (s.bytes (Col.aux c) 64)))))))
    ∧ ((s.coll u).wait = true → ∀ i ∈ [Instr.clNop u, .clSyncWait u, .clSyncSignal u, .coll u], exec i s = .next s)
    ∧ (q.cause ≠ 0 → exec (.clResume u) s = .next ((s.modColl u (fun x => { x with q := { x.q with cause := 0 } })).setFld (R.CL_FAULT u) 31 31 0))
    ∧ (q.cause = 0 → exec (.clResume u) s = .next s ∧ exec (.clSkip u) s = .next s)
    ∧ (∀ h rest, q.cause ≠ 0 → q.cmds = h :: rest → (h.op ≠ 0x90 → exec (.clSkip u) s = .next pop)
        ∧ (h.op = 0x90 → exec (.clSkip u) s = .next ((({ s with early := s.early.filter (fun f => f.id != Col.id h) } : State).modColl u (fun x => { x with q := x.q.pop })).addReg (R.CL_COUNT u 6)
            ((s.early.filter (fun f => f.id == Col.id h)).length))))
    ∧ (s.canonical = true → (∃ t, exec (.clCntClr u) s = .next t ∧ (∀ i : Fin 8, t.rn (R.CL_COUNT u i) = 0) ∧ t.colls = s.colls ∧ t.tally = s.tally ∧ t.mem = s.mem)
      ∧ (∀ i x, s.tally.find? (fun e => e.1 == v % 4096) = some (i, x) → ∃ t, exec (.clTallySelWrite v) s = .next t ∧ t.rn (R.CL_TALLY_VIEW 0) = x.id % 2 ^ 64
          ∧ t.rn (R.CL_TALLY_VIEW 1) = x.sent % 2 ^ 64 ∧ t.rn (R.CL_TALLY_VIEW 2) = x.recv % 2 ^ 64 ∧ t.rn (R.CL_TALLY_VIEW 3) = 1 ∧ t.tally = s.tally)
      ∧ (s.tally.find? (fun e => e.1 == v % 4096) = none → ∃ t, exec (.clTallySelWrite v) s = .next t ∧ (∀ i : Fin 4, t.rn (R.CL_TALLY_VIEW i) = 0) ∧ t.tally = s.tally)
      ∧ (∀ i x, s.tallyOf (v % 2 ^ 64) = some (i, x) → ∃ t, exec (.clTallyFind v) s = .next t ∧ t.rn (R.CL_TALLY_VIEW 1) = x.sent % 2 ^ 64 ∧ t.rn (R.CL_TALLY_VIEW 2) = x.recv % 2 ^ 64
          ∧ t.rn (R.CL_TALLY_VIEW 3) = 1 ∧ t.tally = s.tally)
      ∧ (s.tallyOf (v % 2 ^ 64) = none → ∃ t, exec (.clTallyFind v) s = .next t ∧ t.rn (R.CL_TALLY_VIEW 3) = 0 ∧ t.tally = s.tally))
    ∧ (∃ t, exec (.clTallyRetire v) s = .next t ∧ t = { s with tally := t.tally } ∧ ∀ e, e ∈ t.tally ↔ e ∈ s.tally ∧ v % 2 ^ 32 < e.2.id / 2 ^ 32)
    ∧ ((s.undecided = false ∨ s.cmState ≠ 1 ∨ s.cm.tx ≠ none ∨ ∃ d ∈ s.cm.ids, s.collUnit d ≠ none) → exec (.tallyExchangeStart none) s = .next s)
    ∧ (s.undecided = true → s.cmState = 1 → s.cm.tx = none → (∀ d ∈ s.cm.ids, s.collUnit d = none) →
        let own := (s.cm.ids.map s.tallyOf).map (fun e => match e with | some (_, t) => (t.sent + 2 ^ 64 - t.recv) % 2 ^ 64 | none => 0)
        let bad := (s.cm.ids.map s.tallyOf).any (fun e => match e with | some (_, t) => t.bad | none => false)
        let x : TallyX := { step := s.cmStep, tree := s.cmLive, own := own, bad := bad }
        let held := s.early.filter (fun f => f.id == exchangeId s.cmStep)
        let s1 : State := ({ s with early := s.early.filter (fun f => f.id != exchangeId s.cmStep) } : State).modCm (fun c => { c with tx := some x })
        (x.children s.dev ≠ [] → exec (.tallyExchangeStart none) s = .next (held.foldl tallyFlit s1))
        ∧ (x.children s.dev = [] → exec (.tallyExchangeStart none) s = .next (held.foldl tallyFlit (s1.tallySum x))))
    ∧ (∀ i, (s.tally.find? (fun e => e.1 == i) = none → exec (.tallyExchangeStart (some i)) s = exec (.tallyExchangeStart none) s)
        ∧ (∀ j e, s.tally.find? (fun e => e.1 == i) = some (j, e) → exec (.tallyExchangeStart (some i)) s
            = exec (.tallyExchangeStart none) ((s.setTally j { e with bad := true }).ev 0x917 0 (leBytes 8 e.id))))
    ∧ (s.cm.tx = none → exec .tpatienceExpiry s = .next s)
    ∧ (∀ x, s.cm.tx = some x → (x.sent = true → exec .tpatienceExpiry s = .next s) ∧ (x.sent = false → exec .tpatienceExpiry s = .next (s.tallySum x)))

/-- R338, R340, R347, R351, R353: COLL_FLIT, CHUNK_COMBINE, PATIENCE_EXPIRY, COLL_COMPLETE and the exact combination.
Each of these forms completes with its own effect under the conditions stated: collFlit, chunkCombine, patienceExpiry, collComplete. -/
def Obligations.CollectivesCombineAndComplete : Prop :=
  ∀ (s : State) (u : Fin 4) (id c k : Nat) (f : Flit) (r : CollRun) (x y : Part) (cmd : Cmd),
    let s1 : State := { s with inbox := s.inbox.erase (k, f) }
    let h := ChunkHdr.ofBytes f.payload
    (s.inbox.find? (fun e => e.2.typ == 0x10) = none → exec .collFlit s = .next s)
    ∧ (s.inbox.find? (fun e => e.2.typ == 0x10) = some (k, f) → isExchange f.id = true → exec .collFlit s = .next (tallyFlit s1 f))
    ∧ (s.inbox.find? (fun e => e.2.typ == 0x10) = some (k, f) → isExchange f.id = false →
      (s.collUnit f.id = none → s.ended.contains f.id = false → s.early.length < 512 → exec .collFlit s = .next { s1 with early := s.early ++ [f] })
      ∧ (s.collUnit f.id = none → s.ended.contains f.id = false → 512 ≤ s.early.length → exec .collFlit s = .next (s1.addReg (R.CL_COUNT 0 6) 1))
      ∧ (∀ w : Fin 4, (s.collUnit f.id = none ∧ s.ended.contains f.id = true ∧ w = 0) ∨ (s.collUnit f.id = some (w, r) ∧ r.closed = true) →
          (s.lateLog.contains f.id = true → exec .collFlit s = .next (s1.addReg (R.CL_COUNT w 5) 1))
          ∧ (s.lateLog.contains f.id = false → exec .collFlit s
              = .next { (s1.addReg (R.CL_COUNT w 5) 1).ev 0x914 w (leBytes 8 f.id) with lateLog := SSet.insert f.id s.lateLog }))
      ∧ (s.collUnit f.id = some (u, r) → r.closed = false → h.stage ≠ 4 → ∀ i, r.stages.findIdx? (fun z => z.1 == h.stage) = some i → (r.chunk h.chunk).attempt ≤ h.attempt →
          (r.chunk h.chunk).fin = false → (r.chunk h.chunk).stage ≤ i →
          let n := ((s1.tallyRecv f).collFlags u (if h.flags.testBit 1 = true then Cond.none else (flitVals h (f.payload.drop 32)).foldl (fun a v => a.or v.2) Cond.none)).noteRescaled
            u r h.chunk (h.flags.testBit 0)
          exec .collFlit s = .next (n.1.setColl u (n.2.setChunk h.chunk { n.2.chunk h.chunk with
            inn := (r.chunk h.chunk).inn ++ [(i, posOf r.terr f.src h.stage, partOfFlit r.cmd h (f.payload.drop 32))] }))))
    ∧ (Col.exact cmd = true → Col.comp cmd = false → x.raise = none → y.raise = none → x.vals.length = y.vals.length →
        (combineParts cmd x y).1.vals = (x.vals.zip y.vals).map (fun p => vadd p.1 p.2) ∧ (combineParts cmd x y).1.count = x.count + y.count
        ∧ (combineParts cmd x y).1.count = (combineParts cmd y x).1.count ∧ (combineParts cmd x y).1.nan = (combineParts cmd y x).1.nan
        ∧ (combineParts cmd x y).1.vals.map Val.toRat = (combineParts cmd y x).1.vals.map Val.toRat ∧ (combineParts cmd x y).2 = Cond.none)
    ∧ ((s.coll u).run? id = none → (∀ bad, exec (.chunkCombine u id c bad) s = .next s) ∧ exec (.patienceExpiry u id) s = .next s ∧ exec (.collComplete u id) s = .next s)
    ∧ ((s.coll u).run? id = some r →
      ((Col.reduces r.cmd = false ∨ (r.chunk c).fin = true) → ∀ bad, exec (.chunkCombine u id c bad) s = .next s)
      ∧ (∀ code n q p, r.stages[(r.chunk c).stage]? = some (code, n, q) → p ∈ r.sources c (r.chunk c).stage → s.awaited r (r.devAt s.straps (r.chunk c).stage p) = true →
          (∀ e ∈ (r.chunk c).inn, e.2.1 ≠ p) → exec (.chunkCombine u id c false) s = .next s)
      ∧ (∀ code n q own, Col.reduces r.cmd = true → Col.comp r.cmd = false → (r.chunk c).fin = false → (r.rangeAt (r.chunk c).stage).1 ≤ c → c < (r.rangeAt (r.chunk c).stage).2 →
          (r.chunk c).res = some own → r.stages[(r.chunk c).stage]? = some (code, n, q) →
          let w := r.chunk c
          let here := w.inn.filter (fun e => e.1 == w.stage && e.2.2.attempt == w.attempt)
          let empty := emptyPart r.cmd w.attempt (if Col.exact r.cmd = true then own.x else Col.xin r.cmd)
          let sum := r.sum w own false (here.map (·.2.2))
          let part := partOf (r.rangeAt w.stage).1 (r.rangeAt w.stage).2 n c
          let r1 : CollRun := { r.setChunk c { w with inn := w.inn.filter (fun e => e.1 != w.stage) } with nan := r.nan || sum.1.nan }
          let m := ((s.collFlags u Cond.none).collFlags u sum.2).noteRescaled u r1 c sum.1.rescaled
          let dst := r.devAt s.straps w.stage (if code = 0 then part else (q + 1) % n)
          (code = 0 → sum.1 = here.foldl (fun a e => (joinPart r.cmd a e.2.2).1) (combineParts r.cmd empty own).1)
          ∧ (code ≠ 0 → sum = combineParts r.cmd ((here.map (·.2.2)).headD empty) own)
          ∧ ((∀ p ∈ r.sources c w.stage, ∃ e ∈ here, e.2.1 = p) →
            (part = q → w.stage + 1 ≠ r.stages.length → exec (.chunkCombine u id c false) s
              = .next (m.1.setColl u (m.2.setChunk c { m.2.chunk c with stage := w.stage + 1, res := some sum.1 })))
            ∧ (part = q → w.stage + 1 = r.stages.length → exec (.chunkCombine u id c false) s = .next (finishChunk m.1 u m.2 c sum.1))
            ∧ (part ≠ q → exec (.chunkCombine u id c false) s = .next (((sendPart m.1 u m.2 c code dst sum.1 none false).collCount u 0 1).setColl u
                (m.2.setChunk c { m.2.chunk c with fin := true, raised := sum.1.raise.isSome })))))
      ∧ (∀ t, exec (.chunkCombine u id c false) (s.spoil (Col.inA r.cmd + 4 * (c * Col.ch r.cmd))) = .next t →
          exec (.chunkCombine u id c true) s = .next { t with bridge := { t.bridge with late := s.bridge.late } })
      ∧ (r.closed = true → exec (.patienceExpiry u id) s = .next s)
      ∧ (r.closed = false → ∃ waited all, waited ≤ all ∧ exec (.patienceExpiry u id) s = .next (missingInfo (((if waited = 0 then s else s.ev 0x911 u (leBytes 8 id ++ leBytes 4 waited)).addReg
            (R.CL_COUNT u 4) all).setColl u { r with closed := true, nClosed := r.nClosed + all }) r))
      ∧ (collDone s r = false → exec (.collComplete u id) s = .next s)
      ∧ (collDone s r = true → ∃ z, exec (.collComplete u id) s = .next z ∧ z.mem = ((closeAbsent s u r).1.write (Col.status r.cmd) (collRecord (closeAbsent s u r).1 (closeAbsent s u r).2)).mem
          ∧ (r.closed = true ∨ dataInputs (s.owedBy r).2 = 0 → closeAbsent s u r = (s, r))
          ∧ (z.coll u).run? id = none ∧ z.ended = SSet.insert id s.ended ∧ z.cores = s.cores))

/-- R373 to R376, R386 to R392, R402, R411, R415: the mailbox requests and MAILBOX_DONE.
Each of these forms completes with its own effect under the conditions stated: getInfo, powerSet, profileStore, mbReset, mbFence,
memberStatus, configStage, leave, rejoin, sensors, logRead, logFlush, logFlashRead, fwStage, fwStagePeer, fwActivate, fwConfirm, fwStatus,
attest, certs, certInstall, lifecycle, mailboxDone. -/
def Obligations.MailboxRequests : Prop :=
  ∀ (s0 : State) (m : Fin 16) (data : Bytes) (ok : Bool) (next : Nat),
    let s := s0.took m
    let h := s0.ghBytes (reqAt m) 8
    let op := leAt h 0 2
    let len := leAt h 2 2
    let o := s0.ghBytes (reqAt m + 8) len
    let a := leAt o 0 8
    let n := leAt o 8 4
    let rows : List (Nat × Nat × Instr) := [(0x1, 0, .getInfo m), (0x100, 2, .powerSet m), (0x101, 1, .profileStore m), (0x102, 1, .mbReset m), (0x103, 1, .mbFence m), (0x200, 0, .memberStatus m),
      (0x201, 12, .configStage m data ok), (0x202, 0, .leave m), (0x203, 0, .rejoin m), (0x300, 0, .sensors m), (0x400, 20, .logRead m), (0x401, 0, .logFlush m), (0x402, 8, .logFlashRead m),
      (0x500, 12, .fwStage m data ok), (0x501, 2, .fwStagePeer m ok), (0x502, 0, .fwActivate m), (0x503, 1, .fwConfirm m), (0x504, 0, .fwStatus m), (0x600, 48, .attest m), (0x601, 8, .certs m),
      (0x602, 12, .certInstall m data ok), (0x700, 8, .lifecycle m next ok)]
    let no (k : Nat) : Host.Outcome State Fault Refusal := .next (s.respond m k [])
    let ran (t : State) : Host.Outcome State Fault Refusal := .next (t.modBox m (fun b => { b with fw := true }))
    let yes (t : State) (res : Bytes) : Host.Outcome State Fault Refusal := .next (t.respond m 0 res)
    (∀ r ∈ rows, (s0.serving m = false ∨ op ≠ r.1) → exec r.2.2 s0 = .next s0)
    ∧ (s0.serving m = true →
      (∀ r ∈ rows, op = r.1 → len ≠ r.2.1 → exec r.2.2 s0 = no 2)
      ∧ (op = 0x1 → len = 0 → exec (.getInfo m) s0 = yes s (((s.report []).drop 56).take 160))
      ∧ (op = 0x100 → len = 2 → ((leAt o 0 2 < 600 ∨ s.clampCap < leAt o 0 2) → exec (.powerSet m) s0 = no 3)
          ∧ (600 ≤ leAt o 0 2 → leAt o 0 2 ≤ s.clampCap → exec (.powerSet m) s0 = yes (s.setClamp (leAt o 0 2) 2) []))
      ∧ (op = 0x101 → len = 1 → (3 < leAt o 0 1 → exec (.profileStore m) s0 = no 3) ∧ (leAt o 0 1 ≤ 3 → exec (.profileStore m) s0 = yes (s.modGate (fun g => { g with profile := some (leAt o 0 1) })) []))
      ∧ (op = 0x102 → len = 1 → (1 < leAt o 0 1 → exec (.mbReset m) s0 = no 3)
          ∧ (leAt o 0 1 ≤ 1 → exec (.mbReset m) s0 = .next ((s.respond m 0 []).modBox m (fun b => { b with held := 4 + leAt o 0 1 }))))
      ∧ (op = 0x103 → len = 1 → (23 < leAt o 0 1 → exec (.mbFence m) s0 = no 3) ∧ (leAt o 0 1 ≤ 23 → exec (.mbFence m) s0 = yes (s.fence (Fin.ofNat 24 (leAt o 0 1)) 6 []) []))
      ∧ (op = 0x200 → len = 0 → exec (.memberStatus m) s0 = yes s (leBytes 2 (if s.member = true then s.dev else 0xFFFF) ++ leBytes 2 s.straps ++ leBytes 2 (s.leader.getD 0xFFFF)
          ++ leBytes 4 s.allMembers.length ++ leBytes 8 s.epoch ++ leBytes 8 (s.rn R.LK_STAGED_EPOCH) ++ padTo 48 s.mb.digest))
      ∧ (op = 0x201 → len = 12 → (s.inRegion a n = false → exec (.configStage m data ok) s0 = no 8)
          ∧ (s.inRegion a n = true → s.changePending = true → exec (.configStage m data ok) s0 = no 5)
          ∧ (s.inRegion a n = true → s.changePending = false → s.member = false → exec (.configStage m data ok) s0 = no 10)
          ∧ (s.inRegion a n = true → s.changePending = false → s.member = true → (ok = false ∨ Img.sound (padTo n data) = false ∨ 2 ^ 20 < n) → exec (.configStage m data ok) s0 = .next ((s.dmaIn a n).respond m 6 []))
          ∧ (s.inRegion a n = true → s.changePending = false → s.member = true → ok = true → Img.sound (padTo n data) = true → n ≤ 2 ^ 20 → exec (.configStage m data ok) s0 = .next (((s.dmaIn a n).storeImage (padTo n data)).holdFor m 1)))
      ∧ (op = 0x202 → len = 0 → (s.changePending = true → exec (.leave m) s0 = no 5) ∧ (s.changePending = false → s.member = false → exec (.leave m) s0 = no 10)
          ∧ (s.changePending = false → s.member = true → s.isLeader = false → exec (.leave m) s0 = .next (s.holdFor m 2))
          ∧ (s.changePending = false → s.member = true → s.isLeader = true → exec (.leave m) s0 = .next ((s.modMb (fun b => { b with nextRem := b.nextRem ++ [s.dev] })).holdFor m 2)))
      ∧ (op = 0x203 → len = 0 → (s.lifecycle ≠ 1 → exec (.rejoin m) s0 = no 4) ∧ (s.lifecycle = 1 → s.changePending = true → exec (.rejoin m) s0 = no 5)
          ∧ (s.lifecycle = 1 → s.changePending = false → s.member = true → exec (.rejoin m) s0 = no 0)
          ∧ (s.lifecycle = 1 → s.changePending = false → s.member = false → exec (.rejoin m) s0 = .next (((s.modMb (fun b => { b with joining := true })).modBox m (fun b => { b with held := 3 })).sendJoin)))
      ∧ (op = 0x300 → len = 0 → exec (.sensors m) s0 = yes s s.readings)
      ∧ (op = 0x400 → len = 20 →
          let rs := (s.log.reverse.filter (fun r => decide (a ≤ r.seq))).take n
          let to_ := leAt o 12 8
          (s.inRegion to_ (64 * rs.length) = false → exec (.logRead m) s0 = no 8)
          ∧ (s.inRegion to_ (64 * rs.length) = true → exec (.logRead m) s0 = yes (s.dmaOut to_ (rs.flatMap LogRec.toBytes))
              (leBytes 8 ((rs.head?.map (·.seq)).getD 0) ++ leBytes 4 rs.length ++ leBytes 8 ((s.log.head?.map (·.seq)).getD 0))))
      ∧ (op = 0x401 → len = 0 → exec (.logFlush m) s0 = yes s.flushLog [])
      ∧ (op = 0x402 → len = 8 → (s.inRegion a 65536 = false → exec (.logFlashRead m) s0 = no 8)
          ∧ (s.inRegion a 65536 = true → exec (.logFlashRead m) s0 = yes (s.dmaOut a (s.flashLog.reverse.flatMap LogRec.toBytes)) []))
      ∧ (s.fwBusy (some m) = true → ∀ r ∈ rows, 0x500 ≤ r.1 → r.1 ≤ 0x503 → op = r.1 → len = r.2.1 → exec r.2.2 s0 = no 5)
      ∧ (s.fwBusy (some m) = false → op = 0x500 → len = 12 → (1536 * 1024 < n → exec (.fwStage m data ok) s0 = ran (s.respond m 3 [])) ∧ (n ≤ 1536 * 1024 → s.inRegion a n = false → exec (.fwStage m data ok) s0 = ran (s.respond m 8 []))
          ∧ (n ≤ 1536 * 1024 → s.inRegion a n = true → ok = true → fwSound (padTo n data) = true → s.rootOk (padTo n data) = true → s.rfld R.FZ_ARB 5 0 ≤ fwSvn (padTo n data) → exec (.fwStage m data ok) s0 =
              ran ((((s.dmaIn a n).modGate (fun g => { g with slots := g.slots.set (slotFin (1 - s.runSlot)) { image := padTo n data, valid := false } })).respond m 0 []).modBox m (fun b => { b with stage := true })))
          ∧ (n ≤ 1536 * 1024 → s.inRegion a n = true → (ok = false ∨ fwSound (padTo n data) = false ∨ s.rootOk (padTo n data) = false) → exec (.fwStage m data ok) s0 =
              ran ((((s.dmaIn a n).modGate (fun g => { g with slots := g.slots.set (slotFin (1 - s.runSlot)) { image := padTo n data, valid := false } })).ev 0xB10 0xFF [0, 6]).respond m 6 [] |>.modBox m (fun b => { b with stage := false })))
          ∧ (n ≤ 1536 * 1024 → s.inRegion a n = true → ok = true → fwSound (padTo n data) = true → s.rootOk (padTo n data) = true → fwSvn (padTo n data) < s.rfld R.FZ_ARB 5 0 → exec (.fwStage m data ok) s0 =
              ran ((((s.dmaIn a n).modGate (fun g => { g with slots := g.slots.set (slotFin (1 - s.runSlot)) { image := padTo n data, valid := false } })).ev 0xB10 0xFF [0, 7]).respond m 7 [] |>.modBox m (fun b => { b with stage := false }))))
      ∧ (s.fwBusy (some m) = false → op = 0x501 → len = 2 →
          (s.gate.peer = none → s.member = false → exec (.fwStagePeer m ok) s0 = ran (s.respond m 10 []))
          ∧ (s.gate.peer = none → s.member = true → s.allMembers.contains (leAt o 0 2) = false → exec (.fwStagePeer m ok) s0 = ran (s.respond m 3 []))
          ∧ (s.gate.peer = none → s.member = true → s.allMembers.contains (leAt o 0 2) = true → exec (.fwStagePeer m ok) s0 =
              ran ((s.memSend (leAt o 0 2) .imageAsk).modGate (fun g => { g with peer := some { src := leAt o 0 2, since := s.us } })))
          ∧ (∀ x, s.gate.peer = some x → x.whole = false → s.us < x.since + 60000000 → exec (.fwStagePeer m ok) s0 = ran s)
          ∧ (∀ x, s.gate.peer = some x → (x.whole = true ∨ x.since + 60000000 ≤ s.us) → exec (.fwStagePeer m ok) s0 =
              ran ((s.modGate (fun g => { g with peer := none })).staged m 1 x.data ok)))
      ∧ (s.fwBusy (some m) = false → op = 0x502 → len = 0 →
          let k := 1 - s.runSlot
          let x := s.gate.slots[slotFin k]
          (x.valid = false → exec (.fwActivate m) s0 = ran (s.respond m 3 []))
          ∧ (x.valid = true → exec (.fwActivate m) s0 = ran (((s.setBoot { s.boot with active := k, trial := true, tries := 3 }).ev 0xB11 0xFF
              (leBytes 1 k ++ leBytes 4 (fwVersion x.image) ++ leBytes 1 (fwSvn x.image))).respond m 0 [])))
      ∧ (s.fwBusy (some m) = false → op = 0x503 → len = 1 → (1 < leAt o 0 1 → exec (.fwConfirm m) s0 = ran (s.respond m 3 []))
          ∧ (leAt o 0 1 ≤ 1 → (s.boot.trial = false ∨ s.rbit R.GH_STATUS 9 = false ∨ s.boot.active ≠ s.runSlot) → exec (.fwConfirm m) s0 = ran (s.respond m 4 []))
          ∧ (leAt o 0 1 = 0 → s.boot.trial = true → s.rbit R.GH_STATUS 9 = true → s.boot.active = s.runSlot → exec (.fwConfirm m) s0 = ran (((s.setBoot { s.boot with trial := false }).setFld R.GH_STATUS 9 9 0).respond m 0 []))
          ∧ (leAt o 0 1 = 1 → s.boot.trial = true → s.rbit R.GH_STATUS 9 = true → s.boot.active = s.runSlot →
            let t := (s.setBoot { s.boot with trial := false }).setFld R.GH_STATUS 9 9 0
            let svn := t.rfld R.GH_FW 39 32
            (svn ≤ t.rfld R.FZ_ARB 5 0 → exec (.fwConfirm m) s0 = ran (t.respond m 0 []))
            ∧ (t.rfld R.FZ_ARB 5 0 < svn → exec (.fwConfirm m) s0 = ran (((t.setFld R.FZ_ARB 5 0 svn).ev 0xB13 0xFF (leBytes 4 (t.rfld R.GH_FW 31 0) ++ leBytes 1 svn)).respond m 0 []))))
      ∧ (op = 0x504 → len = 0 → exec (.fwStatus m) s0 = yes s s.fwState)
      ∧ (op = 0x600 → len = 48 → (s.lifecycle ≠ 1 → exec (.attest m) s0 = no 4)
          ∧ (s.lifecycle = 1 → exec (.attest m) s0 = yes s (s.report o ++ padTo 96 (Config.identitySign (sha384 (s.report o))))))
      ∧ (op = 0x601 → len = 8 → (s.inRegion a s.certChain.length = false → exec (.certs m) s0 = no 8)
          ∧ (s.inRegion a s.certChain.length = true → exec (.certs m) s0 = yes (s.dmaOut a s.certChain) (leBytes 4 s.certChain.length)))
      ∧ (op = 0x602 → len = 12 → (64 * 1024 < n → exec (.certInstall m data ok) s0 = no 3) ∧ (n ≤ 64 * 1024 → s.inRegion a n = false → exec (.certInstall m data ok) s0 = no 8)
          ∧ (n ≤ 64 * 1024 → s.inRegion a n = true → ok = false → exec (.certInstall m data ok) s0 = .next ((s.dmaIn a n).respond m 6 []))
          ∧ (n ≤ 64 * 1024 → s.inRegion a n = true → ok = true → exec (.certInstall m data ok) s0 = yes ((s.dmaIn a n).modGate (fun g => { g with owner := some (padTo n data) })) []))
      ∧ (op = 0x700 → len = 8 → (s.inRegion a 256 = false → exec (.lifecycle m next ok) s0 = no 8)
          ∧ (s.inRegion a 256 = true → exec (.lifecycle m next ok) s0 = .next ((((s.dmaIn a 256).lifeAdvance next ok).1).respond m ((s.dmaIn a 256).lifeAdvance next ok).2 []))))
    ∧ (s0.rbit (R.GH_MB_STATUS m) 0 = false → exec (.mailboxDone m) s0 = .next s0)
    ∧ (s0.rbit (R.GH_MB_STATUS m) 0 = true →
        let done (t : State) (st : Nat) (res : Bytes) : State :=
          (((t.ghWrite (rspAt m) (leBytes 2 st ++ leBytes 2 res.length ++ (h.drop 4).take 4 ++ res)).modBox m (fun _ => {})).setRn (R.GH_MB_STATUS m) 2).raise (64 + m)
        let from' : State := if (s0.box m).stage = true then s0.fwValid else s0
        (∀ st res, (s0.box m).result = some (st, res) → (s0.box m).held ≠ 4 → (s0.box m).held ≠ 5 → exec (.mailboxDone m) s0 = .next (done from' st res))
        ∧ (∀ st res, (s0.box m).result = some (st, res) → (s0.box m).held = 5 → exec (.mailboxDone m) s0 = .next (done from' st res).ghRestart)
        ∧ (∀ st res, (s0.box m).result = some (st, res) → (s0.box m).held = 4 → exec (.mailboxDone m) s0 = .next ((done from' st res).resetKind 0))
        ∧ ((s0.box m).result = none → s0.serving m = true → (∀ r ∈ rows, r.1 ≠ op) → exec (.mailboxDone m) s0 = .next (done (if (s0.box m).stage = true then s.fwValid else s) 1 []))
        ∧ ((s0.box m).result = none → (s0.serving m = false ∨ ∃ r ∈ rows, r.1 = op) → exec (.mailboxDone m) s0 = .next s0))

/-- R386, R392 to R394, R401, R432: the monitor's commands.
Each of these forms completes with its own effect under the conditions stated: monId, monStatus, monLog, monSens, monFwload, monBoot,
monReset, monUnlock, monResp, monRd, monWr, monFuses, monTest, monLock, monLc. -/
def Obligations.MonitorCommands : Prop :=
  ∀ (s : State) (n a v : Nat) (data : Bytes) (ok : Bool) (b : Fin 24) (fail : Option (Nat × Nat × Nat)) (w : Nat × Nat × Nat),
    let say (t : State) (x : Bytes) (st : Nat) : Host.Outcome State Fault Refusal := .next (t.emit (.monitor x (endLine st)))
    (s.pwr.aux = false → ∀ i ∈ [Instr.monId, .monStatus, .monLog n, .monSens, .monFwload data ok, .monBoot n, .monReset n, .monUnlock, .monResp ok v, .monRd a, .monWr a v,
      .monFuses, .monTest b fail, .monLock, .monLc n ok], exec i s = .next s)
    ∧ (s.pwr.aux = true →
    exec .monId s = say s s.identity 0
    ∧ exec .monStatus s = say s (leBytes 1 s.stage ++ leBytes 1 (s.rfld R.GH_STATUS 17 16) ++ leBytes 1 s.lifecycle ++ leBytes 1 (b2n (s.gate.slots[slotFin 0]).valid)
        ++ leBytes 1 (b2n (s.gate.slots[slotFin 1]).valid) ++ s.fwState.take 4) 0
    ∧ (1024 < n → exec (.monLog n) s = say s [] 3) ∧ (n ≤ 1024 → exec (.monLog n) s = say s ((s.log.take n).reverse.flatMap LogRec.toBytes) 0)
    ∧ exec .monSens s = say s s.readings 0
    ∧ (let d := data.take (1536 * 1024)
       (s.fwBusy none = true → exec (.monFwload data ok) s = say s [] 5)
       ∧ (s.fwBusy none = false → exec (.monFwload data ok) s = say (if (s.stageFw 2 d ok).2 = 0 then (s.stageFw 2 d ok).1.fwValid else (s.stageFw 2 d ok).1) [] (s.stageFw 2 d ok).2)
       ∧ (ok = true → fwSound d = true → s.rootOk d = true → s.rfld R.FZ_ARB 5 0 ≤ fwSvn d → (s.stageFw 2 d ok).2 = 0
           ∧ (s.stageFw 2 d ok).1.fwValid = s.modGate (fun g => { g with slots := g.slots.set (slotFin (1 - s.runSlot)) { image := d, valid := true } }))
       ∧ ((ok = false ∨ fwSound d = false ∨ s.rootOk d = false) → (s.stageFw 2 d ok).2 = 6)
       ∧ (ok = true → fwSound d = true → s.rootOk d = true → fwSvn d < s.rfld R.FZ_ARB 5 0 → (s.stageFw 2 d ok).2 = 7))
    ∧ ((1 < n ∨ (s.gate.slots[slotFin n]).valid = false) → exec (.monBoot n) s = say s [] 3)
    ∧ (n ≤ 1 → (s.gate.slots[slotFin n]).valid = true → exec (.monBoot n) s = say (s.setBoot { s.boot with active := n, trial := false }) [] 0)
    ∧ (1 < n → exec (.monReset n) s = say s [] 3) ∧ exec (.monReset 1) s = .next (s.emit (.monitor [] (endLine 0))).ghRestart
    ∧ (s.rbit R.GH_STATUS 0 = true → s.boot.active = s.runSlot → exec (.monReset 0) s = .next (s.emit (.monitor [] (endLine 0))).moduleReset)
    ∧ ((s.rbit R.GH_STATUS 0 = false ∨ s.boot.active ≠ s.runSlot) → exec (.monReset 0) s = .next ((s.emit (.monitor [] (endLine 0))).ghRestart).moduleReset)
    ∧ (3 ≤ s.gate.fails → exec .monUnlock s = say s [] 4)
    ∧ (s.gate.fails < 3 → exec .monUnlock s = say (({ s with freeCtr := s.freeCtr + 48 } : State).modGate (fun g => { g with challenge := some (freeBytes s.freeCtr 48) })) (freeBytes s.freeCtr 48) 0)
    ∧ (let may : Bool := (s.lifecycle == 1 && s.rfld R.GH_STATUS 17 16 == 3) || s.lifecycle == 2
       (may = false → exec (.monResp ok v) s = say s [] 4)
       ∧ (may = true → s.gate.challenge = none → exec (.monResp ok v) s = say s [] 6)
       ∧ (may = true → ∀ c, s.gate.challenge = some c → exec (.monResp true v) s = say ((((s.modGate (fun g => { g with challenge := none })).setFld R.GH_STATUS 4 4 1).modGate (fun g =>
            { g with everUnlocked := true })).ev 0xB30 0xFF (leBytes 8 v)) [] 0)
       ∧ (may = true → ∀ c, s.gate.challenge = some c → exec (.monResp false v) s = say ((s.modGate (fun g => { g with challenge := none, fails := g.fails + 1 })).ev 0xB31 0xFF
            (leBytes 4 (s.gate.fails + 1))) [] 6))
    ∧ exec .monLock s = say (s.setFld R.GH_STATUS 4 4 0) [] 0
    ∧ exec (.monLc n ok) s = say (s.lifeAdvance n ok).1 [] (s.lifeAdvance n ok).2
    ∧ (((s.lifecycle = 1 ∧ n ≠ 2 ∧ n ≠ 3) ∨ (s.lifecycle = 2 ∧ n ≠ 3) ∨ (s.lifecycle = 0 ∧ n ≠ 1) ∨ s.lifecycle = 3) → s.lifeAdvance n ok = (s, 4))
    ∧ (((s.lifecycle = 0 ∧ n = 1) ∨ (s.lifecycle = 1 ∧ (n = 2 ∨ n = 3)) ∨ (s.lifecycle = 2 ∧ n = 3)) → s.lifeAdvance n false = (s, 6) ∧ (s.lifeAdvance n true).2 = 0
        ∧ (s.canonical = true → (s.lifeAdvance n true).1.rfld R.FZ_LIFECYCLE 1 0 = n))
    ∧ (s.service = false → ∀ i ∈ [Instr.monRd a, .monWr a v, .monFuses, .monTest b fail], exec i s = say s [] 4)
    ∧ (s.service = true →
      (isRegSpace a = false → (∀ d, s.read a 8 = some d → exec (.monRd a) s = say s d 0) ∧ (s.read a 8 = none → exec (.monRd a) s = say s [] 3)
        ∧ exec (.monWr a v) s = say (s.write a (leBytes 8 v)) [] 0)
      ∧ (isRegSpace a = true → exec (.monRd a) s = say (s.regRead a 8).1 (leBytes 8 (s.regRead a 8).2) 0 ∧ exec (.monWr a v) s = say (s.regWrite false a 8 v) [] 0)
      ∧ exec .monFuses s = say s ([R.FZ_SERIAL, R.FZ_PART 0, R.FZ_PART 1, R.FZ_CEIL, R.FZ_ARB, R.FZ_LIFECYCLE, R.FZ_PCI].flatMap (fun a => leBytes 8 (s.rn a))
          ++ (List.range 6).flatMap (fun i => leBytes 8 (s.rn (R.FZ_ROOTKEY i)))) 0
      ∧ (s.benchIdle b = false → exec (.monTest b fail) s = say s [] 5) ∧ (s.benchIdle b = true → exec (.monTest b none) s = say s [] 0)
      ∧ (s.benchIdle b = true → exec (.monTest b (some w)) s = say ((s.ev 0x142 b (leBytes 1 b ++ leBytes 2 w.1 ++ leBytes 8 w.2.1 ++ leBytes 8 w.2.2)).fence b 4 []) [] 0)))

/-- R377, R379, R395, R398, R402 to R404: SENSOR_SAMPLE, THROTTLE_END, GH_WB_TEMP_READ, GH_WB_VOLT_READ, GH_WB_CURR_READ, CLAMP_TICK, POWER_CLAMP_UNMET,
RAIL_OVERCURRENT, PW_CLAMP_WRITE, PW_THERM_WRITE, GH_PHASE_CFG_WRITE, GH_WATCHDOG.
Each of these forms completes with its own effect under the conditions stated: sensorSample, throttleEnd, ghWbTempRead, ghWbVoltRead,
ghWbCurrRead, ghPhaseCfgWrite, ghWatchdog, clampTick, powerClampUnmet, railOvercurrent, pwClampWrite, pwThermWrite,
gatehouseFirmwareSramUncorrectable. -/
def Obligations.SensorsClampAndThrottle : Prop :=
  (∀ (s : State) (x : Sensor) (o : Option Nat) (st : Option (Fin 8)) (r : Fin 16) (v : Nat), s.pwr.aux = false →
    ∀ c ∈ [Instr.sensorSample x o, .throttleEnd st, .clampTick o, .powerClampUnmet, .railOvercurrent r v], exec c s = .next s)
  ∧ ∀ (s : State) (i : Fin 72) (d : Fin 36) (r : Fin 16) (v : Nat) (k : Fin 8), s.canonical = true → s.pwr.aux = true →
    let ta := R.GH_WB_TEMP i
    let va := R.GH_WB_VOLT d
    let ca := R.GH_WB_CURR r
    let now := v % 65536
    let lim := if i.val < 64 then R.PW_THERM else R.PW_STACK_THERM
    let cl := s.rfld R.PW_CLAMP 15 0
    let w := min (v * s.rfld (R.GH_WB_CURR 0) 31 0 / 1000000) 0xFFFE
    exec (.sensorSample (.volt d) (some v)) s = .next (s.setFld va 47 0 (max (s.rfld va 47 32) now * 2 ^ 32 + min (s.rfld va 31 16) now * 65536 + now))
    ∧ (v % 2 ^ 32 ≤ railLimit r → exec (.sensorSample (.curr r) (some v)) s = .next (s.setFld ca 63 0 (max (s.rfld ca 63 32) (v % 2 ^ 32) * 2 ^ 32 + v % 2 ^ 32)))
    ∧ (railLimit r < v % 2 ^ 32 → exec (.sensorSample (.curr r) (some v)) s
        = exec (.railOvercurrent r (v % 2 ^ 32)) (s.setFld ca 63 0 (max (s.rfld ca 63 32) (v % 2 ^ 32) * 2 ^ 32 + v % 2 ^ 32)))
    ∧ (s.pwr.failed.contains (2, d.val) = true → exec (.sensorSample (.volt d) none) s = .next (s.setFld va 15 0 0xFFFF))
    ∧ (s.pwr.failed.contains (2, d.val) = false → exec (.sensorSample (.volt d) none) s
        = .next (((s.setFld va 15 0 0xFFFF).ev 0xC05 0xFF (leBytes 1 2 ++ leBytes 1 d)).modPwr (fun p => { p with failed := p.failed ++ [(2, d.val)] })))
    ∧ (∃ t, exec (.sensorSample (.curr r) none) s = .next t ∧ t.rfld ca 31 0 = 2 ^ 32 - 1 ∧ (3, r.val) ∈ t.pwr.failed ∧ t.pwr.duty = (if r.val = 0 then min 32 s.pwr.duty else s.pwr.duty) ∧ t.mem = s.mem)
    ∧ (64 ≤ i.val → ((s.rfld lim 15 8 : Nat) * 16 : Int) < signed 16 now → ∃ t, exec (.sensorSample (.temp i) (some v)) s = .next t ∧ i.val - 64 ∈ t.pwr.hot ∧ t.rfld ta 15 0 = now ∧ t.mem = s.mem)
    ∧ (signed 16 now ≤ (s.rfld lim 15 8 : Nat) * 16 → signed 16 now ≤ (s.rfld lim 23 16 : Nat) * 16 → s.pwr.warn.contains i.val = false →
        exec (.sensorSample (.temp i) (some v)) s = .next ((s.setFld ta 31 0 ((if signed 16 (s.rfld ta 31 16) < signed 16 now then now else s.rfld ta 31 16) * 65536 + now)).noteCool i))
    ∧ (i.val < 64 → ((s.rfld lim 15 8 : Nat) * 16 : Int) < signed 16 now → ∃ t, exec (.sensorSample (.temp i) (some v)) s = .next t ∧ t.pwr.throttle = true
        ∧ (s.pwr.throttle = false → t.rfld R.PW_STATUS 22 16 = min 32 s.pwr.duty) ∧ t.rfld ta 15 0 = now ∧ t.mem = s.mem)
    ∧ (∃ t, exec (.sensorSample (.temp i) none) s = .next t ∧ t.rfld ta 15 0 = 0x8000 ∧ ((if i.val < 64 then 0 else 1), i.val) ∈ t.pwr.failed ∧ t.mem = s.mem)
    ∧ (s.below (List.range 64) R.PW_THERM = true → (∃ z, (8, z) ∈ s.pwr.cool ∧ z + 1000 ≤ s.us) → exec (.throttleEnd none) s = .next ((s.modPwr (fun p => { p with throttle := false })).showDuty))
    ∧ ((s.below (List.range 64) R.PW_THERM = false ∨ ∀ z, (8, z) ∈ s.pwr.cool → s.us < z + 1000) → exec (.throttleEnd none) s = .next s)
    ∧ (s.below [64 + k.val] R.PW_STACK_THERM = true → (∃ z, (k.val, z) ∈ s.pwr.cool ∧ z + 1000 ≤ s.us) → exec (.throttleEnd (some k)) s = .next (s.modPwr (fun p => { p with hot := p.hot.filter (· != k.val) })))
    ∧ ((s.below [64 + k.val] R.PW_STACK_THERM = false ∨ ∀ z, (k.val, z) ∈ s.pwr.cool → s.us < z + 1000) → exec (.throttleEnd (some k)) s = .next s)
    ∧ exec (.ghWbTempRead i) s = .next ((s.emit (.readVal ta (s.rn ta))).setFld ta 31 16 (s.rfld ta 15 0))
    ∧ exec (.ghWbVoltRead d) s = .next ((s.emit (.readVal va (s.rn va))).setFld va 47 16 (s.rfld va 15 0 * 65537))
    ∧ exec (.ghWbCurrRead r) s = .next ((s.emit (.readVal ca (s.rn ca))).setFld ca 63 32 (s.rfld ca 31 0))
    ∧ (s.pwr.mainFail = false → ∃ t, exec (.clampTick (some v)) s = .next t ∧ t.rfld R.GH_WB_POWER 15 0 = w ∧ t.mem = s.mem ∧ t.rn R.PW_CLAMP = s.rn R.PW_CLAMP
        ∧ t.pwr.duty = (if cl < w then max 16 (s.pwr.duty - 1) else if w * 100 < cl * 98 ∧ 100 ≤ s.pwr.below + 10 then min 64 (s.pwr.duty + 1) else s.pwr.duty))
    ∧ (s.pwr.mainFail = true → exec (.clampTick (some v)) s = exec (.clampTick none) s)
    ∧ (∃ t, exec (.clampTick none) s = .next t ∧ t.pwr.duty = min 32 s.pwr.duty ∧ t.pwr.mainFail = true ∧ t.mem = s.mem)
    ∧ (s.pwr.duty = 16 → cl < s.rfld R.GH_WB_POWER 15 0 → (∃ z, s.pwr.floor = some z ∧ 1000 ≤ z) → exec .powerClampUnmet s =
        .next (((s.modPwr (fun p => { p with floor := none })).setFld R.PW_STATUS 3 3 1).ev 0xC03 0xFF (leBytes 2 cl ++ leBytes 2 (s.rfld R.GH_WB_POWER 15 0))))
    ∧ ((s.pwr.duty ≠ 16 ∨ s.rfld R.GH_WB_POWER 15 0 ≤ cl ∨ s.pwr.floor = none ∨ ∃ z, s.pwr.floor = some z ∧ z < 1000) → exec .powerClampUnmet s = .next s)
    ∧ ((s.pwr.failed.contains (3, r.val) = true ∨ v ≤ railLimit r) → exec (.railOvercurrent r v) s = .next s)
    ∧ (s.pwr.failed.contains (3, r.val) = false → railLimit r < v → ∃ t, exec (.railOvercurrent r v) s = .next t ∧ t.pwr.duty = min 32 s.pwr.duty ∧ t.mem = s.mem)
    ∧ (let x := min (max now 600) s.clampCap
       (x = cl → exec (.pwClampWrite v) s = .next s) ∧ (x ≠ cl → exec (.pwClampWrite v) s = .next ((s.setRn R.PW_CLAMP x).ev 0xC02 0xFF (leBytes 2 x ++ [1]))))
    ∧ (∀ st : Bool, let a := if st = true then R.PW_STACK_THERM else R.PW_THERM; let other := if st = true then R.PW_THERM else R.PW_STACK_THERM
        ∃ t, exec (.pwThermWrite st v) s = .next t ∧ t.rfld a 7 0 = s.rfld a 7 0 ∧ t.rfld a 15 8 = min (bits v 15 8) (s.rfld a 7 0 - 5)
        ∧ t.rfld a 23 16 = min (bits v 23 16) (t.rfld a 15 8) ∧ t.rn other = s.rn other)
    ∧ (∃ t, exec (.ghPhaseCfgWrite v) s = .next t ∧ t.rbit R.GH_PHASE_CFG 31 = v.testBit 31 ∧ t.mem = s.mem
        ∧ t.rfld R.GH_PHASE_CFG 4 0 = (if 8 ≤ bits v 4 0 ∧ bits v 4 0 ≤ 16 then bits v 4 0 else s.rfld R.GH_PHASE_CFG 4 0)
        ∧ (v.testBit 31 = true → s.rbit R.GH_PHASE_CFG 31 = false → t.rn R.GH_PHASE_SEQ = 0))
    ∧ (s.rbit R.GH_STATUS 0 = false → exec .ghWatchdog s = .next s ∧ exec .gatehouseFirmwareSramUncorrectable s = .next s)
    ∧ (s.rbit R.GH_STATUS 0 = true → ∀ c ∈ [Instr.ghWatchdog, .gatehouseFirmwareSramUncorrectable], ∃ t, exec c s = .next t ∧ t.pwr.romStart = true ∧ t.rbit R.GH_STATUS 0 = false
        ∧ t.rn R.GH_WDT = (s.rn R.GH_WDT + 1) % 2 ^ 32 ∧ t.cm.restarted = true ∧ t.rbit R.GH_STATUS 8 = false ∧ (∀ m : Fin 16, s.rbit (R.GH_MB_STATUS m) 0 = true → (t.box m).result = some (9, []))
        ∧ (s.boot.trial = true → s.rbit R.GH_STATUS 9 = true → s.boot.active = s.runSlot → t.gate.boots = (s.setBoot { s.boot with tries := 0 }).gate.boots
          ∧ ((∀ c : Fin 2, s.gate.boots[c].wseq + 1 < 2 ^ 32) → t.boot.tries = 0 ∧ t.boot.trial = true))
        ∧ ((s.boot.trial = false ∨ s.rbit R.GH_STATUS 9 = false ∨ s.boot.active ≠ s.runSlot) → t.boot = s.boot) ∧ t.mem = s.mem ∧ t.benches = s.benches)

/-- R400, R401, R405, R407, R412 to R416: MAIN_POWER_FAIL, REF_LOST, THERMAL_TRIP, MOD_RST_N, DOMAIN_FAULT, AUX_POWER_LOSS, AUX_POWER_ON, MAIN_POWER_RESTORED,
REF_RESTORED, START_STAGE_1 to START_STAGE_6, START_RELEASE.
Each of these forms completes with its own effect under the conditions stated: thermalTrip, mainPowerFail, mainPowerRestored, auxPowerLoss,
auxPowerOn, domainFault, refLost, refRestored, modRstN, startStage1, startStage2, startStage3, startStage4, startStage5, startStage6,
startRelease. -/
def Obligations.PowerEventsAndStartUp : Prop :=
  ∀ (s : State) (us mv straps prof fail : Nat) (ce sigA sigB main : Bool) (i : Fin 72) (d : Fin 35), s.canonical = true →
    let lost (t : State) : Prop := t.mem = [] ∧ t.poison = [] ∧ t.regions = [] ∧ t.tlb = [] ∧ t.modules = [] ∧ t.runs = [] ∧ (∀ b : Fin 24, (t.bench b).q.cmds = []) ∧ t.released = false
      ∧ t.pwr.ready = false ∧ t.member = false
    (s.pwr.aux = false → ∀ c ∈ [Instr.mainPowerFail mv, .thermalTrip i mv, .refLost ce, .modRstN us], exec c s = .next s)
    ∧ (s.pwr.aux = true → ∃ t, exec (.mainPowerFail mv) s = .next t ∧ lost t ∧ t.rbit R.PW_STATUS 0 = false)
    ∧ ((s.pwr.failed.contains (tempClass i, i.val) = true ∨ s.aboveTrip i mv = false) → exec (.thermalTrip i mv) s = .next s)
    ∧ (s.pwr.aux = true → s.pwr.failed.contains (tempClass i, i.val) = false → s.aboveTrip i mv = true → ∃ t, exec (.thermalTrip i mv) s = .next t ∧ lost t ∧ t.pwr.tripped = true ∧ t.out = s.out ++ t.out.drop s.out.length ∧ Out.thermN true ∈ t.out)
    ∧ (s.pwr.aux = true → ∃ t, exec (.refLost ce) s = .next t ∧ lost t ∧ t.pwr.refGone = (ce || s.pwr.refGone) ∧ t.rn R.CK_STATUS = (if (ce || s.pwr.refGone) = true then 0 else 2)
        ∧ (s.pwr.tripped = false → t.stage = 1))
    ∧ (s.pwr.aux = true → 10 ≤ us → ∃ t, exec (.modRstN us) s = .next t ∧ lost t ∧ t.gate.resets = s.gate.resets + 1 ∧ (s.pwr.tripped = false → t.stage = 1))
    ∧ (us < 2 → exec (.modRstN us) s = .next s)
    ∧ (s.pwr.aux = true → 2 ≤ us → us < 10 → (Config.freeBool s.freeCtr = true → exec (.modRstN us) s = .next s.draw.moduleReset) ∧ (Config.freeBool s.freeCtr = false → exec (.modRstN us) s = .next s.draw))
    ∧ ((s.rbit R.PW_DOMAIN d = false ∨ s.pwr.failed.contains (2, d.val) = true) → exec (.domainFault d mv) s = .next s)
    ∧ (s.rbit R.PW_DOMAIN d = true → s.pwr.failed.contains (2, d.val) = false → 24 ≤ d.val → ∃ t, exec (.domainFault d mv) s = .next t ∧ lost t)
    ∧ (s.rbit R.PW_DOMAIN d = true → s.pwr.failed.contains (2, d.val) = false → d.val < 24 → (s.bench (Fin.ofNat 24 d.val)).out = false → exec (.domainFault d mv) s = .next ((s.ev 0xC21 0xFF (leBytes 1 d ++ leBytes 2 mv)).fence (Fin.ofNat 24 d.val) 5 []))
    ∧ (s.rbit R.PW_DOMAIN d = true → s.pwr.failed.contains (2, d.val) = false → d.val < 24 → (s.bench (Fin.ofNat 24 d.val)).out = true →
        exec (.domainFault d mv) s = .next ((s.ev 0xC21 0xFF (leBytes 1 d ++ leBytes 2 mv)).cutBench (Fin.ofNat 24 d.val)))
    ∧ (∃ t, exec .auxPowerLoss s = .next t ∧ lost t ∧ t.pwr.aux = false ∧ t.log = [] ∧ t.pwr.tripped = s.pwr.tripped
        ∧ t.flashLog = (if s.rbit R.PW_STATUS 0 = true then s.flashLog else s.flushLog.flashLog))
    ∧ (∃ t, exec (.auxPowerOn main) s = .next t ∧ lost t ∧ t.pwr.aux = true ∧ t.flashLog = s.flashLog ∧ t.logSeq = 0 ∧ t.time = 0 ∧ t.stage = 0 ∧ t.rbit R.PW_STATUS 0 = main)
    ∧ ((s.pwr.aux = false ∨ s.rbit R.PW_STATUS 0 = true) → exec .mainPowerRestored s = .next s)
    ∧ (s.pwr.aux = true → s.rbit R.PW_STATUS 0 = false → ∃ t, exec .mainPowerRestored s = .next t ∧ t.stage = 1 ∧ t.rbit R.PW_STATUS 0 = true ∧ t.pwr.stopped = false)
    ∧ (s.pwr.refGone = false → exec .refRestored s = .next s)
    ∧ (s.pwr.refGone = true → ∃ t, exec .refRestored s = .next t ∧ t.stage = 1 ∧ t.pwr.refGone = false ∧ t.mem = s.mem)
    ∧ (s.stageDue 0 = false → s.stageDue 1 = false → ∀ bad lock, exec (.startStage1 us straps prof ce bad lock) s = .next s)
    ∧ ((s.stageDue 0 = true ∨ s.stageDue 1 = true) →
        (∃ t, exec (.startStage1 us straps prof ce false true) s = .next t ∧ t.stage = (if s.rbit R.GH_STATUS 0 = true then 3 else 2) ∧ t.straps = straps % 65536 ∧ t.pwr.prof = prof % 4
          ∧ t.rn R.CK_STATUS = 7 ∧ t.mem = s.mem ∧ t.tlb = [])
        ∧ (∀ lock, ∃ t, exec (.startStage1 us straps prof ce true lock) s = .next t ∧ t.pwr.stopped = true ∧ t.rfld R.PW_START 6 4 = 1 ∧ t.stage = 1)
        ∧ (∃ t, exec (.startStage1 us straps prof ce false false) s = .next t ∧ t.pwr.stopped = true ∧ t.rfld R.PW_START 6 4 = 2 ∧ t.stage = 1))
    ∧ (s.stageDue 2 = false → s.pwr.romStart = false → exec (.startStage2 us sigA sigB) s = .next s)
    ∧ (s.stageDue 2 = true → s.pwr.romStart = false → s.boot.trial = false →
        (s.slotOk (slotFin s.boot.active) (if s.boot.active = 0 then sigA else sigB) = true → ∃ t, exec (.startStage2 us sigA sigB) s = .next t ∧ t.stage = 3 ∧ t.rbit R.GH_STATUS 0 = true
          ∧ t.boot = s.boot ∧ t.gate.fails = 0)
        ∧ (s.slotOk (slotFin s.boot.active) (if s.boot.active = 0 then sigA else sigB) = false → s.slotOk (slotFin (1 - s.boot.active)) (if 1 - s.boot.active = 0 then sigA else sigB) = false →
          ∃ t, exec (.startStage2 us sigA sigB) s = .next t ∧ t.pwr.stopped = true ∧ t.rfld R.PW_START 6 4 = 3 ∧ t.stage = 2)
        ∧ (s.slotOk (slotFin s.boot.active) (if s.boot.active = 0 then sigA else sigB) = false → s.slotOk (slotFin (1 - s.boot.active)) (if 1 - s.boot.active = 0 then sigA else sigB) = true →
          ∃ t, exec (.startStage2 us sigA sigB) s = .next t ∧ t.stage = 3 ∧ t.rbit R.GH_STATUS 0 = true ∧ t.rfld R.GH_STATUS 8 8 = (1 - s.boot.active) % 2
          ∧ t.gate.boots = (s.setBoot { s.boot with active := 1 - s.boot.active, trial := false }).gate.boots))
    ∧ (s.stageDue 2 = true → s.pwr.romStart = false → s.boot.trial = true →
        let n := if s.boot.tries = 0 then 1 - s.boot.active else s.boot.active
        let r : BootRec := if s.boot.tries = 0 then { s.boot with trial := false, active := n } else { s.boot with tries := s.boot.tries - 1 }
        s.slotOk (slotFin n) (if n = 0 then sigA else sigB) = true → ∃ t, exec (.startStage2 us sigA sigB) s = .next t ∧ t.stage = 3 ∧ t.rfld R.GH_STATUS 8 8 = n % 2 ∧ t.gate.boots = (s.setBoot r).gate.boots)
    ∧ (s.pwr.romStart = true → s.stageDue 2 = false → ∃ t, exec (.startStage2 us sigA sigB) s = .next t ∧ t.pwr.romStart = false ∧ t.stage = s.stage ∧ t.gate.fails = 0 ∧ t.gate.challenge = none ∧ t.mem = s.mem)
    ∧ ((s.stageDue 3 = false ∨ s.lifecycle = 3) → exec (.startStage3 us sigA sigB) s = .next s)
    ∧ (s.stageDue 3 = true → s.lifecycle ≠ 3 → sigA = false → sigB = false → s.pwr.prof < 4 → ∃ t, exec (.startStage3 us sigA sigB) s = .next t ∧ t.stage = 4 ∧ t.mb.image = [] ∧ t.rfld R.PW_START 6 4 = 4
        ∧ t.rfld R.PW_START 1 0 = (s.gate.profile.filter (· < 4)).getD s.pwr.prof ∧ t.rfld R.GH_STATUS 17 16 = t.rfld R.PW_START 1 0
        ∧ (∀ a, t.byte a = if isYard a = true then 0 else s.byte a) ∧ (∀ a, isYard a = true → a % 64 = 0 → t.poisonedAt a = false))
    ∧ (∀ n, s.stageDue 3 = true → s.lifecycle ≠ 3 → (n = s.boot.cfg ∨ (n = 1 - s.boot.cfg ∧ (if s.boot.cfg = 0 then sigA else sigB) = false)) → (if n = 0 then sigA else sigB) = true →
        Img.sound s.gate.cfgs[slotFin n] = true → ∃ t, exec (.startStage3 us sigA sigB) s = .next t ∧ t.stage = 4 ∧ t.mb.image = Img.body s.gate.cfgs[slotFin n] ∧ t.gate.cfgIn = n
        ∧ (∀ a, t.byte a = if isYard a = true then 0 else s.byte a))
    ∧ (s.stageDue 4 = false → exec (.startStage4 us fail) s = .next s)
    ∧ (s.stageDue 4 = true → ∃ t, exec (.startStage4 us fail) s = .next t ∧ t.rfld R.PW_START 15 8 = fail % 256 ∧ (t.stage = 5 ∨ t.stage = 6) ∧ (t.stage = 6 ↔ s.skip5 = true) ∧ t.regions = []
        ∧ (∀ a, isMergo a = true → t.byte a = 0) ∧ (∀ a, isMergo a = true → a % 64 = 0 → t.poisonedAt a = false) ∧ (∀ a, isYard a = true → t.byte a = s.byte a))
    ∧ (s.stageDue 5 = false → ∀ fs, exec (.startStage5 us fs) s = .next s)
    ∧ (s.stageDue 5 = true → ∃ t, exec (.startStage5 us []) s = .next t ∧ t.stage = 6 ∧ (∀ b, t.bench b = {}) ∧ (∀ d, t.dk d = {}) ∧ (∀ b, t.core b = {})
        ∧ (∀ a, t.byte a = if isStore a = true then 0 else s.byte a))
    ∧ (∀ f fs, s.stageDue 5 = true → ∃ t, exec (.startStage5 us (f :: fs)) s = .next t ∧ t.stage = 6 ∧ t.rfld R.PW_START 6 4 = 6 ∧ (∀ g ∈ f :: fs, (t.bench g.1).out = true))
    ∧ ((s.stageDue 6 = false ∨ s.pwr.ready = true) → exec (.startStage6 us) s = .next s)
    ∧ (s.stageDue 6 = true → s.pwr.ready = false → s.mb.image = [] → ∃ t, exec (.startStage6 us) s = .next t ∧ t.pwr.ready = true ∧ (∀ p, t.port p = {}) ∧ (∀ u, t.coll u = {}) ∧ t.mem = s.mem)
    ∧ (s.stageDue 6 = true → s.pwr.ready = false → s.mb.image ≠ [] → ∃ t, exec (.startStage6 us) s = .next t ∧ t.pwr.ready = true
        ∧ ((Img.solo s.mb.image || Img.founder s.mb.image == s.straps) = true → s.straps < 65536 → t.member = true ∧ t.epoch = 1) ∧ ((Img.solo s.mb.image || Img.founder s.mb.image == s.straps) = false → t.mb.joining = true))
    ∧ ((s.released = true ∨ s.lifecycle = 3 ∨ s.rbit R.PW_STATUS 0 = false ∨ (s.pwr.ready = false ∧ (s.pwr.stopped = false ∨ s.pwr.tripped = true))) → exec .startRelease s = .next s)
    ∧ (s.released = false → s.lifecycle ≠ 3 → s.rbit R.PW_STATUS 0 = true → (s.pwr.ready = true ∧ (s.mb.joining = false ∨ s.member = true)) ∨ (s.pwr.ready = false ∧ s.pwr.stopped = true ∧ s.pwr.tripped = false) →
        exec .startRelease s = .next ((({ s with released := true } : State).emit .drs).setStage 7))
    ∧ (s.released = false → s.lifecycle ≠ 3 → s.rbit R.PW_STATUS 0 = true → s.pwr.ready = true → s.mb.joining = true → s.member = false →
        exec .startRelease s = .next ((({ s.stageFail 6 7 with released := true } : State).emit .drs).setStage 7))

/-- R422 to R427: RESIDUE_MISMATCH, BENCH_UNCORRECTABLE, FENCE_COMPLETE, BRIDGE_FLIT, BRIDGE_RETRY, BRIDGE_RETRAINED.
Each of these forms completes with its own effect under the conditions stated: residueMismatch, benchUncorrectable, fenceComplete,
bridgeFlit, bridgeRetry, bridgeRetrained. -/
def Obligations.FencesAndBridge : Prop :=
  ∀ (s : State) (b : Fin 24) (tag pass row col site st dir addr fails cause : Nat) (wr : Bool) (who : Option TxnFor) (c : Cmd),
    ((s.bench b).out = false → ∀ p ∈ [(Instr.residueMismatch b tag pass row col site, 1), (.benchUncorrectable b st .uncorrectable, 2), (.benchUncorrectable b st .parity, 3)],
      ∃ t, exec p.1 s = .next t ∧ (t.bench b).out = true ∧ (t.bench b).fenced = false ∧ (t.bench b).fenceDue = some p.2 ∧ (t.bench b).q.cmds = [] ∧ (t.bench b).mu.cmds = [] ∧ (t.bench b).cr.cmds = []
        ∧ (t.bench b).tiles = [] ∧ (t.bench b).inArray = [] ∧ (t.bench b).shadow = [] ∧ (t.core b).st = 3 ∧ (t.core b).cause = 6
        ∧ (t.dk (dkOf b 0)).q.cmds = [] ∧ (t.dk (dkOf b 1)).q.cmds = [] ∧ (∀ x, x ≠ b → t.bench x = s.bench x) ∧ t.colls = s.colls ∧ t.ports = s.ports)
    ∧ ((s.bench b).out = true → ((s.bench b).fenceDue ≠ some 6 ∨ (s.bench b).fenceAt ≠ s.time) → exec (.residueMismatch b tag pass row col site) s = .next s)
    ∧ ((s.bench b).fenceDue = some 6 → (s.bench b).fenceAt = s.time → ∃ d, exec (.residueMismatch b tag pass row col site) s =
        .next (s.modBench b (fun x => { x with fenceDue := some 1, fenceSite := d })))
    ∧ ((s.bench b).out = true → exec (.benchUncorrectable b st .uncorrectable) s = .next s
        ∧ exec (.benchUncorrectable b st .parity) s = .next s ∧ s.pushTo (.bench b) c = s ∧ s.pushTo (.mason b) c = s ∧ s.pushTo (.crusher b) c = s)
    ∧ ((s.bench b).fenceDue = none → exec (.fenceComplete b) s = .next s)
    ∧ ((s.bench b).fenceDue.isSome = true → s.fenceBefore b = true → exec (.fenceComplete b) s = .next s)
    ∧ ((s.bench b).fenceDue = some cause → s.fenceBefore b = false → ∃ t, exec (.fenceComplete b) s = .next t ∧ (t.bench b).fenced = true ∧ (t.bench b).fenceDue = none ∧ (t.bench b).q.cause = 7 ∧ (t.bench b).mu.cause = 3
        ∧ (t.bench b).cr.cause = 4 ∧ (t.dk (dkOf b 0)).q.cause = 6 ∧ (t.dk (dkOf b 1)).q.cause = 6 ∧ (∀ x, x ≠ b → t.bench x = s.bench x) ∧ t.mem = s.mem
        ∧ (cause = 5 → s.canonical = true → t.rbit R.PW_DOMAIN b = false))
    ∧ (∀ l, (s.bench b).ceLast = some l → s.us < l + 1000000 → exec (.benchUncorrectable b st .corrected) s = .next s)
    ∧ (((s.bench b).ceLast = none ∨ ∃ l, (s.bench b).ceLast = some l ∧ l + 1000000 ≤ s.us) → exec (.benchUncorrectable b st .corrected) s = .next ((s.ev 0x150 b (leBytes 1 b ++ leBytes 1 st)).modBench b (fun x => { x with ceLast := some s.us })))
    ∧ (s.bridge.retraining = true → exec (.bridgeFlit dir addr fails wr who) s = .next s)
    ∧ (s.bridge.retraining = false → (fails < 16 → exec (.bridgeFlit dir addr fails wr who) s = .next { s with bridge := { s.bridge with replays := s.bridge.replays + fails } })
      ∧ (16 ≤ fails →
        let s1 : State := (({ s with bridge := { s.bridge with replays := s.bridge.replays + 15, retraining := true } } : State).ev 0x421 0xFF (leBytes 1 dir ++ leBytes 8 addr)).emit (.bridge (!wr) addr)
        (wr = true → exec (.bridgeFlit dir addr fails wr who) s = .next s1)
        ∧ (wr = false → who = none → exec (.bridgeFlit dir addr fails wr who) s = .next (s1.spoil addr))
        ∧ (∀ r, wr = false → who = some (.ring r) → exec (.bridgeFlit dir addr fails wr who) s = .next (s1.modRing r (fun x => { x with refused := true })))
        ∧ (∀ x, wr = false → who = some (.core x) → (s.core x).st = 2 → exec (.bridgeFlit dir addr fails wr who) s = .next (s1.coreFault x 4 0 addr))
        ∧ (∀ x, wr = false → who = some (.core x) → (s.core x).st ≠ 2 → exec (.bridgeFlit dir addr fails wr who) s = .next s1)
        ∧ (∀ d job, wr = false → who = some (.derrick d job) →
          ((s.dk d).runs.find? (fun r => r.id == job) = none → exec (.bridgeFlit dir addr fails wr who) s = .next s1)
          ∧ ∀ r, (s.dk d).runs.find? (fun r => r.id == job) = some r → exec (.bridgeFlit dir addr fails wr who) s = .next (s1.dkPoison d r addr))))
    ∧ (s.bridge.replays = 0 → exec .bridgeRetry s = .next s)
    ∧ (s.bridge.replays ≠ 0 → exec .bridgeRetry s = .next { s.ev 0x420 0xFF (leBytes 4 s.bridge.replays) with bridge := { s.bridge with replays := 0 } })
    ∧ exec .bridgeRetrained s = .next { s with bridge := { s.bridge with retraining := false } }

/-- The step of the block: the front command runs with the queue's rest. That a core cycle passes on an empty queue is the model's choice (log 2). -/
def Obligations.StepRunsFrontCommand : Prop :=
  ∀ (s : State) (c : Instr) (rest : List Instr),
    step { s with pending := c :: rest } = exec c { s with pending := rest }
    ∧ (s.pending = [] → step s = .next s.tick)

/-- Every arm of exec completes, and the queue is the step's alone. -/
def Obligations.NoCommandStops : Prop :=
  (∀ (c : Instr) (s : State), ∃ t, exec c s = .next t ∧ t.pending = s.pending)
    ∧ ∀ s : State, ∃ t, step s = .next t ∧ t.pending = s.pending.drop 1

/-- R8, R453 and the Reset columns of the register maps. -/
def Obligations.ResetState : Prop :=
  let z := State.reset
  (∀ a, z.byte a = 0 ∧ z.poisonedAt a = false) ∧ (∀ i, z.syncVal i = 0) ∧ z.pending = [] ∧ z.out = [] ∧ z.regions = [] ∧ z.modules = [] ∧ z.runs = [] ∧ z.log = [] ∧ z.tlb = []
    ∧ (∀ b, (z.bench b).q.cmds = [] ∧ (z.bench b).mu.cmds = [] ∧ (z.bench b).cr.cmds = [] ∧ (z.bench b).tiles = [] ∧ (z.bench b).out = false ∧ (z.core b).st = 0 ∧ ∀ i, z.gr b i = 0)
    ∧ (∀ d, (z.dk d).q.cmds = [] ∧ (z.dk d).runs = []) ∧ (∀ k, (z.ue k).q.cmds = []) ∧ (∀ u, (z.coll u).q.cmds = [])
    ∧ (∀ b : Fin 24, z.rn (R.BN_FLAG_CFG b) = 0xE03 ∧ z.rn (R.BN_FLAGS b) = 0 ∧ z.rn (R.BN_ID b) = b + (if b.val < 12 then 0 else 32) ∧ z.rn (R.BN_TILE_CFG b) = 0x200000
        ∧ z.rn (R.BN_RING b) = 0x8000000 ∧ z.rn (R.DR_RERUN b) = 0x80000010 ∧ z.rn (R.MU_PASSES b) = 3 ∧ z.rn (R.CC_CFG b) = 1)
    ∧ (∀ k : Fin 8, z.rn (R.UE_VT_CFG k) = 0x7D0 ∧ (∀ c : Fin 32, z.rn (R.UE_VT_CODE k c) = 0x80000000) ∧ z.rn (R.UE_SCRUB_CFG k) = 0x18)
    ∧ z.rn R.MM_INVAL_STATUS = 1 ∧ (∀ p : Fin 16, z.rn (R.LK_CFG p) = 0x400) ∧ z.rn R.LK_ESC = 0x10100 ∧ z.rn R.LK_E2E = 0x40014 ∧ z.rn R.LK_RSP_TIMEOUT = 0xC8 ∧ z.rn R.LK_MGMT = 8
    ∧ z.rn R.LK_DEV = 0 ∧ (∀ u : Fin 4, z.rn (R.CL_CFG u) = 0x03E8012C) ∧ (∀ v : Fin 84, z.rn (R.HX_VEC_MAP v) = v) ∧ (∀ r : Fin 64, z.rn (R.HX_RB_CFG r) = 6 * 2 ^ 48)
    ∧ z.rn R.GH_LOG_CFG = 3 ∧ z.rn R.GH_PHASE_CFG = 8 ∧ (∀ i : Fin 72, z.rn (R.GH_WB_TEMP i) = 0x80008000) ∧ (∀ d : Fin 36, z.rn (R.GH_WB_VOLT d) = 0xFFFF0000)
    ∧ z.rfld R.PW_STATUS 22 16 = 64 ∧ z.rn R.CK_CORE = 8

/-- The canonical form is an invariant of every step, for every command of the table and for the core cycle of an empty queue. -/
def Obligations.StepKeepsCanonical : Prop :=
  ∀ s t : State, s.canonical = true → step s = .next t → t.canonical = true

/-- The invariant of StepKeepsCanonical holds at reset. -/
def Obligations.ResetCanonical : Prop := State.reset.canonical = true ∧ State.reset.queueWf = true

/-- R281, R282, R284: the words of the control cores. -/
def Obligations.EdvenDecodeEncode : Prop :=
  (∀ e : Ed, e.wf = true → e.encode < 2 ^ 32 ∧ Ed.decode e.encode = some e)
    ∧ ∀ (w : Nat) (e : Ed), w < 2 ^ 32 → Ed.decode w = some e → e.wf = true ∧ e.encode = w
end

