-- ==== Sys2Proof/Laws/Sparse.lean ====
section
/-! SUPPORT. The laws of sparse data (SMap, SSet): the canonical form is kept by every operation, and a read after a write gives the value written
and leaves every other key alone. -/
namespace Sys2Proof.Machine

variable {α : Type} [DecidableEq α] {d : Nat → α}

theorem SMap.wfFrom_mono {m : List (Nat × α)} : ∀ {b c : Nat}, b ≤ c → SMap.wfFrom d c m = true → SMap.wfFrom d b m = true := by
  intro b c h hw
  cases m with
  | nil => rfl
  | cons e r =>
    obtain ⟨k, v⟩ := e
    simp only [SMap.wfFrom, Bool.and_eq_true, decide_eq_true_eq] at *
    exact ⟨⟨by omega, hw.1.2⟩, hw.2⟩

/-- An entry put in keeps the canonical form, if it is not the default. -/
theorem SMap.insert_wfFrom {k : Nat} {v : α} (hv : v ≠ d k) : ∀ {m : List (Nat × α)} {b : Nat}, b ≤ k → SMap.wfFrom d b m = true →
    SMap.wfFrom d b (SMap.insert k v m) = true := by
  intro m
  induction m with
  | nil => intro b h _; simp [SMap.insert, SMap.wfFrom, h, hv]
  | cons e r ih =>
    intro b h hw
    obtain ⟨j, w⟩ := e
    simp only [SMap.wfFrom, Bool.and_eq_true, decide_eq_true_eq] at hw
    unfold SMap.insert
    split
    · simp only [SMap.wfFrom, Bool.and_eq_true, decide_eq_true_eq]
      exact ⟨⟨h, hv⟩, ⟨by omega, hw.1.2⟩, hw.2⟩
    · split
      · next hkj => subst hkj; simp only [SMap.wfFrom, Bool.and_eq_true, decide_eq_true_eq]; exact ⟨⟨h, hv⟩, hw.2⟩
      · simp only [SMap.wfFrom, Bool.and_eq_true, decide_eq_true_eq]
        exact ⟨hw.1, ih (by omega) hw.2⟩

/-- An entry taken away keeps the canonical form. -/
theorem SMap.erase_wfFrom {k : Nat} : ∀ {m : List (Nat × α)} {b : Nat}, SMap.wfFrom d b m = true → SMap.wfFrom d b (SMap.erase k m) = true := by
  intro m
  induction m with
  | nil => intro b h; exact h
  | cons e r ih =>
    intro b hw
    obtain ⟨j, w⟩ := e
    simp only [SMap.wfFrom, Bool.and_eq_true, decide_eq_true_eq] at hw
    unfold SMap.erase
    split
    · exact SMap.wfFrom_mono (by omega) hw.2
    · simp only [SMap.wfFrom, Bool.and_eq_true, decide_eq_true_eq]; exact ⟨hw.1, ih hw.2⟩

/-- Every write keeps the canonical form. -/
theorem SMap.set_wf {m : List (Nat × α)} (k : Nat) (v : α) (h : SMap.wf d m = true) : SMap.wf d (SMap.set d m k v) = true := by
  unfold SMap.set SMap.wf at *
  split
  · exact SMap.erase_wfFrom h
  · next hv => exact SMap.insert_wfFrom hv (Nat.zero_le _) h

/-- A map whose entries all lie above a key reads the default there. -/
theorem SMap.get_of_wfFrom {m : List (Nat × α)} : ∀ {b k : Nat}, k < b → SMap.wfFrom d b m = true → SMap.get d m k = d k := by
  induction m with
  | nil => intros; rfl
  | cons e r ih =>
    intro b k hk hw
    obtain ⟨j, w⟩ := e
    simp only [SMap.wfFrom, Bool.and_eq_true, decide_eq_true_eq] at hw
    unfold SMap.get
    rw [if_neg (by omega)]
    exact ih (by omega) hw.2

omit [DecidableEq α] in
theorem SMap.get_insert {k : Nat} {v : α} (j : Nat) : ∀ {m : List (Nat × α)}, SMap.get d (SMap.insert k v m) j = if j = k then v else SMap.get d m j := by
  intro m
  induction m with
  | nil => simp [SMap.insert, SMap.get]
  | cons e r ih =>
    obtain ⟨i, w⟩ := e
    unfold SMap.insert
    split
    · simp [SMap.get]
    · split
      · next h => subst h; simp only [SMap.get]; split <;> rfl
      · next h1 h2 => simp only [SMap.get, ih]; split
                      · next h3 => subst h3; rw [if_neg (by omega)]
                      · rfl

theorem SMap.get_erase {k : Nat} (j : Nat) : ∀ {m : List (Nat × α)} {b : Nat}, SMap.wfFrom d b m = true →
    SMap.get d (SMap.erase k m) j = if j = k then d k else SMap.get d m j := by
  intro m
  induction m with
  | nil => intro b _; simp only [SMap.erase, SMap.get]; split <;> simp_all
  | cons e r ih =>
    intro b hw
    obtain ⟨i, w⟩ := e
    simp only [SMap.wfFrom, Bool.and_eq_true, decide_eq_true_eq] at hw
    unfold SMap.erase
    split
    · next h =>
      subst h
      by_cases hj : j = k
      · subst hj; simp only [if_true]; exact SMap.get_of_wfFrom (Nat.lt_succ_self _) hw.2
      · simp [SMap.get, hj]
    · next h =>
      simp only [SMap.get, ih hw.2]
      split
      · next h3 => subst h3; rw [if_neg (Ne.symm h)]
      · rfl

/-- A read after a write: the value written at its key, what was there everywhere else. -/
theorem SMap.get_set {m : List (Nat × α)} (k j : Nat) (v : α) (h : SMap.wf d m = true) :
    SMap.get d (SMap.set d m k v) j = if j = k then v else SMap.get d m j := by
  unfold SMap.set
  split
  · next hv => subst hv; exact SMap.get_erase j h
  · exact SMap.get_insert j

/-- Keeping a part of the entries keeps the canonical form. -/
theorem SMap.keep_wfFrom {p : Nat → Bool} : ∀ {m : List (Nat × α)} {b : Nat}, SMap.wfFrom d b m = true → SMap.wfFrom d b (SMap.keep p m) = true := by
  intro m
  induction m with
  | nil => intro b h; exact h
  | cons e r ih =>
    intro b hw
    obtain ⟨i, w⟩ := e
    simp only [SMap.wfFrom, Bool.and_eq_true, decide_eq_true_eq] at hw
    unfold SMap.keep List.filter
    split
    · simp only [SMap.wfFrom, Bool.and_eq_true, decide_eq_true_eq]; exact ⟨hw.1, ih hw.2⟩
    · exact SMap.wfFrom_mono (by omega) (ih (b := i + 1) hw.2)

theorem SMap.keep_wf {p : Nat → Bool} {m : List (Nat × α)} (h : SMap.wf d m = true) : SMap.wf d (SMap.keep p m) = true := SMap.keep_wfFrom h

/-- Numbers above a bound stay strictly rising when one is added. -/
theorem SSet.insert_wfFrom {k : Nat} : ∀ {l : List Nat} {b : Nat}, b ≤ k → SSet.wfFrom b l = true → SSet.wfFrom b (SSet.insert k l) = true := by
  intro l
  induction l with
  | nil => intro b h _; simp [SSet.insert, SSet.wfFrom, h]
  | cons j r ih =>
    intro b h hw
    simp only [SSet.wfFrom, Bool.and_eq_true, decide_eq_true_eq] at hw
    unfold SSet.insert
    split
    · simp only [SSet.wfFrom, Bool.and_eq_true, decide_eq_true_eq]; exact ⟨h, by omega, hw.2⟩
    · split
      · simp only [SSet.wfFrom, Bool.and_eq_true, decide_eq_true_eq]; exact hw
      · simp only [SSet.wfFrom, Bool.and_eq_true, decide_eq_true_eq]; exact ⟨hw.1, ih (by omega) hw.2⟩

theorem SSet.wfFrom_mono {l : List Nat} {b c : Nat} (h : b ≤ c) (hw : SSet.wfFrom c l = true) : SSet.wfFrom b l = true := by
  cases l with
  | nil => rfl
  | cons k r => simp only [SSet.wfFrom, Bool.and_eq_true, decide_eq_true_eq] at *; exact ⟨by omega, hw.2⟩

/-- A part of a strictly rising list rises strictly. -/
theorem SSet.filter_wfFrom {p : Nat → Bool} : ∀ {l : List Nat} {b : Nat}, SSet.wfFrom b l = true → SSet.wfFrom b (l.filter p) = true := by
  intro l
  induction l with
  | nil => intro b h; exact h
  | cons k r ih =>
    intro b hw
    simp only [SSet.wfFrom, Bool.and_eq_true, decide_eq_true_eq] at hw
    unfold List.filter
    split
    · simp only [SSet.wfFrom, Bool.and_eq_true, decide_eq_true_eq]; exact ⟨hw.1, ih hw.2⟩
    · exact SSet.wfFrom_mono (by omega) (ih hw.2)

/-- Memory bytes put one after another keep the canonical form. -/
theorem putMem_wf (ok : Nat → Bool) : ∀ (bs : Bytes) (m : List (Nat × Byte)) (a : Nat), Memory.wf m = true → Memory.wf (putMem ok m a bs) = true := by
  intro bs
  induction bs with
  | nil => intro m a h; exact h
  | cons b r ih =>
    intro m a h
    unfold putMem
    apply ih
    split
    · exact SMap.set_wf a b h
    · exact h

end Sys2Proof.Machine
end

