-- ==== Sys2Proof/Laws/State.lean ====
section
/-! SUPPORT. What each named update of the state leaves alone, field by field, so that no later proof unfolds a record update. -/
namespace Sys2Proof.Machine

variable (s : State)

@[simp] theorem State.setReg_pending (a : Nat) (v : W64) : (s.setReg a v).pending = s.pending := rfl
@[simp] theorem State.setReg_out (a : Nat) (v : W64) : (s.setReg a v).out = s.out := rfl
@[simp] theorem State.setReg_freeCtr (a : Nat) (v : W64) : (s.setReg a v).freeCtr = s.freeCtr := rfl
@[simp] theorem State.setReg_time (a : Nat) (v : W64) : (s.setReg a v).time = s.time := rfl
@[simp] theorem State.setReg_mem (a : Nat) (v : W64) : (s.setReg a v).mem = s.mem := rfl
@[simp] theorem State.setReg_poison (a : Nat) (v : W64) : (s.setReg a v).poison = s.poison := rfl
@[simp] theorem State.setReg_sync (a : Nat) (v : W64) : (s.setReg a v).sync = s.sync := rfl
@[simp] theorem State.setReg_log (a : Nat) (v : W64) : (s.setReg a v).log = s.log := rfl
@[simp] theorem State.setReg_logSeq (a : Nat) (v : W64) : (s.setReg a v).logSeq = s.logSeq := rfl
@[simp] theorem State.setReg_flashLog (a : Nat) (v : W64) : (s.setReg a v).flashLog = s.flashLog := rfl
@[simp] theorem State.setReg_flashSeq (a : Nat) (v : W64) : (s.setReg a v).flashSeq = s.flashSeq := rfl
@[simp] theorem State.setReg_msixEn (a : Nat) (v : W64) : (s.setReg a v).msixEn = s.msixEn := rfl
@[simp] theorem State.setReg_msixMask (a : Nat) (v : W64) : (s.setReg a v).msixMask = s.msixMask := rfl
@[simp] theorem State.setReg_spall (a : Nat) (v : W64) : (s.setReg a v).spall = s.spall := rfl
@[simp] theorem State.setReg_regions (a : Nat) (v : W64) : (s.setReg a v).regions = s.regions := rfl
@[simp] theorem State.setReg_regionUid (a : Nat) (v : W64) : (s.setReg a v).regionUid = s.regionUid := rfl
@[simp] theorem State.setReg_ports (a : Nat) (v : W64) : (s.setReg a v).ports = s.ports := rfl
@[simp] theorem State.setReg_e2eTx (a : Nat) (v : W64) : (s.setReg a v).e2eTx = s.e2eTx := rfl
@[simp] theorem State.setReg_e2eRx (a : Nat) (v : W64) : (s.setReg a v).e2eRx = s.e2eRx := rfl
@[simp] theorem State.setReg_txns (a : Nat) (v : W64) : (s.setReg a v).txns = s.txns := rfl
@[simp] theorem State.setReg_inbox (a : Nat) (v : W64) : (s.setReg a v).inbox = s.inbox := rfl
@[simp] theorem State.setReg_mgmtHold (a : Nat) (v : W64) : (s.setReg a v).mgmtHold = s.mgmtHold := rfl
@[simp] theorem State.setReg_mgmtTokens (a : Nat) (v : W64) : (s.setReg a v).mgmtTokens = s.mgmtTokens := rfl
@[simp] theorem State.setReg_mgmtTime (a : Nat) (v : W64) : (s.setReg a v).mgmtTime = s.mgmtTime := rfl
@[simp] theorem State.setReg_unreachLog (a : Nat) (v : W64) : (s.setReg a v).unreachLog = s.unreachLog := rfl
@[simp] theorem State.setReg_tlb (a : Nat) (v : W64) : (s.setReg a v).tlb = s.tlb := rfl
@[simp] theorem State.setReg_invals (a : Nat) (v : W64) : (s.setReg a v).invals = s.invals := rfl
@[simp] theorem State.setReg_derricks (a : Nat) (v : W64) : (s.setReg a v).derricks = s.derricks := rfl
@[simp] theorem State.setReg_arbs (a : Nat) (v : W64) : (s.setReg a v).arbs = s.arbs := rfl
@[simp] theorem State.setReg_seLast (a : Nat) (v : W64) : (s.setReg a v).seLast = s.seLast := rfl
@[simp] theorem State.setReg_busMaster (a : Nat) (v : W64) : (s.setReg a v).busMaster = s.busMaster := rfl
@[simp] theorem State.setReg_scrubLow (a : Nat) (v : W64) : (s.setReg a v).scrubLow = s.scrubLow := rfl
@[simp] theorem State.setReg_ues (a : Nat) (v : W64) : (s.setReg a v).ues = s.ues := rfl
@[simp] theorem State.setReg_colls (a : Nat) (v : W64) : (s.setReg a v).colls = s.colls := rfl
@[simp] theorem State.setReg_tally (a : Nat) (v : W64) : (s.setReg a v).tally = s.tally := rfl
@[simp] theorem State.setReg_ended (a : Nat) (v : W64) : (s.setReg a v).ended = s.ended := rfl
@[simp] theorem State.setReg_lateLog (a : Nat) (v : W64) : (s.setReg a v).lateLog = s.lateLog := rfl
@[simp] theorem State.setReg_early (a : Nat) (v : W64) : (s.setReg a v).early = s.early := rfl
@[simp] theorem State.setReg_straps (a : Nat) (v : W64) : (s.setReg a v).straps = s.straps := rfl
@[simp] theorem State.setReg_pci (a : Nat) (v : W64) : (s.setReg a v).pci = s.pci := rfl
@[simp] theorem State.setReg_released (a : Nat) (v : W64) : (s.setReg a v).released = s.released := rfl
@[simp] theorem State.setReg_cores (a : Nat) (v : W64) : (s.setReg a v).cores = s.cores := rfl
@[simp] theorem State.setReg_l2 (a : Nat) (v : W64) : (s.setReg a v).l2 = s.l2 := rfl
@[simp] theorem State.setReg_modules (a : Nat) (v : W64) : (s.setReg a v).modules = s.modules := rfl
@[simp] theorem State.setReg_runs (a : Nat) (v : W64) : (s.setReg a v).runs = s.runs := rfl
@[simp] theorem State.setReg_repro (a : Nat) (v : W64) : (s.setReg a v).repro = s.repro := rfl
@[simp] theorem State.setReg_rings (a : Nat) (v : W64) : (s.setReg a v).rings = s.rings := rfl
@[simp] theorem State.setReg_members (a : Nat) (v : W64) : (s.setReg a v).members = s.members := rfl
@[simp] theorem State.setReg_cm (a : Nat) (v : W64) : (s.setReg a v).cm = s.cm := rfl
@[simp] theorem State.setReg_mb (a : Nat) (v : W64) : (s.setReg a v).mb = s.mb := rfl
@[simp] theorem State.setReg_bridge (a : Nat) (v : W64) : (s.setReg a v).bridge = s.bridge := rfl
@[simp] theorem State.setReg_gate (a : Nat) (v : W64) : (s.setReg a v).gate = s.gate := rfl
@[simp] theorem State.setReg_pwr (a : Nat) (v : W64) : (s.setReg a v).pwr = s.pwr := rfl
@[simp] theorem State.setReg_held (a : Nat) (v : W64) : (s.setReg a v).held = s.held := rfl
@[simp] theorem State.setReg_cmBox (a : Nat) (v : W64) : (s.setReg a v).cmBox = s.cmBox := rfl
@[simp] theorem State.setReg_benches (a : Nat) (v : W64) : (s.setReg a v).benches = s.benches := rfl

@[simp] theorem State.setRn_pending (a v : Nat) : (s.setRn a v).pending = s.pending := rfl
@[simp] theorem State.setRn_out (a v : Nat) : (s.setRn a v).out = s.out := rfl
@[simp] theorem State.setRn_freeCtr (a v : Nat) : (s.setRn a v).freeCtr = s.freeCtr := rfl
@[simp] theorem State.setRn_time (a v : Nat) : (s.setRn a v).time = s.time := rfl
@[simp] theorem State.setRn_mem (a v : Nat) : (s.setRn a v).mem = s.mem := rfl
@[simp] theorem State.setRn_poison (a v : Nat) : (s.setRn a v).poison = s.poison := rfl
@[simp] theorem State.setRn_sync (a v : Nat) : (s.setRn a v).sync = s.sync := rfl
@[simp] theorem State.setRn_log (a v : Nat) : (s.setRn a v).log = s.log := rfl
@[simp] theorem State.setRn_logSeq (a v : Nat) : (s.setRn a v).logSeq = s.logSeq := rfl
@[simp] theorem State.setRn_flashLog (a v : Nat) : (s.setRn a v).flashLog = s.flashLog := rfl
@[simp] theorem State.setRn_flashSeq (a v : Nat) : (s.setRn a v).flashSeq = s.flashSeq := rfl
@[simp] theorem State.setRn_msixEn (a v : Nat) : (s.setRn a v).msixEn = s.msixEn := rfl
@[simp] theorem State.setRn_msixMask (a v : Nat) : (s.setRn a v).msixMask = s.msixMask := rfl
@[simp] theorem State.setRn_spall (a v : Nat) : (s.setRn a v).spall = s.spall := rfl
@[simp] theorem State.setRn_regions (a v : Nat) : (s.setRn a v).regions = s.regions := rfl
@[simp] theorem State.setRn_regionUid (a v : Nat) : (s.setRn a v).regionUid = s.regionUid := rfl
@[simp] theorem State.setRn_ports (a v : Nat) : (s.setRn a v).ports = s.ports := rfl
@[simp] theorem State.setRn_e2eTx (a v : Nat) : (s.setRn a v).e2eTx = s.e2eTx := rfl
@[simp] theorem State.setRn_e2eRx (a v : Nat) : (s.setRn a v).e2eRx = s.e2eRx := rfl
@[simp] theorem State.setRn_txns (a v : Nat) : (s.setRn a v).txns = s.txns := rfl
@[simp] theorem State.setRn_inbox (a v : Nat) : (s.setRn a v).inbox = s.inbox := rfl
@[simp] theorem State.setRn_mgmtHold (a v : Nat) : (s.setRn a v).mgmtHold = s.mgmtHold := rfl
@[simp] theorem State.setRn_mgmtTokens (a v : Nat) : (s.setRn a v).mgmtTokens = s.mgmtTokens := rfl
@[simp] theorem State.setRn_mgmtTime (a v : Nat) : (s.setRn a v).mgmtTime = s.mgmtTime := rfl
@[simp] theorem State.setRn_unreachLog (a v : Nat) : (s.setRn a v).unreachLog = s.unreachLog := rfl
@[simp] theorem State.setRn_tlb (a v : Nat) : (s.setRn a v).tlb = s.tlb := rfl
@[simp] theorem State.setRn_invals (a v : Nat) : (s.setRn a v).invals = s.invals := rfl
@[simp] theorem State.setRn_derricks (a v : Nat) : (s.setRn a v).derricks = s.derricks := rfl
@[simp] theorem State.setRn_arbs (a v : Nat) : (s.setRn a v).arbs = s.arbs := rfl
@[simp] theorem State.setRn_seLast (a v : Nat) : (s.setRn a v).seLast = s.seLast := rfl
@[simp] theorem State.setRn_busMaster (a v : Nat) : (s.setRn a v).busMaster = s.busMaster := rfl
@[simp] theorem State.setRn_scrubLow (a v : Nat) : (s.setRn a v).scrubLow = s.scrubLow := rfl
@[simp] theorem State.setRn_ues (a v : Nat) : (s.setRn a v).ues = s.ues := rfl
@[simp] theorem State.setRn_colls (a v : Nat) : (s.setRn a v).colls = s.colls := rfl
@[simp] theorem State.setRn_tally (a v : Nat) : (s.setRn a v).tally = s.tally := rfl
@[simp] theorem State.setRn_ended (a v : Nat) : (s.setRn a v).ended = s.ended := rfl
@[simp] theorem State.setRn_lateLog (a v : Nat) : (s.setRn a v).lateLog = s.lateLog := rfl
@[simp] theorem State.setRn_early (a v : Nat) : (s.setRn a v).early = s.early := rfl
@[simp] theorem State.setRn_straps (a v : Nat) : (s.setRn a v).straps = s.straps := rfl
@[simp] theorem State.setRn_pci (a v : Nat) : (s.setRn a v).pci = s.pci := rfl
@[simp] theorem State.setRn_released (a v : Nat) : (s.setRn a v).released = s.released := rfl
@[simp] theorem State.setRn_cores (a v : Nat) : (s.setRn a v).cores = s.cores := rfl
@[simp] theorem State.setRn_l2 (a v : Nat) : (s.setRn a v).l2 = s.l2 := rfl
@[simp] theorem State.setRn_modules (a v : Nat) : (s.setRn a v).modules = s.modules := rfl
@[simp] theorem State.setRn_runs (a v : Nat) : (s.setRn a v).runs = s.runs := rfl
@[simp] theorem State.setRn_repro (a v : Nat) : (s.setRn a v).repro = s.repro := rfl
@[simp] theorem State.setRn_rings (a v : Nat) : (s.setRn a v).rings = s.rings := rfl
@[simp] theorem State.setRn_members (a v : Nat) : (s.setRn a v).members = s.members := rfl
@[simp] theorem State.setRn_cm (a v : Nat) : (s.setRn a v).cm = s.cm := rfl
@[simp] theorem State.setRn_mb (a v : Nat) : (s.setRn a v).mb = s.mb := rfl
@[simp] theorem State.setRn_bridge (a v : Nat) : (s.setRn a v).bridge = s.bridge := rfl
@[simp] theorem State.setRn_gate (a v : Nat) : (s.setRn a v).gate = s.gate := rfl
@[simp] theorem State.setRn_pwr (a v : Nat) : (s.setRn a v).pwr = s.pwr := rfl
@[simp] theorem State.setRn_held (a v : Nat) : (s.setRn a v).held = s.held := rfl
@[simp] theorem State.setRn_cmBox (a v : Nat) : (s.setRn a v).cmBox = s.cmBox := rfl
@[simp] theorem State.setRn_benches (a v : Nat) : (s.setRn a v).benches = s.benches := rfl

@[simp] theorem State.setFld_pending (a hi lo v : Nat) : (s.setFld a hi lo v).pending = s.pending := rfl
@[simp] theorem State.setFld_out (a hi lo v : Nat) : (s.setFld a hi lo v).out = s.out := rfl
@[simp] theorem State.setFld_freeCtr (a hi lo v : Nat) : (s.setFld a hi lo v).freeCtr = s.freeCtr := rfl
@[simp] theorem State.setFld_time (a hi lo v : Nat) : (s.setFld a hi lo v).time = s.time := rfl
@[simp] theorem State.setFld_mem (a hi lo v : Nat) : (s.setFld a hi lo v).mem = s.mem := rfl
@[simp] theorem State.setFld_poison (a hi lo v : Nat) : (s.setFld a hi lo v).poison = s.poison := rfl
@[simp] theorem State.setFld_sync (a hi lo v : Nat) : (s.setFld a hi lo v).sync = s.sync := rfl
@[simp] theorem State.setFld_log (a hi lo v : Nat) : (s.setFld a hi lo v).log = s.log := rfl
@[simp] theorem State.setFld_logSeq (a hi lo v : Nat) : (s.setFld a hi lo v).logSeq = s.logSeq := rfl
@[simp] theorem State.setFld_flashLog (a hi lo v : Nat) : (s.setFld a hi lo v).flashLog = s.flashLog := rfl
@[simp] theorem State.setFld_flashSeq (a hi lo v : Nat) : (s.setFld a hi lo v).flashSeq = s.flashSeq := rfl
@[simp] theorem State.setFld_msixEn (a hi lo v : Nat) : (s.setFld a hi lo v).msixEn = s.msixEn := rfl
@[simp] theorem State.setFld_msixMask (a hi lo v : Nat) : (s.setFld a hi lo v).msixMask = s.msixMask := rfl
@[simp] theorem State.setFld_spall (a hi lo v : Nat) : (s.setFld a hi lo v).spall = s.spall := rfl
@[simp] theorem State.setFld_regions (a hi lo v : Nat) : (s.setFld a hi lo v).regions = s.regions := rfl
@[simp] theorem State.setFld_regionUid (a hi lo v : Nat) : (s.setFld a hi lo v).regionUid = s.regionUid := rfl
@[simp] theorem State.setFld_ports (a hi lo v : Nat) : (s.setFld a hi lo v).ports = s.ports := rfl
@[simp] theorem State.setFld_e2eTx (a hi lo v : Nat) : (s.setFld a hi lo v).e2eTx = s.e2eTx := rfl
@[simp] theorem State.setFld_e2eRx (a hi lo v : Nat) : (s.setFld a hi lo v).e2eRx = s.e2eRx := rfl
@[simp] theorem State.setFld_txns (a hi lo v : Nat) : (s.setFld a hi lo v).txns = s.txns := rfl
@[simp] theorem State.setFld_inbox (a hi lo v : Nat) : (s.setFld a hi lo v).inbox = s.inbox := rfl
@[simp] theorem State.setFld_mgmtHold (a hi lo v : Nat) : (s.setFld a hi lo v).mgmtHold = s.mgmtHold := rfl
@[simp] theorem State.setFld_mgmtTokens (a hi lo v : Nat) : (s.setFld a hi lo v).mgmtTokens = s.mgmtTokens := rfl
@[simp] theorem State.setFld_mgmtTime (a hi lo v : Nat) : (s.setFld a hi lo v).mgmtTime = s.mgmtTime := rfl
@[simp] theorem State.setFld_unreachLog (a hi lo v : Nat) : (s.setFld a hi lo v).unreachLog = s.unreachLog := rfl
@[simp] theorem State.setFld_tlb (a hi lo v : Nat) : (s.setFld a hi lo v).tlb = s.tlb := rfl
@[simp] theorem State.setFld_invals (a hi lo v : Nat) : (s.setFld a hi lo v).invals = s.invals := rfl
@[simp] theorem State.setFld_derricks (a hi lo v : Nat) : (s.setFld a hi lo v).derricks = s.derricks := rfl
@[simp] theorem State.setFld_arbs (a hi lo v : Nat) : (s.setFld a hi lo v).arbs = s.arbs := rfl
@[simp] theorem State.setFld_seLast (a hi lo v : Nat) : (s.setFld a hi lo v).seLast = s.seLast := rfl
@[simp] theorem State.setFld_busMaster (a hi lo v : Nat) : (s.setFld a hi lo v).busMaster = s.busMaster := rfl
@[simp] theorem State.setFld_scrubLow (a hi lo v : Nat) : (s.setFld a hi lo v).scrubLow = s.scrubLow := rfl
@[simp] theorem State.setFld_ues (a hi lo v : Nat) : (s.setFld a hi lo v).ues = s.ues := rfl
@[simp] theorem State.setFld_colls (a hi lo v : Nat) : (s.setFld a hi lo v).colls = s.colls := rfl
@[simp] theorem State.setFld_tally (a hi lo v : Nat) : (s.setFld a hi lo v).tally = s.tally := rfl
@[simp] theorem State.setFld_ended (a hi lo v : Nat) : (s.setFld a hi lo v).ended = s.ended := rfl
@[simp] theorem State.setFld_lateLog (a hi lo v : Nat) : (s.setFld a hi lo v).lateLog = s.lateLog := rfl
@[simp] theorem State.setFld_early (a hi lo v : Nat) : (s.setFld a hi lo v).early = s.early := rfl
@[simp] theorem State.setFld_straps (a hi lo v : Nat) : (s.setFld a hi lo v).straps = s.straps := rfl
@[simp] theorem State.setFld_pci (a hi lo v : Nat) : (s.setFld a hi lo v).pci = s.pci := rfl
@[simp] theorem State.setFld_released (a hi lo v : Nat) : (s.setFld a hi lo v).released = s.released := rfl
@[simp] theorem State.setFld_cores (a hi lo v : Nat) : (s.setFld a hi lo v).cores = s.cores := rfl
@[simp] theorem State.setFld_l2 (a hi lo v : Nat) : (s.setFld a hi lo v).l2 = s.l2 := rfl
@[simp] theorem State.setFld_modules (a hi lo v : Nat) : (s.setFld a hi lo v).modules = s.modules := rfl
@[simp] theorem State.setFld_runs (a hi lo v : Nat) : (s.setFld a hi lo v).runs = s.runs := rfl
@[simp] theorem State.setFld_repro (a hi lo v : Nat) : (s.setFld a hi lo v).repro = s.repro := rfl
@[simp] theorem State.setFld_rings (a hi lo v : Nat) : (s.setFld a hi lo v).rings = s.rings := rfl
@[simp] theorem State.setFld_members (a hi lo v : Nat) : (s.setFld a hi lo v).members = s.members := rfl
@[simp] theorem State.setFld_cm (a hi lo v : Nat) : (s.setFld a hi lo v).cm = s.cm := rfl
@[simp] theorem State.setFld_mb (a hi lo v : Nat) : (s.setFld a hi lo v).mb = s.mb := rfl
@[simp] theorem State.setFld_bridge (a hi lo v : Nat) : (s.setFld a hi lo v).bridge = s.bridge := rfl
@[simp] theorem State.setFld_gate (a hi lo v : Nat) : (s.setFld a hi lo v).gate = s.gate := rfl
@[simp] theorem State.setFld_pwr (a hi lo v : Nat) : (s.setFld a hi lo v).pwr = s.pwr := rfl
@[simp] theorem State.setFld_held (a hi lo v : Nat) : (s.setFld a hi lo v).held = s.held := rfl
@[simp] theorem State.setFld_cmBox (a hi lo v : Nat) : (s.setFld a hi lo v).cmBox = s.cmBox := rfl
@[simp] theorem State.setFld_benches (a hi lo v : Nat) : (s.setFld a hi lo v).benches = s.benches := rfl

@[simp] theorem State.addReg_pending (a n : Nat) : (s.addReg a n).pending = s.pending := rfl
@[simp] theorem State.addReg_out (a n : Nat) : (s.addReg a n).out = s.out := rfl
@[simp] theorem State.addReg_freeCtr (a n : Nat) : (s.addReg a n).freeCtr = s.freeCtr := rfl
@[simp] theorem State.addReg_time (a n : Nat) : (s.addReg a n).time = s.time := rfl
@[simp] theorem State.addReg_mem (a n : Nat) : (s.addReg a n).mem = s.mem := rfl
@[simp] theorem State.addReg_poison (a n : Nat) : (s.addReg a n).poison = s.poison := rfl
@[simp] theorem State.addReg_sync (a n : Nat) : (s.addReg a n).sync = s.sync := rfl
@[simp] theorem State.addReg_log (a n : Nat) : (s.addReg a n).log = s.log := rfl
@[simp] theorem State.addReg_logSeq (a n : Nat) : (s.addReg a n).logSeq = s.logSeq := rfl
@[simp] theorem State.addReg_flashLog (a n : Nat) : (s.addReg a n).flashLog = s.flashLog := rfl
@[simp] theorem State.addReg_flashSeq (a n : Nat) : (s.addReg a n).flashSeq = s.flashSeq := rfl
@[simp] theorem State.addReg_msixEn (a n : Nat) : (s.addReg a n).msixEn = s.msixEn := rfl
@[simp] theorem State.addReg_msixMask (a n : Nat) : (s.addReg a n).msixMask = s.msixMask := rfl
@[simp] theorem State.addReg_spall (a n : Nat) : (s.addReg a n).spall = s.spall := rfl
@[simp] theorem State.addReg_regions (a n : Nat) : (s.addReg a n).regions = s.regions := rfl
@[simp] theorem State.addReg_regionUid (a n : Nat) : (s.addReg a n).regionUid = s.regionUid := rfl
@[simp] theorem State.addReg_ports (a n : Nat) : (s.addReg a n).ports = s.ports := rfl
@[simp] theorem State.addReg_e2eTx (a n : Nat) : (s.addReg a n).e2eTx = s.e2eTx := rfl
@[simp] theorem State.addReg_e2eRx (a n : Nat) : (s.addReg a n).e2eRx = s.e2eRx := rfl
@[simp] theorem State.addReg_txns (a n : Nat) : (s.addReg a n).txns = s.txns := rfl
@[simp] theorem State.addReg_inbox (a n : Nat) : (s.addReg a n).inbox = s.inbox := rfl
@[simp] theorem State.addReg_mgmtHold (a n : Nat) : (s.addReg a n).mgmtHold = s.mgmtHold := rfl
@[simp] theorem State.addReg_mgmtTokens (a n : Nat) : (s.addReg a n).mgmtTokens = s.mgmtTokens := rfl
@[simp] theorem State.addReg_mgmtTime (a n : Nat) : (s.addReg a n).mgmtTime = s.mgmtTime := rfl
@[simp] theorem State.addReg_unreachLog (a n : Nat) : (s.addReg a n).unreachLog = s.unreachLog := rfl
@[simp] theorem State.addReg_tlb (a n : Nat) : (s.addReg a n).tlb = s.tlb := rfl
@[simp] theorem State.addReg_invals (a n : Nat) : (s.addReg a n).invals = s.invals := rfl
@[simp] theorem State.addReg_derricks (a n : Nat) : (s.addReg a n).derricks = s.derricks := rfl
@[simp] theorem State.addReg_arbs (a n : Nat) : (s.addReg a n).arbs = s.arbs := rfl
@[simp] theorem State.addReg_seLast (a n : Nat) : (s.addReg a n).seLast = s.seLast := rfl
@[simp] theorem State.addReg_busMaster (a n : Nat) : (s.addReg a n).busMaster = s.busMaster := rfl
@[simp] theorem State.addReg_scrubLow (a n : Nat) : (s.addReg a n).scrubLow = s.scrubLow := rfl
@[simp] theorem State.addReg_ues (a n : Nat) : (s.addReg a n).ues = s.ues := rfl
@[simp] theorem State.addReg_colls (a n : Nat) : (s.addReg a n).colls = s.colls := rfl
@[simp] theorem State.addReg_tally (a n : Nat) : (s.addReg a n).tally = s.tally := rfl
@[simp] theorem State.addReg_ended (a n : Nat) : (s.addReg a n).ended = s.ended := rfl
@[simp] theorem State.addReg_lateLog (a n : Nat) : (s.addReg a n).lateLog = s.lateLog := rfl
@[simp] theorem State.addReg_early (a n : Nat) : (s.addReg a n).early = s.early := rfl
@[simp] theorem State.addReg_straps (a n : Nat) : (s.addReg a n).straps = s.straps := rfl
@[simp] theorem State.addReg_pci (a n : Nat) : (s.addReg a n).pci = s.pci := rfl
@[simp] theorem State.addReg_released (a n : Nat) : (s.addReg a n).released = s.released := rfl
@[simp] theorem State.addReg_cores (a n : Nat) : (s.addReg a n).cores = s.cores := rfl
@[simp] theorem State.addReg_l2 (a n : Nat) : (s.addReg a n).l2 = s.l2 := rfl
@[simp] theorem State.addReg_modules (a n : Nat) : (s.addReg a n).modules = s.modules := rfl
@[simp] theorem State.addReg_runs (a n : Nat) : (s.addReg a n).runs = s.runs := rfl
@[simp] theorem State.addReg_repro (a n : Nat) : (s.addReg a n).repro = s.repro := rfl
@[simp] theorem State.addReg_rings (a n : Nat) : (s.addReg a n).rings = s.rings := rfl
@[simp] theorem State.addReg_members (a n : Nat) : (s.addReg a n).members = s.members := rfl
@[simp] theorem State.addReg_cm (a n : Nat) : (s.addReg a n).cm = s.cm := rfl
@[simp] theorem State.addReg_mb (a n : Nat) : (s.addReg a n).mb = s.mb := rfl
@[simp] theorem State.addReg_bridge (a n : Nat) : (s.addReg a n).bridge = s.bridge := rfl
@[simp] theorem State.addReg_gate (a n : Nat) : (s.addReg a n).gate = s.gate := rfl
@[simp] theorem State.addReg_pwr (a n : Nat) : (s.addReg a n).pwr = s.pwr := rfl
@[simp] theorem State.addReg_held (a n : Nat) : (s.addReg a n).held = s.held := rfl
@[simp] theorem State.addReg_cmBox (a n : Nat) : (s.addReg a n).cmBox = s.cmBox := rfl
@[simp] theorem State.addReg_benches (a n : Nat) : (s.addReg a n).benches = s.benches := rfl

@[simp] theorem State.resetRegs_pending (lo hi : Nat) : (s.resetRegs lo hi).pending = s.pending := rfl
@[simp] theorem State.resetRegs_out (lo hi : Nat) : (s.resetRegs lo hi).out = s.out := rfl
@[simp] theorem State.resetRegs_freeCtr (lo hi : Nat) : (s.resetRegs lo hi).freeCtr = s.freeCtr := rfl
@[simp] theorem State.resetRegs_time (lo hi : Nat) : (s.resetRegs lo hi).time = s.time := rfl
@[simp] theorem State.resetRegs_mem (lo hi : Nat) : (s.resetRegs lo hi).mem = s.mem := rfl
@[simp] theorem State.resetRegs_poison (lo hi : Nat) : (s.resetRegs lo hi).poison = s.poison := rfl
@[simp] theorem State.resetRegs_sync (lo hi : Nat) : (s.resetRegs lo hi).sync = s.sync := rfl
@[simp] theorem State.resetRegs_log (lo hi : Nat) : (s.resetRegs lo hi).log = s.log := rfl
@[simp] theorem State.resetRegs_logSeq (lo hi : Nat) : (s.resetRegs lo hi).logSeq = s.logSeq := rfl
@[simp] theorem State.resetRegs_flashLog (lo hi : Nat) : (s.resetRegs lo hi).flashLog = s.flashLog := rfl
@[simp] theorem State.resetRegs_flashSeq (lo hi : Nat) : (s.resetRegs lo hi).flashSeq = s.flashSeq := rfl
@[simp] theorem State.resetRegs_msixEn (lo hi : Nat) : (s.resetRegs lo hi).msixEn = s.msixEn := rfl
@[simp] theorem State.resetRegs_msixMask (lo hi : Nat) : (s.resetRegs lo hi).msixMask = s.msixMask := rfl
@[simp] theorem State.resetRegs_spall (lo hi : Nat) : (s.resetRegs lo hi).spall = s.spall := rfl
@[simp] theorem State.resetRegs_regions (lo hi : Nat) : (s.resetRegs lo hi).regions = s.regions := rfl
@[simp] theorem State.resetRegs_regionUid (lo hi : Nat) : (s.resetRegs lo hi).regionUid = s.regionUid := rfl
@[simp] theorem State.resetRegs_ports (lo hi : Nat) : (s.resetRegs lo hi).ports = s.ports := rfl
@[simp] theorem State.resetRegs_e2eTx (lo hi : Nat) : (s.resetRegs lo hi).e2eTx = s.e2eTx := rfl
@[simp] theorem State.resetRegs_e2eRx (lo hi : Nat) : (s.resetRegs lo hi).e2eRx = s.e2eRx := rfl
@[simp] theorem State.resetRegs_txns (lo hi : Nat) : (s.resetRegs lo hi).txns = s.txns := rfl
@[simp] theorem State.resetRegs_inbox (lo hi : Nat) : (s.resetRegs lo hi).inbox = s.inbox := rfl
@[simp] theorem State.resetRegs_mgmtHold (lo hi : Nat) : (s.resetRegs lo hi).mgmtHold = s.mgmtHold := rfl
@[simp] theorem State.resetRegs_mgmtTokens (lo hi : Nat) : (s.resetRegs lo hi).mgmtTokens = s.mgmtTokens := rfl
@[simp] theorem State.resetRegs_mgmtTime (lo hi : Nat) : (s.resetRegs lo hi).mgmtTime = s.mgmtTime := rfl
@[simp] theorem State.resetRegs_unreachLog (lo hi : Nat) : (s.resetRegs lo hi).unreachLog = s.unreachLog := rfl
@[simp] theorem State.resetRegs_tlb (lo hi : Nat) : (s.resetRegs lo hi).tlb = s.tlb := rfl
@[simp] theorem State.resetRegs_invals (lo hi : Nat) : (s.resetRegs lo hi).invals = s.invals := rfl
@[simp] theorem State.resetRegs_derricks (lo hi : Nat) : (s.resetRegs lo hi).derricks = s.derricks := rfl
@[simp] theorem State.resetRegs_arbs (lo hi : Nat) : (s.resetRegs lo hi).arbs = s.arbs := rfl
@[simp] theorem State.resetRegs_seLast (lo hi : Nat) : (s.resetRegs lo hi).seLast = s.seLast := rfl
@[simp] theorem State.resetRegs_busMaster (lo hi : Nat) : (s.resetRegs lo hi).busMaster = s.busMaster := rfl
@[simp] theorem State.resetRegs_scrubLow (lo hi : Nat) : (s.resetRegs lo hi).scrubLow = s.scrubLow := rfl
@[simp] theorem State.resetRegs_ues (lo hi : Nat) : (s.resetRegs lo hi).ues = s.ues := rfl
@[simp] theorem State.resetRegs_colls (lo hi : Nat) : (s.resetRegs lo hi).colls = s.colls := rfl
@[simp] theorem State.resetRegs_tally (lo hi : Nat) : (s.resetRegs lo hi).tally = s.tally := rfl
@[simp] theorem State.resetRegs_ended (lo hi : Nat) : (s.resetRegs lo hi).ended = s.ended := rfl
@[simp] theorem State.resetRegs_lateLog (lo hi : Nat) : (s.resetRegs lo hi).lateLog = s.lateLog := rfl
@[simp] theorem State.resetRegs_early (lo hi : Nat) : (s.resetRegs lo hi).early = s.early := rfl
@[simp] theorem State.resetRegs_straps (lo hi : Nat) : (s.resetRegs lo hi).straps = s.straps := rfl
@[simp] theorem State.resetRegs_pci (lo hi : Nat) : (s.resetRegs lo hi).pci = s.pci := rfl
@[simp] theorem State.resetRegs_released (lo hi : Nat) : (s.resetRegs lo hi).released = s.released := rfl
@[simp] theorem State.resetRegs_cores (lo hi : Nat) : (s.resetRegs lo hi).cores = s.cores := rfl
@[simp] theorem State.resetRegs_l2 (lo hi : Nat) : (s.resetRegs lo hi).l2 = s.l2 := rfl
@[simp] theorem State.resetRegs_modules (lo hi : Nat) : (s.resetRegs lo hi).modules = s.modules := rfl
@[simp] theorem State.resetRegs_runs (lo hi : Nat) : (s.resetRegs lo hi).runs = s.runs := rfl
@[simp] theorem State.resetRegs_repro (lo hi : Nat) : (s.resetRegs lo hi).repro = s.repro := rfl
@[simp] theorem State.resetRegs_rings (lo hi : Nat) : (s.resetRegs lo hi).rings = s.rings := rfl
@[simp] theorem State.resetRegs_members (lo hi : Nat) : (s.resetRegs lo hi).members = s.members := rfl
@[simp] theorem State.resetRegs_cm (lo hi : Nat) : (s.resetRegs lo hi).cm = s.cm := rfl
@[simp] theorem State.resetRegs_mb (lo hi : Nat) : (s.resetRegs lo hi).mb = s.mb := rfl
@[simp] theorem State.resetRegs_bridge (lo hi : Nat) : (s.resetRegs lo hi).bridge = s.bridge := rfl
@[simp] theorem State.resetRegs_gate (lo hi : Nat) : (s.resetRegs lo hi).gate = s.gate := rfl
@[simp] theorem State.resetRegs_pwr (lo hi : Nat) : (s.resetRegs lo hi).pwr = s.pwr := rfl
@[simp] theorem State.resetRegs_held (lo hi : Nat) : (s.resetRegs lo hi).held = s.held := rfl
@[simp] theorem State.resetRegs_cmBox (lo hi : Nat) : (s.resetRegs lo hi).cmBox = s.cmBox := rfl
@[simp] theorem State.resetRegs_benches (lo hi : Nat) : (s.resetRegs lo hi).benches = s.benches := rfl

@[simp] theorem State.wr_pending (a : Nat) (b : Bytes) : (s.wr a b).pending = s.pending := rfl
@[simp] theorem State.wr_out (a : Nat) (b : Bytes) : (s.wr a b).out = s.out := rfl
@[simp] theorem State.wr_freeCtr (a : Nat) (b : Bytes) : (s.wr a b).freeCtr = s.freeCtr := rfl
@[simp] theorem State.wr_time (a : Nat) (b : Bytes) : (s.wr a b).time = s.time := rfl
@[simp] theorem State.wr_regs (a : Nat) (b : Bytes) : (s.wr a b).regs = s.regs := rfl
@[simp] theorem State.wr_sync (a : Nat) (b : Bytes) : (s.wr a b).sync = s.sync := rfl
@[simp] theorem State.wr_log (a : Nat) (b : Bytes) : (s.wr a b).log = s.log := rfl
@[simp] theorem State.wr_logSeq (a : Nat) (b : Bytes) : (s.wr a b).logSeq = s.logSeq := rfl
@[simp] theorem State.wr_flashLog (a : Nat) (b : Bytes) : (s.wr a b).flashLog = s.flashLog := rfl
@[simp] theorem State.wr_flashSeq (a : Nat) (b : Bytes) : (s.wr a b).flashSeq = s.flashSeq := rfl
@[simp] theorem State.wr_msixEn (a : Nat) (b : Bytes) : (s.wr a b).msixEn = s.msixEn := rfl
@[simp] theorem State.wr_msixMask (a : Nat) (b : Bytes) : (s.wr a b).msixMask = s.msixMask := rfl
@[simp] theorem State.wr_spall (a : Nat) (b : Bytes) : (s.wr a b).spall = s.spall := rfl
@[simp] theorem State.wr_regions (a : Nat) (b : Bytes) : (s.wr a b).regions = s.regions := rfl
@[simp] theorem State.wr_regionUid (a : Nat) (b : Bytes) : (s.wr a b).regionUid = s.regionUid := rfl
@[simp] theorem State.wr_ports (a : Nat) (b : Bytes) : (s.wr a b).ports = s.ports := rfl
@[simp] theorem State.wr_e2eTx (a : Nat) (b : Bytes) : (s.wr a b).e2eTx = s.e2eTx := rfl
@[simp] theorem State.wr_e2eRx (a : Nat) (b : Bytes) : (s.wr a b).e2eRx = s.e2eRx := rfl
@[simp] theorem State.wr_txns (a : Nat) (b : Bytes) : (s.wr a b).txns = s.txns := rfl
@[simp] theorem State.wr_inbox (a : Nat) (b : Bytes) : (s.wr a b).inbox = s.inbox := rfl
@[simp] theorem State.wr_mgmtHold (a : Nat) (b : Bytes) : (s.wr a b).mgmtHold = s.mgmtHold := rfl
@[simp] theorem State.wr_mgmtTokens (a : Nat) (b : Bytes) : (s.wr a b).mgmtTokens = s.mgmtTokens := rfl
@[simp] theorem State.wr_mgmtTime (a : Nat) (b : Bytes) : (s.wr a b).mgmtTime = s.mgmtTime := rfl
@[simp] theorem State.wr_unreachLog (a : Nat) (b : Bytes) : (s.wr a b).unreachLog = s.unreachLog := rfl
@[simp] theorem State.wr_tlb (a : Nat) (b : Bytes) : (s.wr a b).tlb = s.tlb := rfl
@[simp] theorem State.wr_invals (a : Nat) (b : Bytes) : (s.wr a b).invals = s.invals := rfl
@[simp] theorem State.wr_derricks (a : Nat) (b : Bytes) : (s.wr a b).derricks = s.derricks := rfl
@[simp] theorem State.wr_arbs (a : Nat) (b : Bytes) : (s.wr a b).arbs = s.arbs := rfl
@[simp] theorem State.wr_seLast (a : Nat) (b : Bytes) : (s.wr a b).seLast = s.seLast := rfl
@[simp] theorem State.wr_busMaster (a : Nat) (b : Bytes) : (s.wr a b).busMaster = s.busMaster := rfl
@[simp] theorem State.wr_scrubLow (a : Nat) (b : Bytes) : (s.wr a b).scrubLow = s.scrubLow := rfl
@[simp] theorem State.wr_ues (a : Nat) (b : Bytes) : (s.wr a b).ues = s.ues := rfl
@[simp] theorem State.wr_colls (a : Nat) (b : Bytes) : (s.wr a b).colls = s.colls := rfl
@[simp] theorem State.wr_tally (a : Nat) (b : Bytes) : (s.wr a b).tally = s.tally := rfl
@[simp] theorem State.wr_ended (a : Nat) (b : Bytes) : (s.wr a b).ended = s.ended := rfl
@[simp] theorem State.wr_lateLog (a : Nat) (b : Bytes) : (s.wr a b).lateLog = s.lateLog := rfl
@[simp] theorem State.wr_early (a : Nat) (b : Bytes) : (s.wr a b).early = s.early := rfl
@[simp] theorem State.wr_straps (a : Nat) (b : Bytes) : (s.wr a b).straps = s.straps := rfl
@[simp] theorem State.wr_pci (a : Nat) (b : Bytes) : (s.wr a b).pci = s.pci := rfl
@[simp] theorem State.wr_released (a : Nat) (b : Bytes) : (s.wr a b).released = s.released := rfl
@[simp] theorem State.wr_cores (a : Nat) (b : Bytes) : (s.wr a b).cores = s.cores := rfl
@[simp] theorem State.wr_l2 (a : Nat) (b : Bytes) : (s.wr a b).l2 = s.l2 := rfl
@[simp] theorem State.wr_modules (a : Nat) (b : Bytes) : (s.wr a b).modules = s.modules := rfl
@[simp] theorem State.wr_runs (a : Nat) (b : Bytes) : (s.wr a b).runs = s.runs := rfl
@[simp] theorem State.wr_repro (a : Nat) (b : Bytes) : (s.wr a b).repro = s.repro := rfl
@[simp] theorem State.wr_rings (a : Nat) (b : Bytes) : (s.wr a b).rings = s.rings := rfl
@[simp] theorem State.wr_members (a : Nat) (b : Bytes) : (s.wr a b).members = s.members := rfl
@[simp] theorem State.wr_cm (a : Nat) (b : Bytes) : (s.wr a b).cm = s.cm := rfl
@[simp] theorem State.wr_mb (a : Nat) (b : Bytes) : (s.wr a b).mb = s.mb := rfl
@[simp] theorem State.wr_bridge (a : Nat) (b : Bytes) : (s.wr a b).bridge = s.bridge := rfl
@[simp] theorem State.wr_gate (a : Nat) (b : Bytes) : (s.wr a b).gate = s.gate := rfl
@[simp] theorem State.wr_pwr (a : Nat) (b : Bytes) : (s.wr a b).pwr = s.pwr := rfl
@[simp] theorem State.wr_held (a : Nat) (b : Bytes) : (s.wr a b).held = s.held := rfl
@[simp] theorem State.wr_cmBox (a : Nat) (b : Bytes) : (s.wr a b).cmBox = s.cmBox := rfl
@[simp] theorem State.wr_benches (a : Nat) (b : Bytes) : (s.wr a b).benches = s.benches := rfl

@[simp] theorem State.wrLe_pending (a n v : Nat) : (s.wrLe a n v).pending = s.pending := rfl
@[simp] theorem State.wrLe_out (a n v : Nat) : (s.wrLe a n v).out = s.out := rfl
@[simp] theorem State.wrLe_freeCtr (a n v : Nat) : (s.wrLe a n v).freeCtr = s.freeCtr := rfl
@[simp] theorem State.wrLe_time (a n v : Nat) : (s.wrLe a n v).time = s.time := rfl
@[simp] theorem State.wrLe_regs (a n v : Nat) : (s.wrLe a n v).regs = s.regs := rfl
@[simp] theorem State.wrLe_sync (a n v : Nat) : (s.wrLe a n v).sync = s.sync := rfl
@[simp] theorem State.wrLe_log (a n v : Nat) : (s.wrLe a n v).log = s.log := rfl
@[simp] theorem State.wrLe_logSeq (a n v : Nat) : (s.wrLe a n v).logSeq = s.logSeq := rfl
@[simp] theorem State.wrLe_flashLog (a n v : Nat) : (s.wrLe a n v).flashLog = s.flashLog := rfl
@[simp] theorem State.wrLe_flashSeq (a n v : Nat) : (s.wrLe a n v).flashSeq = s.flashSeq := rfl
@[simp] theorem State.wrLe_msixEn (a n v : Nat) : (s.wrLe a n v).msixEn = s.msixEn := rfl
@[simp] theorem State.wrLe_msixMask (a n v : Nat) : (s.wrLe a n v).msixMask = s.msixMask := rfl
@[simp] theorem State.wrLe_spall (a n v : Nat) : (s.wrLe a n v).spall = s.spall := rfl
@[simp] theorem State.wrLe_regions (a n v : Nat) : (s.wrLe a n v).regions = s.regions := rfl
@[simp] theorem State.wrLe_regionUid (a n v : Nat) : (s.wrLe a n v).regionUid = s.regionUid := rfl
@[simp] theorem State.wrLe_ports (a n v : Nat) : (s.wrLe a n v).ports = s.ports := rfl
@[simp] theorem State.wrLe_e2eTx (a n v : Nat) : (s.wrLe a n v).e2eTx = s.e2eTx := rfl
@[simp] theorem State.wrLe_e2eRx (a n v : Nat) : (s.wrLe a n v).e2eRx = s.e2eRx := rfl
@[simp] theorem State.wrLe_txns (a n v : Nat) : (s.wrLe a n v).txns = s.txns := rfl
@[simp] theorem State.wrLe_inbox (a n v : Nat) : (s.wrLe a n v).inbox = s.inbox := rfl
@[simp] theorem State.wrLe_mgmtHold (a n v : Nat) : (s.wrLe a n v).mgmtHold = s.mgmtHold := rfl
@[simp] theorem State.wrLe_mgmtTokens (a n v : Nat) : (s.wrLe a n v).mgmtTokens = s.mgmtTokens := rfl
@[simp] theorem State.wrLe_mgmtTime (a n v : Nat) : (s.wrLe a n v).mgmtTime = s.mgmtTime := rfl
@[simp] theorem State.wrLe_unreachLog (a n v : Nat) : (s.wrLe a n v).unreachLog = s.unreachLog := rfl
@[simp] theorem State.wrLe_tlb (a n v : Nat) : (s.wrLe a n v).tlb = s.tlb := rfl
@[simp] theorem State.wrLe_invals (a n v : Nat) : (s.wrLe a n v).invals = s.invals := rfl
@[simp] theorem State.wrLe_derricks (a n v : Nat) : (s.wrLe a n v).derricks = s.derricks := rfl
@[simp] theorem State.wrLe_arbs (a n v : Nat) : (s.wrLe a n v).arbs = s.arbs := rfl
@[simp] theorem State.wrLe_seLast (a n v : Nat) : (s.wrLe a n v).seLast = s.seLast := rfl
@[simp] theorem State.wrLe_busMaster (a n v : Nat) : (s.wrLe a n v).busMaster = s.busMaster := rfl
@[simp] theorem State.wrLe_scrubLow (a n v : Nat) : (s.wrLe a n v).scrubLow = s.scrubLow := rfl
@[simp] theorem State.wrLe_ues (a n v : Nat) : (s.wrLe a n v).ues = s.ues := rfl
@[simp] theorem State.wrLe_colls (a n v : Nat) : (s.wrLe a n v).colls = s.colls := rfl
@[simp] theorem State.wrLe_tally (a n v : Nat) : (s.wrLe a n v).tally = s.tally := rfl
@[simp] theorem State.wrLe_ended (a n v : Nat) : (s.wrLe a n v).ended = s.ended := rfl
@[simp] theorem State.wrLe_lateLog (a n v : Nat) : (s.wrLe a n v).lateLog = s.lateLog := rfl
@[simp] theorem State.wrLe_early (a n v : Nat) : (s.wrLe a n v).early = s.early := rfl
@[simp] theorem State.wrLe_straps (a n v : Nat) : (s.wrLe a n v).straps = s.straps := rfl
@[simp] theorem State.wrLe_pci (a n v : Nat) : (s.wrLe a n v).pci = s.pci := rfl
@[simp] theorem State.wrLe_released (a n v : Nat) : (s.wrLe a n v).released = s.released := rfl
@[simp] theorem State.wrLe_cores (a n v : Nat) : (s.wrLe a n v).cores = s.cores := rfl
@[simp] theorem State.wrLe_l2 (a n v : Nat) : (s.wrLe a n v).l2 = s.l2 := rfl
@[simp] theorem State.wrLe_modules (a n v : Nat) : (s.wrLe a n v).modules = s.modules := rfl
@[simp] theorem State.wrLe_runs (a n v : Nat) : (s.wrLe a n v).runs = s.runs := rfl
@[simp] theorem State.wrLe_repro (a n v : Nat) : (s.wrLe a n v).repro = s.repro := rfl
@[simp] theorem State.wrLe_rings (a n v : Nat) : (s.wrLe a n v).rings = s.rings := rfl
@[simp] theorem State.wrLe_members (a n v : Nat) : (s.wrLe a n v).members = s.members := rfl
@[simp] theorem State.wrLe_cm (a n v : Nat) : (s.wrLe a n v).cm = s.cm := rfl
@[simp] theorem State.wrLe_mb (a n v : Nat) : (s.wrLe a n v).mb = s.mb := rfl
@[simp] theorem State.wrLe_bridge (a n v : Nat) : (s.wrLe a n v).bridge = s.bridge := rfl
@[simp] theorem State.wrLe_gate (a n v : Nat) : (s.wrLe a n v).gate = s.gate := rfl
@[simp] theorem State.wrLe_pwr (a n v : Nat) : (s.wrLe a n v).pwr = s.pwr := rfl
@[simp] theorem State.wrLe_held (a n v : Nat) : (s.wrLe a n v).held = s.held := rfl
@[simp] theorem State.wrLe_cmBox (a n v : Nat) : (s.wrLe a n v).cmBox = s.cmBox := rfl
@[simp] theorem State.wrLe_benches (a n v : Nat) : (s.wrLe a n v).benches = s.benches := rfl

@[simp] theorem State.poisonLine_pending (a : Nat) : (s.poisonLine a).pending = s.pending := rfl
@[simp] theorem State.poisonLine_out (a : Nat) : (s.poisonLine a).out = s.out := rfl
@[simp] theorem State.poisonLine_freeCtr (a : Nat) : (s.poisonLine a).freeCtr = s.freeCtr := rfl
@[simp] theorem State.poisonLine_time (a : Nat) : (s.poisonLine a).time = s.time := rfl
@[simp] theorem State.poisonLine_mem (a : Nat) : (s.poisonLine a).mem = s.mem := rfl
@[simp] theorem State.poisonLine_regs (a : Nat) : (s.poisonLine a).regs = s.regs := rfl
@[simp] theorem State.poisonLine_sync (a : Nat) : (s.poisonLine a).sync = s.sync := rfl
@[simp] theorem State.poisonLine_log (a : Nat) : (s.poisonLine a).log = s.log := rfl
@[simp] theorem State.poisonLine_logSeq (a : Nat) : (s.poisonLine a).logSeq = s.logSeq := rfl
@[simp] theorem State.poisonLine_flashLog (a : Nat) : (s.poisonLine a).flashLog = s.flashLog := rfl
@[simp] theorem State.poisonLine_flashSeq (a : Nat) : (s.poisonLine a).flashSeq = s.flashSeq := rfl
@[simp] theorem State.poisonLine_msixEn (a : Nat) : (s.poisonLine a).msixEn = s.msixEn := rfl
@[simp] theorem State.poisonLine_msixMask (a : Nat) : (s.poisonLine a).msixMask = s.msixMask := rfl
@[simp] theorem State.poisonLine_spall (a : Nat) : (s.poisonLine a).spall = s.spall := rfl
@[simp] theorem State.poisonLine_regions (a : Nat) : (s.poisonLine a).regions = s.regions := rfl
@[simp] theorem State.poisonLine_regionUid (a : Nat) : (s.poisonLine a).regionUid = s.regionUid := rfl
@[simp] theorem State.poisonLine_ports (a : Nat) : (s.poisonLine a).ports = s.ports := rfl
@[simp] theorem State.poisonLine_e2eTx (a : Nat) : (s.poisonLine a).e2eTx = s.e2eTx := rfl
@[simp] theorem State.poisonLine_e2eRx (a : Nat) : (s.poisonLine a).e2eRx = s.e2eRx := rfl
@[simp] theorem State.poisonLine_txns (a : Nat) : (s.poisonLine a).txns = s.txns := rfl
@[simp] theorem State.poisonLine_inbox (a : Nat) : (s.poisonLine a).inbox = s.inbox := rfl
@[simp] theorem State.poisonLine_mgmtHold (a : Nat) : (s.poisonLine a).mgmtHold = s.mgmtHold := rfl
@[simp] theorem State.poisonLine_mgmtTokens (a : Nat) : (s.poisonLine a).mgmtTokens = s.mgmtTokens := rfl
@[simp] theorem State.poisonLine_mgmtTime (a : Nat) : (s.poisonLine a).mgmtTime = s.mgmtTime := rfl
@[simp] theorem State.poisonLine_unreachLog (a : Nat) : (s.poisonLine a).unreachLog = s.unreachLog := rfl
@[simp] theorem State.poisonLine_tlb (a : Nat) : (s.poisonLine a).tlb = s.tlb := rfl
@[simp] theorem State.poisonLine_invals (a : Nat) : (s.poisonLine a).invals = s.invals := rfl
@[simp] theorem State.poisonLine_derricks (a : Nat) : (s.poisonLine a).derricks = s.derricks := rfl
@[simp] theorem State.poisonLine_arbs (a : Nat) : (s.poisonLine a).arbs = s.arbs := rfl
@[simp] theorem State.poisonLine_seLast (a : Nat) : (s.poisonLine a).seLast = s.seLast := rfl
@[simp] theorem State.poisonLine_busMaster (a : Nat) : (s.poisonLine a).busMaster = s.busMaster := rfl
@[simp] theorem State.poisonLine_scrubLow (a : Nat) : (s.poisonLine a).scrubLow = s.scrubLow := rfl
@[simp] theorem State.poisonLine_ues (a : Nat) : (s.poisonLine a).ues = s.ues := rfl
@[simp] theorem State.poisonLine_colls (a : Nat) : (s.poisonLine a).colls = s.colls := rfl
@[simp] theorem State.poisonLine_tally (a : Nat) : (s.poisonLine a).tally = s.tally := rfl
@[simp] theorem State.poisonLine_ended (a : Nat) : (s.poisonLine a).ended = s.ended := rfl
@[simp] theorem State.poisonLine_lateLog (a : Nat) : (s.poisonLine a).lateLog = s.lateLog := rfl
@[simp] theorem State.poisonLine_early (a : Nat) : (s.poisonLine a).early = s.early := rfl
@[simp] theorem State.poisonLine_straps (a : Nat) : (s.poisonLine a).straps = s.straps := rfl
@[simp] theorem State.poisonLine_pci (a : Nat) : (s.poisonLine a).pci = s.pci := rfl
@[simp] theorem State.poisonLine_released (a : Nat) : (s.poisonLine a).released = s.released := rfl
@[simp] theorem State.poisonLine_cores (a : Nat) : (s.poisonLine a).cores = s.cores := rfl
@[simp] theorem State.poisonLine_l2 (a : Nat) : (s.poisonLine a).l2 = s.l2 := rfl
@[simp] theorem State.poisonLine_modules (a : Nat) : (s.poisonLine a).modules = s.modules := rfl
@[simp] theorem State.poisonLine_runs (a : Nat) : (s.poisonLine a).runs = s.runs := rfl
@[simp] theorem State.poisonLine_repro (a : Nat) : (s.poisonLine a).repro = s.repro := rfl
@[simp] theorem State.poisonLine_rings (a : Nat) : (s.poisonLine a).rings = s.rings := rfl
@[simp] theorem State.poisonLine_members (a : Nat) : (s.poisonLine a).members = s.members := rfl
@[simp] theorem State.poisonLine_cm (a : Nat) : (s.poisonLine a).cm = s.cm := rfl
@[simp] theorem State.poisonLine_mb (a : Nat) : (s.poisonLine a).mb = s.mb := rfl
@[simp] theorem State.poisonLine_bridge (a : Nat) : (s.poisonLine a).bridge = s.bridge := rfl
@[simp] theorem State.poisonLine_gate (a : Nat) : (s.poisonLine a).gate = s.gate := rfl
@[simp] theorem State.poisonLine_pwr (a : Nat) : (s.poisonLine a).pwr = s.pwr := rfl
@[simp] theorem State.poisonLine_held (a : Nat) : (s.poisonLine a).held = s.held := rfl
@[simp] theorem State.poisonLine_cmBox (a : Nat) : (s.poisonLine a).cmBox = s.cmBox := rfl
@[simp] theorem State.poisonLine_benches (a : Nat) : (s.poisonLine a).benches = s.benches := rfl

@[simp] theorem State.emit_pending (o : Out) : (s.emit o).pending = s.pending := rfl
@[simp] theorem State.emit_freeCtr (o : Out) : (s.emit o).freeCtr = s.freeCtr := rfl
@[simp] theorem State.emit_time (o : Out) : (s.emit o).time = s.time := rfl
@[simp] theorem State.emit_mem (o : Out) : (s.emit o).mem = s.mem := rfl
@[simp] theorem State.emit_poison (o : Out) : (s.emit o).poison = s.poison := rfl
@[simp] theorem State.emit_regs (o : Out) : (s.emit o).regs = s.regs := rfl
@[simp] theorem State.emit_sync (o : Out) : (s.emit o).sync = s.sync := rfl
@[simp] theorem State.emit_log (o : Out) : (s.emit o).log = s.log := rfl
@[simp] theorem State.emit_logSeq (o : Out) : (s.emit o).logSeq = s.logSeq := rfl
@[simp] theorem State.emit_flashLog (o : Out) : (s.emit o).flashLog = s.flashLog := rfl
@[simp] theorem State.emit_flashSeq (o : Out) : (s.emit o).flashSeq = s.flashSeq := rfl
@[simp] theorem State.emit_msixEn (o : Out) : (s.emit o).msixEn = s.msixEn := rfl
@[simp] theorem State.emit_msixMask (o : Out) : (s.emit o).msixMask = s.msixMask := rfl
@[simp] theorem State.emit_spall (o : Out) : (s.emit o).spall = s.spall := rfl
@[simp] theorem State.emit_regions (o : Out) : (s.emit o).regions = s.regions := rfl
@[simp] theorem State.emit_regionUid (o : Out) : (s.emit o).regionUid = s.regionUid := rfl
@[simp] theorem State.emit_ports (o : Out) : (s.emit o).ports = s.ports := rfl
@[simp] theorem State.emit_e2eTx (o : Out) : (s.emit o).e2eTx = s.e2eTx := rfl
@[simp] theorem State.emit_e2eRx (o : Out) : (s.emit o).e2eRx = s.e2eRx := rfl
@[simp] theorem State.emit_txns (o : Out) : (s.emit o).txns = s.txns := rfl
@[simp] theorem State.emit_inbox (o : Out) : (s.emit o).inbox = s.inbox := rfl
@[simp] theorem State.emit_mgmtHold (o : Out) : (s.emit o).mgmtHold = s.mgmtHold := rfl
@[simp] theorem State.emit_mgmtTokens (o : Out) : (s.emit o).mgmtTokens = s.mgmtTokens := rfl
@[simp] theorem State.emit_mgmtTime (o : Out) : (s.emit o).mgmtTime = s.mgmtTime := rfl
@[simp] theorem State.emit_unreachLog (o : Out) : (s.emit o).unreachLog = s.unreachLog := rfl
@[simp] theorem State.emit_tlb (o : Out) : (s.emit o).tlb = s.tlb := rfl
@[simp] theorem State.emit_invals (o : Out) : (s.emit o).invals = s.invals := rfl
@[simp] theorem State.emit_derricks (o : Out) : (s.emit o).derricks = s.derricks := rfl
@[simp] theorem State.emit_arbs (o : Out) : (s.emit o).arbs = s.arbs := rfl
@[simp] theorem State.emit_seLast (o : Out) : (s.emit o).seLast = s.seLast := rfl
@[simp] theorem State.emit_busMaster (o : Out) : (s.emit o).busMaster = s.busMaster := rfl
@[simp] theorem State.emit_scrubLow (o : Out) : (s.emit o).scrubLow = s.scrubLow := rfl
@[simp] theorem State.emit_ues (o : Out) : (s.emit o).ues = s.ues := rfl
@[simp] theorem State.emit_colls (o : Out) : (s.emit o).colls = s.colls := rfl
@[simp] theorem State.emit_tally (o : Out) : (s.emit o).tally = s.tally := rfl
@[simp] theorem State.emit_ended (o : Out) : (s.emit o).ended = s.ended := rfl
@[simp] theorem State.emit_lateLog (o : Out) : (s.emit o).lateLog = s.lateLog := rfl
@[simp] theorem State.emit_early (o : Out) : (s.emit o).early = s.early := rfl
@[simp] theorem State.emit_straps (o : Out) : (s.emit o).straps = s.straps := rfl
@[simp] theorem State.emit_pci (o : Out) : (s.emit o).pci = s.pci := rfl
@[simp] theorem State.emit_released (o : Out) : (s.emit o).released = s.released := rfl
@[simp] theorem State.emit_cores (o : Out) : (s.emit o).cores = s.cores := rfl
@[simp] theorem State.emit_l2 (o : Out) : (s.emit o).l2 = s.l2 := rfl
@[simp] theorem State.emit_modules (o : Out) : (s.emit o).modules = s.modules := rfl
@[simp] theorem State.emit_runs (o : Out) : (s.emit o).runs = s.runs := rfl
@[simp] theorem State.emit_repro (o : Out) : (s.emit o).repro = s.repro := rfl
@[simp] theorem State.emit_rings (o : Out) : (s.emit o).rings = s.rings := rfl
@[simp] theorem State.emit_members (o : Out) : (s.emit o).members = s.members := rfl
@[simp] theorem State.emit_cm (o : Out) : (s.emit o).cm = s.cm := rfl
@[simp] theorem State.emit_mb (o : Out) : (s.emit o).mb = s.mb := rfl
@[simp] theorem State.emit_bridge (o : Out) : (s.emit o).bridge = s.bridge := rfl
@[simp] theorem State.emit_gate (o : Out) : (s.emit o).gate = s.gate := rfl
@[simp] theorem State.emit_pwr (o : Out) : (s.emit o).pwr = s.pwr := rfl
@[simp] theorem State.emit_held (o : Out) : (s.emit o).held = s.held := rfl
@[simp] theorem State.emit_cmBox (o : Out) : (s.emit o).cmBox = s.cmBox := rfl
@[simp] theorem State.emit_benches (o : Out) : (s.emit o).benches = s.benches := rfl

@[simp] theorem State.draw_pending : (s.draw).pending = s.pending := rfl
@[simp] theorem State.draw_out : (s.draw).out = s.out := rfl
@[simp] theorem State.draw_time : (s.draw).time = s.time := rfl
@[simp] theorem State.draw_mem : (s.draw).mem = s.mem := rfl
@[simp] theorem State.draw_poison : (s.draw).poison = s.poison := rfl
@[simp] theorem State.draw_regs : (s.draw).regs = s.regs := rfl
@[simp] theorem State.draw_sync : (s.draw).sync = s.sync := rfl
@[simp] theorem State.draw_log : (s.draw).log = s.log := rfl
@[simp] theorem State.draw_logSeq : (s.draw).logSeq = s.logSeq := rfl
@[simp] theorem State.draw_flashLog : (s.draw).flashLog = s.flashLog := rfl
@[simp] theorem State.draw_flashSeq : (s.draw).flashSeq = s.flashSeq := rfl
@[simp] theorem State.draw_msixEn : (s.draw).msixEn = s.msixEn := rfl
@[simp] theorem State.draw_msixMask : (s.draw).msixMask = s.msixMask := rfl
@[simp] theorem State.draw_spall : (s.draw).spall = s.spall := rfl
@[simp] theorem State.draw_regions : (s.draw).regions = s.regions := rfl
@[simp] theorem State.draw_regionUid : (s.draw).regionUid = s.regionUid := rfl
@[simp] theorem State.draw_ports : (s.draw).ports = s.ports := rfl
@[simp] theorem State.draw_e2eTx : (s.draw).e2eTx = s.e2eTx := rfl
@[simp] theorem State.draw_e2eRx : (s.draw).e2eRx = s.e2eRx := rfl
@[simp] theorem State.draw_txns : (s.draw).txns = s.txns := rfl
@[simp] theorem State.draw_inbox : (s.draw).inbox = s.inbox := rfl
@[simp] theorem State.draw_mgmtHold : (s.draw).mgmtHold = s.mgmtHold := rfl
@[simp] theorem State.draw_mgmtTokens : (s.draw).mgmtTokens = s.mgmtTokens := rfl
@[simp] theorem State.draw_mgmtTime : (s.draw).mgmtTime = s.mgmtTime := rfl
@[simp] theorem State.draw_unreachLog : (s.draw).unreachLog = s.unreachLog := rfl
@[simp] theorem State.draw_tlb : (s.draw).tlb = s.tlb := rfl
@[simp] theorem State.draw_invals : (s.draw).invals = s.invals := rfl
@[simp] theorem State.draw_derricks : (s.draw).derricks = s.derricks := rfl
@[simp] theorem State.draw_arbs : (s.draw).arbs = s.arbs := rfl
@[simp] theorem State.draw_seLast : (s.draw).seLast = s.seLast := rfl
@[simp] theorem State.draw_busMaster : (s.draw).busMaster = s.busMaster := rfl
@[simp] theorem State.draw_scrubLow : (s.draw).scrubLow = s.scrubLow := rfl
@[simp] theorem State.draw_ues : (s.draw).ues = s.ues := rfl
@[simp] theorem State.draw_colls : (s.draw).colls = s.colls := rfl
@[simp] theorem State.draw_tally : (s.draw).tally = s.tally := rfl
@[simp] theorem State.draw_ended : (s.draw).ended = s.ended := rfl
@[simp] theorem State.draw_lateLog : (s.draw).lateLog = s.lateLog := rfl
@[simp] theorem State.draw_early : (s.draw).early = s.early := rfl
@[simp] theorem State.draw_straps : (s.draw).straps = s.straps := rfl
@[simp] theorem State.draw_pci : (s.draw).pci = s.pci := rfl
@[simp] theorem State.draw_released : (s.draw).released = s.released := rfl
@[simp] theorem State.draw_cores : (s.draw).cores = s.cores := rfl
@[simp] theorem State.draw_l2 : (s.draw).l2 = s.l2 := rfl
@[simp] theorem State.draw_modules : (s.draw).modules = s.modules := rfl
@[simp] theorem State.draw_runs : (s.draw).runs = s.runs := rfl
@[simp] theorem State.draw_repro : (s.draw).repro = s.repro := rfl
@[simp] theorem State.draw_rings : (s.draw).rings = s.rings := rfl
@[simp] theorem State.draw_members : (s.draw).members = s.members := rfl
@[simp] theorem State.draw_cm : (s.draw).cm = s.cm := rfl
@[simp] theorem State.draw_mb : (s.draw).mb = s.mb := rfl
@[simp] theorem State.draw_bridge : (s.draw).bridge = s.bridge := rfl
@[simp] theorem State.draw_gate : (s.draw).gate = s.gate := rfl
@[simp] theorem State.draw_pwr : (s.draw).pwr = s.pwr := rfl
@[simp] theorem State.draw_held : (s.draw).held = s.held := rfl
@[simp] theorem State.draw_cmBox : (s.draw).cmBox = s.cmBox := rfl
@[simp] theorem State.draw_benches : (s.draw).benches = s.benches := rfl

@[simp] theorem State.addRec_pending (r : LogRec) : (s.addRec r).pending = s.pending := by unfold State.addRec; split <;> rfl
@[simp] theorem State.addRec_out (r : LogRec) : (s.addRec r).out = s.out := by unfold State.addRec; split <;> rfl
@[simp] theorem State.addRec_freeCtr (r : LogRec) : (s.addRec r).freeCtr = s.freeCtr := by unfold State.addRec; split <;> rfl
@[simp] theorem State.addRec_time (r : LogRec) : (s.addRec r).time = s.time := by unfold State.addRec; split <;> rfl
@[simp] theorem State.addRec_mem (r : LogRec) : (s.addRec r).mem = s.mem := by unfold State.addRec; split <;> rfl
@[simp] theorem State.addRec_poison (r : LogRec) : (s.addRec r).poison = s.poison := by unfold State.addRec; split <;> rfl
@[simp] theorem State.addRec_regs (r : LogRec) : (s.addRec r).regs = s.regs := by unfold State.addRec; split <;> rfl
@[simp] theorem State.addRec_sync (r : LogRec) : (s.addRec r).sync = s.sync := by unfold State.addRec; split <;> rfl
@[simp] theorem State.addRec_msixEn (r : LogRec) : (s.addRec r).msixEn = s.msixEn := by unfold State.addRec; split <;> rfl
@[simp] theorem State.addRec_msixMask (r : LogRec) : (s.addRec r).msixMask = s.msixMask := by unfold State.addRec; split <;> rfl
@[simp] theorem State.addRec_spall (r : LogRec) : (s.addRec r).spall = s.spall := by unfold State.addRec; split <;> rfl
@[simp] theorem State.addRec_regions (r : LogRec) : (s.addRec r).regions = s.regions := by unfold State.addRec; split <;> rfl
@[simp] theorem State.addRec_regionUid (r : LogRec) : (s.addRec r).regionUid = s.regionUid := by unfold State.addRec; split <;> rfl
@[simp] theorem State.addRec_ports (r : LogRec) : (s.addRec r).ports = s.ports := by unfold State.addRec; split <;> rfl
@[simp] theorem State.addRec_e2eTx (r : LogRec) : (s.addRec r).e2eTx = s.e2eTx := by unfold State.addRec; split <;> rfl
@[simp] theorem State.addRec_e2eRx (r : LogRec) : (s.addRec r).e2eRx = s.e2eRx := by unfold State.addRec; split <;> rfl
@[simp] theorem State.addRec_txns (r : LogRec) : (s.addRec r).txns = s.txns := by unfold State.addRec; split <;> rfl
@[simp] theorem State.addRec_inbox (r : LogRec) : (s.addRec r).inbox = s.inbox := by unfold State.addRec; split <;> rfl
@[simp] theorem State.addRec_mgmtHold (r : LogRec) : (s.addRec r).mgmtHold = s.mgmtHold := by unfold State.addRec; split <;> rfl
@[simp] theorem State.addRec_mgmtTokens (r : LogRec) : (s.addRec r).mgmtTokens = s.mgmtTokens := by unfold State.addRec; split <;> rfl
@[simp] theorem State.addRec_mgmtTime (r : LogRec) : (s.addRec r).mgmtTime = s.mgmtTime := by unfold State.addRec; split <;> rfl
@[simp] theorem State.addRec_unreachLog (r : LogRec) : (s.addRec r).unreachLog = s.unreachLog := by unfold State.addRec; split <;> rfl
@[simp] theorem State.addRec_tlb (r : LogRec) : (s.addRec r).tlb = s.tlb := by unfold State.addRec; split <;> rfl
@[simp] theorem State.addRec_invals (r : LogRec) : (s.addRec r).invals = s.invals := by unfold State.addRec; split <;> rfl
@[simp] theorem State.addRec_derricks (r : LogRec) : (s.addRec r).derricks = s.derricks := by unfold State.addRec; split <;> rfl
@[simp] theorem State.addRec_arbs (r : LogRec) : (s.addRec r).arbs = s.arbs := by unfold State.addRec; split <;> rfl
@[simp] theorem State.addRec_seLast (r : LogRec) : (s.addRec r).seLast = s.seLast := by unfold State.addRec; split <;> rfl
@[simp] theorem State.addRec_busMaster (r : LogRec) : (s.addRec r).busMaster = s.busMaster := by unfold State.addRec; split <;> rfl
@[simp] theorem State.addRec_scrubLow (r : LogRec) : (s.addRec r).scrubLow = s.scrubLow := by unfold State.addRec; split <;> rfl
@[simp] theorem State.addRec_ues (r : LogRec) : (s.addRec r).ues = s.ues := by unfold State.addRec; split <;> rfl
@[simp] theorem State.addRec_colls (r : LogRec) : (s.addRec r).colls = s.colls := by unfold State.addRec; split <;> rfl
@[simp] theorem State.addRec_tally (r : LogRec) : (s.addRec r).tally = s.tally := by unfold State.addRec; split <;> rfl
@[simp] theorem State.addRec_ended (r : LogRec) : (s.addRec r).ended = s.ended := by unfold State.addRec; split <;> rfl
@[simp] theorem State.addRec_lateLog (r : LogRec) : (s.addRec r).lateLog = s.lateLog := by unfold State.addRec; split <;> rfl
@[simp] theorem State.addRec_early (r : LogRec) : (s.addRec r).early = s.early := by unfold State.addRec; split <;> rfl
@[simp] theorem State.addRec_straps (r : LogRec) : (s.addRec r).straps = s.straps := by unfold State.addRec; split <;> rfl
@[simp] theorem State.addRec_pci (r : LogRec) : (s.addRec r).pci = s.pci := by unfold State.addRec; split <;> rfl
@[simp] theorem State.addRec_released (r : LogRec) : (s.addRec r).released = s.released := by unfold State.addRec; split <;> rfl
@[simp] theorem State.addRec_cores (r : LogRec) : (s.addRec r).cores = s.cores := by unfold State.addRec; split <;> rfl
@[simp] theorem State.addRec_l2 (r : LogRec) : (s.addRec r).l2 = s.l2 := by unfold State.addRec; split <;> rfl
@[simp] theorem State.addRec_modules (r : LogRec) : (s.addRec r).modules = s.modules := by unfold State.addRec; split <;> rfl
@[simp] theorem State.addRec_runs (r : LogRec) : (s.addRec r).runs = s.runs := by unfold State.addRec; split <;> rfl
@[simp] theorem State.addRec_repro (r : LogRec) : (s.addRec r).repro = s.repro := by unfold State.addRec; split <;> rfl
@[simp] theorem State.addRec_rings (r : LogRec) : (s.addRec r).rings = s.rings := by unfold State.addRec; split <;> rfl
@[simp] theorem State.addRec_members (r : LogRec) : (s.addRec r).members = s.members := by unfold State.addRec; split <;> rfl
@[simp] theorem State.addRec_cm (r : LogRec) : (s.addRec r).cm = s.cm := by unfold State.addRec; split <;> rfl
@[simp] theorem State.addRec_mb (r : LogRec) : (s.addRec r).mb = s.mb := by unfold State.addRec; split <;> rfl
@[simp] theorem State.addRec_bridge (r : LogRec) : (s.addRec r).bridge = s.bridge := by unfold State.addRec; split <;> rfl
@[simp] theorem State.addRec_gate (r : LogRec) : (s.addRec r).gate = s.gate := by unfold State.addRec; split <;> rfl
@[simp] theorem State.addRec_pwr (r : LogRec) : (s.addRec r).pwr = s.pwr := by unfold State.addRec; split <;> rfl
@[simp] theorem State.addRec_held (r : LogRec) : (s.addRec r).held = s.held := by unfold State.addRec; split <;> rfl
@[simp] theorem State.addRec_cmBox (r : LogRec) : (s.addRec r).cmBox = s.cmBox := by unfold State.addRec; split <;> rfl
@[simp] theorem State.addRec_benches (r : LogRec) : (s.addRec r).benches = s.benches := by unfold State.addRec; split <;> rfl

@[simp] theorem State.sendVector_pending (v : Nat) : (s.sendVector v).pending = s.pending := by unfold State.sendVector; split <;> simp
@[simp] theorem State.sendVector_freeCtr (v : Nat) : (s.sendVector v).freeCtr = s.freeCtr := by unfold State.sendVector; split <;> simp
@[simp] theorem State.sendVector_time (v : Nat) : (s.sendVector v).time = s.time := by unfold State.sendVector; split <;> simp
@[simp] theorem State.sendVector_mem (v : Nat) : (s.sendVector v).mem = s.mem := by unfold State.sendVector; split <;> simp
@[simp] theorem State.sendVector_poison (v : Nat) : (s.sendVector v).poison = s.poison := by unfold State.sendVector; split <;> simp
@[simp] theorem State.sendVector_sync (v : Nat) : (s.sendVector v).sync = s.sync := by unfold State.sendVector; split <;> simp
@[simp] theorem State.sendVector_log (v : Nat) : (s.sendVector v).log = s.log := by unfold State.sendVector; split <;> simp
@[simp] theorem State.sendVector_logSeq (v : Nat) : (s.sendVector v).logSeq = s.logSeq := by unfold State.sendVector; split <;> simp
@[simp] theorem State.sendVector_flashLog (v : Nat) : (s.sendVector v).flashLog = s.flashLog := by unfold State.sendVector; split <;> simp
@[simp] theorem State.sendVector_flashSeq (v : Nat) : (s.sendVector v).flashSeq = s.flashSeq := by unfold State.sendVector; split <;> simp
@[simp] theorem State.sendVector_msixEn (v : Nat) : (s.sendVector v).msixEn = s.msixEn := by unfold State.sendVector; split <;> simp
@[simp] theorem State.sendVector_msixMask (v : Nat) : (s.sendVector v).msixMask = s.msixMask := by unfold State.sendVector; split <;> simp
@[simp] theorem State.sendVector_spall (v : Nat) : (s.sendVector v).spall = s.spall := by unfold State.sendVector; split <;> simp
@[simp] theorem State.sendVector_regions (v : Nat) : (s.sendVector v).regions = s.regions := by unfold State.sendVector; split <;> simp
@[simp] theorem State.sendVector_regionUid (v : Nat) : (s.sendVector v).regionUid = s.regionUid := by unfold State.sendVector; split <;> simp
@[simp] theorem State.sendVector_ports (v : Nat) : (s.sendVector v).ports = s.ports := by unfold State.sendVector; split <;> simp
@[simp] theorem State.sendVector_e2eTx (v : Nat) : (s.sendVector v).e2eTx = s.e2eTx := by unfold State.sendVector; split <;> simp
@[simp] theorem State.sendVector_e2eRx (v : Nat) : (s.sendVector v).e2eRx = s.e2eRx := by unfold State.sendVector; split <;> simp
@[simp] theorem State.sendVector_txns (v : Nat) : (s.sendVector v).txns = s.txns := by unfold State.sendVector; split <;> simp
@[simp] theorem State.sendVector_inbox (v : Nat) : (s.sendVector v).inbox = s.inbox := by unfold State.sendVector; split <;> simp
@[simp] theorem State.sendVector_mgmtHold (v : Nat) : (s.sendVector v).mgmtHold = s.mgmtHold := by unfold State.sendVector; split <;> simp
@[simp] theorem State.sendVector_mgmtTokens (v : Nat) : (s.sendVector v).mgmtTokens = s.mgmtTokens := by unfold State.sendVector; split <;> simp
@[simp] theorem State.sendVector_mgmtTime (v : Nat) : (s.sendVector v).mgmtTime = s.mgmtTime := by unfold State.sendVector; split <;> simp
@[simp] theorem State.sendVector_unreachLog (v : Nat) : (s.sendVector v).unreachLog = s.unreachLog := by unfold State.sendVector; split <;> simp
@[simp] theorem State.sendVector_tlb (v : Nat) : (s.sendVector v).tlb = s.tlb := by unfold State.sendVector; split <;> simp
@[simp] theorem State.sendVector_invals (v : Nat) : (s.sendVector v).invals = s.invals := by unfold State.sendVector; split <;> simp
@[simp] theorem State.sendVector_derricks (v : Nat) : (s.sendVector v).derricks = s.derricks := by unfold State.sendVector; split <;> simp
@[simp] theorem State.sendVector_arbs (v : Nat) : (s.sendVector v).arbs = s.arbs := by unfold State.sendVector; split <;> simp
@[simp] theorem State.sendVector_seLast (v : Nat) : (s.sendVector v).seLast = s.seLast := by unfold State.sendVector; split <;> simp
@[simp] theorem State.sendVector_busMaster (v : Nat) : (s.sendVector v).busMaster = s.busMaster := by unfold State.sendVector; split <;> simp
@[simp] theorem State.sendVector_scrubLow (v : Nat) : (s.sendVector v).scrubLow = s.scrubLow := by unfold State.sendVector; split <;> simp
@[simp] theorem State.sendVector_ues (v : Nat) : (s.sendVector v).ues = s.ues := by unfold State.sendVector; split <;> simp
@[simp] theorem State.sendVector_colls (v : Nat) : (s.sendVector v).colls = s.colls := by unfold State.sendVector; split <;> simp
@[simp] theorem State.sendVector_tally (v : Nat) : (s.sendVector v).tally = s.tally := by unfold State.sendVector; split <;> simp
@[simp] theorem State.sendVector_ended (v : Nat) : (s.sendVector v).ended = s.ended := by unfold State.sendVector; split <;> simp
@[simp] theorem State.sendVector_lateLog (v : Nat) : (s.sendVector v).lateLog = s.lateLog := by unfold State.sendVector; split <;> simp
@[simp] theorem State.sendVector_early (v : Nat) : (s.sendVector v).early = s.early := by unfold State.sendVector; split <;> simp
@[simp] theorem State.sendVector_straps (v : Nat) : (s.sendVector v).straps = s.straps := by unfold State.sendVector; split <;> simp
@[simp] theorem State.sendVector_pci (v : Nat) : (s.sendVector v).pci = s.pci := by unfold State.sendVector; split <;> simp
@[simp] theorem State.sendVector_released (v : Nat) : (s.sendVector v).released = s.released := by unfold State.sendVector; split <;> simp
@[simp] theorem State.sendVector_cores (v : Nat) : (s.sendVector v).cores = s.cores := by unfold State.sendVector; split <;> simp
@[simp] theorem State.sendVector_l2 (v : Nat) : (s.sendVector v).l2 = s.l2 := by unfold State.sendVector; split <;> simp
@[simp] theorem State.sendVector_modules (v : Nat) : (s.sendVector v).modules = s.modules := by unfold State.sendVector; split <;> simp
@[simp] theorem State.sendVector_runs (v : Nat) : (s.sendVector v).runs = s.runs := by unfold State.sendVector; split <;> simp
@[simp] theorem State.sendVector_repro (v : Nat) : (s.sendVector v).repro = s.repro := by unfold State.sendVector; split <;> simp
@[simp] theorem State.sendVector_rings (v : Nat) : (s.sendVector v).rings = s.rings := by unfold State.sendVector; split <;> simp
@[simp] theorem State.sendVector_members (v : Nat) : (s.sendVector v).members = s.members := by unfold State.sendVector; split <;> simp
@[simp] theorem State.sendVector_cm (v : Nat) : (s.sendVector v).cm = s.cm := by unfold State.sendVector; split <;> simp
@[simp] theorem State.sendVector_mb (v : Nat) : (s.sendVector v).mb = s.mb := by unfold State.sendVector; split <;> simp
@[simp] theorem State.sendVector_bridge (v : Nat) : (s.sendVector v).bridge = s.bridge := by unfold State.sendVector; split <;> simp
@[simp] theorem State.sendVector_gate (v : Nat) : (s.sendVector v).gate = s.gate := by unfold State.sendVector; split <;> simp
@[simp] theorem State.sendVector_pwr (v : Nat) : (s.sendVector v).pwr = s.pwr := by unfold State.sendVector; split <;> simp
@[simp] theorem State.sendVector_held (v : Nat) : (s.sendVector v).held = s.held := by unfold State.sendVector; split <;> simp
@[simp] theorem State.sendVector_cmBox (v : Nat) : (s.sendVector v).cmBox = s.cmBox := by unfold State.sendVector; split <;> simp
@[simp] theorem State.sendVector_benches (v : Nat) : (s.sendVector v).benches = s.benches := by unfold State.sendVector; split <;> simp

@[simp] theorem State.raise_pending (v : Nat) : (s.raise v).pending = s.pending := by unfold State.raise; split <;> simp
@[simp] theorem State.raise_freeCtr (v : Nat) : (s.raise v).freeCtr = s.freeCtr := by unfold State.raise; split <;> simp
@[simp] theorem State.raise_time (v : Nat) : (s.raise v).time = s.time := by unfold State.raise; split <;> simp
@[simp] theorem State.raise_mem (v : Nat) : (s.raise v).mem = s.mem := by unfold State.raise; split <;> simp
@[simp] theorem State.raise_poison (v : Nat) : (s.raise v).poison = s.poison := by unfold State.raise; split <;> simp
@[simp] theorem State.raise_sync (v : Nat) : (s.raise v).sync = s.sync := by unfold State.raise; split <;> simp
@[simp] theorem State.raise_log (v : Nat) : (s.raise v).log = s.log := by unfold State.raise; split <;> simp
@[simp] theorem State.raise_logSeq (v : Nat) : (s.raise v).logSeq = s.logSeq := by unfold State.raise; split <;> simp
@[simp] theorem State.raise_flashLog (v : Nat) : (s.raise v).flashLog = s.flashLog := by unfold State.raise; split <;> simp
@[simp] theorem State.raise_flashSeq (v : Nat) : (s.raise v).flashSeq = s.flashSeq := by unfold State.raise; split <;> simp
@[simp] theorem State.raise_msixEn (v : Nat) : (s.raise v).msixEn = s.msixEn := by unfold State.raise; split <;> simp
@[simp] theorem State.raise_msixMask (v : Nat) : (s.raise v).msixMask = s.msixMask := by unfold State.raise; split <;> simp
@[simp] theorem State.raise_spall (v : Nat) : (s.raise v).spall = s.spall := by unfold State.raise; split <;> simp
@[simp] theorem State.raise_regions (v : Nat) : (s.raise v).regions = s.regions := by unfold State.raise; split <;> simp
@[simp] theorem State.raise_regionUid (v : Nat) : (s.raise v).regionUid = s.regionUid := by unfold State.raise; split <;> simp
@[simp] theorem State.raise_ports (v : Nat) : (s.raise v).ports = s.ports := by unfold State.raise; split <;> simp
@[simp] theorem State.raise_e2eTx (v : Nat) : (s.raise v).e2eTx = s.e2eTx := by unfold State.raise; split <;> simp
@[simp] theorem State.raise_e2eRx (v : Nat) : (s.raise v).e2eRx = s.e2eRx := by unfold State.raise; split <;> simp
@[simp] theorem State.raise_txns (v : Nat) : (s.raise v).txns = s.txns := by unfold State.raise; split <;> simp
@[simp] theorem State.raise_inbox (v : Nat) : (s.raise v).inbox = s.inbox := by unfold State.raise; split <;> simp
@[simp] theorem State.raise_mgmtHold (v : Nat) : (s.raise v).mgmtHold = s.mgmtHold := by unfold State.raise; split <;> simp
@[simp] theorem State.raise_mgmtTokens (v : Nat) : (s.raise v).mgmtTokens = s.mgmtTokens := by unfold State.raise; split <;> simp
@[simp] theorem State.raise_mgmtTime (v : Nat) : (s.raise v).mgmtTime = s.mgmtTime := by unfold State.raise; split <;> simp
@[simp] theorem State.raise_unreachLog (v : Nat) : (s.raise v).unreachLog = s.unreachLog := by unfold State.raise; split <;> simp
@[simp] theorem State.raise_tlb (v : Nat) : (s.raise v).tlb = s.tlb := by unfold State.raise; split <;> simp
@[simp] theorem State.raise_invals (v : Nat) : (s.raise v).invals = s.invals := by unfold State.raise; split <;> simp
@[simp] theorem State.raise_derricks (v : Nat) : (s.raise v).derricks = s.derricks := by unfold State.raise; split <;> simp
@[simp] theorem State.raise_arbs (v : Nat) : (s.raise v).arbs = s.arbs := by unfold State.raise; split <;> simp
@[simp] theorem State.raise_seLast (v : Nat) : (s.raise v).seLast = s.seLast := by unfold State.raise; split <;> simp
@[simp] theorem State.raise_busMaster (v : Nat) : (s.raise v).busMaster = s.busMaster := by unfold State.raise; split <;> simp
@[simp] theorem State.raise_scrubLow (v : Nat) : (s.raise v).scrubLow = s.scrubLow := by unfold State.raise; split <;> simp
@[simp] theorem State.raise_ues (v : Nat) : (s.raise v).ues = s.ues := by unfold State.raise; split <;> simp
@[simp] theorem State.raise_colls (v : Nat) : (s.raise v).colls = s.colls := by unfold State.raise; split <;> simp
@[simp] theorem State.raise_tally (v : Nat) : (s.raise v).tally = s.tally := by unfold State.raise; split <;> simp
@[simp] theorem State.raise_ended (v : Nat) : (s.raise v).ended = s.ended := by unfold State.raise; split <;> simp
@[simp] theorem State.raise_lateLog (v : Nat) : (s.raise v).lateLog = s.lateLog := by unfold State.raise; split <;> simp
@[simp] theorem State.raise_early (v : Nat) : (s.raise v).early = s.early := by unfold State.raise; split <;> simp
@[simp] theorem State.raise_straps (v : Nat) : (s.raise v).straps = s.straps := by unfold State.raise; split <;> simp
@[simp] theorem State.raise_pci (v : Nat) : (s.raise v).pci = s.pci := by unfold State.raise; split <;> simp
@[simp] theorem State.raise_released (v : Nat) : (s.raise v).released = s.released := by unfold State.raise; split <;> simp
@[simp] theorem State.raise_cores (v : Nat) : (s.raise v).cores = s.cores := by unfold State.raise; split <;> simp
@[simp] theorem State.raise_l2 (v : Nat) : (s.raise v).l2 = s.l2 := by unfold State.raise; split <;> simp
@[simp] theorem State.raise_modules (v : Nat) : (s.raise v).modules = s.modules := by unfold State.raise; split <;> simp
@[simp] theorem State.raise_runs (v : Nat) : (s.raise v).runs = s.runs := by unfold State.raise; split <;> simp
@[simp] theorem State.raise_repro (v : Nat) : (s.raise v).repro = s.repro := by unfold State.raise; split <;> simp
@[simp] theorem State.raise_rings (v : Nat) : (s.raise v).rings = s.rings := by unfold State.raise; split <;> simp
@[simp] theorem State.raise_members (v : Nat) : (s.raise v).members = s.members := by unfold State.raise; split <;> simp
@[simp] theorem State.raise_cm (v : Nat) : (s.raise v).cm = s.cm := by unfold State.raise; split <;> simp
@[simp] theorem State.raise_mb (v : Nat) : (s.raise v).mb = s.mb := by unfold State.raise; split <;> simp
@[simp] theorem State.raise_bridge (v : Nat) : (s.raise v).bridge = s.bridge := by unfold State.raise; split <;> simp
@[simp] theorem State.raise_gate (v : Nat) : (s.raise v).gate = s.gate := by unfold State.raise; split <;> simp
@[simp] theorem State.raise_pwr (v : Nat) : (s.raise v).pwr = s.pwr := by unfold State.raise; split <;> simp
@[simp] theorem State.raise_held (v : Nat) : (s.raise v).held = s.held := by unfold State.raise; split <;> simp
@[simp] theorem State.raise_cmBox (v : Nat) : (s.raise v).cmBox = s.cmBox := by unfold State.raise; split <;> simp
@[simp] theorem State.raise_benches (v : Nat) : (s.raise v).benches = s.benches := by unfold State.raise; split <;> simp

@[simp] theorem State.setSync_pending (i v : Nat) : (s.setSync i v).pending = s.pending := rfl
@[simp] theorem State.setSync_out (i v : Nat) : (s.setSync i v).out = s.out := rfl
@[simp] theorem State.setSync_freeCtr (i v : Nat) : (s.setSync i v).freeCtr = s.freeCtr := rfl
@[simp] theorem State.setSync_time (i v : Nat) : (s.setSync i v).time = s.time := rfl
@[simp] theorem State.setSync_mem (i v : Nat) : (s.setSync i v).mem = s.mem := rfl
@[simp] theorem State.setSync_poison (i v : Nat) : (s.setSync i v).poison = s.poison := rfl
@[simp] theorem State.setSync_regs (i v : Nat) : (s.setSync i v).regs = s.regs := rfl
@[simp] theorem State.setSync_log (i v : Nat) : (s.setSync i v).log = s.log := rfl
@[simp] theorem State.setSync_logSeq (i v : Nat) : (s.setSync i v).logSeq = s.logSeq := rfl
@[simp] theorem State.setSync_flashLog (i v : Nat) : (s.setSync i v).flashLog = s.flashLog := rfl
@[simp] theorem State.setSync_flashSeq (i v : Nat) : (s.setSync i v).flashSeq = s.flashSeq := rfl
@[simp] theorem State.setSync_msixEn (i v : Nat) : (s.setSync i v).msixEn = s.msixEn := rfl
@[simp] theorem State.setSync_msixMask (i v : Nat) : (s.setSync i v).msixMask = s.msixMask := rfl
@[simp] theorem State.setSync_spall (i v : Nat) : (s.setSync i v).spall = s.spall := rfl
@[simp] theorem State.setSync_regions (i v : Nat) : (s.setSync i v).regions = s.regions := rfl
@[simp] theorem State.setSync_regionUid (i v : Nat) : (s.setSync i v).regionUid = s.regionUid := rfl
@[simp] theorem State.setSync_ports (i v : Nat) : (s.setSync i v).ports = s.ports := rfl
@[simp] theorem State.setSync_e2eTx (i v : Nat) : (s.setSync i v).e2eTx = s.e2eTx := rfl
@[simp] theorem State.setSync_e2eRx (i v : Nat) : (s.setSync i v).e2eRx = s.e2eRx := rfl
@[simp] theorem State.setSync_txns (i v : Nat) : (s.setSync i v).txns = s.txns := rfl
@[simp] theorem State.setSync_inbox (i v : Nat) : (s.setSync i v).inbox = s.inbox := rfl
@[simp] theorem State.setSync_mgmtHold (i v : Nat) : (s.setSync i v).mgmtHold = s.mgmtHold := rfl
@[simp] theorem State.setSync_mgmtTokens (i v : Nat) : (s.setSync i v).mgmtTokens = s.mgmtTokens := rfl
@[simp] theorem State.setSync_mgmtTime (i v : Nat) : (s.setSync i v).mgmtTime = s.mgmtTime := rfl
@[simp] theorem State.setSync_unreachLog (i v : Nat) : (s.setSync i v).unreachLog = s.unreachLog := rfl
@[simp] theorem State.setSync_tlb (i v : Nat) : (s.setSync i v).tlb = s.tlb := rfl
@[simp] theorem State.setSync_invals (i v : Nat) : (s.setSync i v).invals = s.invals := rfl
@[simp] theorem State.setSync_derricks (i v : Nat) : (s.setSync i v).derricks = s.derricks := rfl
@[simp] theorem State.setSync_arbs (i v : Nat) : (s.setSync i v).arbs = s.arbs := rfl
@[simp] theorem State.setSync_seLast (i v : Nat) : (s.setSync i v).seLast = s.seLast := rfl
@[simp] theorem State.setSync_busMaster (i v : Nat) : (s.setSync i v).busMaster = s.busMaster := rfl
@[simp] theorem State.setSync_scrubLow (i v : Nat) : (s.setSync i v).scrubLow = s.scrubLow := rfl
@[simp] theorem State.setSync_ues (i v : Nat) : (s.setSync i v).ues = s.ues := rfl
@[simp] theorem State.setSync_colls (i v : Nat) : (s.setSync i v).colls = s.colls := rfl
@[simp] theorem State.setSync_tally (i v : Nat) : (s.setSync i v).tally = s.tally := rfl
@[simp] theorem State.setSync_ended (i v : Nat) : (s.setSync i v).ended = s.ended := rfl
@[simp] theorem State.setSync_lateLog (i v : Nat) : (s.setSync i v).lateLog = s.lateLog := rfl
@[simp] theorem State.setSync_early (i v : Nat) : (s.setSync i v).early = s.early := rfl
@[simp] theorem State.setSync_straps (i v : Nat) : (s.setSync i v).straps = s.straps := rfl
@[simp] theorem State.setSync_pci (i v : Nat) : (s.setSync i v).pci = s.pci := rfl
@[simp] theorem State.setSync_released (i v : Nat) : (s.setSync i v).released = s.released := rfl
@[simp] theorem State.setSync_cores (i v : Nat) : (s.setSync i v).cores = s.cores := rfl
@[simp] theorem State.setSync_l2 (i v : Nat) : (s.setSync i v).l2 = s.l2 := rfl
@[simp] theorem State.setSync_modules (i v : Nat) : (s.setSync i v).modules = s.modules := rfl
@[simp] theorem State.setSync_runs (i v : Nat) : (s.setSync i v).runs = s.runs := rfl
@[simp] theorem State.setSync_repro (i v : Nat) : (s.setSync i v).repro = s.repro := rfl
@[simp] theorem State.setSync_rings (i v : Nat) : (s.setSync i v).rings = s.rings := rfl
@[simp] theorem State.setSync_members (i v : Nat) : (s.setSync i v).members = s.members := rfl
@[simp] theorem State.setSync_cm (i v : Nat) : (s.setSync i v).cm = s.cm := rfl
@[simp] theorem State.setSync_mb (i v : Nat) : (s.setSync i v).mb = s.mb := rfl
@[simp] theorem State.setSync_bridge (i v : Nat) : (s.setSync i v).bridge = s.bridge := rfl
@[simp] theorem State.setSync_gate (i v : Nat) : (s.setSync i v).gate = s.gate := rfl
@[simp] theorem State.setSync_pwr (i v : Nat) : (s.setSync i v).pwr = s.pwr := rfl
@[simp] theorem State.setSync_held (i v : Nat) : (s.setSync i v).held = s.held := rfl
@[simp] theorem State.setSync_cmBox (i v : Nat) : (s.setSync i v).cmBox = s.cmBox := rfl
@[simp] theorem State.setSync_benches (i v : Nat) : (s.setSync i v).benches = s.benches := rfl

@[simp] theorem State.addSync_pending (i n : Nat) : (s.addSync i n).pending = s.pending := rfl
@[simp] theorem State.addSync_out (i n : Nat) : (s.addSync i n).out = s.out := rfl
@[simp] theorem State.addSync_freeCtr (i n : Nat) : (s.addSync i n).freeCtr = s.freeCtr := rfl
@[simp] theorem State.addSync_time (i n : Nat) : (s.addSync i n).time = s.time := rfl
@[simp] theorem State.addSync_mem (i n : Nat) : (s.addSync i n).mem = s.mem := rfl
@[simp] theorem State.addSync_poison (i n : Nat) : (s.addSync i n).poison = s.poison := rfl
@[simp] theorem State.addSync_regs (i n : Nat) : (s.addSync i n).regs = s.regs := rfl
@[simp] theorem State.addSync_log (i n : Nat) : (s.addSync i n).log = s.log := rfl
@[simp] theorem State.addSync_logSeq (i n : Nat) : (s.addSync i n).logSeq = s.logSeq := rfl
@[simp] theorem State.addSync_flashLog (i n : Nat) : (s.addSync i n).flashLog = s.flashLog := rfl
@[simp] theorem State.addSync_flashSeq (i n : Nat) : (s.addSync i n).flashSeq = s.flashSeq := rfl
@[simp] theorem State.addSync_msixEn (i n : Nat) : (s.addSync i n).msixEn = s.msixEn := rfl
@[simp] theorem State.addSync_msixMask (i n : Nat) : (s.addSync i n).msixMask = s.msixMask := rfl
@[simp] theorem State.addSync_spall (i n : Nat) : (s.addSync i n).spall = s.spall := rfl
@[simp] theorem State.addSync_regions (i n : Nat) : (s.addSync i n).regions = s.regions := rfl
@[simp] theorem State.addSync_regionUid (i n : Nat) : (s.addSync i n).regionUid = s.regionUid := rfl
@[simp] theorem State.addSync_ports (i n : Nat) : (s.addSync i n).ports = s.ports := rfl
@[simp] theorem State.addSync_e2eTx (i n : Nat) : (s.addSync i n).e2eTx = s.e2eTx := rfl
@[simp] theorem State.addSync_e2eRx (i n : Nat) : (s.addSync i n).e2eRx = s.e2eRx := rfl
@[simp] theorem State.addSync_txns (i n : Nat) : (s.addSync i n).txns = s.txns := rfl
@[simp] theorem State.addSync_inbox (i n : Nat) : (s.addSync i n).inbox = s.inbox := rfl
@[simp] theorem State.addSync_mgmtHold (i n : Nat) : (s.addSync i n).mgmtHold = s.mgmtHold := rfl
@[simp] theorem State.addSync_mgmtTokens (i n : Nat) : (s.addSync i n).mgmtTokens = s.mgmtTokens := rfl
@[simp] theorem State.addSync_mgmtTime (i n : Nat) : (s.addSync i n).mgmtTime = s.mgmtTime := rfl
@[simp] theorem State.addSync_unreachLog (i n : Nat) : (s.addSync i n).unreachLog = s.unreachLog := rfl
@[simp] theorem State.addSync_tlb (i n : Nat) : (s.addSync i n).tlb = s.tlb := rfl
@[simp] theorem State.addSync_invals (i n : Nat) : (s.addSync i n).invals = s.invals := rfl
@[simp] theorem State.addSync_derricks (i n : Nat) : (s.addSync i n).derricks = s.derricks := rfl
@[simp] theorem State.addSync_arbs (i n : Nat) : (s.addSync i n).arbs = s.arbs := rfl
@[simp] theorem State.addSync_seLast (i n : Nat) : (s.addSync i n).seLast = s.seLast := rfl
@[simp] theorem State.addSync_busMaster (i n : Nat) : (s.addSync i n).busMaster = s.busMaster := rfl
@[simp] theorem State.addSync_scrubLow (i n : Nat) : (s.addSync i n).scrubLow = s.scrubLow := rfl
@[simp] theorem State.addSync_ues (i n : Nat) : (s.addSync i n).ues = s.ues := rfl
@[simp] theorem State.addSync_colls (i n : Nat) : (s.addSync i n).colls = s.colls := rfl
@[simp] theorem State.addSync_tally (i n : Nat) : (s.addSync i n).tally = s.tally := rfl
@[simp] theorem State.addSync_ended (i n : Nat) : (s.addSync i n).ended = s.ended := rfl
@[simp] theorem State.addSync_lateLog (i n : Nat) : (s.addSync i n).lateLog = s.lateLog := rfl
@[simp] theorem State.addSync_early (i n : Nat) : (s.addSync i n).early = s.early := rfl
@[simp] theorem State.addSync_straps (i n : Nat) : (s.addSync i n).straps = s.straps := rfl
@[simp] theorem State.addSync_pci (i n : Nat) : (s.addSync i n).pci = s.pci := rfl
@[simp] theorem State.addSync_released (i n : Nat) : (s.addSync i n).released = s.released := rfl
@[simp] theorem State.addSync_cores (i n : Nat) : (s.addSync i n).cores = s.cores := rfl
@[simp] theorem State.addSync_l2 (i n : Nat) : (s.addSync i n).l2 = s.l2 := rfl
@[simp] theorem State.addSync_modules (i n : Nat) : (s.addSync i n).modules = s.modules := rfl
@[simp] theorem State.addSync_runs (i n : Nat) : (s.addSync i n).runs = s.runs := rfl
@[simp] theorem State.addSync_repro (i n : Nat) : (s.addSync i n).repro = s.repro := rfl
@[simp] theorem State.addSync_rings (i n : Nat) : (s.addSync i n).rings = s.rings := rfl
@[simp] theorem State.addSync_members (i n : Nat) : (s.addSync i n).members = s.members := rfl
@[simp] theorem State.addSync_cm (i n : Nat) : (s.addSync i n).cm = s.cm := rfl
@[simp] theorem State.addSync_mb (i n : Nat) : (s.addSync i n).mb = s.mb := rfl
@[simp] theorem State.addSync_bridge (i n : Nat) : (s.addSync i n).bridge = s.bridge := rfl
@[simp] theorem State.addSync_gate (i n : Nat) : (s.addSync i n).gate = s.gate := rfl
@[simp] theorem State.addSync_pwr (i n : Nat) : (s.addSync i n).pwr = s.pwr := rfl
@[simp] theorem State.addSync_held (i n : Nat) : (s.addSync i n).held = s.held := rfl
@[simp] theorem State.addSync_cmBox (i n : Nat) : (s.addSync i n).cmBox = s.cmBox := rfl
@[simp] theorem State.addSync_benches (i n : Nat) : (s.addSync i n).benches = s.benches := rfl

@[simp] theorem State.setBench_pending (b : Fin 24) (x : Bench) : (s.setBench b x).pending = s.pending := rfl
@[simp] theorem State.setBench_out (b : Fin 24) (x : Bench) : (s.setBench b x).out = s.out := rfl
@[simp] theorem State.setBench_freeCtr (b : Fin 24) (x : Bench) : (s.setBench b x).freeCtr = s.freeCtr := rfl
@[simp] theorem State.setBench_time (b : Fin 24) (x : Bench) : (s.setBench b x).time = s.time := rfl
@[simp] theorem State.setBench_mem (b : Fin 24) (x : Bench) : (s.setBench b x).mem = s.mem := rfl
@[simp] theorem State.setBench_poison (b : Fin 24) (x : Bench) : (s.setBench b x).poison = s.poison := rfl
@[simp] theorem State.setBench_regs (b : Fin 24) (x : Bench) : (s.setBench b x).regs = s.regs := rfl
@[simp] theorem State.setBench_sync (b : Fin 24) (x : Bench) : (s.setBench b x).sync = s.sync := rfl
@[simp] theorem State.setBench_log (b : Fin 24) (x : Bench) : (s.setBench b x).log = s.log := rfl
@[simp] theorem State.setBench_logSeq (b : Fin 24) (x : Bench) : (s.setBench b x).logSeq = s.logSeq := rfl
@[simp] theorem State.setBench_flashLog (b : Fin 24) (x : Bench) : (s.setBench b x).flashLog = s.flashLog := rfl
@[simp] theorem State.setBench_flashSeq (b : Fin 24) (x : Bench) : (s.setBench b x).flashSeq = s.flashSeq := rfl
@[simp] theorem State.setBench_msixEn (b : Fin 24) (x : Bench) : (s.setBench b x).msixEn = s.msixEn := rfl
@[simp] theorem State.setBench_msixMask (b : Fin 24) (x : Bench) : (s.setBench b x).msixMask = s.msixMask := rfl
@[simp] theorem State.setBench_spall (b : Fin 24) (x : Bench) : (s.setBench b x).spall = s.spall := rfl
@[simp] theorem State.setBench_regions (b : Fin 24) (x : Bench) : (s.setBench b x).regions = s.regions := rfl
@[simp] theorem State.setBench_regionUid (b : Fin 24) (x : Bench) : (s.setBench b x).regionUid = s.regionUid := rfl
@[simp] theorem State.setBench_ports (b : Fin 24) (x : Bench) : (s.setBench b x).ports = s.ports := rfl
@[simp] theorem State.setBench_e2eTx (b : Fin 24) (x : Bench) : (s.setBench b x).e2eTx = s.e2eTx := rfl
@[simp] theorem State.setBench_e2eRx (b : Fin 24) (x : Bench) : (s.setBench b x).e2eRx = s.e2eRx := rfl
@[simp] theorem State.setBench_txns (b : Fin 24) (x : Bench) : (s.setBench b x).txns = s.txns := rfl
@[simp] theorem State.setBench_inbox (b : Fin 24) (x : Bench) : (s.setBench b x).inbox = s.inbox := rfl
@[simp] theorem State.setBench_mgmtHold (b : Fin 24) (x : Bench) : (s.setBench b x).mgmtHold = s.mgmtHold := rfl
@[simp] theorem State.setBench_mgmtTokens (b : Fin 24) (x : Bench) : (s.setBench b x).mgmtTokens = s.mgmtTokens := rfl
@[simp] theorem State.setBench_mgmtTime (b : Fin 24) (x : Bench) : (s.setBench b x).mgmtTime = s.mgmtTime := rfl
@[simp] theorem State.setBench_unreachLog (b : Fin 24) (x : Bench) : (s.setBench b x).unreachLog = s.unreachLog := rfl
@[simp] theorem State.setBench_tlb (b : Fin 24) (x : Bench) : (s.setBench b x).tlb = s.tlb := rfl
@[simp] theorem State.setBench_invals (b : Fin 24) (x : Bench) : (s.setBench b x).invals = s.invals := rfl
@[simp] theorem State.setBench_derricks (b : Fin 24) (x : Bench) : (s.setBench b x).derricks = s.derricks := rfl
@[simp] theorem State.setBench_arbs (b : Fin 24) (x : Bench) : (s.setBench b x).arbs = s.arbs := rfl
@[simp] theorem State.setBench_seLast (b : Fin 24) (x : Bench) : (s.setBench b x).seLast = s.seLast := rfl
@[simp] theorem State.setBench_busMaster (b : Fin 24) (x : Bench) : (s.setBench b x).busMaster = s.busMaster := rfl
@[simp] theorem State.setBench_scrubLow (b : Fin 24) (x : Bench) : (s.setBench b x).scrubLow = s.scrubLow := rfl
@[simp] theorem State.setBench_ues (b : Fin 24) (x : Bench) : (s.setBench b x).ues = s.ues := rfl
@[simp] theorem State.setBench_colls (b : Fin 24) (x : Bench) : (s.setBench b x).colls = s.colls := rfl
@[simp] theorem State.setBench_tally (b : Fin 24) (x : Bench) : (s.setBench b x).tally = s.tally := rfl
@[simp] theorem State.setBench_ended (b : Fin 24) (x : Bench) : (s.setBench b x).ended = s.ended := rfl
@[simp] theorem State.setBench_lateLog (b : Fin 24) (x : Bench) : (s.setBench b x).lateLog = s.lateLog := rfl
@[simp] theorem State.setBench_early (b : Fin 24) (x : Bench) : (s.setBench b x).early = s.early := rfl
@[simp] theorem State.setBench_straps (b : Fin 24) (x : Bench) : (s.setBench b x).straps = s.straps := rfl
@[simp] theorem State.setBench_pci (b : Fin 24) (x : Bench) : (s.setBench b x).pci = s.pci := rfl
@[simp] theorem State.setBench_released (b : Fin 24) (x : Bench) : (s.setBench b x).released = s.released := rfl
@[simp] theorem State.setBench_cores (b : Fin 24) (x : Bench) : (s.setBench b x).cores = s.cores := rfl
@[simp] theorem State.setBench_l2 (b : Fin 24) (x : Bench) : (s.setBench b x).l2 = s.l2 := rfl
@[simp] theorem State.setBench_modules (b : Fin 24) (x : Bench) : (s.setBench b x).modules = s.modules := rfl
@[simp] theorem State.setBench_runs (b : Fin 24) (x : Bench) : (s.setBench b x).runs = s.runs := rfl
@[simp] theorem State.setBench_repro (b : Fin 24) (x : Bench) : (s.setBench b x).repro = s.repro := rfl
@[simp] theorem State.setBench_rings (b : Fin 24) (x : Bench) : (s.setBench b x).rings = s.rings := rfl
@[simp] theorem State.setBench_members (b : Fin 24) (x : Bench) : (s.setBench b x).members = s.members := rfl
@[simp] theorem State.setBench_cm (b : Fin 24) (x : Bench) : (s.setBench b x).cm = s.cm := rfl
@[simp] theorem State.setBench_mb (b : Fin 24) (x : Bench) : (s.setBench b x).mb = s.mb := rfl
@[simp] theorem State.setBench_bridge (b : Fin 24) (x : Bench) : (s.setBench b x).bridge = s.bridge := rfl
@[simp] theorem State.setBench_gate (b : Fin 24) (x : Bench) : (s.setBench b x).gate = s.gate := rfl
@[simp] theorem State.setBench_pwr (b : Fin 24) (x : Bench) : (s.setBench b x).pwr = s.pwr := rfl
@[simp] theorem State.setBench_held (b : Fin 24) (x : Bench) : (s.setBench b x).held = s.held := rfl
@[simp] theorem State.setBench_cmBox (b : Fin 24) (x : Bench) : (s.setBench b x).cmBox = s.cmBox := rfl

@[simp] theorem State.modBench_pending (b : Fin 24) (f : Bench → Bench) : (s.modBench b f).pending = s.pending := rfl
@[simp] theorem State.modBench_out (b : Fin 24) (f : Bench → Bench) : (s.modBench b f).out = s.out := rfl
@[simp] theorem State.modBench_freeCtr (b : Fin 24) (f : Bench → Bench) : (s.modBench b f).freeCtr = s.freeCtr := rfl
@[simp] theorem State.modBench_time (b : Fin 24) (f : Bench → Bench) : (s.modBench b f).time = s.time := rfl
@[simp] theorem State.modBench_mem (b : Fin 24) (f : Bench → Bench) : (s.modBench b f).mem = s.mem := rfl
@[simp] theorem State.modBench_poison (b : Fin 24) (f : Bench → Bench) : (s.modBench b f).poison = s.poison := rfl
@[simp] theorem State.modBench_regs (b : Fin 24) (f : Bench → Bench) : (s.modBench b f).regs = s.regs := rfl
@[simp] theorem State.modBench_sync (b : Fin 24) (f : Bench → Bench) : (s.modBench b f).sync = s.sync := rfl
@[simp] theorem State.modBench_log (b : Fin 24) (f : Bench → Bench) : (s.modBench b f).log = s.log := rfl
@[simp] theorem State.modBench_logSeq (b : Fin 24) (f : Bench → Bench) : (s.modBench b f).logSeq = s.logSeq := rfl
@[simp] theorem State.modBench_flashLog (b : Fin 24) (f : Bench → Bench) : (s.modBench b f).flashLog = s.flashLog := rfl
@[simp] theorem State.modBench_flashSeq (b : Fin 24) (f : Bench → Bench) : (s.modBench b f).flashSeq = s.flashSeq := rfl
@[simp] theorem State.modBench_msixEn (b : Fin 24) (f : Bench → Bench) : (s.modBench b f).msixEn = s.msixEn := rfl
@[simp] theorem State.modBench_msixMask (b : Fin 24) (f : Bench → Bench) : (s.modBench b f).msixMask = s.msixMask := rfl
@[simp] theorem State.modBench_spall (b : Fin 24) (f : Bench → Bench) : (s.modBench b f).spall = s.spall := rfl
@[simp] theorem State.modBench_regions (b : Fin 24) (f : Bench → Bench) : (s.modBench b f).regions = s.regions := rfl
@[simp] theorem State.modBench_regionUid (b : Fin 24) (f : Bench → Bench) : (s.modBench b f).regionUid = s.regionUid := rfl
@[simp] theorem State.modBench_ports (b : Fin 24) (f : Bench → Bench) : (s.modBench b f).ports = s.ports := rfl
@[simp] theorem State.modBench_e2eTx (b : Fin 24) (f : Bench → Bench) : (s.modBench b f).e2eTx = s.e2eTx := rfl
@[simp] theorem State.modBench_e2eRx (b : Fin 24) (f : Bench → Bench) : (s.modBench b f).e2eRx = s.e2eRx := rfl
@[simp] theorem State.modBench_txns (b : Fin 24) (f : Bench → Bench) : (s.modBench b f).txns = s.txns := rfl
@[simp] theorem State.modBench_inbox (b : Fin 24) (f : Bench → Bench) : (s.modBench b f).inbox = s.inbox := rfl
@[simp] theorem State.modBench_mgmtHold (b : Fin 24) (f : Bench → Bench) : (s.modBench b f).mgmtHold = s.mgmtHold := rfl
@[simp] theorem State.modBench_mgmtTokens (b : Fin 24) (f : Bench → Bench) : (s.modBench b f).mgmtTokens = s.mgmtTokens := rfl
@[simp] theorem State.modBench_mgmtTime (b : Fin 24) (f : Bench → Bench) : (s.modBench b f).mgmtTime = s.mgmtTime := rfl
@[simp] theorem State.modBench_unreachLog (b : Fin 24) (f : Bench → Bench) : (s.modBench b f).unreachLog = s.unreachLog := rfl
@[simp] theorem State.modBench_tlb (b : Fin 24) (f : Bench → Bench) : (s.modBench b f).tlb = s.tlb := rfl
@[simp] theorem State.modBench_invals (b : Fin 24) (f : Bench → Bench) : (s.modBench b f).invals = s.invals := rfl
@[simp] theorem State.modBench_derricks (b : Fin 24) (f : Bench → Bench) : (s.modBench b f).derricks = s.derricks := rfl
@[simp] theorem State.modBench_arbs (b : Fin 24) (f : Bench → Bench) : (s.modBench b f).arbs = s.arbs := rfl
@[simp] theorem State.modBench_seLast (b : Fin 24) (f : Bench → Bench) : (s.modBench b f).seLast = s.seLast := rfl
@[simp] theorem State.modBench_busMaster (b : Fin 24) (f : Bench → Bench) : (s.modBench b f).busMaster = s.busMaster := rfl
@[simp] theorem State.modBench_scrubLow (b : Fin 24) (f : Bench → Bench) : (s.modBench b f).scrubLow = s.scrubLow := rfl
@[simp] theorem State.modBench_ues (b : Fin 24) (f : Bench → Bench) : (s.modBench b f).ues = s.ues := rfl
@[simp] theorem State.modBench_colls (b : Fin 24) (f : Bench → Bench) : (s.modBench b f).colls = s.colls := rfl
@[simp] theorem State.modBench_tally (b : Fin 24) (f : Bench → Bench) : (s.modBench b f).tally = s.tally := rfl
@[simp] theorem State.modBench_ended (b : Fin 24) (f : Bench → Bench) : (s.modBench b f).ended = s.ended := rfl
@[simp] theorem State.modBench_lateLog (b : Fin 24) (f : Bench → Bench) : (s.modBench b f).lateLog = s.lateLog := rfl
@[simp] theorem State.modBench_early (b : Fin 24) (f : Bench → Bench) : (s.modBench b f).early = s.early := rfl
@[simp] theorem State.modBench_straps (b : Fin 24) (f : Bench → Bench) : (s.modBench b f).straps = s.straps := rfl
@[simp] theorem State.modBench_pci (b : Fin 24) (f : Bench → Bench) : (s.modBench b f).pci = s.pci := rfl
@[simp] theorem State.modBench_released (b : Fin 24) (f : Bench → Bench) : (s.modBench b f).released = s.released := rfl
@[simp] theorem State.modBench_cores (b : Fin 24) (f : Bench → Bench) : (s.modBench b f).cores = s.cores := rfl
@[simp] theorem State.modBench_l2 (b : Fin 24) (f : Bench → Bench) : (s.modBench b f).l2 = s.l2 := rfl
@[simp] theorem State.modBench_modules (b : Fin 24) (f : Bench → Bench) : (s.modBench b f).modules = s.modules := rfl
@[simp] theorem State.modBench_runs (b : Fin 24) (f : Bench → Bench) : (s.modBench b f).runs = s.runs := rfl
@[simp] theorem State.modBench_repro (b : Fin 24) (f : Bench → Bench) : (s.modBench b f).repro = s.repro := rfl
@[simp] theorem State.modBench_rings (b : Fin 24) (f : Bench → Bench) : (s.modBench b f).rings = s.rings := rfl
@[simp] theorem State.modBench_members (b : Fin 24) (f : Bench → Bench) : (s.modBench b f).members = s.members := rfl
@[simp] theorem State.modBench_cm (b : Fin 24) (f : Bench → Bench) : (s.modBench b f).cm = s.cm := rfl
@[simp] theorem State.modBench_mb (b : Fin 24) (f : Bench → Bench) : (s.modBench b f).mb = s.mb := rfl
@[simp] theorem State.modBench_bridge (b : Fin 24) (f : Bench → Bench) : (s.modBench b f).bridge = s.bridge := rfl
@[simp] theorem State.modBench_gate (b : Fin 24) (f : Bench → Bench) : (s.modBench b f).gate = s.gate := rfl
@[simp] theorem State.modBench_pwr (b : Fin 24) (f : Bench → Bench) : (s.modBench b f).pwr = s.pwr := rfl
@[simp] theorem State.modBench_held (b : Fin 24) (f : Bench → Bench) : (s.modBench b f).held = s.held := rfl
@[simp] theorem State.modBench_cmBox (b : Fin 24) (f : Bench → Bench) : (s.modBench b f).cmBox = s.cmBox := rfl

@[simp] theorem State.modCore_pending (b : Fin 24) (f : Core → Core) : (s.modCore b f).pending = s.pending := rfl
@[simp] theorem State.modCore_out (b : Fin 24) (f : Core → Core) : (s.modCore b f).out = s.out := rfl
@[simp] theorem State.modCore_freeCtr (b : Fin 24) (f : Core → Core) : (s.modCore b f).freeCtr = s.freeCtr := rfl
@[simp] theorem State.modCore_time (b : Fin 24) (f : Core → Core) : (s.modCore b f).time = s.time := rfl
@[simp] theorem State.modCore_mem (b : Fin 24) (f : Core → Core) : (s.modCore b f).mem = s.mem := rfl
@[simp] theorem State.modCore_poison (b : Fin 24) (f : Core → Core) : (s.modCore b f).poison = s.poison := rfl
@[simp] theorem State.modCore_regs (b : Fin 24) (f : Core → Core) : (s.modCore b f).regs = s.regs := rfl
@[simp] theorem State.modCore_sync (b : Fin 24) (f : Core → Core) : (s.modCore b f).sync = s.sync := rfl
@[simp] theorem State.modCore_log (b : Fin 24) (f : Core → Core) : (s.modCore b f).log = s.log := rfl
@[simp] theorem State.modCore_logSeq (b : Fin 24) (f : Core → Core) : (s.modCore b f).logSeq = s.logSeq := rfl
@[simp] theorem State.modCore_flashLog (b : Fin 24) (f : Core → Core) : (s.modCore b f).flashLog = s.flashLog := rfl
@[simp] theorem State.modCore_flashSeq (b : Fin 24) (f : Core → Core) : (s.modCore b f).flashSeq = s.flashSeq := rfl
@[simp] theorem State.modCore_msixEn (b : Fin 24) (f : Core → Core) : (s.modCore b f).msixEn = s.msixEn := rfl
@[simp] theorem State.modCore_msixMask (b : Fin 24) (f : Core → Core) : (s.modCore b f).msixMask = s.msixMask := rfl
@[simp] theorem State.modCore_spall (b : Fin 24) (f : Core → Core) : (s.modCore b f).spall = s.spall := rfl
@[simp] theorem State.modCore_regions (b : Fin 24) (f : Core → Core) : (s.modCore b f).regions = s.regions := rfl
@[simp] theorem State.modCore_regionUid (b : Fin 24) (f : Core → Core) : (s.modCore b f).regionUid = s.regionUid := rfl
@[simp] theorem State.modCore_ports (b : Fin 24) (f : Core → Core) : (s.modCore b f).ports = s.ports := rfl
@[simp] theorem State.modCore_e2eTx (b : Fin 24) (f : Core → Core) : (s.modCore b f).e2eTx = s.e2eTx := rfl
@[simp] theorem State.modCore_e2eRx (b : Fin 24) (f : Core → Core) : (s.modCore b f).e2eRx = s.e2eRx := rfl
@[simp] theorem State.modCore_txns (b : Fin 24) (f : Core → Core) : (s.modCore b f).txns = s.txns := rfl
@[simp] theorem State.modCore_inbox (b : Fin 24) (f : Core → Core) : (s.modCore b f).inbox = s.inbox := rfl
@[simp] theorem State.modCore_mgmtHold (b : Fin 24) (f : Core → Core) : (s.modCore b f).mgmtHold = s.mgmtHold := rfl
@[simp] theorem State.modCore_mgmtTokens (b : Fin 24) (f : Core → Core) : (s.modCore b f).mgmtTokens = s.mgmtTokens := rfl
@[simp] theorem State.modCore_mgmtTime (b : Fin 24) (f : Core → Core) : (s.modCore b f).mgmtTime = s.mgmtTime := rfl
@[simp] theorem State.modCore_unreachLog (b : Fin 24) (f : Core → Core) : (s.modCore b f).unreachLog = s.unreachLog := rfl
@[simp] theorem State.modCore_tlb (b : Fin 24) (f : Core → Core) : (s.modCore b f).tlb = s.tlb := rfl
@[simp] theorem State.modCore_invals (b : Fin 24) (f : Core → Core) : (s.modCore b f).invals = s.invals := rfl
@[simp] theorem State.modCore_derricks (b : Fin 24) (f : Core → Core) : (s.modCore b f).derricks = s.derricks := rfl
@[simp] theorem State.modCore_arbs (b : Fin 24) (f : Core → Core) : (s.modCore b f).arbs = s.arbs := rfl
@[simp] theorem State.modCore_seLast (b : Fin 24) (f : Core → Core) : (s.modCore b f).seLast = s.seLast := rfl
@[simp] theorem State.modCore_busMaster (b : Fin 24) (f : Core → Core) : (s.modCore b f).busMaster = s.busMaster := rfl
@[simp] theorem State.modCore_scrubLow (b : Fin 24) (f : Core → Core) : (s.modCore b f).scrubLow = s.scrubLow := rfl
@[simp] theorem State.modCore_ues (b : Fin 24) (f : Core → Core) : (s.modCore b f).ues = s.ues := rfl
@[simp] theorem State.modCore_colls (b : Fin 24) (f : Core → Core) : (s.modCore b f).colls = s.colls := rfl
@[simp] theorem State.modCore_tally (b : Fin 24) (f : Core → Core) : (s.modCore b f).tally = s.tally := rfl
@[simp] theorem State.modCore_ended (b : Fin 24) (f : Core → Core) : (s.modCore b f).ended = s.ended := rfl
@[simp] theorem State.modCore_lateLog (b : Fin 24) (f : Core → Core) : (s.modCore b f).lateLog = s.lateLog := rfl
@[simp] theorem State.modCore_early (b : Fin 24) (f : Core → Core) : (s.modCore b f).early = s.early := rfl
@[simp] theorem State.modCore_straps (b : Fin 24) (f : Core → Core) : (s.modCore b f).straps = s.straps := rfl
@[simp] theorem State.modCore_pci (b : Fin 24) (f : Core → Core) : (s.modCore b f).pci = s.pci := rfl
@[simp] theorem State.modCore_released (b : Fin 24) (f : Core → Core) : (s.modCore b f).released = s.released := rfl
@[simp] theorem State.modCore_l2 (b : Fin 24) (f : Core → Core) : (s.modCore b f).l2 = s.l2 := rfl
@[simp] theorem State.modCore_modules (b : Fin 24) (f : Core → Core) : (s.modCore b f).modules = s.modules := rfl
@[simp] theorem State.modCore_runs (b : Fin 24) (f : Core → Core) : (s.modCore b f).runs = s.runs := rfl
@[simp] theorem State.modCore_repro (b : Fin 24) (f : Core → Core) : (s.modCore b f).repro = s.repro := rfl
@[simp] theorem State.modCore_rings (b : Fin 24) (f : Core → Core) : (s.modCore b f).rings = s.rings := rfl
@[simp] theorem State.modCore_members (b : Fin 24) (f : Core → Core) : (s.modCore b f).members = s.members := rfl
@[simp] theorem State.modCore_cm (b : Fin 24) (f : Core → Core) : (s.modCore b f).cm = s.cm := rfl
@[simp] theorem State.modCore_mb (b : Fin 24) (f : Core → Core) : (s.modCore b f).mb = s.mb := rfl
@[simp] theorem State.modCore_bridge (b : Fin 24) (f : Core → Core) : (s.modCore b f).bridge = s.bridge := rfl
@[simp] theorem State.modCore_gate (b : Fin 24) (f : Core → Core) : (s.modCore b f).gate = s.gate := rfl
@[simp] theorem State.modCore_pwr (b : Fin 24) (f : Core → Core) : (s.modCore b f).pwr = s.pwr := rfl
@[simp] theorem State.modCore_held (b : Fin 24) (f : Core → Core) : (s.modCore b f).held = s.held := rfl
@[simp] theorem State.modCore_cmBox (b : Fin 24) (f : Core → Core) : (s.modCore b f).cmBox = s.cmBox := rfl
@[simp] theorem State.modCore_benches (b : Fin 24) (f : Core → Core) : (s.modCore b f).benches = s.benches := rfl

@[simp] theorem State.modDk_pending (d : Fin 48) (f : Dk → Dk) : (s.modDk d f).pending = s.pending := rfl
@[simp] theorem State.modDk_out (d : Fin 48) (f : Dk → Dk) : (s.modDk d f).out = s.out := rfl
@[simp] theorem State.modDk_freeCtr (d : Fin 48) (f : Dk → Dk) : (s.modDk d f).freeCtr = s.freeCtr := rfl
@[simp] theorem State.modDk_time (d : Fin 48) (f : Dk → Dk) : (s.modDk d f).time = s.time := rfl
@[simp] theorem State.modDk_mem (d : Fin 48) (f : Dk → Dk) : (s.modDk d f).mem = s.mem := rfl
@[simp] theorem State.modDk_poison (d : Fin 48) (f : Dk → Dk) : (s.modDk d f).poison = s.poison := rfl
@[simp] theorem State.modDk_regs (d : Fin 48) (f : Dk → Dk) : (s.modDk d f).regs = s.regs := rfl
@[simp] theorem State.modDk_sync (d : Fin 48) (f : Dk → Dk) : (s.modDk d f).sync = s.sync := rfl
@[simp] theorem State.modDk_log (d : Fin 48) (f : Dk → Dk) : (s.modDk d f).log = s.log := rfl
@[simp] theorem State.modDk_logSeq (d : Fin 48) (f : Dk → Dk) : (s.modDk d f).logSeq = s.logSeq := rfl
@[simp] theorem State.modDk_flashLog (d : Fin 48) (f : Dk → Dk) : (s.modDk d f).flashLog = s.flashLog := rfl
@[simp] theorem State.modDk_flashSeq (d : Fin 48) (f : Dk → Dk) : (s.modDk d f).flashSeq = s.flashSeq := rfl
@[simp] theorem State.modDk_msixEn (d : Fin 48) (f : Dk → Dk) : (s.modDk d f).msixEn = s.msixEn := rfl
@[simp] theorem State.modDk_msixMask (d : Fin 48) (f : Dk → Dk) : (s.modDk d f).msixMask = s.msixMask := rfl
@[simp] theorem State.modDk_spall (d : Fin 48) (f : Dk → Dk) : (s.modDk d f).spall = s.spall := rfl
@[simp] theorem State.modDk_regions (d : Fin 48) (f : Dk → Dk) : (s.modDk d f).regions = s.regions := rfl
@[simp] theorem State.modDk_regionUid (d : Fin 48) (f : Dk → Dk) : (s.modDk d f).regionUid = s.regionUid := rfl
@[simp] theorem State.modDk_ports (d : Fin 48) (f : Dk → Dk) : (s.modDk d f).ports = s.ports := rfl
@[simp] theorem State.modDk_e2eTx (d : Fin 48) (f : Dk → Dk) : (s.modDk d f).e2eTx = s.e2eTx := rfl
@[simp] theorem State.modDk_e2eRx (d : Fin 48) (f : Dk → Dk) : (s.modDk d f).e2eRx = s.e2eRx := rfl
@[simp] theorem State.modDk_txns (d : Fin 48) (f : Dk → Dk) : (s.modDk d f).txns = s.txns := rfl
@[simp] theorem State.modDk_inbox (d : Fin 48) (f : Dk → Dk) : (s.modDk d f).inbox = s.inbox := rfl
@[simp] theorem State.modDk_mgmtHold (d : Fin 48) (f : Dk → Dk) : (s.modDk d f).mgmtHold = s.mgmtHold := rfl
@[simp] theorem State.modDk_mgmtTokens (d : Fin 48) (f : Dk → Dk) : (s.modDk d f).mgmtTokens = s.mgmtTokens := rfl
@[simp] theorem State.modDk_mgmtTime (d : Fin 48) (f : Dk → Dk) : (s.modDk d f).mgmtTime = s.mgmtTime := rfl
@[simp] theorem State.modDk_unreachLog (d : Fin 48) (f : Dk → Dk) : (s.modDk d f).unreachLog = s.unreachLog := rfl
@[simp] theorem State.modDk_tlb (d : Fin 48) (f : Dk → Dk) : (s.modDk d f).tlb = s.tlb := rfl
@[simp] theorem State.modDk_invals (d : Fin 48) (f : Dk → Dk) : (s.modDk d f).invals = s.invals := rfl
@[simp] theorem State.modDk_arbs (d : Fin 48) (f : Dk → Dk) : (s.modDk d f).arbs = s.arbs := rfl
@[simp] theorem State.modDk_seLast (d : Fin 48) (f : Dk → Dk) : (s.modDk d f).seLast = s.seLast := rfl
@[simp] theorem State.modDk_busMaster (d : Fin 48) (f : Dk → Dk) : (s.modDk d f).busMaster = s.busMaster := rfl
@[simp] theorem State.modDk_scrubLow (d : Fin 48) (f : Dk → Dk) : (s.modDk d f).scrubLow = s.scrubLow := rfl
@[simp] theorem State.modDk_ues (d : Fin 48) (f : Dk → Dk) : (s.modDk d f).ues = s.ues := rfl
@[simp] theorem State.modDk_colls (d : Fin 48) (f : Dk → Dk) : (s.modDk d f).colls = s.colls := rfl
@[simp] theorem State.modDk_tally (d : Fin 48) (f : Dk → Dk) : (s.modDk d f).tally = s.tally := rfl
@[simp] theorem State.modDk_ended (d : Fin 48) (f : Dk → Dk) : (s.modDk d f).ended = s.ended := rfl
@[simp] theorem State.modDk_lateLog (d : Fin 48) (f : Dk → Dk) : (s.modDk d f).lateLog = s.lateLog := rfl
@[simp] theorem State.modDk_early (d : Fin 48) (f : Dk → Dk) : (s.modDk d f).early = s.early := rfl
@[simp] theorem State.modDk_straps (d : Fin 48) (f : Dk → Dk) : (s.modDk d f).straps = s.straps := rfl
@[simp] theorem State.modDk_pci (d : Fin 48) (f : Dk → Dk) : (s.modDk d f).pci = s.pci := rfl
@[simp] theorem State.modDk_released (d : Fin 48) (f : Dk → Dk) : (s.modDk d f).released = s.released := rfl
@[simp] theorem State.modDk_cores (d : Fin 48) (f : Dk → Dk) : (s.modDk d f).cores = s.cores := rfl
@[simp] theorem State.modDk_l2 (d : Fin 48) (f : Dk → Dk) : (s.modDk d f).l2 = s.l2 := rfl
@[simp] theorem State.modDk_modules (d : Fin 48) (f : Dk → Dk) : (s.modDk d f).modules = s.modules := rfl
@[simp] theorem State.modDk_runs (d : Fin 48) (f : Dk → Dk) : (s.modDk d f).runs = s.runs := rfl
@[simp] theorem State.modDk_repro (d : Fin 48) (f : Dk → Dk) : (s.modDk d f).repro = s.repro := rfl
@[simp] theorem State.modDk_rings (d : Fin 48) (f : Dk → Dk) : (s.modDk d f).rings = s.rings := rfl
@[simp] theorem State.modDk_members (d : Fin 48) (f : Dk → Dk) : (s.modDk d f).members = s.members := rfl
@[simp] theorem State.modDk_cm (d : Fin 48) (f : Dk → Dk) : (s.modDk d f).cm = s.cm := rfl
@[simp] theorem State.modDk_mb (d : Fin 48) (f : Dk → Dk) : (s.modDk d f).mb = s.mb := rfl
@[simp] theorem State.modDk_bridge (d : Fin 48) (f : Dk → Dk) : (s.modDk d f).bridge = s.bridge := rfl
@[simp] theorem State.modDk_gate (d : Fin 48) (f : Dk → Dk) : (s.modDk d f).gate = s.gate := rfl
@[simp] theorem State.modDk_pwr (d : Fin 48) (f : Dk → Dk) : (s.modDk d f).pwr = s.pwr := rfl
@[simp] theorem State.modDk_held (d : Fin 48) (f : Dk → Dk) : (s.modDk d f).held = s.held := rfl
@[simp] theorem State.modDk_cmBox (d : Fin 48) (f : Dk → Dk) : (s.modDk d f).cmBox = s.cmBox := rfl
@[simp] theorem State.modDk_benches (d : Fin 48) (f : Dk → Dk) : (s.modDk d f).benches = s.benches := rfl

@[simp] theorem State.modUe_pending (k : Fin 8) (f : Ue → Ue) : (s.modUe k f).pending = s.pending := rfl
@[simp] theorem State.modUe_out (k : Fin 8) (f : Ue → Ue) : (s.modUe k f).out = s.out := rfl
@[simp] theorem State.modUe_freeCtr (k : Fin 8) (f : Ue → Ue) : (s.modUe k f).freeCtr = s.freeCtr := rfl
@[simp] theorem State.modUe_time (k : Fin 8) (f : Ue → Ue) : (s.modUe k f).time = s.time := rfl
@[simp] theorem State.modUe_mem (k : Fin 8) (f : Ue → Ue) : (s.modUe k f).mem = s.mem := rfl
@[simp] theorem State.modUe_poison (k : Fin 8) (f : Ue → Ue) : (s.modUe k f).poison = s.poison := rfl
@[simp] theorem State.modUe_regs (k : Fin 8) (f : Ue → Ue) : (s.modUe k f).regs = s.regs := rfl
@[simp] theorem State.modUe_sync (k : Fin 8) (f : Ue → Ue) : (s.modUe k f).sync = s.sync := rfl
@[simp] theorem State.modUe_log (k : Fin 8) (f : Ue → Ue) : (s.modUe k f).log = s.log := rfl
@[simp] theorem State.modUe_logSeq (k : Fin 8) (f : Ue → Ue) : (s.modUe k f).logSeq = s.logSeq := rfl
@[simp] theorem State.modUe_flashLog (k : Fin 8) (f : Ue → Ue) : (s.modUe k f).flashLog = s.flashLog := rfl
@[simp] theorem State.modUe_flashSeq (k : Fin 8) (f : Ue → Ue) : (s.modUe k f).flashSeq = s.flashSeq := rfl
@[simp] theorem State.modUe_msixEn (k : Fin 8) (f : Ue → Ue) : (s.modUe k f).msixEn = s.msixEn := rfl
@[simp] theorem State.modUe_msixMask (k : Fin 8) (f : Ue → Ue) : (s.modUe k f).msixMask = s.msixMask := rfl
@[simp] theorem State.modUe_spall (k : Fin 8) (f : Ue → Ue) : (s.modUe k f).spall = s.spall := rfl
@[simp] theorem State.modUe_regions (k : Fin 8) (f : Ue → Ue) : (s.modUe k f).regions = s.regions := rfl
@[simp] theorem State.modUe_regionUid (k : Fin 8) (f : Ue → Ue) : (s.modUe k f).regionUid = s.regionUid := rfl
@[simp] theorem State.modUe_ports (k : Fin 8) (f : Ue → Ue) : (s.modUe k f).ports = s.ports := rfl
@[simp] theorem State.modUe_e2eTx (k : Fin 8) (f : Ue → Ue) : (s.modUe k f).e2eTx = s.e2eTx := rfl
@[simp] theorem State.modUe_e2eRx (k : Fin 8) (f : Ue → Ue) : (s.modUe k f).e2eRx = s.e2eRx := rfl
@[simp] theorem State.modUe_txns (k : Fin 8) (f : Ue → Ue) : (s.modUe k f).txns = s.txns := rfl
@[simp] theorem State.modUe_inbox (k : Fin 8) (f : Ue → Ue) : (s.modUe k f).inbox = s.inbox := rfl
@[simp] theorem State.modUe_mgmtHold (k : Fin 8) (f : Ue → Ue) : (s.modUe k f).mgmtHold = s.mgmtHold := rfl
@[simp] theorem State.modUe_mgmtTokens (k : Fin 8) (f : Ue → Ue) : (s.modUe k f).mgmtTokens = s.mgmtTokens := rfl
@[simp] theorem State.modUe_mgmtTime (k : Fin 8) (f : Ue → Ue) : (s.modUe k f).mgmtTime = s.mgmtTime := rfl
@[simp] theorem State.modUe_unreachLog (k : Fin 8) (f : Ue → Ue) : (s.modUe k f).unreachLog = s.unreachLog := rfl
@[simp] theorem State.modUe_tlb (k : Fin 8) (f : Ue → Ue) : (s.modUe k f).tlb = s.tlb := rfl
@[simp] theorem State.modUe_invals (k : Fin 8) (f : Ue → Ue) : (s.modUe k f).invals = s.invals := rfl
@[simp] theorem State.modUe_derricks (k : Fin 8) (f : Ue → Ue) : (s.modUe k f).derricks = s.derricks := rfl
@[simp] theorem State.modUe_arbs (k : Fin 8) (f : Ue → Ue) : (s.modUe k f).arbs = s.arbs := rfl
@[simp] theorem State.modUe_seLast (k : Fin 8) (f : Ue → Ue) : (s.modUe k f).seLast = s.seLast := rfl
@[simp] theorem State.modUe_busMaster (k : Fin 8) (f : Ue → Ue) : (s.modUe k f).busMaster = s.busMaster := rfl
@[simp] theorem State.modUe_scrubLow (k : Fin 8) (f : Ue → Ue) : (s.modUe k f).scrubLow = s.scrubLow := rfl
@[simp] theorem State.modUe_colls (k : Fin 8) (f : Ue → Ue) : (s.modUe k f).colls = s.colls := rfl
@[simp] theorem State.modUe_tally (k : Fin 8) (f : Ue → Ue) : (s.modUe k f).tally = s.tally := rfl
@[simp] theorem State.modUe_ended (k : Fin 8) (f : Ue → Ue) : (s.modUe k f).ended = s.ended := rfl
@[simp] theorem State.modUe_lateLog (k : Fin 8) (f : Ue → Ue) : (s.modUe k f).lateLog = s.lateLog := rfl
@[simp] theorem State.modUe_early (k : Fin 8) (f : Ue → Ue) : (s.modUe k f).early = s.early := rfl
@[simp] theorem State.modUe_straps (k : Fin 8) (f : Ue → Ue) : (s.modUe k f).straps = s.straps := rfl
@[simp] theorem State.modUe_pci (k : Fin 8) (f : Ue → Ue) : (s.modUe k f).pci = s.pci := rfl
@[simp] theorem State.modUe_released (k : Fin 8) (f : Ue → Ue) : (s.modUe k f).released = s.released := rfl
@[simp] theorem State.modUe_cores (k : Fin 8) (f : Ue → Ue) : (s.modUe k f).cores = s.cores := rfl
@[simp] theorem State.modUe_l2 (k : Fin 8) (f : Ue → Ue) : (s.modUe k f).l2 = s.l2 := rfl
@[simp] theorem State.modUe_modules (k : Fin 8) (f : Ue → Ue) : (s.modUe k f).modules = s.modules := rfl
@[simp] theorem State.modUe_runs (k : Fin 8) (f : Ue → Ue) : (s.modUe k f).runs = s.runs := rfl
@[simp] theorem State.modUe_repro (k : Fin 8) (f : Ue → Ue) : (s.modUe k f).repro = s.repro := rfl
@[simp] theorem State.modUe_rings (k : Fin 8) (f : Ue → Ue) : (s.modUe k f).rings = s.rings := rfl
@[simp] theorem State.modUe_members (k : Fin 8) (f : Ue → Ue) : (s.modUe k f).members = s.members := rfl
@[simp] theorem State.modUe_cm (k : Fin 8) (f : Ue → Ue) : (s.modUe k f).cm = s.cm := rfl
@[simp] theorem State.modUe_mb (k : Fin 8) (f : Ue → Ue) : (s.modUe k f).mb = s.mb := rfl
@[simp] theorem State.modUe_bridge (k : Fin 8) (f : Ue → Ue) : (s.modUe k f).bridge = s.bridge := rfl
@[simp] theorem State.modUe_gate (k : Fin 8) (f : Ue → Ue) : (s.modUe k f).gate = s.gate := rfl
@[simp] theorem State.modUe_pwr (k : Fin 8) (f : Ue → Ue) : (s.modUe k f).pwr = s.pwr := rfl
@[simp] theorem State.modUe_held (k : Fin 8) (f : Ue → Ue) : (s.modUe k f).held = s.held := rfl
@[simp] theorem State.modUe_cmBox (k : Fin 8) (f : Ue → Ue) : (s.modUe k f).cmBox = s.cmBox := rfl
@[simp] theorem State.modUe_benches (k : Fin 8) (f : Ue → Ue) : (s.modUe k f).benches = s.benches := rfl

@[simp] theorem State.modColl_pending (u : Fin 4) (f : Coll → Coll) : (s.modColl u f).pending = s.pending := rfl
@[simp] theorem State.modColl_out (u : Fin 4) (f : Coll → Coll) : (s.modColl u f).out = s.out := rfl
@[simp] theorem State.modColl_freeCtr (u : Fin 4) (f : Coll → Coll) : (s.modColl u f).freeCtr = s.freeCtr := rfl
@[simp] theorem State.modColl_time (u : Fin 4) (f : Coll → Coll) : (s.modColl u f).time = s.time := rfl
@[simp] theorem State.modColl_mem (u : Fin 4) (f : Coll → Coll) : (s.modColl u f).mem = s.mem := rfl
@[simp] theorem State.modColl_poison (u : Fin 4) (f : Coll → Coll) : (s.modColl u f).poison = s.poison := rfl
@[simp] theorem State.modColl_regs (u : Fin 4) (f : Coll → Coll) : (s.modColl u f).regs = s.regs := rfl
@[simp] theorem State.modColl_sync (u : Fin 4) (f : Coll → Coll) : (s.modColl u f).sync = s.sync := rfl
@[simp] theorem State.modColl_log (u : Fin 4) (f : Coll → Coll) : (s.modColl u f).log = s.log := rfl
@[simp] theorem State.modColl_logSeq (u : Fin 4) (f : Coll → Coll) : (s.modColl u f).logSeq = s.logSeq := rfl
@[simp] theorem State.modColl_flashLog (u : Fin 4) (f : Coll → Coll) : (s.modColl u f).flashLog = s.flashLog := rfl
@[simp] theorem State.modColl_flashSeq (u : Fin 4) (f : Coll → Coll) : (s.modColl u f).flashSeq = s.flashSeq := rfl
@[simp] theorem State.modColl_msixEn (u : Fin 4) (f : Coll → Coll) : (s.modColl u f).msixEn = s.msixEn := rfl
@[simp] theorem State.modColl_msixMask (u : Fin 4) (f : Coll → Coll) : (s.modColl u f).msixMask = s.msixMask := rfl
@[simp] theorem State.modColl_spall (u : Fin 4) (f : Coll → Coll) : (s.modColl u f).spall = s.spall := rfl
@[simp] theorem State.modColl_regions (u : Fin 4) (f : Coll → Coll) : (s.modColl u f).regions = s.regions := rfl
@[simp] theorem State.modColl_regionUid (u : Fin 4) (f : Coll → Coll) : (s.modColl u f).regionUid = s.regionUid := rfl
@[simp] theorem State.modColl_ports (u : Fin 4) (f : Coll → Coll) : (s.modColl u f).ports = s.ports := rfl
@[simp] theorem State.modColl_e2eTx (u : Fin 4) (f : Coll → Coll) : (s.modColl u f).e2eTx = s.e2eTx := rfl
@[simp] theorem State.modColl_e2eRx (u : Fin 4) (f : Coll → Coll) : (s.modColl u f).e2eRx = s.e2eRx := rfl
@[simp] theorem State.modColl_txns (u : Fin 4) (f : Coll → Coll) : (s.modColl u f).txns = s.txns := rfl
@[simp] theorem State.modColl_inbox (u : Fin 4) (f : Coll → Coll) : (s.modColl u f).inbox = s.inbox := rfl
@[simp] theorem State.modColl_mgmtHold (u : Fin 4) (f : Coll → Coll) : (s.modColl u f).mgmtHold = s.mgmtHold := rfl
@[simp] theorem State.modColl_mgmtTokens (u : Fin 4) (f : Coll → Coll) : (s.modColl u f).mgmtTokens = s.mgmtTokens := rfl
@[simp] theorem State.modColl_mgmtTime (u : Fin 4) (f : Coll → Coll) : (s.modColl u f).mgmtTime = s.mgmtTime := rfl
@[simp] theorem State.modColl_unreachLog (u : Fin 4) (f : Coll → Coll) : (s.modColl u f).unreachLog = s.unreachLog := rfl
@[simp] theorem State.modColl_tlb (u : Fin 4) (f : Coll → Coll) : (s.modColl u f).tlb = s.tlb := rfl
@[simp] theorem State.modColl_invals (u : Fin 4) (f : Coll → Coll) : (s.modColl u f).invals = s.invals := rfl
@[simp] theorem State.modColl_derricks (u : Fin 4) (f : Coll → Coll) : (s.modColl u f).derricks = s.derricks := rfl
@[simp] theorem State.modColl_arbs (u : Fin 4) (f : Coll → Coll) : (s.modColl u f).arbs = s.arbs := rfl
@[simp] theorem State.modColl_seLast (u : Fin 4) (f : Coll → Coll) : (s.modColl u f).seLast = s.seLast := rfl
@[simp] theorem State.modColl_busMaster (u : Fin 4) (f : Coll → Coll) : (s.modColl u f).busMaster = s.busMaster := rfl
@[simp] theorem State.modColl_scrubLow (u : Fin 4) (f : Coll → Coll) : (s.modColl u f).scrubLow = s.scrubLow := rfl
@[simp] theorem State.modColl_ues (u : Fin 4) (f : Coll → Coll) : (s.modColl u f).ues = s.ues := rfl
@[simp] theorem State.modColl_tally (u : Fin 4) (f : Coll → Coll) : (s.modColl u f).tally = s.tally := rfl
@[simp] theorem State.modColl_ended (u : Fin 4) (f : Coll → Coll) : (s.modColl u f).ended = s.ended := rfl
@[simp] theorem State.modColl_lateLog (u : Fin 4) (f : Coll → Coll) : (s.modColl u f).lateLog = s.lateLog := rfl
@[simp] theorem State.modColl_early (u : Fin 4) (f : Coll → Coll) : (s.modColl u f).early = s.early := rfl
@[simp] theorem State.modColl_straps (u : Fin 4) (f : Coll → Coll) : (s.modColl u f).straps = s.straps := rfl
@[simp] theorem State.modColl_pci (u : Fin 4) (f : Coll → Coll) : (s.modColl u f).pci = s.pci := rfl
@[simp] theorem State.modColl_released (u : Fin 4) (f : Coll → Coll) : (s.modColl u f).released = s.released := rfl
@[simp] theorem State.modColl_cores (u : Fin 4) (f : Coll → Coll) : (s.modColl u f).cores = s.cores := rfl
@[simp] theorem State.modColl_l2 (u : Fin 4) (f : Coll → Coll) : (s.modColl u f).l2 = s.l2 := rfl
@[simp] theorem State.modColl_modules (u : Fin 4) (f : Coll → Coll) : (s.modColl u f).modules = s.modules := rfl
@[simp] theorem State.modColl_runs (u : Fin 4) (f : Coll → Coll) : (s.modColl u f).runs = s.runs := rfl
@[simp] theorem State.modColl_repro (u : Fin 4) (f : Coll → Coll) : (s.modColl u f).repro = s.repro := rfl
@[simp] theorem State.modColl_rings (u : Fin 4) (f : Coll → Coll) : (s.modColl u f).rings = s.rings := rfl
@[simp] theorem State.modColl_members (u : Fin 4) (f : Coll → Coll) : (s.modColl u f).members = s.members := rfl
@[simp] theorem State.modColl_cm (u : Fin 4) (f : Coll → Coll) : (s.modColl u f).cm = s.cm := rfl
@[simp] theorem State.modColl_mb (u : Fin 4) (f : Coll → Coll) : (s.modColl u f).mb = s.mb := rfl
@[simp] theorem State.modColl_bridge (u : Fin 4) (f : Coll → Coll) : (s.modColl u f).bridge = s.bridge := rfl
@[simp] theorem State.modColl_gate (u : Fin 4) (f : Coll → Coll) : (s.modColl u f).gate = s.gate := rfl
@[simp] theorem State.modColl_pwr (u : Fin 4) (f : Coll → Coll) : (s.modColl u f).pwr = s.pwr := rfl
@[simp] theorem State.modColl_held (u : Fin 4) (f : Coll → Coll) : (s.modColl u f).held = s.held := rfl
@[simp] theorem State.modColl_cmBox (u : Fin 4) (f : Coll → Coll) : (s.modColl u f).cmBox = s.cmBox := rfl
@[simp] theorem State.modColl_benches (u : Fin 4) (f : Coll → Coll) : (s.modColl u f).benches = s.benches := rfl

@[simp] theorem State.modRing_pending (r : Fin 64) (f : Ring → Ring) : (s.modRing r f).pending = s.pending := rfl
@[simp] theorem State.modRing_out (r : Fin 64) (f : Ring → Ring) : (s.modRing r f).out = s.out := rfl
@[simp] theorem State.modRing_freeCtr (r : Fin 64) (f : Ring → Ring) : (s.modRing r f).freeCtr = s.freeCtr := rfl
@[simp] theorem State.modRing_time (r : Fin 64) (f : Ring → Ring) : (s.modRing r f).time = s.time := rfl
@[simp] theorem State.modRing_mem (r : Fin 64) (f : Ring → Ring) : (s.modRing r f).mem = s.mem := rfl
@[simp] theorem State.modRing_poison (r : Fin 64) (f : Ring → Ring) : (s.modRing r f).poison = s.poison := rfl
@[simp] theorem State.modRing_regs (r : Fin 64) (f : Ring → Ring) : (s.modRing r f).regs = s.regs := rfl
@[simp] theorem State.modRing_sync (r : Fin 64) (f : Ring → Ring) : (s.modRing r f).sync = s.sync := rfl
@[simp] theorem State.modRing_log (r : Fin 64) (f : Ring → Ring) : (s.modRing r f).log = s.log := rfl
@[simp] theorem State.modRing_logSeq (r : Fin 64) (f : Ring → Ring) : (s.modRing r f).logSeq = s.logSeq := rfl
@[simp] theorem State.modRing_flashLog (r : Fin 64) (f : Ring → Ring) : (s.modRing r f).flashLog = s.flashLog := rfl
@[simp] theorem State.modRing_flashSeq (r : Fin 64) (f : Ring → Ring) : (s.modRing r f).flashSeq = s.flashSeq := rfl
@[simp] theorem State.modRing_msixEn (r : Fin 64) (f : Ring → Ring) : (s.modRing r f).msixEn = s.msixEn := rfl
@[simp] theorem State.modRing_msixMask (r : Fin 64) (f : Ring → Ring) : (s.modRing r f).msixMask = s.msixMask := rfl
@[simp] theorem State.modRing_spall (r : Fin 64) (f : Ring → Ring) : (s.modRing r f).spall = s.spall := rfl
@[simp] theorem State.modRing_regions (r : Fin 64) (f : Ring → Ring) : (s.modRing r f).regions = s.regions := rfl
@[simp] theorem State.modRing_regionUid (r : Fin 64) (f : Ring → Ring) : (s.modRing r f).regionUid = s.regionUid := rfl
@[simp] theorem State.modRing_ports (r : Fin 64) (f : Ring → Ring) : (s.modRing r f).ports = s.ports := rfl
@[simp] theorem State.modRing_e2eTx (r : Fin 64) (f : Ring → Ring) : (s.modRing r f).e2eTx = s.e2eTx := rfl
@[simp] theorem State.modRing_e2eRx (r : Fin 64) (f : Ring → Ring) : (s.modRing r f).e2eRx = s.e2eRx := rfl
@[simp] theorem State.modRing_txns (r : Fin 64) (f : Ring → Ring) : (s.modRing r f).txns = s.txns := rfl
@[simp] theorem State.modRing_inbox (r : Fin 64) (f : Ring → Ring) : (s.modRing r f).inbox = s.inbox := rfl
@[simp] theorem State.modRing_mgmtHold (r : Fin 64) (f : Ring → Ring) : (s.modRing r f).mgmtHold = s.mgmtHold := rfl
@[simp] theorem State.modRing_mgmtTokens (r : Fin 64) (f : Ring → Ring) : (s.modRing r f).mgmtTokens = s.mgmtTokens := rfl
@[simp] theorem State.modRing_mgmtTime (r : Fin 64) (f : Ring → Ring) : (s.modRing r f).mgmtTime = s.mgmtTime := rfl
@[simp] theorem State.modRing_unreachLog (r : Fin 64) (f : Ring → Ring) : (s.modRing r f).unreachLog = s.unreachLog := rfl
@[simp] theorem State.modRing_tlb (r : Fin 64) (f : Ring → Ring) : (s.modRing r f).tlb = s.tlb := rfl
@[simp] theorem State.modRing_invals (r : Fin 64) (f : Ring → Ring) : (s.modRing r f).invals = s.invals := rfl
@[simp] theorem State.modRing_derricks (r : Fin 64) (f : Ring → Ring) : (s.modRing r f).derricks = s.derricks := rfl
@[simp] theorem State.modRing_arbs (r : Fin 64) (f : Ring → Ring) : (s.modRing r f).arbs = s.arbs := rfl
@[simp] theorem State.modRing_seLast (r : Fin 64) (f : Ring → Ring) : (s.modRing r f).seLast = s.seLast := rfl
@[simp] theorem State.modRing_busMaster (r : Fin 64) (f : Ring → Ring) : (s.modRing r f).busMaster = s.busMaster := rfl
@[simp] theorem State.modRing_scrubLow (r : Fin 64) (f : Ring → Ring) : (s.modRing r f).scrubLow = s.scrubLow := rfl
@[simp] theorem State.modRing_ues (r : Fin 64) (f : Ring → Ring) : (s.modRing r f).ues = s.ues := rfl
@[simp] theorem State.modRing_colls (r : Fin 64) (f : Ring → Ring) : (s.modRing r f).colls = s.colls := rfl
@[simp] theorem State.modRing_tally (r : Fin 64) (f : Ring → Ring) : (s.modRing r f).tally = s.tally := rfl
@[simp] theorem State.modRing_ended (r : Fin 64) (f : Ring → Ring) : (s.modRing r f).ended = s.ended := rfl
@[simp] theorem State.modRing_lateLog (r : Fin 64) (f : Ring → Ring) : (s.modRing r f).lateLog = s.lateLog := rfl
@[simp] theorem State.modRing_early (r : Fin 64) (f : Ring → Ring) : (s.modRing r f).early = s.early := rfl
@[simp] theorem State.modRing_straps (r : Fin 64) (f : Ring → Ring) : (s.modRing r f).straps = s.straps := rfl
@[simp] theorem State.modRing_pci (r : Fin 64) (f : Ring → Ring) : (s.modRing r f).pci = s.pci := rfl
@[simp] theorem State.modRing_released (r : Fin 64) (f : Ring → Ring) : (s.modRing r f).released = s.released := rfl
@[simp] theorem State.modRing_cores (r : Fin 64) (f : Ring → Ring) : (s.modRing r f).cores = s.cores := rfl
@[simp] theorem State.modRing_l2 (r : Fin 64) (f : Ring → Ring) : (s.modRing r f).l2 = s.l2 := rfl
@[simp] theorem State.modRing_modules (r : Fin 64) (f : Ring → Ring) : (s.modRing r f).modules = s.modules := rfl
@[simp] theorem State.modRing_runs (r : Fin 64) (f : Ring → Ring) : (s.modRing r f).runs = s.runs := rfl
@[simp] theorem State.modRing_repro (r : Fin 64) (f : Ring → Ring) : (s.modRing r f).repro = s.repro := rfl
@[simp] theorem State.modRing_members (r : Fin 64) (f : Ring → Ring) : (s.modRing r f).members = s.members := rfl
@[simp] theorem State.modRing_cm (r : Fin 64) (f : Ring → Ring) : (s.modRing r f).cm = s.cm := rfl
@[simp] theorem State.modRing_mb (r : Fin 64) (f : Ring → Ring) : (s.modRing r f).mb = s.mb := rfl
@[simp] theorem State.modRing_bridge (r : Fin 64) (f : Ring → Ring) : (s.modRing r f).bridge = s.bridge := rfl
@[simp] theorem State.modRing_gate (r : Fin 64) (f : Ring → Ring) : (s.modRing r f).gate = s.gate := rfl
@[simp] theorem State.modRing_pwr (r : Fin 64) (f : Ring → Ring) : (s.modRing r f).pwr = s.pwr := rfl
@[simp] theorem State.modRing_held (r : Fin 64) (f : Ring → Ring) : (s.modRing r f).held = s.held := rfl
@[simp] theorem State.modRing_cmBox (r : Fin 64) (f : Ring → Ring) : (s.modRing r f).cmBox = s.cmBox := rfl
@[simp] theorem State.modRing_benches (r : Fin 64) (f : Ring → Ring) : (s.modRing r f).benches = s.benches := rfl

@[simp] theorem State.modPort_pending (p : Fin 16) (f : Port → Port) : (s.modPort p f).pending = s.pending := rfl
@[simp] theorem State.modPort_out (p : Fin 16) (f : Port → Port) : (s.modPort p f).out = s.out := rfl
@[simp] theorem State.modPort_freeCtr (p : Fin 16) (f : Port → Port) : (s.modPort p f).freeCtr = s.freeCtr := rfl
@[simp] theorem State.modPort_time (p : Fin 16) (f : Port → Port) : (s.modPort p f).time = s.time := rfl
@[simp] theorem State.modPort_mem (p : Fin 16) (f : Port → Port) : (s.modPort p f).mem = s.mem := rfl
@[simp] theorem State.modPort_poison (p : Fin 16) (f : Port → Port) : (s.modPort p f).poison = s.poison := rfl
@[simp] theorem State.modPort_regs (p : Fin 16) (f : Port → Port) : (s.modPort p f).regs = s.regs := rfl
@[simp] theorem State.modPort_sync (p : Fin 16) (f : Port → Port) : (s.modPort p f).sync = s.sync := rfl
@[simp] theorem State.modPort_log (p : Fin 16) (f : Port → Port) : (s.modPort p f).log = s.log := rfl
@[simp] theorem State.modPort_logSeq (p : Fin 16) (f : Port → Port) : (s.modPort p f).logSeq = s.logSeq := rfl
@[simp] theorem State.modPort_flashLog (p : Fin 16) (f : Port → Port) : (s.modPort p f).flashLog = s.flashLog := rfl
@[simp] theorem State.modPort_flashSeq (p : Fin 16) (f : Port → Port) : (s.modPort p f).flashSeq = s.flashSeq := rfl
@[simp] theorem State.modPort_msixEn (p : Fin 16) (f : Port → Port) : (s.modPort p f).msixEn = s.msixEn := rfl
@[simp] theorem State.modPort_msixMask (p : Fin 16) (f : Port → Port) : (s.modPort p f).msixMask = s.msixMask := rfl
@[simp] theorem State.modPort_spall (p : Fin 16) (f : Port → Port) : (s.modPort p f).spall = s.spall := rfl
@[simp] theorem State.modPort_regions (p : Fin 16) (f : Port → Port) : (s.modPort p f).regions = s.regions := rfl
@[simp] theorem State.modPort_regionUid (p : Fin 16) (f : Port → Port) : (s.modPort p f).regionUid = s.regionUid := rfl
@[simp] theorem State.modPort_e2eTx (p : Fin 16) (f : Port → Port) : (s.modPort p f).e2eTx = s.e2eTx := rfl
@[simp] theorem State.modPort_e2eRx (p : Fin 16) (f : Port → Port) : (s.modPort p f).e2eRx = s.e2eRx := rfl
@[simp] theorem State.modPort_txns (p : Fin 16) (f : Port → Port) : (s.modPort p f).txns = s.txns := rfl
@[simp] theorem State.modPort_inbox (p : Fin 16) (f : Port → Port) : (s.modPort p f).inbox = s.inbox := rfl
@[simp] theorem State.modPort_mgmtHold (p : Fin 16) (f : Port → Port) : (s.modPort p f).mgmtHold = s.mgmtHold := rfl
@[simp] theorem State.modPort_mgmtTokens (p : Fin 16) (f : Port → Port) : (s.modPort p f).mgmtTokens = s.mgmtTokens := rfl
@[simp] theorem State.modPort_mgmtTime (p : Fin 16) (f : Port → Port) : (s.modPort p f).mgmtTime = s.mgmtTime := rfl
@[simp] theorem State.modPort_unreachLog (p : Fin 16) (f : Port → Port) : (s.modPort p f).unreachLog = s.unreachLog := rfl
@[simp] theorem State.modPort_tlb (p : Fin 16) (f : Port → Port) : (s.modPort p f).tlb = s.tlb := rfl
@[simp] theorem State.modPort_invals (p : Fin 16) (f : Port → Port) : (s.modPort p f).invals = s.invals := rfl
@[simp] theorem State.modPort_derricks (p : Fin 16) (f : Port → Port) : (s.modPort p f).derricks = s.derricks := rfl
@[simp] theorem State.modPort_arbs (p : Fin 16) (f : Port → Port) : (s.modPort p f).arbs = s.arbs := rfl
@[simp] theorem State.modPort_seLast (p : Fin 16) (f : Port → Port) : (s.modPort p f).seLast = s.seLast := rfl
@[simp] theorem State.modPort_busMaster (p : Fin 16) (f : Port → Port) : (s.modPort p f).busMaster = s.busMaster := rfl
@[simp] theorem State.modPort_scrubLow (p : Fin 16) (f : Port → Port) : (s.modPort p f).scrubLow = s.scrubLow := rfl
@[simp] theorem State.modPort_ues (p : Fin 16) (f : Port → Port) : (s.modPort p f).ues = s.ues := rfl
@[simp] theorem State.modPort_colls (p : Fin 16) (f : Port → Port) : (s.modPort p f).colls = s.colls := rfl
@[simp] theorem State.modPort_tally (p : Fin 16) (f : Port → Port) : (s.modPort p f).tally = s.tally := rfl
@[simp] theorem State.modPort_ended (p : Fin 16) (f : Port → Port) : (s.modPort p f).ended = s.ended := rfl
@[simp] theorem State.modPort_lateLog (p : Fin 16) (f : Port → Port) : (s.modPort p f).lateLog = s.lateLog := rfl
@[simp] theorem State.modPort_early (p : Fin 16) (f : Port → Port) : (s.modPort p f).early = s.early := rfl
@[simp] theorem State.modPort_straps (p : Fin 16) (f : Port → Port) : (s.modPort p f).straps = s.straps := rfl
@[simp] theorem State.modPort_pci (p : Fin 16) (f : Port → Port) : (s.modPort p f).pci = s.pci := rfl
@[simp] theorem State.modPort_released (p : Fin 16) (f : Port → Port) : (s.modPort p f).released = s.released := rfl
@[simp] theorem State.modPort_cores (p : Fin 16) (f : Port → Port) : (s.modPort p f).cores = s.cores := rfl
@[simp] theorem State.modPort_l2 (p : Fin 16) (f : Port → Port) : (s.modPort p f).l2 = s.l2 := rfl
@[simp] theorem State.modPort_modules (p : Fin 16) (f : Port → Port) : (s.modPort p f).modules = s.modules := rfl
@[simp] theorem State.modPort_runs (p : Fin 16) (f : Port → Port) : (s.modPort p f).runs = s.runs := rfl
@[simp] theorem State.modPort_repro (p : Fin 16) (f : Port → Port) : (s.modPort p f).repro = s.repro := rfl
@[simp] theorem State.modPort_rings (p : Fin 16) (f : Port → Port) : (s.modPort p f).rings = s.rings := rfl
@[simp] theorem State.modPort_members (p : Fin 16) (f : Port → Port) : (s.modPort p f).members = s.members := rfl
@[simp] theorem State.modPort_cm (p : Fin 16) (f : Port → Port) : (s.modPort p f).cm = s.cm := rfl
@[simp] theorem State.modPort_mb (p : Fin 16) (f : Port → Port) : (s.modPort p f).mb = s.mb := rfl
@[simp] theorem State.modPort_bridge (p : Fin 16) (f : Port → Port) : (s.modPort p f).bridge = s.bridge := rfl
@[simp] theorem State.modPort_gate (p : Fin 16) (f : Port → Port) : (s.modPort p f).gate = s.gate := rfl
@[simp] theorem State.modPort_pwr (p : Fin 16) (f : Port → Port) : (s.modPort p f).pwr = s.pwr := rfl
@[simp] theorem State.modPort_held (p : Fin 16) (f : Port → Port) : (s.modPort p f).held = s.held := rfl
@[simp] theorem State.modPort_cmBox (p : Fin 16) (f : Port → Port) : (s.modPort p f).cmBox = s.cmBox := rfl
@[simp] theorem State.modPort_benches (p : Fin 16) (f : Port → Port) : (s.modPort p f).benches = s.benches := rfl

@[simp] theorem State.modCm_pending (f : Cm → Cm) : (s.modCm f).pending = s.pending := rfl
@[simp] theorem State.modCm_out (f : Cm → Cm) : (s.modCm f).out = s.out := rfl
@[simp] theorem State.modCm_freeCtr (f : Cm → Cm) : (s.modCm f).freeCtr = s.freeCtr := rfl
@[simp] theorem State.modCm_time (f : Cm → Cm) : (s.modCm f).time = s.time := rfl
@[simp] theorem State.modCm_mem (f : Cm → Cm) : (s.modCm f).mem = s.mem := rfl
@[simp] theorem State.modCm_poison (f : Cm → Cm) : (s.modCm f).poison = s.poison := rfl
@[simp] theorem State.modCm_regs (f : Cm → Cm) : (s.modCm f).regs = s.regs := rfl
@[simp] theorem State.modCm_sync (f : Cm → Cm) : (s.modCm f).sync = s.sync := rfl
@[simp] theorem State.modCm_log (f : Cm → Cm) : (s.modCm f).log = s.log := rfl
@[simp] theorem State.modCm_logSeq (f : Cm → Cm) : (s.modCm f).logSeq = s.logSeq := rfl
@[simp] theorem State.modCm_flashLog (f : Cm → Cm) : (s.modCm f).flashLog = s.flashLog := rfl
@[simp] theorem State.modCm_flashSeq (f : Cm → Cm) : (s.modCm f).flashSeq = s.flashSeq := rfl
@[simp] theorem State.modCm_msixEn (f : Cm → Cm) : (s.modCm f).msixEn = s.msixEn := rfl
@[simp] theorem State.modCm_msixMask (f : Cm → Cm) : (s.modCm f).msixMask = s.msixMask := rfl
@[simp] theorem State.modCm_spall (f : Cm → Cm) : (s.modCm f).spall = s.spall := rfl
@[simp] theorem State.modCm_regions (f : Cm → Cm) : (s.modCm f).regions = s.regions := rfl
@[simp] theorem State.modCm_regionUid (f : Cm → Cm) : (s.modCm f).regionUid = s.regionUid := rfl
@[simp] theorem State.modCm_ports (f : Cm → Cm) : (s.modCm f).ports = s.ports := rfl
@[simp] theorem State.modCm_e2eTx (f : Cm → Cm) : (s.modCm f).e2eTx = s.e2eTx := rfl
@[simp] theorem State.modCm_e2eRx (f : Cm → Cm) : (s.modCm f).e2eRx = s.e2eRx := rfl
@[simp] theorem State.modCm_txns (f : Cm → Cm) : (s.modCm f).txns = s.txns := rfl
@[simp] theorem State.modCm_inbox (f : Cm → Cm) : (s.modCm f).inbox = s.inbox := rfl
@[simp] theorem State.modCm_mgmtHold (f : Cm → Cm) : (s.modCm f).mgmtHold = s.mgmtHold := rfl
@[simp] theorem State.modCm_mgmtTokens (f : Cm → Cm) : (s.modCm f).mgmtTokens = s.mgmtTokens := rfl
@[simp] theorem State.modCm_mgmtTime (f : Cm → Cm) : (s.modCm f).mgmtTime = s.mgmtTime := rfl
@[simp] theorem State.modCm_unreachLog (f : Cm → Cm) : (s.modCm f).unreachLog = s.unreachLog := rfl
@[simp] theorem State.modCm_tlb (f : Cm → Cm) : (s.modCm f).tlb = s.tlb := rfl
@[simp] theorem State.modCm_invals (f : Cm → Cm) : (s.modCm f).invals = s.invals := rfl
@[simp] theorem State.modCm_derricks (f : Cm → Cm) : (s.modCm f).derricks = s.derricks := rfl
@[simp] theorem State.modCm_arbs (f : Cm → Cm) : (s.modCm f).arbs = s.arbs := rfl
@[simp] theorem State.modCm_seLast (f : Cm → Cm) : (s.modCm f).seLast = s.seLast := rfl
@[simp] theorem State.modCm_busMaster (f : Cm → Cm) : (s.modCm f).busMaster = s.busMaster := rfl
@[simp] theorem State.modCm_scrubLow (f : Cm → Cm) : (s.modCm f).scrubLow = s.scrubLow := rfl
@[simp] theorem State.modCm_ues (f : Cm → Cm) : (s.modCm f).ues = s.ues := rfl
@[simp] theorem State.modCm_colls (f : Cm → Cm) : (s.modCm f).colls = s.colls := rfl
@[simp] theorem State.modCm_tally (f : Cm → Cm) : (s.modCm f).tally = s.tally := rfl
@[simp] theorem State.modCm_ended (f : Cm → Cm) : (s.modCm f).ended = s.ended := rfl
@[simp] theorem State.modCm_lateLog (f : Cm → Cm) : (s.modCm f).lateLog = s.lateLog := rfl
@[simp] theorem State.modCm_early (f : Cm → Cm) : (s.modCm f).early = s.early := rfl
@[simp] theorem State.modCm_straps (f : Cm → Cm) : (s.modCm f).straps = s.straps := rfl
@[simp] theorem State.modCm_pci (f : Cm → Cm) : (s.modCm f).pci = s.pci := rfl
@[simp] theorem State.modCm_released (f : Cm → Cm) : (s.modCm f).released = s.released := rfl
@[simp] theorem State.modCm_cores (f : Cm → Cm) : (s.modCm f).cores = s.cores := rfl
@[simp] theorem State.modCm_l2 (f : Cm → Cm) : (s.modCm f).l2 = s.l2 := rfl
@[simp] theorem State.modCm_modules (f : Cm → Cm) : (s.modCm f).modules = s.modules := rfl
@[simp] theorem State.modCm_runs (f : Cm → Cm) : (s.modCm f).runs = s.runs := rfl
@[simp] theorem State.modCm_repro (f : Cm → Cm) : (s.modCm f).repro = s.repro := rfl
@[simp] theorem State.modCm_rings (f : Cm → Cm) : (s.modCm f).rings = s.rings := rfl
@[simp] theorem State.modCm_members (f : Cm → Cm) : (s.modCm f).members = s.members := rfl
@[simp] theorem State.modCm_mb (f : Cm → Cm) : (s.modCm f).mb = s.mb := rfl
@[simp] theorem State.modCm_bridge (f : Cm → Cm) : (s.modCm f).bridge = s.bridge := rfl
@[simp] theorem State.modCm_gate (f : Cm → Cm) : (s.modCm f).gate = s.gate := rfl
@[simp] theorem State.modCm_pwr (f : Cm → Cm) : (s.modCm f).pwr = s.pwr := rfl
@[simp] theorem State.modCm_held (f : Cm → Cm) : (s.modCm f).held = s.held := rfl
@[simp] theorem State.modCm_cmBox (f : Cm → Cm) : (s.modCm f).cmBox = s.cmBox := rfl
@[simp] theorem State.modCm_benches (f : Cm → Cm) : (s.modCm f).benches = s.benches := rfl

@[simp] theorem State.modMb_pending (f : Memb → Memb) : (s.modMb f).pending = s.pending := rfl
@[simp] theorem State.modMb_out (f : Memb → Memb) : (s.modMb f).out = s.out := rfl
@[simp] theorem State.modMb_freeCtr (f : Memb → Memb) : (s.modMb f).freeCtr = s.freeCtr := rfl
@[simp] theorem State.modMb_time (f : Memb → Memb) : (s.modMb f).time = s.time := rfl
@[simp] theorem State.modMb_mem (f : Memb → Memb) : (s.modMb f).mem = s.mem := rfl
@[simp] theorem State.modMb_poison (f : Memb → Memb) : (s.modMb f).poison = s.poison := rfl
@[simp] theorem State.modMb_regs (f : Memb → Memb) : (s.modMb f).regs = s.regs := rfl
@[simp] theorem State.modMb_sync (f : Memb → Memb) : (s.modMb f).sync = s.sync := rfl
@[simp] theorem State.modMb_log (f : Memb → Memb) : (s.modMb f).log = s.log := rfl
@[simp] theorem State.modMb_logSeq (f : Memb → Memb) : (s.modMb f).logSeq = s.logSeq := rfl
@[simp] theorem State.modMb_flashLog (f : Memb → Memb) : (s.modMb f).flashLog = s.flashLog := rfl
@[simp] theorem State.modMb_flashSeq (f : Memb → Memb) : (s.modMb f).flashSeq = s.flashSeq := rfl
@[simp] theorem State.modMb_msixEn (f : Memb → Memb) : (s.modMb f).msixEn = s.msixEn := rfl
@[simp] theorem State.modMb_msixMask (f : Memb → Memb) : (s.modMb f).msixMask = s.msixMask := rfl
@[simp] theorem State.modMb_spall (f : Memb → Memb) : (s.modMb f).spall = s.spall := rfl
@[simp] theorem State.modMb_regions (f : Memb → Memb) : (s.modMb f).regions = s.regions := rfl
@[simp] theorem State.modMb_regionUid (f : Memb → Memb) : (s.modMb f).regionUid = s.regionUid := rfl
@[simp] theorem State.modMb_ports (f : Memb → Memb) : (s.modMb f).ports = s.ports := rfl
@[simp] theorem State.modMb_e2eTx (f : Memb → Memb) : (s.modMb f).e2eTx = s.e2eTx := rfl
@[simp] theorem State.modMb_e2eRx (f : Memb → Memb) : (s.modMb f).e2eRx = s.e2eRx := rfl
@[simp] theorem State.modMb_txns (f : Memb → Memb) : (s.modMb f).txns = s.txns := rfl
@[simp] theorem State.modMb_inbox (f : Memb → Memb) : (s.modMb f).inbox = s.inbox := rfl
@[simp] theorem State.modMb_mgmtHold (f : Memb → Memb) : (s.modMb f).mgmtHold = s.mgmtHold := rfl
@[simp] theorem State.modMb_mgmtTokens (f : Memb → Memb) : (s.modMb f).mgmtTokens = s.mgmtTokens := rfl
@[simp] theorem State.modMb_mgmtTime (f : Memb → Memb) : (s.modMb f).mgmtTime = s.mgmtTime := rfl
@[simp] theorem State.modMb_unreachLog (f : Memb → Memb) : (s.modMb f).unreachLog = s.unreachLog := rfl
@[simp] theorem State.modMb_tlb (f : Memb → Memb) : (s.modMb f).tlb = s.tlb := rfl
@[simp] theorem State.modMb_invals (f : Memb → Memb) : (s.modMb f).invals = s.invals := rfl
@[simp] theorem State.modMb_derricks (f : Memb → Memb) : (s.modMb f).derricks = s.derricks := rfl
@[simp] theorem State.modMb_arbs (f : Memb → Memb) : (s.modMb f).arbs = s.arbs := rfl
@[simp] theorem State.modMb_seLast (f : Memb → Memb) : (s.modMb f).seLast = s.seLast := rfl
@[simp] theorem State.modMb_busMaster (f : Memb → Memb) : (s.modMb f).busMaster = s.busMaster := rfl
@[simp] theorem State.modMb_scrubLow (f : Memb → Memb) : (s.modMb f).scrubLow = s.scrubLow := rfl
@[simp] theorem State.modMb_ues (f : Memb → Memb) : (s.modMb f).ues = s.ues := rfl
@[simp] theorem State.modMb_colls (f : Memb → Memb) : (s.modMb f).colls = s.colls := rfl
@[simp] theorem State.modMb_tally (f : Memb → Memb) : (s.modMb f).tally = s.tally := rfl
@[simp] theorem State.modMb_ended (f : Memb → Memb) : (s.modMb f).ended = s.ended := rfl
@[simp] theorem State.modMb_lateLog (f : Memb → Memb) : (s.modMb f).lateLog = s.lateLog := rfl
@[simp] theorem State.modMb_early (f : Memb → Memb) : (s.modMb f).early = s.early := rfl
@[simp] theorem State.modMb_straps (f : Memb → Memb) : (s.modMb f).straps = s.straps := rfl
@[simp] theorem State.modMb_pci (f : Memb → Memb) : (s.modMb f).pci = s.pci := rfl
@[simp] theorem State.modMb_released (f : Memb → Memb) : (s.modMb f).released = s.released := rfl
@[simp] theorem State.modMb_cores (f : Memb → Memb) : (s.modMb f).cores = s.cores := rfl
@[simp] theorem State.modMb_l2 (f : Memb → Memb) : (s.modMb f).l2 = s.l2 := rfl
@[simp] theorem State.modMb_modules (f : Memb → Memb) : (s.modMb f).modules = s.modules := rfl
@[simp] theorem State.modMb_runs (f : Memb → Memb) : (s.modMb f).runs = s.runs := rfl
@[simp] theorem State.modMb_repro (f : Memb → Memb) : (s.modMb f).repro = s.repro := rfl
@[simp] theorem State.modMb_rings (f : Memb → Memb) : (s.modMb f).rings = s.rings := rfl
@[simp] theorem State.modMb_members (f : Memb → Memb) : (s.modMb f).members = s.members := rfl
@[simp] theorem State.modMb_cm (f : Memb → Memb) : (s.modMb f).cm = s.cm := rfl
@[simp] theorem State.modMb_bridge (f : Memb → Memb) : (s.modMb f).bridge = s.bridge := rfl
@[simp] theorem State.modMb_gate (f : Memb → Memb) : (s.modMb f).gate = s.gate := rfl
@[simp] theorem State.modMb_pwr (f : Memb → Memb) : (s.modMb f).pwr = s.pwr := rfl
@[simp] theorem State.modMb_held (f : Memb → Memb) : (s.modMb f).held = s.held := rfl
@[simp] theorem State.modMb_cmBox (f : Memb → Memb) : (s.modMb f).cmBox = s.cmBox := rfl
@[simp] theorem State.modMb_benches (f : Memb → Memb) : (s.modMb f).benches = s.benches := rfl

@[simp] theorem State.modPwr_pending (f : Pwr → Pwr) : (s.modPwr f).pending = s.pending := rfl
@[simp] theorem State.modPwr_out (f : Pwr → Pwr) : (s.modPwr f).out = s.out := rfl
@[simp] theorem State.modPwr_freeCtr (f : Pwr → Pwr) : (s.modPwr f).freeCtr = s.freeCtr := rfl
@[simp] theorem State.modPwr_time (f : Pwr → Pwr) : (s.modPwr f).time = s.time := rfl
@[simp] theorem State.modPwr_mem (f : Pwr → Pwr) : (s.modPwr f).mem = s.mem := rfl
@[simp] theorem State.modPwr_poison (f : Pwr → Pwr) : (s.modPwr f).poison = s.poison := rfl
@[simp] theorem State.modPwr_regs (f : Pwr → Pwr) : (s.modPwr f).regs = s.regs := rfl
@[simp] theorem State.modPwr_sync (f : Pwr → Pwr) : (s.modPwr f).sync = s.sync := rfl
@[simp] theorem State.modPwr_log (f : Pwr → Pwr) : (s.modPwr f).log = s.log := rfl
@[simp] theorem State.modPwr_logSeq (f : Pwr → Pwr) : (s.modPwr f).logSeq = s.logSeq := rfl
@[simp] theorem State.modPwr_flashLog (f : Pwr → Pwr) : (s.modPwr f).flashLog = s.flashLog := rfl
@[simp] theorem State.modPwr_flashSeq (f : Pwr → Pwr) : (s.modPwr f).flashSeq = s.flashSeq := rfl
@[simp] theorem State.modPwr_msixEn (f : Pwr → Pwr) : (s.modPwr f).msixEn = s.msixEn := rfl
@[simp] theorem State.modPwr_msixMask (f : Pwr → Pwr) : (s.modPwr f).msixMask = s.msixMask := rfl
@[simp] theorem State.modPwr_spall (f : Pwr → Pwr) : (s.modPwr f).spall = s.spall := rfl
@[simp] theorem State.modPwr_regions (f : Pwr → Pwr) : (s.modPwr f).regions = s.regions := rfl
@[simp] theorem State.modPwr_regionUid (f : Pwr → Pwr) : (s.modPwr f).regionUid = s.regionUid := rfl
@[simp] theorem State.modPwr_ports (f : Pwr → Pwr) : (s.modPwr f).ports = s.ports := rfl
@[simp] theorem State.modPwr_e2eTx (f : Pwr → Pwr) : (s.modPwr f).e2eTx = s.e2eTx := rfl
@[simp] theorem State.modPwr_e2eRx (f : Pwr → Pwr) : (s.modPwr f).e2eRx = s.e2eRx := rfl
@[simp] theorem State.modPwr_txns (f : Pwr → Pwr) : (s.modPwr f).txns = s.txns := rfl
@[simp] theorem State.modPwr_inbox (f : Pwr → Pwr) : (s.modPwr f).inbox = s.inbox := rfl
@[simp] theorem State.modPwr_mgmtHold (f : Pwr → Pwr) : (s.modPwr f).mgmtHold = s.mgmtHold := rfl
@[simp] theorem State.modPwr_mgmtTokens (f : Pwr → Pwr) : (s.modPwr f).mgmtTokens = s.mgmtTokens := rfl
@[simp] theorem State.modPwr_mgmtTime (f : Pwr → Pwr) : (s.modPwr f).mgmtTime = s.mgmtTime := rfl
@[simp] theorem State.modPwr_unreachLog (f : Pwr → Pwr) : (s.modPwr f).unreachLog = s.unreachLog := rfl
@[simp] theorem State.modPwr_tlb (f : Pwr → Pwr) : (s.modPwr f).tlb = s.tlb := rfl
@[simp] theorem State.modPwr_invals (f : Pwr → Pwr) : (s.modPwr f).invals = s.invals := rfl
@[simp] theorem State.modPwr_derricks (f : Pwr → Pwr) : (s.modPwr f).derricks = s.derricks := rfl
@[simp] theorem State.modPwr_arbs (f : Pwr → Pwr) : (s.modPwr f).arbs = s.arbs := rfl
@[simp] theorem State.modPwr_seLast (f : Pwr → Pwr) : (s.modPwr f).seLast = s.seLast := rfl
@[simp] theorem State.modPwr_busMaster (f : Pwr → Pwr) : (s.modPwr f).busMaster = s.busMaster := rfl
@[simp] theorem State.modPwr_scrubLow (f : Pwr → Pwr) : (s.modPwr f).scrubLow = s.scrubLow := rfl
@[simp] theorem State.modPwr_ues (f : Pwr → Pwr) : (s.modPwr f).ues = s.ues := rfl
@[simp] theorem State.modPwr_colls (f : Pwr → Pwr) : (s.modPwr f).colls = s.colls := rfl
@[simp] theorem State.modPwr_tally (f : Pwr → Pwr) : (s.modPwr f).tally = s.tally := rfl
@[simp] theorem State.modPwr_ended (f : Pwr → Pwr) : (s.modPwr f).ended = s.ended := rfl
@[simp] theorem State.modPwr_lateLog (f : Pwr → Pwr) : (s.modPwr f).lateLog = s.lateLog := rfl
@[simp] theorem State.modPwr_early (f : Pwr → Pwr) : (s.modPwr f).early = s.early := rfl
@[simp] theorem State.modPwr_straps (f : Pwr → Pwr) : (s.modPwr f).straps = s.straps := rfl
@[simp] theorem State.modPwr_pci (f : Pwr → Pwr) : (s.modPwr f).pci = s.pci := rfl
@[simp] theorem State.modPwr_released (f : Pwr → Pwr) : (s.modPwr f).released = s.released := rfl
@[simp] theorem State.modPwr_cores (f : Pwr → Pwr) : (s.modPwr f).cores = s.cores := rfl
@[simp] theorem State.modPwr_l2 (f : Pwr → Pwr) : (s.modPwr f).l2 = s.l2 := rfl
@[simp] theorem State.modPwr_modules (f : Pwr → Pwr) : (s.modPwr f).modules = s.modules := rfl
@[simp] theorem State.modPwr_runs (f : Pwr → Pwr) : (s.modPwr f).runs = s.runs := rfl
@[simp] theorem State.modPwr_repro (f : Pwr → Pwr) : (s.modPwr f).repro = s.repro := rfl
@[simp] theorem State.modPwr_rings (f : Pwr → Pwr) : (s.modPwr f).rings = s.rings := rfl
@[simp] theorem State.modPwr_members (f : Pwr → Pwr) : (s.modPwr f).members = s.members := rfl
@[simp] theorem State.modPwr_cm (f : Pwr → Pwr) : (s.modPwr f).cm = s.cm := rfl
@[simp] theorem State.modPwr_mb (f : Pwr → Pwr) : (s.modPwr f).mb = s.mb := rfl
@[simp] theorem State.modPwr_bridge (f : Pwr → Pwr) : (s.modPwr f).bridge = s.bridge := rfl
@[simp] theorem State.modPwr_gate (f : Pwr → Pwr) : (s.modPwr f).gate = s.gate := rfl
@[simp] theorem State.modPwr_held (f : Pwr → Pwr) : (s.modPwr f).held = s.held := rfl
@[simp] theorem State.modPwr_cmBox (f : Pwr → Pwr) : (s.modPwr f).cmBox = s.cmBox := rfl
@[simp] theorem State.modPwr_benches (f : Pwr → Pwr) : (s.modPwr f).benches = s.benches := rfl

@[simp] theorem State.modGate_pending (f : Gate → Gate) : (s.modGate f).pending = s.pending := rfl
@[simp] theorem State.modGate_out (f : Gate → Gate) : (s.modGate f).out = s.out := rfl
@[simp] theorem State.modGate_freeCtr (f : Gate → Gate) : (s.modGate f).freeCtr = s.freeCtr := rfl
@[simp] theorem State.modGate_time (f : Gate → Gate) : (s.modGate f).time = s.time := rfl
@[simp] theorem State.modGate_mem (f : Gate → Gate) : (s.modGate f).mem = s.mem := rfl
@[simp] theorem State.modGate_poison (f : Gate → Gate) : (s.modGate f).poison = s.poison := rfl
@[simp] theorem State.modGate_regs (f : Gate → Gate) : (s.modGate f).regs = s.regs := rfl
@[simp] theorem State.modGate_sync (f : Gate → Gate) : (s.modGate f).sync = s.sync := rfl
@[simp] theorem State.modGate_log (f : Gate → Gate) : (s.modGate f).log = s.log := rfl
@[simp] theorem State.modGate_logSeq (f : Gate → Gate) : (s.modGate f).logSeq = s.logSeq := rfl
@[simp] theorem State.modGate_flashLog (f : Gate → Gate) : (s.modGate f).flashLog = s.flashLog := rfl
@[simp] theorem State.modGate_flashSeq (f : Gate → Gate) : (s.modGate f).flashSeq = s.flashSeq := rfl
@[simp] theorem State.modGate_msixEn (f : Gate → Gate) : (s.modGate f).msixEn = s.msixEn := rfl
@[simp] theorem State.modGate_msixMask (f : Gate → Gate) : (s.modGate f).msixMask = s.msixMask := rfl
@[simp] theorem State.modGate_spall (f : Gate → Gate) : (s.modGate f).spall = s.spall := rfl
@[simp] theorem State.modGate_regions (f : Gate → Gate) : (s.modGate f).regions = s.regions := rfl
@[simp] theorem State.modGate_regionUid (f : Gate → Gate) : (s.modGate f).regionUid = s.regionUid := rfl
@[simp] theorem State.modGate_ports (f : Gate → Gate) : (s.modGate f).ports = s.ports := rfl
@[simp] theorem State.modGate_e2eTx (f : Gate → Gate) : (s.modGate f).e2eTx = s.e2eTx := rfl
@[simp] theorem State.modGate_e2eRx (f : Gate → Gate) : (s.modGate f).e2eRx = s.e2eRx := rfl
@[simp] theorem State.modGate_txns (f : Gate → Gate) : (s.modGate f).txns = s.txns := rfl
@[simp] theorem State.modGate_inbox (f : Gate → Gate) : (s.modGate f).inbox = s.inbox := rfl
@[simp] theorem State.modGate_mgmtHold (f : Gate → Gate) : (s.modGate f).mgmtHold = s.mgmtHold := rfl
@[simp] theorem State.modGate_mgmtTokens (f : Gate → Gate) : (s.modGate f).mgmtTokens = s.mgmtTokens := rfl
@[simp] theorem State.modGate_mgmtTime (f : Gate → Gate) : (s.modGate f).mgmtTime = s.mgmtTime := rfl
@[simp] theorem State.modGate_unreachLog (f : Gate → Gate) : (s.modGate f).unreachLog = s.unreachLog := rfl
@[simp] theorem State.modGate_tlb (f : Gate → Gate) : (s.modGate f).tlb = s.tlb := rfl
@[simp] theorem State.modGate_invals (f : Gate → Gate) : (s.modGate f).invals = s.invals := rfl
@[simp] theorem State.modGate_derricks (f : Gate → Gate) : (s.modGate f).derricks = s.derricks := rfl
@[simp] theorem State.modGate_arbs (f : Gate → Gate) : (s.modGate f).arbs = s.arbs := rfl
@[simp] theorem State.modGate_seLast (f : Gate → Gate) : (s.modGate f).seLast = s.seLast := rfl
@[simp] theorem State.modGate_busMaster (f : Gate → Gate) : (s.modGate f).busMaster = s.busMaster := rfl
@[simp] theorem State.modGate_scrubLow (f : Gate → Gate) : (s.modGate f).scrubLow = s.scrubLow := rfl
@[simp] theorem State.modGate_ues (f : Gate → Gate) : (s.modGate f).ues = s.ues := rfl
@[simp] theorem State.modGate_colls (f : Gate → Gate) : (s.modGate f).colls = s.colls := rfl
@[simp] theorem State.modGate_tally (f : Gate → Gate) : (s.modGate f).tally = s.tally := rfl
@[simp] theorem State.modGate_ended (f : Gate → Gate) : (s.modGate f).ended = s.ended := rfl
@[simp] theorem State.modGate_lateLog (f : Gate → Gate) : (s.modGate f).lateLog = s.lateLog := rfl
@[simp] theorem State.modGate_early (f : Gate → Gate) : (s.modGate f).early = s.early := rfl
@[simp] theorem State.modGate_straps (f : Gate → Gate) : (s.modGate f).straps = s.straps := rfl
@[simp] theorem State.modGate_pci (f : Gate → Gate) : (s.modGate f).pci = s.pci := rfl
@[simp] theorem State.modGate_released (f : Gate → Gate) : (s.modGate f).released = s.released := rfl
@[simp] theorem State.modGate_cores (f : Gate → Gate) : (s.modGate f).cores = s.cores := rfl
@[simp] theorem State.modGate_l2 (f : Gate → Gate) : (s.modGate f).l2 = s.l2 := rfl
@[simp] theorem State.modGate_modules (f : Gate → Gate) : (s.modGate f).modules = s.modules := rfl
@[simp] theorem State.modGate_runs (f : Gate → Gate) : (s.modGate f).runs = s.runs := rfl
@[simp] theorem State.modGate_repro (f : Gate → Gate) : (s.modGate f).repro = s.repro := rfl
@[simp] theorem State.modGate_rings (f : Gate → Gate) : (s.modGate f).rings = s.rings := rfl
@[simp] theorem State.modGate_members (f : Gate → Gate) : (s.modGate f).members = s.members := rfl
@[simp] theorem State.modGate_cm (f : Gate → Gate) : (s.modGate f).cm = s.cm := rfl
@[simp] theorem State.modGate_mb (f : Gate → Gate) : (s.modGate f).mb = s.mb := rfl
@[simp] theorem State.modGate_bridge (f : Gate → Gate) : (s.modGate f).bridge = s.bridge := rfl
@[simp] theorem State.modGate_pwr (f : Gate → Gate) : (s.modGate f).pwr = s.pwr := rfl
@[simp] theorem State.modGate_held (f : Gate → Gate) : (s.modGate f).held = s.held := rfl
@[simp] theorem State.modGate_cmBox (f : Gate → Gate) : (s.modGate f).cmBox = s.cmBox := rfl
@[simp] theorem State.modGate_benches (f : Gate → Gate) : (s.modGate f).benches = s.benches := rfl

@[simp] theorem State.setArb_pending (i : Nat) (x : Arb) : (s.setArb i x).pending = s.pending := rfl
@[simp] theorem State.setArb_out (i : Nat) (x : Arb) : (s.setArb i x).out = s.out := rfl
@[simp] theorem State.setArb_freeCtr (i : Nat) (x : Arb) : (s.setArb i x).freeCtr = s.freeCtr := rfl
@[simp] theorem State.setArb_time (i : Nat) (x : Arb) : (s.setArb i x).time = s.time := rfl
@[simp] theorem State.setArb_mem (i : Nat) (x : Arb) : (s.setArb i x).mem = s.mem := rfl
@[simp] theorem State.setArb_poison (i : Nat) (x : Arb) : (s.setArb i x).poison = s.poison := rfl
@[simp] theorem State.setArb_regs (i : Nat) (x : Arb) : (s.setArb i x).regs = s.regs := rfl
@[simp] theorem State.setArb_sync (i : Nat) (x : Arb) : (s.setArb i x).sync = s.sync := rfl
@[simp] theorem State.setArb_log (i : Nat) (x : Arb) : (s.setArb i x).log = s.log := rfl
@[simp] theorem State.setArb_logSeq (i : Nat) (x : Arb) : (s.setArb i x).logSeq = s.logSeq := rfl
@[simp] theorem State.setArb_flashLog (i : Nat) (x : Arb) : (s.setArb i x).flashLog = s.flashLog := rfl
@[simp] theorem State.setArb_flashSeq (i : Nat) (x : Arb) : (s.setArb i x).flashSeq = s.flashSeq := rfl
@[simp] theorem State.setArb_msixEn (i : Nat) (x : Arb) : (s.setArb i x).msixEn = s.msixEn := rfl
@[simp] theorem State.setArb_msixMask (i : Nat) (x : Arb) : (s.setArb i x).msixMask = s.msixMask := rfl
@[simp] theorem State.setArb_spall (i : Nat) (x : Arb) : (s.setArb i x).spall = s.spall := rfl
@[simp] theorem State.setArb_regions (i : Nat) (x : Arb) : (s.setArb i x).regions = s.regions := rfl
@[simp] theorem State.setArb_regionUid (i : Nat) (x : Arb) : (s.setArb i x).regionUid = s.regionUid := rfl
@[simp] theorem State.setArb_ports (i : Nat) (x : Arb) : (s.setArb i x).ports = s.ports := rfl
@[simp] theorem State.setArb_e2eTx (i : Nat) (x : Arb) : (s.setArb i x).e2eTx = s.e2eTx := rfl
@[simp] theorem State.setArb_e2eRx (i : Nat) (x : Arb) : (s.setArb i x).e2eRx = s.e2eRx := rfl
@[simp] theorem State.setArb_txns (i : Nat) (x : Arb) : (s.setArb i x).txns = s.txns := rfl
@[simp] theorem State.setArb_inbox (i : Nat) (x : Arb) : (s.setArb i x).inbox = s.inbox := rfl
@[simp] theorem State.setArb_mgmtHold (i : Nat) (x : Arb) : (s.setArb i x).mgmtHold = s.mgmtHold := rfl
@[simp] theorem State.setArb_mgmtTokens (i : Nat) (x : Arb) : (s.setArb i x).mgmtTokens = s.mgmtTokens := rfl
@[simp] theorem State.setArb_mgmtTime (i : Nat) (x : Arb) : (s.setArb i x).mgmtTime = s.mgmtTime := rfl
@[simp] theorem State.setArb_unreachLog (i : Nat) (x : Arb) : (s.setArb i x).unreachLog = s.unreachLog := rfl
@[simp] theorem State.setArb_tlb (i : Nat) (x : Arb) : (s.setArb i x).tlb = s.tlb := rfl
@[simp] theorem State.setArb_invals (i : Nat) (x : Arb) : (s.setArb i x).invals = s.invals := rfl
@[simp] theorem State.setArb_derricks (i : Nat) (x : Arb) : (s.setArb i x).derricks = s.derricks := rfl
@[simp] theorem State.setArb_seLast (i : Nat) (x : Arb) : (s.setArb i x).seLast = s.seLast := rfl
@[simp] theorem State.setArb_busMaster (i : Nat) (x : Arb) : (s.setArb i x).busMaster = s.busMaster := rfl
@[simp] theorem State.setArb_scrubLow (i : Nat) (x : Arb) : (s.setArb i x).scrubLow = s.scrubLow := rfl
@[simp] theorem State.setArb_ues (i : Nat) (x : Arb) : (s.setArb i x).ues = s.ues := rfl
@[simp] theorem State.setArb_colls (i : Nat) (x : Arb) : (s.setArb i x).colls = s.colls := rfl
@[simp] theorem State.setArb_tally (i : Nat) (x : Arb) : (s.setArb i x).tally = s.tally := rfl
@[simp] theorem State.setArb_ended (i : Nat) (x : Arb) : (s.setArb i x).ended = s.ended := rfl
@[simp] theorem State.setArb_lateLog (i : Nat) (x : Arb) : (s.setArb i x).lateLog = s.lateLog := rfl
@[simp] theorem State.setArb_early (i : Nat) (x : Arb) : (s.setArb i x).early = s.early := rfl
@[simp] theorem State.setArb_straps (i : Nat) (x : Arb) : (s.setArb i x).straps = s.straps := rfl
@[simp] theorem State.setArb_pci (i : Nat) (x : Arb) : (s.setArb i x).pci = s.pci := rfl
@[simp] theorem State.setArb_released (i : Nat) (x : Arb) : (s.setArb i x).released = s.released := rfl
@[simp] theorem State.setArb_cores (i : Nat) (x : Arb) : (s.setArb i x).cores = s.cores := rfl
@[simp] theorem State.setArb_l2 (i : Nat) (x : Arb) : (s.setArb i x).l2 = s.l2 := rfl
@[simp] theorem State.setArb_modules (i : Nat) (x : Arb) : (s.setArb i x).modules = s.modules := rfl
@[simp] theorem State.setArb_runs (i : Nat) (x : Arb) : (s.setArb i x).runs = s.runs := rfl
@[simp] theorem State.setArb_repro (i : Nat) (x : Arb) : (s.setArb i x).repro = s.repro := rfl
@[simp] theorem State.setArb_rings (i : Nat) (x : Arb) : (s.setArb i x).rings = s.rings := rfl
@[simp] theorem State.setArb_members (i : Nat) (x : Arb) : (s.setArb i x).members = s.members := rfl
@[simp] theorem State.setArb_cm (i : Nat) (x : Arb) : (s.setArb i x).cm = s.cm := rfl
@[simp] theorem State.setArb_mb (i : Nat) (x : Arb) : (s.setArb i x).mb = s.mb := rfl
@[simp] theorem State.setArb_bridge (i : Nat) (x : Arb) : (s.setArb i x).bridge = s.bridge := rfl
@[simp] theorem State.setArb_gate (i : Nat) (x : Arb) : (s.setArb i x).gate = s.gate := rfl
@[simp] theorem State.setArb_pwr (i : Nat) (x : Arb) : (s.setArb i x).pwr = s.pwr := rfl
@[simp] theorem State.setArb_held (i : Nat) (x : Arb) : (s.setArb i x).held = s.held := rfl
@[simp] theorem State.setArb_cmBox (i : Nat) (x : Arb) : (s.setArb i x).cmBox = s.cmBox := rfl
@[simp] theorem State.setArb_benches (i : Nat) (x : Arb) : (s.setArb i x).benches = s.benches := rfl

@[simp] theorem State.setL2_pending (h : Fin 2) (l : List CLine) : (s.setL2 h l).pending = s.pending := rfl
@[simp] theorem State.setL2_out (h : Fin 2) (l : List CLine) : (s.setL2 h l).out = s.out := rfl
@[simp] theorem State.setL2_freeCtr (h : Fin 2) (l : List CLine) : (s.setL2 h l).freeCtr = s.freeCtr := rfl
@[simp] theorem State.setL2_time (h : Fin 2) (l : List CLine) : (s.setL2 h l).time = s.time := rfl
@[simp] theorem State.setL2_mem (h : Fin 2) (l : List CLine) : (s.setL2 h l).mem = s.mem := rfl
@[simp] theorem State.setL2_poison (h : Fin 2) (l : List CLine) : (s.setL2 h l).poison = s.poison := rfl
@[simp] theorem State.setL2_regs (h : Fin 2) (l : List CLine) : (s.setL2 h l).regs = s.regs := rfl
@[simp] theorem State.setL2_sync (h : Fin 2) (l : List CLine) : (s.setL2 h l).sync = s.sync := rfl
@[simp] theorem State.setL2_log (h : Fin 2) (l : List CLine) : (s.setL2 h l).log = s.log := rfl
@[simp] theorem State.setL2_logSeq (h : Fin 2) (l : List CLine) : (s.setL2 h l).logSeq = s.logSeq := rfl
@[simp] theorem State.setL2_flashLog (h : Fin 2) (l : List CLine) : (s.setL2 h l).flashLog = s.flashLog := rfl
@[simp] theorem State.setL2_flashSeq (h : Fin 2) (l : List CLine) : (s.setL2 h l).flashSeq = s.flashSeq := rfl
@[simp] theorem State.setL2_msixEn (h : Fin 2) (l : List CLine) : (s.setL2 h l).msixEn = s.msixEn := rfl
@[simp] theorem State.setL2_msixMask (h : Fin 2) (l : List CLine) : (s.setL2 h l).msixMask = s.msixMask := rfl
@[simp] theorem State.setL2_spall (h : Fin 2) (l : List CLine) : (s.setL2 h l).spall = s.spall := rfl
@[simp] theorem State.setL2_regions (h : Fin 2) (l : List CLine) : (s.setL2 h l).regions = s.regions := rfl
@[simp] theorem State.setL2_regionUid (h : Fin 2) (l : List CLine) : (s.setL2 h l).regionUid = s.regionUid := rfl
@[simp] theorem State.setL2_ports (h : Fin 2) (l : List CLine) : (s.setL2 h l).ports = s.ports := rfl
@[simp] theorem State.setL2_e2eTx (h : Fin 2) (l : List CLine) : (s.setL2 h l).e2eTx = s.e2eTx := rfl
@[simp] theorem State.setL2_e2eRx (h : Fin 2) (l : List CLine) : (s.setL2 h l).e2eRx = s.e2eRx := rfl
@[simp] theorem State.setL2_txns (h : Fin 2) (l : List CLine) : (s.setL2 h l).txns = s.txns := rfl
@[simp] theorem State.setL2_inbox (h : Fin 2) (l : List CLine) : (s.setL2 h l).inbox = s.inbox := rfl
@[simp] theorem State.setL2_mgmtHold (h : Fin 2) (l : List CLine) : (s.setL2 h l).mgmtHold = s.mgmtHold := rfl
@[simp] theorem State.setL2_mgmtTokens (h : Fin 2) (l : List CLine) : (s.setL2 h l).mgmtTokens = s.mgmtTokens := rfl
@[simp] theorem State.setL2_mgmtTime (h : Fin 2) (l : List CLine) : (s.setL2 h l).mgmtTime = s.mgmtTime := rfl
@[simp] theorem State.setL2_unreachLog (h : Fin 2) (l : List CLine) : (s.setL2 h l).unreachLog = s.unreachLog := rfl
@[simp] theorem State.setL2_tlb (h : Fin 2) (l : List CLine) : (s.setL2 h l).tlb = s.tlb := rfl
@[simp] theorem State.setL2_invals (h : Fin 2) (l : List CLine) : (s.setL2 h l).invals = s.invals := rfl
@[simp] theorem State.setL2_derricks (h : Fin 2) (l : List CLine) : (s.setL2 h l).derricks = s.derricks := rfl
@[simp] theorem State.setL2_arbs (h : Fin 2) (l : List CLine) : (s.setL2 h l).arbs = s.arbs := rfl
@[simp] theorem State.setL2_seLast (h : Fin 2) (l : List CLine) : (s.setL2 h l).seLast = s.seLast := rfl
@[simp] theorem State.setL2_busMaster (h : Fin 2) (l : List CLine) : (s.setL2 h l).busMaster = s.busMaster := rfl
@[simp] theorem State.setL2_scrubLow (h : Fin 2) (l : List CLine) : (s.setL2 h l).scrubLow = s.scrubLow := rfl
@[simp] theorem State.setL2_ues (h : Fin 2) (l : List CLine) : (s.setL2 h l).ues = s.ues := rfl
@[simp] theorem State.setL2_colls (h : Fin 2) (l : List CLine) : (s.setL2 h l).colls = s.colls := rfl
@[simp] theorem State.setL2_tally (h : Fin 2) (l : List CLine) : (s.setL2 h l).tally = s.tally := rfl
@[simp] theorem State.setL2_ended (h : Fin 2) (l : List CLine) : (s.setL2 h l).ended = s.ended := rfl
@[simp] theorem State.setL2_lateLog (h : Fin 2) (l : List CLine) : (s.setL2 h l).lateLog = s.lateLog := rfl
@[simp] theorem State.setL2_early (h : Fin 2) (l : List CLine) : (s.setL2 h l).early = s.early := rfl
@[simp] theorem State.setL2_straps (h : Fin 2) (l : List CLine) : (s.setL2 h l).straps = s.straps := rfl
@[simp] theorem State.setL2_pci (h : Fin 2) (l : List CLine) : (s.setL2 h l).pci = s.pci := rfl
@[simp] theorem State.setL2_released (h : Fin 2) (l : List CLine) : (s.setL2 h l).released = s.released := rfl
@[simp] theorem State.setL2_cores (h : Fin 2) (l : List CLine) : (s.setL2 h l).cores = s.cores := rfl
@[simp] theorem State.setL2_modules (h : Fin 2) (l : List CLine) : (s.setL2 h l).modules = s.modules := rfl
@[simp] theorem State.setL2_runs (h : Fin 2) (l : List CLine) : (s.setL2 h l).runs = s.runs := rfl
@[simp] theorem State.setL2_repro (h : Fin 2) (l : List CLine) : (s.setL2 h l).repro = s.repro := rfl
@[simp] theorem State.setL2_rings (h : Fin 2) (l : List CLine) : (s.setL2 h l).rings = s.rings := rfl
@[simp] theorem State.setL2_members (h : Fin 2) (l : List CLine) : (s.setL2 h l).members = s.members := rfl
@[simp] theorem State.setL2_cm (h : Fin 2) (l : List CLine) : (s.setL2 h l).cm = s.cm := rfl
@[simp] theorem State.setL2_mb (h : Fin 2) (l : List CLine) : (s.setL2 h l).mb = s.mb := rfl
@[simp] theorem State.setL2_bridge (h : Fin 2) (l : List CLine) : (s.setL2 h l).bridge = s.bridge := rfl
@[simp] theorem State.setL2_gate (h : Fin 2) (l : List CLine) : (s.setL2 h l).gate = s.gate := rfl
@[simp] theorem State.setL2_pwr (h : Fin 2) (l : List CLine) : (s.setL2 h l).pwr = s.pwr := rfl
@[simp] theorem State.setL2_held (h : Fin 2) (l : List CLine) : (s.setL2 h l).held = s.held := rfl
@[simp] theorem State.setL2_cmBox (h : Fin 2) (l : List CLine) : (s.setL2 h l).cmBox = s.cmBox := rfl
@[simp] theorem State.setL2_benches (h : Fin 2) (l : List CLine) : (s.setL2 h l).benches = s.benches := rfl

@[simp] theorem State.setTally_pending (i : Nat) (t : Tally) : (s.setTally i t).pending = s.pending := rfl
@[simp] theorem State.setTally_out (i : Nat) (t : Tally) : (s.setTally i t).out = s.out := rfl
@[simp] theorem State.setTally_freeCtr (i : Nat) (t : Tally) : (s.setTally i t).freeCtr = s.freeCtr := rfl
@[simp] theorem State.setTally_time (i : Nat) (t : Tally) : (s.setTally i t).time = s.time := rfl
@[simp] theorem State.setTally_mem (i : Nat) (t : Tally) : (s.setTally i t).mem = s.mem := rfl
@[simp] theorem State.setTally_poison (i : Nat) (t : Tally) : (s.setTally i t).poison = s.poison := rfl
@[simp] theorem State.setTally_regs (i : Nat) (t : Tally) : (s.setTally i t).regs = s.regs := rfl
@[simp] theorem State.setTally_sync (i : Nat) (t : Tally) : (s.setTally i t).sync = s.sync := rfl
@[simp] theorem State.setTally_log (i : Nat) (t : Tally) : (s.setTally i t).log = s.log := rfl
@[simp] theorem State.setTally_logSeq (i : Nat) (t : Tally) : (s.setTally i t).logSeq = s.logSeq := rfl
@[simp] theorem State.setTally_flashLog (i : Nat) (t : Tally) : (s.setTally i t).flashLog = s.flashLog := rfl
@[simp] theorem State.setTally_flashSeq (i : Nat) (t : Tally) : (s.setTally i t).flashSeq = s.flashSeq := rfl
@[simp] theorem State.setTally_msixEn (i : Nat) (t : Tally) : (s.setTally i t).msixEn = s.msixEn := rfl
@[simp] theorem State.setTally_msixMask (i : Nat) (t : Tally) : (s.setTally i t).msixMask = s.msixMask := rfl
@[simp] theorem State.setTally_spall (i : Nat) (t : Tally) : (s.setTally i t).spall = s.spall := rfl
@[simp] theorem State.setTally_regions (i : Nat) (t : Tally) : (s.setTally i t).regions = s.regions := rfl
@[simp] theorem State.setTally_regionUid (i : Nat) (t : Tally) : (s.setTally i t).regionUid = s.regionUid := rfl
@[simp] theorem State.setTally_ports (i : Nat) (t : Tally) : (s.setTally i t).ports = s.ports := rfl
@[simp] theorem State.setTally_e2eTx (i : Nat) (t : Tally) : (s.setTally i t).e2eTx = s.e2eTx := rfl
@[simp] theorem State.setTally_e2eRx (i : Nat) (t : Tally) : (s.setTally i t).e2eRx = s.e2eRx := rfl
@[simp] theorem State.setTally_txns (i : Nat) (t : Tally) : (s.setTally i t).txns = s.txns := rfl
@[simp] theorem State.setTally_inbox (i : Nat) (t : Tally) : (s.setTally i t).inbox = s.inbox := rfl
@[simp] theorem State.setTally_mgmtHold (i : Nat) (t : Tally) : (s.setTally i t).mgmtHold = s.mgmtHold := rfl
@[simp] theorem State.setTally_mgmtTokens (i : Nat) (t : Tally) : (s.setTally i t).mgmtTokens = s.mgmtTokens := rfl
@[simp] theorem State.setTally_mgmtTime (i : Nat) (t : Tally) : (s.setTally i t).mgmtTime = s.mgmtTime := rfl
@[simp] theorem State.setTally_unreachLog (i : Nat) (t : Tally) : (s.setTally i t).unreachLog = s.unreachLog := rfl
@[simp] theorem State.setTally_tlb (i : Nat) (t : Tally) : (s.setTally i t).tlb = s.tlb := rfl
@[simp] theorem State.setTally_invals (i : Nat) (t : Tally) : (s.setTally i t).invals = s.invals := rfl
@[simp] theorem State.setTally_derricks (i : Nat) (t : Tally) : (s.setTally i t).derricks = s.derricks := rfl
@[simp] theorem State.setTally_arbs (i : Nat) (t : Tally) : (s.setTally i t).arbs = s.arbs := rfl
@[simp] theorem State.setTally_seLast (i : Nat) (t : Tally) : (s.setTally i t).seLast = s.seLast := rfl
@[simp] theorem State.setTally_busMaster (i : Nat) (t : Tally) : (s.setTally i t).busMaster = s.busMaster := rfl
@[simp] theorem State.setTally_scrubLow (i : Nat) (t : Tally) : (s.setTally i t).scrubLow = s.scrubLow := rfl
@[simp] theorem State.setTally_ues (i : Nat) (t : Tally) : (s.setTally i t).ues = s.ues := rfl
@[simp] theorem State.setTally_colls (i : Nat) (t : Tally) : (s.setTally i t).colls = s.colls := rfl
@[simp] theorem State.setTally_ended (i : Nat) (t : Tally) : (s.setTally i t).ended = s.ended := rfl
@[simp] theorem State.setTally_lateLog (i : Nat) (t : Tally) : (s.setTally i t).lateLog = s.lateLog := rfl
@[simp] theorem State.setTally_early (i : Nat) (t : Tally) : (s.setTally i t).early = s.early := rfl
@[simp] theorem State.setTally_straps (i : Nat) (t : Tally) : (s.setTally i t).straps = s.straps := rfl
@[simp] theorem State.setTally_pci (i : Nat) (t : Tally) : (s.setTally i t).pci = s.pci := rfl
@[simp] theorem State.setTally_released (i : Nat) (t : Tally) : (s.setTally i t).released = s.released := rfl
@[simp] theorem State.setTally_cores (i : Nat) (t : Tally) : (s.setTally i t).cores = s.cores := rfl
@[simp] theorem State.setTally_l2 (i : Nat) (t : Tally) : (s.setTally i t).l2 = s.l2 := rfl
@[simp] theorem State.setTally_modules (i : Nat) (t : Tally) : (s.setTally i t).modules = s.modules := rfl
@[simp] theorem State.setTally_runs (i : Nat) (t : Tally) : (s.setTally i t).runs = s.runs := rfl
@[simp] theorem State.setTally_repro (i : Nat) (t : Tally) : (s.setTally i t).repro = s.repro := rfl
@[simp] theorem State.setTally_rings (i : Nat) (t : Tally) : (s.setTally i t).rings = s.rings := rfl
@[simp] theorem State.setTally_members (i : Nat) (t : Tally) : (s.setTally i t).members = s.members := rfl
@[simp] theorem State.setTally_cm (i : Nat) (t : Tally) : (s.setTally i t).cm = s.cm := rfl
@[simp] theorem State.setTally_mb (i : Nat) (t : Tally) : (s.setTally i t).mb = s.mb := rfl
@[simp] theorem State.setTally_bridge (i : Nat) (t : Tally) : (s.setTally i t).bridge = s.bridge := rfl
@[simp] theorem State.setTally_gate (i : Nat) (t : Tally) : (s.setTally i t).gate = s.gate := rfl
@[simp] theorem State.setTally_pwr (i : Nat) (t : Tally) : (s.setTally i t).pwr = s.pwr := rfl
@[simp] theorem State.setTally_held (i : Nat) (t : Tally) : (s.setTally i t).held = s.held := rfl
@[simp] theorem State.setTally_cmBox (i : Nat) (t : Tally) : (s.setTally i t).cmBox = s.cmBox := rfl
@[simp] theorem State.setTally_benches (i : Nat) (t : Tally) : (s.setTally i t).benches = s.benches := rfl

@[simp] theorem State.setRegion_pending (r : Nat) (x : Region) : (s.setRegion r x).pending = s.pending := rfl
@[simp] theorem State.setRegion_out (r : Nat) (x : Region) : (s.setRegion r x).out = s.out := rfl
@[simp] theorem State.setRegion_freeCtr (r : Nat) (x : Region) : (s.setRegion r x).freeCtr = s.freeCtr := rfl
@[simp] theorem State.setRegion_time (r : Nat) (x : Region) : (s.setRegion r x).time = s.time := rfl
@[simp] theorem State.setRegion_mem (r : Nat) (x : Region) : (s.setRegion r x).mem = s.mem := rfl
@[simp] theorem State.setRegion_poison (r : Nat) (x : Region) : (s.setRegion r x).poison = s.poison := rfl
@[simp] theorem State.setRegion_regs (r : Nat) (x : Region) : (s.setRegion r x).regs = s.regs := rfl
@[simp] theorem State.setRegion_sync (r : Nat) (x : Region) : (s.setRegion r x).sync = s.sync := rfl
@[simp] theorem State.setRegion_log (r : Nat) (x : Region) : (s.setRegion r x).log = s.log := rfl
@[simp] theorem State.setRegion_logSeq (r : Nat) (x : Region) : (s.setRegion r x).logSeq = s.logSeq := rfl
@[simp] theorem State.setRegion_flashLog (r : Nat) (x : Region) : (s.setRegion r x).flashLog = s.flashLog := rfl
@[simp] theorem State.setRegion_flashSeq (r : Nat) (x : Region) : (s.setRegion r x).flashSeq = s.flashSeq := rfl
@[simp] theorem State.setRegion_msixEn (r : Nat) (x : Region) : (s.setRegion r x).msixEn = s.msixEn := rfl
@[simp] theorem State.setRegion_msixMask (r : Nat) (x : Region) : (s.setRegion r x).msixMask = s.msixMask := rfl
@[simp] theorem State.setRegion_spall (r : Nat) (x : Region) : (s.setRegion r x).spall = s.spall := rfl
@[simp] theorem State.setRegion_regionUid (r : Nat) (x : Region) : (s.setRegion r x).regionUid = s.regionUid := rfl
@[simp] theorem State.setRegion_ports (r : Nat) (x : Region) : (s.setRegion r x).ports = s.ports := rfl
@[simp] theorem State.setRegion_e2eTx (r : Nat) (x : Region) : (s.setRegion r x).e2eTx = s.e2eTx := rfl
@[simp] theorem State.setRegion_e2eRx (r : Nat) (x : Region) : (s.setRegion r x).e2eRx = s.e2eRx := rfl
@[simp] theorem State.setRegion_txns (r : Nat) (x : Region) : (s.setRegion r x).txns = s.txns := rfl
@[simp] theorem State.setRegion_inbox (r : Nat) (x : Region) : (s.setRegion r x).inbox = s.inbox := rfl
@[simp] theorem State.setRegion_mgmtHold (r : Nat) (x : Region) : (s.setRegion r x).mgmtHold = s.mgmtHold := rfl
@[simp] theorem State.setRegion_mgmtTokens (r : Nat) (x : Region) : (s.setRegion r x).mgmtTokens = s.mgmtTokens := rfl
@[simp] theorem State.setRegion_mgmtTime (r : Nat) (x : Region) : (s.setRegion r x).mgmtTime = s.mgmtTime := rfl
@[simp] theorem State.setRegion_unreachLog (r : Nat) (x : Region) : (s.setRegion r x).unreachLog = s.unreachLog := rfl
@[simp] theorem State.setRegion_tlb (r : Nat) (x : Region) : (s.setRegion r x).tlb = s.tlb := rfl
@[simp] theorem State.setRegion_invals (r : Nat) (x : Region) : (s.setRegion r x).invals = s.invals := rfl
@[simp] theorem State.setRegion_derricks (r : Nat) (x : Region) : (s.setRegion r x).derricks = s.derricks := rfl
@[simp] theorem State.setRegion_arbs (r : Nat) (x : Region) : (s.setRegion r x).arbs = s.arbs := rfl
@[simp] theorem State.setRegion_seLast (r : Nat) (x : Region) : (s.setRegion r x).seLast = s.seLast := rfl
@[simp] theorem State.setRegion_busMaster (r : Nat) (x : Region) : (s.setRegion r x).busMaster = s.busMaster := rfl
@[simp] theorem State.setRegion_scrubLow (r : Nat) (x : Region) : (s.setRegion r x).scrubLow = s.scrubLow := rfl
@[simp] theorem State.setRegion_ues (r : Nat) (x : Region) : (s.setRegion r x).ues = s.ues := rfl
@[simp] theorem State.setRegion_colls (r : Nat) (x : Region) : (s.setRegion r x).colls = s.colls := rfl
@[simp] theorem State.setRegion_tally (r : Nat) (x : Region) : (s.setRegion r x).tally = s.tally := rfl
@[simp] theorem State.setRegion_ended (r : Nat) (x : Region) : (s.setRegion r x).ended = s.ended := rfl
@[simp] theorem State.setRegion_lateLog (r : Nat) (x : Region) : (s.setRegion r x).lateLog = s.lateLog := rfl
@[simp] theorem State.setRegion_early (r : Nat) (x : Region) : (s.setRegion r x).early = s.early := rfl
@[simp] theorem State.setRegion_straps (r : Nat) (x : Region) : (s.setRegion r x).straps = s.straps := rfl
@[simp] theorem State.setRegion_pci (r : Nat) (x : Region) : (s.setRegion r x).pci = s.pci := rfl
@[simp] theorem State.setRegion_released (r : Nat) (x : Region) : (s.setRegion r x).released = s.released := rfl
@[simp] theorem State.setRegion_cores (r : Nat) (x : Region) : (s.setRegion r x).cores = s.cores := rfl
@[simp] theorem State.setRegion_l2 (r : Nat) (x : Region) : (s.setRegion r x).l2 = s.l2 := rfl
@[simp] theorem State.setRegion_modules (r : Nat) (x : Region) : (s.setRegion r x).modules = s.modules := rfl
@[simp] theorem State.setRegion_runs (r : Nat) (x : Region) : (s.setRegion r x).runs = s.runs := rfl
@[simp] theorem State.setRegion_repro (r : Nat) (x : Region) : (s.setRegion r x).repro = s.repro := rfl
@[simp] theorem State.setRegion_rings (r : Nat) (x : Region) : (s.setRegion r x).rings = s.rings := rfl
@[simp] theorem State.setRegion_members (r : Nat) (x : Region) : (s.setRegion r x).members = s.members := rfl
@[simp] theorem State.setRegion_cm (r : Nat) (x : Region) : (s.setRegion r x).cm = s.cm := rfl
@[simp] theorem State.setRegion_mb (r : Nat) (x : Region) : (s.setRegion r x).mb = s.mb := rfl
@[simp] theorem State.setRegion_bridge (r : Nat) (x : Region) : (s.setRegion r x).bridge = s.bridge := rfl
@[simp] theorem State.setRegion_gate (r : Nat) (x : Region) : (s.setRegion r x).gate = s.gate := rfl
@[simp] theorem State.setRegion_pwr (r : Nat) (x : Region) : (s.setRegion r x).pwr = s.pwr := rfl
@[simp] theorem State.setRegion_held (r : Nat) (x : Region) : (s.setRegion r x).held = s.held := rfl
@[simp] theorem State.setRegion_cmBox (r : Nat) (x : Region) : (s.setRegion r x).cmBox = s.cmBox := rfl
@[simp] theorem State.setRegion_benches (r : Nat) (x : Region) : (s.setRegion r x).benches = s.benches := rfl

@[simp] theorem State.addRecs_pending (code src k : Nat) (c : Bool) (a : Bytes) : (s.addRecs code src k c a).pending = s.pending := by
  induction k generalizing s c a with
  | zero => rfl
  | succ k ih => unfold State.addRecs; simp only []; split <;> simp [ih]
@[simp] theorem State.ev_pending (code src : Nat) (a : Bytes) : (s.ev code src a).pending = s.pending := by unfold State.ev; simp only []; split <;> split <;> split <;> simp
@[simp] theorem State.flagEvents_pending (b tag new k : Nat) : (s.flagEvents b tag new k).pending = s.pending := by
  induction k with
  | zero => rfl
  | succ k ih => unfold State.flagEvents; simp only []; split <;> simp [ih]
@[simp] theorem State.charge_pending (b tag c : Nat) : (s.charge b tag c).pending = s.pending := by unfold State.charge; simp

@[simp] theorem State.addRecs_freeCtr (code src k : Nat) (c : Bool) (a : Bytes) : (s.addRecs code src k c a).freeCtr = s.freeCtr := by
  induction k generalizing s c a with
  | zero => rfl
  | succ k ih => unfold State.addRecs; simp only []; split <;> simp [ih]
@[simp] theorem State.ev_freeCtr (code src : Nat) (a : Bytes) : (s.ev code src a).freeCtr = s.freeCtr := by unfold State.ev; simp only []; split <;> split <;> split <;> simp
@[simp] theorem State.flagEvents_freeCtr (b tag new k : Nat) : (s.flagEvents b tag new k).freeCtr = s.freeCtr := by
  induction k with
  | zero => rfl
  | succ k ih => unfold State.flagEvents; simp only []; split <;> simp [ih]
@[simp] theorem State.charge_freeCtr (b tag c : Nat) : (s.charge b tag c).freeCtr = s.freeCtr := by unfold State.charge; simp

@[simp] theorem State.addRecs_time (code src k : Nat) (c : Bool) (a : Bytes) : (s.addRecs code src k c a).time = s.time := by
  induction k generalizing s c a with
  | zero => rfl
  | succ k ih => unfold State.addRecs; simp only []; split <;> simp [ih]
@[simp] theorem State.ev_time (code src : Nat) (a : Bytes) : (s.ev code src a).time = s.time := by unfold State.ev; simp only []; split <;> split <;> split <;> simp
@[simp] theorem State.flagEvents_time (b tag new k : Nat) : (s.flagEvents b tag new k).time = s.time := by
  induction k with
  | zero => rfl
  | succ k ih => unfold State.flagEvents; simp only []; split <;> simp [ih]
@[simp] theorem State.charge_time (b tag c : Nat) : (s.charge b tag c).time = s.time := by unfold State.charge; simp

@[simp] theorem State.addRecs_mem (code src k : Nat) (c : Bool) (a : Bytes) : (s.addRecs code src k c a).mem = s.mem := by
  induction k generalizing s c a with
  | zero => rfl
  | succ k ih => unfold State.addRecs; simp only []; split <;> simp [ih]
@[simp] theorem State.ev_mem (code src : Nat) (a : Bytes) : (s.ev code src a).mem = s.mem := by unfold State.ev; simp only []; split <;> split <;> split <;> simp
@[simp] theorem State.flagEvents_mem (b tag new k : Nat) : (s.flagEvents b tag new k).mem = s.mem := by
  induction k with
  | zero => rfl
  | succ k ih => unfold State.flagEvents; simp only []; split <;> simp [ih]
@[simp] theorem State.charge_mem (b tag c : Nat) : (s.charge b tag c).mem = s.mem := by unfold State.charge; simp

@[simp] theorem State.addRecs_poison (code src k : Nat) (c : Bool) (a : Bytes) : (s.addRecs code src k c a).poison = s.poison := by
  induction k generalizing s c a with
  | zero => rfl
  | succ k ih => unfold State.addRecs; simp only []; split <;> simp [ih]
@[simp] theorem State.ev_poison (code src : Nat) (a : Bytes) : (s.ev code src a).poison = s.poison := by unfold State.ev; simp only []; split <;> split <;> split <;> simp
@[simp] theorem State.flagEvents_poison (b tag new k : Nat) : (s.flagEvents b tag new k).poison = s.poison := by
  induction k with
  | zero => rfl
  | succ k ih => unfold State.flagEvents; simp only []; split <;> simp [ih]
@[simp] theorem State.charge_poison (b tag c : Nat) : (s.charge b tag c).poison = s.poison := by unfold State.charge; simp

@[simp] theorem State.addRecs_sync (code src k : Nat) (c : Bool) (a : Bytes) : (s.addRecs code src k c a).sync = s.sync := by
  induction k generalizing s c a with
  | zero => rfl
  | succ k ih => unfold State.addRecs; simp only []; split <;> simp [ih]
@[simp] theorem State.ev_sync (code src : Nat) (a : Bytes) : (s.ev code src a).sync = s.sync := by unfold State.ev; simp only []; split <;> split <;> split <;> simp
@[simp] theorem State.flagEvents_sync (b tag new k : Nat) : (s.flagEvents b tag new k).sync = s.sync := by
  induction k with
  | zero => rfl
  | succ k ih => unfold State.flagEvents; simp only []; split <;> simp [ih]
@[simp] theorem State.charge_sync (b tag c : Nat) : (s.charge b tag c).sync = s.sync := by unfold State.charge; simp

@[simp] theorem State.addRecs_msixEn (code src k : Nat) (c : Bool) (a : Bytes) : (s.addRecs code src k c a).msixEn = s.msixEn := by
  induction k generalizing s c a with
  | zero => rfl
  | succ k ih => unfold State.addRecs; simp only []; split <;> simp [ih]
@[simp] theorem State.ev_msixEn (code src : Nat) (a : Bytes) : (s.ev code src a).msixEn = s.msixEn := by unfold State.ev; simp only []; split <;> split <;> split <;> simp
@[simp] theorem State.flagEvents_msixEn (b tag new k : Nat) : (s.flagEvents b tag new k).msixEn = s.msixEn := by
  induction k with
  | zero => rfl
  | succ k ih => unfold State.flagEvents; simp only []; split <;> simp [ih]
@[simp] theorem State.charge_msixEn (b tag c : Nat) : (s.charge b tag c).msixEn = s.msixEn := by unfold State.charge; simp

@[simp] theorem State.addRecs_msixMask (code src k : Nat) (c : Bool) (a : Bytes) : (s.addRecs code src k c a).msixMask = s.msixMask := by
  induction k generalizing s c a with
  | zero => rfl
  | succ k ih => unfold State.addRecs; simp only []; split <;> simp [ih]
@[simp] theorem State.ev_msixMask (code src : Nat) (a : Bytes) : (s.ev code src a).msixMask = s.msixMask := by unfold State.ev; simp only []; split <;> split <;> split <;> simp
@[simp] theorem State.flagEvents_msixMask (b tag new k : Nat) : (s.flagEvents b tag new k).msixMask = s.msixMask := by
  induction k with
  | zero => rfl
  | succ k ih => unfold State.flagEvents; simp only []; split <;> simp [ih]
@[simp] theorem State.charge_msixMask (b tag c : Nat) : (s.charge b tag c).msixMask = s.msixMask := by unfold State.charge; simp

@[simp] theorem State.addRecs_spall (code src k : Nat) (c : Bool) (a : Bytes) : (s.addRecs code src k c a).spall = s.spall := by
  induction k generalizing s c a with
  | zero => rfl
  | succ k ih => unfold State.addRecs; simp only []; split <;> simp [ih]
@[simp] theorem State.ev_spall (code src : Nat) (a : Bytes) : (s.ev code src a).spall = s.spall := by unfold State.ev; simp only []; split <;> split <;> split <;> simp
@[simp] theorem State.flagEvents_spall (b tag new k : Nat) : (s.flagEvents b tag new k).spall = s.spall := by
  induction k with
  | zero => rfl
  | succ k ih => unfold State.flagEvents; simp only []; split <;> simp [ih]
@[simp] theorem State.charge_spall (b tag c : Nat) : (s.charge b tag c).spall = s.spall := by unfold State.charge; simp

@[simp] theorem State.addRecs_regions (code src k : Nat) (c : Bool) (a : Bytes) : (s.addRecs code src k c a).regions = s.regions := by
  induction k generalizing s c a with
  | zero => rfl
  | succ k ih => unfold State.addRecs; simp only []; split <;> simp [ih]
@[simp] theorem State.ev_regions (code src : Nat) (a : Bytes) : (s.ev code src a).regions = s.regions := by unfold State.ev; simp only []; split <;> split <;> split <;> simp
@[simp] theorem State.flagEvents_regions (b tag new k : Nat) : (s.flagEvents b tag new k).regions = s.regions := by
  induction k with
  | zero => rfl
  | succ k ih => unfold State.flagEvents; simp only []; split <;> simp [ih]
@[simp] theorem State.charge_regions (b tag c : Nat) : (s.charge b tag c).regions = s.regions := by unfold State.charge; simp

@[simp] theorem State.addRecs_regionUid (code src k : Nat) (c : Bool) (a : Bytes) : (s.addRecs code src k c a).regionUid = s.regionUid := by
  induction k generalizing s c a with
  | zero => rfl
  | succ k ih => unfold State.addRecs; simp only []; split <;> simp [ih]
@[simp] theorem State.ev_regionUid (code src : Nat) (a : Bytes) : (s.ev code src a).regionUid = s.regionUid := by unfold State.ev; simp only []; split <;> split <;> split <;> simp
@[simp] theorem State.flagEvents_regionUid (b tag new k : Nat) : (s.flagEvents b tag new k).regionUid = s.regionUid := by
  induction k with
  | zero => rfl
  | succ k ih => unfold State.flagEvents; simp only []; split <;> simp [ih]
@[simp] theorem State.charge_regionUid (b tag c : Nat) : (s.charge b tag c).regionUid = s.regionUid := by unfold State.charge; simp

@[simp] theorem State.addRecs_ports (code src k : Nat) (c : Bool) (a : Bytes) : (s.addRecs code src k c a).ports = s.ports := by
  induction k generalizing s c a with
  | zero => rfl
  | succ k ih => unfold State.addRecs; simp only []; split <;> simp [ih]
@[simp] theorem State.ev_ports (code src : Nat) (a : Bytes) : (s.ev code src a).ports = s.ports := by unfold State.ev; simp only []; split <;> split <;> split <;> simp
@[simp] theorem State.flagEvents_ports (b tag new k : Nat) : (s.flagEvents b tag new k).ports = s.ports := by
  induction k with
  | zero => rfl
  | succ k ih => unfold State.flagEvents; simp only []; split <;> simp [ih]
@[simp] theorem State.charge_ports (b tag c : Nat) : (s.charge b tag c).ports = s.ports := by unfold State.charge; simp

@[simp] theorem State.addRecs_e2eTx (code src k : Nat) (c : Bool) (a : Bytes) : (s.addRecs code src k c a).e2eTx = s.e2eTx := by
  induction k generalizing s c a with
  | zero => rfl
  | succ k ih => unfold State.addRecs; simp only []; split <;> simp [ih]
@[simp] theorem State.ev_e2eTx (code src : Nat) (a : Bytes) : (s.ev code src a).e2eTx = s.e2eTx := by unfold State.ev; simp only []; split <;> split <;> split <;> simp
@[simp] theorem State.flagEvents_e2eTx (b tag new k : Nat) : (s.flagEvents b tag new k).e2eTx = s.e2eTx := by
  induction k with
  | zero => rfl
  | succ k ih => unfold State.flagEvents; simp only []; split <;> simp [ih]
@[simp] theorem State.charge_e2eTx (b tag c : Nat) : (s.charge b tag c).e2eTx = s.e2eTx := by unfold State.charge; simp

@[simp] theorem State.addRecs_e2eRx (code src k : Nat) (c : Bool) (a : Bytes) : (s.addRecs code src k c a).e2eRx = s.e2eRx := by
  induction k generalizing s c a with
  | zero => rfl
  | succ k ih => unfold State.addRecs; simp only []; split <;> simp [ih]
@[simp] theorem State.ev_e2eRx (code src : Nat) (a : Bytes) : (s.ev code src a).e2eRx = s.e2eRx := by unfold State.ev; simp only []; split <;> split <;> split <;> simp
@[simp] theorem State.flagEvents_e2eRx (b tag new k : Nat) : (s.flagEvents b tag new k).e2eRx = s.e2eRx := by
  induction k with
  | zero => rfl
  | succ k ih => unfold State.flagEvents; simp only []; split <;> simp [ih]
@[simp] theorem State.charge_e2eRx (b tag c : Nat) : (s.charge b tag c).e2eRx = s.e2eRx := by unfold State.charge; simp

@[simp] theorem State.addRecs_txns (code src k : Nat) (c : Bool) (a : Bytes) : (s.addRecs code src k c a).txns = s.txns := by
  induction k generalizing s c a with
  | zero => rfl
  | succ k ih => unfold State.addRecs; simp only []; split <;> simp [ih]
@[simp] theorem State.ev_txns (code src : Nat) (a : Bytes) : (s.ev code src a).txns = s.txns := by unfold State.ev; simp only []; split <;> split <;> split <;> simp
@[simp] theorem State.flagEvents_txns (b tag new k : Nat) : (s.flagEvents b tag new k).txns = s.txns := by
  induction k with
  | zero => rfl
  | succ k ih => unfold State.flagEvents; simp only []; split <;> simp [ih]
@[simp] theorem State.charge_txns (b tag c : Nat) : (s.charge b tag c).txns = s.txns := by unfold State.charge; simp

@[simp] theorem State.addRecs_inbox (code src k : Nat) (c : Bool) (a : Bytes) : (s.addRecs code src k c a).inbox = s.inbox := by
  induction k generalizing s c a with
  | zero => rfl
  | succ k ih => unfold State.addRecs; simp only []; split <;> simp [ih]
@[simp] theorem State.ev_inbox (code src : Nat) (a : Bytes) : (s.ev code src a).inbox = s.inbox := by unfold State.ev; simp only []; split <;> split <;> split <;> simp
@[simp] theorem State.flagEvents_inbox (b tag new k : Nat) : (s.flagEvents b tag new k).inbox = s.inbox := by
  induction k with
  | zero => rfl
  | succ k ih => unfold State.flagEvents; simp only []; split <;> simp [ih]
@[simp] theorem State.charge_inbox (b tag c : Nat) : (s.charge b tag c).inbox = s.inbox := by unfold State.charge; simp

@[simp] theorem State.addRecs_mgmtHold (code src k : Nat) (c : Bool) (a : Bytes) : (s.addRecs code src k c a).mgmtHold = s.mgmtHold := by
  induction k generalizing s c a with
  | zero => rfl
  | succ k ih => unfold State.addRecs; simp only []; split <;> simp [ih]
@[simp] theorem State.ev_mgmtHold (code src : Nat) (a : Bytes) : (s.ev code src a).mgmtHold = s.mgmtHold := by unfold State.ev; simp only []; split <;> split <;> split <;> simp
@[simp] theorem State.flagEvents_mgmtHold (b tag new k : Nat) : (s.flagEvents b tag new k).mgmtHold = s.mgmtHold := by
  induction k with
  | zero => rfl
  | succ k ih => unfold State.flagEvents; simp only []; split <;> simp [ih]
@[simp] theorem State.charge_mgmtHold (b tag c : Nat) : (s.charge b tag c).mgmtHold = s.mgmtHold := by unfold State.charge; simp

@[simp] theorem State.addRecs_mgmtTokens (code src k : Nat) (c : Bool) (a : Bytes) : (s.addRecs code src k c a).mgmtTokens = s.mgmtTokens := by
  induction k generalizing s c a with
  | zero => rfl
  | succ k ih => unfold State.addRecs; simp only []; split <;> simp [ih]
@[simp] theorem State.ev_mgmtTokens (code src : Nat) (a : Bytes) : (s.ev code src a).mgmtTokens = s.mgmtTokens := by unfold State.ev; simp only []; split <;> split <;> split <;> simp
@[simp] theorem State.flagEvents_mgmtTokens (b tag new k : Nat) : (s.flagEvents b tag new k).mgmtTokens = s.mgmtTokens := by
  induction k with
  | zero => rfl
  | succ k ih => unfold State.flagEvents; simp only []; split <;> simp [ih]
@[simp] theorem State.charge_mgmtTokens (b tag c : Nat) : (s.charge b tag c).mgmtTokens = s.mgmtTokens := by unfold State.charge; simp

@[simp] theorem State.addRecs_mgmtTime (code src k : Nat) (c : Bool) (a : Bytes) : (s.addRecs code src k c a).mgmtTime = s.mgmtTime := by
  induction k generalizing s c a with
  | zero => rfl
  | succ k ih => unfold State.addRecs; simp only []; split <;> simp [ih]
@[simp] theorem State.ev_mgmtTime (code src : Nat) (a : Bytes) : (s.ev code src a).mgmtTime = s.mgmtTime := by unfold State.ev; simp only []; split <;> split <;> split <;> simp
@[simp] theorem State.flagEvents_mgmtTime (b tag new k : Nat) : (s.flagEvents b tag new k).mgmtTime = s.mgmtTime := by
  induction k with
  | zero => rfl
  | succ k ih => unfold State.flagEvents; simp only []; split <;> simp [ih]
@[simp] theorem State.charge_mgmtTime (b tag c : Nat) : (s.charge b tag c).mgmtTime = s.mgmtTime := by unfold State.charge; simp

@[simp] theorem State.addRecs_unreachLog (code src k : Nat) (c : Bool) (a : Bytes) : (s.addRecs code src k c a).unreachLog = s.unreachLog := by
  induction k generalizing s c a with
  | zero => rfl
  | succ k ih => unfold State.addRecs; simp only []; split <;> simp [ih]
@[simp] theorem State.ev_unreachLog (code src : Nat) (a : Bytes) : (s.ev code src a).unreachLog = s.unreachLog := by unfold State.ev; simp only []; split <;> split <;> split <;> simp
@[simp] theorem State.flagEvents_unreachLog (b tag new k : Nat) : (s.flagEvents b tag new k).unreachLog = s.unreachLog := by
  induction k with
  | zero => rfl
  | succ k ih => unfold State.flagEvents; simp only []; split <;> simp [ih]
@[simp] theorem State.charge_unreachLog (b tag c : Nat) : (s.charge b tag c).unreachLog = s.unreachLog := by unfold State.charge; simp

@[simp] theorem State.addRecs_tlb (code src k : Nat) (c : Bool) (a : Bytes) : (s.addRecs code src k c a).tlb = s.tlb := by
  induction k generalizing s c a with
  | zero => rfl
  | succ k ih => unfold State.addRecs; simp only []; split <;> simp [ih]
@[simp] theorem State.ev_tlb (code src : Nat) (a : Bytes) : (s.ev code src a).tlb = s.tlb := by unfold State.ev; simp only []; split <;> split <;> split <;> simp
@[simp] theorem State.flagEvents_tlb (b tag new k : Nat) : (s.flagEvents b tag new k).tlb = s.tlb := by
  induction k with
  | zero => rfl
  | succ k ih => unfold State.flagEvents; simp only []; split <;> simp [ih]
@[simp] theorem State.charge_tlb (b tag c : Nat) : (s.charge b tag c).tlb = s.tlb := by unfold State.charge; simp

@[simp] theorem State.addRecs_invals (code src k : Nat) (c : Bool) (a : Bytes) : (s.addRecs code src k c a).invals = s.invals := by
  induction k generalizing s c a with
  | zero => rfl
  | succ k ih => unfold State.addRecs; simp only []; split <;> simp [ih]
@[simp] theorem State.ev_invals (code src : Nat) (a : Bytes) : (s.ev code src a).invals = s.invals := by unfold State.ev; simp only []; split <;> split <;> split <;> simp
@[simp] theorem State.flagEvents_invals (b tag new k : Nat) : (s.flagEvents b tag new k).invals = s.invals := by
  induction k with
  | zero => rfl
  | succ k ih => unfold State.flagEvents; simp only []; split <;> simp [ih]
@[simp] theorem State.charge_invals (b tag c : Nat) : (s.charge b tag c).invals = s.invals := by unfold State.charge; simp

@[simp] theorem State.addRecs_derricks (code src k : Nat) (c : Bool) (a : Bytes) : (s.addRecs code src k c a).derricks = s.derricks := by
  induction k generalizing s c a with
  | zero => rfl
  | succ k ih => unfold State.addRecs; simp only []; split <;> simp [ih]
@[simp] theorem State.ev_derricks (code src : Nat) (a : Bytes) : (s.ev code src a).derricks = s.derricks := by unfold State.ev; simp only []; split <;> split <;> split <;> simp
@[simp] theorem State.flagEvents_derricks (b tag new k : Nat) : (s.flagEvents b tag new k).derricks = s.derricks := by
  induction k with
  | zero => rfl
  | succ k ih => unfold State.flagEvents; simp only []; split <;> simp [ih]
@[simp] theorem State.charge_derricks (b tag c : Nat) : (s.charge b tag c).derricks = s.derricks := by unfold State.charge; simp

@[simp] theorem State.addRecs_arbs (code src k : Nat) (c : Bool) (a : Bytes) : (s.addRecs code src k c a).arbs = s.arbs := by
  induction k generalizing s c a with
  | zero => rfl
  | succ k ih => unfold State.addRecs; simp only []; split <;> simp [ih]
@[simp] theorem State.ev_arbs (code src : Nat) (a : Bytes) : (s.ev code src a).arbs = s.arbs := by unfold State.ev; simp only []; split <;> split <;> split <;> simp
@[simp] theorem State.flagEvents_arbs (b tag new k : Nat) : (s.flagEvents b tag new k).arbs = s.arbs := by
  induction k with
  | zero => rfl
  | succ k ih => unfold State.flagEvents; simp only []; split <;> simp [ih]
@[simp] theorem State.charge_arbs (b tag c : Nat) : (s.charge b tag c).arbs = s.arbs := by unfold State.charge; simp

@[simp] theorem State.addRecs_seLast (code src k : Nat) (c : Bool) (a : Bytes) : (s.addRecs code src k c a).seLast = s.seLast := by
  induction k generalizing s c a with
  | zero => rfl
  | succ k ih => unfold State.addRecs; simp only []; split <;> simp [ih]
@[simp] theorem State.ev_seLast (code src : Nat) (a : Bytes) : (s.ev code src a).seLast = s.seLast := by unfold State.ev; simp only []; split <;> split <;> split <;> simp
@[simp] theorem State.flagEvents_seLast (b tag new k : Nat) : (s.flagEvents b tag new k).seLast = s.seLast := by
  induction k with
  | zero => rfl
  | succ k ih => unfold State.flagEvents; simp only []; split <;> simp [ih]
@[simp] theorem State.charge_seLast (b tag c : Nat) : (s.charge b tag c).seLast = s.seLast := by unfold State.charge; simp

@[simp] theorem State.addRecs_busMaster (code src k : Nat) (c : Bool) (a : Bytes) : (s.addRecs code src k c a).busMaster = s.busMaster := by
  induction k generalizing s c a with
  | zero => rfl
  | succ k ih => unfold State.addRecs; simp only []; split <;> simp [ih]
@[simp] theorem State.ev_busMaster (code src : Nat) (a : Bytes) : (s.ev code src a).busMaster = s.busMaster := by unfold State.ev; simp only []; split <;> split <;> split <;> simp
@[simp] theorem State.flagEvents_busMaster (b tag new k : Nat) : (s.flagEvents b tag new k).busMaster = s.busMaster := by
  induction k with
  | zero => rfl
  | succ k ih => unfold State.flagEvents; simp only []; split <;> simp [ih]
@[simp] theorem State.charge_busMaster (b tag c : Nat) : (s.charge b tag c).busMaster = s.busMaster := by unfold State.charge; simp

@[simp] theorem State.addRecs_scrubLow (code src k : Nat) (c : Bool) (a : Bytes) : (s.addRecs code src k c a).scrubLow = s.scrubLow := by
  induction k generalizing s c a with
  | zero => rfl
  | succ k ih => unfold State.addRecs; simp only []; split <;> simp [ih]
@[simp] theorem State.ev_scrubLow (code src : Nat) (a : Bytes) : (s.ev code src a).scrubLow = s.scrubLow := by unfold State.ev; simp only []; split <;> split <;> split <;> simp
@[simp] theorem State.flagEvents_scrubLow (b tag new k : Nat) : (s.flagEvents b tag new k).scrubLow = s.scrubLow := by
  induction k with
  | zero => rfl
  | succ k ih => unfold State.flagEvents; simp only []; split <;> simp [ih]
@[simp] theorem State.charge_scrubLow (b tag c : Nat) : (s.charge b tag c).scrubLow = s.scrubLow := by unfold State.charge; simp

@[simp] theorem State.addRecs_ues (code src k : Nat) (c : Bool) (a : Bytes) : (s.addRecs code src k c a).ues = s.ues := by
  induction k generalizing s c a with
  | zero => rfl
  | succ k ih => unfold State.addRecs; simp only []; split <;> simp [ih]
@[simp] theorem State.ev_ues (code src : Nat) (a : Bytes) : (s.ev code src a).ues = s.ues := by unfold State.ev; simp only []; split <;> split <;> split <;> simp
@[simp] theorem State.flagEvents_ues (b tag new k : Nat) : (s.flagEvents b tag new k).ues = s.ues := by
  induction k with
  | zero => rfl
  | succ k ih => unfold State.flagEvents; simp only []; split <;> simp [ih]
@[simp] theorem State.charge_ues (b tag c : Nat) : (s.charge b tag c).ues = s.ues := by unfold State.charge; simp

@[simp] theorem State.addRecs_colls (code src k : Nat) (c : Bool) (a : Bytes) : (s.addRecs code src k c a).colls = s.colls := by
  induction k generalizing s c a with
  | zero => rfl
  | succ k ih => unfold State.addRecs; simp only []; split <;> simp [ih]
@[simp] theorem State.ev_colls (code src : Nat) (a : Bytes) : (s.ev code src a).colls = s.colls := by unfold State.ev; simp only []; split <;> split <;> split <;> simp
@[simp] theorem State.flagEvents_colls (b tag new k : Nat) : (s.flagEvents b tag new k).colls = s.colls := by
  induction k with
  | zero => rfl
  | succ k ih => unfold State.flagEvents; simp only []; split <;> simp [ih]
@[simp] theorem State.charge_colls (b tag c : Nat) : (s.charge b tag c).colls = s.colls := by unfold State.charge; simp

@[simp] theorem State.addRecs_tally (code src k : Nat) (c : Bool) (a : Bytes) : (s.addRecs code src k c a).tally = s.tally := by
  induction k generalizing s c a with
  | zero => rfl
  | succ k ih => unfold State.addRecs; simp only []; split <;> simp [ih]
@[simp] theorem State.ev_tally (code src : Nat) (a : Bytes) : (s.ev code src a).tally = s.tally := by unfold State.ev; simp only []; split <;> split <;> split <;> simp
@[simp] theorem State.flagEvents_tally (b tag new k : Nat) : (s.flagEvents b tag new k).tally = s.tally := by
  induction k with
  | zero => rfl
  | succ k ih => unfold State.flagEvents; simp only []; split <;> simp [ih]
@[simp] theorem State.charge_tally (b tag c : Nat) : (s.charge b tag c).tally = s.tally := by unfold State.charge; simp

@[simp] theorem State.addRecs_ended (code src k : Nat) (c : Bool) (a : Bytes) : (s.addRecs code src k c a).ended = s.ended := by
  induction k generalizing s c a with
  | zero => rfl
  | succ k ih => unfold State.addRecs; simp only []; split <;> simp [ih]
@[simp] theorem State.ev_ended (code src : Nat) (a : Bytes) : (s.ev code src a).ended = s.ended := by unfold State.ev; simp only []; split <;> split <;> split <;> simp
@[simp] theorem State.flagEvents_ended (b tag new k : Nat) : (s.flagEvents b tag new k).ended = s.ended := by
  induction k with
  | zero => rfl
  | succ k ih => unfold State.flagEvents; simp only []; split <;> simp [ih]
@[simp] theorem State.charge_ended (b tag c : Nat) : (s.charge b tag c).ended = s.ended := by unfold State.charge; simp

@[simp] theorem State.addRecs_lateLog (code src k : Nat) (c : Bool) (a : Bytes) : (s.addRecs code src k c a).lateLog = s.lateLog := by
  induction k generalizing s c a with
  | zero => rfl
  | succ k ih => unfold State.addRecs; simp only []; split <;> simp [ih]
@[simp] theorem State.ev_lateLog (code src : Nat) (a : Bytes) : (s.ev code src a).lateLog = s.lateLog := by unfold State.ev; simp only []; split <;> split <;> split <;> simp
@[simp] theorem State.flagEvents_lateLog (b tag new k : Nat) : (s.flagEvents b tag new k).lateLog = s.lateLog := by
  induction k with
  | zero => rfl
  | succ k ih => unfold State.flagEvents; simp only []; split <;> simp [ih]
@[simp] theorem State.charge_lateLog (b tag c : Nat) : (s.charge b tag c).lateLog = s.lateLog := by unfold State.charge; simp

@[simp] theorem State.addRecs_early (code src k : Nat) (c : Bool) (a : Bytes) : (s.addRecs code src k c a).early = s.early := by
  induction k generalizing s c a with
  | zero => rfl
  | succ k ih => unfold State.addRecs; simp only []; split <;> simp [ih]
@[simp] theorem State.ev_early (code src : Nat) (a : Bytes) : (s.ev code src a).early = s.early := by unfold State.ev; simp only []; split <;> split <;> split <;> simp
@[simp] theorem State.flagEvents_early (b tag new k : Nat) : (s.flagEvents b tag new k).early = s.early := by
  induction k with
  | zero => rfl
  | succ k ih => unfold State.flagEvents; simp only []; split <;> simp [ih]
@[simp] theorem State.charge_early (b tag c : Nat) : (s.charge b tag c).early = s.early := by unfold State.charge; simp

@[simp] theorem State.addRecs_straps (code src k : Nat) (c : Bool) (a : Bytes) : (s.addRecs code src k c a).straps = s.straps := by
  induction k generalizing s c a with
  | zero => rfl
  | succ k ih => unfold State.addRecs; simp only []; split <;> simp [ih]
@[simp] theorem State.ev_straps (code src : Nat) (a : Bytes) : (s.ev code src a).straps = s.straps := by unfold State.ev; simp only []; split <;> split <;> split <;> simp
@[simp] theorem State.flagEvents_straps (b tag new k : Nat) : (s.flagEvents b tag new k).straps = s.straps := by
  induction k with
  | zero => rfl
  | succ k ih => unfold State.flagEvents; simp only []; split <;> simp [ih]
@[simp] theorem State.charge_straps (b tag c : Nat) : (s.charge b tag c).straps = s.straps := by unfold State.charge; simp

@[simp] theorem State.addRecs_pci (code src k : Nat) (c : Bool) (a : Bytes) : (s.addRecs code src k c a).pci = s.pci := by
  induction k generalizing s c a with
  | zero => rfl
  | succ k ih => unfold State.addRecs; simp only []; split <;> simp [ih]
@[simp] theorem State.ev_pci (code src : Nat) (a : Bytes) : (s.ev code src a).pci = s.pci := by unfold State.ev; simp only []; split <;> split <;> split <;> simp
@[simp] theorem State.flagEvents_pci (b tag new k : Nat) : (s.flagEvents b tag new k).pci = s.pci := by
  induction k with
  | zero => rfl
  | succ k ih => unfold State.flagEvents; simp only []; split <;> simp [ih]
@[simp] theorem State.charge_pci (b tag c : Nat) : (s.charge b tag c).pci = s.pci := by unfold State.charge; simp

@[simp] theorem State.addRecs_released (code src k : Nat) (c : Bool) (a : Bytes) : (s.addRecs code src k c a).released = s.released := by
  induction k generalizing s c a with
  | zero => rfl
  | succ k ih => unfold State.addRecs; simp only []; split <;> simp [ih]
@[simp] theorem State.ev_released (code src : Nat) (a : Bytes) : (s.ev code src a).released = s.released := by unfold State.ev; simp only []; split <;> split <;> split <;> simp
@[simp] theorem State.flagEvents_released (b tag new k : Nat) : (s.flagEvents b tag new k).released = s.released := by
  induction k with
  | zero => rfl
  | succ k ih => unfold State.flagEvents; simp only []; split <;> simp [ih]
@[simp] theorem State.charge_released (b tag c : Nat) : (s.charge b tag c).released = s.released := by unfold State.charge; simp

@[simp] theorem State.addRecs_cores (code src k : Nat) (c : Bool) (a : Bytes) : (s.addRecs code src k c a).cores = s.cores := by
  induction k generalizing s c a with
  | zero => rfl
  | succ k ih => unfold State.addRecs; simp only []; split <;> simp [ih]
@[simp] theorem State.ev_cores (code src : Nat) (a : Bytes) : (s.ev code src a).cores = s.cores := by unfold State.ev; simp only []; split <;> split <;> split <;> simp
@[simp] theorem State.flagEvents_cores (b tag new k : Nat) : (s.flagEvents b tag new k).cores = s.cores := by
  induction k with
  | zero => rfl
  | succ k ih => unfold State.flagEvents; simp only []; split <;> simp [ih]
@[simp] theorem State.charge_cores (b tag c : Nat) : (s.charge b tag c).cores = s.cores := by unfold State.charge; simp

@[simp] theorem State.addRecs_l2 (code src k : Nat) (c : Bool) (a : Bytes) : (s.addRecs code src k c a).l2 = s.l2 := by
  induction k generalizing s c a with
  | zero => rfl
  | succ k ih => unfold State.addRecs; simp only []; split <;> simp [ih]
@[simp] theorem State.ev_l2 (code src : Nat) (a : Bytes) : (s.ev code src a).l2 = s.l2 := by unfold State.ev; simp only []; split <;> split <;> split <;> simp
@[simp] theorem State.flagEvents_l2 (b tag new k : Nat) : (s.flagEvents b tag new k).l2 = s.l2 := by
  induction k with
  | zero => rfl
  | succ k ih => unfold State.flagEvents; simp only []; split <;> simp [ih]
@[simp] theorem State.charge_l2 (b tag c : Nat) : (s.charge b tag c).l2 = s.l2 := by unfold State.charge; simp

@[simp] theorem State.addRecs_modules (code src k : Nat) (c : Bool) (a : Bytes) : (s.addRecs code src k c a).modules = s.modules := by
  induction k generalizing s c a with
  | zero => rfl
  | succ k ih => unfold State.addRecs; simp only []; split <;> simp [ih]
@[simp] theorem State.ev_modules (code src : Nat) (a : Bytes) : (s.ev code src a).modules = s.modules := by unfold State.ev; simp only []; split <;> split <;> split <;> simp
@[simp] theorem State.flagEvents_modules (b tag new k : Nat) : (s.flagEvents b tag new k).modules = s.modules := by
  induction k with
  | zero => rfl
  | succ k ih => unfold State.flagEvents; simp only []; split <;> simp [ih]
@[simp] theorem State.charge_modules (b tag c : Nat) : (s.charge b tag c).modules = s.modules := by unfold State.charge; simp

@[simp] theorem State.addRecs_runs (code src k : Nat) (c : Bool) (a : Bytes) : (s.addRecs code src k c a).runs = s.runs := by
  induction k generalizing s c a with
  | zero => rfl
  | succ k ih => unfold State.addRecs; simp only []; split <;> simp [ih]
@[simp] theorem State.ev_runs (code src : Nat) (a : Bytes) : (s.ev code src a).runs = s.runs := by unfold State.ev; simp only []; split <;> split <;> split <;> simp
@[simp] theorem State.flagEvents_runs (b tag new k : Nat) : (s.flagEvents b tag new k).runs = s.runs := by
  induction k with
  | zero => rfl
  | succ k ih => unfold State.flagEvents; simp only []; split <;> simp [ih]
@[simp] theorem State.charge_runs (b tag c : Nat) : (s.charge b tag c).runs = s.runs := by unfold State.charge; simp

@[simp] theorem State.addRecs_repro (code src k : Nat) (c : Bool) (a : Bytes) : (s.addRecs code src k c a).repro = s.repro := by
  induction k generalizing s c a with
  | zero => rfl
  | succ k ih => unfold State.addRecs; simp only []; split <;> simp [ih]
@[simp] theorem State.ev_repro (code src : Nat) (a : Bytes) : (s.ev code src a).repro = s.repro := by unfold State.ev; simp only []; split <;> split <;> split <;> simp
@[simp] theorem State.flagEvents_repro (b tag new k : Nat) : (s.flagEvents b tag new k).repro = s.repro := by
  induction k with
  | zero => rfl
  | succ k ih => unfold State.flagEvents; simp only []; split <;> simp [ih]
@[simp] theorem State.charge_repro (b tag c : Nat) : (s.charge b tag c).repro = s.repro := by unfold State.charge; simp

@[simp] theorem State.addRecs_rings (code src k : Nat) (c : Bool) (a : Bytes) : (s.addRecs code src k c a).rings = s.rings := by
  induction k generalizing s c a with
  | zero => rfl
  | succ k ih => unfold State.addRecs; simp only []; split <;> simp [ih]
@[simp] theorem State.ev_rings (code src : Nat) (a : Bytes) : (s.ev code src a).rings = s.rings := by unfold State.ev; simp only []; split <;> split <;> split <;> simp
@[simp] theorem State.flagEvents_rings (b tag new k : Nat) : (s.flagEvents b tag new k).rings = s.rings := by
  induction k with
  | zero => rfl
  | succ k ih => unfold State.flagEvents; simp only []; split <;> simp [ih]
@[simp] theorem State.charge_rings (b tag c : Nat) : (s.charge b tag c).rings = s.rings := by unfold State.charge; simp

@[simp] theorem State.addRecs_members (code src k : Nat) (c : Bool) (a : Bytes) : (s.addRecs code src k c a).members = s.members := by
  induction k generalizing s c a with
  | zero => rfl
  | succ k ih => unfold State.addRecs; simp only []; split <;> simp [ih]
@[simp] theorem State.ev_members (code src : Nat) (a : Bytes) : (s.ev code src a).members = s.members := by unfold State.ev; simp only []; split <;> split <;> split <;> simp
@[simp] theorem State.flagEvents_members (b tag new k : Nat) : (s.flagEvents b tag new k).members = s.members := by
  induction k with
  | zero => rfl
  | succ k ih => unfold State.flagEvents; simp only []; split <;> simp [ih]
@[simp] theorem State.charge_members (b tag c : Nat) : (s.charge b tag c).members = s.members := by unfold State.charge; simp

@[simp] theorem State.addRecs_cm (code src k : Nat) (c : Bool) (a : Bytes) : (s.addRecs code src k c a).cm = s.cm := by
  induction k generalizing s c a with
  | zero => rfl
  | succ k ih => unfold State.addRecs; simp only []; split <;> simp [ih]
@[simp] theorem State.ev_cm (code src : Nat) (a : Bytes) : (s.ev code src a).cm = s.cm := by unfold State.ev; simp only []; split <;> split <;> split <;> simp
@[simp] theorem State.flagEvents_cm (b tag new k : Nat) : (s.flagEvents b tag new k).cm = s.cm := by
  induction k with
  | zero => rfl
  | succ k ih => unfold State.flagEvents; simp only []; split <;> simp [ih]
@[simp] theorem State.charge_cm (b tag c : Nat) : (s.charge b tag c).cm = s.cm := by unfold State.charge; simp

@[simp] theorem State.addRecs_mb (code src k : Nat) (c : Bool) (a : Bytes) : (s.addRecs code src k c a).mb = s.mb := by
  induction k generalizing s c a with
  | zero => rfl
  | succ k ih => unfold State.addRecs; simp only []; split <;> simp [ih]
@[simp] theorem State.ev_mb (code src : Nat) (a : Bytes) : (s.ev code src a).mb = s.mb := by unfold State.ev; simp only []; split <;> split <;> split <;> simp
@[simp] theorem State.flagEvents_mb (b tag new k : Nat) : (s.flagEvents b tag new k).mb = s.mb := by
  induction k with
  | zero => rfl
  | succ k ih => unfold State.flagEvents; simp only []; split <;> simp [ih]
@[simp] theorem State.charge_mb (b tag c : Nat) : (s.charge b tag c).mb = s.mb := by unfold State.charge; simp

@[simp] theorem State.addRecs_bridge (code src k : Nat) (c : Bool) (a : Bytes) : (s.addRecs code src k c a).bridge = s.bridge := by
  induction k generalizing s c a with
  | zero => rfl
  | succ k ih => unfold State.addRecs; simp only []; split <;> simp [ih]
@[simp] theorem State.ev_bridge (code src : Nat) (a : Bytes) : (s.ev code src a).bridge = s.bridge := by unfold State.ev; simp only []; split <;> split <;> split <;> simp
@[simp] theorem State.flagEvents_bridge (b tag new k : Nat) : (s.flagEvents b tag new k).bridge = s.bridge := by
  induction k with
  | zero => rfl
  | succ k ih => unfold State.flagEvents; simp only []; split <;> simp [ih]
@[simp] theorem State.charge_bridge (b tag c : Nat) : (s.charge b tag c).bridge = s.bridge := by unfold State.charge; simp

@[simp] theorem State.addRecs_gate (code src k : Nat) (c : Bool) (a : Bytes) : (s.addRecs code src k c a).gate = s.gate := by
  induction k generalizing s c a with
  | zero => rfl
  | succ k ih => unfold State.addRecs; simp only []; split <;> simp [ih]
@[simp] theorem State.ev_gate (code src : Nat) (a : Bytes) : (s.ev code src a).gate = s.gate := by unfold State.ev; simp only []; split <;> split <;> split <;> simp
@[simp] theorem State.flagEvents_gate (b tag new k : Nat) : (s.flagEvents b tag new k).gate = s.gate := by
  induction k with
  | zero => rfl
  | succ k ih => unfold State.flagEvents; simp only []; split <;> simp [ih]
@[simp] theorem State.charge_gate (b tag c : Nat) : (s.charge b tag c).gate = s.gate := by unfold State.charge; simp

@[simp] theorem State.addRecs_pwr (code src k : Nat) (c : Bool) (a : Bytes) : (s.addRecs code src k c a).pwr = s.pwr := by
  induction k generalizing s c a with
  | zero => rfl
  | succ k ih => unfold State.addRecs; simp only []; split <;> simp [ih]
@[simp] theorem State.ev_pwr (code src : Nat) (a : Bytes) : (s.ev code src a).pwr = s.pwr := by unfold State.ev; simp only []; split <;> split <;> split <;> simp
@[simp] theorem State.flagEvents_pwr (b tag new k : Nat) : (s.flagEvents b tag new k).pwr = s.pwr := by
  induction k with
  | zero => rfl
  | succ k ih => unfold State.flagEvents; simp only []; split <;> simp [ih]
@[simp] theorem State.charge_pwr (b tag c : Nat) : (s.charge b tag c).pwr = s.pwr := by unfold State.charge; simp

@[simp] theorem State.addRecs_held (code src k : Nat) (c : Bool) (a : Bytes) : (s.addRecs code src k c a).held = s.held := by
  induction k generalizing s c a with
  | zero => rfl
  | succ k ih => unfold State.addRecs; simp only []; split <;> simp [ih]
@[simp] theorem State.ev_held (code src : Nat) (a : Bytes) : (s.ev code src a).held = s.held := by unfold State.ev; simp only []; split <;> split <;> split <;> simp
@[simp] theorem State.flagEvents_held (b tag new k : Nat) : (s.flagEvents b tag new k).held = s.held := by
  induction k with
  | zero => rfl
  | succ k ih => unfold State.flagEvents; simp only []; split <;> simp [ih]
@[simp] theorem State.charge_held (b tag c : Nat) : (s.charge b tag c).held = s.held := by unfold State.charge; simp

@[simp] theorem State.addRecs_cmBox (code src k : Nat) (c : Bool) (a : Bytes) : (s.addRecs code src k c a).cmBox = s.cmBox := by
  induction k generalizing s c a with
  | zero => rfl
  | succ k ih => unfold State.addRecs; simp only []; split <;> simp [ih]
@[simp] theorem State.ev_cmBox (code src : Nat) (a : Bytes) : (s.ev code src a).cmBox = s.cmBox := by unfold State.ev; simp only []; split <;> split <;> split <;> simp
@[simp] theorem State.flagEvents_cmBox (b tag new k : Nat) : (s.flagEvents b tag new k).cmBox = s.cmBox := by
  induction k with
  | zero => rfl
  | succ k ih => unfold State.flagEvents; simp only []; split <;> simp [ih]
@[simp] theorem State.charge_cmBox (b tag c : Nat) : (s.charge b tag c).cmBox = s.cmBox := by unfold State.charge; simp

@[simp] theorem State.addRecs_benches (code src k : Nat) (c : Bool) (a : Bytes) : (s.addRecs code src k c a).benches = s.benches := by
  induction k generalizing s c a with
  | zero => rfl
  | succ k ih => unfold State.addRecs; simp only []; split <;> simp [ih]
@[simp] theorem State.ev_benches (code src : Nat) (a : Bytes) : (s.ev code src a).benches = s.benches := by unfold State.ev; simp only []; split <;> split <;> split <;> simp
@[simp] theorem State.flagEvents_benches (b tag new k : Nat) : (s.flagEvents b tag new k).benches = s.benches := by
  induction k with
  | zero => rfl
  | succ k ih => unfold State.flagEvents; simp only []; split <;> simp [ih]
@[simp] theorem State.charge_benches (b tag c : Nat) : (s.charge b tag c).benches = s.benches := by unfold State.charge; simp

/-- Reading back the part that an update sets. -/
@[simp] theorem State.bench_setBench (b : Fin 24) (x : Bench) : (s.setBench b x).bench b = x := by simp [State.bench, State.setBench]
@[simp] theorem State.bench_modBench (b : Fin 24) (f : Bench → Bench) : (s.modBench b f).bench b = f (s.bench b) := by simp [State.modBench]
theorem State.bench_setBench_ne (b c : Fin 24) (x : Bench) (h : b ≠ c) : (s.setBench b x).bench c = s.bench c := by
  simp only [State.bench, State.setBench]; exact Vector.getElem_set_ne _ _ (fun e => h (Fin.ext e))
@[simp] theorem State.core_modCore (b : Fin 24) (f : Core → Core) : (s.modCore b f).core b = f (s.core b) := by simp [State.core, State.modCore]
@[simp] theorem State.dk_modDk (d : Fin 48) (f : Dk → Dk) : (s.modDk d f).dk d = f (s.dk d) := by simp [State.dk, State.modDk]
@[simp] theorem State.ue_modUe (k : Fin 8) (f : Ue → Ue) : (s.modUe k f).ue k = f (s.ue k) := by simp [State.ue, State.modUe]
@[simp] theorem State.coll_modColl (u : Fin 4) (f : Coll → Coll) : (s.modColl u f).coll u = f (s.coll u) := by simp [State.coll, State.modColl]
@[simp] theorem State.ring_modRing (r : Fin 64) (f : Ring → Ring) : (s.modRing r f).ring r = f (s.ring r) := by simp [State.ring, State.modRing]
@[simp] theorem State.port_modPort (p : Fin 16) (f : Port → Port) : (s.modPort p f).port p = f (s.port p) := by simp [State.port, State.modPort]

end Sys2Proof.Machine
end

