-- ==== Sys2Proof/Laws/Ops.lean ====
section
/-! SUPPORT. What the shared operations do: a register reads as it was last set, a byte as it was last written, an event changes only the log, the outputs
and the registers, and each operation keeps the canonical form and the queue of waiting commands. -/
namespace Sys2Proof.Machine

/-- What every operation below a step does: the queue stays, and the canonical form with it. -/
def State.Keeps (s t : State) : Prop := t.pending = s.pending ∧ (s.canonical = true → t.canonical = true)

theorem State.Keeps.refl (s : State) : s.Keeps s := ⟨rfl, id⟩
theorem State.Keeps.trans {s t u : State} (h : s.Keeps t) (k : t.Keeps u) : s.Keeps u := ⟨k.1.trans h.1, fun c => k.2 (h.2 c)⟩
/-- A fold of steps that keep keeps. -/
theorem State.Keeps.foldl {α : Type} {f : State → α → State} (h : ∀ (s : State) (a : α), s.Keeps (f s a)) : ∀ (l : List α) (s : State), s.Keeps (l.foldl f s)
  | [], s => .refl s
  | a :: r, s => (h s a).trans (State.Keeps.foldl h r (f s a))
/-- An update of fields outside the sparse parts and the queue keeps. -/
theorem State.Keeps.of_eq {s t : State} (p : t.pending = s.pending) (m : t.mem = s.mem) (q : t.poison = s.poison) (r : t.regs = s.regs) (y : t.sync = s.sync) : s.Keeps t :=
  ⟨p, fun h => by simpa [State.canonical, m, q, r, y] using h⟩

/-- The parts of the canonical form. -/
theorem State.canonical_iff (s : State) : s.canonical = true ↔
    Memory.wf s.mem = true ∧ SSet.wfFrom 0 s.poison = true ∧ SMap.wf regReset s.regs = true ∧ SMap.wf (fun _ => 0) s.sync = true := by
  simp [State.canonical, and_assoc]

/-! ## Registers -/

theorem State.setReg_keeps (s : State) (a : Nat) (v : W64) : s.Keeps (s.setReg a v) :=
  ⟨rfl, fun h => by
    have h := (State.canonical_iff s).1 h
    exact (State.canonical_iff _).2 ⟨h.1, h.2.1, SMap.set_wf a v h.2.2.1, h.2.2.2⟩⟩
theorem State.setRn_keeps (s : State) (a v : Nat) : s.Keeps (s.setRn a v) := s.setReg_keeps a _
theorem State.setFld_keeps (s : State) (a hi lo v : Nat) : s.Keeps (s.setFld a hi lo v) := s.setRn_keeps a _
theorem State.addReg_keeps (s : State) (a n : Nat) : s.Keeps (s.addReg a n) := s.setRn_keeps a _
theorem State.resetRegs_keeps (s : State) (lo hi : Nat) : s.Keeps (s.resetRegs lo hi) :=
  ⟨rfl, fun h => by
    have h := (State.canonical_iff s).1 h
    refine (State.canonical_iff _).2 ⟨h.1, h.2.1, ?_, h.2.2.2⟩
    simp only [State.resetRegs]
    exact SMap.keep_wf h.2.2.1⟩

/-- A register reads as it was last set, and every other as before. -/
theorem State.reg_setReg {s : State} (h : s.canonical = true) (a b : Nat) (v : W64) : (s.setReg a v).reg b = if b = a then v else s.reg b :=
  SMap.get_set a b v ((State.canonical_iff s).1 h).2.2.1
theorem State.rn_setRn {s : State} (h : s.canonical = true) (a b v : Nat) : (s.setRn a v).rn b = if b = a then v % 2 ^ 64 else s.rn b := by
  unfold State.rn State.setRn
  rw [State.reg_setReg h]
  split
  · rw [BitVec.toNat_ofNat]
  · rfl
theorem State.rn_addReg {s : State} (h : s.canonical = true) (a b n : Nat) : (s.addReg a n).rn b = if b = a then (s.rn a + n) % 2 ^ 64 else s.rn b := State.rn_setRn h a b _

/-! ## Memory -/

theorem State.wr_keeps (s : State) (a : Nat) (b : Bytes) : s.Keeps (s.wr a b) :=
  ⟨rfl, fun h => by
    have h := (State.canonical_iff s).1 h
    exact (State.canonical_iff _).2 ⟨putMem_wf _ b _ a h.1, SSet.filter_wfFrom h.2.1, h.2.2.1, h.2.2.2⟩⟩
theorem State.wrLe_keeps (s : State) (a n v : Nat) : s.Keeps (s.wrLe a n v) := s.wr_keeps a _
theorem State.poisonLine_keeps (s : State) (a : Nat) : s.Keeps (s.poisonLine a) :=
  ⟨rfl, fun h => by
    have h := (State.canonical_iff s).1 h
    exact (State.canonical_iff _).2 ⟨h.1, SSet.insert_wfFrom (Nat.zero_le _) h.2.1, h.2.2.1, h.2.2.2⟩⟩

/-- What bytes put one after another leave at an address: the byte put there if it may be written, and what was there otherwise. -/
theorem putMem_get (ok : Nat → Bool) : ∀ (b : Bytes) (m : List (Nat × Byte)) (a x : Nat), Memory.wf m = true →
    SMap.get (fun _ => (0 : Byte)) (putMem ok m a b) x = if a ≤ x ∧ x < a + b.length ∧ ok x = true then b.getD (x - a) 0 else SMap.get (fun _ => 0) m x := by
  intro b
  induction b with
  | nil => intro m a x _; rw [if_neg (by simp; omega)]; rfl
  | cons c r ih =>
    intro m a x h
    have hw : Memory.wf (if ok a = true then SMap.set (fun _ => 0) m a c else m) = true := by
      split
      · exact SMap.set_wf a c h
      · exact h
    unfold putMem
    rw [ih _ (a + 1) x hw]
    by_cases hx : x = a
    · subst hx
      rw [if_neg (by omega)]
      by_cases ho : ok x = true
      · rw [if_pos ho, SMap.get_set x x c h, if_pos rfl, if_pos (by simp [ho])]; simp
      · rw [if_neg ho, if_neg (by simp [ho])]
    · have hg : SMap.get (fun _ => (0 : Byte)) (if ok a = true then SMap.set (fun _ => 0) m a c else m) x = SMap.get (fun _ => 0) m x := by
        split
        · rw [SMap.get_set a x c h, if_neg hx]
        · rfl
      rw [hg]
      by_cases hin : a + 1 ≤ x ∧ x < a + 1 + r.length ∧ ok x = true
      · rw [if_pos hin, if_pos ⟨by omega, by have := hin.2.1; rw [List.length_cons]; omega, hin.2.2⟩]
        obtain ⟨k, rfl⟩ : ∃ k, x = a + 1 + k := ⟨x - (a + 1), by omega⟩
        rw [show a + 1 + k - (a + 1) = k by omega, show a + 1 + k - a = k + 1 by omega]
        rfl
      · rw [if_neg hin, if_neg (fun g => hin ⟨by have := g.1; omega, by have := g.2.1; rw [List.length_cons] at this; omega, g.2.2⟩)]

/-- A byte of memory after a write: the byte written where the range covers it, its address is mapped and its line does not stay poisoned; as before elsewhere. -/
theorem State.byte_wr {s : State} (h : s.canonical = true) (a x : Nat) (b : Bytes) :
    (s.wr a b).byte x = if a ≤ x ∧ x < a + b.length ∧ (s.mapped x && !(s.poison.filter (fun l => !fullLine a b.length l)).contains (x / 64)) = true
      then b.getD (x - a) 0 else s.byte x :=
  putMem_get _ b s.mem a x ((State.canonical_iff s).1 h).1

/-! ## Sync counters -/

theorem State.setSync_keeps (s : State) (i v : Nat) : s.Keeps (s.setSync i v) :=
  ⟨rfl, fun h => by
    have h := (State.canonical_iff s).1 h
    exact (State.canonical_iff _).2 ⟨h.1, h.2.1, h.2.2.1, SMap.set_wf i _ h.2.2.2⟩⟩
theorem State.addSync_keeps (s : State) (i n : Nat) : s.Keeps (s.addSync i n) := s.setSync_keeps i _
theorem State.syncVal_addSync {s : State} (h : s.canonical = true) (i j n : Nat) :
    (s.addSync i n).syncVal j = if j = i then (s.syncVal i + n) % 2 ^ 64 else s.syncVal j :=
  SMap.get_set i j _ ((State.canonical_iff s).1 h).2.2.2

/-! ## Interrupts, events and bench flags -/

/-- What an interrupt, an event or a flag can change: the log, the outputs and registers. -/
def State.Notes (s t : State) : Prop :=
  t = { s with log := t.log, logSeq := t.logSeq, flashLog := t.flashLog, flashSeq := t.flashSeq, out := t.out, regs := t.regs } ∧ (s.canonical = true → t.canonical = true)

theorem State.Notes.refl (s : State) : s.Notes s := ⟨rfl, id⟩
theorem State.Notes.trans {s t u : State} (h : s.Notes t) (k : t.Notes u) : s.Notes u := by
  refine ⟨?_, fun c => k.2 (h.2 c)⟩
  have h1 := h.1
  have k1 := k.1
  rw [k1, h1]
theorem State.Notes.keeps {s t : State} (h : s.Notes t) : s.Keeps t := ⟨by rw [h.1], h.2⟩
theorem State.setRn_notes (s : State) (a v : Nat) : s.Notes (s.setRn a v) := ⟨rfl, (s.setRn_keeps a v).2⟩
theorem State.emit_notes (s : State) (o : Out) : s.Notes (s.emit o) := ⟨rfl, id⟩

theorem State.sendVector_notes (s : State) (v : Nat) : s.Notes (s.sendVector v) := by
  unfold State.sendVector
  split
  · exact s.emit_notes _
  · exact s.setRn_notes _ _
/-- An interrupt source raised: a vector out, a pending bit, or nothing (R368). -/
theorem State.raise_notes (s : State) (src : Nat) : s.Notes (s.raise src) := by
  unfold State.raise
  split
  · exact s.sendVector_notes _
  · exact .refl s
theorem State.addRec_notes (s : State) (r : LogRec) : s.Notes (s.addRec r) := by
  unfold State.addRec
  split
  · exact ⟨rfl, id⟩
  · exact ⟨rfl, id⟩
theorem State.addRecs_notes (code src : Nat) : ∀ (k : Nat) (s : State) (c : Bool) (b : Bytes), s.Notes (s.addRecs code src k c b)
  | 0, s, _, _ => .refl s
  | k + 1, s, c, b => by
    unfold State.addRecs
    simp only
    split
    · exact s.addRec_notes _
    · exact (s.addRec_notes _).trans (State.addRecs_notes code src k _ true _)
/-- An event changes the log, and through its interrupts the outputs and the pending bits; nothing else (R368, R380 to R382). -/
theorem State.ev_notes (s : State) (code src : Nat) (b : Bytes) : s.Notes (s.ev code src b) := by
  have cond : ∀ (p : Prop) [Decidable p] (t : State) (n : Nat), t.Notes (if p then t.raise n else t) := by
    intro p _ t n
    split
    · exact t.raise_notes n
    · exact .refl t
  unfold State.ev
  exact (((State.addRecs_notes code src 8 s false b).trans (cond _ _ _)).trans (cond _ _ _)).trans (cond _ _ _)
theorem State.ev_keeps (s : State) (code src : Nat) (b : Bytes) : s.Keeps (s.ev code src b) := (s.ev_notes code src b).keeps
theorem State.flagEvents_notes (b tag new : Nat) : ∀ (k : Nat) (s : State), s.Notes (s.flagEvents b tag new k)
  | 0, s => .refl s
  | k + 1, s => by
    unfold State.flagEvents
    simp only
    split
    · exact (State.flagEvents_notes b tag new k s).trans (State.ev_notes _ _ _ _)
    · exact State.flagEvents_notes b tag new k s
/-- Conditions charged to a bench change its sticky flags and log FLAG_RAISED; nothing else (R78 to R80). -/
theorem State.charge_notes (s : State) (b tag c : Nat) : s.Notes (s.charge b tag c) := (s.setRn_notes _ _).trans (State.flagEvents_notes _ _ _ 4 _)

/-! ## Queues -/

/-- The four things that a row of an engine can do with the head of a queue (R110, R111, R425). -/
theorem dispatch_cases (s : State) (q : EQ) (known : List Nat) (op : Nat) (onPar : State) (onBad f : Cmd → State) :
    dispatch s q known op onPar onBad f = s
    ∨ (∃ c, q.head? = some c ∧ c.parOk = false ∧ dispatch s q known op onPar onBad f = onPar)
    ∨ (∃ c, q.ready op c = true ∧ dispatch s q known op onPar onBad f = f c)
    ∨ (∃ c, q.head? = some c ∧ c.parOk = true ∧ c.op ≠ op ∧ known.contains c.op = false ∧ dispatch s q known op onPar onBad f = onBad c) := by
  unfold dispatch
  split
  · exact .inl rfl
  · next c hc =>
    split
    · next hp => exact .inr (.inl ⟨c, hc, by simpa using hp, rfl⟩)
    · next hp =>
      have hp : c.parOk = true := by simpa using hp
      split
      · next ho => exact .inr (.inr (.inl ⟨c, by simp [EQ.ready, hc, hp, ho], rfl⟩))
      · next ho =>
        split
        · exact .inl rfl
        · next hk => exact .inr (.inr (.inr ⟨c, hc, hp, ho, by simpa using hk, rfl⟩))

end Sys2Proof.Machine
end

