-- ==== Sys2Proof/Tests/Slice0.lean ====
section
/-! SUPPORT. Tests: ill-formed commands refused, control-core words written out from R281, worked values, and for each statement a witness that
its hypotheses can hold. The name wit_X says that the witness is for the statement Obligations.X. -/
namespace Sys2Proof.Tests
open Sys2Proof.Machine

set_option Elab.async false

/-! ## Helpers -/

/-- A command of words, with its parity. -/
def cm (ws : List Nat) : Cmd := Cmd.withPar ((ws ++ List.replicate (8 - ws.length) 0).map (BitVec.ofNat 64))
/-- A queue that holds one command. -/
def one (c : Cmd) : EQ := { cmds := [c] }
/-- The reset state with bench 0 changed. -/
def onBench (f : Bench → Bench) : State := State.reset.modBench 0 f
/-- The reset state with a command in the queue of bench 0. -/
def benchHas (c : Cmd) : State := onBench (fun x => { x with q := one c })
/-- Bench 0. -/
def b0 : Fin 24 := 0

/-! ## Ill-formed commands (one term for each check of WellFormed) -/

/-- Fields of a wire that is right but for what the tests change. -/
def okWire : Wire := { kind := 0 }
def okFlit : Flit := { src := 1, dst := 2, typ := 0, id := 0, payload := [] }

theorem test_wf_access : Instr.wf (.registerWrite true 0x020000000000 8 5) = true ∧ Instr.wf (.registerWrite true (2 ^ 48) 8 5) = false
    ∧ Instr.wf (.registerWrite true 0x020000000000 2 5) = false ∧ Instr.wf (.registerWrite true 0x020000000004 8 5) = false
    ∧ Instr.wf (.registerWrite true 0x020000000000 4 (2 ^ 32)) = false := by decide +kernel
theorem test_wf_lines : Instr.wf (.addWrite 0 [1]) = true ∧ Instr.wf (.addWrite (2 ^ 48) [1]) = false ∧ Instr.wf (.addWrite 0 []) = false ∧ Instr.wf (.addWrite 63 [1, 2]) = false
    ∧ Instr.wf (.localStoreWrite 0 (2 ^ 24) [1]) = false ∧ Instr.wf (.localStoreWrite 0 0 []) = false ∧ Instr.wf (.localStoreWrite 0 63 [1, 2]) = false := by decide +kernel
theorem test_wf_wires : Instr.wf (.idleFlit 0 okWire) = true ∧ Instr.wf (.idleFlit 0 { okWire with kind := 1 }) = false ∧ Instr.wf (.idleFlit 0 { okWire with vc := 8 }) = false
    ∧ Instr.wf (.idleFlit 0 { okWire with lseq := 4096 }) = false ∧ Instr.wf (.idleFlit 0 { okWire with ack := 4096 }) = false ∧ Instr.wf (.idleFlit 0 { okWire with crvc := 8 }) = false
    ∧ Instr.wf (.idleFlit 0 { okWire with crn := 256 }) = false ∧ Instr.wf (.idleFlit 0 { okWire with area := List.replicate 57 0 }) = false
    ∧ Instr.wf (.idleFlit 0 { okWire with data := some okFlit }) = false ∧ Instr.wf (.dataFlit 0 { okWire with kind := 1 } .good) = false
    ∧ Instr.wf (.dataFlit 0 { okWire with kind := 1, data := some okFlit } .good) = true ∧ Instr.wf (.nak 0 okWire) = false := by decide +kernel
theorem test_wf_flits : wfFlit okFlit = true ∧ wfFlit { okFlit with src := 65536 } = false ∧ wfFlit { okFlit with dst := 65536 } = false ∧ wfFlit { okFlit with typ := 256 } = false
    ∧ wfFlit { okFlit with id := 2 ^ 64 } = false ∧ wfFlit { okFlit with pseq := 2 ^ 32 } = false ∧ wfFlit { okFlit with gwDev := 65536 } = false ∧ wfFlit { okFlit with gwPort := 8 } = false
    ∧ wfFlit { okFlit with esc := 8 } = false ∧ wfFlit { okFlit with hops := 256 } = false ∧ wfFlit { okFlit with payload := List.replicate 225 0 } = false := by decide +kernel
theorem test_wf_members : wfStage { epoch := 1, digest := List.replicate 48 0 } = true ∧ wfStage { epoch := 2 ^ 64, digest := List.replicate 48 0 } = false
    ∧ wfStage { epoch := 1, digest := [] } = false ∧ wfStage { epoch := 1, digest := List.replicate 48 0, added := [65536] } = false
    ∧ wfStage { epoch := 1, digest := List.replicate 48 0, removed := [65536] } = false ∧ wfStage { epoch := 1, digest := List.replicate 48 0, full := some [65536] } = false
    ∧ Instr.wf (.memberDigest 1 []) = false := by decide +kernel
theorem test_wf_others : Instr.wf (.arbitrationDecision 0 [{ who := 0, cls := 0, beats := 0, left := 0 }] false) = false ∧ wfReq { who := 0, cls := 0, beats := 2, left := 1 } = false
    ∧ wfReq { who := 0, cls := 256, beats := 1, left := 1 } = false ∧ Instr.wf (.load 0 (.ok (2 ^ 48) 0 0 0 [] [] [] [] 0 0) none) = false
    ∧ Instr.wf (.load 0 (.ok 0 0 0 0 [[⟨24, [], none, .pin 0⟩]] [] [] [] 0 0) none) = false ∧ Instr.wf (.load 0 (.ok 0 0 0 0 [[⟨0, [], none, .push ⟨0, [], [], [], none⟩⟩]] [] [] [] 0 0) none) = false
    ∧ Instr.wf (.load 0 (.ok 0 0 0 0 [] [] [(2 ^ 48, [])] [] 0 0) none) = false ∧ Instr.wf (.load 0 (.ok 0 0 0 0 [] [] [] [(0, 2 ^ 48)] 0 0) none) = false ∧ wfCfg (.writeBar 0 (2 ^ 64)) = false ∧ wfCfg (.writeBar4Size 64) = false
    ∧ Instr.wf (.derrickRequest 0 (some (List.replicate 65 0)) false) = false ∧ Instr.wf (.spRetire (2 ^ 64)) = false ∧ Instr.wf (.railOvercurrent 0 (2 ^ 32)) = false
    ∧ Instr.wf (.bridgeFlit 2 0 0 false none) = false ∧ Instr.wf (.bridgeFlit 0 0 17 false none) = false := by decide +kernel

/-! ## Decoding -/

/-- No word of the table spells a command. -/
theorem test_no_table_word : decodeTableWord 32 0x12345678 = none ∧ State.reset.withFetchWord 8 0 = State.reset := ⟨rfl, rfl⟩

/-- Words written out bit by bit from R281, R282 and R284: opcode, X, Y, then Z and FN, or the immediate. -/
theorem test_ed_words :
    Ed.decode 0b000000_00001_00010_00011_00000000000 = some (.alu 0 1 2 3) ∧ Ed.decode 0b000000_00001_00010_00011_00000001100 = some (.alu 12 1 2 3)
    ∧ Ed.decode 0b000001_00101_00110_1111111111111111 = some (.imm 0 5 6 65535) ∧ Ed.decode 0b001000_00101_00000_0000000000001001 = some (.imm 7 5 0 9)
    ∧ Ed.decode 0b010011_00111_01000_0000000000001000 = some (.ld 3 7 8 8) ∧ Ed.decode 0b011010_00111_01000_0000000000000100 = some (.st 2 7 8 4)
    ∧ Ed.decode 0b100010_00001_00010_1111111111111110 = some (.br 2 1 2 65534) ∧ Ed.decode 0b101000_00000000000000000000000011 = some (.jal 3)
    ∧ Ed.decode 0b101001_11111111111111111111111111 = some (.j 67108863) ∧ Ed.decode 0b101010_00001_00010_0000000000000000 = some (.jr 1 2)
    ∧ Ed.decode 0b110000_01_000_00101_0000000000000111 = some (.loop 1 5 7) ∧ Ed.decode 0b110001_10_00000101_0000000000000111 = some (.loopi 2 5 7)
    ∧ Ed.decode 0b110010_11_000_00101_0000000000000000 = some (.lcset 3 5) ∧ Ed.decode 0b111000_00001_00010_00011_00000000010 = some (.fp 2 1 2 3)
    ∧ Ed.decode 0b111100_00000_00000_00000_00000000100 = some (.sys 4 0 0) ∧ Ed.decode 0b111101_00001_00000_00000101_00000000 = some (.que 0 1 0 5)
    ∧ Ed.decode 0b111111_00001_000000000000000000010 = some (.top 1 2) := by decide +kernel
/-- Words that R282 does not list. -/
theorem test_ed_unlisted : Ed.decode 0b000000_00001_00010_00011_00000010010 = none ∧ Ed.decode 0b001011_00001_00010_0000000000000000 = none
    ∧ Ed.decode 0b101010_00001_00010_0000000000000001 = none ∧ Ed.decode 0b111000_00001_00010_00011_00000001101 = none ∧ Ed.decode 0b111110_00000_00000_0000000000000000 = none
    ∧ Ed.decode 0b000101_00001_00010_0000000001000000 = none := by decide +kernel

/-! ## Bench queues and the array -/

/-- A TILE of 16 rows, one pass, one K pass, FIN, LX8, dense. -/
def tileCmd : Cmd := cm [0x10, 0x8000, 0x10101]
/-- The same without FIN, its partial region in the stockyard. -/
def partCmd : Cmd := cm [0x10, 0, 0x10101, 0x010000000000]
/-- The reset state with an active ring of 16 slots and an active partial window, and bench 0 changed. -/
def ring16 (f : Bench → Bench) : State :=
  (((onBench f).setRn (stageAddr 0 0x108 true) (16 * 65536)).setRn (stageAddr 0 0x110 true) 0x010000000000).setRn (stageAddr 0 0x118 true) 0x010010000000
/-- A captured tile. -/
def tileOf (c : Cmd) : Tile := captureTile (ring16 id) 0 {} c
/-- The reset state with bench 0 changed so that it holds a tile. -/
def tileState (t : Tile) (f : Bench → Bench) : State := ring16 (fun x => f { x with tiles := [t] })

theorem wit_BenchQueueCommands :
    let at_ (ws : List Nat) : Bool := ((benchHas (cm ws)).bench b0).dispatches && ((benchHas (cm ws)).bench b0).q.ready (cm ws).op (cm ws)
    at_ [0] = true ∧ (at_ [0x20] = true ∧ (cm [0x20]).w 2 ≤ (benchHas (cm [0x20])).syncVal 0) ∧ (at_ [0x20, 0, 1] = true ∧ (benchHas (cm [0x20, 0, 1])).syncVal 0 < (cm [0x20, 0, 1]).w 2)
    ∧ (at_ [0x21] = true ∧ (cm [0x21]).b 1 8 = false) ∧ (at_ [0x21, 256] = true ∧ (cm [0x21, 256]).b 1 8 = true)
    ∧ (at_ [0x30, 0x128, 5] = true ∧ (cm [0x30, 0x128, 5]).f 1 15 0 = 0x128) ∧ (at_ [0x30, 0x108, 5] = true ∧ (cm [0x30, 0x108, 5]).f 1 15 0 = 0x108)
    ∧ (at_ [0x30, 0x410, 5] = true ∧ (cm [0x30, 0x410, 5]).f 1 15 0 = 0x410) ∧ (at_ [0x30, 0x104, 5] = true ∧ (cm [0x30, 0x104, 5]).f 1 15 0 = 0x104)
    ∧ at_ [0x31] = true ∧ at_ [0x3F] = true := by decide +kernel
/-- A deferred signal: a live tile numbered before the command. -/
theorem wit_BenchQueueCommands_defer :
    let x := (onBench (fun x => { x with q := { (one (cm [0x21, 256])) with taken := 1 }, tiles := [tileOf tileCmd] })).bench b0
    x.dispatches = true ∧ x.q.ready 0x21 (cm [0x21, 256]) = true ∧ x.tileLive x.q.nextJob = true := by decide +kernel
/-- The decode of a command is by its opcode: the effect of one step. -/
theorem test_bench_sync_signal : (match exec (.benchSyncSignal b0) (benchHas (cm [0x21, 7])) with | .next t => (t.syncVal 7, (t.bench b0).q.cmds) | _ => (0, [[]])) = (1, []) := by decide +kernel
theorem test_bench_setreg : (match exec (.setreg b0) (benchHas (cm [0x30, 0x110, 0x010000000000])) with | .next t => t.rn (BN.base 0 + 0x110) | _ => 0) = 0x010000000000 := by decide +kernel

/-- NOP of opcode 0 with PAR bit 8 wrong. -/
theorem wit_BenchParityHalts : let c : Cmd := (cm []).set 0 256; ((benchHas c).bench b0).dispatches = true ∧ ((benchHas c).bench b0).q.head? = some c ∧ c.parOk = false := by decide +kernel

theorem wit_DeferredSignalAdds :
    let q : EQ := { sigs := [⟨3, 1⟩], taken := 5 }
    let late : EQ := { q with kept := [0] }
    let x : Bench := { q := q, mu := q, cr := q }
    let busy : Bench := { x with tiles := [{ tileOf tileCmd with job := 0 }] }
    let mr (i : Nat) : MasonRun := ⟨[], i, 1⟩
    (q.sigs.head? = some ⟨3, 1⟩ ∧ (∀ j ∈ q.kept, 1 ≤ j) ∧ (∀ t ∈ x.tiles, t.dead = true ∨ 1 ≤ t.job) ∧ (∀ t ∈ x.drained, 1 ≤ t.job) ∧ (∀ r ∈ x.muRun, 1 ≤ r.id) ∧ (∀ r ∈ x.crRun, 1 ≤ r.id)
      ∧ (∀ r ∈ ({ q := q } : Dk).runs, 1 ≤ r.id) ∧ (∀ r ∈ ({ q := q } : Ue).run, 1 ≤ r.id) ∧ (∀ r ∈ ({ q := q } : Coll).runs, 1 ≤ r.job) ∧ (∀ r ∈ ({ x with muRun := some (mr 1) } : Bench).muRun, 1 ≤ r.id))
    ∧ (State.reset.bench b0).q.sigs = [] ∧ (late.sigs.head? = some ⟨3, 1⟩ ∧ ∃ j ∈ late.kept, j < 1) ∧ ¬ (∀ t ∈ busy.tiles, t.dead = true ∨ 1 ≤ t.job)
    ∧ ¬ (∀ r ∈ ({ x with muRun := some (mr 0) } : Bench).muRun, 1 ≤ r.id) ∧ State.reset.canonical = true := by decide +kernel

theorem wit_BenchControlRegisters :
    let h := onBench (fun x => { x with q := { (one (cm [])) with cause := 6 } })
    (h.bench b0).out = false ∧ (h.bench b0).q.cause ≠ 0 ∧ (h.bench b0).q.cmds ≠ [] ∧ (State.reset.bench b0).out = false ∧ (State.reset.bench b0).q.cause = 0
    ∧ (State.reset.bench b0).dispatches = true ∧ ((onBench (fun x => { x with commitCmd := true })).bench b0).dispatches = false := by decide +kernel

theorem wit_CommitCopiesStageBank :
    let s := onBench (fun x => { x with commitReg := true })
    let u := s.setRn (R.BN_RING 0) (17 * 65536)
    s.canonical = true ∧ (s.bench b0).out = false ∧ ((s.bench b0).commitReg || (s.bench b0).commitCmd) = true ∧ (s.bench b0).entering? = none ∧ (s.bench b0).q.haltDue = 0
    ∧ s.validate 0 = none ∧ u.canonical = true ∧ u.validate 0 = some (4, 0x108) ∧ (u.bench b0).q.cause = 0 ∧ (u.bench b0).commitReg = true := by decide +kernel

theorem wit_TileCaptured :
    let s := ring16 (fun x => { x with q := one tileCmd })
    let u := ring16 (fun x => { x with q := one (cm [0x10]) })
    let w := ring16 (fun x => { x with q := one tileCmd, tiles := [{ tileOf tileCmd with dead := true }, { tileOf tileCmd with dead := true }] })
    let g := onBench (fun x => { x with q := one tileCmd, commitReg := true })
    let h := g.setRn (R.BN_RING 0) (17 * 65536)
    let e := { tileOf tileCmd with row := 13 }
    ((s.bench b0).dispatches = true ∧ (s.bench b0).q.ready 0x10 tileCmd = true ∧ (s.bench b0).commitReg = false ∧ (s.bench b0).canCapture tileCmd = true ∧ (s.bench b0).q.cause = 0
      ∧ tileItem s 0 (captureTile s 0 (s.bench b0) tileCmd) = none)
    ∧ ((u.bench b0).dispatches = true ∧ (u.bench b0).q.ready 0x10 (cm [0x10]) = true ∧ (u.bench b0).canCapture (cm [0x10]) = true
      ∧ tileItem u 0 (captureTile u 0 (u.bench b0) (cm [0x10])) = some 2)
    ∧ ((w.bench b0).dispatches = true ∧ (w.bench b0).q.ready 0x10 tileCmd = true ∧ (w.bench b0).canCapture tileCmd = false)
    ∧ ((g.bench b0).dispatches = true ∧ (g.bench b0).q.ready 0x10 tileCmd = true ∧ (g.bench b0).canCapture tileCmd = true ∧ ((commitNow g 0).bench b0).q.cause = 0)
    ∧ ((h.bench b0).dispatches = true ∧ (h.bench b0).canCapture tileCmd = true ∧ ((commitNow h 0).bench b0).q.cause = 3)
    ∧ ((tileState e id).bench b0).canCapture (cm [0x10, 0x1000, 0x10101]) = true ∧ ((tileState e id).bench b0).canCapture tileCmd = false := by decide +kernel

/-- 16 slots tell laps of 16 rows apart, and 2,048 do not. -/
theorem wit_RingLapsAreCaught :
    let t := tileOf tileCmd
    lapsOk t = true ∧ 0 < t.span ∧ 0 < t.M ∧ 3 < t.M ∧ 1 * t.M + 3 = 0 * t.M + 3 + t.ringSlots / t.span ∧ lapsOk { t with ringSlots := 2048 } = false := by decide +kernel

/-- SentinelTags has no hypothesis: T(2, 3) with SEED 5 is 22 mod 16. -/
theorem test_SentinelTags : ({ tileOf tileCmd with cmd := cm [0x10 + 5 * 2 ^ 40] } : Tile).expTag 2 3 = 6 := by decide +kernel

theorem wit_BeatEntersArray :
    let t := tileOf tileCmd
    let s := tileState t (fun x => x.setPlane 0 { valid := true })
    let n := tileState t id
    let t1 := { t with row := 1 }
    let r := tileState t1 id
    let c := tileOf (cm [0x10, 0x4000, 0x10101])
    let m := tileState c (fun x => { x.setPlane 0 { valid := true } with parts := [⟨0, 0, 0, freshRow c⟩] })
    let tb := tileOf (cm [0x10, 0x9000, 0x10101])
    let tab (tag : Nat) := tileState { tb with built := 4 } (fun x => { x.setPlane 0 { valid := true, pfmt := 5 } with tables := [⟨0, 0, tag, 0⟩] })
    (((tab 0).bench b0).fill? = some { tb with built := 4 } ∧ tb.path ≠ 0 ∧ ((tab 0).bench b0).tables.find? (fun r => r.tile == tb.id && r.beat == tb.beat) = some ⟨0, 0, 0, 0⟩ ∧ min (tb.beat + 4) (tb.npass * tb.M) ≤ 4
      ∧ tb.expTag tb.pass tb.row = 0 ∧ planeFault (tab 0) 0 ((tab 0).bench b0) { tb with built := 4 } = none ∧ ((tileState tb id).bench b0).tables = [] ∧ tb.spillDue = false ∧ tb.readsPart tb.pass = false)
    ∧ ((s.bench b0).runs = true ∧ (s.bench b0).fill? = some t ∧ t.path = 0 ∧ t.spillDue = false ∧ (s.bench b0).shadowFull = false ∧ t.readsPart t.pass = false
      ∧ planeFault s 0 (s.bench b0) t = none ∧ slotFault (s.bench b0) t t.pass t.row = none ∧ (s.bench b0).tables.find? (fun r => r.tile == t.id && r.beat == t.beat) = none)
    ∧ ((n.bench b0).fill? = some t ∧ t.row = 0 ∧ (planeFault n 0 (n.bench b0) t).isSome = true)
    ∧ ((r.bench b0).fill? = some t1 ∧ t1.row ≠ 0 ∧ (slotFault (r.bench b0) t1 t1.pass t1.row).isSome = true)
    ∧ ((m.bench b0).fill? = some c ∧ c.readsPart c.pass = true ∧ ((m.bench b0).partFor c).isSome = true ∧ c.spillDue = false ∧ planeFault m 0 (m.bench b0) c = none) := by decide +kernel

theorem wit_ArrayRowsMove :
    let c := tileOf (cm [0x10, 0x4000, 0x10101])
    let s := tileState c id
    let c2 := { tileOf (cm [0x10, 0x4000, 0x20101]) with pass := 1 }
    let s2 := tileState c2 id
    let p := tileOf partCmd
    let f := tileOf tileCmd
    let row (r : Nat) : ArrRow := ⟨0, 0, r, .a []⟩
    let a := { tileOf (cm [0x10, 2, 0x10101]) with count := 65535 }
    let l := tileState { f with pass := 1 } (fun x => { x with inArray := [row 0], shadow := List.replicate 64 ⟨0, 0, .a []⟩, finWait := true })
    (s.bench b0).runs = true ∧ ((s.bench b0).fill? = some c ∧ c.beat / c.M = c.pass ∧ c.pass < c.npass ∧ c.readsPart c.pass = true ∧ c.spillDue = false ∧ c.pass = 0)
    ∧ ((s2.bench b0).fill? = some c2 ∧ c2.beat / c2.M = c2.pass ∧ c2.pass < c2.npass ∧ c2.readsPart c2.pass = true ∧ c2.spillDue = false ∧ c2.beat < c2.beat + c2.M ∧ (s2.bench b0).inArray = [])
    ∧ (((tileState p (fun x => { x with inArray := [row 0] })).bench b0).tile? 0 = some p ∧ p.writesPart 0 = true ∧ (0 : Nat) + 1 ≠ p.M)
    ∧ (p.writesPart 0 = true ∧ p.fin = false ∧ (0 : Nat) + 1 = p.npass ∧ (15 : Nat) + 1 = p.M)
    ∧ (((tileState f (fun x => { x with inArray := [row 0] })).bench b0).tile? 0 = some f ∧ f.writesPart 0 = false)
    ∧ (List.replicate 64 (⟨0, 0, .a []⟩ : ShRow)).length = 64
    ∧ (((tileState a id).bench b0).fill? = some a ∧ a.spillDue = true)
    ∧ ((s.bench b0).partWait = true ∧ (s.bench b0).entryHold = false ∧ c.freeze = 32)
    ∧ ((tileState p (fun x => { x with inArray := [row 0] })).bench b0).partWait = false
    ∧ ((tileState f (fun x => { x with inArray := [row 0], shadow := List.replicate 64 ⟨0, 0, .a []⟩, finWait := true })).bench b0).shadowFull = true
    ∧ ((l.bench b0).fill? = none ∧ (l.bench b0).shadowFull = true ∧ (l.bench b0).tile? 0 = some { f with pass := 1 }) ∧ ((State.reset.bench b0).partWait = false ∧ (State.reset.bench b0).shadowFull = false ∧ (State.reset.bench b0).inArray = []) := by decide +kernel

theorem wit_ArrayRowsMove_hold :
    let c := tileOf (cm [0x10, 0x4000, 0x10101])
    let s := tileState { c with hold := true } id
    ((s.bench b0).fill? = some { c with hold := true } ∧ (s.bench b0).partWait = true ∧ (s.bench b0).entryHold = true)
    ∧ ((((tileState c id).bench b0).rowGone ⟨0, 0, 0, .a []⟩ []).fill?.map (·.hold)) = some true := by decide +kernel

theorem wit_TileFaultReported :
    let t := tileOf tileCmd
    let s := tileState t (fun x => { x with fault := some ⟨1, 1, 0, 0, 0, 0, 0, 1⟩ })
    (s.bench b0).out = false ∧ (s.bench b0).fault = some ⟨1, 1, 0, 0, 0, 0, 0, 1⟩ ∧ (s.bench b0).tile? 0 = some t
    ∧ (State.reset.bench b0).fault = none ∧ ((onBench (fun x => { x with fenced := true })).bench b0).out = true := by decide +kernel

theorem wit_TableBuilt :
    let t := tileOf (cm [0x10, 0x9000, 0x10101])
    let find (s : State) := (s.bench b0).tiles.find? (fun t => t.filling && decide (t.path ≠ 0) && decide (t.built < t.npass * t.M))
    let t1 := { t with built := 1 }
    let t4 := { t with built := 4 }
    ((tileState t id).bench b0).runs = true ∧ (find (tileState t id) = some t ∧ t.built < t.beat + 4 ∧ slotFault ((tileState t id).bench b0) t 0 0 = none)
    ∧ (find (tileState t1 id) = some t1 ∧ (slotFault ((tileState t1 id).bench b0) t1 0 1).isSome = true) ∧ (find (tileState t4 id) = some t4 ∧ t4.beat + 4 ≤ t4.built)
    ∧ (find State.reset = none ∧ ((onBench (fun x => { x with finWait := true, shadow := List.replicate 64 ⟨0, 0, .a []⟩ })).bench b0).frozen = true ∧ ((tileState t id).bench b0).frozen = false) := by decide +kernel

theorem wit_LocalStoreWrites :
    let u := { tileOf tileCmd with row := 1 }
    let s := tileState u id
    ((onBench (fun x => { x with fenced := true })).bench b0).out = true
    ∧ ((State.reset.bench b0).out = false ∧ planeOfOff 0x7FFFF = some 0 ∧ planeOfOff 0xFFFFF = some 1 ∧ planeOfOff 0x340000 = some 0 ∧ planeOfOff 0x343FFF = some 1 ∧ (State.reset.bench b0).planeActive 1 = false)
    ∧ ((s.bench b0).runs = true ∧ planeOfOff 0 = some 0 ∧ (s.bench b0).planeActive 0 = true ∧ (s.bench b0).userOf 0 = some (u, 0, 1))
    ∧ planeOfOff 0x100000 = none ∧ planeOfOff 0x2FFFFF = none ∧ planeOfOff 0x33FFFF = none ∧ planeOfOff 0x344000 = none := by decide +kernel

theorem wit_DresserCommands :
    let t := tileOf tileCmd
    let d := cm [1024, 0, 65536]
    let good := (tileState t id).wr 0 d.toBytes
    let badd := tileState t id
    let pois := badd.poisonLine 0
    let rdy := { t with drain := .ready d [] [] }
    let fin_ := { t with rowsOut := 16, wb := 1 }
    (good.bench b0).out = false ∧ ((good.bench b0).tiles.find? (fun t => t.fin && decide (t.drain = .waiting)) = some t
      ∧ (good.read t.drainAddr 64).isSome = true ∧ drainItem t.drainAddr (Cmd.ofBytes ((good.read t.drainAddr 64).getD [])) = none)
    ∧ ((badd.read t.drainAddr 64).isSome = true ∧ drainItem t.drainAddr (Cmd.ofBytes ((badd.read t.drainAddr 64).getD [])) = some 2 ∧ (badd.bench b0).q.cause = 0 ∧ (badd.bench b0).commitCmd = false)
    ∧ pois.read t.drainAddr 64 = none
    ∧ (((badd.modBench 0 (fun x => { x with commitCmd := true })).bench b0).q.cause = 0 ∧ ((badd.modBench 0 (fun x => { x with commitCmd := true })).bench b0).commitCmd = true ∧ ((badd.modBench 0 (fun x => { x with q := { x.q with cause := 6 } })).bench b0).q.cause ≠ 0)
    ∧ ((State.reset.bench b0).tiles = [] ∧ (State.reset.bench b0).shadow = [] ∧ (State.reset.bench b0).drained = [])
    ∧ (let s := tileState rdy (fun x => { x with shadow := [⟨0, 0, .a []⟩] }); (s.bench b0).shadow ≠ [] ∧ (s.bench b0).tile? 0 = some rdy ∧ rdy.dead = false)
    ∧ (let s := tileState { t with drain := .bad [] } (fun x => { x with shadow := [⟨0, 0, .a []⟩] }); (s.bench b0).tile? 0 = some { t with drain := .bad [] })
    ∧ (t.drain = .waiting ∧ t.dead = false)
    ∧ (15 + 1 = t.M ∧ ({ rdy with rowsOut := 15 } : Tile).dead = false)
    ∧ ((onBench (fun x => { x with drained := [fin_] })).bench b0).drained = [fin_]
    ∧ tbusy State.reset b0 0 = false ∧ (tbusy (tileState { t with drain := .ready (cm [1024 + 3 * 2 ^ 40, 0, 65536]) [] [] } id) b0 0 = true
      ∨ tbusy (tileState { t with drain := .ready (cm [1024 + 3 * 2 ^ 40, 0, 65536]) [] [] } id) b0 1 = true) := by decide +kernel

/-! ## Mason units, crushers, spall generators -/

/-- The first stockyard address. -/
def yd : Nat := 0x010000000000
def mmCmd (w2 : Nat) : Cmd := cm [0x40, 32 + 32 * 2 ^ 16 + 2 ^ 32, w2, yd + 2 ^ 48, yd + 0x1000 + 2 * 2 ^ 48, yd + 0x10000 + 2 * 2 ^ 48]
def redCmd : Cmd := cm [0x41, 1 + 2 ^ 16, 0, yd + 2 ^ 48, 0, yd + 0x1000]
def rotCmd : Cmd := cm [0x50, 2 ^ 32 + 2 ^ 20, yd + 2 ^ 48, yd + 0x1000 + 2 ^ 48, 0, 1, 768]

theorem wit_MasonUnit :
    let on (c : Cmd) : Bench := (onBench (fun x => { x with mu := one c })).bench b0
    let rdy (c : Cmd) (op : Nat) : Bool := (on c).mu.ready op c && !(on c).out && (on c).muRun.isNone
    let run := (onBench (fun x => { x with muRun := some ⟨redCmd, 1, 1⟩ })).bench b0
    let halted := (onBench (fun x => { x with mu := { (one (cm [])) with cause := 1 } })).bench b0
    rdy (cm []) 0 = true ∧ rdy (cm [0x20, 0, 1]) 0x20 = true ∧ rdy (cm [0x21]) 0x21 = true
    ∧ (rdy (mmCmd 0) 0x40 = true ∧ mmItem (mmCmd 0) = none ∧ (mmCmd 0).b 2 39 = false) ∧ (rdy (mmCmd (2 ^ 39)) 0x40 = true ∧ mmItem (mmCmd (2 ^ 39)) = none ∧ (mmCmd (2 ^ 39)).b 2 39 = true)
    ∧ (rdy (cm [0x40]) 0x40 = true ∧ mmItem (cm [0x40]) = some 2) ∧ (rdy redCmd 0x41 = true ∧ redItem redCmd = none) ∧ (rdy (cm [0x41]) 0x41 = true ∧ redItem (cm [0x41]) = some 2)
    ∧ (run.muRun = some ⟨redCmd, 1, 1⟩ ∧ redCmd.op ≠ 0x40 ∧ (mmCmd 0).op = 0x40 ∧ run.out = false)
    ∧ (let w := (onBench (fun x => { x with mu := { one (cm [0x21, 256]) with taken := 1 }, muRun := some ⟨redCmd, 1, 1⟩ })).bench b0; w.mu.ready 0x21 (cm [0x21, 256]) = true ∧ (cm [0x21, 256]).b 1 8 = true ∧ 1 < w.mu.nextJob ∧ w.muRun.isSome = true)
    ∧ (halted.mu.cause ≠ 0 ∧ halted.mu.cmds ≠ []) ∧ (on (cm [])).mu.cause = 0 := by decide +kernel

theorem wit_CrusherUnit :
    let on (c : Cmd) : Bench := (onBench (fun x => { x with cr := one c })).bench b0
    let rdy (c : Cmd) (op : Nat) : Bool := (on c).cr.ready op c && !(on c).out && !(on c).crWait && (on c).crRun.isNone
    let halted := (onBench (fun x => { x with cr := { (one (cm [])) with cause := 1 } })).bench b0
    rdy (cm []) 0 = true ∧ rdy (cm [0x20, 0, 1]) 0x20 = true ∧ rdy (cm [0x21]) 0x21 = true ∧ (rdy rotCmd 0x50 = true ∧ rotItem rotCmd = none)
    ∧ (rdy (cm [0x50]) 0x50 = true ∧ rotItem (cm [0x50]) = some 2) ∧ (halted.cr.cause ≠ 0 ∧ halted.cr.cmds ≠ []) ∧ (on (cm [])).cr.cause = 0
    ∧ ((onBench (fun x => { x with crRun := some ⟨rotCmd, 1, 0, 0, 0⟩ })).bench b0).crRun.isSome = true
    ∧ (let w := (onBench (fun x => { x with cr := { one (cm [0x21, 256]) with taken := 1 }, crRun := some ⟨rotCmd, 1, 0, 0, 0⟩ })).bench b0; w.cr.ready 0x21 (cm [0x21, 256]) = true ∧ 1 < w.cr.nextJob ∧ w.out = false ∧ w.crWait = false) := by decide +kernel

/-- SpallKeyAndCounts: an empty and a filled table. -/
theorem wit_SpallKeyAndCounts : State.reset.spall.entries = [] ∧ ({ State.reset with spall := { entries := [⟨5, 0, false⟩] } } : State).spall.entries ≠ [] := by decide +kernel

theorem wit_StreamClaimDecides :
    let c : Claim := ⟨.crusher 0, 1, 768, 0, 0⟩
    let s (es : List ClaimEntry) (v : Bool) : State :=
      { onBench (fun x => { x with crWait := true, cr := one rotCmd }) with spall := { valid := v, entries := es, queue := [c] } }
    let many : List ClaimEntry := (List.range 256).map (fun i => ⟨i, 0, false⟩)
    let free (es : List ClaimEntry) : Bool := es.all (fun e => !e.bad && e.d != c.block)
    ((s [] true).spall.queue = [c] ∧ c.who = .crusher b0 ∧ ((s [] true).bench b0).crWait = true ∧ ((s [] true).bench b0).cr.cmds = [rotCmd])
    ∧ ((s [] true).spall.valid = true ∧ c.allowed = true ∧ free (many.take 255) = true) ∧ (s [] false).spall.valid = false
    ∧ ({ c with ref := 256 } : Claim).allowed = false ∧ ({ c with ref := 4 * 256 } : Claim).purpose ≠ 3 ∧ ({ c with ref := 4 * 256 } : Claim).allowed = true ∧ (free many = true ∧ many.length = 256)
    ∧ c.purpose = 3 ∧ ({ c with who := .update 0, ref := 256 } : Claim).allowed = true ∧ ({ c with who := .coll 0, ref := 512 } : Claim).allowed = true ∧ (s [] true).spall.spareBad = false
    ∧ ([⟨c.block, 0, false⟩] : List ClaimEntry).find? (fun e => e.d == c.block) = some ⟨c.block, 0, false⟩ ∧ (s [⟨5, 0, false⟩] true).spall.entries[0]? = some ⟨5, 0, false⟩ := by decide +kernel

theorem wit_LiveStreamsStayDistinct : ([⟨5, 0, false⟩, ⟨6, 1, true⟩] : List ClaimEntry).map (·.d) = [5, 6] ∧ ([5, 6] : List Nat).Nodup := by decide +kernel

/-! ## Registered regions and stack update engines -/

/-- Memory of stack 0 with bytes at an address. -/
def memAt (a : Nat) (ws : List Nat) (s : State) : State := s.wr a (ws.flatMap (leBytes 8))
def reg0 : Region := { uid := 1, frozen := false, len := 1, nslots := 2, slots := [{ st := .current, addr := 0x10000, step := 1 }, { addr := 0x20000 }, {}, {}] }
/-- A region whose second slot an UPDATE of step 9 fills. -/
def reg1 : Region := reg0.setSlot 1 { st := .tentative, addr := 0x20000, step := 9 }

theorem wit_VersionTableOperations :
    let ws := [0, 2 ^ 32 + 1, 0x30000, 0x40000, 0, 0, 5, 0]
    let s := memAt 0 ws State.reset
    let u := State.reset.setRegion 5 reg0
    s.stackUp 0 = true ∧ ((0 : Nat) < 2 ^ 48 ∧ (s.read 0 64).isSome = true ∧ (match recordOf 0 (Cmd.ofBytes ((s.read 0 64).getD [])) with
      | some (r, y) => decide (r = 5) && (s.region? r).isNone && !y.selfOverlap && !(y.slots.take y.nslots).any (fun v => s.inSlots v.addr (y.len * 65536))
      | none => false) = true)
    ∧ (regionStack 5 = 0 ∧ u.region? 5 = some reg0 ∧ (reg0.slots.all (fun v => v.pins == 0 && v.impl == 0 && v.st != .tentative)) = true ∧ reg0.find .current = some 0 ∧ reg0.stepSlot 1 = some 0
      ∧ (reg0.slot 0).pins < 65535 ∧ (0 : Nat) < reg0.nslots ∧ (reg0.slot 0).st ≠ .free ∧ (reg0.slot 0).gen = 0 ∧ (u.ue 0).run.isNone = true ∧ (u.regions.map (·.1)).Nodup)
    ∧ 0 < ((reg0.setSlot 0 { st := .held, pins := 1 }).slot 0).pins ∧ State.reset.region? 5 = none := by decide +kernel

/-- An operation on an unregistered region is refused with a code other than 0. -/
theorem wit_RefusedVersionOpsChangeNoTable : (vtPinCurrent State.reset 0 5).2.1 ≠ 0 ∧ (vtRegister State.reset 0 1).2.1 ≠ 0 ∧ (vtDeregister State.reset 0 5).2.1 ≠ 0
    ∧ (vtPinStep State.reset 0 5 0).2.1 ≠ 0 ∧ (vtPinToken State.reset 0 5 0 0).2.1 ≠ 0 ∧ (vtUnpin State.reset 0 5 0 0).2.1 ≠ 0 := by decide +kernel

def updCmd : Cmd := cm [0x60, 2, 5, 16 * 2 ^ 32, 0, 0, 0x400000, 0x300000]
def updRun (ph : UpdPhase) : UpdRun := { cmd := updCmd, id := 1, region := 5, uid := 1, phase := ph, prog0 := [], prog1 := [], consts := [], strm := ⟨.update 0, 2, 0, 0, 0⟩ }

theorem wit_SlotAcquisition :
    let late (x : Region) : State := { ((State.reset.setRegion 5 x).modUe 0 (fun u => { u with run := some (updRun (.slotWait 0)) })).setRn (R.UE_VT_CFG 0) 1 with time := 1300 }
    let s (x : Region) := (State.reset.setRegion 5 x).modUe 0 (fun u => { u with run := some (updRun (.slotWait 0)) })
    (s reg0).stackUp 0 = true ∧ ((s reg0).ue 0).run = some (updRun (.slotWait 0)) ∧ (s reg0).region? 5 = some reg0 ∧ reg0.uid = (updRun (.slotWait 0)).uid
    ∧ (reg0.find .tentative = none ∧ reg0.find .free = some 1 ∧ reg0.find .current = some 0) ∧ (reg1.find .tentative).isSome = true
    ∧ (s reg0).rfld (R.UE_VT_CFG 0) 15 0 ≠ 0 ∧ ((s reg0).time - 0) / 1300 < 1 % 2 ^ 16
    ∧ ((late reg1).rfld (R.UE_VT_CFG 0) 15 0 ≠ 0 ∧ (late reg1).rfld (R.UE_VT_CFG 0) 15 0 ≤ ((late reg1).time - 0) / 1300) ∧ (reg0.acquire 2).isSome = true := by decide +kernel

theorem wit_UpdateEngineQueue :
    let on (c : Cmd) : State := (State.reset.setRegion 5 reg1).modUe 0 (fun u => { u with q := one c })
    let rdy (c : Cmd) (op : Nat) : Bool := ((on c).ue 0).q.ready op c && ((on c).ue 0).run.isNone && (on c).stackUp 0
    rdy (cm []) 0 = true ∧ rdy (cm [0x20]) 0x20 = true ∧ rdy (cm [0x21]) 0x21 = true ∧ (rdy (cm [0x60]) 0x60 = true ∧ (updCheck (on (cm [0x60])) 0 (cm [0x60])).isLeft = true)
    ∧ (rdy updCmd 0x60 = true ∧ (updCheck (on updCmd) 0 updCmd).isRight = true ∧ updCmd.b 2 48 = false ∧ (on updCmd).region? (updCmd.f 2 13 0) = some reg1 ∧ (reg1.find .tentative).isSome = true)
    ∧ ((updRun .sweep0).elem + sweepRate { updRun .sweep0 with cmd := cm [0x60, 2, 5, 128 * 2 ^ 32] } < 128)
    ∧ rdy (cm [0x61, 3]) 0x61 = true := by decide +kernel

theorem wit_VersionTable_forms :
    let full : Region := reg0.setSlot 0 { st := .current, addr := 0x10000, step := 1, pins := 65535 }
    (State.reset.setFld R.PW_START 8 8 1).stackUp 0 = false
    ∧ (full.find .current = some 0 ∧ (full.slot 0).pins = 65535 ∧ reg0.stepSlot 9 = none ∧ (reg1.slot 1).st = .tentative ∧ regionStack 5 = 0 ∧ (State.reset.setRegion 5 full).region? 5 = some full) := by decide +kernel
theorem wit_UpdateEngineQueue_forms :
    let rounding : Cmd := updCmd.set 2 (5 + 2 ^ 48)
    let s : State := memAt 0x300040 [2, 0x100] (State.reset.setRegion 5 reg0)
    let late : Ue := { q := { one (cm [0x21, 256]) with taken := 3 }, run := some (updRun .sweep1) }
    (late.q.ready 0x21 (cm [0x21, 256]) = true ∧ (cm [0x21, 256]).b 1 8 = true ∧ (updRun .sweep1).id < late.q.nextJob)
    ∧ ((updCheck s 0 updCmd).isRight = true ∧ reg0.find .tentative = none ∧ reg0.find .free = some 1 ∧ reg0.find .current = some 0 ∧ s.region? (updCmd.f 2 13 0) = some reg0)
    ∧ (rounding.b 2 48 = true ∧ (match updCheck s 0 rounding with | .inr (_, _, _, st, rb) => decide (st = 2) && decide (rb = 0x100) | .inl _ => false) = true
      ∧ (s.ue 0).claims.find? (fun a => a.1 == 2 && a.2.1 == 0x100) = none
      ∧ ((s.modUe 0 (fun u => { u with claims := [(2, 0x100, 7)] })).ue 0).claims.find? (fun a => a.1 == 2 && a.2.1 == 0x100) = some (2, 0x100, 7)) := by decide +kernel
theorem wit_UpdateEngineQueue_sweeps :
    let nan : UpdRun := { updRun .sweep1 with cmd := updCmd.set 2 (5 + 2 ^ 49), prog1 := [0x0C * 2 ^ 26, 2 * 2 ^ 26] }
    let zero : UpdRun := { updRun .sweep1 with prog1 := [2 * 2 ^ 26] }
    let forms (r : UpdRun) : LaneSt := r.prog1.foldl (execInstr (ldSec State.reset r r.elem) (r.consts ++ r.ks)) { recs := r.recs }
    ((forms nan).nan = true ∧ nan.cmd.b 2 49 = true ∧ nan.phase = .sweep1 ∧ (forms zero).nan = false)
    ∧ (([] ++ [(forms zero).out]).length < Upd.unit (updCmd.set 2 (5 + 6 * 2 ^ 40 + 2 ^ 36)) ∧ Upd.unit updCmd ≤ (List.replicate (Upd.unit updCmd - 1) [] ++ [(forms zero).out]).length ∧ 0 + 1 < Upd.elems updCmd ∧ Upd.elems updCmd ≤ 15 + 1) := by decide +kernel

/-- Two windows over line 0 of stack 0, the first in FP32, and a window in RF32. -/
def adds (cfg : Nat) : State := ((State.reset.setRn (R.UE_ATM_LIMIT 0 1) 64).setRn (R.UE_ATM_CFG 0 1) cfg)

theorem wit_AddWindows :
    let f := adds (2 ^ 31)
    let r := adds (2 ^ 31 + 2 ^ 30)
    let z := r.wrLe 60 4 0x80000000
    f.canonical = true ∧ (f.mapped 60 && f.mapped 61 && f.mapped 62 && f.mapped 63 && !f.poisonedAt 60) = true ∧ f.addWindow 60 = some 1 ∧ stackOf 60 = 0 ∧ f.rbit (R.UE_ATM_CFG 0 1) 30 = false
    ∧ (r.rbit (R.UE_ATM_CFG 0 1) 30 = true ∧ r.le 60 4 ≠ 0x80000000) ∧ z.le 60 4 = 0x80000000 ∧ (f.addWindow 61 = some 1 ∧ (61 + 3) / 4 ≤ (61 + 3) / 4 ∧ (61 + 3) / 4 * 4 ≠ 61)
    ∧ f.addWindow 64 = none ∧ f.stackUp 0 = true := by decide +kernel
/-- RF32 adds saturate: the greatest plus one. -/
theorem test_add_saturates : (match exec (.addWrite 60 [1, 0, 0, 0]) ((adds (2 ^ 31 + 2 ^ 30)).wrLe 60 4 0x7FFFFFFF) with | .next t => t.le 60 4 | _ => 0) = 0x7FFFFFFF := by decide +kernel

/-! ## The step commit -/

/-- Device 1 of the group 7 of devices 1 and 2, at a step and state. -/
def mem1 (st step : Nat) (f : Cm → Cm) : State :=
  { ((State.reset.setRn R.LK_DEV 65537).setRn R.GH_CM_STATE st).setRn R.GH_CM_STEP step with cm := f { group := some (7, [1, 2]) }, members := [1, 2] }

theorem wit_PrepareRequestAccepted :
    let g := (memAt 0x2000 [1] (memAt 0x1000 [7, 1, 0x2000] (memAt 0 [1] ((State.reset.setRn R.LK_DEV 65537).setRn R.GH_CM_GROUP 0x1000))))
    let z := State.reset
    let one' := memAt 0 [1] z
    let bad := memAt 0 [1, 2 ^ 32] z
    let ask (s : State) : Cmd := Cmd.ofBytes ((s.ghRead 0 64).getD [])
    (z.canonical && g.canonical && one'.canonical && bad.canonical) = true ∧ (z.ghRead 0 64).isSome = true ∧ (ask z).w 0 ≤ z.rn R.GH_CM_DECIDED
    ∧ (one'.rn R.GH_CM_DECIDED < (ask one').w 0 ∧ one'.undecided = false ∧ (one'.setRn R.GH_CM_STATE 2).undecided = true ∧ (one'.readIds (ask one')).isSome = true ∧ one'.rfld R.GH_CM_GROUP 47 0 = 0)
    ∧ bad.readIds (ask bad) = none ∧ ((one'.setRn R.GH_CM_GROUP 0x1000).rfld R.GH_CM_GROUP 47 0 ≠ 0 ∧ (one'.setRn R.GH_CM_GROUP 0x1000).readGroup = none)
    ∧ (g.readIds (ask g) = some [] ∧ g.readGroup = some (7, [1]) ∧ g.member = true ∧ g.dev = 1 ∧ g.undecided = false ∧ g.rn R.GH_CM_DECIDED < (ask g).w 0)
    ∧ (g.setRn R.LK_DEV 1).member = false := by decide +kernel

theorem wit_CommitVotes :
    let vote : CmMsg := { group := 7, step := 3, epoch := 0, src := 2, typ := 1, value := 2 }
    let ready := (List.finRange 8).foldl (fun (t : State) (k : Fin 8) => t.modUe k (fun u => { u with marks := [(3, false)] })) (mem1 1 3 (fun c => { c with verdict := some true }))
    let box (f : Cm → Cm) : State := { mem1 2 3 f with cmBox := [vote] }
    let v (p : Bool) : Cm → Cm := fun c => { c with votes := [(2, 3, p)] }
    (ready.cmState = 1 ∧ ready.cm.due = none ∧ ready.markMask = some 0 ∧ ready.cm.verdict = some true) ∧ State.reset.markMask = none
    ∧ ((mem1 2 3 (fun c => { c with restarted := true })).cm.restarted = true ∧ (mem1 2 3 id).cmState = 2 ∧ (mem1 3 3 id).cmState = 3)
    ∧ ((box id).cmBox.find? (fun m => m.typ == 1) = some vote ∧ (box id).cm.group.map (·.1) = some vote.group ∧ ({ box id with cmBox := [] } : State).isCoord = true
      ∧ ({ (box id).setRn R.LK_DEV 65538 with cmBox := [] } : State).isCoord = false ∧ (box id).cm.hist.find? (fun d => d.1 == 3) = none ∧ vote.value = 2
      ∧ (box (fun c => { c with hist := [(3, true)] })).cm.hist.find? (fun d => d.1 == 3) = some (3, true))
    ∧ ((mem1 2 3 id).isCoord = true ∧ (mem1 2 3 id).cm.take = none ∧ (mem1 2 3 id).cm.takeDue = false ∧ (mem1 2 3 id).cm.due = none)
    ∧ ({ mem1 2 3 id with time := 6500000 } : State).cm.voteTime + ({ mem1 2 3 id with time := 6500000 } : State).rfld R.GH_CM_CFG 15 0 = ({ mem1 2 3 id with time := 6500000 } : State).us
    ∧ (mem1 2 3 id).us < (mem1 2 3 id).cm.voteTime + (mem1 2 3 id).rfld R.GH_CM_CFG 15 0
    ∧ ((mem1 2 3 (v false)).cm.votes.any (fun v => v.2.1 == 3 && !v.2.2) = true)
    ∧ ((mem1 2 3 (v true)).cm.votes.all (fun v => v.2.1 != 3 || v.2.2) = true ∧ (mem1 2 3 (v true)).cmLive = [1, 2]) ∧ (mem1 2 3 id).cm.votes = [] := by decide +kernel

theorem wit_CommitMessages :
    let msg (typ step epoch : Nat) : CmMsg := { group := 7, step := step, epoch := epoch, src := 2, typ := typ, value := 0 }
    let box (typ step epoch : Nat) (f : Cm → Cm) : State := { mem1 2 3 f with cmBox := [msg typ step epoch] }
    let late : Cm → Cm := fun c => { c with answered := 5 }
    ((box 2 3 4 late).cmBox.find? (fun m => m.typ == 2) = some (msg 2 3 4) ∧ (box 2 3 4 late).cm.group.map (·.1) = some (msg 2 3 4).group ∧ (3 : Nat) = (box 2 3 4 late).cmStep ∧ (4 : Nat) < (box 2 3 4 late).cm.answered)
    ∧ (3, true) ∈ (box 2 3 4 (fun c => { c with hist := [(3, true)] })).cm.hist
    ∧ ((box 2 3 4 id).cmState = 2 ∧ (box 2 3 4 id).cmStep = 3 ∧ (box 2 3 4 id).cm.due = none ∧ (3, true) ∉ (box 2 3 4 id).cm.hist) ∧ (box 2 9 4 id).cmStep ≠ 9
    ∧ ((box 3 0 4 id).cmBox.find? (fun m => m.typ == 3) = some (msg 3 0 4) ∧ (0 : Nat) ≤ (box 3 0 4 id).rn R.GH_CM_DECIDED ∧ (box 3 3 4 id).rn R.GH_CM_DECIDED < 3)
    ∧ ((box 4 3 4 id).cm.due = none ∧ (box 4 3 4 (fun c => { c with due := some ⟨3, true, 2, false, false, false, 1⟩ })).cm.due = some ⟨3, true, 2, false, false, false, 1⟩)
    ∧ (box 4 3 4 id).cmBox.find? (fun m => m.typ == 4) = some (msg 4 3 4) ∧ (box 5 3 4 id).cmBox.find? (fun m => m.typ == 5) = some (msg 5 3 4) ∧ (box 5 3 4 id).cm.take = none
    ∧ (box 5 3 4 (fun c => { c with take := some [] })).cm.take = some [] ∧ ((mem1 2 3 (fun c => { c with takeDue := true })).cm.takeDue = true ∧ (mem1 2 3 id).isCoord = true) := by decide +kernel

theorem wit_DecisionFlipsVersions :
    let s := { (State.reset.setRegion 5 reg1) with cm := { due := some ⟨9, true, 1, false, false, false, 0⟩ } }
    s.cm.due = some ⟨9, true, 1, false, false, false, 0⟩ ∧ s.cm.take = none ∧ reg1.slots[1]? = some { st := .tentative, addr := 0x20000, step := 9 }
    ∧ (match exec .decisionApply s with | .next t => (t.regions.map (fun e => e.2.slots.map (·.st))) | _ => []) = [[.free, .current, .free, .free]] := by decide +kernel

/-! ## Memory -/

theorem wit_MemoryAccesses :
    let a := 0x005FFFFFFFC0
    let p := State.reset.poisonLine a
    let q := State.reset.poisonLine yd
    let e := { State.reset.setRn (R.UE_SCRUB_STATUS 0) (0x000C00000000 / 64 / 65536 - 1) with scrubLow := State.reset.scrubLow.set 0 65535 }
    let w (s : State) : Nat := s.rfld (R.UE_SCRUB_STATUS 0) 31 0 * 65536 + s.scrubLow[0]
    (isMergo a = true ∧ State.reset.stackUp (stackOf a) = true ∧ State.reset.poisonedAt a = false ∧ p.poisonedAt a = true ∧ a % 64 = 0 ∧ State.reset.addWindow a = none)
    ∧ isMergo (a + 64) = false ∧ (State.reset.setFld R.PW_START 15 15 1).stackUp (stackOf a) = false
    ∧ (isYard yd = true ∧ isYard (yd + 0x1FFFFFFF) = true ∧ isYard (yd + 0x20000000) = false ∧ State.reset.poisonedAt yd = false ∧ q.poisonedAt yd = true)
    ∧ (State.reset.stackUp 0 = true ∧ (State.reset.setRn (R.UE_SCRUB_CFG 0) 0).rfld (R.UE_SCRUB_CFG 0) 15 0 = 0 ∧ State.reset.rfld (R.UE_SCRUB_CFG 0) 15 0 ≠ 0
      ∧ ((State.reset.arb 1024).owner = none ∧ (State.reset.arb 1024).waiting = [] ∧ ((State.reset.setArb 1024 { owner := some { who := 1, cls := 3, beats := 1, left := 1 } }).arb 1024).owner.isSome = true)
      ∧ 64 * (w State.reset + 1) < 0x000C00000000 ∧ 0x000C00000000 ≤ 64 * (w e + 1)) := by decide +kernel

theorem wit_ArbitersChoose :
    let r (who cls : Nat) (wr : Bool) : ArbReq := { who := who, cls := cls, write := wr, beats := 4, left := 4 }
    let y (x : Arb) (l : List ArbReq) : Arb := Arb.raise (fun _ => 0) { x.beat with held := [] } (l.filter (State.reset.reqOk 0))
    let own : Arb := { owner := some (r 2 2 true) }
    let hot := State.reset.setArb 0 { hotFor := 256 }
    let cold := State.reset.setArb 0 { coolFor := 256, hot := true }
    ((y {} [r 1 3 false]).owner = none ∧ (y {} [r 1 3 false]).waiting = [r 1 3 false] ∧ reqTags 1 = some 64)
    ∧ ((y own [r 1 3 false]).owner = some { r 2 2 true with left := 3 } ∧ (r 2 2 true).eff ≤ (r 1 3 false).eff ∧ own.owner = some (r 2 2 true))
    ∧ ((y { own with owner := some (r 1 3 false) } [r 2 2 true]).waiting = [r 2 2 true] ∧ (r 2 2 true).eff < (r 1 3 false).eff)
    ∧ ((1024 : Nat) ≤ 1024 ∧ (State.reset.arb 1024).counts.length = 6)
    ∧ ((hot.arb 0).hot = false ∧ hot.rfld R.SY_CFG 7 0 ≠ 0 ∧ 256 ≤ (hot.arb 0).hotFor) ∧ ((State.reset.arb 0).hotFor < 256 ∧ (State.reset.arb 0).coolFor < 256)
    ∧ ((State.reset.modPwr (fun p => { p with hot := [0] })).seamSlow 1024 = true ∧ State.reset.seamSlow 1024 = false ∧ ({ took := true } : Arb).took = true)
    ∧ 256 ≤ (cold.arb 0).coolFor := by decide +kernel

theorem wit_Invalidation :
    let t : Txn := { who := .core 0, write := false, dev := 2, addr := 0, lines := 1, xl := some (0, 0) }
    let s : State := { State.reset with invals := [0], txns := [t] }
    State.reset.canonical = true ∧ s.invals = [0] ∧ (t.xl = some (0, 0) ∧ t ∈ s.txns ∧ invalNames 0 0 0 = true ∧ invalNames 65536 0 0 = false) := by decide +kernel

/-! ## Derricks -/

/-- A row of 64 raw bytes from address 0 to 0x1000, in physical addresses: opcode, rows, length, word 6. -/
def dsc (op rows len w6 : Nat) : Cmd := cm [op, rows * 2 ^ 48 + len * 2 ^ 32 + 2 ^ 25 + (if op = 0x73 then 0 else 15 * 2 ^ 20 + 15 * 2 ^ 16) + 3 * 2 ^ 13, 0, if op = 0x72 then 0 else 0x1000, 0, 0, w6, 0]
/-- Derrick 0 with physical addresses allowed, changed. -/
def onDk (f : Dk → Dk) : State := (State.reset.setRn (R.DK_CTRL 0) 256).modDk 0 f

theorem wit_DerrickQueue :
    let on (c : Cmd) : State := onDk (fun x => { x with q := one c })
    let odd (op : Nat) : Cmd := cm [op + 2 ^ 40]
    let rdy (c : Cmd) (op : Nat) : Bool := ((on c).dk 0).q.ready op c && !((on c).bench (dkBench 0)).out && ((on c).dk 0).runs.isEmpty
    let bad : Cmd := (cm []).set 0 256
    let halted := (onDk (fun x => { x with q := { (one (cm [])) with cause := 1 } })).dk 0
    let late : Dk := { q := { (one (cm [0x21, 256])) with taken := 3 }, runs := [{ cmd := cm [], id := 1 }] }
    ([0, 0x20, 0x21].all (fun op => rdy (odd op) op && word0Reserved (odd op) && !word0Reserved (cm [op]))) = true ∧ rdy (cm []) 0 = true ∧ (rdy (cm [0x20]) 0x20 = true ∧ (cm [0x20]).w 2 ≤ 0) ∧ (rdy (cm [0x20, 0, 1]) 0x20 = true ∧ State.reset.syncVal 0 < (cm [0x20, 0, 1]).w 2)
    ∧ (rdy (cm [0x21]) 0x21 = true ∧ (cm [0x21]).b 1 8 = false) ∧ (late.q.ready 0x21 (cm [0x21, 256]) = true ∧ (cm [0x21, 256]).b 1 8 = true ∧ late.runs.any (fun r => decide (r.id < late.q.nextJob)) = true)
    ∧ ((on bad).dk 0).q.head? = some bad ∧ bad.parOk = false
    ∧ ([0x70, 0x71, 0x72, 0x73].all (fun op => rdy (cm [op]) op && (dkItem (on (cm [op])) 0 (cm [op])).isSome)) = true
    ∧ (halted.q.cause ≠ 0 ∧ halted.q.cmds ≠ []) ∧ ((on (cm [])).dk 0).q.cause = 0 ∧ State.reset.canonical = true := by decide +kernel

/-- A token of version 3 of region 5, and CURRENT of it, as sources of a COPY. -/
def regCopy (w5 : Nat) : Cmd := cm [0x70, 2 ^ 48 + 64 * 2 ^ 32 + 3 * 2 ^ 28 + 15 * 2 ^ 20 + 15 * 2 ^ 16 + 3 * 2 ^ 13, 0, 0x1000, 0, w5, 0]
/-- Derrick 0 has a quarter of its tags at the seam of address 0x1000. -/
def heldFill : State := State.reset.setArb ((arbOf 0x1000).getD 0) { waiting := List.replicate 64 { who := 96, cls := 3, beats := 1, left := 1 } }

theorem wit_DerrickTransfers_region :
    Dsc.ofRegion (regCopy 5) = true ∧ Dsc.tokv (regCopy 5) = false ∧ (State.reset.setRegion 5 reg1).region? (Dsc.w5 (regCopy 5) % 2 ^ 14) = some reg1
    ∧ reg1.find .current = some 0
    ∧ (let c := regCopy 0x5005; let c := c.set 1 (c.w 1 + 2 ^ 12); Dsc.ofRegion c = true ∧ Dsc.tokv c = true
      ∧ (State.reset.setRegion 5 reg1).region? (Dsc.w5 c % 2 ^ 14) = none ∧ (State.reset.setRegion 0x1005 reg1).region? (Dsc.w5 c % 2 ^ 14) = some reg1 ∧ bits (Dsc.w5 c) 15 14 < reg1.nslots) := by decide +kernel

theorem wit_DerrickTransfers_rest :
    let r : DkRun := { cmd := dsc 0x70 1 64 0, id := 1, row := 1, rest := (0x1000, [1]) }
    let s := onDk (fun x => { x with runs := [r] })
    r.open' = true ∧ r.waits = [] ∧ (s.dk 0).q.cause = 0 ∧ Dsc.phys r.cmd = true ∧ Dsc.dstt r.cmd = 0 ∧ s.txns = [] ∧ s.arbs = [] ∧ r.rest.2 ≠ []
    ∧ r.rest.1 % 64 + r.rest.2.length ≤ 64 := by decide +kernel

theorem wit_DerrickTransfers_ahead :
    let c := dsc 0x70 1 64 4
    Dsc.rows c = 1 ∧ 0 < Dsc.window c ∧ c.op ≠ 0x71 ∧ Dsc.srct c ≠ 3 ∧ ((onDk (fun x => { x with runs := [{ cmd := c, id := 1 }] })).dk 0).q.cause = 0 := by decide +kernel
theorem wit_DerrickTransfers :
    let ok (c : Cmd) (op : Nat) : Bool := let s := onDk (fun x => { x with q := one c }); (s.dk 0).q.ready op c && (dkItem s 0 c).isNone && (s.dk 0).runs.isEmpty
    let run (c : Cmd) (f : DkRun → DkRun) : DkRun := f { cmd := c, id := 1, ringSlots := 16 }
    let going (c : Cmd) (f : DkRun → DkRun) : State := onDk (fun x => { x with runs := [run c f] })
    let lcl (c : Cmd) : Bool := Dsc.phys c && Dsc.dstt c == 0 && !Dsc.trans c && Dsc.sfmt c == Dsc.dfmt c && decide (0 < Dsc.srcBytes c) && decide (Dsc.src c % 64 + Dsc.srcBytes c ≤ 64)
      && decide (Dsc.dst c % 64 + Dsc.rlen c ≤ 64) && decide (0 < Dsc.rows c)
    let cp := dsc 0x70 1 64 0
    let sl : DkRun → DkRun := fun r => { r with waits := [([1], none)] }
    let w := dsc 0x72 1 64 (2 ^ 41)
    ok cp 0x70 = true ∧ ok (dsc 0x71 1 64 0) 0x71 = true ∧ ok w 0x72 = true ∧ ok (dsc 0x73 1 16 0) 0x73 = true
    ∧ (lcl (dsc 0x71 1 64 0) = true ∧ (going (dsc 0x71 1 64 0) id).txns = [] ∧ ((going (dsc 0x71 1 64 0) id).dk 0).q.cause = 0)
    ∧ (lcl cp = true ∧ Dsc.srct cp = 0 ∧ ((going cp id).read (Dsc.src cp) 64).isSome = true ∧ ((going cp id).poisonLine 0).read (Dsc.src cp) 64 = none)
    ∧ ((run w sl).waits = [([1], none)] ∧ (((going w sl).bench 0).slotMeta (Dsc.start w)).pend = false ∧ ((going w sl).bench 0).out = false
      ∧ (((going w sl).modBench 0 (fun x => x.setSlot 0 ⟨0, false, true⟩)).bench 0).slotMeta 0 = ⟨0, false, true⟩)
    ∧ (Dsc.rows cp ≤ (run cp (fun r => { r with row := 1, put := 1 })).row ∧ Dsc.outs cp ≤ (run cp (fun r => { r with row := 1, put := 1 })).put ∧ Dsc.ofRegion cp = false ∧ (going cp id).arbs = [] ∧ (heldFill.quotaHeld 96 0x1000) = true ∧ cp.op ≠ 0x73 ∧ (dsc 0x73 1 16 0).op = 0x73 ∧ (State.reset.bench 0).planeActive (Dsc.plane (dsc 0x73 1 16 0)) = false) := by decide +kernel
/-- FILL writes its pattern. -/
theorem test_fill : (match exec (.derrickRequest 0 none false) (onDk (fun x => { x with runs := [{ cmd := (dsc 0x71 1 16 0).set 5 0x0807060504030201, id := 1 }] })) with
    | .next t => (t.le 0x1000 8, t.le 0x1008 8, t.le 0x1010 8) | _ => (0, 0, 0)) = (0x0807060504030201, 0x0807060504030201, 0) := by decide +kernel

/-! ## The host interface -/

/-- Released, the link up, memory space and bus master enabled. -/
def hostOn : State := { State.reset.setRn R.HX_LINK 256 with released := true, busMaster := true, pci := { memEn := true, up := true } }

theorem wit_HostAccesses :
    hostOn.pci.up = true ∧ hostOn.released = true ∧ hostOn.pci.memEn = true ∧ hostOn.pci.d3 = false ∧ ({ hostOn with released := false } : State).pci.up = true
    ∧ hostOn.badRead (0x010000000000 + 0x1FFFFFF8) 8 = false ∧ (hostOn.poisonLine 0x010000000000).badRead 0x010000000000 8 = true ∧ State.reset.pci.up = false
    ∧ State.reset.canonical = true ∧ (isRegSpace 0x020003FFFFFC = true ∧ isRegSpace 0x020004000000 = false) ∧ (State.reset.setRn R.PW_DOMAIN (2 ^ 34)).rbit R.PW_DOMAIN 34 = true := by decide +kernel

theorem wit_HostAccesses_register :
    ((regAt R.LK_ESC).isSome = true ∧ 8 ∣ R.LK_ESC ∧ isRegSpace R.LK_ESC = true ∧ BN.base 24 ≤ R.LK_ESC ∧ UE.base 8 ≤ R.LK_ESC ∧ R.LK_ESC < R.GH_MB_DB 0 ∧ R.LK_ESC < R.HX_MSIX_ENTRY 0)
    ∧ ((regAt (R.UE_SCRUB_CFG 7)).isSome = true ∧ State.reset.stackUp ((R.UE_SCRUB_CFG 7 - UE.base 0) / 0x10000) = true) ∧ (State.reset.bench 23).out = false := by decide +kernel
/-- A register takes its RW bits, and each half of it by itself. -/
theorem test_register_write : (match exec (.registerWrite true R.LK_E2E 4 0xFFFFFFFF) State.reset with | .next t => t.rn R.LK_E2E | _ => 0) = 0x7FFFF
    ∧ (match exec (.registerWrite true (R.HX_VEC_MAP 1 + 4) 4 7) State.reset with | .next t => t.rn (R.HX_VEC_MAP 1) | _ => 0) = 1 := by decide +kernel

/-- Ring 2 enabled with 64 entries and TAIL at 1. -/
def ringOn2 : State := (hostOn.setRn (R.HX_RB_CFG 2) (2 ^ 63 + 6 * 2 ^ 48)).setRn (R.HX_DB 2) 1
/-- Ring 2 with an entry at its head. -/
def ringHas (ws : List Nat) (s : State) (st : Option (Nat × Nat)) : State := s.modRing 2 (fun x => { x with q := [{ cmd := cm ws, slot := 0, phase := true, time := 0, done := st }] })

theorem wit_RingsFetchAndReport :
    let d := ringHas [0x85] ringOn2 (some (0, 0))
    let m : State := { (State.reset.setRn (R.HX_MSIX_PBA 0) 2) with msixEn := true }
    ringOn2.canonical = true ∧ ringOn2.ringSize 2 = 64 ∧ ((63 : Nat) % 2 ^ 16 < 64 ∧ (64 : Nat) ≤ 64 % 2 ^ 16) ∧ ringOn2.ringOn 2 = true ∧ ringOn2.hostUp = true ∧ 0 < ringOn2.ringAhead 2 ∧ d.pci.d3 = false
    ∧ ((d.ring 2).q.map (fun e => (e.done, e.started, e.silent)) = [(some (0, 0), false, false)]) ∧ ringOn2.rbit (R.HX_RB_CFG 2) 63 = true ∧ State.reset.rbit (R.HX_RB_CFG 2) 63 = false
    ∧ (let g := (State.reset.setRn (R.HX_VEC_MAP 2) (2 ^ 31)).modRing 2 (fun x => { x with held := true }); g.canonical = true ∧ g.rbit (R.HX_VEC_MAP 2) 31 = true ∧ (g.ring 2).held = true ∧ (g.ring 2).lastIrq = none) ∧ State.reset.rbit (R.HX_VEC_MAP 2) 31 = false
    ∧ ((State.reset.modRing 2 (fun x => { x with held := true })).ring 2).held = true ∧ (State.reset.modRing 2 (fun x => { x with held := true })).us = 0 ∧ (State.reset.rfld (R.HX_RB_CFG 2) 31 16) = 0 ∧ (State.reset.ring 2).held = false
    ∧ ((((State.reset.setRn (R.HX_RB_CFG 2) (9 * 2 ^ 16)).modRing 2 (fun x => { x with held := true, lastIrq := some 0 })).ring 2).lastIrq = some 0 ∧ (0 : Nat) < 0 + (State.reset.setRn (R.HX_RB_CFG 2) (9 * 2 ^ 16)).rfld (R.HX_RB_CFG 2) 31 16)
    ∧ (m.canonical = true ∧ m.msixEn = true ∧ m.msixMask = false ∧ m.rbit (R.HX_MSIX_ENTRY 3) 32 = true ∧ m.rbit (R.HX_MSIX_PBA 0) 1 = true) := by decide +kernel

/-- Page tables that map the first 2 MiB of context 0 onto themselves. -/
def mapped0 (s : State) : State := memAt 0x12000 [29] (memAt 0x11000 [0x12001] (memAt 0x10000 [0x11001] (s.setRn (R.MM_CTX 0) 0x10001)))
/-- A module without code: version, section type of the second entry, CRC as R298 computes it. It stands across two pages, since a second access to
a page may hit a cached translation or not, which is free. -/
def moduleWords (ver typ crc : Nat) : List Nat := [0x4E564445 + ver * 2 ^ 32 + 2 * 2 ^ 48, 96, 1, crc, 0, 0, 0, 0, 1, 0, typ, 0]
/-- LOAD of a module at 0x2FFC0 into 4 KiB at 0x40000, on bench 0. -/
def loadState (ms : List Nat) : State := ringHas [0x80, 0x2FFC0, 96, 0x40000, 0x1000, 1] (memAt 0x2FFC0 ms (mapped0 ringOn2)) none
def loaded : Module := { handle := 1, mask := 1, ctx := 0, code := 0x40000, entries := [0x40000], syncBase := 0, syncNeed := 1, freeze := 0, ops := [] }

theorem wit_RingEntriesRun :
    let head (ws : List Nat) : State := ringHas ws ringOn2 none
    let is (ws : List Nat) (op : Nat) : Bool := ((head ws).ringHead 2 op).isSome
    let withM (s : State) : State := { s with modules := [loaded] }
    (is [0x84] 0x84 = true ∧ is [0x84, 0, 1] 0x84 = true ∧ State.reset.syncVal 0 < 1) ∧ is [0x85] 0x85 = true ∧ is [0x83] 0x83 = true
    ∧ (is [0x82, 1] 0x82 = true ∧ (withM (head [0x82, 1])).runPending 2 1 = false ∧ ({ withM (head [0x82, 1]) with runs := [{ ring := 1, handle := 1, mask := 1 }] } : State).runPending 2 1 = true ∧ State.reset.modules = [])
    ∧ (is [0x81, 1] 0x81 = true ∧ (withM (head [0x81, 1])).module? 1 = some loaded ∧ loaded.entries.length ≤ 1 ∧ loaded.entries[0]? = some 0x40000 ∧ gang loaded.mask = [0]
      ∧ (withM (head [0x81, 1])).gangIdle 1 = true ∧ (State.reset.modCore 0 (fun (x : Core) => { x with st := 2 })).gangIdle 1 = false
      ∧ (withM (head [0x81, 1])).runBefore 2 1 = false ∧ (withM (head [0x81, 1])).runBefore 3 1 = true ∧ ((onBench (fun x => { x with fenced := true })).bench 0).out = true)
    ∧ (is [0x80] 0x80 = true ∧ ((cm [0x80]).f 5 23 0 = 0)) := by decide +kernel

theorem wit_RingEntriesRun_load :
    let io (s : State) : State × LoadIo := (s.loadStart 2 1).loadRead 2 0 0x2FFC0 96 none
    let got (s : State) : Bytes := match (io s).2 with | .got m => m | _ => []
    let good := got (loadState (moduleWords 0x100 2 0xFC09B490))
    let old := got (loadState (moduleWords 0x200 2 0x613E0204))
    let table := got (loadState (moduleWords 0x100 7 0xC8011585))
    let bent := got (loadState (moduleWords 0x100 2 0))
    let u := (io (loadState (moduleWords 0x100 2 0xFC09B490))).1
    (loadState []).gangIdle 1 = true ∧ (loadState []).loading 2 1 = false ∧ ((loadState []).loadStart 2 1).loading 2 1 = true ∧ ((loadState []).ring 2).after = none
    ∧ (match (io ringOn2).2 with | .bad => true | _ => false) = true ∧ (headerOk good 96 && moduleCrcOk good && tableOk good && entriesOk good && leAt good 4 2 == 0x100) = true
    ∧ headerOk good 256 = false ∧ (headerOk bent 96 = true ∧ moduleCrcOk bent = false)
    ∧ (headerOk old 96 && moduleCrcOk old && leAt old 4 2 != 0x100) = true ∧ (headerOk table 96 && moduleCrcOk table && leAt table 4 2 == 0x100 && !tableOk table) = true
    ∧ u.handleFree = some 1 ∧ u.syncFree 1 = some 0 ∧ u.loadFault 0 good = none ∧ parseOps 96 (sectionBytes good 2) = [] ∧ Tr.ok ⟨1, 0x40000, 0x1000, 0, 1, [], [], [], [], [], [], []⟩ = true
    ∧ placesOk 0x40000 0x1000 0x40000 [(0x40000, []), (0x40040, []), (0x40080, []), (0x400C0, [])] = true
    ∧ ((u.loadWrite 2 0 [(0x40000, []), (0x40040, []), (0x40080, []), (0x400C0, [])]).2 = true ∧ (u.loadWrite 2 0 []).1.ringOut 2 = false) := by decide +kernel
/-- An operation that fails by itself: a code that R297 does not list, and a block that ends without beginning (R183, R299). -/
theorem wit_RingEntriesRun_operation :
    (opCheck (leBytes 8 (0x10000 + 0x77) ++ List.replicate 120 0)).1 = some 0 ∧ (blocksOf 0 none [{ op := 1, attr := 32, par := [], opnds := [] }]).isLeft = true := by decide +kernel
/-- A peer that holds the module is asked for its lines, and the LOAD waits. -/
theorem wit_RingEntriesRun_peer :
    let s := (loadState []).modRing 2 (fun x => { x with refused := false })
    ({ s with txns := [⟨.ring 2, false, 1, 0, 1, none⟩] } : State).ringOut 2 = true ∧ s.ringOut 2 = false := by decide +kernel

/-! ## Control cores -/

/-- Core 0 running at a place, with words of memory; context 0 maps the first 2 MiB uncached onto itself, the next to device 2, the next to the host. -/
def coreAt (pc : Nat) (ws : List (Nat × Nat)) (f : Core → Core) : State :=
  let m := memAt 0x12000 [93, 157 + 2 * 2 ^ 48, 285] (memAt 0x11000 [0x12001] (memAt 0x10000 [0x11001] (State.reset.setRn (R.MM_CTX 0) 0x10001)))
  (ws.foldl (fun t p => t.wrLe p.1 4 p.2) m).modCore 0 (fun x => f { x with st := 2, pc := pc })
/-- Core 0 about to run one instruction at 0x20000. -/
def coreRuns (e : Ed) (f : Core → Core) : State := coreAt 0x20000 [(0x20000, e.encode)] f
/-- Registers 1 and 2. -/
def regs12 (a c : Nat) (x : Core) : Core := { x with g := (x.g.set 1 (BitVec.ofNat 64 a)).set 2 (BitVec.ofNat 64 c) }
/-- The premise State.fetches as a test, with the state after the fetch. -/
def fetchOk (s : State) (e : Ed) : Bool :=
  let x := s.core 0
  !(s.bench 0).out && x.st == 2 && x.claim.isNone && x.due == 0 && x.pc % 4 == 0 && !(!x.stepping && !x.mid && s.rbit (R.CC_BRK_CFG 0) 2 && s.rn (R.CC_BRK_PC 0) == x.pc)
    && (match s.fetch 0 x.pc with | (_, .inr w) => Ed.decode w == some e | _ => false)
/-- The state after the fetch. -/
def fetched (s : State) : State := (s.fetch 0 (s.core 0).pc).1

theorem fetchOk_spec {s : State} {e : Ed} (h : fetchOk s e = true) : s.fetches 0 e (fetched s) := by
  unfold fetchOk at h
  simp only [Bool.and_eq_true, Bool.not_eq_true', beq_iff_eq, Option.isNone_iff_eq_none] at h
  obtain ⟨⟨⟨⟨⟨⟨h1, h2⟩, h3⟩, h4⟩, h5⟩, h6⟩, h7⟩ := h
  refine ⟨h1, h2, h3, h4, h5, ?_, ?_⟩
  · exact h6
  · unfold fetched
    split at h7
    · next p w hw => exact ⟨w, by rw [hw], by simpa using h7⟩
    · cases h7

/-- Every form that the statements name is fetched. -/
theorem wit_EdvenIntegerOps :
    ((List.finRange 18).all (fun f => fetchOk (coreRuns (.alu f 3 1 2) id) (.alu f 3 1 2))) = true
    ∧ ([Ed.imm 0 3 1 65535, .imm 1 3 1 9, .imm 2 3 1 9, .imm 3 3 1 9, .imm 4 3 1 63, .imm 5 3 1 63, .imm 6 3 1 63, .imm 7 3 0 9, .imm 8 3 0 9, .imm 9 3 1 9, .lcset 1 2, .lcget 3 1].all
      (fun e => fetchOk (coreRuns e id) e)) = true
    ∧ (let t := fetched (coreRuns (.alu 12 3 1 2) (regs12 (2 ^ 63) (2 ^ 64 - 1))); t.gr 0 1 = 2 ^ 63 ∧ t.gr 0 2 = 2 ^ 64 - 1) := by decide +kernel
/-- Division of −2^63 by −1 and by 0, and the remainder of −7 by 2. -/
theorem test_ed_division :
    let go (i : Instr) (f : Fin 18) (a c : Nat) : Nat := match exec i (coreRuns (.alu f 3 1 2) (regs12 a c)) with | .next t => t.gr 0 3 | _ => 1
    go (.edDiv 0 3 1 2) 12 (2 ^ 63) (2 ^ 64 - 1) = 2 ^ 63 ∧ go (.edDivu 0 3 1 2) 10 5 0 = 0 ∧ go (.edRemu 0 3 1 2) 11 5 0 = 5 ∧ go (.edRem 0 3 1 2) 13 (2 ^ 64 - 7) 2 = 2 ^ 64 - 1 := by decide +kernel

theorem wit_EdvenLoadsAndStores :
    let e : Ed := .ld 3 3 1 8
    let at_ (a : Nat) (f : Core → Core) : State := fetched (coreRuns e (fun x => f (regs12 a 0 x)))
    ((List.finRange 7).all (fun f => fetchOk (coreRuns (.ld f 3 1 8) id) (.ld f 3 1 8))) = true ∧ ((List.finRange 4).all (fun f => fetchOk (coreRuns (.st f 3 1 8) id) (.st f 3 1 8))) = true
    ∧ (((at_ 0x30000 id).coreLoad 0 0x30008 8 none).2 = .val [0, 0, 0, 0, 0, 0, 0, 0]) ∧ (((at_ 0x200000 (fun x => { x with io := .waiting })).coreLoad 0 0x200008 8 none).2 = .wait)
    ∧ (((at_ 0x600000 id).coreLoad 0 0x600008 8 none).2 = .fault 3 1) ∧ ((at_ 1 id).gr 0 1 + simm 8) % 2 ^ 64 % 8 ≠ 0
    ∧ (((at_ 0x30000 id).coreStore 0 0x30008 [1, 2]).2 = .val [] ∧ ((at_ 0x200000 (fun x => { x with io := .waiting })).coreStore 0 0x200008 [1, 2]).2 = .wait ∧ ((at_ 0x600000 id).coreStore 0 0x600008 [1]).2 = .fault 3 1)
    ∧ (match (at_ 0x30000 id).coreXlate 0 0x30008 false with | (u, .inr x) => decide (x.target = .lcl) && !isRegSpace x.addr && x.nc && (u.read x.addr 8).isSome && ((u.poisonLine x.addr).read x.addr 8).isNone | _ => false) = true := by decide +kernel

theorem wit_EdvenControlFlow :
    let far := coreAt 0x2FFFC [(0x2FFFC, (Ed.loopi 1 5 1).encode), (0x30000, (Ed.sys 7 0 0).encode)] id
    let farJ := coreAt 0x2FFFC [(0x2FFFC, (Ed.loopi 1 5 1).encode), (0x30000, (Ed.j 0).encode)] id
    let none_ := coreAt 0x2FFFC [(0x2FFFC, (Ed.loopi 1 0 1).encode), (0x30000, (Ed.sys 7 0 0).encode)] id
    let reg := coreAt 0x2FFFC [(0x2FFFC, (Ed.loop 1 2 1).encode), (0x30000, (Ed.sys 7 0 0).encode)] (regs12 0 3)
    let last (s : State) : Option Nat := match (fetched s).fetch 0 0x30000 with | (_, .inr w) => some w | _ => none
    let inBody (lc : Nat) (x : Core) : Core := { x with lc := x.lc.set 1 (BitVec.ofNat 64 lc), loops := x.loops.set 1 ⟨true, 0x1FFF0, 0x20000⟩ }
    ((List.finRange 6).all (fun f => fetchOk (coreRuns (.br f 1 2 65535) id) (.br f 1 2 65535))) = true
    ∧ (fetchOk (coreRuns (.jal 3) id) (.jal 3) && fetchOk (coreRuns (.j 3) id) (.j 3) && fetchOk (coreRuns (.jr 1 2) id) (.jr 1 2)) = true
    ∧ (signed 64 (2 ^ 64 - 1) < signed 64 1 ∧ ¬ ((2 ^ 64 - 1 : Nat) < 1))
    ∧ (fetchOk far (.loopi 1 5 1) = true ∧ last far = some (Ed.sys 7 0 0).encode ∧ (Ed.sys 7 0 0).endsBody = false ∧ ((fetched far).core 0).loops.toList.all (fun l => !l.active) = true)
    ∧ (fetchOk farJ (.loopi 1 5 1) = true ∧ last farJ = some (Ed.j 0).encode ∧ (Ed.j 0).endsBody = true) ∧ (fetchOk none_ (.loopi 1 0 1) = true ∧ last none_ = some (Ed.sys 7 0 0).encode)
    ∧ (fetchOk reg (.loop 1 2 1) = true ∧ last reg = some (Ed.sys 7 0 0).encode ∧ (fetched reg).gr 0 2 = 3) ∧ fetchOk (coreRuns (.loopi 1 5 0) id) (.loopi 1 5 0) = true
    ∧ (((coreRuns (.sys 7 0 0) (inBody 2)).core 0).loops[(1 : Fin 4)] = ⟨true, 0x1FFF0, 0x20000⟩ ∧ 1 < (((coreRuns (.sys 7 0 0) (inBody 2)).core 0).lc[(1 : Fin 4)]).toNat
      ∧ (((coreRuns (.sys 7 0 0) (inBody 1)).core 0).lc[(1 : Fin 4)]).toNat ≤ 1)
    ∧ (State.reset.setRn (R.CC_CFG 0) 0).rbit (R.CC_CFG 0) 0 = false := by decide +kernel

theorem wit_EdvenFloatingPoint :
    ([0, 1, 2, 3, 4, 5, 6, 7, 8, 9, 10, 11, 12, 16, 17, 18, 19, 20, 21, 22, 24, 25, 26, 27].all (fun f => fetchOk (coreRuns (.fp f 3 1 2) id) (.fp f 3 1 2))) = true
    ∧ (fpOperand 0x7FC00000 FP32).1.isNan = true ∧ (fpOperand 0x3F800000 FP32).1.isNan = false ∧ (fpOperand 0x80000000 FP32).1.isNan = false := by decide +kernel
/-- 1 + 1 = 2, and the greatest finite value doubled saturates (R35). -/
theorem test_fp : (fpAdd 0x3F800000 0x3F800000).1 = 0x40000000 ∧ (fpMul 0x40000000 0x40400000).1 = 0x40C00000 ∧ (fpDiv 0x3F800000 0x40000000).1 = 0x3F000000 ∧ (fpSqrt 0x40800000).1 = 0x40000000 := by decide +kernel

theorem wit_EdvenSystemInstructions :
    let t (e : Ed) (f : Core → Core) : State := fetched (coreRuns e f)
    let full : State := (t (.que 0 8 0 0) id).modBench 0 (fun x => { x with q := { x.q with cmds := List.replicate 64 (cm []) } })
    let step (c : Nat) (kind : StepKind) : OpStep := ⟨c, [], none, kind⟩
    let push : OpStep := step 0 (.push ⟨0, cm [], [], [], none⟩)
    let withOps (ops : List OpStep) : State := { coreRuns (.top 3 0) (fun x => { x with handle := 1 }) with modules := [{ loaded with ops := [ops] }] }
    let opsOf (s : State) := (s.modules.find? (fun m => m.handle == (s.core 0).handle)).bind (fun m => m.ops[0]?)
    ([Ed.sys 0 0 0, .sys 7 0 0, .sys 1 0 1, .sys 2 0 1, .sys 3 0 0, .sys 4 0 0, .sys 5 0 0, .sys 6 3 0, .que 0 8 0 0, .que 0 9 0 0, .que 1 0 1 0, .que 2 3 0 0, .que 8 0 1 255, .que 9 0 1 255, .que 10 3 0 255,
      .que 11 0 1 255, .que 16 0 1 7, .que 24 3 1 3, .que 25 3 1 3, .que 32 3 1 31, .top 3 0].all (fun e => fetchOk (coreRuns e id) e)) = true
    ∧ (((t (.sys 1 0 1) (regs12 0x30000 0)).coreXlate 0 0x30000 false).2.isRight = true ∧ ((t (.sys 1 0 1) (regs12 0x600000 0)).coreXlate 0 0x600000 false).2.isLeft = true)
    ∧ ((t (.que 0 8 0 0) id).openQueue 0 0x30 = none ∧ (t (.que 0 8 0 0) id).openQueue 0 0 = some (.bench 0) ∧ (t (.que 0 8 0 0) id).breaks 0 0 (cm []) = false
      ∧ (((t (.que 0 8 0 0) id).setRn (R.CC_BRK_CFG 0) 1).breaks 0 0 (cm [])) = true ∧ (QRef.bench 0).depth ≤ (full.queue (.bench 0)).cmds.length ∧ ((t (.que 0 8 0 0) id).queue (.bench 0)).cmds.length < (QRef.bench 0).depth)
    ∧ (match (t (.que 1 0 1 0) (regs12 0x30000 0)).coreLoad 0 0x30000 64 none with | (u, .val d) => u.openQueue 0 0 == some (.bench 0) && !u.breaks 0 0 (Cmd.ofBytes d) | _ => false) = true
    ∧ ((t (.que 9 0 1 0) (regs12 1 0)).syncVal 0 < (t (.que 9 0 1 0) (regs12 1 0)).gr 0 1 ∧ (t (.que 9 0 1 0) id).gr 0 1 ≤ (t (.que 9 0 1 0) id).syncVal 0)
    ∧ (((t (.que 16 0 1 7) id).core 0).marks.length < 8 ∧ 8 ≤ ((t (.que 16 0 1 7) (fun x => { x with marks := List.replicate 8 ⟨0, 0, []⟩ })).core 0).marks.length)
    ∧ (match (t (.que 24 3 1 3) (regs12 0x30000 0)).coreLoad 0 0x30000 16 none with | (_, .val _) => true | _ => false) = true
    ∧ (((t (.que 25 3 1 3) id).core 0).slots[(3 : Fin 4)] = none ∧ ((t (.que 25 3 1 3) (fun x => { x with slots := x.slots.set 3 (some (5, 6)) })).core 0).slots[(3 : Fin 4)] = some (5, 6))
    ∧ (t (.que 32 3 1 31) id).stackUp ((t (.que 32 3 1 31) id).vopStack 0) = true
    ∧ (opsOf (t (.top 3 0) id) = none ∧ opsOf (fetched (withOps [step 1 (.await 0 0)])) = some [step 1 (.await 0 0)] ∧ opsOf (fetched (withOps [push])) = some [push]
      ∧ (((fetched (withOps [push])).core 0).topPos = 0 ∧ ((fetched (withOps [push])).core 0).work = {})
      ∧ opsOf (fetched (withOps [step 0 (.await 0 1)])) = some [step 0 (.await 0 1)] ∧ (fetched (withOps [])).syncVal 0 < 1 ∧ opsOf (fetched (withOps [step 0 (.pin 7)])) = some [step 0 (.pin 7)])
    ∧ (let bad := step 0 (.push ⟨0, cm [], [⟨1, 0x600000, 64, true, 0x600000, 64⟩], [], none⟩)
       (match (bindTop 0 0 0 0 [bad] 0 (fetched (withOps [bad])) [bad]).2 with | .inl e => e.1 != 6 | _ => false) = true) := by decide +kernel

theorem wit_CoresHaltAndResume :
    let bad := coreAt 0x20000 [(0x20000, 0x2C000000)] id
    let s3 : State := coreRuns (.sys 7 0 0) (fun x => { x with st := 3, cause := 4 })
    let step' := s3.modCore 0 (fun y => { y with st := 2, cause := 0, stepping := true, due := 0 })
    let mark (need : List (QRef × Nat)) : State := State.reset.modCore 0 (fun x => { x with marks := [⟨0, 0, need⟩] })
    ((bad.bench 0).out = false ∧ bad.canonical = true ∧ bad.rbit (R.CC_BRK_CFG 0) 2 = false)
    ∧ (match bad.fetch 0 0x20000 with | (t, .inr w) => (Ed.decode w).isNone && decide ((t.core 0).pc = 0x20000) && t.canonical | _ => false) = true
    ∧ ((coreAt 0x20002 [] id).core 0).pc % 4 ≠ 0 ∧ (s3.core 0).st = 3 ∧ (bad.core 0).st = 2 ∧ (State.reset.core 0).st ≠ 3
    ∧ ((coreRuns (.sys 7 0 0) (fun x => { x with due := 3 })).core 0).due = 3 ∧ (fetchOk step' (.sys 7 0 0) = true ∧ ((fetched step').core 0).stepping = true ∧ ((fetched step').core 0).st = 2)
    ∧ (State.reset.core 0).marks = [] ∧ ([(QRef.bench 0, 1)].all State.reset.dispatched = false ∧ ([] : List (QRef × Nat)).all State.reset.dispatched = true ∧ ((mark []).core 0).marks = [⟨0, 0, []⟩])
    ∧ (State.reset.rbit R.GH_PHASE_CFG 31 = false ∧ (State.reset.setRn R.GH_PHASE_CFG (2 ^ 31)).rbit R.GH_PHASE_CFG 31 = true) := by decide +kernel

/-! ## Ports, flits and peers -/

/-- The reset state with port 0 changed. -/
def onPort (f : Port → Port) : State := State.reset.modPort 0 f
/-- Port 0 in a state. -/
def portIs (st : PortSt) : State := onPort (fun x => { x with st := st })
/-- A data flit to device 0, which is this module's number at reset. -/
def toMe (typ : Nat) (pl : Bytes) : Flit := { src := 9, dst := 0, typ := typ, id := 0x10000, payload := pl }

theorem wit_PortStates :
    let q : Port := (portIs .quarantine).port 0
    let m : State := (portIs .quarantine).setRn (R.LK_NONCE 0) 7
    let n : Port := (onPort (fun x => { x with st := .quarantine, nonce := 0x0201, remoteGrant := true })).port 0
    let t : Port := (onPort (fun x => { x with st := .retrain, prev := .admitted, width := 3, lanes := 15 })).port 0
    let g : State := (onPort (fun x => { x with st := .quarantine, hb := true })).setRn (R.LK_HB_EPOCH 0) 9 |>.setRn (R.LK_NONCE 0) 7
    State.reset.canonical = true ∧ (∀ st ∈ [PortSt.down, .train, .ident, .quarantine, .admitted, .retrain], ((portIs st).decode 0 { kind := 2 }).2 = true)
    ∧ (g.mismatch 0 = true ∧ 7 % 2 ^ 64 = g.rn (R.LK_NONCE 0) ∧ (g.port 0).live = true ∧ (g.decode 0 { kind := 2 }).2 = true ∧ m.mismatch 0 = false ∧ q.exch = false ∧ t.later = [])
    ∧ ((t.lanes &&& (15 - State.reset.lanesLost 0 0 [0, 0, 0, 0])) = t.lanes ∧ (t.lanes &&& (15 - State.reset.lanesLost 0 1 [0, 0, 0, 0])) ≠ t.lanes ∧ State.reset.rfld (R.LK_CFG 0) 15 0 < [0, 2000, 0, 0].getD 1 0
      ∧ ((onPort (fun x => { x with st := .retrain, prev := .admitted, width := 3, lanes := 15 })).decode 0 { kind := 2 }).2 = true)
    ∧ (State.reset.port 0).st = .down ∧ (State.reset.setRn (R.LK_CTRL 0) 1).rbit (R.LK_CTRL 0) 0 = true ∧ ((portIs .ident).port 0).st ≠ .down
    ∧ (((portIs .train).port 0).st = .train ∧ widthOf 15 ≠ 0 ∧ widthOf 16 = 0 ∧ q.st ≠ .train)
    ∧ (((portIs .ident).port 0).st = .ident ∧ (portIs .ident).wired 0 0 10 1 = true ∧ (portIs .ident).wired 0 0 10 2 = false ∧ q.st ≠ .ident)
    ∧ (q.live = true ∧ 8 % 2 ^ 64 ≠ m.rn (R.LK_NONCE 0) ∧ 7 % 2 ^ 64 = m.rn (R.LK_NONCE 0) ∧ (m.port 0).st = .quarantine ∧ (m.port 0).wait = [] ∧ m.canonical = true)
    ∧ (n.live = true ∧ leAt (leBytes 8 0x0201) 0 8 = n.nonce ∧ leAt (leBytes 8 5) 0 8 ≠ n.nonce ∧ n.st = .quarantine ∧ n.wait = [])
    ∧ (((portIs .admitted).port 0).live = true ∧ ((portIs .admitted).port 0).wait = [] ∧ (portIs .admitted).hbMatch (9, 9) (0, 0) = false
      ∧ (portIs .admitted).hbMatch ((portIs .admitted).rn R.LK_EPOCH, (portIs .admitted).rn R.LK_DIGEST) (0, 0) = true)
    ∧ ((State.reset.port 0).live = false) ∧ (t.st = .retrain ∧ t.wide = false ∧ min t.width (widthOf (t.lanes &&& 3)) ≠ 0 ∧ t.nak = none ∧ t.wait = []) ∧ q.st ≠ .retrain := by decide +kernel
/-- A heartbeat that does not match quarantines an admitted port, with cause 2. -/
theorem test_heartbeat : (match exec (.heartbeatFlit 0 { kind := 2, area := leBytes 2 1 ++ leBytes 8 9 }) (portIs .admitted) with
    | .next t => decide ((t.port 0).st = .quarantine) && decide ((t.port 0).qcause = 2) | _ => false) = true := by decide +kernel

theorem wit_LinkFlitsInOrder :
    let a : State := portIs .admitted
    let d : State := onPort (fun x => { x with st := .admitted, discard := true })
    let full : State := onPort (fun x => { x with st := .admitted, room := List.replicate 8 0 })
    let sent : State := onPort (fun x => { x with st := .admitted, replay := [(4, { kind := 1 }, 0), (5, { kind := 1 }, 0)] })
    let ack : State := { State.reset with inbox := [(0, { toMe 0x21 (leBytes 4 3) with src := 0x0800 })] }
    let tx (n : Nat) : State := ((State.reset.setRn R.LK_E2E (3 * 2 ^ 16)).setRn (R.LK_ROUTE 4) (2 ^ 31)).setE2e { dst := 0x0800, unacked := [({ toMe 1 [] with pseq := 5 }, n, 0)] }
    let rx (n : Nat) : State := { State.reset with e2eRx := [{ src := 9, fresh := n }] }
    let bad : State := onPort (fun x => { x with st := .admitted, rxFlits := 1, cwBad := true })
    ((a.decode 0 { kind := 0 }).2 = true ∧ (a.decode 0 { kind := 0, errs := 16 }).2 = false ∧ (codewordIn (a.port 0).rxFlits).isSome = true ∧ (bad.decode 0 { kind := 0 }).2 = false ∧ (bad.port 0).live = true
      ∧ (a.port 0).takes 0 = true ∧ ((portIs .quarantine).port 0).takes 0 = false ∧ ((portIs .quarantine).port 0).live = true)
    ∧ (a.canonical = true ∧ (a.port 0).live = true ∧ (a.port 0).wait = [] ∧ (a.port 0).discard = false ∧ (d.port 0).live = true ∧ (d.port 0).discard = true ∧ (State.reset.port 0).live = false)
    ∧ (1 ≠ (a.port 0).rxSeq ∧ 0 = (a.port 0).rxSeq ∧ (a.port 0).room.getD 0 0 ≠ 0 ∧ typeKnown 1 = true ∧ typeKnown 6 = false ∧ (toMe 1 []).dst = a.dev ∧ (toMe 1 []).e2e = false
      ∧ (full.port 0).live = true ∧ 0 = (full.port 0).rxSeq ∧ (full.port 0).room.getD 7 0 = 0 ∧ (full.port 0).wait = [])
    ∧ ((sent.port 0).live = true ∧ (sent.port 0).wait = [] ∧ (sent.port 0).replay.findIdx? (fun e => e.1 == 5) = some 1)
    ∧ (ack.inbox = [(0, { toMe 0x21 (leBytes 4 3) with src := 0x0800 })] ∧ (ack.e2eOf 0x0800).hold = [])
    ∧ (((tx 1).e2eOf 0x0800).unacked.find? (fun e => e.1.pseq == 5) = some ({ toMe 1 [] with pseq := 5 }, 1, 0) ∧ 1 < (tx 1).rfld R.LK_E2E 18 16 ∧ (tx 1).routeAlts (devT 0x0800) ≠ []
      ∧ ((tx 1).setRn (R.LK_ROUTE 4) 0).routeAlts (devT 0x0800) = []
      ∧ (tx 3).rfld R.LK_E2E 18 16 ≤ 3 ∧ (tx 3).txns = [] ∧ ((tx 3).e2eOf 0x0800).hold = [] ∧ (tx 3).canonical = true)
    ∧ ((rx 0).e2eRx.find? (fun r => r.src == 9) = some { src := 9 } ∧ (rx 2).e2eRx.find? (fun r => r.src == 9) = some { src := 9, fresh := 2 }) := by decide +kernel
theorem wit_LinkFlitsInOrder_escape :
    let wf : WaitFlit := ⟨0, 1, none, toMe 1 []⟩
    let held (p : Fin 16) (cr : Nat) (g : WaitFlit) : State := ((State.reset.setRn R.LK_ESC (2 ^ 16)).modPort p (fun x => { x with st := .admitted, credits := List.replicate 8 cr, wait := [g] })).modPort 1
      (fun x => { x with st := .admitted })
    (((held 4 0 wf).port 4).wait.find? (fun y => y.vc == 0) = some wf ∧ (held 4 0 wf).rbit R.LK_ESC 16 = true ∧ isTerrace (4 : Fin 16).val = true ∧ ((held 4 0 wf).port 4).credits.getD 0 0 = 0 ∧ wf.flit.esc < 7
      ∧ (held 4 0 wf).escapePort = some 1 ∧ (held 4 0 wf).canonical = true ∧ isWork (4 : Fin 16).val = false)
    ∧ (((held 11 0 wf).port 11).st = .admitted ∧ isWork (11 : Fin 16).val = true ∧ ((held 11 0 wf).port 11).wait.find? (fun y => y.vc == 0) = some wf
      ∧ (((held 11 0 wf).modPort 11 (fun x => { x with st := .down })).port 11).carries 0 = false ∧ (((held 11 0 wf).modPort 11 (fun x => { x with st := .down })).port 11).st ≠ .retrain)
    ∧ (let stuck : WaitFlit := ⟨0, 1, none, { toMe 2 [] with esc := 7 }⟩; ((held 4 0 stuck).port 4).wait.find? (fun y => y.vc == 0) = some stuck ∧ 7 ≤ stuck.flit.esc ∧ stuck.flit.typ ≠ 1 ∧ stuck.flit.typ ≠ 3)
    ∧ (((held 4 0 wf).modPort 1 (fun x => { x with st := .down })).escapePort = none)
    ∧ (((held 4 9 wf).port 4).credits.getD 0 0 ≠ 0 ∧ ((held 4 9 wf).port 4).carries 0 = true ∧ (State.reset.setRn R.LK_ESC 256).rbit R.LK_ESC 16 = false ∧ (State.reset.port 0).wait.find? (fun y => y.vc == 0) = none) := by decide +kernel

theorem wit_PeerRequestsAnswered :
    let got (typ id : Nat) (pl : Bytes) (s : State) : State := { s with inbox := [(0, { toMe typ pl with id := id })] }
    let mem : State := State.reset.setRn R.LK_DEV (2 ^ 16)
    let open_ (who : TxnFor) (wr : Bool) : State := { State.reset with txns := [{ who := who, write := wr, dev := 9, addr := 0x10000, lines := 1 }] }
    (mem.member = true ∧ State.reset.member = false ∧ peerRange mem 0 1 = true ∧ peerRange mem 0 3 = true ∧ peerRange mem 0 4 = false ∧ peerRange mem 32 1 = false ∧ (mem.read 0 64).isSome = true
      ∧ ((mem.poisonLine 0).read 0 64).isNone = true ∧ (mem.poisonLine 0).member = true ∧ peerRange (mem.poisonLine 0) 0 1 = true ∧ leAt [1] 0 1 = 1 ∧ leAt (padTo 192 [] ++ [1]) 192 1 = 1)
    ∧ ((got 1 0 [1] mem).inbox = [(0, { toMe 1 [1] with id := 0 })])
    ∧ (State.reset.txnOf (toMe 2 []) (some false) = none ∧ State.reset.txnOf (toMe 4 []) (some true) = none ∧ State.reset.txnOf (toMe 5 []) none = none)
    ∧ ((open_ (.core 0) false).txnOf (toMe 2 []) (some false) = some { who := .core 0, write := false, dev := 9, addr := 0x10000, lines := 1 }
      ∧ (leAt (padTo 193 [] ++ [0]) 193 1).testBit 0 = false ∧ (leAt (padTo 193 [] ++ [1]) 193 1).testBit 0 = true)
    ∧ ((open_ (.core 0) true).txnOf (toMe 4 []) (some true) = some { who := .core 0, write := true, dev := 9, addr := 0x10000, lines := 1 }
      ∧ (open_ (.derrick 3 1) true).txnOf (toMe 4 []) (some true) = some { who := .derrick 3 1, write := true, dev := 9, addr := 0x10000, lines := 1 })
    ∧ ((open_ (.core 0) true).txnOf (toMe 5 []) none = some { who := .core 0, write := true, dev := 9, addr := 0x10000, lines := 1 }
      ∧ (open_ (.core 0) true).txns[0]? = some { who := .core 0, write := true, dev := 9, addr := 0x10000, lines := 1 })
    ∧ ({ toMe 0x20 (leBytes 2 2) with mem := some (1, .probe 7) } : Flit).mem = some (1, .probe 7) ∧ (toMe 0x20 []).mem = none
    ∧ leAt (leBytes 4 1 ++ padTo 32 []) 0 2 = 1 ∧ leAt (leBytes 4 2) 0 2 ≠ 1 := by decide +kernel

/-! ## Membership -/

/-- Device 0 in membership with devices 1 and 2. -/
def trio : State := { State.reset.setRn R.LK_DEV 65536 with members := [0, 1, 2] }
/-- The membership state of the three changed. -/
def trioMb (f : Memb → Memb) : State := trio.modMb f
/-- The STAGE of an epoch as a right leader sends it: the digest is that of the record. -/
def stageOf (s : State) (e : Nat) (add rem : List Nat) : StageMsg :=
  { epoch := e, digest := recordDigest s.mb.image (changed s.allMembers add rem) e, added := add, removed := rem }
/-- A STAGE whose digest no check reads. -/
def stageX (e : Nat) : StageMsg := { epoch := e, digest := List.replicate 48 0, removed := [2] }

/-- The digest of a right STAGE fits, in every state without a new image. -/
theorem stageOf_fits (s : State) (e : Nat) (add rem : List Nat) (h : s.mb.newImage = none) :
    (recordDigest (s.stagedImage (stageOf s e add rem)) (s.stagedMembers (stageOf s e add rem)) (stageOf s e add rem).epoch == (stageOf s e add rem).digest) = true := by
  simp [State.stagedImage, State.takes, h, State.stagedMembers, stageOf]
theorem wit_EpochChanges :
    let sees (f : Memb → Memb) : State := trioMb (fun b => f { b with staged := some (stageX 1) })
    (trio.canonical = true ∧ trio.straps < 2 ^ 16)
    ∧ (trio.member = true ∧ (stageOf trio 1 [] [2]).epoch = trio.epoch + 1 ∧ (stageX 2).epoch ≠ trio.epoch + 1 ∧ State.reset.member = false ∧ State.reset.mb.joining = false)
    ∧ ((trio.stagedMembers (stageOf trio 1 [] [2]) = [0, 1]) ∧ (trio.childrenOf 0 [0, 1]).filter (· != 1) = [] ∧ (trio.childrenOf 0 [0, 1]).filter (· != 3) = [1] ∧ trio.mb.staged = none)
    ∧ ((sees id).mb.staged = some (stageX 1) ∧ (stageX 1).epoch ≠ 2 ∧ (stageX 1).epoch = 1)
    ∧ ((sees (fun b => { b with await := [1, 2] })).mb.await.contains 1 = true ∧ (sees (fun b => { b with await := [1, 2] })).mb.await.filter (· != 1) ≠ [])
    ∧ (let s := sees (fun b => { b with await := [1], replyTo := some 3 }); s.mb.await.contains 1 = true ∧ s.mb.await.filter (· != 1) = [] ∧ s.mb.leading = false ∧ s.mb.replyTo = some 3)
    ∧ (let s := sees (fun b => { b with await := [1], leading := true }); s.mb.await.contains 1 = true ∧ s.mb.await.filter (· != 1) = [] ∧ s.mb.leading = true ∧ s.mb.nextImage = none ∧ s.mb.nextAdd = [] ∧ s.mb.nextRem = []
      ∧ s.canonical = true)
    ∧ trio.mb.newImage = none := by decide +kernel
/-- A switch makes the staged epoch the active one and keeps the members that stay. -/
theorem test_switch : (match exec (.switch 1 1) (trioMb (fun b => { b with staged := some (stageX 1) })) with
    | .next t => decide (t.epoch = 1) && decide (t.members = [0, 1]) && t.mb.staged.isNone | _ => false) = true := by decide +kernel

theorem wit_SuspectsAndJoins :
    let live (s : State) : State := s.modPort 0 (fun x => { x with st := .quarantine, ident := true, qcause := 2, exch := true })
    let away : State := { State.reset.setRn R.LK_DEV (65536 + 2) with members := [0, 1, 2], straps := 2 }
    let probing (s : State) (d : Nat) : State := s.modMb (fun b => { b with probes := [(d, 7)] })
    (trio.canonical = true ∧ (State.reset.port 0).live = false ∧ ((live trio).port 0).live = true)
    ∧ (State.reset.member = false ∧ trio.joined 3 = false ∧ trio.dev = 0 ∧ trio.member = true ∧ trio.joined 2 = true ∧ 2 ≠ trio.dev)
    ∧ ((probing trio 2).mb.probes.any (fun x => x.1 == 2) = true ∧ trio.mb.probes.any (fun x => x.1 == 2) = false ∧ trio.mb.probes = [] ∧ (probing trio 3).mb.probes = [(3, 7)])
    ∧ ((probing away 1).mb.probes = [(1, 7)] ∧ (probing away 1).joined 1 = true ∧ (probing away 1).leader ≠ some 1 ∧ (probing away 1).isLeader = false)
    ∧ (trio.mb.query = none ∧ (trioMb (fun b => { b with query := some [(2, 0, false, none)] })).mb.query.map (fun l => l.map (·.1)) = some [2] ∧ trio.allMembers.contains 1 = true ∧ 1 ≠ trio.dev ∧ trio.mb.suspects.contains 1 = false)
    ∧ (trio.isLeader = true ∧ trio.mb.joins.contains 5 = false ∧ away.isLeader = false ∧ (trioMb (fun b => { b with joins := [5] })).mb.joins.contains 5 = true) := by decide +kernel
theorem wit_SuspectsAndJoins_joining :
    let live (s : State) : State := s.modPort 0 (fun x => { x with st := .quarantine, ident := true, qcause := 2, exch := true })
    let away : State := { State.reset.setRn R.LK_DEV (65536 + 2) with members := [0, 1, 2], straps := 2 }
    let join : State := live (State.reset.setRn R.FZ_LIFECYCLE 1 |>.modMb (fun b => { b with joining := true }))
    let a : State := (away.modPort 0 (fun x => { x with st := .quarantine, ident := true }) |>.modMb (fun b => { b with chal := [(0, [], [])] })).setRn (R.LK_PARTNER 0) 5
    let batch : State := trioMb (fun b => { b with joins := [5], staged := some (stageX 1) })
    let clean : State := live (trio.setRn (R.LK_NONCE 0) 7)
    (trio.mb.joins = [] ∧ batch.isLeader = true ∧ batch.mb.joins ≠ [] ∧ batch.mb.staged ≠ none)
    ∧ (join.mb.joining = true ∧ join.member = false ∧ join.rfld R.FZ_LIFECYCLE 1 0 = 1 ∧ trio.mb.joining = false ∧ (State.reset.setRn R.FZ_LIFECYCLE 2).rfld R.FZ_LIFECYCLE 1 0 ≠ 1)
    ∧ (a.member = true ∧ a.mb.chal.find? (fun c => c.1 == 0) = some (0, [], []) ∧ trio.mb.chal.find? (fun c => c.1 == 0) = none)
    ∧ (a.allMembers.contains 1 = true ∧ a.allMembers.contains (a.rfld (R.LK_PARTNER 0) 15 0) = false ∧ (a.setRn (R.LK_PARTNER 0) 1).rfld (R.LK_PARTNER 0) 15 0 = 1 ∧ ((a.port 0).live && (a.port 0).ident) = true
        ∧ (((a.modPort 0 (fun x => { x with ident := false })).port 0).live && ((a.modPort 0 (fun x => { x with ident := false })).port 0).ident) = false ∧ a.leader = some 0 ∧ 0 ≠ a.dev ∧ a.canonical = true)
    ∧ ((List.finRange 16).find? (fun p => (join.port p).st == .quarantine) = some 0 ∧ join.canonical = true)
    ∧ ((clean.port 0).st = .quarantine ∧ (clean.port 0).qcause = 2 ∧ clean.rn (R.LK_HB_EPOCH 0) = clean.epoch ∧ clean.member = true ∧ clean.rn (R.LK_NONCE 0) ≠ 0 ∧ (clean.port 0).wait = [] ∧ clean.mb.digest ≠ [1] ∧ (clean.port 0).exch = true ∧ clean.mismatch 0 = false ∧ ((trio.modPort 0 (fun x => { x with st := .quarantine })).port 0).exch = false)
    ∧ (State.reset.port 0).st ≠ .quarantine := by decide +kernel

/-! ## Collectives -/

/-- A reduce-scatter of 48 elements by this module alone, and with all slots of its course 384 elements. -/
def collCmd : Cmd := cm [0x90, 0x100, 48, 0xFFFF * 2 ^ 48, 0x1000, 0x2000, 0, 0x3000]
def collCmd8 : Cmd := cm [0x90, 0x100, 384, 0xFFF8 * 2 ^ 48, 0x1000, 0x2000, 0, 0x3000]
/-- The first with COMPRESS, its auxiliary block at 4000H. -/
def collComp : Cmd := cm [0x90, 0x100, 2 ^ 57 + 352, 0xFFFF * 2 ^ 48, 0x10000, 0x20000, 0x4000, 0x3000]
/-- Unit 0 changed. -/
def onColl (f : Coll → Coll) : State := State.reset.modColl 0 f
/-- Unit 0 with a command in its queue. -/
def collHas (c : Cmd) : State := onColl (fun x => { x with q := one c })
/-- The run of the course's reduction, just started. -/
def run8 : CollRun := { cmd := collCmd8, job := 1, start := 0, stages := [(0, 8, 0)], terr := [0], auxb := [] }
/-- A tally table without a free entry. -/
def tallyFull : State := { collHas collCmd with tally := (List.range 4096).map (fun i => (i, { id := 7 })) }

theorem wit_tally_full : tallyFull.tallyFree = none := by simp [tallyFull, State.tallyFree]
theorem wit_CollectiveQueueAndTally :
    let rdy (c : Cmd) (op : Nat) : Bool := ((collHas c).coll 0).q.ready op c
    let auxd : State := (((collHas collComp).write 0x4008 (leBytes 8 0x200)).write 0x4010 (leBytes 8 0x8000))
    let halted (c : Cmd) : EQ := ((onColl (fun x => { x with q := { one c with cause := 1 } })).coll 0).q
    ((State.reset.coll 0).wait = false ∧ rdy (cm []) 0 = true ∧ rdy (cm [0x20, 0, 1]) 0x20 = true ∧ rdy (cm [0x20]) 0x20 = true ∧ rdy (cm [0x21]) 0x21 = true ∧ rdy (cm [0x21, 2 ^ 8]) 0x21 = true)
    ∧ ((cm [0x20]).w 2 ≤ State.reset.syncVal 0 ∧ State.reset.syncVal 0 < (cm [0x20, 0, 1]).w 2 ∧ (cm [0x21]).b 1 8 = false ∧ (cm [0x21, 2 ^ 8]).b 1 8 = true
      ∧ ((onColl (fun x => { x with q := { x.q with taken := 4 }, runs := [run8] })).coll 0).runs.any (fun r => decide (r.job < ((onColl (fun x => { x with q := { x.q with taken := 4 } })).coll 0).q.nextJob)) = true)
    ∧ (((collHas [1]).coll 0).q.head? = some [1] ∧ Cmd.parOk [1] = false)
    ∧ (rdy collCmd 0x90 = true ∧ 4 ≤ ((onColl (fun x => { x with q := one collCmd, runs := List.replicate 4 run8 })).coll 0).runs.length ∧ ((collHas collCmd).coll 0).runs.length < 4)
    ∧ (collItem State.reset (cm [0x90, 0x100, 48, 0xFFFF * 2 ^ 48, 0x1001, 0x2000, 0, 0x3000]) = some 4 ∧ collItem State.reset (cm [0x90, 0x101]) = some 1 ∧ collItem State.reset (cm [0x90, 0x100]) = some 2)
    ∧ (collItem (collHas collCmd) collCmd = none ∧ (collHas collCmd).tallyOf (Col.id collCmd) = none ∧ (collHas collCmd).tallyFree = some 0 ∧ Col.comp collCmd = false)
    ∧ (collItem auxd collComp = none ∧ auxd.tallyOf (Col.id collComp) = none ∧ auxd.tallyFree = some 0 ∧ Col.comp collComp = true ∧ rdy collComp 0x90 = true)
    ∧ ((halted collCmd).cause ≠ 0 ∧ (State.reset.coll 0).q.cause = 0 ∧ (halted (cm [])).cmds = [cm []] ∧ (cm []).op ≠ 0x90 ∧ (halted collCmd).cmds = [collCmd] ∧ collCmd.op = 0x90) := by decide +kernel
theorem wit_CollectiveQueueAndTally_tally :
    let cm1 (s : State) : State := s.setRn R.GH_CM_STATE 1
    let kids : State := { cm1 (State.reset.setRn R.LK_DEV 65536) with members := [0, 1] } |>.modCm (fun c => { c with group := some (2, [0, 1]) })
    let tx (sent : Bool) : State := State.reset.modCm (fun c => { c with tx := some { step := 0, tree := [0], own := [], sent := sent } })
    (State.reset.canonical = true ∧ tallyFull.tally.find? (fun e => e.1 == 4096 % 4096) = some (0, { id := 7 }) ∧ State.reset.tally.find? (fun e => e.1 == 0) = none
      ∧ tallyFull.tallyOf (7 % 2 ^ 64) = some (0, { id := 7 }) ∧ State.reset.tallyOf 0 = none)
    ∧ (State.reset.undecided = false ∧ (cm1 State.reset).undecided = true ∧ (cm1 State.reset).cmState = 1 ∧ (cm1 State.reset).cm.tx = none ∧ (cm1 State.reset).cm.ids = [] ∧ (cm1 State.reset).early = []
      ∧ kids.undecided = true ∧ kids.cmState = 1 ∧ kids.cm.tx = none ∧ kids.cm.ids = [] ∧ kids.cmLive = [0, 1]
      ∧ (({ step := 0, tree := kids.cmLive, own := [] } : TallyX).children kids.dev) = [1] ∧ (({ step := 0, tree := (cm1 State.reset).cmLive, own := [] } : TallyX).children 0) = [])
    ∧ (State.reset.cm.tx = none ∧ ((tx true).cm.tx.map (·.sent)) = some true ∧ ((tx false).cm.tx.map (·.sent)) = some false) := by decide +kernel

theorem wit_CollectivesCombineAndComplete :
    let h : ChunkHdr := { x := 0, chunk := 0, stage := 0, attempt := 1, count := 1 }
    let f : Flit := { toMe 0x10 (h.toBytes ++ padTo 192 []) with id := 0x100, src := 1 }
    let known : State := { State.reset with ended := [0x100], lateLog := [0x100] }
    let on_ (r : CollRun) : State := { onColl (fun x => { x with runs := [r] }) with lateLog := [0x100], members := [0, 1] }
    let p : Part := { vals := [.fin false 1, .fin true 3], x := 0, count := 1 }
    let fin : CollRun := { run8 with cmd := collCmd, stages := [], chunks := [(0, { fin := true })] }
    let exactCmd : Cmd := cm [0x90, 0x100, 2 ^ 59 + 48]
    (f.typ = 0x10 ∧ isExchange f.id = false ∧ State.reset.collUnit f.id = none ∧ State.reset.ended.contains f.id = false ∧ State.reset.early.length < 512
      ∧ 512 ≤ ({ State.reset with early := List.replicate 512 f } : State).early.length)
    ∧ (known.collUnit f.id = none ∧ known.ended.contains f.id = true ∧ known.lateLog.contains f.id = true)
    ∧ ((on_ { run8 with closed := true }).collUnit f.id = some (0, { run8 with closed := true }) ∧ (on_ { run8 with closed := true }).lateLog.contains f.id = true)
    ∧ ((on_ run8).collUnit f.id = some (0, run8) ∧ run8.closed = false ∧ (ChunkHdr.ofBytes f.payload) = h ∧ h.stage ≠ 4 ∧ run8.stages.findIdx? (fun z => z.1 == h.stage) = some 0
      ∧ (run8.chunk h.chunk).attempt ≤ h.attempt ∧ (run8.chunk h.chunk).fin = false ∧ (run8.chunk h.chunk).stage ≤ 0)
    ∧ (Col.exact exactCmd = true ∧ Col.comp exactCmd = false ∧ p.raise = none ∧ p.vals.length = p.vals.length)
    ∧ ((State.reset.coll 0).run? 0x100 = none ∧ ((on_ run8).coll 0).run? 0x100 = some run8 ∧ ((on_ fin).coll 0).run? 0x100 = some fin ∧ (fin.chunk 0).fin = true)
    ∧ (run8.stages[(run8.chunk 0).stage]? = some (0, 8, 0) ∧ 1 ∈ run8.sources 0 (run8.chunk 0).stage ∧ (on_ run8).awaited run8 (run8.devAt (on_ run8).straps (run8.chunk 0).stage 1) = true ∧ (run8.chunk 0).inn = [])
    ∧ (Col.kind run8.cmd = 0 ∧ ({ run8 with closed := true } : CollRun).closed = true) ∧ (collDone (on_ run8) run8 = false ∧ collDone (on_ fin) fin = true) := by decide +kernel
/-- The sum of two exact parts. -/
theorem test_exact_sum : (let p : Part := { vals := [.fin false 1, .fin true 3], x := 0, count := 1 }
    (combineParts (cm [0x90, 0x100, 2 ^ 59 + 48]) p p).1.vals = [.fin false 2, .fin true 6] ∧ (combineParts (cm [0x90, 0x100, 2 ^ 59 + 48]) p p).1.count = 2) := by decide +kernel
theorem wit_CollectivesCombineAndComplete_combine :
    let p : Part := { vals := [.fin false 1, .fin true 3], x := 0, count := 1 }
    let run2 : CollRun := { run8 with stages := [(0, 2, 0), (0, 2, 0)], chunks := [(0, { res := some p, inn := [(0, 1, p)] }), (7, { res := some p })] }
    (Col.reduces run2.cmd = true ∧ Col.comp run2.cmd = false ∧ (run2.chunk 0).fin = false ∧ (run2.rangeAt 0).1 ≤ 0 ∧ 7 < (run2.rangeAt 0).2 ∧ (run2.chunk 0).stage = 0 ∧ (run2.chunk 7).stage = 0
      ∧ (run2.chunk 0).res = some p ∧ (run2.chunk 7).res = some p ∧ (run2.chunk 0).inn.filter (fun e => e.1 == 0 && e.2.2.attempt == (run2.chunk 0).attempt) = [(0, 1, p)])
    ∧ (partOf (run2.rangeAt 0).1 (run2.rangeAt 0).2 2 0 = 0 ∧ partOf (run2.rangeAt 0).1 (run2.rangeAt 0).2 2 7 = 1) := by decide +kernel
theorem wit_CollectivesCombineAndComplete_ring :
    let p : Part := { vals := [.fin false 1, .fin true 3], x := 0, count := 1 }
    let ring : CollRun := { run8 with stages := [(1, 2, 0)], chunks := [(0, { res := some p, inn := [(0, 1, p)] }), (7, { res := some p, inn := [(0, 1, p)] })] }
    (Col.reduces ring.cmd = true ∧ Col.comp ring.cmd = false ∧ (ring.chunk 0).fin = false ∧ (ring.rangeAt 0).1 ≤ 0 ∧ 7 < (ring.rangeAt 0).2 ∧ (ring.chunk 0).res = some p ∧ ring.stages[(ring.chunk 0).stage]? = some (1, 2, 0))
    ∧ (partOf (ring.rangeAt 0).1 (ring.rangeAt 0).2 2 0 = 0 ∧ ring.sources 0 0 = [1] ∧ (ring.chunk 0).stage + 1 = ring.stages.length)
    ∧ (partOf (ring.rangeAt 0).1 (ring.rangeAt 0).2 2 7 ≠ 0 ∧ ring.sources 7 0 = []) := by decide +kernel
theorem wit_CollectivesCombineAndComplete_flits :
    let h : ChunkHdr := { x := 0, chunk := 0, stage := 0, attempt := 1, count := 1 }
    let f : Flit := { toMe 0x10 (h.toBytes ++ padTo 192 []) with id := 0x100, src := 1 }
    let x : Flit := { f with id := 0xFFFFFF00 }
    let sees (f : Flit) : State := { State.reset with inbox := [(0, toMe 2 []), (0, f)] }
    (State.reset.inbox.find? (fun e => e.2.typ == 0x10) = none ∧ (sees f).inbox.find? (fun e => e.2.typ == 0x10) = some (0, f) ∧ isExchange x.id = true ∧ (sees x).inbox.find? (fun e => e.2.typ == 0x10) = some (0, x))
    ∧ (({ State.reset with ended := [0x100] } : State).lateLog.contains 0x100 = false ∧ ({ run8 with closed := false } : CollRun).closed = false)
    ∧ ((flitVals h []).length = 48 ∧ h.flags.testBit 0 = false) := by decide +kernel
theorem wit_CollectiveQueueAndTally_forms :
    let held : State := { collHas collCmd with tally := [(9, { id := Col.id collCmd })] }
    ((collHas (cm [0x7])).coll 0).q.head? = some (cm [0x7]) ∧ (cm [0x7]).parOk = true ∧ (cm [0x7]).op ∉ [0, 0x20, 0x21, 0x90]
    ∧ (held.tallyOf (Col.id collCmd)).isSome = true ∧ collItem held collCmd = none ∧ ((onColl (fun x => { x with wait := true })).coll 0).wait = true
    ∧ (held.tally.find? (fun e => e.1 == 9)).isSome = true ∧ held.tally.find? (fun e => e.1 == 8) = none := by decide +kernel
/-! ## The gatehouse and the monitor -/

/-- The reset state with the firmware running, a host mailbox region, and a request in pair 0. -/
def mbReq (op : Nat) (o : Bytes) : State :=
  (((State.reset.setRn R.GH_STATUS 1).setRn (R.GH_MB_STATUS 0) 1).setRn R.GH_HMB_LIMIT (2 ^ 40)).ghWrite (reqAt 0) (leBytes 2 op ++ leBytes 2 o.length ++ leBytes 4 0 ++ o)
/-- The opcode and length that the buffer holds. -/
def mbHolds (s : State) (op len : Nat) : Bool := s.serving 0 && decide (leAt (s.ghBytes (reqAt 0) 8) 0 2 = op) && decide (leAt (s.ghBytes (reqAt 0) 8) 2 2 = len)
/-- The operand field of a request. -/
def mbArg (s : State) (i n : Nat) : Nat := leAt (s.ghBytes (reqAt 0 + 8) (leAt (s.ghBytes (reqAt 0) 8) 2 2)) i n
/-- SHA-384 of the empty message (FIPS 180-4), and a firmware image of security version 1 with an empty body. -/
def emptySha : Bytes := [0x38, 0xb0, 0x60, 0xa7, 0x51, 0xac, 0x96, 0x38, 0x4c, 0xd9, 0x32, 0x7e, 0xb1, 0xb1, 0xe3, 0x6a, 0x21, 0xfd, 0xb7, 0x11, 0x14, 0xbe, 0x07, 0x43,
  0x4c, 0x0c, 0xc7, 0xbf, 0x63, 0xf6, 0xe1, 0xda, 0x27, 0x4e, 0xde, 0xbf, 0xe7, 0x6f, 0x65, 0xfb, 0xd5, 0x1a, 0xd2, 0xf1, 0x48, 0x98, 0xb9, 0x5b]
def fwImg : Bytes := leBytes 4 0x4D394657 ++ leBytes 4 7 ++ leBytes 4 1 ++ leBytes 4 0 ++ emptySha ++ padTo 448 []
/-- A configuration image without entries. -/
def cfgImg : Bytes := leBytes 4 0x4D394346 ++ leBytes 2 1 ++ leBytes 2 0 ++ leBytes 4 128 ++ padTo 116 []

/-- A state whose fuses hold the SHA-384 of an all-zero ROOT_KEY. -/
def keyed (s : State) : State :=
  { s with regs := (List.range 6).foldl (fun r i => SMap.insert (R.FZ_ROOTKEY i) (BitVec.ofNat 64 (leAt (sha384 (List.replicate 97 0)) (8 * i) 8)) r) s.regs }

theorem test_sha384_empty : sha384 [] = emptySha := by decide +kernel
theorem wit_MailboxRequests :
    let host (a n : Nat) : Bytes := leBytes 8 a ++ leBytes 4 n
    let memb (op : Nat) (o : Bytes) : State := { (mbReq op o).setRn R.LK_DEV 65537 with members := [0, 1] }
    let busy (s : State) : State := s.modMb (fun b => { b with newImage := some [] })
    ((mbReq 0 []).canonical = true ∧ State.reset.serving 0 = false ∧ mbHolds (mbReq 0x1 []) 1 0 = true ∧ mbHolds (mbReq 0x1 [0]) 1 1 = true)
    ∧ (mbHolds (mbReq 0x100 (leBytes 2 700)) 0x100 2 = true ∧ 600 ≤ mbArg (mbReq 0x100 (leBytes 2 700)) 0 2 ∧ 700 ≤ (mbReq 0x100 (leBytes 2 700)).clampCap ∧ mbArg (mbReq 0x100 (leBytes 2 500)) 0 2 < 600)
    ∧ (mbHolds (mbReq 0x101 [3]) 0x101 1 = true ∧ mbArg (mbReq 0x101 [3]) 0 1 ≤ 3 ∧ 3 < mbArg (mbReq 0x101 [4]) 0 1 ∧ mbHolds (mbReq 0x102 [1]) 0x102 1 = true ∧ mbArg (mbReq 0x102 [1]) 0 1 ≤ 1
      ∧ 1 < mbArg (mbReq 0x102 [2]) 0 1 ∧ mbHolds (mbReq 0x103 [23]) 0x103 1 = true ∧ mbArg (mbReq 0x103 [23]) 0 1 ≤ 23 ∧ 23 < mbArg (mbReq 0x103 [24]) 0 1)
    ∧ (((mbReq 9 []).modBox 1 (fun b => { b with fw := true })).serving 0 = true ∧ ((mbReq 9 []).setRn (R.GH_MB_STATUS 3) 1).serving 3 = false ∧ (((mbReq 9 []).took 0).setRn (R.GH_MB_STATUS 3) 1).serving 0 = false
      ∧ (((mbReq 9 []).took 0).setRn (R.GH_MB_STATUS 3) 1).serving 3 = true)
    ∧ (mbHolds (mbReq 0x200 []) 0x200 0 = true ∧ mbHolds (mbReq 0x300 []) 0x300 0 = true ∧ mbHolds (mbReq 0x401 []) 0x401 0 = true ∧ mbHolds (mbReq 0x504 []) 0x504 0 = true)
    ∧ (let s := mbReq 0x201 (host 0 128); mbHolds s 0x201 12 = true ∧ s.inRegion 0 128 = true ∧ s.inRegion (2 ^ 41) 128 = false ∧ s.changePending = false ∧ (busy s).changePending = true ∧ s.member = false
        ∧ (memb 0x201 (host 0 128)).member = true ∧ (memb 0x201 (host 0 128)).changePending = false ∧ Img.sound (padTo 128 cfgImg) = true ∧ 128 ≤ 2 ^ 20)
    ∧ (let s := memb 0x202 []; mbHolds s 0x202 0 = true ∧ (busy s).changePending = true ∧ s.changePending = false ∧ s.member = true ∧ s.isLeader = false ∧ (mbReq 0x202 []).member = false) := by decide +kernel
theorem wit_MailboxRequests_more :
    let host (a n : Nat) : Bytes := leBytes 8 a ++ leBytes 4 n
    let prod (op : Nat) (o : Bytes) : State := mbReq op o
    let test (op : Nat) (o : Bytes) : State := (mbReq op o).setRn R.FZ_LIFECYCLE 0
    (mbHolds (prod 0x203 []) 0x203 0 = true ∧ (prod 0x203 []).lifecycle = 1 ∧ (test 0x203 []).lifecycle ≠ 1 ∧ mbHolds (test 0x203 []) 0x203 0 = true ∧ (prod 0x203 []).member = false ∧ (prod 0x203 []).changePending = false
      ∧ ((prod 0x203 []).setRn R.LK_DEV 65536).member = true)
    ∧ (mbHolds (mbReq 0x400 (host 0 4 ++ leBytes 8 0)) 0x400 20 = true ∧ (mbReq 0x400 (host 0 4 ++ leBytes 8 0)).inRegion 0 0 = true ∧ mbHolds (mbReq 0x402 (leBytes 8 0)) 0x402 8 = true
      ∧ (mbReq 0x402 (leBytes 8 0)).inRegion 0 65536 = true ∧ (mbReq 0x402 (leBytes 8 0)).inRegion (2 ^ 40) 65536 = false) := by
  decide +kernel
theorem wit_MailboxRequests_firmware :
    let host (a n : Nat) : Bytes := leBytes 8 a ++ leBytes 4 n
    let prod (op : Nat) (o : Bytes) : State := mbReq op o
    let test (op : Nat) (o : Bytes) : State := (mbReq op o).setRn R.FZ_LIFECYCLE 0
    let memb (op : Nat) (o : Bytes) : State := { (mbReq op o).setRn R.LK_DEV 65537 with members := [0, 1] }
    let slot (s : State) : State := s.modGate (fun g => { g with slots := g.slots.set 1 { image := fwImg, valid := true } })
    let trial (s : State) : State := s.setBoot { s.boot with trial := true }
    (let s := mbReq 0x500 (host 0 512); mbHolds s 0x500 12 = true ∧ s.fwBusy (some 0) = false ∧ (s.modBox 3 (fun b => { b with fw := true })).fwBusy (some 0) = true ∧ mbArg s 8 4 ≤ 1536 * 1024 ∧ s.inRegion 0 512 = true ∧ s.inRegion (2 ^ 40) 512 = false ∧ fwSound (padTo 512 fwImg) = true ∧ (keyed s).rootOk (padTo 512 fwImg) = true ∧ mbHolds (keyed s) 0x500 12 = true
      ∧ s.rfld R.FZ_ARB 5 0 ≤ fwSvn (padTo 512 fwImg) ∧ 1536 * 1024 < mbArg (mbReq 0x500 (host 0 (2 ^ 31))) 8 4)
    ∧ (mbHolds (memb 0x501 (leBytes 2 1)) 0x501 2 = true ∧ (memb 0x501 (leBytes 2 1)).member = true ∧ (memb 0x501 (leBytes 2 1)).allMembers.contains 1 = true
      ∧ (memb 0x501 (leBytes 2 1)).allMembers.contains 9 = false ∧ (mbReq 0x501 (leBytes 2 1)).member = false ∧ (mbReq 0x501 (leBytes 2 1)).gate.peer = none)
    ∧ (mbHolds (slot (mbReq 0x502 [])) 0x502 0 = true ∧ ((mbReq 0x502 []).gate.slots[slotFin (1 - (mbReq 0x502 []).runSlot)]).valid = false
      ∧ ((slot (mbReq 0x502 [])).gate.slots[slotFin (1 - (mbReq 0x502 []).runSlot)]).valid = true)
    ∧ (let s := trial ((mbReq 0x503 [0]).setFld R.GH_STATUS 9 9 1); mbHolds s 0x503 1 = true ∧ mbArg s 0 1 = 0 ∧ s.boot.trial = true ∧ s.rbit R.GH_STATUS 9 = true ∧ s.boot.active = s.runSlot ∧ (s.setBoot { s.boot with active := 1 - s.boot.active }).boot.active ≠ s.runSlot ∧ (mbReq 0x503 [0]).boot.trial = false
      ∧ 1 < mbArg (mbReq 0x503 [2]) 0 1)
    ∧ (mbHolds (prod 0x600 (List.replicate 48 0)) 0x600 48 = true ∧ (prod 0x600 []).lifecycle = 1 ∧ (test 0x600 []).lifecycle ≠ 1 ∧ mbHolds (test 0x600 (List.replicate 48 0)) 0x600 48 = true ∧ mbHolds (mbReq 0x601 (leBytes 8 0)) 0x601 8 = true ∧ mbHolds (mbReq 0x602 (host 0 64)) 0x602 12 = true ∧ mbArg (mbReq 0x602 (host 0 64)) 8 4 ≤ 64 * 1024 ∧ (mbReq 0x602 (host 0 64)).inRegion 0 64 = true
      ∧ 64 * 1024 < mbArg (mbReq 0x602 (host 0 65537)) 8 4
      ∧ mbHolds (mbReq 0x700 (leBytes 8 0)) 0x700 8 = true ∧ (mbReq 0x700 (leBytes 8 0)).inRegion 0 256 = true ∧ (mbReq 0x700 (leBytes 8 0)).inRegion (2 ^ 40) 256 = false)
    ∧ (State.reset.rbit (R.GH_MB_STATUS 0) 0 = false ∧ (mbReq 1 []).rbit (R.GH_MB_STATUS 0) 0 = true ∧ (((mbReq 1 []).respond 0 3 []).box 0).result = some (3, []) ∧ (((mbReq 1 []).respond 0 3 []).box 0).held = 0
      ∧ ((((mbReq 1 []).respond 0 0 []).modBox 0 (fun b => { b with held := 5 })).box 0).held = 5 ∧ ((((mbReq 1 []).respond 0 0 []).modBox 0 (fun b => { b with held := 4, stage := true })).box 0).held = 4
      ∧ ((((mbReq 1 []).respond 0 0 []).modBox 0 (fun b => { b with held := 4, stage := true })).box 0).stage = true ∧ ((mbReq 9 []).box 0).result = none ∧ (mbReq 9 []).serving 0 = true ∧ leAt ((mbReq 9 []).ghBytes (reqAt 0) 8) 0 2 = 9) := by
  decide +kernel

theorem wit_MailboxRequests_forms :
    let host (a n : Nat) : Bytes := leBytes 8 a ++ leBytes 4 n
    let lead (op : Nat) (o : Bytes) : State := { (mbReq op o).setRn R.LK_DEV 65536 with members := [0, 1] }
    let trial (arb fw : Nat) : State := let s := (((mbReq 0x503 [1]).setFld R.GH_STATUS 9 9 1).setRn R.FZ_ARB arb).setFld R.GH_FW 39 32 fw; s.setBoot { s.boot with trial := true }
    let sure (t : State) : State := (t.setBoot { t.boot with trial := false }).setFld R.GH_STATUS 9 9 0
    ((lead 0x202 []).isLeader = true ∧ (lead 0x202 []).member = true ∧ (lead 0x202 []).changePending = false ∧ mbHolds (lead 0x202 []) 0x202 0 = true)
    ∧ (Img.sound (padTo 128 []) = false ∧ 2 ^ 20 < mbArg (mbReq 0x201 (host 0 (2 ^ 21))) 8 4 ∧ fwSound (fwImg.set 64 1) = true ∧ (keyed State.reset).rootOk (fwImg.set 64 1) = false
      ∧ (keyed (mbReq 0x500 (host 0 512))).rootOk (padTo 512 fwImg) = true ∧ fwSvn (padTo 512 fwImg) < ((keyed (mbReq 0x500 (host 0 512))).setRn R.FZ_ARB 2).rfld R.FZ_ARB 5 0)
    ∧ (mbHolds (trial 0 3) 0x503 1 = true ∧ mbArg (trial 0 3) 0 1 = 1 ∧ (trial 0 3).boot.trial = true ∧ (trial 0 3).rbit R.GH_STATUS 9 = true ∧ (trial 0 3).boot.active = (trial 0 3).runSlot
      ∧ (sure (trial 0 3)).rfld R.FZ_ARB 5 0 < (sure (trial 0 3)).rfld R.GH_FW 39 32 ∧ (sure (trial 3 3)).rfld R.GH_FW 39 32 ≤ (sure (trial 3 3)).rfld R.FZ_ARB 5 0)
    ∧ (((mbReq 9 []).setRn R.GH_STATUS 0).rbit (R.GH_MB_STATUS 0) 0 = true ∧ (((mbReq 9 []).setRn R.GH_STATUS 0).box 0).result = none ∧ ((mbReq 9 []).setRn R.GH_STATUS 0).serving 0 = false) := by decide +kernel

theorem wit_FwStagePeer :
    let s (w : Bool) (c : Nat) : State := ({ (mbReq 0x501 (leBytes 2 1)).setRn R.LK_DEV 65537 with members := [0, 1] } : State).modGate (fun g => { g with peer := some { src := 1, since := c, total := if w then some 0 else none } })
    (s false 0).gate.peer = some { src := 1, since := 0 } ∧ ({ src := 1, since := 0 } : PeerLoad).whole = false ∧ (s false 0).us < 0 + 60000000 ∧ (s true 0).gate.peer = some { src := 1, since := 0, total := some 0 }
      ∧ ({ src := 1, since := 0, total := some 0 } : PeerLoad).whole = true ∧ mbHolds (s true 0) 0x501 2 = true
      ∧ (({ (s false 0) with time := 10 ^ 12 } : State).us ≥ 0 + 60000000) ∧ mbHolds ({ (s false 0) with time := 10 ^ 12 } : State) 0x501 2 = true ∧ (s true 0).fwBusy (some 0) = false := by decide +kernel

theorem wit_MonitorCommands :
    let prod : State := State.reset
    let test : State := State.reset.setRn R.FZ_LIFECYCLE 0
    let tries (n : Nat) : State := prod.modGate (fun g => { g with fails := n })
    let slot : State := State.reset.modGate (fun g => { g with slots := g.slots.set 1 { image := fwImg, valid := true } })
    let rma : State := (State.reset.setRn R.FZ_LIFECYCLE 2).modGate (fun g => { g with challenge := some [1] })
    (State.reset.pwr.aux = true ∧ (State.reset.modPwr (fun p => { p with aux := false })).pwr.aux = false ∧ prod.pwr.aux = true ∧ rma.pwr.aux = true)
    ∧ (State.reset.fwBusy none = false ∧ (State.reset.modBox 3 (fun b => { b with fw := true })).fwBusy none = true)
    ∧ (fwSound (fwImg.take (1536 * 1024)) = true ∧ State.reset.rfld R.FZ_ARB 5 0 ≤ fwSvn fwImg ∧ fwSvn fwImg < (State.reset.setRn R.FZ_ARB 2).rfld R.FZ_ARB 5 0 ∧ fwSound [] = false ∧ (keyed State.reset).rootOk (fwImg.take (1536 * 1024)) = true
      ∧ (keyed State.reset).fwBusy none = false ∧ (keyed State.reset).rfld R.FZ_ARB 5 0 ≤ fwSvn fwImg ∧ fwSvn fwImg < (keyed (State.reset.setRn R.FZ_ARB 2)).rfld R.FZ_ARB 5 0)
    ∧ ((State.reset.gate.slots[slotFin 1]).valid = false ∧ (slot.gate.slots[slotFin 1]).valid = true) ∧ (3 ≤ (tries 3).gate.fails ∧ (tries 2).gate.fails < 3)
    ∧ (rma.lifecycle = 2 ∧ rma.gate.challenge = some [1] ∧ prod.lifecycle = 1 ∧ prod.gate.challenge = none ∧ (prod.setFld R.GH_STATUS 17 16 3).rfld R.GH_STATUS 17 16 = 3 ∧ prod.rfld R.GH_STATUS 17 16 ≠ 3)
    ∧ (test.lifecycle = 0 ∧ test.canonical = true ∧ prod.canonical = true ∧ (State.reset.setRn R.FZ_LIFECYCLE 3).lifecycle = 3) ∧ (prod.service = false ∧ test.service = true ∧ test.pwr.aux = true)
    ∧ ((State.reset.setRn R.GH_STATUS 1).rbit R.GH_STATUS 0 = true ∧ (State.reset.setRn R.GH_STATUS 1).boot.active = (State.reset.setRn R.GH_STATUS 1).runSlot ∧ State.reset.rbit R.GH_STATUS 0 = false
      ∧ (State.reset.setBoot { State.reset.boot with active := 1 }).boot.active ≠ (State.reset.setBoot { State.reset.boot with active := 1 }).runSlot)
    ∧ (isRegSpace 0x1000 = false ∧ (test.read 0x1000 8).isSome = true ∧ ((test.poisonLine 0x1000).read 0x1000 8).isNone = true ∧ isRegSpace R.PW_CLAMP = true)
    ∧ (test.benchIdle 0 = true ∧ ((benchHas (cm [])).setRn R.FZ_LIFECYCLE 0).benchIdle 0 = false) := by decide +kernel

/-! ## Power, start-up, fences and the bridge -/

theorem wit_SensorsClampAndThrottle :
    let failed (k i : Nat) : State := State.reset.modPwr (fun p => { p with failed := [(k, i)] })
    let hot : State := State.reset.setRn (R.GH_WB_TEMP 5) 0x7F0
    let hotS : State := State.reset.setRn (R.GH_WB_TEMP 64) 0x7F0
    let low : State := State.reset.modPwr (fun p => { p with duty := 16 })
    (State.reset.canonical = true ∧ State.reset.pwr.aux = true ∧ (State.reset.modPwr (fun p => { p with aux := false })).pwr.aux = false ∧ (failed 2 3).pwr.failed.contains (2, (3 : Fin 36).val) = true)
    ∧ (signed 16 (320 % 65536) ≤ ((State.reset.rfld R.PW_THERM 15 8 : Nat) : Int) * 16 ∧ signed 16 (320 % 65536) ≤ ((State.reset.rfld R.PW_THERM 23 16 : Nat) : Int) * 16 ∧ State.reset.pwr.warn.contains 5 = false)
    ∧ (((State.reset.rfld R.PW_THERM 15 8 : Nat) * 16 : Int) < signed 16 (0x7F0 % 65536) ∧ State.reset.pwr.throttle = false)
    ∧ (State.reset.below (List.range 64) R.PW_THERM = true ∧ hot.below (List.range 64) R.PW_THERM = false ∧ State.reset.below [64] R.PW_STACK_THERM = true ∧ hotS.below [64] R.PW_STACK_THERM = false)
    ∧ ((State.reset.modPwr (fun p => { p with cool := [(8, 0), (0, 0)] })).pwr.cool = [(8, 0), (0, 0)] ∧ 0 + 1000 ≤ ({ State.reset with time := 1300000 } : State).us ∧ State.reset.us < 0 + 1000)
    ∧ ((State.reset.modPwr (fun p => { p with floor := some 1000 })).pwr.floor = some 1000 ∧ State.reset.pwr.floor = some 0)
    ∧ State.reset.pwr.mainFail = false ∧ (let s : State := State.reset.setRn (R.GH_WB_CURR 0) 41667
      State.reset.rfld R.PW_CLAMP 15 0 < min (48000 * s.rfld (R.GH_WB_CURR 0) 31 0 / 1000000) 0xFFFE ∧ min (48000 * State.reset.rfld (R.GH_WB_CURR 0) 31 0 / 1000000) 0xFFFE * 100 < State.reset.rfld R.PW_CLAMP 15 0 * 98)
    ∧ (low.pwr.duty = 16 ∧ (low.setRn R.GH_WB_POWER 0xFFF).rfld R.PW_CLAMP 15 0 < (low.setRn R.GH_WB_POWER 0xFFF).rfld R.GH_WB_POWER 15 0 ∧ State.reset.pwr.duty ≠ 16
      ∧ (low.setRn R.GH_WB_POWER 0).rfld R.GH_WB_POWER 15 0 ≤ (low.setRn R.GH_WB_POWER 0).rfld R.PW_CLAMP 15 0)
    ∧ ((failed 3 2).pwr.failed.contains (3, (2 : Fin 16).val) = true ∧ State.reset.pwr.failed.contains (3, 2) = false ∧ 480000 ≤ railLimit 2 ∧ railLimit 2 < 480001 ∧ 5 % 2 ^ 32 ≤ railLimit 2)
    ∧ (min (max (State.reset.rfld R.PW_CLAMP 15 0) 600) State.reset.clampCap = State.reset.rfld R.PW_CLAMP 15 0 ∧ min (max 0 600) State.reset.clampCap ≠ State.reset.rfld R.PW_CLAMP 15 0)
    ∧ (State.reset.rbit R.GH_STATUS 0 = false ∧ (State.reset.setRn R.GH_STATUS 1).rbit R.GH_STATUS 0 = true ∧ (let s : State := (State.reset.setRn R.GH_STATUS 0x201).setBoot { State.reset.boot with trial := true }
        s.boot.trial = true ∧ s.rbit R.GH_STATUS 0 = true ∧ s.rbit R.GH_STATUS 9 = true ∧ s.boot.active = s.runSlot ∧ State.reset.boot.trial = false)) := by decide +kernel
/-- 48 V and 41.667 A, 2,000 W, under the reset clamp lower the duty by 1. -/
theorem test_clamp : (match exec (.clampTick (some 48000)) (State.reset.setRn (R.GH_WB_CURR 0) 41667) with | .next t => decide (t.pwr.duty = 63) && decide (t.rfld R.GH_WB_POWER 15 0 = 2000) | _ => false) = true := by decide +kernel

/-- The start-up stage shown by GH_STATUS. -/
def atStage (n : Nat) : State := (State.reset.setRn R.GH_STATUS (n * 2 ^ 24)).setFld R.PW_STATUS 0 0 1
theorem wit_PowerEventsAndStartUp :
    (let f (k i : Nat) : State := State.reset.modPwr (fun p => { p with failed := [(k, i)] }); (f 0 5).pwr.failed.contains (tempClass 5, (5 : Fin 72).val) = true ∧ State.reset.aboveTrip 5 0x7F0 = true ∧ State.reset.aboveTrip 5 320 = false
      ∧ (f 2 30).pwr.failed.contains (2, (30 : Fin 35).val) = true ∧ State.reset.pwr.failed = [])
    ∧ (State.reset.canonical = true ∧ (State.reset.setRn R.PW_DOMAIN (2 ^ 3 + 2 ^ 30)).rbit R.PW_DOMAIN (3 : Fin 35).val = true ∧ (State.reset.setRn R.PW_DOMAIN (2 ^ 3 + 2 ^ 30)).rbit R.PW_DOMAIN (30 : Fin 35).val = true
      ∧ (State.reset.setRn R.PW_DOMAIN 0).rbit R.PW_DOMAIN 3 = false ∧ State.reset.pwr.tripped = false
      ∧ ((onBench (fun x => { x with fenced := true })).bench (Fin.ofNat 24 0)).out = true ∧ (State.reset.bench 3).out = false)
    ∧ (State.reset.pwr.aux = true ∧ (State.reset.modPwr (fun p => { p with aux := false })).pwr.aux = false ∧ (State.reset.setFld R.PW_STATUS 0 0 0).rbit R.PW_STATUS 0 = false ∧ (atStage 1).rbit R.PW_STATUS 0 = true ∧ State.reset.pwr.refGone = false
      ∧ (State.reset.modPwr (fun p => { p with refGone := true })).pwr.refGone = true)
    ∧ ((atStage 1).stageDue 1 = true ∧ (atStage 2).stageDue 0 = false ∧ (atStage 2).stageDue 1 = false ∧ (atStage 2).stageDue 2 = true ∧ (atStage 1).stageDue 2 = false ∧ (atStage 2).pwr.romStart = false)
    ∧ (((atStage 2).modPwr (fun p => { p with tripped := true })).pwr.tripped = true ∧ (State.reset.setFld R.PW_STATUS 0 0 1).rbit R.PW_STATUS 0 = true)
    ∧ ((atStage 3).stageDue 3 = true ∧ (atStage 3).lifecycle ≠ 3 ∧ (atStage 3).pwr.prof < 4 ∧ (atStage 2).stageDue 3 = false ∧ ((atStage 3).setRn R.FZ_LIFECYCLE 3).lifecycle = 3)
    ∧ ((atStage 4).stageDue 4 = true ∧ (atStage 3).stageDue 4 = false ∧ (atStage 4).skip5 = false ∧ ((atStage 4).setRn R.PW_START 2).skip5 = true ∧ (atStage 5).stageDue 5 = true ∧ (atStage 4).stageDue 5 = false)
    ∧ ((atStage 6).stageDue 6 = true ∧ (atStage 6).pwr.ready = false ∧ (atStage 6).mb.image = [] ∧ (atStage 5).stageDue 6 = false)
    ∧ (State.reset.released = false ∧ State.reset.pwr.ready = false ∧ State.reset.pwr.stopped = false ∧ ((atStage 6).modPwr (fun p => { p with ready := true })).pwr.ready = true ∧ (atStage 6).rbit R.PW_STATUS 0 = true ∧ (atStage 6).mb.joining = false) := by decide +kernel

/-- Word `i` of the SHA-384 of an all-zero ROOT_KEY. -/
def keyWord (i : Nat) : Nat := leAt (sha384 (List.replicate 97 0)) (8 * i) 8
/-- A state in canonical form whose fuses hold that hash. -/
def fused (s : State) (l : List Nat := List.range 6) : State := l.foldl (fun t i => t.setRn (R.FZ_ROOTKEY i) (keyWord i)) s
theorem fused_canonical : ∀ (l : List Nat) {s : State}, s.canonical = true → (fused s l).canonical = true
  | [], _, h => h
  | _ :: l, s, h => fused_canonical l ((s.setRn_keeps _ _).2 h)
theorem fused_gate : ∀ (l : List Nat) (s : State), (fused s l).gate = s.gate
  | [], _ => rfl
  | _ :: l, _ => (fused_gate l _).trans rfl
theorem fused_pwr : ∀ (l : List Nat) (s : State), (fused s l).pwr = s.pwr
  | [], _ => rfl
  | _ :: l, _ => (fused_pwr l _).trans rfl
theorem fused_rn : ∀ (l : List Nat) {s : State}, s.canonical = true → ∀ a, (∀ i ∈ l, a ≠ R.FZ_ROOTKEY i) → (fused s l).rn a = s.rn a
  | [], _, _, _, _ => rfl
  | j :: l, s, h, a, ha => by
    have e : (fused s (j :: l)).rn a = (fused (s.setRn (R.FZ_ROOTKEY j) (keyWord j)) l).rn a := rfl
    rw [e, fused_rn l ((s.setRn_keeps _ _).2 h) a (fun i m => ha i (List.mem_cons_of_mem _ m)), State.rn_setRn h, if_neg (ha j (List.mem_cons_self ..))]
theorem fused_rootKey : ∀ (l : List Nat) {s : State}, s.canonical = true → l.Nodup → ∀ i ∈ l, (fused s l).rn (R.FZ_ROOTKEY i) = keyWord i % 2 ^ 64
  | [], _, _, _, _, m => nomatch m
  | j :: l, s, h, d, i, m => by
    have c := (s.setRn_keeps (R.FZ_ROOTKEY j) (keyWord j)).2 h
    have e : (fused s (j :: l)).rn (R.FZ_ROOTKEY i) = (fused (s.setRn (R.FZ_ROOTKEY j) (keyWord j)) l).rn (R.FZ_ROOTKEY i) := rfl
    rw [e]
    by_cases q : i ∈ l
    · exact fused_rootKey l c (List.nodup_cons.mp d).2 i q
    · have ij : i = j := (List.mem_cons.mp m).resolve_right q
      have away : ∀ k ∈ l, R.FZ_ROOTKEY i ≠ R.FZ_ROOTKEY k := by
        intro k mk w
        have : k = i := by unfold R.FZ_ROOTKEY at w; omega
        exact q (this ▸ mk)
      rw [fused_rn l c _ away, State.rn_setRn h, ij, if_pos rfl]
/-- Both slots of a state so fused, holding the image, verify as their signatures do. -/
theorem fused_slotOk {s : State} (c : s.canonical = true) (hold : ∀ k : Fin 2, s.gate.slots[k] = { image := fwImg, valid := true }) (svn : s.rfld R.FZ_ARB 5 0 ≤ fwSvn fwImg) (k : Nat) (sig : Bool) :
    (fused s).slotOk (slotFin k) sig = sig := by
  have root : (fused s).rootOk fwImg = true := by
    have h : (List.range 6).flatMap (fun i => leBytes 8 ((fused s).rn (R.FZ_ROOTKEY i))) = (List.range 6).flatMap (fun i => leBytes 8 (keyWord i % 2 ^ 64)) :=
      congrArg List.flatten (List.map_congr_left (fun i m => by rw [fused_rootKey _ c List.nodup_range i m]))
    unfold State.rootOk
    rw [h]
    decide +kernel
  have x : ∀ k : Fin 2, (fused s).gate.slots[k] = { image := fwImg, valid := true } := by rw [fused_gate]; exact hold
  have arb : (fused s).rfld R.FZ_ARB 5 0 = s.rfld R.FZ_ARB 5 0 := by unfold State.rfld; rw [fused_rn _ c R.FZ_ARB (by decide)]
  have sound : fwSound fwImg = true := by decide +kernel
  unfold State.slotOk
  simp only [x, root, arb, sound, svn, decide_true, Bool.and_true, Bool.true_and]
theorem fused_stageDue {s : State} (c : s.canonical = true) (n : Nat) : (fused s).stageDue n = s.stageDue n := by
  simp only [State.stageDue, State.stage, State.rfld, State.rbit, fused_pwr, fused_rn (List.range 6) c R.GH_STATUS (by decide), fused_rn (List.range 6) c R.PW_STATUS (by decide)]
theorem fused_boot (s : State) : (fused s).boot = s.boot := by unfold State.boot State.bootPick; rw [fused_gate]
/-- At stage 2 with the image in both slots and a boot record. -/
def withImages (r : BootRec) : State := ((atStage 2).modGate (fun g => { g with slots := (g.slots.set 0 { image := fwImg, valid := true }).set 1 { image := fwImg, valid := true } })).setBoot r
theorem withImages_fused {r : BootRec} (c : (withImages r).canonical = true) (due : (withImages r).stageDue 2 = true) (rom : (withImages r).pwr.romStart = false) (boot : (withImages r).boot = r)
    (hold : ∀ k : Fin 2, (withImages r).gate.slots[k] = { image := fwImg, valid := true }) (svn : (withImages r).rfld R.FZ_ARB 5 0 ≤ fwSvn fwImg) :
    let s : State := fused (withImages r)
    s.canonical = true ∧ s.stageDue 2 = true ∧ s.pwr.romStart = false ∧ s.boot = r ∧ ∀ k sig, s.slotOk (slotFin k) sig = sig :=
  ⟨fused_canonical _ c, (fused_stageDue c 2).trans due, (congrArg Pwr.romStart (fused_pwr _ _)).trans rom, (fused_boot _).trans boot, fused_slotOk c hold svn⟩
theorem wit_Stage2 : ∃ s : State, s.canonical = true ∧ s.stageDue 2 = true ∧ s.pwr.romStart = false ∧ s.boot = {} ∧ ∀ k sig, s.slotOk (slotFin k) sig = sig :=
  ⟨_, withImages_fused (r := {}) (by decide +kernel) (by decide +kernel) (by decide +kernel) (by decide +kernel) (by decide +kernel) (by decide +kernel)⟩
theorem wit_Stage2_trial : ∃ s : State, s.canonical = true ∧ s.stageDue 2 = true ∧ s.pwr.romStart = false ∧ s.boot = { trial := true, tries := 1 } ∧ ∀ k sig, s.slotOk (slotFin k) sig = sig :=
  ⟨_, withImages_fused (r := { trial := true, tries := 1 }) (by decide +kernel) (by decide +kernel) (by decide +kernel) (by decide +kernel) (by decide +kernel) (by decide +kernel)⟩
theorem wit_Stage2_noTries : ∃ s : State, s.canonical = true ∧ s.stageDue 2 = true ∧ s.pwr.romStart = false ∧ s.boot = { trial := true } ∧ ∀ k sig, s.slotOk (slotFin k) sig = sig :=
  ⟨_, withImages_fused (r := { trial := true }) (by decide +kernel) (by decide +kernel) (by decide +kernel) (by decide +kernel) (by decide +kernel) (by decide +kernel)⟩
theorem wit_PowerEventsAndStartUp_forms :
    let img : State := (atStage 3).modGate (fun g => { g with cfgs := g.cfgs.set 1 cfgImg })
    let own : State := (atStage 6).modMb (fun b => { b with image := cfgImg })
    let join : State := (own.modMb (fun b => { b with joining := true })).modPwr (fun p => { p with ready := true })
    ((atStage 0).stageDue 0 = true ∧ (atStage 0).canonical = true ∧ ((atStage 0).modPwr (fun p => { p with romStart := true })).pwr.romStart = true ∧ ((atStage 0).modPwr (fun p => { p with romStart := true })).stageDue 2 = false)
    ∧ (img.stageDue 3 = true ∧ img.lifecycle ≠ 3 ∧ img.boot.cfg = 0 ∧ Img.sound img.gate.cfgs[slotFin (1 - img.boot.cfg)] = true
      ∧ Img.sound (img.modGate (fun g => { g with cfgs := g.cfgs.set 0 cfgImg })).gate.cfgs[slotFin img.boot.cfg] = true)
    ∧ (own.stageDue 6 = true ∧ own.pwr.ready = false ∧ own.mb.image ≠ [] ∧ (Img.solo own.mb.image || Img.founder own.mb.image == own.straps) = true ∧ own.straps < 65536
      ∧ (Img.solo own.mb.image || Img.founder own.mb.image == ({ own with straps := 1 } : State).straps) = false)
    ∧ (join.pwr.ready = true ∧ join.mb.joining = true ∧ join.member = false ∧ join.released = false ∧ join.lifecycle ≠ 3 ∧ join.rbit R.PW_STATUS 0 = true ∧ (join.setRn R.LK_DEV 65536).member = true)
    ∧ (let s := (atStage 1).modPwr (fun p => { p with stopped := true }); s.pwr.ready = false ∧ s.pwr.stopped = true ∧ s.pwr.tripped = false ∧ s.rbit R.PW_STATUS 0 = true ∧ s.released = false) := by decide +kernel
theorem wit_SensorsClampAndThrottle_forms :
    let run : State := (((State.reset.setRn R.GH_STATUS 0x201).setRn (R.GH_MB_STATUS 3) 1).setBoot { State.reset.boot with trial := true })
    (State.reset.pwr.failed.contains (2, (3 : Fin 36).val) = false ∧ railLimit 2 < 480001 % 2 ^ 32 ∧ (State.reset.modPwr (fun p => { p with mainFail := true })).pwr.mainFail = true)
    ∧ (((State.reset.rfld R.PW_STACK_THERM 15 8 : Nat) * 16 : Int) < signed 16 (0x7F0 % 65536) ∧ 64 ≤ (70 : Fin 72).val)
    ∧ (run.rbit (R.GH_MB_STATUS 3) 0 = true ∧ run.gate.boots[0].wseq + 1 < 2 ^ 32 ∧ run.gate.boots[1].wseq + 1 < 2 ^ 32 ∧ run.rbit R.GH_STATUS 0 = true) := by decide +kernel

theorem wit_FencesAndBridge :
    let out : State := onBench (fun x => { x with fenced := true })
    let due (c : Nat) : State := onBench (fun x => { x with fenceDue := some c })
    (((State.reset.bench 0).out = false) ∧ (out.bench 0).out = true ∧ (State.reset.bench 0).fenceDue = none ∧ ((due 1).bench 0).fenceDue = some 1 ∧ (due 1).fenceBefore 0 = false ∧ ((due 6).bench 0).fenceAt = (due 6).time ∧ ((due 1).modBench 1 (fun x => { x with fenceDue := some 1 })).fenceBefore 1 = true ∧ ((due 5).bench 0).fenceDue = some 5 ∧ (due 5).canonical = true)
    ∧ (((onBench (fun x => { x with ceLast := some 0 })).bench 0).ceLast = some 0 ∧ State.reset.us < 0 + 1000000 ∧ (State.reset.bench 0).ceLast = none)
    ∧ (0 + 1000000 ≤ ({ State.reset with time := 13 * 10 ^ 8 } : State).us ∧ (State.reset.core 0).st ≠ 2 ∧ (State.reset.dk 0).runs.find? (fun r => r.id == 1) = none ∧ (((onDk (fun x => { x with runs := [{ cmd := cm [], id := 1 }] })).dk 0).runs.find? (fun r => r.id == 1)).isSome = true)
    ∧ (({ State.reset with bridge := { retraining := true } } : State).bridge.retraining = true ∧ State.reset.bridge.retraining = false ∧ ((coreRuns (.sys 7 0 0) id).core 0).st = 2
      ∧ State.reset.bridge.replays = 0 ∧ ({ State.reset with bridge := { replays := 3 } } : State).bridge.replays ≠ 0) := by decide +kernel

/-! ## More forms of the statements, one state each -/

theorem wit_CommitVotes_discard : let s := mem1 1 3 (fun c => { c with votes := [(2, 3, false)] })
    s.cmState = 1 ∧ s.isCoord = true ∧ s.cm.due = none ∧ s.cm.take = none ∧ s.cm.takeDue = false ∧ (2, 3, false) ∈ s.cm.votes ∧ s.cmStep = 3 := by decide +kernel
theorem wit_MemoryAccesses_seLast :
    let a := 0x005FFFFFFFC0
    let key := seamKey (stackOf a) (seamOf a)
    let seen : State := { State.reset with seLast := [(key, 0)] }
    let word : Nat := 64 * (State.reset.rfld (R.UE_SCRUB_STATUS 0) 31 0 * 65536 + State.reset.scrubLow[0])
    seen.seLast.find? (fun e => e.1 == key) = some (key, 0) ∧ seen.us < 0 + 1000000 ∧ State.reset.seLast.find? (fun e => e.1 == key) = none ∧ State.reset.poisonedAt a = false
    ∧ (State.reset.poisonLine word).poisonedAt word = true ∧ State.reset.poisonedAt word = false := by decide +kernel
theorem wit_DerrickTransfers_token :
    let c := (regCopy 0x5005).set 1 ((regCopy 0x5005).w 1 + 2 ^ 12)
    let s := State.reset.setRegion 0x1005 reg1
    Dsc.tokv c = true ∧ s.region? (Dsc.w5 c % 2 ^ 14) = some reg1 ∧ bits (Dsc.w5 c) 15 14 < reg1.nslots ∧ (9 ≤ 12 ∧ 12 ≤ 14) := by decide +kernel
theorem wit_PhaseMark_local : inLocal (State.reset.rfld R.GH_PHASE_BASE 47 6 * 64 + 192 * (State.reset.rn R.GH_PHASE_SEQ % 2 ^ State.reset.rfld R.GH_PHASE_CFG 4 0)) 192 = true
    ∧ (∀ p ∈ [((false : Bool), (0 : Nat))], p.1 = false) ∧ (State.reset.setRn (R.CC_CFG 0) 0).rbit (R.CC_CFG 0) 0 = false := by decide +kernel
theorem wit_LinkFlitsInOrder_forms :
    let a : State := portIs .admitted
    let w : WaitFlit := ⟨0, 1, none, { toMe 1 [] with esc := 7 }⟩
    let waits (p : Fin 16) (st prev : PortSt) : State := (State.reset.setRn R.LK_ESC (2 ^ 16)).modPort p (fun x => { x with st := st, prev := prev, wait := [w] })
    ((a.port 0).takes 0 = true ∧ (toMe 2 []).dst = a.dev ∧ (toMe 2 []).typ = 2 ∧ (toMe 2 []).e2e = false ∧ (toMe 1 []).typ ≠ 2 ∧ (a.port 0).rxSeq = 0 ∧ (a.port 0).room.getD 0 0 ≠ 0)
    ∧ (isWork (11 : Fin 16).val = true ∧ ((waits 11 .retrain .quarantine).port 11).carries 0 = false ∧ ((waits 11 .retrain .quarantine).port 11).prev ≠ .admitted
      ∧ ((waits 11 .retrain .admitted).port 11).st = .retrain ∧ ((waits 11 .retrain .admitted).port 11).prev = .admitted ∧ ((waits 11 .retrain .admitted).port 11).wait.find? (fun y => y.vc == 0) = some w)
    ∧ (isWork (4 : Fin 16).val = false ∧ (waits 4 .admitted .down).rbit R.LK_ESC 16 = true ∧ ((waits 4 .admitted .down).port 4).wait.find? (fun y => y.vc == 0) = some w ∧ 7 ≤ w.flit.esc ∧ w.flit.typ = 1) := by decide +kernel
theorem wit_PeerRequestsAnswered_forms :
    let x : Txn := { who := .derrick 3 1, write := false, dev := 9, addr := 0x10000, lines := 1 }
    let s : State := { State.reset with txns := [x] }.modDk 3 (fun d => { d with runs := [{ cmd := cm [], id := 1 }] })
    let other : Txn := { who := .core 0, write := false, dev := 8, addr := 0x10000, lines := 1 }
    let far : State := { State.reset with txns := [other] }
    (s.txnOf (toMe 2 []) (some false) = some x ∧ x.who = .derrick 3 1 ∧ ((s.dk 3).runs.find? (fun r => r.id == 1)).isSome = true ∧ (leAt (padTo 194 []) 193 1).testBit 0 = false)
    ∧ (far.txnOf (toMe 5 [2]) none = none ∧ leAt (toMe 5 [2]).payload 0 1 = 2 ∧ far.txns.find? (fun t => t.addr == 0x10000) = some other ∧ (∀ t ∈ far.txns, t.addr ≠ 0x20000))
    ∧ ((State.reset.setRn (R.LK_PARTNER 0) 9).rfld (R.LK_PARTNER 0) 15 0 = 9 ∧ 9 ≠ 0xFFFF) := by decide +kernel
theorem wit_SuspectsAndJoins_leader :
    let away : State := { State.reset.setRn R.LK_DEV (65536 + 2) with members := [0, 1, 2], straps := 2 }
    let probes (l : List Nat) : State := away.modMb (fun b => { b with probes := [(0, 7)], suspects := l })
    let after (l : List Nat) : State := (probes l).modMb (fun b => { b with probes := [], suspects := b.suspects ++ [0] })
    (probes []).mb.probes = [(0, 7)] ∧ (probes []).joined 0 = true ∧ (probes []).leader = some 0 ∧ (after []).isLeader = false ∧ (probes [1]).joined 0 = true ∧ (after [1]).isLeader = true := by decide +kernel
theorem wit_SuspectsAndJoins_retired : (State.reset.setRn R.FZ_LIFECYCLE 2).rfld R.FZ_LIFECYCLE 1 0 = 2 ∧ trio.mb.nextImage = none ∧ trio.mb.nextAdd = [] := by decide +kernel

/-! ## The step, the invariant and the encoding -/

/-- StepRunsFrontCommand and NoCommandStops have no hypotheses but an empty queue, which the reset state has; ResetState and ResetCanonical have none. -/
theorem wit_StepRunsFrontCommand : State.reset.pending = [] := rfl
/-- The reset state is canonical, and a command and a core cycle step from it. -/
theorem wit_StepKeepsCanonical : State.reset.canonical = true
    ∧ (match step { State.reset with pending := [.monId] } with | .next t => t.canonical && t.pending.isEmpty | _ => false) = true
    ∧ (match step State.reset with | .next t => t.canonical | _ => false) = true := by decide +kernel
theorem test_reset_canonical : Sys2Proof.Machine.State.reset.canonical = true ∧ Sys2Proof.Machine.State.reset.queueWf = true := by decide +kernel
theorem wit_EdvenDecodeEncode : (Ed.alu 0 1 2 3).wf = true ∧ (Ed.imm 0 5 6 65535).wf = true ∧ (Ed.loopi 3 255 65535).wf = true ∧ Ed.decode 0b000000_00001_00010_00011_00000000000 = some (.alu 0 1 2 3) := by decide +kernel


end Sys2Proof.Tests
end

/-! ## Every operation keeps the canonical form (R8, R237, R248, R293)

`State.Keeps s t` says that t is canonical where s is, with the same queue. Each operation below keeps: if σ keeps to τ, it keeps to what the operation
makes of τ. So the proof for an operation is the chain of the operations that its definition applies, branch by branch, and the few operations that touch
memory, poisoned lines, registers or sync counters directly rest on the rules of the sparse maps. -/

namespace Sys2Proof.Machine
section Keeping
variable {σ τ υ : State}

/-! ### The ways in which an operation is put together -/

/-- An update of fields of which neither the queue nor the canonical form speaks. -/
theorem State.Keeps.same {out' freeCtr' time' log' logSeq' flashLog' flashSeq' msixEn' msixMask' spall' regions' regionUid' ports' e2eTx' e2eRx' txns' inbox' mgmtHold'
    mgmtTokens' mgmtTime' unreachLog' tlb' invals' derricks' arbs' seLast' busMaster' scrubLow' ues' colls' tally' ended' lateLog' early' straps'
    pci' released' cores' l2' modules' runs' repro' rings' members' cm' mb' bridge' gate' pwr' held' cmBox' benches'}
    (h : σ.Keeps τ) :
    σ.Keeps { τ with
      out := out', freeCtr := freeCtr', time := time', log := log', logSeq := logSeq', flashLog := flashLog', flashSeq := flashSeq',
      msixEn := msixEn', msixMask := msixMask', spall := spall', regions := regions', regionUid := regionUid', ports := ports', e2eTx := e2eTx',
      e2eRx := e2eRx', txns := txns', inbox := inbox', mgmtHold := mgmtHold', mgmtTokens := mgmtTokens', mgmtTime := mgmtTime',
      unreachLog := unreachLog', tlb := tlb', invals := invals', derricks := derricks', arbs := arbs', seLast := seLast', busMaster := busMaster',
      scrubLow := scrubLow', ues := ues', colls := colls', tally := tally', ended := ended', lateLog := lateLog', early := early', straps := straps',
      pci := pci', released := released', cores := cores', l2 := l2', modules := modules', runs := runs', repro := repro', rings := rings',
      members := members', cm := cm', mb := mb', bridge := bridge', gate := gate', pwr := pwr', held := held', cmBox := cmBox', benches := benches' } :=
  h.trans (.of_eq rfl rfl rfl rfl rfl)

theorem State.Keeps.ite {p : Prop} {_ : Decidable p} (h : σ.Keeps τ) (k : σ.Keeps υ) : σ.Keeps (if p then τ else υ) := by
  split
  · exact h
  · exact k

theorem State.Keeps.pair {α : Type} {x : α} (h : σ.Keeps τ) : σ.Keeps (τ, x).1 := h

/-- The state of a result that is one of two. -/
theorem State.Keeps.inl {α β : Type} {x : State × α ⊕ β} {f : β → State} {y} (h : σ.Keeps (x.elim Prod.fst f)) (e : x = .inl y) : σ.Keeps y.1 := by
  rw [e] at h
  exact h
theorem State.Keeps.inr {α β : Type} {x : State × α ⊕ β} {f : β → State} {y} (h : σ.Keeps (x.elim Prod.fst f)) (e : x = .inr y) : σ.Keeps (f y) := by
  rw [e] at h
  exact h

theorem State.Keeps.iteFst {α : Type} {p : Prop} {_ : Decidable p} {x y : State × α} (h : σ.Keeps x.1) (k : σ.Keeps y.1) :
    σ.Keeps (if p then x else y).1 := by
  split
  · exact h
  · exact k

theorem State.Keeps.fold {α : Type} {f : State → α → State} {l : List α} (hf : ∀ {υ a}, σ.Keeps υ → σ.Keeps (f υ a)) (h : σ.Keeps τ) :
    σ.Keeps (l.foldl f τ) :=
  List.foldlRecOn l f h fun _ hb _ _ => hf hb

/-- A fold whose accumulator holds a state and something besides. -/
theorem State.Keeps.foldFst {α β : Type} {f : State × β → α → State × β} {l : List α} {x : State × β}
    (hf : ∀ {y a}, σ.Keeps y.1 → σ.Keeps (f y a).1) (h : σ.Keeps x.1) : σ.Keeps (l.foldl f x).1 :=
  List.foldlRecOn (motive := fun y => σ.Keeps y.1) l f h fun _ hb _ _ => hf hb

/-- Registers dropped, so that they read their Reset column (R8). -/
theorem State.Keeps.keepRegs {p : Nat → Bool} (h : σ.Keeps τ) : σ.Keeps { τ with regs := SMap.keep p τ.regs } :=
  h.trans ⟨rfl, fun c => by
    obtain ⟨hm, hp, hr, hy⟩ := (State.canonical_iff τ).1 c
    exact (State.canonical_iff _).2 ⟨hm, hp, SMap.keep_wf hr, hy⟩⟩

/-- Bytes of memory dropped, so that they read 0, and lines that are poisoned no more. -/
theorem State.Keeps.keepMem {p q : Nat → Bool} (h : σ.Keeps τ) : σ.Keeps { τ with mem := SMap.keep p τ.mem, poison := τ.poison.filter q } :=
  h.trans ⟨rfl, fun c => by
    obtain ⟨hm, hp, hr, hy⟩ := (State.canonical_iff τ).1 c
    exact (State.canonical_iff _).2 ⟨SMap.keep_wf hm, SSet.filter_wfFrom hp, hr, hy⟩⟩

/-- Lines that are poisoned no more. -/
theorem State.Keeps.keepPoison {q : Nat → Bool} (h : σ.Keeps τ) : σ.Keeps { τ with poison := τ.poison.filter q } :=
  h.trans ⟨rfl, fun c => by
    obtain ⟨hm, hp, hr, hy⟩ := (State.canonical_iff τ).1 c
    exact (State.canonical_iff _).2 ⟨hm, SSet.filter_wfFrom hp, hr, hy⟩⟩


/-! ### The shared operations of the state -/

theorem State.Keeps.setReg {a v} (h : σ.Keeps τ) : σ.Keeps (τ.setReg a v) := h.trans (τ.setReg_keeps a v)
theorem State.Keeps.setRn {a v} (h : σ.Keeps τ) : σ.Keeps (τ.setRn a v) := h.setReg
theorem State.Keeps.setFld {a hi lo v} (h : σ.Keeps τ) : σ.Keeps (τ.setFld a hi lo v) := h.setRn
theorem State.Keeps.addReg {a n} (h : σ.Keeps τ) : σ.Keeps (τ.addReg a n) := h.setRn
theorem State.Keeps.resetRegs {lo hi} (h : σ.Keeps τ) : σ.Keeps (τ.resetRegs lo hi) := h.keepRegs
theorem State.Keeps.spoil {a} (h : σ.Keeps τ) : σ.Keeps (τ.spoil a) := h.same
theorem State.Keeps.wr {a bs} (h : σ.Keeps τ) : σ.Keeps (τ.wr a bs) := h.trans (τ.wr_keeps a bs)
theorem State.Keeps.poisonLine {a} (h : σ.Keeps τ) : σ.Keeps (τ.poisonLine a) := h.trans (τ.poisonLine_keeps a)
theorem State.Keeps.emit {o} (h : σ.Keeps τ) : σ.Keeps (τ.emit o) := h.same
theorem State.Keeps.draw (h : σ.Keeps τ) : σ.Keeps τ.draw := h.same
theorem State.Keeps.raise {src} (h : σ.Keeps τ) : σ.Keeps (τ.raise src) := h.trans (τ.raise_notes src).keeps
theorem State.Keeps.ev {code src args} (h : σ.Keeps τ) : σ.Keeps (τ.ev code src args) := h.trans (τ.ev_keeps code src args)
theorem State.Keeps.setSync {i v} (h : σ.Keeps τ) : σ.Keeps (τ.setSync i v) := h.trans (τ.setSync_keeps i v)
theorem State.Keeps.addSync {i n} (h : σ.Keeps τ) : σ.Keeps (τ.addSync i n) := h.setSync

theorem State.Keeps.dispatch {q known op par bad f} (h : σ.Keeps τ) (hpar : σ.Keeps par) (hbad : ∀ c, σ.Keeps (bad c)) (hk : ∀ c, σ.Keeps (f c)) :
    σ.Keeps (dispatch τ q known op par bad f) := by
  rcases dispatch_cases τ q known op par bad f with e | ⟨_, _, _, e⟩ | ⟨c, _, e⟩ | ⟨c, _, _, _, _, e⟩
  · rw [e]
    exact h
  · rw [e]
    exact hpar
  · rw [e]
    exact hk c
  · rw [e]
    exact hbad c

theorem State.Keeps.setBench {b x} (h : σ.Keeps τ) : σ.Keeps (τ.setBench b x) := h.same
theorem State.Keeps.modBench {b f} (h : σ.Keeps τ) : σ.Keeps (τ.modBench b f) := h.setBench
theorem State.Keeps.charge {b tag c} (h : σ.Keeps τ) : σ.Keeps (τ.charge b tag c) := h.trans (τ.charge_notes b tag c).keeps

/-! ### The add windows (R208 to R212) -/

theorem State.Keeps.addWrite {k w a bs} (h : σ.Keeps τ) : σ.Keeps (addWrite τ k w a bs) :=
  .ite (.ev (.ite h.addReg h.addReg.wr.setRn)) (.ite h.addReg h.addReg.wr.setRn)

theorem State.Keeps.addPiece {a bs} (h : σ.Keeps τ) : σ.Keeps (addPiece τ a bs) := by
  simp only [Machine.addPiece]
  split
  · exact h.addWrite
  · exact h.wr

theorem State.Keeps.addLines {a bs n} (h : σ.Keeps τ) : σ.Keeps (addLines τ a bs n) := by
  induction n generalizing τ a bs with
  | zero => exact h
  | succ n ih => exact .ite (.ite h h.addPiece) (ih h.addPiece)

theorem State.Keeps.wrAdd {a bs} (h : σ.Keeps τ) : σ.Keeps (τ.wrAdd a bs) := .ite h.addLines h.wr

/-! ### The array (R53 to R101) -/

theorem State.Keeps.poisonTile {t} (h : σ.Keeps τ) : σ.Keeps (poisonTile τ t) := .ite (.wrAdd (.ite h.wrAdd h)) (.ite h.wrAdd h)
theorem State.Keeps.spillRow {t m} (h : σ.Keeps τ) : σ.Keeps (spillRow τ t m) := h.wrAdd.wr

/-! ### The bench queue and its registers (R87 to R115) -/

theorem State.Keeps.benchHalt {b cause} (h : σ.Keeps τ) : σ.Keeps (τ.benchHalt b cause) := h.modBench.raise
theorem State.Keeps.benchRefuse {b item c} (h : σ.Keeps τ) : σ.Keeps (τ.benchRefuse b item c) := h.ev.benchHalt

theorem State.Keeps.benchDispatch {b op f} (h : σ.Keeps τ) (hk : ∀ x, σ.Keeps (f x)) : σ.Keeps (benchDispatch τ b op f) :=
  .ite h (h.dispatch h.ev.benchHalt (fun _ => h.benchRefuse) hk)

theorem State.Keeps.benchPop {b} (h : σ.Keeps τ) : σ.Keeps (τ.benchPop b) := h.modBench
theorem State.Keeps.benchNop {b} (h : σ.Keeps τ) : σ.Keeps (benchNop τ b) := h.benchDispatch (fun _ => h.benchPop)
theorem State.Keeps.benchSyncWait {b} (h : σ.Keeps τ) : σ.Keeps (benchSyncWait τ b) := h.benchDispatch (fun _ => .ite h.benchPop h)

theorem State.Keeps.benchSyncSignal {b} (h : σ.Keeps τ) : σ.Keeps (benchSyncSignal τ b) :=
  h.benchDispatch (fun _ => .ite h.modBench h.benchPop.addSync)

theorem State.Keeps.stageWrite {b off v} (h : σ.Keeps τ) : σ.Keeps (τ.stageWrite b off v) := .ite h.setRn (.ite h.setRn h.setRn)

theorem State.Keeps.setregCommand {b} (h : σ.Keeps τ) : σ.Keeps (Machine.setReg τ b) :=
  h.benchDispatch (fun _ => .ite h.benchPop.stageWrite h.benchRefuse)

theorem State.Keeps.benchHaltCmd {b} (h : σ.Keeps τ) : σ.Keeps (benchHaltCmd τ b) := h.benchDispatch (fun _ => h.benchPop.benchHalt)
theorem State.Keeps.benchCommit {b} (h : σ.Keeps τ) : σ.Keeps (benchCommit τ b) := h.benchDispatch (fun _ => h.modBench)
theorem State.Keeps.copyBanks {b} (h : σ.Keeps τ) : σ.Keeps (τ.copyBanks b) := .setReg (.fold (fun h => h.setReg) h)

theorem State.Keeps.commitNow {b} (h : σ.Keeps τ) : σ.Keeps (commitNow τ b) := by
  unfold Machine.commitNow
  extract_lets _ _ s1 s2
  have h1 : σ.Keeps s1 := h.modBench.copyBanks.setFld
  have h2 : σ.Keeps s2 := .ite h1.modBench h1
  split
  · extract_lets s1
    have h1 : σ.Keeps s1 := h.modBench.ev.setRn
    exact .ite h1 h1.benchHalt
  · exact .ite h2 (.benchHalt (.ite h2.modBench h2))

theorem State.Keeps.commitCopy {b} (h : σ.Keeps τ) : σ.Keeps (commitCopy τ b) := .ite h h.commitNow
theorem State.Keeps.commitGo {b} (h : σ.Keeps τ) : σ.Keeps (commitGo τ b) := .ite h h.modBench

theorem State.Keeps.tile {b} (h : σ.Keeps τ) : σ.Keeps (tile τ b) := by
  unfold Machine.tile
  extract_lets s1
  have h1 : σ.Keeps s1 := .ite h.commitNow h
  refine h.benchDispatch (fun _ => ?_)
  split
  · exact h
  split
  · exact h1
  dsimp only
  split
  · exact h1.benchRefuse
  · exact h1.modBench

theorem State.Keeps.beginFault {b f} (h : σ.Keeps τ) : σ.Keeps (τ.beginFault b f) := h.modBench
theorem State.Keeps.enterBeat {b x t acc} (h : σ.Keeps τ) : σ.Keeps (enterBeat τ b x t acc) := h.setBench.charge

theorem State.Keeps.beatEntry {b} (h : σ.Keeps τ) : σ.Keeps (beatEntry τ b) := by
  simp only [Machine.beatEntry]
  split
  · exact h
  split
  · exact h
  split
  · exact h
  split
  · exact h.beginFault
  · exact h.enterBeat

theorem State.Keeps.partialReturn {b} (h : σ.Keeps τ) : σ.Keeps (partialReturn τ b) := by
  simp only [Machine.partialReturn]
  split
  · exact h
  split
  · exact h
  · exact .ite h h.setBench

theorem State.Keeps.tileDone {b t} (h : σ.Keeps τ) : σ.Keeps (τ.tileDone b t) := h.modBench.addReg

theorem State.Keeps.rowFinal {b} (h : σ.Keeps τ) : σ.Keeps (rowFinal τ b) := by
  simp only [Machine.rowFinal]
  split
  · exact h
  split
  · exact h
  split
  · exact h.setBench
  · exact .ite (.ite h.setBench.wr.tileDone h.setBench.wr) (.ite h.setBench h.setBench)

theorem State.Keeps.autosplitSpill {b} (h : σ.Keeps τ) : σ.Keeps (autosplitSpill τ b) := by
  simp only [Machine.autosplitSpill]
  split
  · exact h
  split
  · exact h
  · exact .ite h (.modBench (.fold (fun h => h.spillRow) h))

theorem State.Keeps.tableBuild {b} (h : σ.Keeps τ) : σ.Keeps (tableBuild τ b) := by
  simp only [Machine.tableBuild]
  split
  · exact h
  split
  · exact h
  split
  · exact h
  split
  · exact h.beginFault
  · exact h.setBench.wr.charge

theorem State.Keeps.partTimeout {b} (h : σ.Keeps τ) : σ.Keeps (partTimeout τ b) := by
  simp only [Machine.partTimeout]
  split
  · exact h
  split
  · exact h
  · exact .ite h h.beginFault

theorem State.Keeps.poisonDone {b} (h : σ.Keeps τ) : σ.Keeps (poisonDone τ b) := by
  simp only [Machine.poisonDone]
  split
  · exact h
  split
  · exact h
  split
  · exact h.setBench
  · exact h.poisonTile.setBench.setRn.setRn.ev.benchHalt

theorem State.Keeps.bnResume {b} (h : σ.Keeps τ) : σ.Keeps (bnResume τ b) := .ite h h.setBench.setFld
theorem State.Keeps.bnSkip {b} (h : σ.Keeps τ) : σ.Keeps (bnSkip τ b) := .ite h h.benchPop
theorem State.Keeps.bnHaltReq {b} (h : σ.Keeps τ) : σ.Keeps (bnHaltReq τ b) := .ite h (.ite h.setBench h.benchHalt)
theorem State.Keeps.bnCntClr {b} (h : σ.Keeps τ) : σ.Keeps (bnCntClr τ b) := .ite h (.setRn (.fold (fun h => h.setRn) h))
theorem State.Keeps.bnFlagsClear {b mask} (h : σ.Keeps τ) : σ.Keeps (bnFlagsClear τ b mask) := .ite h h.setRn
theorem State.Keeps.bnFlagsRcRead {b} (h : σ.Keeps τ) : σ.Keeps (bnFlagsRcRead τ b) := .ite h.emit h.emit.setRn

theorem State.Keeps.benchSigAdd {b} (h : σ.Keeps τ) : σ.Keeps (benchSigAdd τ b) := by
  simp only [Machine.benchSigAdd]
  split
  · exact h
  · exact h.setBench.addSync

/-! ### Writes at their target -/

theorem State.Keeps.activeWrite {b n} (h : σ.Keeps τ) : σ.Keeps (τ.activeWrite b n) := by
  simp only [State.activeWrite]
  split
  · exact h
  · exact .ite h h.beginFault

theorem State.Keeps.storeWrite {b off bs} (h : σ.Keeps τ) : σ.Keeps (storeWrite τ b off bs) := by
  simp only [Machine.storeWrite]
  split
  · exact h
  split
  · exact .ite h.activeWrite h.setBench.wr
  · exact .ite h.wr h

theorem State.Keeps.wrPiece {a bs} (h : σ.Keeps τ) : σ.Keeps (wrPiece τ a bs) := .ite h.storeWrite h.addPiece

theorem State.Keeps.wrLines {a bs n} (h : σ.Keeps τ) : σ.Keeps (wrLines τ a bs n) := by
  induction n generalizing τ a bs with
  | zero => exact h
  | succ n ih => exact .ite (.ite h h.wrPiece) (ih h.wrPiece)

theorem State.Keeps.write {a bs} (h : σ.Keeps τ) : σ.Keeps (τ.write a bs) := h.wrLines
theorem State.Keeps.atmZero {k w} (h : σ.Keeps τ) : σ.Keeps (atmZero τ k w) := h.keepMem.setFld
theorem State.Keeps.atmClearDone {k w} (h : σ.Keeps τ) : σ.Keeps (atmClearDone τ k w) := h.setFld

/-! ### The mason unit (R150 to R159) -/

theorem State.Keeps.masonHalt {b cause item tag} (h : σ.Keeps τ) : σ.Keeps (τ.masonHalt b cause item tag) := h.modBench.setRn.raise
theorem State.Keeps.masonRefuse {b item c} (h : σ.Keeps τ) : σ.Keeps (τ.masonRefuse b item c) := h.ev.masonHalt

theorem State.Keeps.masonDispatch {b op f} (h : σ.Keeps τ) (hk : ∀ x, σ.Keeps (f x)) : σ.Keeps (masonDispatch τ b op f) :=
  .ite h (h.dispatch h.ev.masonHalt (fun _ => h.masonRefuse) hk)

theorem State.Keeps.masonPop {b} (h : σ.Keeps τ) : σ.Keeps (τ.masonPop b) := h.modBench
theorem State.Keeps.muNop {b} (h : σ.Keeps τ) : σ.Keeps (muNop τ b) := h.masonDispatch (fun _ => h.masonPop)
theorem State.Keeps.muSyncWait {b} (h : σ.Keeps τ) : σ.Keeps (muSyncWait τ b) := h.masonDispatch (fun _ => .ite h.masonPop h)

theorem State.Keeps.muSyncSignal {b} (h : σ.Keeps τ) : σ.Keeps (muSyncSignal τ b) :=
  h.masonDispatch (fun _ => .ite h.modBench h.masonPop.addSync)

theorem State.Keeps.muSigAdd {b} (h : σ.Keeps τ) : σ.Keeps (muSigAdd τ b) := by
  simp only [Machine.muSigAdd]
  split
  · exact h
  · exact h.setBench.addSync

theorem State.Keeps.masonStart {b c passes} (h : σ.Keeps τ) : σ.Keeps (τ.masonStart b c passes) := h.modBench

theorem State.Keeps.mm {b} (h : σ.Keeps τ) : σ.Keeps (mm τ b) := by
  simp only [Machine.mm]
  refine h.masonDispatch (fun _ => ?_)
  split
  · exact h
  split
  · exact h.masonRefuse
  · exact h.masonStart

theorem State.Keeps.red {b} (h : σ.Keeps τ) : σ.Keeps (red τ b) := by
  simp only [Machine.red]
  refine h.masonDispatch (fun _ => ?_)
  split
  · exact h
  split
  · exact h.masonRefuse
  · exact h.masonStart

theorem State.Keeps.masonDone {b} (h : σ.Keeps τ) : σ.Keeps (masonDone τ b) := by
  unfold Machine.masonDone
  refine .ite h ?_
  split
  · exact h
  · exact .charge (.addReg (.iteFst (.pair (.fold (fun h => h.wr) h.setBench)) (.pair h.setBench.wr)))

theorem State.Keeps.muResume {b} (h : σ.Keeps τ) : σ.Keeps (muResume τ b) := .ite h h.setBench.setFld
theorem State.Keeps.muSkip {b} (h : σ.Keeps τ) : σ.Keeps (muSkip τ b) := .ite h h.masonPop
theorem State.Keeps.muCntClr {b} (h : σ.Keeps τ) : σ.Keeps (muCntClr τ b) := .ite h h.setRn
theorem State.Keeps.muPassesWrite {b v} (h : σ.Keeps τ) : σ.Keeps (muPassesWrite τ b v) := .ite h h.setRn

/-! ### Stream claims and the crusher (R160 to R182) -/

theorem State.Keeps.submitClaim {who step ref} (h : σ.Keeps τ) : σ.Keeps (τ.submitClaim who step ref) := h.same
theorem State.Keeps.refuseClaim {c reason holder} (h : σ.Keeps τ) : σ.Keeps (τ.refuseClaim c reason holder) := h.ev.addReg.setRn.setRn

theorem State.Keeps.decideClaim {c} (h : σ.Keeps τ) : σ.Keeps (τ.decideClaim c).1 := by
  simp only [State.decideClaim]
  split
  · exact .pair h.refuseClaim
  split
  · exact .iteFst h (.pair h.refuseClaim)
  · exact .iteFst (.pair h.refuseClaim) (.pair h.same)

theorem State.Keeps.spKeyLoad (h : σ.Keeps τ) : σ.Keeps (spKeyLoad τ) := .ite h.same h.ev
theorem State.Keeps.retireClaims {step} (h : σ.Keeps τ) : σ.Keeps (τ.retireClaims step) := h.same
theorem State.Keeps.spClaimsRead (h : σ.Keeps τ) : σ.Keeps (spClaimsRead τ) := h.emit.same
theorem State.Keeps.spRefusedRead (h : σ.Keeps τ) : σ.Keeps (spRefusedRead τ) := h.emit.setRn

theorem State.Keeps.claimUe {i} (h : σ.Keeps τ) : σ.Keeps (claimUe τ i) := by
  simp only [Machine.claimUe]
  split
  · exact .ite (.ev (h.same)) h
  · exact .ev (h.same)

theorem State.Keeps.crusherHalt {b cause item tag} (h : σ.Keeps τ) : σ.Keeps (τ.crusherHalt b cause item tag) := h.modBench.setRn.raise
theorem State.Keeps.crusherRefuse {b item c} (h : σ.Keeps τ) : σ.Keeps (τ.crusherRefuse b item c) := h.ev.crusherHalt

theorem State.Keeps.crusherDispatch {b op f} (h : σ.Keeps τ) (hk : ∀ x, σ.Keeps (f x)) : σ.Keeps (crusherDispatch τ b op f) :=
  .ite h (h.dispatch h.ev.crusherHalt (fun _ => h.crusherRefuse) hk)

theorem State.Keeps.crusherPop {b} (h : σ.Keeps τ) : σ.Keeps (τ.crusherPop b) := h.modBench
theorem State.Keeps.crNop {b} (h : σ.Keeps τ) : σ.Keeps (crNop τ b) := h.crusherDispatch (fun _ => h.crusherPop)
theorem State.Keeps.crSyncWait {b} (h : σ.Keeps τ) : σ.Keeps (crSyncWait τ b) := h.crusherDispatch (fun _ => .ite h.crusherPop h)

theorem State.Keeps.crSyncSignal {b} (h : σ.Keeps τ) : σ.Keeps (crSyncSignal τ b) :=
  h.crusherDispatch (fun _ => .ite h.modBench h.crusherPop.addSync)

theorem State.Keeps.crSigAdd {b} (h : σ.Keeps τ) : σ.Keeps (crSigAdd τ b) := by
  simp only [Machine.crSigAdd]
  split
  · exact h
  · exact h.setBench.addSync

theorem State.Keeps.rot {b} (h : σ.Keeps τ) : σ.Keeps (rot τ b) := by
  simp only [Machine.rot]
  refine h.crusherDispatch (fun _ => ?_)
  split
  · exact h
  split
  · exact h.crusherRefuse
  · exact h.modBench.submitClaim

theorem State.Keeps.rotClaimed {b r} (h : σ.Keeps τ) : σ.Keeps (rotClaimed τ b r) := by
  simp only [Machine.rotClaimed]
  split
  · split
    · exact h.setBench.modBench
    · exact h.setBench.crusherHalt
  · exact h.setBench

theorem State.Keeps.rotBlock {b} (h : σ.Keeps τ) : σ.Keeps (rotBlock τ b) := by
  simp only [Machine.rotBlock]
  refine .ite h ?_
  split
  · exact h
  · exact .charge (.addReg (.modBench (.ite h.wr.wr h.wr)))

theorem State.Keeps.crResume {b} (h : σ.Keeps τ) : σ.Keeps (crResume τ b) := .ite h h.setBench.setFld
theorem State.Keeps.crSkip {b} (h : σ.Keeps τ) : σ.Keeps (crSkip τ b) := .ite h h.crusherPop
theorem State.Keeps.crCntClr {b} (h : σ.Keeps τ) : σ.Keeps (crCntClr τ b) := .ite h h.setRn

/-! ### The version tables (R195 to R207) -/

theorem State.Keeps.setRegion {r x} (h : σ.Keeps τ) : σ.Keeps (τ.setRegion r x) := h.same
theorem State.Keeps.dropRegion {r} (h : σ.Keeps τ) : σ.Keeps (τ.dropRegion r) := h.same
theorem State.Keeps.vtRefuse {k code} (h : σ.Keeps τ) : σ.Keeps (τ.vtRefuse k code).1 := .pair (.ite h.ev (.ite h.ev h.ev))

theorem State.Keeps.vtRegister {k w} (h : σ.Keeps τ) : σ.Keeps (vtRegister τ k w).1 := by
  simp only [Machine.vtRegister]
  split
  · exact h.vtRefuse
  split
  · exact h.vtRefuse
  split
  · exact h.vtRefuse
  · exact .iteFst h.vtRefuse (.iteFst h.vtRefuse (.pair (.setRegion (h.same))))

theorem State.Keeps.vtDeregister {k r} (h : σ.Keeps τ) : σ.Keeps (vtDeregister τ k r).1 := by
  simp only [Machine.vtDeregister]
  split
  · exact h.vtRefuse
  · exact .iteFst h.vtRefuse (.pair h.dropRegion)

theorem State.Keeps.vtPin {k r x i} (h : σ.Keeps τ) : σ.Keeps (vtPin τ k r x i).1 := .iteFst h.vtRefuse (.pair h.setRegion)

theorem State.Keeps.vtPinCurrent {k r} (h : σ.Keeps τ) : σ.Keeps (vtPinCurrent τ k r).1 := by
  simp only [Machine.vtPinCurrent]
  split
  · exact h.vtRefuse
  split
  · exact h.vtPin
  · exact h.vtRefuse

theorem State.Keeps.vtPinStep {k r lo} (h : σ.Keeps τ) : σ.Keeps (vtPinStep τ k r lo).1 := by
  simp only [Machine.vtPinStep]
  split
  · exact h.vtRefuse
  split
  · exact h.vtPin
  · exact h.vtRefuse

theorem State.Keeps.vtPinToken {k r i gen} (h : σ.Keeps τ) : σ.Keeps (vtPinToken τ k r i gen).1 := by
  simp only [Machine.vtPinToken]
  split
  · exact h.vtRefuse
  · exact .iteFst h.vtPin h.vtRefuse

theorem State.Keeps.vtUnpin {k r i gen} (h : σ.Keeps τ) : σ.Keeps (vtUnpin τ k r i gen).1 := by
  simp only [Machine.vtUnpin]
  split
  · exact h.vtRefuse
  · exact .iteFst h.vtRefuse (.iteFst h.vtRefuse (.pair h.setRegion))

theorem State.Keeps.vtOp {k w} (h : σ.Keeps τ) : σ.Keeps (vtOp τ k w).1 := by
  simp only [Machine.vtOp]
  split
  · exact h.vtRegister
  · exact h.vtDeregister
  · exact h.vtPinCurrent
  · exact h.vtPinStep
  · exact h.vtPinToken
  · exact h.vtUnpin
  · exact h.vtRefuse

theorem State.Keeps.vtIssue {k c op} (h : σ.Keeps τ) (hk : ∀ {υ}, σ.Keeps υ → σ.Keeps (op υ).1) : σ.Keeps (vtIssue τ k c op) :=
  .ite h (((hk h).setRn).setRn)

theorem State.Keeps.modUe {k f} (h : σ.Keeps τ) : σ.Keeps (τ.modUe k f) := h.same
theorem State.Keeps.updFail {k tag cause item step} (h : σ.Keeps τ) : σ.Keeps (τ.updFail k tag cause item step) := h.setRn.modUe

theorem State.Keeps.endWait {k p} (h : σ.Keeps τ) : σ.Keeps (τ.endWait k p) := by
  simp only [State.endWait]
  split
  · exact h.addReg
  · exact h

theorem State.Keeps.updEnd {k r cause} (h : σ.Keeps τ) : σ.Keeps (τ.updEnd k r cause) := h.endWait.modUe.updFail

theorem State.Keeps.slotAcquire {k} (h : σ.Keeps τ) : σ.Keeps (slotAcquire τ k) := by
  simp only [Machine.slotAcquire]
  split
  · exact h
  split
  · exact h
  split
  · split
    · exact h.updEnd
    split
    · exact h.updEnd
    split
    · exact h.setRegion.endWait.modUe
    · exact h
  · exact h

theorem State.Keeps.versionExhausted {k} (h : σ.Keeps τ) : σ.Keeps (versionExhausted τ k) := by
  simp only [Machine.versionExhausted]
  split
  · exact h
  split
  · exact h
  split
  · exact .ite h h.ev.addReg.updEnd
  · exact h

theorem State.Keeps.vtCfgWrite {k v} (h : σ.Keeps τ) : σ.Keeps (vtCfgWrite τ k v) := .ite h h.setRn.versionExhausted
theorem State.Keeps.vtSelWrite {k v} (h : σ.Keeps τ) : σ.Keeps (vtSelWrite τ k v) := .ite h (.fold (fun h => h.setRn) h.setRn)

theorem State.Keeps.vtUe {r} (h : σ.Keeps τ) : σ.Keeps (vtUe τ r) := by
  simp only [Machine.vtUe]
  split
  · exact h
  split
  · exact .ite h.dropRegion.ev.updEnd h.dropRegion.ev
  · exact h.dropRegion.ev

theorem State.Keeps.implPin {r i} (h : σ.Keeps τ) : σ.Keeps (τ.implPin r i) := by
  simp only [State.implPin]
  split
  · exact h
  · exact h.setRegion

theorem State.Keeps.implUnpin {r uid i} (h : σ.Keeps τ) : σ.Keeps (τ.implUnpin r uid i) := by
  simp only [State.implUnpin]
  split
  · exact h
  · exact .ite h h.setRegion

theorem State.Keeps.decideTables {S commit} (h : σ.Keeps τ) : σ.Keeps (τ.decideTables S commit) := by
  unfold State.decideTables
  extract_lets s1
  have h1 : σ.Keeps s1 := by
    unfold s1
    refine .fold (fun h => ?_) h
    split
    · exact .ite h.updEnd h
    · exact h
  exact h1.same

/-! ### The update engines (R213 to R224) -/

theorem State.Keeps.ueDispatch {k op f} (h : σ.Keeps τ) (hk : ∀ x, σ.Keeps (f x)) : σ.Keeps (ueDispatch τ k op f) :=
  .ite h (h.dispatch h.ev.modUe.raise (fun _ => h.ev.modUe.updFail) hk)

theorem State.Keeps.uePop {k} (h : σ.Keeps τ) : σ.Keeps (τ.uePop k) := h.modUe
theorem State.Keeps.ueNop {k} (h : σ.Keeps τ) : σ.Keeps (ueNop τ k) := h.ueDispatch (fun _ => h.uePop)
theorem State.Keeps.ueSyncWait {k} (h : σ.Keeps τ) : σ.Keeps (ueSyncWait τ k) := h.ueDispatch (fun _ => .ite h.uePop h)
theorem State.Keeps.ueSyncSignal {k} (h : σ.Keeps τ) : σ.Keeps (ueSyncSignal τ k) := h.ueDispatch (fun _ => .ite h.modUe h.uePop.addSync)

theorem State.Keeps.ueSigAdd {k} (h : σ.Keeps τ) : σ.Keeps (ueSigAdd τ k) := by
  simp only [Machine.ueSigAdd]
  split
  · exact h
  · exact h.modUe.addSync

theorem State.Keeps.mark {k} (h : σ.Keeps τ) : σ.Keeps (mark τ k) := h.ueDispatch (fun _ => .ite h h.modUe.setRn.setRn)
theorem State.Keeps.wrSlot {a bs} (h : σ.Keeps τ) : σ.Keeps (τ.wrSlot a bs) := h.keepPoison.wr
theorem State.Keeps.copySlot {src dst n} (h : σ.Keeps τ) : σ.Keeps (τ.copySlot src dst n) := .fold (fun h => .ite h.poisonLine h) h.wrSlot

theorem State.Keeps.storeW {r i xs} (h : σ.Keeps τ) : σ.Keeps (storeW τ r i xs).1 :=
  .iteFst (.pair h.wrSlot.wrSlot) (.iteFst (.iteFst (.pair h.copySlot) (.pair h.wrSlot)) (.pair h.wrSlot))

theorem State.Keeps.copyW {r i n} (h : σ.Keeps τ) : σ.Keeps (copyW τ r i n) := .ite h.copySlot.copySlot (.ite h.copySlot h.copySlot)

theorem State.Keeps.storeUnit {r i us} (h : σ.Keeps τ) : σ.Keeps (storeUnit τ r i us).1 := by
  unfold Machine.storeUnit
  extract_lets _ _ _ _ _ _ s1 _ s2
  have h1 : σ.Keeps s1 := .fold (fun h => .ite h.wrSlot (.ite h.copySlot h)) (.iteFst h.storeW (.iteFst (.pair h.copyW) h))
  have h2 : σ.Keeps s2 := .ite h1.copySlot h1
  exact h2

theorem State.Keeps.ueFlags {k c} (h : σ.Keeps τ) : σ.Keeps (τ.ueFlags k c) := h.setRn

theorem State.Keeps.sweepElem {k r} (h : σ.Keeps τ) : σ.Keeps (sweepElem τ k r) := by
  unfold Machine.sweepElem
  extract_lets _ _ _ _ _ _ _ _ s1 s2
  have h1 : σ.Keeps s1 := h.storeUnit.ueFlags
  have h2 : σ.Keeps s2 := .ite h1.addReg h1
  exact .ite h.ueFlags.ev.updEnd (.ite h.ueFlags.modUe (.ite h2.modUe (.ite h2.modUe h2.ueFlags.modUe)))

theorem State.Keeps.sweepN {k ph n} (h : σ.Keeps τ) : σ.Keeps (sweepN τ k ph n) := by
  induction n generalizing τ with
  | zero => exact h
  | succ n ih =>
    simp only [Machine.sweepN]
    split
    · exact .ite (ih h.sweepElem) h
    · exact h

theorem State.Keeps.updateSweep {k} (h : σ.Keeps τ) : σ.Keeps (updateSweep τ k) := by
  simp only [Machine.updateSweep]
  split
  · exact h
  split
  · exact .ite h.sweepN h
  · exact h

theorem State.Keeps.updWait {k r} (h : σ.Keeps τ) : σ.Keeps (τ.updWait k r) := h.modUe.slotAcquire

theorem State.Keeps.update {k} (h : σ.Keeps τ) : σ.Keeps (update τ k) := by
  simp only [Machine.update]
  refine h.ueDispatch (fun _ => ?_)
  split
  · exact h
  split
  · exact h.ev.uePop.updFail
  split
  · exact h.modUe.updWait
  split
  · exact h.modUe.updWait
  · exact h.modUe.modUe.submitClaim

theorem State.Keeps.updClaimed {k d res} (h : σ.Keeps τ) : σ.Keeps (updClaimed τ k d res) := by
  simp only [Machine.updClaimed]
  split
  · exact h
  split
  · exact h
  split
  · exact h.modUe.updWait
  · exact h.updEnd

theorem State.Keeps.ueResume {k} (h : σ.Keeps τ) : σ.Keeps (ueResume τ k) := .ite h h.modUe
theorem State.Keeps.ueSkip {k} (h : σ.Keeps τ) : σ.Keeps (ueSkip τ k) := .ite h h.uePop
theorem State.Keeps.ueCntClr {k} (h : σ.Keeps τ) : σ.Keeps (ueCntClr τ k) := .ite h h.setRn.setRn

/-! ### The router and the transmit side (R305 to R317) -/

theorem State.Keeps.modPort {p f} (h : σ.Keeps τ) : σ.Keeps (τ.modPort p f) := h.same
theorem State.Keeps.portTo {p st} (h : σ.Keeps τ) : σ.Keeps (τ.portTo p st) := .ite h h.modPort.ev
theorem State.Keeps.portCount {p i n} (h : σ.Keeps τ) : σ.Keeps (τ.portCount p i n) := h.addReg
theorem State.Keeps.routeCount {i n} (h : σ.Keeps τ) : σ.Keeps (τ.routeCount i n) := h.addReg
theorem State.Keeps.decode {p w} (h : σ.Keeps τ) : σ.Keeps (τ.decode p w).1 := .pair (.ite h.modPort.addReg h.modPort)
theorem State.Keeps.send {p w} (h : σ.Keeps τ) : σ.Keeps (τ.send p w) := h.modPort.emit.portCount
theorem State.Keeps.returnCredits {p} (h : σ.Keeps τ) : σ.Keeps (τ.returnCredits p) := .ite h.send h

theorem State.Keeps.freeBuf {from?} (h : σ.Keeps τ) : σ.Keeps (τ.freeBuf from?) := by
  simp only [State.freeBuf]
  split
  · exact h
  · exact h.modPort.returnCredits

theorem State.Keeps.sendData {p w} (h : σ.Keeps τ) : σ.Keeps (τ.sendData p w) := h.modPort.send.freeBuf

theorem State.Keeps.pump {p n} (h : σ.Keeps τ) : σ.Keeps (τ.pump p n) := by
  induction n generalizing τ with
  | zero => exact h
  | succ n ih =>
    simp only [State.pump]
    split
    · exact h
    · exact ih h.modPort.sendData

theorem State.Keeps.enqueue {p w} (h : σ.Keeps τ) : σ.Keeps (τ.enqueue p w) := h.modPort.pump
theorem State.Keeps.unreachable {f} (h : σ.Keeps τ) : σ.Keeps (τ.unreachable f) := h.routeCount.ev

theorem State.Keeps.place {f vc inp} (h : σ.Keeps τ) : σ.Keeps (τ.place f vc inp).1 := by
  simp only [State.place]
  split
  · exact .pair h.same
  · exact .pair h.routeCount.freeBuf
  · exact .pair h.unreachable.freeBuf
  split
  · exact .pair h.enqueue
  split
  · exact .pair h.unreachable.freeBuf
  split
  · exact .pair h.routeCount.enqueue
  · exact .pair h.enqueue

theorem State.Keeps.setTally {i t} (h : σ.Keeps τ) : σ.Keeps (τ.setTally i t) := h.same

theorem State.Keeps.tallySent {f} (h : σ.Keeps τ) : σ.Keeps (τ.tallySent f) := by
  simp only [State.tallySent]
  split
  · split
    · exact h.setTally
    · exact h
  · exact h

theorem State.Keeps.setE2e {w} (h : σ.Keeps τ) : σ.Keeps (τ.setE2e w) := h.same

theorem State.Keeps.logUnreach {d} (h : σ.Keeps τ) : σ.Keeps (τ.logUnreach d) := by
  simp only [State.logUnreach]
  split
  · exact .ite h h.ev.same
  · exact h.ev.same

theorem State.Keeps.noRoute {f} (h : σ.Keeps τ) : σ.Keeps (τ.noRoute f) := .ite h.routeCount.logUnreach.same h.routeCount.logUnreach

theorem State.Keeps.e2ePump {d n} (h : σ.Keeps τ) : σ.Keeps (τ.e2ePump d n) := by
  induction n generalizing τ with
  | zero => exact h
  | succ n ih =>
    simp only [State.e2ePump]
    split
    · exact h
    · exact .ite h (.ite (ih h.setE2e.noRoute) (ih h.setE2e.tallySent.place))

theorem State.Keeps.inject {f} (h : σ.Keeps τ) : σ.Keeps (τ.inject f).1 := by
  simp only [State.inject]
  split
  · exact .pair h.tallySent.place
  split
  · exact .iteFst (.pair h.routeCount.logUnreach) (.pair h.place)
  · exact .iteFst (.pair h.routeCount.logUnreach) (.pair h.setE2e.e2ePump)

theorem State.Keeps.relay {f vc inp} (h : σ.Keeps τ) : σ.Keeps (τ.relay f vc inp) := .ite h.place.inject h.place
theorem State.Keeps.peerRequest {t data} (h : σ.Keeps τ) : σ.Keeps (τ.peerRequest t data).1 := .iteFst (.pair h.inject.same) h.inject
theorem State.Keeps.mgmtFill (h : σ.Keeps τ) : σ.Keeps τ.mgmtFill := h.same

theorem State.Keeps.mgmtGo {p f} (h : σ.Keeps τ) : σ.Keeps (τ.mgmtGo p f) := by
  simp only [State.mgmtGo]
  split
  · exact h.enqueue
  · exact h.inject

theorem State.Keeps.mgmtPump {n} (h : σ.Keeps τ) : σ.Keeps (τ.mgmtPump n) := by
  induction n generalizing τ with
  | zero => exact h
  | succ n ih =>
    simp only [State.mgmtPump]
    split
    · exact h
    · exact .ite h (ih (.mgmtGo (h.same)))

theorem State.Keeps.mgmtTick (h : σ.Keeps τ) : σ.Keeps τ.mgmtTick := h.mgmtFill.mgmtPump
theorem State.Keeps.mgmtSend {p f} (h : σ.Keeps τ) : σ.Keeps (τ.mgmtSend p f) := .mgmtTick (h.same)
theorem State.Keeps.sendCommit {d msg} (h : σ.Keeps τ) : σ.Keeps (τ.sendCommit d msg) := h.mgmtSend
theorem State.Keeps.memSendPort {p m} (h : σ.Keeps τ) : σ.Keeps (τ.memSendPort p m) := h.mgmtSend
theorem State.Keeps.memSend {dst m} (h : σ.Keeps τ) : σ.Keeps (τ.memSend dst m) := h.mgmtSend
theorem State.Keeps.memSendParts {dst mk b} (h : σ.Keeps τ) : σ.Keeps (τ.memSendParts dst mk b) := .fold (fun h => h.memSend) h

/-! ### Translation and memory accesses (R241 to R253) -/

theorem State.Keeps.xlate {agent ctx va write} (h : σ.Keeps τ) : σ.Keeps (τ.xlate agent ctx va write).1 := by
  unfold State.xlate
  extract_lets _ _ _ s0
  have h0 : σ.Keeps s0 := .ite h.draw h
  split
  · exact .pair h.addReg
  split
  · exact .iteFst (.pair h0.addReg) (.iteFst (.pair h0.addReg) h0)
  split
  · exact .pair h0.addReg.addReg
  split
  · exact .pair h0.addReg.addReg
  · exact .iteFst (.pair (.addReg (h0.addReg.same))) (.iteFst (.pair (.addReg (h0.addReg.same))) (.pair h0.addReg.same))

theorem State.Keeps.mmInval {v} (h : σ.Keeps τ) : σ.Keeps (mmInval τ v) := h.setRn.same

theorem State.Keeps.mmInvalDone (h : σ.Keeps τ) : σ.Keeps (mmInvalDone τ) := by
  simp only [Machine.mmInvalDone]
  split
  · exact h
  · exact .ite h (.ite (.setRn (h.same)) h.same)

theorem State.Keeps.setArb {i x} (h : σ.Keeps τ) : σ.Keeps (τ.setArb i x) := h.same

theorem State.Keeps.stackCe {a} (h : σ.Keeps τ) : σ.Keeps (τ.stackCe a) := by
  simp only [State.stackCe]
  split
  · exact .ite h.addReg.setArb h.addReg.setArb.ev.same
  · exact h.addReg.setArb.ev.same

theorem State.Keeps.stackUe {a} (h : σ.Keeps τ) : σ.Keeps (τ.stackUe a) := .ite h h.poisonLine.addReg.ev

theorem State.Keeps.stackAccess {a wdata ecc} (h : σ.Keeps τ) : σ.Keeps (stackAccess τ a wdata ecc) := by
  unfold Machine.stackAccess
  extract_lets _ s1
  have h1 : σ.Keeps s1 := by
    unfold s1
    split
    · exact h
    split
    · exact h
    · exact .ite h h.stackCe
    · exact h.stackUe
  split
  · exact h
  split
  · exact h1
  · exact h1.write

theorem State.Keeps.yardAccess {a wdata ecc} (h : σ.Keeps τ) : σ.Keeps (yardAccess τ a wdata ecc) := by
  unfold Machine.yardAccess
  extract_lets _ s1
  have h1 : σ.Keeps s1 := by
    unfold s1
    split
    · exact h
    split
    · exact h
    · exact h.addReg.setArb.ev
    · exact h.poisonLine.addReg.ev
  split
  · exact h
  split
  · exact h1
  · exact h1.write

theorem State.Keeps.patrolScrub {k ecc} (h : σ.Keeps τ) : σ.Keeps (patrolScrub τ k ecc) := by
  unfold Machine.patrolScrub
  extract_lets _ _ _ _ s1
  have h1 : σ.Keeps s1 := by
    unfold s1
    split
    · exact h.setArb
    · exact .ite h.setArb h.setArb.stackCe
    · exact h.setArb.stackUe
  exact .ite h (.ite h (.ite (.ev (h1.setRn.same)) h1.setFld.same))

theorem State.Keeps.arbDecide {i arrive refresh} (h : σ.Keeps τ) : σ.Keeps (arbDecide τ i arrive refresh) := by
  unfold Machine.arbDecide
  extract_lets _ _ s0
  have h0 : σ.Keeps s0 := by
    unfold s0
    split
    · exact h.write
    · exact h
  exact h0.setArb

theorem State.Keeps.hotBank {i} (h : σ.Keeps τ) : σ.Keeps (hotBank τ i) := .ite h h.setArb.addReg.ev
theorem State.Keeps.bankCools {i} (h : σ.Keeps τ) : σ.Keeps (bankCools τ i) := .ite h h.setArb
theorem State.Keeps.sySelWrite {v} (h : σ.Keeps τ) : σ.Keeps (sySelWrite τ v) := .fold (fun h => h.setRn) h.setRn
theorem State.Keeps.seamSelWrite {k v} (h : σ.Keeps τ) : σ.Keeps (seamSelWrite τ k v) := .ite h (.fold (fun h => h.setRn) h.setRn)

/-! ### The collective units (R331 to R354, R358) -/

theorem State.Keeps.modColl {u f} (h : σ.Keeps τ) : σ.Keeps (τ.modColl u f) := h.same
theorem State.Keeps.setColl {u r} (h : σ.Keeps τ) : σ.Keeps (τ.setColl u r) := h.modColl
theorem State.Keeps.collCount {u i n} (h : σ.Keeps τ) : σ.Keeps (τ.collCount u i n) := h.addReg
theorem State.Keeps.collFlags {u c} (h : σ.Keeps τ) : σ.Keeps (τ.collFlags u c) := h.setRn
theorem State.Keeps.collHalt {u cause item tag} (h : σ.Keeps τ) : σ.Keeps (τ.collHalt u cause item tag) := h.modColl.setRn.raise
theorem State.Keeps.collRefuse {u item c} (h : σ.Keeps τ) : σ.Keeps (τ.collRefuse u item c) := h.ev.collHalt

theorem State.Keeps.collDispatch {u op f} (h : σ.Keeps τ) (hk : ∀ x, σ.Keeps (f x)) : σ.Keeps (collDispatch τ u op f) :=
  .ite h (h.dispatch h.ev.collHalt (fun _ => h.collRefuse) hk)

theorem State.Keeps.collPop {u} (h : σ.Keeps τ) : σ.Keeps (τ.collPop u) := h.modColl
theorem State.Keeps.clNop {u} (h : σ.Keeps τ) : σ.Keeps (clNop τ u) := h.collDispatch (fun _ => h.collPop)
theorem State.Keeps.clSyncWait {u} (h : σ.Keeps τ) : σ.Keeps (clSyncWait τ u) := h.collDispatch (fun _ => .ite h.collPop h)

theorem State.Keeps.clSyncSignal {u} (h : σ.Keeps τ) : σ.Keeps (clSyncSignal τ u) :=
  h.collDispatch (fun _ => .ite h.modColl h.collPop.addSync)

theorem State.Keeps.clSigAdd {u} (h : σ.Keeps τ) : σ.Keeps (clSigAdd τ u) := by
  simp only [Machine.clSigAdd]
  split
  · exact h
  · exact h.modColl.addSync

theorem State.Keeps.collSend {u dst id h' data} (h : σ.Keeps τ) : σ.Keeps (τ.collSend u dst id h' data) := h.inject.collCount

theorem State.Keeps.spread {u r hd data n} (h : σ.Keeps τ) : σ.Keeps (spread τ u r hd data n) := by
  induction n generalizing τ with
  | zero => exact h
  | succ n ih =>
    simp only [Machine.spread]
    refine ih ?_
    split
    · exact .fold (fun h => h.collSend) h
    · exact .ite h.collSend h
    · exact h

theorem State.Keeps.relayChunk {u r i c h' data} (h : σ.Keeps τ) : σ.Keeps (Machine.relay τ u r i c h' data) := by
  unfold Machine.relay
  extract_lets s1
  have h1 : σ.Keeps s1 := by
    unfold s1
    split
    · exact .ite h h.collSend
    · exact h
  exact h1.spread

theorem State.Keeps.rawTo {u r dst o b} (h : σ.Keeps τ) : σ.Keeps (rawTo τ u r dst o b) := .ite h.write (.fold (fun h => h.collSend) h)

theorem State.Keeps.collLaunch {u r} (h : σ.Keeps τ) : σ.Keeps (collLaunch τ u r) := by
  simp only [Machine.collLaunch]
  split
  · exact .fold (fun h => h.spread) h.write
  · exact .ite (.fold (fun h => h.spread) h.write) h
  · exact .fold (fun h => h.rawTo) h
  · exact .setColl (.fold (fun h => h.rawTo) h)
  · exact h

theorem State.Keeps.noteRescaled {u r c on} (h : σ.Keeps τ) : σ.Keeps (τ.noteRescaled u r c on).1 :=
  .iteFst (.pair (.ite h.collCount.ev h.collCount)) h

theorem State.Keeps.sendPart {u r c code dst p pass skip} (h : σ.Keeps τ) : σ.Keeps (sendPart τ u r c code dst p pass skip) := by
  simp only [Machine.sendPart]
  split
  · exact h.collSend
  split
  · split
    · exact h.collSend
    · exact .collSend (.fold (fun h => h.write) h.collFlags)
  · exact h.collSend

theorem State.Keeps.writeCinfo {r c x flags count} (h : σ.Keeps τ) : σ.Keeps (writeCinfo τ r c x flags count) := .ite h h.write

theorem State.Keeps.ownerWrite {u r c p} (h : σ.Keeps τ) : σ.Keeps (ownerWrite τ u r c p).1 := by
  unfold Machine.ownerWrite
  extract_lets _ _ _ _ _ _ _ s1 _ s3
  have h1 : σ.Keeps s1 := h.write.collFlags.collCount
  have h3 : σ.Keeps s3 := .ite (.fold (fun h => h.spread) h1.writeCinfo) h1.writeCinfo
  exact h3

theorem State.Keeps.finishChunk {u r c p} (h : σ.Keeps τ) : σ.Keeps (finishChunk τ u r c p) := by
  simp only [Machine.finishChunk]
  split
  · exact .ite h.ownerWrite.setColl h.ev.collCount.spread.setColl
  · exact h.ownerWrite.setColl

theorem State.Keeps.combine {u id c} (h : σ.Keeps τ) : σ.Keeps (τ.combine u id c) := by
  unfold State.combine
  split
  · exact h
  extract_lets _ _ _ _ _ _ _ _ s2 _ _ _ _ s3
  have h2 : σ.Keeps s2 := .ite h.collFlags.ev.collCount h.collFlags
  have h3 : σ.Keeps s3 := .ite h2 h2.collCount
  split
  · exact h
  split
  · exact h
  split
  · exact h3.collFlags.noteRescaled.finishChunk
  dsimp only
  split
  · exact h3.collFlags.noteRescaled.sendPart.collCount.setColl
  · exact .ite h3.collFlags.noteRescaled.finishChunk h3.collFlags.noteRescaled.setColl

theorem State.Keeps.chunkCombine {u id c bad} (h : σ.Keeps τ) : σ.Keeps (chunkCombine τ u id c bad) := by
  simp only [Machine.chunkCombine]
  split
  · exact h.spoil.combine.same
  · exact h.combine

theorem State.Keeps.lateFlit {u id} (h : σ.Keeps τ) : σ.Keeps (τ.lateFlit u id) := .ite h.collCount h.collCount.ev.same

theorem State.Keeps.tallyRecv {f} (h : σ.Keeps τ) : σ.Keeps (τ.tallyRecv f) := by
  simp only [State.tallyRecv]
  split
  · exact h.setTally
  · exact h

theorem State.Keeps.collAccept {u r f} (h : σ.Keeps τ) : σ.Keeps (collAccept τ u r f) := by
  unfold Machine.collAccept
  extract_lets _ _ _ _ s2 _ _ _ _ s3 _ _ _ _ s4
  have h2 : σ.Keeps s2 := by
    unfold s2
    split
    · exact h.tallyRecv.relayChunk
    · exact h.tallyRecv
  have h3 : σ.Keeps s3 := by
    unfold s3
    split
    · exact h.tallyRecv.write.relayChunk
    · exact h.tallyRecv.write
  have h4 : σ.Keeps s4 := .ite h3.noteRescaled.writeCinfo h3.noteRescaled
  split
  · exact h.lateFlit
  split
  · exact h2.collCount.setColl
  split
  · exact .ite h.tallyRecv.write.setColl (.ite h4.setColl h3.setColl)
  split
  · exact h.lateFlit
  · exact .ite h.tallyRecv (.ite h.lateFlit h.tallyRecv.collFlags.noteRescaled.setColl)

theorem State.Keeps.collFlit {f} (h : σ.Keeps τ) : σ.Keeps (collFlit τ f) := by
  simp only [Machine.collFlit]
  split
  · exact h.collAccept
  · exact .ite h.lateFlit (.ite h.collCount h.same)

theorem State.Keeps.collBegin {u c key} (h : σ.Keeps τ) : σ.Keeps (collBegin τ u c key) :=
  .fold (fun h => h.collFlit) h.modColl.collLaunch.same

theorem State.Keeps.coll {u} (h : σ.Keeps τ) : σ.Keeps (Machine.coll τ u) := by
  unfold Machine.coll
  refine h.collDispatch fun c => .ite h ?_
  split
  · exact h.collRefuse
  extract_lets alloc
  have ha : ∀ υ, alloc = some υ → σ.Keeps υ := by
    unfold alloc
    intro υ
    split
    · rintro ⟨⟩
      exact h.setTally
    split
    · rintro ⟨⟩
      exact h.setTally
    · rintro ⟨⟩
  clear_value alloc
  cases alloc with
  | none => exact h.ev.collHalt
  | some s1 => exact .ite (ha s1 rfl).modColl.submitClaim (ha s1 rfl).collBegin

theorem State.Keeps.collClaimed {u res} (h : σ.Keeps τ) : σ.Keeps (collClaimed τ u res) := by
  simp only [Machine.collClaimed]
  split
  · split
    · exact h.collBegin
    · exact h.collHalt
  · exact h.modColl

theorem State.Keeps.missingInfo {r} (h : σ.Keeps τ) : σ.Keeps (missingInfo τ r) := .ite (.fold (fun h => .ite h h.writeCinfo) h) h

theorem State.Keeps.patienceExpiry {u id} (h : σ.Keeps τ) : σ.Keeps (patienceExpiry τ u id) := by
  unfold Machine.patienceExpiry
  split
  · exact h
  extract_lets _ _ _ _ _ _ s1
  have h1 : σ.Keeps s1 := .ite h h.ev
  exact .ite h h1.collCount.setColl.missingInfo

theorem State.Keeps.closeAbsent {u r} (h : σ.Keeps τ) : σ.Keeps (closeAbsent τ u r).1 := .iteFst h (.pair h.collCount.missingInfo)

theorem State.Keeps.collComplete {u id} (h : σ.Keeps τ) : σ.Keeps (collComplete τ u id) := by
  simp only [Machine.collComplete]
  split
  · exact h
  · exact .ite h h.closeAbsent.write.modColl.same

theorem State.Keeps.clResume {u} (h : σ.Keeps τ) : σ.Keeps (clResume τ u) := .ite h h.modColl.setFld

theorem State.Keeps.clSkip {u} (h : σ.Keeps τ) : σ.Keeps (clSkip τ u) := by
  simp only [Machine.clSkip]
  split
  · exact .ite (.collCount (.collPop (h.same))) h.collPop
  · exact h

theorem State.Keeps.clCntClr {u} (h : σ.Keeps τ) : σ.Keeps (clCntClr τ u) := .fold (fun h => h.setRn) h
theorem State.Keeps.tallyView {t} (h : σ.Keeps τ) : σ.Keeps (τ.tallyView t) := .fold (fun h => h.setRn) h
theorem State.Keeps.tallySelWrite {v} (h : σ.Keeps τ) : σ.Keeps (tallySelWrite τ v) := h.setRn.tallyView
theorem State.Keeps.tallyFind {v} (h : σ.Keeps τ) : σ.Keeps (tallyFind τ v) := h.tallyView
theorem State.Keeps.tallyRetire {v} (h : σ.Keeps τ) : σ.Keeps (tallyRetire τ v) := h.same

theorem State.Keeps.tallyUe {i} (h : σ.Keeps τ) : σ.Keeps (tallyUe τ i) := by
  simp only [Machine.tallyUe]
  split
  · exact h.setTally.ev
  · exact h

/-! ### The derricks (R255 to R270) -/

theorem State.Keeps.modDk {d f} (h : σ.Keeps τ) : σ.Keeps (τ.modDk d f) := h.same
theorem State.Keeps.dkHalt {d cause detail tag} (h : σ.Keeps τ) : σ.Keeps (τ.dkHalt d cause detail tag) := h.modDk.setRn.raise
theorem State.Keeps.dkRefuse {d item c} (h : σ.Keeps τ) : σ.Keeps (τ.dkRefuse d item c) := h.ev.dkHalt

theorem State.Keeps.dkDispatch {d op f} (h : σ.Keeps τ) (hk : ∀ x, σ.Keeps (f x)) : σ.Keeps (dkDispatch τ d op f) :=
  .ite h (h.dispatch h.ev.dkHalt (fun _ => h.dkRefuse) hk)

theorem State.Keeps.dkPlain {d op f} (h : σ.Keeps τ) (hk : ∀ x, σ.Keeps (f x)) : σ.Keeps (dkPlain τ d op f) :=
  h.dkDispatch (fun _ => .ite h.dkRefuse (hk _))

theorem State.Keeps.dkPop {d} (h : σ.Keeps τ) : σ.Keeps (τ.dkPop d) := h.modDk
theorem State.Keeps.dkNop {d} (h : σ.Keeps τ) : σ.Keeps (dkNop τ d) := h.dkPlain (fun _ => h.dkPop)
theorem State.Keeps.dkSyncWait {d} (h : σ.Keeps τ) : σ.Keeps (dkSyncWait τ d) := h.dkPlain (fun _ => .ite h.dkPop h)
theorem State.Keeps.dkSyncSignal {d} (h : σ.Keeps τ) : σ.Keeps (dkSyncSignal τ d) := h.dkPlain (fun _ => .ite h.modDk h.dkPop.addSync)

theorem State.Keeps.dkSigAdd {d} (h : σ.Keeps τ) : σ.Keeps (dkSigAdd τ d) := by
  simp only [Machine.dkSigAdd]
  split
  · exact h
  · exact h.modDk.addSync

theorem State.Keeps.dkResolve {c} (h : σ.Keeps τ) : σ.Keeps (τ.dkResolve c).1 := by
  simp only [State.dkResolve]
  split
  · exact h
  split
  · exact h
  split
  · exact h
  split
  · exact .pair h.implPin
  · exact h

theorem State.Keeps.dkStart {d op} (h : σ.Keeps τ) : σ.Keeps (dkStart τ d op) := by
  simp only [Machine.dkStart]
  refine h.dkDispatch (fun _ => ?_)
  split
  · exact h
  split
  · exact h.dkRefuse
  · exact h.dkResolve.modDk

theorem State.Keeps.dkUnpin {r} (h : σ.Keeps τ) : σ.Keeps (τ.dkUnpin r) := by
  simp only [State.dkUnpin]
  split
  · exact .ite h h.implUnpin
  · exact h

theorem State.Keeps.dkStop {d r cause detail addr} (h : σ.Keeps τ) : σ.Keeps (τ.dkStop d r cause detail addr) :=
  h.dkUnpin.modDk.setRn.dkHalt

theorem State.Keeps.dkXlate {d r kind addr} (h : σ.Keeps τ) : σ.Keeps (τ.dkXlate d r kind addr) := .dkStop (.ev (.ite h.addReg h))
theorem State.Keeps.dkPoison {d r addr} (h : σ.Keeps τ) : σ.Keeps (τ.dkPoison d r addr) := h.ev.dkStop
theorem State.Keeps.dkStale {d r addr} (h : σ.Keeps τ) : σ.Keeps (τ.dkStale d r addr) := h.ev.dkStop

theorem State.Keeps.dkPlace {d c t a write} (h : σ.Keeps τ) : σ.Keeps (τ.dkPlace d c t a write).1 := by
  simp only [State.dkPlace]
  split
  · exact .iteFst h (.iteFst (.iteFst h h) h)
  split
  · exact .pair h.xlate
  · exact .pair h.xlate

theorem State.Keeps.dkRead {d r t n a len host} (h : σ.Keeps τ) : σ.Keeps (dkRead d r t n τ a len host).1 := by
  induction n generalizing τ a len host with
  | zero => exact h
  | succ n ih =>
    unfold Machine.dkRead
    refine .iteFst h ?_
    extract_lets m p
    have hp : σ.Keeps p.1 := .iteFst h h.dkPlace
    clear_value p
    dsimp only
    split
    · exact ih hp
    · exact ih hp
    · refine ih ?_
      split
      · exact .iteFst hp (.pair hp.emit.addReg)
      · exact hp
    · refine ih ?_
      split
      · exact hp
      · exact hp

theorem State.Keeps.askLines {d job l} (h : σ.Keeps τ) : σ.Keeps (askLines d job τ l).1 := by
  induction l generalizing τ with
  | nil => exact h
  | cons x l ih =>
    simp only [Machine.askLines]
    split
    · exact ih h
    split
    · exact h
    split
    · exact ih h.modDk.peerRequest
    · exact h.modDk.peerRequest

theorem State.Keeps.dkWrite {d r n a bs} (h : σ.Keeps τ) : σ.Keeps (dkWrite d r n τ a bs).1 := by
  induction n generalizing τ a bs with
  | zero => exact h
  | succ n ih =>
    unfold Machine.dkWrite
    refine .iteFst h (.iteFst h ?_)
    dsimp only
    split
    · exact .pair h.dkPlace
    · exact ih h.dkPlace.write.addReg
    · exact .iteFst (.pair h.dkPlace) (ih h.dkPlace.emit.addReg.addReg)
    · exact .iteFst (ih (.addReg h.dkPlace.peerRequest.same)) (.pair h.dkPlace.peerRequest)

theorem State.Keeps.setRun {d r} (h : σ.Keeps τ) : σ.Keeps (τ.setRun d r) := h.modDk
theorem State.Keeps.dkReadDone {r} (h : σ.Keeps τ) : σ.Keeps (τ.dkReadDone r).1 := .iteFst h (.pair h.dkUnpin)
theorem State.Keeps.dkNext {d r} (h : σ.Keeps τ) : σ.Keeps (τ.dkNext d r) := h.setRun.modDk

theorem State.Keeps.putBytes {d r a row} (h : σ.Keeps τ) : σ.Keeps (putBytes τ d r a row) := by
  simp only [Machine.putBytes]
  split
  · exact h.dkWrite.dkXlate
  · exact .ite h.dkWrite.dkNext h.dkWrite.dkNext

theorem State.Keeps.putRow {d r row} (h : σ.Keeps τ) : σ.Keeps (putRow τ d r row) := h.putBytes

theorem State.Keeps.copyRow {d r row} (h : σ.Keeps τ) : σ.Keeps (copyRow τ d r row) :=
  .ite h.charge.dkReadDone.dkNext h.charge.dkReadDone.putRow

theorem State.Keeps.slotRow {d r row md} (h : σ.Keeps τ) : σ.Keeps (slotRow τ d r row md) :=
  .ite h.charge.dkReadDone.dkNext h.charge.dkReadDone.dkNext

theorem State.Keeps.planeWr {b n a bs} (h : σ.Keeps τ) : σ.Keeps (planeWr τ b n a bs) :=
  .ite h (.ite h.activeWrite (.wr (.ite h.setBench h)))

theorem State.Keeps.planeBegin {d c} (h : σ.Keeps τ) : σ.Keeps (planeBegin τ d c) :=
  .ite h (.ite h.activeWrite (.ite h.addReg.setBench.wr.wr.wr h.addReg.setBench.wr.wr))

theorem State.Keeps.planeRow {d r row md} (h : σ.Keeps τ) : σ.Keeps (planeRow τ d r row md) := by
  unfold Machine.planeRow
  extract_lets _ _ _ _ _ next
  have hnext : ∀ {υ}, σ.Keeps υ → σ.Keeps (next υ) := fun h => .dkNext (.dkReadDone (.ite h h.addReg))
  clear_value next
  refine .ite ?_ (.ite ?_ ?_)
  · refine hnext (.modBench (.charge (.foldFst (fun h => .pair (.planeWr (.fold (fun h => h.planeWr) h))) h)))
  · exact hnext (.planeWr (.planeWr (.fold (fun h => h.planeWr) h)))
  · exact hnext (.modBench (.charge (.ite (.fold (fun h => h.planeWr) h) h.planeWr)))

theorem State.Keeps.sourceRow {d r host} (h : σ.Keeps τ) : σ.Keeps (sourceRow τ d r host) := by
  unfold Machine.sourceRow
  extract_lets _ _ _ ask g md m
  have hask : ∀ {υ l}, σ.Keeps υ → σ.Keeps (ask υ l) := by
    intro υ l h
    have hl := h.askLines (d := d) (job := r.id) (l := l)
    unfold ask
    split
    · next e =>
      rw [e] at hl
      exact hl
    · next e =>
      rw [e] at hl
      exact hl.dkXlate
  have hg : σ.Keeps g.1 := h.dkRead
  have hm : σ.Keeps m.1 := .iteFst (.pair hg) hg.dkRead
  clear_value g m ask
  split
  · exact hm.dkXlate
  · exact hm.dkPoison
  · exact hm.dkXlate
  · exact hm.dkPoison
  · exact hask hm
  · exact hask hm
  · exact hask hm
  · exact .ite hm.copyRow (.ite hm.planeRow hm.slotRow)

theorem State.Keeps.derrickRequest {d host bad} (h : σ.Keeps τ) : σ.Keeps (derrickRequest τ d host bad) := by
  unfold Machine.derrickRequest
  refine .ite h ?_
  split
  · exact h
  extract_lets _ _ s1
  have h1 : σ.Keeps s1 := .setRun (.ite h.planeBegin h)
  refine .ite (.ite h (.ite h.dkPoison h.putBytes)) (.ite h.dkStale ?_)
  exact .ite h1 (.ite h1.dkPoison (.ite h1.putRow (.ite h1.sourceRow h1.putRow)))

theorem State.Keeps.slotWrite {d} (h : σ.Keeps τ) : σ.Keeps (slotWrite τ d) := by
  simp only [Machine.slotWrite]
  refine .ite h ?_
  split
  · exact h
  split
  · exact h
  refine .ite h (.ite h.dkNext (.addReg (.modBench ?_)))
  split
  · exact h.dkNext.wr.wr
  · exact h.dkNext.wr

theorem State.Keeps.descComplete {d} (h : σ.Keeps τ) : σ.Keeps (descComplete τ d) := by
  simp only [Machine.descComplete]
  split
  · exact h
  · exact .ite h (.ite h.modDk (.ite h.modDk h.modDk.modBench))

theorem State.Keeps.runAhead {d} (h : σ.Keeps τ) : σ.Keeps (runAhead τ d) := by
  unfold Machine.runAhead
  refine .ite h ?_
  split
  · exact h
  extract_lets _ _ _ _ s1
  have h1 : σ.Keeps s1 := by
    refine .setRun ?_
    split
    · exact h.setReg
    · exact h.dkPlace
  refine .ite h ?_
  split
  · exact h1.addReg
  · exact .ite (.ite h1.addReg h1) h1
  · exact h1

theorem State.Keeps.dkResume {d} (h : σ.Keeps τ) : σ.Keeps (dkResume τ d) := .ite h h.modDk.setFld
theorem State.Keeps.dkSkip {d} (h : σ.Keeps τ) : σ.Keeps (dkSkip τ d) := .ite h h.dkPop
theorem State.Keeps.dkCntClr {d} (h : σ.Keeps τ) : σ.Keeps (dkCntClr τ d) := .ite h (.setRn (.setRn (.fold (fun h => h.setRn) h)))

/-! ### The control cores outside their instructions (R288 to R291) -/

theorem State.Keeps.modCore {b f} (h : σ.Keeps τ) : σ.Keeps (τ.modCore b f) := h.same

theorem State.Keeps.pushTo {q c} (h : σ.Keeps τ) : σ.Keeps (τ.pushTo q c) := by
  simp only [State.pushTo]
  split
  · exact .ite h h.modBench
  · exact .ite h h.modBench
  · exact .ite h h.modBench
  · exact .ite h h.modDk
  · exact h.modUe
  · exact h.modColl

theorem State.Keeps.corePush {b qid q c} (h : σ.Keeps τ) : σ.Keeps (τ.corePush b qid q c) := h.pushTo.modCore.addReg

theorem State.Keeps.coreHalt {b cause} (h : σ.Keeps τ) : σ.Keeps (τ.coreHalt b cause) :=
  .ite h.modCore (.fold (fun h => .ite h.modCore h) h.modCore.same)

theorem State.Keeps.coreFault {b cause kind addr} (h : σ.Keeps τ) : σ.Keeps (τ.coreFault b cause kind addr) :=
  .coreHalt (.ev (.setRn (.setRn (.setRn (.ite h.addReg h)))))

theorem State.Keeps.coreBreak {b} (h : σ.Keeps τ) : σ.Keeps (τ.coreBreak b) := h.ev.coreHalt
theorem State.Keeps.gangHalt {b} (h : σ.Keeps τ) : σ.Keeps (gangHalt τ b) := .ite h.coreHalt h
theorem State.Keeps.stallCore {b why} (h : σ.Keeps τ) : σ.Keeps (τ.stallCore b why) := h.modCore
theorem State.Keeps.setL2 {h' l} (h : σ.Keeps τ) : σ.Keeps (τ.setL2 h' l) := h.same
theorem State.Keeps.writeBack {c} (h : σ.Keeps τ) : σ.Keeps (τ.writeBack c) := .ite h (.ite h.poisonLine h.write)
theorem State.Keeps.evict {b} (h : σ.Keeps τ) : σ.Keeps (τ.evict b) := .same (.modCore (.fold (fun h => h.writeBack) h.setL2))

theorem State.Keeps.l2Fill {h' c} (h : σ.Keeps τ) : σ.Keeps (τ.l2Fill h' c) := by
  simp only [State.l2Fill]
  split
  · exact h.setL2
  · exact h.draw.setL2.writeBack

theorem State.Keeps.l2Read {b line} (h : σ.Keeps τ) : σ.Keeps (τ.l2Read b line).1 := by
  simp only [State.l2Read]
  split
  · exact h
  split
  · exact h
  · exact .pair h.l2Fill

theorem State.Keeps.dRead {b a n} (h : σ.Keeps τ) : σ.Keeps (τ.dRead b a n).1 := by
  simp only [State.dRead]
  split
  · exact h
  split
  · exact h.l2Read
  · exact .pair h.l2Read.draw.modCore

theorem State.Keeps.dWrite {b a bs} (h : σ.Keeps τ) : σ.Keeps (τ.dWrite b a bs) := by
  unfold State.dWrite
  dsimp only
  split
  · exact h.write
  · exact .fold (fun h => .ite h.modCore h) h.l2Read.setL2

theorem State.Keeps.iRead {b a} (h : σ.Keeps τ) : σ.Keeps (τ.iRead b a).1 := by
  simp only [State.iRead]
  split
  · exact h
  split
  · exact h.l2Read
  · exact .pair h.l2Read.draw.modCore

theorem State.Keeps.cleanLine {b line} (h : σ.Keeps τ) : σ.Keeps (τ.cleanLine b line) := by
  simp only [State.cleanLine]
  split
  · exact h
  · exact h.writeBack.setL2

theorem State.Keeps.dropLine {b line} (h : σ.Keeps τ) : σ.Keeps (τ.dropLine b line) := h.modCore.cleanLine.setL2
theorem State.Keeps.coreXlate {b va write} (h : σ.Keeps τ) : σ.Keeps (τ.coreXlate b va write).1 := .iteFst (.pair h.addReg) h.xlate
theorem State.Keeps.endRun {ring} (h : σ.Keeps τ) : σ.Keeps (τ.endRun ring) := .fold (fun h => .ite h.modCore h) h.same

theorem State.Keeps.coreEnd {b} (h : σ.Keeps τ) : σ.Keeps (τ.coreEnd b) := by
  unfold State.coreEnd
  extract_lets _ s1
  have h1 : σ.Keeps s1 := by
    unfold s1
    split
    · exact h
    · exact h.same
  exact h1.modCore

theorem State.Keeps.ccResume {b} (h : σ.Keeps τ) : σ.Keeps (ccResume τ b) := .ite h h.setFld.modCore
theorem State.Keeps.ccStepArm {b} (h : σ.Keeps τ) : σ.Keeps (ccStepArm τ b) := .ite h h.modCore
theorem State.Keeps.ccHaltReq {b} (h : σ.Keeps τ) : σ.Keeps (ccHaltReq τ b) := .ite h (.ite h.modCore h.coreHalt)

theorem State.Keeps.ccCntClr {b} (h : σ.Keeps τ) : σ.Keeps (ccCntClr τ b) :=
  .ite h (.setRn (.fold (fun h => h.setRn) (.fold (fun h => h.setRn) h)))

theorem State.Keeps.ccSyncWrite {i v} (h : σ.Keeps τ) : σ.Keeps (ccSyncWrite τ i v) := h.setSync

/-! ### The host interface (R360 to R371) -/

theorem State.Keeps.modRing {r f} (h : σ.Keeps τ) : σ.Keeps (τ.modRing r f) := h.same
theorem State.Keeps.ringHalt {r err} (h : σ.Keeps τ) : σ.Keeps (τ.ringHalt r err) := h.modRing.setRn.ev
theorem State.Keeps.fetchMore {r} (h : σ.Keeps τ) : σ.Keeps (τ.fetchMore r) := .ite (.ite h.modRing.emit.emit h.modRing.emit) h
theorem State.Keeps.fetchAll (h : σ.Keeps τ) : σ.Keeps τ.fetchAll := .fold (fun h => h.fetchMore) h
theorem State.Keeps.hxDb {r v} (h : σ.Keeps τ) : σ.Keeps (hxDb τ r v) := .ite h.setRn.ringHalt h.setRn.fetchMore

theorem State.Keeps.ringFetch {r data} (h : σ.Keeps τ) : σ.Keeps (ringFetch τ r data) := by
  simp only [Machine.ringFetch]
  split
  · exact h
  split
  · exact h.ringHalt
  · exact h.modRing.addReg.setFld

theorem State.Keeps.ringDone {r status result} (h : σ.Keeps τ) : σ.Keeps (τ.ringDone r status result) := h.modRing

theorem State.Keeps.ringIrq {r} (h : σ.Keeps τ) : σ.Keeps (τ.ringIrq r) := by
  simp only [State.ringIrq]
  split
  · exact h
  split
  · exact .ite h.modRing h.modRing.raise
  · exact h.modRing.raise

theorem State.Keeps.ringComplete {r ok} (h : σ.Keeps τ) : σ.Keeps (ringComplete τ r ok) := by
  unfold Machine.ringComplete
  split
  · exact h
  extract_lets s0 s1 s2
  have h0 : σ.Keeps s0 := .ite h.endRun h
  have h1 : σ.Keeps s1 := h0.modRing.setFld
  have h2 : σ.Keeps s2 := .ite h1.emit h1
  split
  · exact h
  · exact .ite h1 (.ite h1.modRing.setFld.ringHalt h2.emit.addReg.setRn.ringIrq.fetchMore)

theorem State.Keeps.hxRbCfg {r v} (h : σ.Keeps τ) : σ.Keeps (hxRbCfg τ r v) :=
  .ite h.setRn.modRing (.ite h.setRn.setRn.setRn.setRn.modRing h.setRn)

theorem State.Keeps.hxCntClr (h : σ.Keeps τ) : σ.Keeps (hxCntClr τ) := .fold (fun h => h.setRn) h
theorem State.Keeps.msixModExpiry {r} (h : σ.Keeps τ) : σ.Keeps (msixModExpiry τ r) := .ite (.ite h.modRing.raise h.modRing) h
theorem State.Keeps.flushVector {v} (h : σ.Keeps τ) : σ.Keeps (τ.flushVector v) := .ite h.setRn.emit h

theorem State.Keeps.msixUnmask {v all} (h : σ.Keeps τ) : σ.Keeps (msixUnmask τ v all) :=
  .ite (.fold (fun h => h.flushVector) h.same) (.flushVector (.ite h.setRn h))

theorem State.Keeps.configRequest {op vis} (h : σ.Keeps τ) : σ.Keeps (configRequest τ op vis) := by
  simp only [Machine.configRequest]
  split
  · exact h
  split
  · exact h.emit
  split
  · exact h.emit
  · exact h.emit
  · exact h.emit
  · exact h.emit
  · exact h.emit
  · exact h.emit
  · exact h.emit
  · exact h.emit
  · exact h.emit
  · exact h.emit
  · exact h.emit
  · exact h.emit
  · exact h.emit
  · exact h.emit
  · exact h.emit
  · exact .emit (.fetchAll (h.same))
  · exact .emit (h.same)
  · exact .ite (.emit (h.same)) h.emit
  · exact .fold (fun h => h.flushVector) (.emit (h.same))
  · exact .emit (.fetchAll (h.same))
  · exact .emit (h.same)
  · exact .emit (h.same)
  · exact .emit (h.same)

theorem State.Keeps.hostLinkUp {speed width} (h : σ.Keeps τ) : σ.Keeps (hostLinkUp τ speed width) := .ite (.setRn (h.same)) h
theorem State.Keeps.resetHx (h : σ.Keeps τ) : σ.Keeps τ.resetHx := h.resetRegs
theorem State.Keeps.stopRings (h : σ.Keeps τ) : σ.Keeps τ.stopRings := h.same
theorem State.Keeps.resetPci {up} (h : σ.Keeps τ) : σ.Keeps (τ.resetPci up) := h.same
theorem State.Keeps.functionReset (h : σ.Keeps τ) : σ.Keeps (functionReset τ) := h.stopRings.resetHx.resetPci.ev
theorem State.Keeps.perstN (h : σ.Keeps τ) : σ.Keeps (perstN τ) := h.stopRings.resetHx.resetPci

/-! ### Ring commands and modules (R279, R280, R295 to R299) -/

theorem State.Keeps.vaPieces {ctx write n va off len} (h : σ.Keeps τ) : σ.Keeps (vaPieces ctx write n τ va off len).1 := by
  induction n generalizing τ va off len with
  | zero => exact h
  | succ n ih =>
    simp only [Machine.vaPieces]
    split
    · exact h
    split
    · exact h
    split
    · exact h.xlate
    · exact ih h.xlate

theorem State.Keeps.pieces {ctx va n write} (h : σ.Keeps τ) : σ.Keeps (τ.pieces ctx va n write).1 := h.vaPieces

theorem State.Keeps.pieceBytes {r host p} (h : σ.Keeps τ) : σ.Keeps (τ.pieceBytes r host p).1 := by
  simp only [State.pieceBytes]
  split
  · exact h
  · exact .iteFst (.pair h.emit.addReg) h
  · exact h

theorem State.Keeps.piecesBytes {r host ps} (h : σ.Keeps τ) : σ.Keeps (τ.piecesBytes r host ps).1 := by
  refine .foldFst (fun h => ?_) h
  split
  · exact h
  · exact h.pieceBytes

theorem State.Keeps.loadRead {r ctx va n host} (h : σ.Keeps τ) : σ.Keeps (τ.loadRead r ctx va n host).1 := by
  simp only [State.loadRead]
  split
  · exact .pair h.pieces
  · exact .iteFst (.pair h.pieces) (.iteFst (.pair h.pieces) (.iteFst (.pair h.pieces.piecesBytes) (.pair (.foldFst (fun h => .iteFst h.peerRequest h) h.pieces))))

theorem State.Keeps.purge {line} (h : σ.Keeps τ) : σ.Keeps (τ.purge line) := .same (.fold (fun h => h.setL2) h)

theorem State.Keeps.flush {line} (h : σ.Keeps τ) : σ.Keeps (τ.flush line) := by
  simp only [State.flush]
  refine .fold (fun h => ?_) h
  split
  · exact h.writeBack
  · exact h

theorem State.Keeps.piecePut {r ctx p bs} (h : σ.Keeps τ) : σ.Keeps (τ.piecePut r ctx p bs).1 := by
  simp only [State.piecePut]
  split
  · exact .pair (.fold (fun h => h.purge) (.write (.fold (fun h => h.flush) h)))
  · exact .iteFst (.pair h.emit.addReg) h
  · exact .foldFst (fun h => .iteFst h (.pair h.peerRequest.same)) h

theorem State.Keeps.loadWrite {r ctx ws} (h : σ.Keeps τ) : σ.Keeps (τ.loadWrite r ctx ws).1 := by
  unfold State.loadWrite
  extract_lets q
  have hq : σ.Keeps q.1 := by
    refine .foldFst (fun h => ?_) h
    split
    · exact h
    · exact .pair h.pieces
  clear_value q
  split
  · exact .pair hq
  · exact .foldFst (fun h => .iteFst h.piecePut h) hq

theorem State.Keeps.loadEnd {r} (h : σ.Keeps τ) : σ.Keeps (τ.loadEnd r) := .modRing (h.same)
theorem State.Keeps.loadRefuse {r status k o} (h : σ.Keeps τ) : σ.Keeps (τ.loadRefuse r status k o) := h.loadEnd.ev.ringDone
theorem State.Keeps.loadStart {r mask} (h : σ.Keeps τ) : σ.Keeps (τ.loadStart r mask) := .fold (fun h => h.modCore) h

theorem State.Keeps.bindEarly {ctx keepVa i} (h : σ.Keeps τ) : σ.Keeps (τ.bindEarly ctx keepVa i).1 := by
  simp only [State.bindEarly]
  split
  · exact .iteFst (.pair h.pieces) (.pair h.pieces)
  · exact .pair h.pieces

theorem State.Keeps.bindCmd {ctx qid c binds} (h : σ.Keeps τ) : σ.Keeps (τ.bindCmd ctx qid c binds).1 := by
  refine .foldFst (fun h => ?_) h
  split
  · exact h
  · exact h.bindEarly

theorem State.Keeps.bindStep {ctx st} (h : σ.Keeps τ) : σ.Keeps (τ.bindStep ctx st).1 := by
  simp only [State.bindStep]
  split
  · split
    · exact .pair h.bindCmd
    · exact .pair h.bindCmd
    · exact .pair h.bindCmd.bindCmd
  · exact h

theorem State.Keeps.bindOps {ctx ops} (h : σ.Keeps τ) : σ.Keeps (τ.bindOps ctx ops).1 := by
  refine .foldFst (fun h => ?_) h
  split
  · exact h
  · refine .foldFst (fun h => ?_) h
    split
    · exact h
    · exact h.bindStep

theorem State.Keeps.loadPlace {r c m hd sb t} (h : σ.Keeps τ) : ∀ {υ}, τ.loadPlace r c m hd sb t = some υ → σ.Keeps υ := by
  intro υ
  simp only [State.loadPlace]
  split
  · split
    · rintro ⟨⟩
    split
    · rintro ⟨⟩
      exact h.bindOps.loadRefuse
    split
    · rintro ⟨⟩
    split
    · rintro ⟨⟩
      exact h.bindOps.loadWrite.loadRefuse
    · rintro ⟨⟩
      have hs : ∀ {υ} {l : List Nat}, σ.Keeps υ → σ.Keeps (l.foldl (fun u i => u.setSync (sb + i) 0) υ) := fun h => .fold (fun h => h.setSync) h
      exact .ite (.modRing (.ev (hs h.bindOps.loadWrite.same))) (.ringDone (.loadEnd (.ev (hs h.bindOps.loadWrite.same))))
  · rintro ⟨⟩

theorem State.Keeps.loadCheck {r c m t} (h : σ.Keeps τ) : ∀ {υ}, τ.loadCheck r c m t = some υ → σ.Keeps υ := by
  intro υ
  simp only [State.loadCheck]
  have refuse : ∀ {st k o}, some (τ.loadRefuse r st k o) = some υ → σ.Keeps υ := by
    rintro st k o ⟨⟩
    exact h.loadRefuse
  split
  · exact refuse
  split
  · exact refuse
  split
  · exact refuse
  split
  · exact refuse
  split
  · split
    · exact refuse
    · exact refuse
    · exact h.loadPlace
  · exact refuse

theorem State.Keeps.load {r t host} (h : σ.Keeps τ) : σ.Keeps (load τ r t host) := by
  unfold Machine.load
  split
  · exact h
  extract_lets _ _ s0 g
  have hg : σ.Keeps g.1 := .loadRead (.ite h h.loadStart)
  split
  · exact .ite h (.ite (.loadRefuse h.same) h.loadEnd.ringDone)
  refine .ite h.loadRefuse (.ite h ?_)
  split
  · exact hg
  · exact hg.loadRefuse
  next m _ =>
    cases hc : g.1.loadCheck r _ m t with
    | none => exact h
    | some υ => exact hg.loadCheck hc

theorem State.Keeps.run {r} (h : σ.Keeps τ) : σ.Keeps (run τ r) := by
  simp only [Machine.run]
  split
  · exact h
  split
  · exact h.ringDone
  split
  · exact h.ringDone
  · exact .ite h.ringDone (.ite h (.modRing (.fold (fun h => .fold (fun h => h.corePush) h.modCore) h.same)))

theorem State.Keeps.unload {r} (h : σ.Keeps τ) : σ.Keeps (unload τ r) := by
  simp only [Machine.unload]
  split
  · exact h
  · exact .ite h.ringDone (.ringDone (h.same))

theorem State.Keeps.ctxCmd {r} (h : σ.Keeps τ) : σ.Keeps (ctxCmd τ r) := by
  simp only [Machine.ctxCmd]
  split
  · exact h
  · exact .ringDone (h.same)

theorem State.Keeps.ringWait {r} (h : σ.Keeps τ) : σ.Keeps (ringWait τ r) := by
  simp only [Machine.ringWait]
  split
  · exact h
  · exact .ite h.ringDone h

theorem State.Keeps.ringSignal {r} (h : σ.Keeps τ) : σ.Keeps (ringSignal τ r) := by
  simp only [Machine.ringSignal]
  split
  · exact h
  · exact h.addSync.ringDone

/-! ### The dresser (R116 to R135) -/

theorem State.Keeps.drainBad {b t d item} (h : σ.Keeps τ) : σ.Keeps (τ.drainBad b t d item) :=
  .ite h.ev.modBench (.ite h.ev.modBench.modBench h.ev.modBench.modBench.benchHalt)

theorem State.Keeps.drainArrive {b} (h : σ.Keeps τ) : σ.Keeps (drainArrive τ b) := by
  simp only [Machine.drainArrive]
  split
  · exact h
  split
  · exact h
  split
  · exact h.drainBad
  split
  · exact h.drainBad
  · exact h.modBench

theorem State.Keeps.drainVals {t r n} (h : σ.Keeps τ) : σ.Keeps (drainVals τ t r n).2.1 := by
  unfold Machine.drainVals
  split
  · exact h
  split
  · exact h.wrAdd
  · exact h

theorem State.Keeps.dressRow {b t d cs bi r} (h : σ.Keeps τ) : σ.Keeps (dressRow τ b t d cs bi r) := by
  unfold Machine.dressRow
  extract_lets n
  have hd := h.drainVals (t := t) (r := r) (n := n)
  split
  next vs s1 ovf poi e =>
    have h1 : σ.Keeps s1 := by
      rw [e] at hd
      exact hd
    extract_lets zOf ds auxs ws0 qr ws c1 c2 s2
    have h2 : σ.Keeps s2 := .ite h1.write h1
    split
    next scales els _ =>
      extract_lets c3 cn sat t1 t2 s3 s4 s5 s6 s7 s8 s9 s10
      have h3 : σ.Keeps s3 := h2.write
      have h5 : σ.Keeps s5 := .ite (.write (.ite h3.write h3)) (.ite h3.write h3)
      have h6 : σ.Keeps s6 := .ite h5.ev h5
      have h7 : σ.Keeps s7 := .ite h6.ev h6
      have h8 : σ.Keeps s8 := .ite h7.ev h7
      have h9 : σ.Keeps s9 := h8.charge.addReg.addReg
      have h10 : σ.Keeps s10 := .ite h9.ev.addReg h9
      exact h10.modBench

theorem State.Keeps.dresserRow {b} (h : σ.Keeps τ) : σ.Keeps (dresserRow τ b) := by
  simp only [Machine.dresserRow]
  split
  · exact h
  split
  · exact h
  split
  · exact h.setBench
  split
  · exact h
  · exact h.modBench
  · exact h.dressRow

theorem State.Keeps.tileStatus {b} (h : σ.Keeps τ) : σ.Keeps (tileStatus τ b) := by
  simp only [Machine.tileStatus]
  split
  · exact h
  split
  · exact h
  · exact h.write.modBench.addReg

theorem State.Keeps.drTableWrite {b p off v} (h : σ.Keeps τ) : σ.Keeps (drTableWrite τ b p off v) := .ite h (.ite h.ev h.setFld)
theorem State.Keeps.drCntClr {b} (h : σ.Keeps τ) : σ.Keeps (drCntClr τ b) := .ite h h.setRn.setRn.setRn

/-! ### The step commit (R224 to R233, R355, R396) -/

theorem State.Keeps.modCm {f} (h : σ.Keeps τ) : σ.Keeps (τ.modCm f) := h.same
theorem State.Keeps.cmSend {dst typ step value} (h : σ.Keeps τ) : σ.Keeps (τ.cmSend dst typ step value) := h.sendCommit
theorem State.Keeps.cmSendAll {typ step} (h : σ.Keeps τ) : σ.Keeps (τ.cmSendAll typ step) := .fold (fun h => h.cmSend) h

theorem State.Keeps.cmTake {typ f} (h : σ.Keeps τ) (hk : ∀ {υ x}, σ.Keeps υ → σ.Keeps (f υ x)) : σ.Keeps (τ.cmTake typ f) := by
  simp only [State.cmTake]
  split
  · exact h
  · exact .ite (hk h.same) h.same

theorem State.Keeps.cmDecide {d} (h : σ.Keeps τ) : σ.Keeps (τ.cmDecide d) := .ite h h.modCm
theorem State.Keeps.cmEvaluate (h : σ.Keeps τ) : σ.Keeps τ.cmEvaluate := .ite h (.ite h.cmDecide (.ite h.cmDecide (.ite h.cmDecide h)))

theorem State.Keeps.cmConclude (h : σ.Keeps τ) : σ.Keeps τ.cmConclude := by
  unfold State.cmConclude
  split
  · exact h
  extract_lets _ _ _ _ _ s1
  have h1 : σ.Keeps s1 := h.modCm.ev
  exact .ite h (.ite h1.cmSendAll (.ite h1.ev.cmSendAll h1.cmDecide))

theorem State.Keeps.cmEpoch {old} (h : σ.Keeps τ) : σ.Keeps (τ.cmEpoch old) := .ite h.modCm (.ite h.modCm h.cmEvaluate.cmConclude)
theorem State.Keeps.commitTakeover (h : σ.Keeps τ) : σ.Keeps (commitTakeover τ) := .ite h.modCm.cmSendAll.cmConclude h.modCm
theorem State.Keeps.prepRefuse {step item} (h : σ.Keeps τ) : σ.Keeps (τ.prepRefuse step item) := h.ev

theorem State.Keeps.prepareRequest {v} (h : σ.Keeps τ) : σ.Keeps (prepareRequest τ v) := by
  simp only [Machine.prepareRequest]
  split
  · exact h.draw.prepRefuse
  split
  · exact h.prepRefuse
  split
  · exact h.prepRefuse
  split
  · exact h.prepRefuse
  split
  · exact h.prepRefuse
  split
  · exact h.prepRefuse
  · exact .ite h.prepRefuse h.setRn.setRn.setRn.modCm.cmEvaluate

theorem State.Keeps.tallyVerdict {t agree} (h : σ.Keeps τ) : σ.Keeps (τ.tallyVerdict t agree) := .modCm (.fold (fun h => h.collSend) h)

theorem State.Keeps.tallySum {t} (h : σ.Keeps τ) : σ.Keeps (τ.tallySum t) := by
  simp only [State.tallySum]
  split
  · exact .modCm (.fold (fun h => h.collSend) h)
  split
  · exact h.tallyVerdict
  split
  · exact h.ev.tallyVerdict
  · exact h.draw.ev.tallyVerdict

theorem State.Keeps.tallyFlitIn {t f} (h : σ.Keeps τ) : σ.Keeps (τ.tallyFlitIn t f) := by
  simp only [State.tallyFlitIn]
  split
  · exact .ite h.tallyVerdict h
  · exact .ite (.ite h.collCount h.collCount.ev.modCm) (.ite h (.ite h.tallySum h.modCm))

theorem State.Keeps.tallyFlit {f} (h : σ.Keeps τ) : σ.Keeps (tallyFlit τ f) := by
  simp only [Machine.tallyFlit]
  split
  · exact .ite h.tallyFlitIn (.ite h.collCount h.same)
  · exact .ite h.collCount h.same

theorem State.Keeps.tallyStart (h : σ.Keeps τ) : σ.Keeps (tallyStart τ) :=
  .ite h (.fold (fun h => h.tallyFlit) (.ite (.tallySum (.modCm (h.same))) (.modCm (h.same))))

theorem State.Keeps.tallyExpiry (h : σ.Keeps τ) : σ.Keeps (tallyExpiry τ) := by
  simp only [Machine.tallyExpiry]
  split
  · exact .ite h h.tallySum
  · exact h

theorem State.Keeps.sendVote (h : σ.Keeps τ) : σ.Keeps τ.sendVote := by
  simp only [State.sendVote]
  split
  · exact .ite h h.cmSend
  · exact h

theorem State.Keeps.voteSend (h : σ.Keeps τ) : σ.Keeps (voteSend τ) := by
  simp only [Machine.voteSend]
  split
  · exact h
  split
  · exact h.setRn.modCm.ev.sendVote.cmEvaluate
  · exact h

theorem State.Keeps.voteRepeat (h : σ.Keeps τ) : σ.Keeps (voteRepeat τ) := .ite h.sendVote h

theorem State.Keeps.cmVote (h : σ.Keeps τ) : σ.Keeps (cmVote τ) := by
  simp only [Machine.cmVote]
  refine h.cmTake (fun h => ?_)
  split
  · exact h
  split
  · exact h.cmSend
  · exact .ite h h.modCm.cmEvaluate

theorem State.Keeps.ptimeoutExpiry (h : σ.Keeps τ) : σ.Keeps (ptimeoutExpiry τ) := .ite h.cmDecide h
theorem State.Keeps.cmSeen {e} (h : σ.Keeps τ) : σ.Keeps (τ.cmSeen e) := h.setRn
theorem State.Keeps.logStale {m} (h : σ.Keeps τ) : σ.Keeps (τ.logStale m) := h.ev

theorem State.Keeps.cmCommit (h : σ.Keeps τ) : σ.Keeps (cmCommit τ) :=
  h.cmTake (fun h => .ite h.logStale (.ite h (.ite h.cmSeen.cmDecide h.ev)))

theorem State.Keeps.cmDiscard (h : σ.Keeps τ) : σ.Keeps (cmDiscard τ) := h.cmTake (fun h => .ite h.logStale (.ite h h.cmSeen.cmDecide))

theorem State.Keeps.cmOutrun {e} (h : σ.Keeps τ) : σ.Keeps (τ.cmOutrun e) := by
  simp only [State.cmOutrun]
  split
  · exact h
  · exact .ite h.modCm.logStale h

theorem State.Keeps.cmQuery (h : σ.Keeps τ) : σ.Keeps (cmQuery τ) := h.cmTake (fun h => h.cmOutrun.cmSeen.modCm.cmSend)

theorem State.Keeps.cmStateMsg (h : σ.Keeps τ) : σ.Keeps (cmStateMsg τ) := by
  simp only [Machine.cmStateMsg]
  refine h.cmTake (fun h => ?_)
  split
  · exact h.modCm.cmConclude
  · exact h

theorem State.Keeps.decisionApply (h : σ.Keeps τ) : σ.Keeps (decisionApply τ) := by
  unfold Machine.decisionApply
  split
  · exact h
  extract_lets _ _ s2 _ s3 _ _ s5
  have h2 : σ.Keeps s2 := .fold (fun h => h.modUe) h.decideTables.retireClaims.tallyRetire
  have h3 : σ.Keeps s3 := h2.setRn.setRn.setRn.setRn
  have h5 : σ.Keeps s5 := .ite h3.modCm.ev h3.modCm.ev
  exact .cmConclude (.ite h5.cmSendAll h5)

theorem State.Keeps.cmRestart (h : σ.Keeps τ) : σ.Keeps τ.cmRestart := h.modCm

/-! ### The receive side of the ports (R308 to R322) -/

theorem State.Keeps.rxLink {p w} (h : σ.Keeps τ) : σ.Keeps (τ.rxLink p w) := h.modPort.portCount.pump
theorem State.Keeps.sendNak {p} (h : σ.Keeps τ) : σ.Keeps (τ.sendNak p) := h.modPort.send

theorem State.Keeps.stompOut {p w} (h : σ.Keeps τ) : σ.Keeps (τ.stompOut p w) := by
  simp only [State.stompOut]
  split
  · exact h
  split
  · exact h
  split
  · exact .ite h.draw.emit.portCount h.draw
  · exact h

theorem State.Keeps.crcBad {p w} (h : σ.Keeps τ) : σ.Keeps (τ.crcBad p w) := h.stompOut.portCount.sendNak

theorem State.Keeps.receive {p w f} (h : σ.Keeps τ) (hk : ∀ {υ}, σ.Keeps υ → σ.Keeps (f υ)) : σ.Keeps (τ.receive p w f) :=
  .ite (hk h.decode) h.decode.crcBad

theorem State.Keeps.idleFlit {p w} (h : σ.Keeps τ) : σ.Keeps (idleFlit τ p w) := .ite (h.receive (fun h => h.rxLink)) h
theorem State.Keeps.quarantine {p cause} (h : σ.Keeps τ) : σ.Keeps (τ.quarantine p cause) := h.modPort.portTo

theorem State.Keeps.sendE2eAck {src} (h : σ.Keeps τ) : σ.Keeps (τ.sendE2eAck src) := by
  unfold State.sendE2eAck
  extract_lets s1
  have h1 : σ.Keeps s1 := h.same
  split
  · exact h
  · exact h1.inject

theorem State.Keeps.e2eReceive {src pseq} (h : σ.Keeps τ) : σ.Keeps (τ.e2eReceive src pseq).1 := .pair (.ite (.sendE2eAck (h.same)) h.same)

theorem State.Keeps.e2eAckTimer {src} (h : σ.Keeps τ) : σ.Keeps (e2eAckTimer τ src) := by
  simp only [Machine.e2eAckTimer]
  split
  · exact .ite h h.sendE2eAck
  · exact h

theorem State.Keeps.acceptData {p w f} (h : σ.Keeps τ) : σ.Keeps (τ.acceptData p w f) := by
  simp only [State.acceptData]
  split
  · exact h.routeCount.ev.quarantine
  split
  · exact h.modPort.freeBuf
  split
  · exact h.modPort.routeCount.ev.freeBuf
  split
  · exact .ite (.ite h.modPort.freeBuf.e2eReceive.same h.modPort.freeBuf.e2eReceive) h.modPort.freeBuf.same
  · exact h.modPort.relay

theorem State.Keeps.acceptSpoiled {p w f} (h : σ.Keeps τ) : σ.Keeps (τ.acceptSpoiled p w f) :=
  .ite h.acceptData (.ite h.acceptData h.modPort.freeBuf.portCount)

theorem State.Keeps.dataFlit {p w a} (h : σ.Keeps τ) : σ.Keeps (dataFlit τ p w a) := by
  unfold Machine.dataFlit
  split
  · exact h
  refine h.receive (fun h => ?_)
  extract_lets _ s2
  have h2 : σ.Keeps s2 := .ite h.rxLink.stompOut h.rxLink
  split
  · exact h.portCount
  · exact h.crcBad
  split
  · exact .ite (.ite h.rxLink h.rxLink.sendNak) (.ite h2.modPort.acceptSpoiled h2.modPort.acceptData)
  · exact h

theorem State.Keeps.escapeExpiry {p vc} (h : σ.Keeps τ) : σ.Keeps (escapeExpiry τ p vc) := by
  simp only [Machine.escapeExpiry]
  split
  · exact h
  split
  · exact h
  split
  · exact .ite h h.modPort.routeCount.freeBuf
  split
  · exact h
  split
  · exact .ite h.modPort.unreachable.freeBuf.inject h.modPort.unreachable.freeBuf
  split
  · exact h.modPort.routeCount.enqueue
  · exact h

theorem State.Keeps.retrain {p} (h : σ.Keeps τ) : σ.Keeps (τ.retrain p) := .ite h.modPort.portTo h

theorem State.Keeps.replayFrom {p lseq} (h : σ.Keeps τ) : σ.Keeps (τ.replayFrom p lseq) := by
  simp only [State.replayFrom]
  split
  · exact h
  · exact .ite (.retrain (.fold (fun h => h.send) h.modPort.portCount)) (.fold (fun h => h.send) h.modPort.portCount)

theorem State.Keeps.nakFlit {p w} (h : σ.Keeps τ) : σ.Keeps (nakFlit τ p w) :=
  .ite h (.ite h.modPort (.ite (h.receive (fun h => h.rxLink.replayFrom)) h))

theorem State.Keeps.heartbeatTimer {p} (h : σ.Keeps τ) : σ.Keeps (heartbeatTimer τ p) := .ite h.send h
theorem State.Keeps.tryAdmit {p} (h : σ.Keeps τ) : σ.Keeps (τ.tryAdmit p) := .ite h.modPort.portTo.pump h

theorem State.Keeps.admitFlit {p w} (h : σ.Keeps τ) : σ.Keeps (admitFlit τ p w) :=
  .ite (h.receive (fun h => .ite h.rxLink.modPort.tryAdmit h.rxLink)) h

theorem State.Keeps.revokeFlit {p w} (h : σ.Keeps τ) : σ.Keeps (revokeFlit τ p w) := .ite (h.receive (fun h => h.rxLink.quarantine)) h
theorem State.Keeps.revoke {p} (h : σ.Keeps τ) : σ.Keeps (τ.revoke p) := h.send.quarantine
theorem State.Keeps.grant {p} (h : σ.Keeps τ) : σ.Keeps (τ.grant p) := h.send.modPort.tryAdmit
theorem State.Keeps.lkAdmit {p v} (h : σ.Keeps τ) : σ.Keeps (lkAdmit τ p v) := .ite h (.ite (.ite h.revoke h.grant) (.ite h.modPort h))
theorem State.Keeps.sendLater {p} (h : σ.Keeps τ) : σ.Keeps (τ.sendLater p) := .fold (fun h => .ite h.grant h.send) h.modPort
theorem State.Keeps.tryClear {p} (h : σ.Keeps τ) : σ.Keeps (τ.tryClear p) := .ite h.modPort.ev.lkAdmit h
theorem State.Keeps.sendDigest {p} (h : σ.Keeps τ) : σ.Keeps (τ.sendDigest p) := h.modPort.memSendPort

theorem State.Keeps.heartbeatFlit {p w} (h : σ.Keeps τ) : σ.Keeps (heartbeatFlit τ p w) := by
  unfold Machine.heartbeatFlit
  split
  · exact h
  refine h.receive (fun h => ?_)
  extract_lets _ s1
  have h1 : σ.Keeps s1 := h.rxLink.modPort.setRn.setRn
  exact .ite (.ite h1.send.quarantine.ev.sendDigest (.ite h1.revoke h1)) h1.tryClear

theorem State.Keeps.portDown {p} (h : σ.Keeps τ) : σ.Keeps (τ.portDown p) := h.portTo.modPort.setRn.setRn
theorem State.Keeps.lkEnable {p v} (h : σ.Keeps τ) : σ.Keeps (lkEnable τ p v) := .ite h.setFld.portTo h.setFld
theorem State.Keeps.trainComplete {p lanes} (h : σ.Keeps τ) : σ.Keeps (trainComplete τ p lanes) := .ite h.draw.modPort.portTo.emit h
theorem State.Keeps.trainTimeout {p} (h : σ.Keeps τ) : σ.Keeps (trainTimeout τ p) := .ite h.portTo h
theorem State.Keeps.trainRetry {p} (h : σ.Keeps τ) : σ.Keeps (trainRetry τ p) := .ite h.portTo h

theorem State.Keeps.identFrame {p dev port nonce} (h : σ.Keeps τ) : σ.Keeps (identFrame τ p dev port nonce) :=
  .ite h (.ite h.setRn.setRn.modPort.portTo h.setRn.setRn.ev)

theorem State.Keeps.laneError {p lock ser} (h : σ.Keeps τ) : σ.Keeps (laneError τ p lock ser) := .ite h.modPort.retrain h

theorem State.Keeps.retrainComplete {p lanes} (h : σ.Keeps τ) : σ.Keeps (retrainComplete τ p lanes) := by
  unfold Machine.retrainComplete
  extract_lets _ _ _ _ s3 s4
  have h3 : σ.Keeps s3 := .ite h.modPort.portTo.ev h.modPort.portTo
  have h4 : σ.Keeps s4 := by
    unfold s4
    split
    · exact h3.replayFrom
    · exact h3
  exact .ite h h4.sendLater.pump

theorem State.Keeps.retrainTimeout {p} (h : σ.Keeps τ) : σ.Keeps (retrainTimeout τ p) := .ite h.portDown h
theorem State.Keeps.lkRetrain {p} (h : σ.Keeps τ) : σ.Keeps (lkRetrain τ p) := .ite h.modPort.retrain h

theorem State.Keeps.lkCntClr {p} (h : σ.Keeps τ) : σ.Keeps (lkCntClr τ p) :=
  .ite (.fold (fun h => h.setRn) (.fold (fun h => h.setRn) h)) (.fold (fun h => h.setRn) h)

theorem State.Keeps.takeFlit {typ f} (h : σ.Keeps τ) (hk : ∀ {υ x}, σ.Keeps υ → σ.Keeps (f υ x)) : σ.Keeps (τ.takeFlit typ f) := by
  simp only [State.takeFlit]
  split
  · exact h
  · exact hk h.same

theorem State.Keeps.answer {f typ payload} (h : σ.Keeps τ) : σ.Keeps (τ.answer f typ payload) := h.inject

theorem State.Keeps.readReq (h : σ.Keeps τ) : σ.Keeps (readReq τ) := by
  simp only [Machine.readReq]
  refine h.takeFlit (fun h => ?_)
  split
  · exact h.answer
  split
  · exact h.answer
  · exact h.answer

theorem State.Keeps.writeReq (h : σ.Keeps τ) : σ.Keeps (writeReq τ) := by
  simp only [Machine.writeReq]
  refine h.takeFlit (fun h => ?_)
  split
  · exact h.answer
  · exact h.write.answer

theorem State.Keeps.txnRefused {t} (h : σ.Keeps τ) : σ.Keeps (τ.txnRefused t) := by
  simp only [State.txnRefused]
  split
  · exact .modCore (h.same)
  · exact .modRing (h.same)
  split
  · exact .dkXlate (h.same)
  · exact h.same

theorem State.Keeps.readRsp (h : σ.Keeps τ) : σ.Keeps (readRsp τ) := by
  simp only [Machine.readRsp]
  refine h.takeFlit (fun h => ?_)
  split
  · exact h
  split
  · exact .modCore (h.same)
  · exact .modRing (h.same)
  split
  · exact .ite (.dkPoison (h.same)) (.setRun (h.same))
  · exact h.same

theorem State.Keeps.writeAck (h : σ.Keeps τ) : σ.Keeps (writeAck τ) := by
  simp only [Machine.writeAck]
  refine h.takeFlit (fun h => ?_)
  split
  · exact h
  split
  · exact .modCore (h.same)
  · exact h.same

theorem State.Keeps.refuseFlit (h : σ.Keeps τ) : σ.Keeps (refuseFlit τ) := by
  simp only [Machine.refuseFlit]
  refine h.takeFlit (fun h => ?_)
  split
  · exact h
  · exact h.txnRefused

theorem State.Keeps.rspTimeout {i} (h : σ.Keeps τ) : σ.Keeps (rspTimeout τ i) := by
  simp only [Machine.rspTimeout]
  split
  · exact h
  · exact h.txnRefused

theorem State.Keeps.collFlitIn (h : σ.Keeps τ) : σ.Keeps (collFlitIn τ) := h.takeFlit (fun h => .ite h.tallyFlit h.collFlit)
theorem State.Keeps.e2eAck (h : σ.Keeps τ) : σ.Keeps (e2eAck τ) := h.takeFlit (fun h => h.setE2e.e2ePump)

theorem State.Keeps.e2eTimeout {dst pseq} (h : σ.Keeps τ) : σ.Keeps (e2eTimeout τ dst pseq) := by
  unfold Machine.e2eTimeout
  extract_lets _ s1
  have h1 : σ.Keeps s1 := h.setE2e.routeCount.ev
  split
  · exact h
  extract_lets s2
  have h2 : σ.Keeps s2 := by
    unfold s2
    split
    · exact h1.txnRefused
    · exact h1
  exact .ite h2.e2ePump (.ite h.setE2e.noRoute.e2ePump h.setE2e.routeCount.place)

/-! ### Faults, fences and the bridge (R421 to R436) -/

theorem State.Keeps.dkDrop {d} (h : σ.Keeps τ) : σ.Keeps (τ.dkDrop d) := .same (.modDk (.fold (fun h => h.dkUnpin) h))

theorem State.Keeps.fence {b cause site} (h : σ.Keeps τ) : σ.Keeps (τ.fence b cause site) := by
  simp only [State.fence]
  split
  · exact .ite h.modBench h
  · exact .coreHalt (.dkDrop (.dkDrop (.same (.modBench (.fold (fun h => h.poisonTile) h)))))

theorem State.Keeps.residueMismatch {b tag pass row col site} (h : σ.Keeps τ) : σ.Keeps (residueMismatch τ b tag pass row col site) :=
  h.fence

theorem State.Keeps.benchError {b structure' e} (h : σ.Keeps τ) : σ.Keeps (benchError τ b structure' e) := by
  simp only [Machine.benchError]
  split
  · exact h.fence
  · exact h.fence
  split
  · exact .ite h h.ev.modBench
  · exact h.ev.modBench

theorem State.Keeps.fenceShown {b} (h : σ.Keeps τ) : σ.Keeps (τ.fenceShown b) := h.modBench.modDk.modDk
theorem State.Keeps.cutBench {b} (h : σ.Keeps τ) : σ.Keeps (τ.cutBench b) := h.setFld.modBench

theorem State.Keeps.fenceComplete {b} (h : σ.Keeps τ) : σ.Keeps (fenceComplete τ b) := by
  unfold Machine.fenceComplete
  split
  · exact h
  extract_lets _ s2 s3
  have h2 : σ.Keeps s2 := .ite h.fenceShown.ev h.fenceShown
  have h3 : σ.Keeps s3 := h2.ev.raise
  exact .ite h (.ite h3.cutBench h3)

theorem State.Keeps.bridgeFlit {dir addr fails write who} (h : σ.Keeps τ) : σ.Keeps (bridgeFlit τ dir addr fails write who) := by
  unfold Machine.bridgeFlit
  extract_lets _ s1
  have h1 : σ.Keeps s1 := .ev (h.same)
  split
  · exact h
  split
  · exact h.same
  split
  · exact h1.emit
  split
  · split
    · exact h1.emit.dkPoison
    · exact h1.emit
  · exact .ite h1.emit.coreFault h1.emit
  · exact h1.emit.modRing
  · exact h1.emit.spoil

theorem State.Keeps.bridgeRetry (h : σ.Keeps τ) : σ.Keeps (bridgeRetry τ) := .ite h h.ev.same
theorem State.Keeps.bridgeRetrained (h : σ.Keeps τ) : σ.Keeps (bridgeRetrained τ) := h.same

/-! ### Access codes and the firmware images -/

theorem State.Keeps.accessWrite {a be v} (h : σ.Keeps τ) : σ.Keeps (τ.accessWrite a be v) := by
  simp only [State.accessWrite]
  split
  · exact h
  · exact h.setRn

theorem State.Keeps.setClamp {w source} (h : σ.Keeps τ) : σ.Keeps (τ.setClamp w source) := .ite h h.setRn.ev
theorem State.Keeps.pwClampWrite {v} (h : σ.Keeps τ) : σ.Keeps (pwClampWrite τ v) := h.setClamp
theorem State.Keeps.pwThermWrite {stack v} (h : σ.Keeps τ) : σ.Keeps (pwThermWrite τ stack v) := h.setRn

theorem State.Keeps.applyEntry {e} (h : σ.Keeps τ) : σ.Keeps (τ.applyEntry e) := by
  simp only [State.applyEntry]
  split
  · exact h.pwThermWrite
  split
  · exact h.pwThermWrite
  split
  · exact h.vtCfgWrite
  · exact h.accessWrite

theorem State.Keeps.applyImage {b} (h : σ.Keeps τ) : σ.Keeps (τ.applyImage b) := .fold (fun h => h.applyEntry) h.setRn

/-! ### Membership and epochs (R322 to R329) -/

theorem State.Keeps.modMb {f} (h : σ.Keeps τ) : σ.Keeps (τ.modMb f) := h.same
theorem State.Keeps.memSendAll {l m} (h : σ.Keeps τ) : σ.Keeps (τ.memSendAll l m) := .fold (fun h => h.memSend) h
theorem State.Keeps.release {kind status res} (h : σ.Keeps τ) : σ.Keeps (τ.release kind status res) := h.same
theorem State.Keeps.setBoot {r} (h : σ.Keeps τ) : σ.Keeps (τ.setBoot r) := h.same
theorem State.Keeps.nextCfg (h : σ.Keeps τ) : σ.Keeps τ.nextCfg := h.setBoot.same
theorem State.Keeps.storeImage {d} (h : σ.Keeps τ) : σ.Keeps (τ.storeImage d) := .modMb (h.same)

theorem State.Keeps.switchTo {m} (h : σ.Keeps τ) : σ.Keeps (τ.switchTo m) := by
  unfold State.switchTo
  extract_lets _ _ _ _ _ s2 _ s3 s4 _ s5 _ s7 s8 s9 s10 s11 s12
  have h2 : σ.Keeps s2 := h.setRn.setRn.setRn.setRn.setRn.same
  have h3 : σ.Keeps s3 := h2.same
  have h4 : σ.Keeps s4 := .fold (fun h => .ite h (.ite h.quarantine (.ite h.modPort h))) h3
  have h5 : σ.Keeps s5 := .ite h4.applyImage.nextCfg h4
  have h7 : σ.Keeps s7 := .fold (fun h => h.ev) h5.modMb.ev
  have h8 : σ.Keeps s8 := .fold (fun h => h.ev) h7
  have h9 : σ.Keeps s9 := .ite h8.release h8
  have h10 : σ.Keeps s10 := .ite h9.release h9
  have h11 : σ.Keeps s11 := .ite h10.release h10
  have h12 : σ.Keeps s12 := .fold (fun h => .ite h.sendDigest.tryClear h) h11
  exact h12.cmEpoch

theorem State.Keeps.clearStaged (h : σ.Keeps τ) : σ.Keeps τ.clearStaged := .ite h.setRn.setRn.modMb.modMb.release h.setRn.setRn.modMb
theorem State.Keeps.leadSwitch {m} (h : σ.Keeps τ) : σ.Keeps (τ.leadSwitch m) := h.switchTo.memSendAll
theorem State.Keeps.shareImage {kids} (h : σ.Keeps τ) : σ.Keeps (τ.shareImage kids) := .ite (.fold (fun h => h.memSendParts) h) h

theorem State.Keeps.stageNext (h : σ.Keeps τ) : σ.Keeps τ.stageNext := by
  unfold State.stageNext
  extract_lets s _ _ _ _ _ _ _ s1
  have hs : σ.Keeps s := by
    unfold s
    split
    · exact h.storeImage
    · exact h
  have h1 : σ.Keeps s1 := hs.shareImage.draw.setRn.setRn
  exact .ite h1.modMb.leadSwitch h1.modMb.memSendAll

theorem State.Keeps.stageIfFree (h : σ.Keeps τ) : σ.Keeps τ.stageIfFree := .ite h.stageNext h
theorem State.Keeps.suspectMsg {d} (h : σ.Keeps τ) : σ.Keeps (suspectMsg τ d) := .ite h.modMb h.modMb.draw.modMb.memSend

theorem State.Keeps.partnerLost {p} (h : σ.Keeps τ) : σ.Keeps (partnerLost τ p) := by
  simp only [Machine.partnerLost]
  split
  · exact h
  split
  · exact h.ev.portDown
  split
  · exact .ite h.ev.portDown.suspectMsg h.ev.portDown.memSend
  · exact h.ev.portDown

theorem State.Keeps.probeMsg {src nonce} (h : σ.Keeps τ) : σ.Keeps (probeMsg τ src nonce) := h.memSend
theorem State.Keeps.probeAckMsg {src nonce} (h : σ.Keeps τ) : σ.Keeps (probeAckMsg τ src nonce) := h.modMb

theorem State.Keeps.leadConclude (h : σ.Keeps τ) : σ.Keeps τ.leadConclude := by
  unfold State.leadConclude
  split
  · exact h
  extract_lets _ _ _ _ s1 s2
  have h1 : σ.Keeps s1 := .ite h.modMb.memSendAll h.modMb
  have h2 : σ.Keeps s2 := .ite h1.clearStaged.memSendAll h1
  split
  · exact h
  split
  · exact h2.ev.stageNext
  split
  · exact h.modMb.switchTo.memSendAll.ev.stageNext
  · exact h

theorem State.Keeps.probeTimeout (h : σ.Keeps τ) : σ.Keeps (probeTimeout τ) := by
  simp only [Machine.probeTimeout]
  split
  · exact h
  split
  · exact h.modMb
  · exact .ite (.ite h.modMb.modMb.modMb.memSendAll.leadConclude h.modMb.modMb) h.modMb.modMb.stageIfFree

theorem State.Keeps.stageMsg {src m} (h : σ.Keeps τ) : σ.Keeps (stageMsg τ src m) :=
  .ite h.memSend (.ite h.setRn.setRn.modMb.memSend h.setRn.setRn.modMb.memSendAll)

theorem State.Keeps.stageRest (h : σ.Keeps τ) : σ.Keeps τ.stageRest := .ite h h.stageIfFree

theorem State.Keeps.stagedMsg {src e} (h : σ.Keeps τ) : σ.Keeps (stagedMsg τ src e) := by
  simp only [Machine.stagedMsg]
  split
  · exact h
  split
  · exact h
  split
  · exact h.modMb
  split
  · exact h.modMb.leadSwitch.stageRest
  split
  · exact h.modMb.memSend
  · exact h.modMb

theorem State.Keeps.leadAbort {m} (h : σ.Keeps τ) : σ.Keeps (τ.leadAbort m) := h.clearStaged.memSendAll.stageRest

theorem State.Keeps.notStagedMsg {e} (h : σ.Keeps τ) : σ.Keeps (notStagedMsg τ e) := by
  simp only [Machine.notStagedMsg]
  split
  · exact h
  split
  · exact h
  split
  · exact h.leadAbort
  split
  · exact h.memSend
  · exact h

theorem State.Keeps.stageTimeout (h : σ.Keeps τ) : σ.Keeps (stageTimeout τ) := by
  simp only [Machine.stageTimeout]
  split
  · exact .ite h.leadAbort h
  · exact h

theorem State.Keeps.switchMsg {src e} (h : σ.Keeps τ) : σ.Keeps (switchMsg τ src e) := by
  simp only [Machine.switchMsg]
  split
  · exact h
  · exact .ite h h.switchTo.memSendAll

theorem State.Keeps.abortMsg {src e} (h : σ.Keeps τ) : σ.Keeps (abortMsg τ src e) := by
  simp only [Machine.abortMsg]
  split
  · exact h
  · exact .ite h h.clearStaged.memSendAll

theorem State.Keeps.memberQuery {src} (h : σ.Keeps τ) : σ.Keeps (memberQuery τ src) := h.modMb.memSend

theorem State.Keeps.memberState {src active staged m} (h : σ.Keeps τ) : σ.Keeps (memberState τ src active staged m) := by
  simp only [Machine.memberState]
  split
  · exact h
  · exact h.modMb.leadConclude

theorem State.Keeps.joinMsg {p dev chain} (h : σ.Keeps τ) : σ.Keeps (joinMsg τ p dev chain) := by
  simp only [Machine.joinMsg]
  split
  · exact .ite h (.memSendPort (.modMb (h.same)))
  · exact .ite h.modMb h

theorem State.Keeps.joinBatch (h : σ.Keeps τ) : σ.Keeps (joinBatch τ) := .ite h h.modMb.stageIfFree

theorem State.Keeps.sendJoin (h : σ.Keeps τ) : σ.Keeps τ.sendJoin := by
  simp only [State.sendJoin]
  split
  · exact h
  split
  · exact h.memSendPort
  · exact h

theorem State.Keeps.challengeMsg {p c} (h : σ.Keeps τ) : σ.Keeps (challengeMsg τ p c) := .ite h.memSendPort h

theorem State.Keeps.memberResponse {p sig} (h : σ.Keeps τ) : σ.Keeps (memberResponse τ p sig) := by
  simp only [Machine.memberResponse]
  split
  · exact h
  split
  · exact h
  split
  · exact h.modMb.ev.memSendPort
  split
  · exact .ite h.modMb.joinMsg h.modMb.memSend
  · exact h.modMb

theorem State.Keeps.joinRetry (h : σ.Keeps τ) : σ.Keeps (joinRetry τ) := .ite h.sendJoin h

theorem State.Keeps.memberDigest {p d} (h : σ.Keeps τ) : σ.Keeps (memberDigest τ p d) :=
  .ite h (.tryClear (.ite h.modPort h.modPort.sendDigest))

theorem State.Keeps.runningImage {src} (h : σ.Keeps τ) : σ.Keeps (runningImage τ src) := .ite h.memSendParts h

theorem State.Keeps.imagePart {src total off data} (h : σ.Keeps τ) : σ.Keeps (imagePart τ src total off data) := by
  simp only [Machine.imagePart]
  split
  · exact .ite h.same h
  · exact h

theorem State.Keeps.askLeave {src} (h : σ.Keeps τ) : σ.Keeps (askLeave τ src) := .ite h h.modMb.stageIfFree

theorem State.Keeps.askConfig {src total off data} (h : σ.Keeps τ) : σ.Keeps (askConfig τ src total off data) := by
  simp only [Machine.askConfig]
  split
  · exact h
  split
  · exact h.modMb
  · exact .ite h.modMb.modMb.stageIfFree h.modMb.memSend

theorem State.Keeps.configPart {src total off data} (h : σ.Keeps τ) : σ.Keeps (configPart τ src total off data) := by
  simp only [Machine.configPart]
  split
  · exact h
  split
  · exact h.memSendAll.modMb
  · exact .ite h.memSendAll.modMb.storeImage h.memSendAll.modMb

theorem State.Keeps.refusedMsg {reason} (h : σ.Keeps τ) : σ.Keeps (refusedMsg τ reason) := .ite h.modMb.release h.release

theorem State.Keeps.memberIn {p from' m} (h : σ.Keeps τ) : σ.Keeps (memberIn τ p from' m) := by
  simp only [Machine.memberIn]
  split
  · exact h.suspectMsg
  · exact h.probeMsg
  · exact h.probeAckMsg
  · exact h.stageMsg
  · exact h.stagedMsg
  · exact h.notStagedMsg
  · exact h.switchMsg
  · exact h.abortMsg
  · exact h.memberQuery
  · exact h.memberState
  · exact h.joinMsg
  · exact h.joinMsg
  · exact h.challengeMsg
  · exact h.memberResponse
  · exact h.memberDigest
  · exact h.imagePart
  · exact h.runningImage
  · exact h.askLeave
  · exact h.askConfig
  · exact h.configPart
  · exact h.refusedMsg

theorem State.Keeps.mgmtFlit (h : σ.Keeps τ) : σ.Keeps (mgmtFlit τ) := by
  simp only [Machine.mgmtFlit]
  split
  · exact h
  split
  · exact .memberIn (h.same)
  · exact .ite (.same (h.same)) h.same

/-! ### Power, resets and start-up (R399 to R417, R453) -/

theorem State.Keeps.modPwr {f} (h : σ.Keeps τ) : σ.Keeps (τ.modPwr f) := h.same
theorem State.Keeps.modGate {f} (h : σ.Keeps τ) : σ.Keeps (τ.modGate f) := h.same
theorem State.Keeps.setStage {n} (h : σ.Keeps τ) : σ.Keeps (τ.setStage n) := h.setFld
theorem State.Keeps.powered {f} (h : σ.Keeps τ) (hk : ∀ {υ}, σ.Keeps υ → σ.Keeps (f υ)) : σ.Keeps (powered τ f) := .ite (hk h) h
theorem State.Keeps.showDuty (h : σ.Keeps τ) : σ.Keeps τ.showDuty := h.setFld.setFld.setFld.setFld
theorem State.Keeps.setDomains {l on} (h : σ.Keeps τ) : σ.Keeps (τ.setDomains l on) := .fold (fun h => h.setFld) h
theorem State.Keeps.flushLog (h : σ.Keeps τ) : σ.Keeps τ.flushLog := h.same
theorem State.Keeps.refence {old l} (h : σ.Keeps τ) : σ.Keeps (τ.refence old l) := .fold (fun h => h.fenceShown.modBench) h
theorem State.Keeps.zeroMem {p} (h : σ.Keeps τ) : σ.Keeps (τ.zeroMem p) := h.keepMem
theorem State.Keeps.freshRegs {lo hi} (h : σ.Keeps τ) : σ.Keeps (τ.freshRegs lo hi) := h.keepRegs
theorem State.Keeps.freshBenches (h : σ.Keeps τ) : σ.Keeps τ.freshBenches := .freshRegs (.zeroMem (h.same))

theorem State.Keeps.mainOff (h : σ.Keeps τ) : σ.Keeps τ.mainOff := by
  unfold State.mainOff
  extract_lets s z t _ _ u v
  have hu : σ.Keeps u := h.trans ⟨rfl, fun c => (State.canonical_iff u).2
    ⟨rfl, rfl, SMap.keep_wf ((State.canonical_iff τ).1 c).2.2.1, rfl⟩⟩
  exact hu.release.release.setRn.refence

theorem State.Keeps.restart (h : σ.Keeps τ) : σ.Keeps τ.restart := .fold (fun h => h.setRn) h.setStage.setFld.setRn.modPwr.showDuty

theorem State.Keeps.moduleReset (h : σ.Keeps τ) : σ.Keeps τ.moduleReset :=
  .ite (.ite h.mainOff.modGate.modPwr.emit.restart h.mainOff.modGate) h.mainOff.modGate.restart

theorem State.Keeps.modRstN {us} (h : σ.Keeps τ) : σ.Keeps (modRstN τ us) :=
  h.powered (fun h => .ite h.moduleReset (.ite (.ite h.draw.moduleReset h.draw) h))

theorem State.Keeps.domainFault {d mv} (h : σ.Keeps τ) : σ.Keeps (domainFault τ d mv) :=
  .ite h (.ite h.ev.moduleReset (.ite h.ev.cutBench h.ev.fence))

theorem State.Keeps.mainFail {mv} (h : σ.Keeps τ) : σ.Keeps (mainFail τ mv) := h.powered (fun h => h.ev.mainOff.setFld)
theorem State.Keeps.mainRestored (h : σ.Keeps τ) : σ.Keeps (mainRestored τ) := .ite h h.setFld.restart

theorem State.Keeps.powerOnReset (h : σ.Keeps τ) : σ.Keeps τ.powerOnReset :=
  .setReg (.setReg ⟨h.1, fun _ => rfl⟩)

theorem State.Keeps.auxLoss (h : σ.Keeps τ) : σ.Keeps (auxLoss τ) := .modPwr (.powerOnReset (.ite h h.flushLog))
theorem State.Keeps.auxOn {main} (h : σ.Keeps τ) : σ.Keeps (auxOn τ main) := h.powerOnReset.setFld.setRn
theorem State.Keeps.refLost {ref} (h : σ.Keeps τ) : σ.Keeps (refLost τ ref) := h.powered (fun h => h.ev.moduleReset.setRn.modPwr)
theorem State.Keeps.refRestored (h : σ.Keeps τ) : σ.Keeps (refRestored τ) := .ite h.setFld.modPwr.restart h
theorem State.Keeps.thermalTrip {i reading} (h : σ.Keeps τ) : σ.Keeps (thermalTrip τ i reading) := .ite h h.emit.ev.mainOff.modPwr
theorem State.Keeps.stageFail {stage reason} (h : σ.Keeps τ) : σ.Keeps (τ.stageFail stage reason) := h.setFld.setFld.ev
theorem State.Keeps.stop (h : σ.Keeps τ) : σ.Keeps τ.stop := h.modPwr
theorem State.Keeps.freshFabric (h : σ.Keeps τ) : σ.Keeps τ.freshFabric := .freshRegs (.freshRegs (.freshRegs (h.same)))

theorem State.Keeps.startStage1 {us straps prof ce ue lock} (h : σ.Keeps τ) : σ.Keeps (startStage1 τ us straps prof ce ue lock) := by
  unfold Machine.startStage1
  extract_lets s0 s1 s2
  have h0 : σ.Keeps s0 := .freshFabric (.ite h.restart h)
  have h1 : σ.Keeps s1 := .modPwr (h0.same)
  have h2 : σ.Keeps s2 := h1.setDomains.setRn.setRn
  exact .ite h (.ite h2.setRn.stageFail.stop (.ite h2.setRn.stageFail.stop h2.setRn.setStage))

theorem State.Keeps.chooseSlot {sigA sigB} (h : σ.Keeps τ) : σ.Keeps (τ.chooseSlot sigA sigB).1 := by
  unfold State.chooseSlot
  extract_lets _ _ _ _ s1 s2
  have h1 : σ.Keeps s1 := .ite h.setBoot h
  have h2 : σ.Keeps s2 := .ite h1.ev h1
  exact .iteFst h2 (.iteFst (.pair h2.setBoot.ev) h2)

theorem State.Keeps.startStage2 {us sigA sigB} (h : σ.Keeps τ) : σ.Keeps (startStage2 τ us sigA sigB) := by
  unfold Machine.startStage2
  extract_lets _ s1 s2 _ s3
  have h1 : σ.Keeps s1 := h.modPwr.modGate.setFld
  have h2 : σ.Keeps s2 := .ite h1.setRn h1
  have h3 : σ.Keeps s3 := h2.chooseSlot.setFld
  split
  · exact h
  split
  · extract_lets _ s3
    have h3 : σ.Keeps s3 := h2.chooseSlot.setFld.setFld.setFld.setFld
    exact .ite h3.setStage h3
  · exact .ite h3.stageFail.stop h3

theorem State.Keeps.relayBenches (h : σ.Keeps τ) : σ.Keeps τ.relayBenches := .fold (fun h => .ite h h.fenceShown.modBench) h
theorem State.Keeps.freshYard (h : σ.Keeps τ) : σ.Keeps τ.freshYard := .freshRegs (.zeroMem (h.same))
theorem State.Keeps.freshStacks (h : σ.Keeps τ) : σ.Keeps τ.freshStacks := .freshRegs (.zeroMem (h.same))
theorem State.Keeps.freshLinks (h : σ.Keeps τ) : σ.Keeps τ.freshLinks := .freshRegs (.freshRegs (h.same))
theorem State.Keeps.unnamed (h : σ.Keeps τ) : σ.Keeps τ.unnamed := .fold (fun h => h.setReg) h

theorem State.Keeps.startStage3 {us ok0 ok1} (h : σ.Keeps τ) : σ.Keeps (startStage3 τ us ok0 ok1) := by
  unfold Machine.startStage3
  extract_lets _ _ _ _ _ s3 _ _ pick _ s4 s5
  have h3 : σ.Keeps s3 := h.freshYard.setFld.setFld.setFld.setRn.modGate.setRn
  have h4 : σ.Keeps s4 := by
    unfold s4
    cases pick with
    | some m => exact h3.applyImage.modMb.modGate.setClamp
    | none => exact h3.ev.stageFail.unnamed.modMb.setClamp
  have h5 : σ.Keeps s5 := h4.setDomains.setStage
  exact .ite h (.ite h5.relayBenches h5)

theorem State.Keeps.startStage4 {us fail} (h : σ.Keeps τ) : σ.Keeps (startStage4 τ us fail) := by
  unfold Machine.startStage4
  extract_lets _ s1 s2
  have h1 : σ.Keeps s1 := h.freshStacks.setDomains.setFld.setRn
  have h2 : σ.Keeps s2 := .ite h1 h1.stageFail
  exact .ite h (.ite (.setStage (.ite h2 h2.freshBenches.refence.setDomains)) h2.setStage)

theorem State.Keeps.startStage5 {us fails} (h : σ.Keeps τ) : σ.Keeps (startStage5 τ us fails) := by
  simp only [Machine.startStage5]
  split
  · exact h
  refine .setStage ?_
  split
  · exact .fold (fun h => h.ev.fence) h.freshBenches.setDomains.setRn
  · exact .stageFail (.fold (fun h => h.ev.fence) h.freshBenches.setDomains.setRn)

theorem State.Keeps.startStage6 {us} (h : σ.Keeps τ) : σ.Keeps (startStage6 τ us) := by
  unfold Machine.startStage6
  extract_lets s1 s2
  have h1 : σ.Keeps s1 := h.freshLinks.setDomains.setRn.modPwr
  have h2 : σ.Keeps s2 := .fold (fun h => h.lkEnable) h1
  exact .ite h (.ite h1 (.ite h2.switchTo h2.modMb.sendJoin))

theorem State.Keeps.startRelease (h : σ.Keeps τ) : σ.Keeps (startRelease τ) := .ite h (.setStage (.emit (.same (.ite h.stageFail h))))

/-! ### The gatehouse (R372 to R398) -/

theorem State.Keeps.ghWrite {o b} (h : σ.Keeps τ) : σ.Keeps (τ.ghWrite o b) := h.modGate
theorem State.Keeps.modBox {m f} (h : σ.Keeps τ) : σ.Keeps (τ.modBox m f) := h.modGate
theorem State.Keeps.dmaOut {a b} (h : σ.Keeps τ) : σ.Keeps (τ.dmaOut a b) := h.emit.addReg
theorem State.Keeps.dmaIn {a n} (h : σ.Keeps τ) : σ.Keeps (τ.dmaIn a n) := h.emit.addReg
theorem State.Keeps.respond {m status res} (h : σ.Keeps τ) : σ.Keeps (τ.respond m status res) := h.modBox
theorem State.Keeps.mbDoorbell {m} (h : σ.Keeps τ) : σ.Keeps (mbDoorbell τ m) := .ite h h.setRn
theorem State.Keeps.took {m} (h : σ.Keeps τ) : σ.Keeps (τ.took m) := .ite h h.modGate

theorem State.Keeps.mailbox {m op len f} (h : σ.Keeps τ) (hk : ∀ {υ x}, σ.Keeps υ → σ.Keeps (f υ x)) : σ.Keeps (mailbox τ m op len f) :=
  .ite h (.ite h.took.respond (hk h.took))

theorem State.Keeps.ghRegs (h : σ.Keeps τ) : σ.Keeps τ.ghRegs :=
  .fold (fun h => h.setFld) (.setFld (.setFld (.setFld (.setFld (.fold (fun h => h.setReg) h)))))

theorem State.Keeps.ghRestart (h : σ.Keeps τ) : σ.Keeps τ.ghRestart :=
  .cmRestart (.modPwr (.modGate (.fold (fun h => .ite h.respond h) h.ghRegs)))

theorem State.Keeps.watchdog (h : σ.Keeps τ) : σ.Keeps τ.watchdog := .ghRestart (.ite h.setRn.ev.setBoot h.setRn.ev)
theorem State.Keeps.ghWatchdog (h : σ.Keeps τ) : σ.Keeps (ghWatchdog τ) := .ite h.watchdog h
theorem State.Keeps.ghSramError (h : σ.Keeps τ) : σ.Keeps (ghSramError τ) := .ite h.watchdog h
theorem State.Keeps.fwValid (h : σ.Keeps τ) : σ.Keeps τ.fwValid := h.modGate
theorem State.Keeps.resetKind {kind} (h : σ.Keeps τ) : σ.Keeps (τ.resetKind kind) := .ite (.moduleReset (.ite h h.ghRestart)) h.ghRestart

theorem State.Keeps.mailboxDone {m} (h : σ.Keeps τ) : σ.Keeps (mailboxDone τ m) := by
  unfold Machine.mailboxDone
  refine .ite h ?_
  extract_lets _ _ r s0
  have h0 : σ.Keeps s0 := .ite h.took h
  clear_value r
  split
  · exact h
  extract_lets _ s2
  have h2 : σ.Keeps s2 := .raise (.setRn (.modBox (.ghWrite (.ite h0.fwValid h0))))
  exact .ite h2.resetKind h2

theorem State.Keeps.getInfo {m} (h : σ.Keeps τ) : σ.Keeps (getInfo τ m) := h.mailbox (fun h => h.respond)
theorem State.Keeps.attest {m} (h : σ.Keeps τ) : σ.Keeps (attest τ m) := h.mailbox (fun h => .ite h.respond h.respond)
theorem State.Keeps.certs {m} (h : σ.Keeps τ) : σ.Keeps (certs τ m) := h.mailbox (fun h => .ite h.respond h.dmaOut.respond)

theorem State.Keeps.certInstall {m data ok} (h : σ.Keeps τ) : σ.Keeps (certInstall τ m data ok) :=
  h.mailbox (fun h => .ite h.respond (.ite h.respond (.ite h.dmaIn.respond h.dmaIn.modGate.respond)))

theorem State.Keeps.powerSet {m} (h : σ.Keeps τ) : σ.Keeps (powerSet τ m) := h.mailbox (fun h => .ite h.respond h.setClamp.respond)
theorem State.Keeps.profileStore {m} (h : σ.Keeps τ) : σ.Keeps (profileStore τ m) := h.mailbox (fun h => .ite h.respond h.modGate.respond)
theorem State.Keeps.mbReset {m} (h : σ.Keeps τ) : σ.Keeps (mbReset τ m) := h.mailbox (fun h => .ite h.respond h.respond.modBox)
theorem State.Keeps.mbFence {m} (h : σ.Keeps τ) : σ.Keeps (mbFence τ m) := h.mailbox (fun h => .ite h.respond h.fence.respond)
theorem State.Keeps.memberStatus {m} (h : σ.Keeps τ) : σ.Keeps (memberStatus τ m) := h.mailbox (fun h => h.respond)

theorem State.Keeps.holdFor {m kind} (h : σ.Keeps τ) : σ.Keeps (τ.holdFor m kind) := by
  simp only [State.holdFor]
  split
  · exact h.modBox.stageIfFree
  split
  · exact .ite h.modBox.memSend h.modBox.memSendParts
  · exact h.modBox

theorem State.Keeps.configStage {m data ok} (h : σ.Keeps τ) : σ.Keeps (configStage τ m data ok) :=
  h.mailbox (fun h => .ite h.respond (.ite h.respond (.ite h.respond (.ite h.dmaIn.respond h.dmaIn.storeImage.holdFor))))

theorem State.Keeps.leave {m} (h : σ.Keeps τ) : σ.Keeps (leave τ m) :=
  h.mailbox (fun h => .ite h.respond (.ite h.respond (.holdFor (.ite h.modMb h))))

theorem State.Keeps.rejoin {m} (h : σ.Keeps τ) : σ.Keeps (rejoin τ m) :=
  h.mailbox (fun h => .ite h.respond (.ite h.respond (.ite h.respond h.modMb.modBox.sendJoin)))

theorem State.Keeps.sensors {m} (h : σ.Keeps τ) : σ.Keeps (sensors τ m) := h.mailbox (fun h => h.respond)
theorem State.Keeps.logRead {m} (h : σ.Keeps τ) : σ.Keeps (logRead τ m) := h.mailbox (fun h => .ite h.respond h.dmaOut.respond)
theorem State.Keeps.logFlush {m} (h : σ.Keeps τ) : σ.Keeps (logFlush τ m) := h.mailbox (fun h => h.flushLog.respond)
theorem State.Keeps.logFlashRead {m} (h : σ.Keeps τ) : σ.Keeps (logFlashRead τ m) := h.mailbox (fun h => .ite h.respond h.dmaOut.respond)
theorem State.Keeps.stageFw {source data sig} (h : σ.Keeps τ) : σ.Keeps (τ.stageFw source data sig).1 := .pair (.ite h.modGate h.modGate.ev)
theorem State.Keeps.staged {m source data sig} (h : σ.Keeps τ) : σ.Keeps (τ.staged m source data sig) := h.stageFw.respond.modBox

theorem State.Keeps.fwRow {m op len f} (h : σ.Keeps τ) (hk : ∀ {υ x}, σ.Keeps υ → σ.Keeps (f υ x)) : σ.Keeps (fwRow τ m op len f) :=
  h.mailbox (fun h => .ite h.respond ((hk h).modBox))

theorem State.Keeps.fwStage {m data sig} (h : σ.Keeps τ) : σ.Keeps (fwStage τ m data sig) :=
  h.fwRow (fun h => .ite h.respond (.ite h.respond h.dmaIn.staged))

theorem State.Keeps.fwStagePeer {m sig} (h : σ.Keeps τ) : σ.Keeps (fwStagePeer τ m sig) := by
  simp only [Machine.fwStagePeer]
  refine h.fwRow (fun h => ?_)
  split
  · exact .ite h.modGate.staged h
  · exact .ite h.respond (.ite h.respond h.memSend.modGate)

theorem State.Keeps.fwActivate {m} (h : σ.Keeps τ) : σ.Keeps (fwActivate τ m) := h.fwRow (fun h => .ite h.respond h.setBoot.ev.respond)

theorem State.Keeps.fwConfirm {m} (h : σ.Keeps τ) : σ.Keeps (fwConfirm τ m) :=
  h.fwRow (fun h => .ite h.respond (.ite h.respond (.respond (.ite h.setBoot.setFld.setFld.ev h.setBoot.setFld))))

theorem State.Keeps.fwStatus {m} (h : σ.Keeps τ) : σ.Keeps (fwStatus τ m) := h.mailbox (fun h => h.respond)

theorem State.Keeps.lifeAdvance {next ok} (h : σ.Keeps τ) : σ.Keeps (τ.lifeAdvance next ok).1 :=
  .iteFst h (.iteFst h (.pair (.ev (.ite h.setFld.setFld.modGate h.setFld.setFld))))

theorem State.Keeps.lifecycleCmd {m next ok} (h : σ.Keeps τ) : σ.Keeps (lifecycleCmd τ m next ok) :=
  h.mailbox (fun h => .ite h.respond h.dmaIn.lifeAdvance.respond)

theorem State.Keeps.print {b status} (h : σ.Keeps τ) : σ.Keeps (τ.print b status) := h.emit
theorem State.Keeps.monService {f} (h : σ.Keeps τ) (hk : ∀ {υ}, σ.Keeps υ → σ.Keeps (f υ)) : σ.Keeps (monService τ f) := .ite (hk h) h.print
theorem State.Keeps.monId (h : σ.Keeps τ) : σ.Keeps (monId τ) := h.print
theorem State.Keeps.monStatus (h : σ.Keeps τ) : σ.Keeps (monStatus τ) := h.print
theorem State.Keeps.monLog {n} (h : σ.Keeps τ) : σ.Keeps (monLog τ n) := .ite h.print h.print
theorem State.Keeps.monSens (h : σ.Keeps τ) : σ.Keeps (monSens τ) := h.print

theorem State.Keeps.monFwload {data sig} (h : σ.Keeps τ) : σ.Keeps (monFwload τ data sig) :=
  .ite h.print (.print (.ite h.stageFw.fwValid h.stageFw))

theorem State.Keeps.monBoot {n} (h : σ.Keeps τ) : σ.Keeps (monBoot τ n) := .ite h.print h.setBoot.print
theorem State.Keeps.monReset {kind} (h : σ.Keeps τ) : σ.Keeps (monReset τ kind) := .ite h.print h.print.resetKind
theorem State.Keeps.monUnlock (h : σ.Keeps τ) : σ.Keeps (monUnlock τ) := .ite h.print (.print (.modGate (h.same)))

theorem State.Keeps.monResp {ok serial} (h : σ.Keeps τ) : σ.Keeps (monResp τ ok serial) := by
  simp only [Machine.monResp]
  split
  · exact h.print
  split
  · exact h.print
  · exact .ite h.modGate.setFld.modGate.ev.print h.modGate.modGate.ev.print

theorem State.Keeps.monLock (h : σ.Keeps τ) : σ.Keeps (monLock τ) := h.setFld.print
theorem State.Keeps.monLc {next ok} (h : σ.Keeps τ) : σ.Keeps (monLc τ next ok) := h.lifeAdvance.print
theorem State.Keeps.monFuses (h : σ.Keeps τ) : σ.Keeps (monFuses τ) := h.monService (fun h => h.print)

theorem State.Keeps.monTest {b fail} (h : σ.Keeps τ) : σ.Keeps (monTest τ b fail) := by
  simp only [Machine.monTest]
  refine h.monService (fun h => ?_)
  split
  · exact h.print
  split
  · exact h.print
  · exact h.ev.fence.print

theorem State.Keeps.sensorFail {cls i} (h : σ.Keeps τ) : σ.Keeps (τ.sensorFail cls i) := .ite h h.ev.modPwr
theorem State.Keeps.noteCool {i} (h : σ.Keeps τ) : σ.Keeps (τ.noteCool i) := .ite h.modPwr (.ite h h.modPwr)

theorem State.Keeps.tempSample {i v} (h : σ.Keeps τ) : σ.Keeps (tempSample τ i v) := by
  unfold Machine.tempSample
  extract_lets a _ _ _ _
  split
  · exact h.setFld.sensorFail.noteCool
  · extract_lets now t pk s1 items s2
    have h1 : σ.Keeps s1 := h.setFld
    have h2 : σ.Keeps s2 := .ite h1.ev.modPwr (.ite h1.modPwr h1)
    exact .noteCool (.ite h2 (.ite (.ite h2 h2.ev.modPwr.showDuty) (.ite h2 h2.modPwr)))

theorem State.Keeps.voltSample {d v} (h : σ.Keeps τ) : σ.Keeps (voltSample τ d v) := by
  simp only [Machine.voltSample]
  split
  · exact h.setFld.sensorFail
  · exact h.setFld

theorem State.Keeps.clampNote {was watts} (h : σ.Keeps τ) : σ.Keeps (τ.clampNote was watts) := .ite h.ev.modPwr h
theorem State.Keeps.railOver {r ma} (h : σ.Keeps τ) : σ.Keeps (railOver τ r ma) := .ite h h.ev.modPwr.clampNote.showDuty
theorem State.Keeps.mainSensorFail (h : σ.Keeps τ) : σ.Keeps τ.mainSensorFail := h.setFld.modPwr.clampNote.showDuty

theorem State.Keeps.currSample {r v} (h : σ.Keeps τ) : σ.Keeps (currSample τ r v) := by
  simp only [Machine.currSample]
  split
  · exact .ite h.setFld.sensorFail.mainSensorFail h.setFld.sensorFail
  · exact h.setFld.railOver

theorem State.Keeps.sensorSample {x v} (h : σ.Keeps τ) : σ.Keeps (sensorSample τ x v) := by
  simp only [Machine.sensorSample]
  split
  · exact h.tempSample
  · exact h.voltSample
  · exact h.currSample

theorem State.Keeps.throttleEnd {stack} (h : σ.Keeps τ) : σ.Keeps (throttleEnd τ stack) := by
  simp only [Machine.throttleEnd]
  split
  · exact .ite h.modPwr.showDuty h
  · exact .ite h.modPwr h

theorem State.Keeps.wbTempRead {i} (h : σ.Keeps τ) : σ.Keeps (wbTempRead τ i) := h.emit.setFld
theorem State.Keeps.wbVoltRead {d} (h : σ.Keeps τ) : σ.Keeps (wbVoltRead τ d) := h.emit.setFld
theorem State.Keeps.wbCurrRead {r} (h : σ.Keeps τ) : σ.Keeps (wbCurrRead τ r) := h.emit.setFld

theorem State.Keeps.clampTick {mv} (h : σ.Keeps τ) : σ.Keeps (clampTick τ mv) := by
  unfold Machine.clampTick
  extract_lets s0 s1
  have h0 : σ.Keeps s0 := .ite h.addReg h
  have h1 : σ.Keeps s1 := .ite h0.addReg h0
  split
  · exact h1.mainSensorFail
  · exact h1.setFld.modPwr.clampNote.showDuty

theorem State.Keeps.clampUnmet (h : σ.Keeps τ) : σ.Keeps (clampUnmet τ) := .ite h.modPwr.setFld.ev h

theorem State.Keeps.phaseCfgWrite {v} (h : σ.Keeps τ) : σ.Keeps (phaseCfgWrite τ v) :=
  .ite (.setFld (.setFld (.ite h.setRn h))) (.setFld (.ite h.setRn h))

theorem State.Keeps.captureRun {mask} (h : σ.Keeps τ) : σ.Keeps (τ.captureRun mask) := .fold (fun h => h.modGate) h

theorem State.Keeps.phaseMark {b} (h : σ.Keeps τ) : σ.Keeps (phaseMark τ b) := by
  simp only [Machine.phaseMark]
  split
  · exact h
  · exact .ite h (.ite h.modCore.modGate (.setRn (.ite h.modCore.modGate.write h.modCore.modGate)))

/-! ### Accesses to register space (R7, R8, R238, R239) -/

theorem State.Keeps.readEffect {a m} (h : σ.Keeps τ) : σ.Keeps (τ.readEffect a m) := by
  unfold State.readEffect
  extract_lets _ _ _ s1
  have h1 : σ.Keeps s1 := .ite h.setFld h
  split
  · exact .ite h.setRn h
  split
  · exact h.same
  split
  · exact .ite h.setRn (.ite h.setFld h.setFld)
  · exact .ite h.setFld (.ite (.ite h1.setFld h1) (.ite h.setFld h))

theorem State.Keeps.regRead {a n} (h : σ.Keeps τ) : σ.Keeps (τ.regRead a n).1 := by
  simp only [State.regRead]
  split
  · exact h
  split
  · exact h
  · exact .pair (.ite h.readEffect h)

theorem State.Keeps.ctrlBits {v skip resume clr fs fr fc} (h : σ.Keeps τ) (hfs : ∀ {υ}, σ.Keeps υ → σ.Keeps (fs υ)) (hfr : ∀ {υ}, σ.Keeps υ → σ.Keeps (fr υ)) (hfc : ∀ {υ}, σ.Keeps υ → σ.Keeps (fc υ)) :
    σ.Keeps (ctrlBits τ v skip resume clr fs fr fc) :=
  .ite (hfc (.ite (hfr (.ite (hfs h) h)) (.ite (hfs h) h))) (.ite (hfr (.ite (hfs h) h)) (.ite (hfs h) h))

theorem State.Keeps.rwsWrite {a m v} (h : σ.Keeps τ) : σ.Keeps (τ.rwsWrite a m v) := h.setRn

theorem State.Keeps.ccWrite {b o m v} (h : σ.Keeps τ) : σ.Keeps (τ.ccWrite b o m v) := by
  unfold State.ccWrite
  extract_lets _ _ s1 s2 s3
  have h1 : σ.Keeps s1 := .ite h.ccResume h
  have h2 : σ.Keeps s2 := .ite h1.ccHaltReq h1
  have h3 : σ.Keeps s3 := .ite h2.ccStepArm h2
  split
  · exact .ite h3.ccCntClr h3
  split
  · exact .ite h.modCore h
  split
  · exact .ite h.modCore h
  · exact .ite (.ite h.modCore h) (.ite (.ite h.modCore h) (.ite h.ccSyncWrite h.accessWrite))

theorem State.Keeps.dkRegWrite {d o m v} (h : σ.Keeps τ) : σ.Keeps (τ.dkRegWrite d o m v) :=
  .ite (h.accessWrite.ctrlBits (fun h => h.dkSkip) (fun h => h.dkResume) (fun h => h.dkCntClr)) h.accessWrite

theorem State.Keeps.tableWrite {b o m v} (h : σ.Keeps τ) : σ.Keeps (τ.tableWrite b o m v) :=
  .ite h.drTableWrite (.fold (fun h => h.drTableWrite) h)

theorem State.Keeps.benchWrite {b o m v} (h : σ.Keeps τ) : σ.Keeps (τ.benchWrite b o m v) := by
  unfold State.benchWrite
  extract_lets s1
  have h1 : σ.Keeps s1 := h.ctrlBits (fun h => h.bnSkip) (fun h => h.bnResume) (fun h => h.bnCntClr)
  refine .ite h (.ite (.ite h1.bnHaltReq h1) (.ite (.ite h.commitGo h) (.ite h.bnFlagsClear (.ite (.ite h.muPassesWrite h) ?_))))
  refine .ite (h.ctrlBits (fun h => h.muSkip) (fun h => h.muResume) (fun h => h.muCntClr)) ?_
  refine .ite (h.ctrlBits (fun h => h.crSkip) (fun h => h.crResume) (fun h => h.crCntClr)) ?_
  exact .ite h.dkRegWrite (.ite h.dkRegWrite (.ite h.ccWrite (.ite (.ite h.drCntClr h) (.ite h.tableWrite (.ite h.rwsWrite h.accessWrite)))))

theorem State.Keeps.ueWrite {k o m v} (h : σ.Keeps τ) : σ.Keeps (τ.ueWrite k o m v) := by
  simp only [State.ueWrite]
  split
  · exact h
  split
  · exact h.ctrlBits (fun h => h.ueSkip) (fun h => h.ueResume) (fun h => h.ueCntClr)
  split
  · exact .ite h.accessWrite.atmZero h.accessWrite
  · exact .ite (.ite h.vtCfgWrite h) (.ite (.ite h.vtSelWrite h) (.ite (.ite h.seamSelWrite h) h.accessWrite))

theorem State.Keeps.lkWrite {p o m v} (h : σ.Keeps τ) : σ.Keeps (τ.lkWrite p o m v) := by
  unfold State.lkWrite
  extract_lets s1 s2
  have h1 : σ.Keeps s1 := .ite h.lkEnable h
  have h2 : σ.Keeps s2 := .ite h1.lkRetrain h1
  exact .ite (.ite h2.lkCntClr h2) h.accessWrite

theorem State.Keeps.clWrite {u o m v} (h : σ.Keeps τ) : σ.Keeps (τ.clWrite u o m v) := by
  simp only [State.clWrite]
  split
  · exact h.ctrlBits (fun h => h.clSkip) (fun h => h.clResume) (fun h => h.clCntClr)
  · exact .ite (.ite h.tallySelWrite h) (.ite (.ite h.tallyRetire h) h.accessWrite)

theorem State.Keeps.hxWrite {o m v} (h : σ.Keeps τ) : σ.Keeps (τ.hxWrite o m v) := by
  simp only [State.hxWrite]
  split
  · exact .ite h.accessWrite.hxCntClr h.accessWrite
  · exact .ite h.hxRbCfg (.ite (.ite h.hxDb h) (.ite (.ite h.setRn.flushVector h.setRn) h.accessWrite))

theorem State.Keeps.modWrite {host a m v} (h : σ.Keeps τ) : σ.Keeps (τ.modWrite host a m v) := by
  simp only [State.modWrite]
  split
  · exact .ite h.spKeyLoad h
  split
  · exact .ite h.sySelWrite h
  split
  · exact .ite h.accessWrite h
  split
  · exact .ite h.mbDoorbell h
  · exact .ite (.ite h.phaseCfgWrite h) (.ite (.ite h.pwClampWrite h) (.ite (.ite h.pwThermWrite h) h.accessWrite))

theorem State.Keeps.wideAct {a f v} (h : σ.Keeps τ) (e : wideAct a = some f) : σ.Keeps (f τ v) := by
  unfold Machine.wideAct at e
  split at e
  · cases e
    exact h.retireClaims
  split at e
  · cases e
    exact h.prepareRequest
  split at e
  · cases e
    exact h.mmInval
  split at e
  · cases e
    exact h.tallyFind
  split at e
  · cases e
    exact h.lkAdmit
  split at e
  · cases e
    exact h.vtIssue (fun h => h.vtOp)
  · cases e

theorem State.Keeps.regAct {host a m v} (h : σ.Keeps τ) : σ.Keeps (τ.regAct host a m v) :=
  .ite h (.ite h.benchWrite (.ite h.ueWrite (.ite h.lkWrite (.ite h.clWrite (.ite h.hxWrite h.modWrite)))))

theorem State.Keeps.plainWrite {host a m v} (h : σ.Keeps τ) : σ.Keeps (τ.plainWrite host a m v) := by
  simp only [State.plainWrite]
  split
  · exact h
  split
  · exact .ite h (.ite h.rwsWrite (.ite h.ccWrite h.accessWrite))
  · exact .ite h (.ite (.ite h.accessWrite h) (.ite (.ite h.mbDoorbell h) (.ite h.hxWrite h.accessWrite)))

theorem State.Keeps.registerWrite {host a n v} (h : σ.Keeps τ) : σ.Keeps (registerWrite τ host a n v) :=
  .ite h (.ite (.ite h.ghWrite h) h.plainWrite)

theorem State.Keeps.setHeld {a v} (h : σ.Keeps τ) : σ.Keeps (τ.setHeld a v) := h.same

theorem State.Keeps.regWrite {host a n v} (h : σ.Keeps τ) : σ.Keeps (τ.regWrite host a n v) := by
  simp only [State.regWrite]
  refine .ite h (.ite (.ite h.ghWrite h) ?_)
  split
  · next e => exact .ite (h.wideAct e).setHeld (.ite h.setHeld (h.wideAct e).setHeld)
  · exact h.regAct

/-! ### The Edven instructions (R281 to R301) -/

theorem State.Keeps.setG {b i v} (h : σ.Keeps τ) : σ.Keeps (τ.setG b i v) := .ite h h.modCore
theorem State.Keeps.instrEnd {b} (h : σ.Keeps τ) : σ.Keeps (τ.instrEnd b) := .ite h.modCore.coreHalt (.ite h.modCore.coreHalt h.modCore)
theorem State.Keeps.owe {b n why} (h : σ.Keeps τ) : σ.Keeps (τ.owe b n why) := h.modCore
theorem State.Keeps.oweFree {b why} (h : σ.Keeps τ) : σ.Keeps (τ.oweFree b why) := h.draw.owe
theorem State.Keeps.retire {b} (h : σ.Keeps τ) : σ.Keeps (τ.retire b) := h.modCore.instrEnd
theorem State.Keeps.jumpTo {b a} (h : σ.Keeps τ) : σ.Keeps (τ.jumpTo b a) := h.modCore.instrEnd
theorem State.Keeps.plainFault {b cause} (h : σ.Keeps τ) : σ.Keeps (τ.plainFault b cause) := h.draw.coreFault

theorem State.Keeps.coreRead {b x n host} (h : σ.Keeps τ) : σ.Keeps (τ.coreRead b x n host).1 := by
  unfold State.coreRead
  extract_lets got c hit past q
  have hgot : ∀ {q}, σ.Keeps q.1 → σ.Keeps (got q).1 := by
    intro q hq
    unfold got
    split
    · exact .pair hq
    · exact .pair hq
  clear_value got
  split
  · refine .iteFst (.pair h.regRead.oweFree) (.iteFst (hgot ?_) (hgot (.pair h.oweFree)))
    exact .dRead (.ite h.evict h.evict.oweFree)
  · split
    · exact .iteFst (.pair h.emit.addReg.oweFree) h
    · exact h
  · split
    · exact h
    · exact .pair h.modCore
    · exact .pair h.modCore
    · exact .iteFst (.pair h.modCore.peerRequest.modCore) (.pair h.modCore.peerRequest)

theorem State.Keeps.coreLoad {b a n host} (h : σ.Keeps τ) : σ.Keeps (τ.coreLoad b a n host).1 := by
  simp only [State.coreLoad]
  split
  · exact .pair h.coreXlate
  · exact h.coreXlate.coreRead

theorem State.Keeps.coreStore {b a bs} (h : σ.Keeps τ) : σ.Keeps (τ.coreStore b a bs).1 := by
  simp only [State.coreStore]
  split
  · exact .pair h.coreXlate
  split
  · exact .iteFst (.pair h.coreXlate.regWrite) (.iteFst (.pair h.coreXlate.evict.dWrite) (.pair h.coreXlate.write))
  · exact .iteFst (.pair h.coreXlate.emit.addReg) (.pair h.coreXlate)
  split
  · exact .pair h.coreXlate
  · exact .pair h.coreXlate.modCore
  · exact .pair h.coreXlate.modCore
  · exact .iteFst (.pair (.modCore (h.coreXlate.modCore.peerRequest.same))) (.pair h.coreXlate.modCore.peerRequest)

theorem State.Keeps.withLoad {b a n host f} (h : σ.Keeps τ) (hk : ∀ {υ x}, σ.Keeps υ → σ.Keeps (f υ x)) : σ.Keeps (τ.withLoad b a n host f) :=
  by
  simp only [State.withLoad]
  split
  · exact h.coreFault
  split
  · exact hk h.coreLoad
  · exact h.coreLoad.stallCore
  · exact h.coreLoad.coreFault

theorem State.Keeps.specFill {b ifetch va} (h : σ.Keeps τ) : σ.Keeps (τ.specFill b ifetch va) := by
  simp only [State.specFill]
  split
  · exact h.setReg
  · exact .ite (.ite h.coreXlate.evict.iRead h.coreXlate.evict.dRead) h.coreXlate

theorem State.Keeps.predict {b spec miss} (h : σ.Keeps τ) : σ.Keeps (τ.predict b spec miss) :=
  .ite (.owe (.addReg (.fold (fun h => h.specFill) h))) (.fold (fun h => h.specFill) h)

theorem State.Keeps.fetch {b pc} (h : σ.Keeps τ) : σ.Keeps (τ.fetch b pc).1 := by
  simp only [State.fetch]
  split
  · exact .pair h.coreXlate
  split
  · exact .pair h.coreXlate
  split
  · exact .pair (.iteFst (.iRead (.ite h.coreXlate.evict h.coreXlate.evict.oweFree)) (.pair h.coreXlate.oweFree))
  · exact .pair (.iteFst (.iRead (.ite h.coreXlate.evict h.coreXlate.evict.oweFree)) (.pair h.coreXlate.oweFree))

theorem State.Keeps.loopEnter {b n count len} (h : σ.Keeps τ) : σ.Keeps (τ.loopEnter b n count len) :=
  .ite h.plainFault (.ite h.fetch.plainFault (.ite h.fetch.modCore.instrEnd h.fetch.modCore.instrEnd))

theorem State.Keeps.tryPush {b qid c f} (h : σ.Keeps τ) (hk : ∀ {υ}, σ.Keeps υ → σ.Keeps (f υ)) : σ.Keeps (τ.tryPush b qid c f) := by
  simp only [State.tryPush]
  split
  · exact h.plainFault
  · exact .ite h.coreBreak (.ite h.stallCore (hk h.corePush))

theorem State.Keeps.bindPages {b va base t dev l} (h : σ.Keeps τ) : σ.Keeps ((bindPages b va base t dev τ l).elim Prod.fst id) := by
  induction l generalizing τ with
  | nil => exact h
  | cons off l ih =>
    simp only [Machine.bindPages]
    split
    · exact h.coreXlate
    split
    · exact ih h.coreXlate
    · exact h.coreXlate

theorem State.Keeps.bindOne {b gx va c i} (h : σ.Keeps τ) : σ.Keeps ((bindOne b gx va τ c i).elim Prod.fst Prod.fst) := by
  simp only [Machine.bindOne]
  split
  · exact h.coreXlate
  split
  · next e => exact h.coreXlate.bindPages.inl e
  · next e => exact h.coreXlate.bindPages.inr e

theorem State.Keeps.bindAll {b gx va c l} (h : σ.Keeps τ) : σ.Keeps ((bindAll b gx va τ c l).elim Prod.fst Prod.fst) := by
  induction l generalizing τ c with
  | nil => exact h
  | cons i l ih =>
    simp only [Machine.bindAll]
    split
    · next e => exact h.bindOne.inl e
    · next e => exact ih (h.bindOne.inr e)

theorem State.Keeps.bindPush {b gx p c} (h : σ.Keeps τ) : σ.Keeps ((bindPush b gx τ p c).elim Prod.fst Prod.fst) := by
  simp only [Machine.bindPush]
  split
  · next e => exact h.bindAll.inl e
  next e =>
    have ht := h.bindAll.inr e
    split
    · exact ht
    split
    · next e => exact ht.bindAll.inl e
    · next e => exact ht.bindAll.inr e

theorem State.Keeps.setNote {b n v} (h : σ.Keeps τ) : σ.Keeps (τ.setNote b n v) := h.same

theorem State.Keeps.touchFault {b l x} (h : σ.Keeps τ) (e : touchFault b τ l = some x) : σ.Keeps x.1 := by
  obtain ⟨a, _, e⟩ := List.exists_of_findSome?_eq_some e
  split at e
  · cases e
    exact h
  dsimp only at e
  split at e
  · cases e
    exact h.coreXlate
  · cases e

theorem State.Keeps.bindTop {b gx k i mine j l} (h : σ.Keeps τ) : σ.Keeps (bindTop b gx k i mine j τ l).1 := by
  induction l generalizing τ j with
  | nil => exact h
  | cons st l ih =>
    simp only [Machine.bindTop]
    split
    · exact .pair (ih h)
    split
    · next e => exact .pair (h.touchFault e)
    · exact .pair (ih h)
    split
    · exact h
    split
    · next e => exact .pair (h.bindPush.inl e)
    · next e => exact .pair (ih (h.bindPush.inr e))

theorem State.Keeps.accStop {b a x} (h : σ.Keeps τ) : σ.Keeps (τ.accStop b a x) := by
  simp only [State.accStop]
  split
  · exact h.coreFault
  · exact h.stallCore

theorem State.Keeps.freshLine {b x} (h : σ.Keeps τ) : σ.Keeps (τ.freshLine b x) := .ite h.dropLine h

theorem State.Keeps.gather {b reads host n} (h : σ.Keeps τ) : σ.Keeps (gather b reads host n τ).1 := by
  induction n generalizing τ with
  | zero => exact h
  | succ n ih =>
    simp only [Machine.gather]
    split
    · exact h
    refine .iteFst (.pair h.coreFault) ?_
    split
    · exact .pair h.coreXlate.coreFault
    split
    · exact .iteFst (.pair h.coreXlate.freshLine.coreRead.modCore.stallCore) (ih h.coreXlate.freshLine.coreRead.modCore)
    · exact .pair h.coreXlate.freshLine.coreRead.accStop

theorem State.Keeps.scatter {b n} (h : σ.Keeps τ) : σ.Keeps (scatter b n τ).1 := by
  induction n generalizing τ with
  | zero => exact h
  | succ n ih =>
    simp only [Machine.scatter]
    split
    · exact h
    refine .iteFst (.pair h.coreFault) ?_
    split
    · exact .pair h.coreXlate.coreFault
    split
    · exact ih (.modCore (.ite h.coreXlate.coreStore.cleanLine h.coreXlate.coreStore))
    · exact .pair h.coreXlate.coreStore.accStop

theorem State.Keeps.loopRun {b gx f ins out first count host n} (h : σ.Keeps τ) : σ.Keeps (loopRun b gx f ins out first count host n τ).1 :=
  by
  induction n generalizing τ with
  | zero => exact h
  | succ n ih =>
    unfold Machine.loopRun
    extract_lets _ _ _ _ _ g _ _ t
    have hg : σ.Keeps g.1 := .iteFst h h.gather
    have ht : σ.Keeps t := .ite h hg.setRn.modCore
    exact .iteFst h (.iteFst hg (.iteFst ht.scatter (ih ht.scatter.modCore)))

theorem State.Keeps.vopRun {b k w} (h : σ.Keeps τ) : σ.Keeps (τ.vopRun b k w).1 :=
  .pair (.ite (.setRn (.setRn (.iteFst h.vtOp h.vtRefuse))) (.iteFst h.vtOp h.vtRefuse))

theorem State.Keeps.stepPin {b gx r} (h : σ.Keeps τ) : σ.Keeps (τ.stepPin b gx r) := h.vopRun.setNote.owe
theorem State.Keeps.stepUnpin {b gx r} (h : σ.Keeps τ) : σ.Keeps (τ.stepUnpin b gx r) := .setNote (.ite h h.vopRun.owe)

theorem State.Keeps.fixCmd {b gx c got fs} (h : σ.Keeps τ) : σ.Keeps (τ.fixCmd b gx c got fs).1 := by
  induction fs generalizing τ c got with
  | nil => exact h
  | cons f fs ih =>
    simp only [State.fixCmd]
    split
    · exact ih h
    · exact ih h
    · exact ih h
    · exact ih h.draw

theorem State.Keeps.stepPush {b gx p c host} (h : σ.Keeps τ) : σ.Keeps (τ.stepPush b gx p c host).1 := by
  unfold State.stepPush
  extract_lets _ _ t
  have ht : σ.Keeps t := by
    unfold t
    split
    · exact .ite h.gather h.gather.fixCmd.modCore
    · exact h.gather
  split
  · exact .pair h.plainFault
  split
  · exact .pair h.coreBreak
  split
  · exact .pair h.stallCore
  split
  · exact .pair h.stallCore
  · exact .iteFst h.gather (.iteFst ht.scatter (.pair ht.scatter.fixCmd.corePush.modCore))

theorem State.Keeps.stepJudge {b gx k status host} (h : σ.Keeps τ) : σ.Keeps (τ.stepJudge b gx k status host).1 :=
  .iteFst (.pair h.gather.setNote) h.gather

theorem State.Keeps.topStep {b gx kind c host} (h : σ.Keeps τ) : σ.Keeps (τ.topStep b gx kind c host).1 := by
  simp only [State.topStep]
  split
  · exact h.stepPush
  · exact .iteFst h (.pair h.stallCore)
  · exact .pair h.addSync
  · exact .pair h.stepPin
  · exact .pair h.stepUnpin
  · exact h.stepJudge
  · exact .pair h.setNote
  · exact .pair h.submitClaim.modCore.stallCore
  · exact h.loopRun

theorem State.Keeps.topEnd {b} (h : σ.Keeps τ) : σ.Keeps (τ.topEnd b) := h.modCore.retire

theorem State.Keeps.topSteps {b gx mine l host n} (h : σ.Keeps τ) : σ.Keeps (topSteps b gx mine l host n τ) := by
  induction n generalizing τ with
  | zero => exact h
  | succ n ih =>
    simp only [Machine.topSteps]
    split
    · exact h.topEnd
    split
    · exact h.stallCore
    · exact ih h.modCore
    · exact .ite h.topStep (.ite h.topStep.modCore.coreHalt (ih h.topStep.modCore))

theorem State.Keeps.top {b gx k host} (h : σ.Keeps τ) : σ.Keeps (τ.top b gx k host) := by
  unfold State.top
  split
  · exact h.plainFault
  extract_lets _ _ s0
  have h0 : σ.Keeps s0 := .ite h h.modCore
  split
  · exact .ite h0.bindTop.plainFault h0.bindTop.coreFault
  · exact h0.bindTop.topSteps

theorem State.Keeps.sclaim {b x a slot host} (h : σ.Keeps τ) : σ.Keeps (τ.sclaim b x a slot host) :=
  h.withLoad (fun h => h.submitClaim.modCore.stallCore)

theorem State.Keeps.coreClaimed {b c res} (h : σ.Keeps τ) : σ.Keeps (coreClaimed τ b c res) := by
  unfold Machine.coreClaimed
  split
  · exact h
  · exact h.modCore
  · exact h.modCore.setG.retire

theorem State.Keeps.vop {b x y z} (h : σ.Keeps τ) : σ.Keeps (τ.vop b x y z) := h.vopRun.setG.setG.owe.retire

theorem State.Keeps.sysOp {b f x y} (h : σ.Keeps τ) : σ.Keeps (τ.sysOp b f x y) := by
  simp only [State.sysOp]
  split
  · exact h.oweFree.retire
  · split
    · exact h.coreXlate.coreFault
    · exact .retire (.ite h.coreXlate.cleanLine h.coreXlate)
  · split
    · exact h.coreXlate.coreFault
    · exact .retire (.ite h.coreXlate.dropLine h.coreXlate)
  · exact h.modCore.retire
  · exact h.coreEnd
  · exact h.modCore.coreHalt
  · exact h.setG.retire
  · exact h.retire

theorem State.Keeps.queOp {b f x y i host} (h : σ.Keeps τ) : σ.Keeps (τ.queOp b f x y i host) := by
  simp only [State.queOp]
  split
  · exact .ite (h.tryPush (fun h => h.retire)) h.plainFault
  · split
    · exact h.plainFault
    · exact h.withLoad (fun h => h.tryPush (fun h => h.retire))
  · split
    · exact h.plainFault
    · exact h.setG.retire
  · exact h.addSync.retire
  · exact .ite h.retire h.stallCore
  · exact h.setG.retire
  · exact h.setSync.retire
  · exact .ite h.stallCore h.modCore.retire
  · exact h.sclaim
  · split
    · exact h.plainFault
    · exact h.setG.retire
  · exact h.vop

theorem State.Keeps.perform {b host spec miss x} (h : σ.Keeps τ) : σ.Keeps (τ.perform b host spec miss x) := by
  simp only [State.perform]
  split
  · exact h.setG.retire
  · exact h.setG.retire
  · exact h.withLoad (fun h => h.setG.retire)
  · split
    · exact h.coreFault
    split
    · exact h.coreStore.retire
    · exact h.coreStore.stallCore
    · exact h.coreStore.coreFault
  · exact .ite h.predict.jumpTo h.predict.retire
  · exact h.setG.jumpTo
  · exact h.jumpTo
  · exact h.predict.setG.jumpTo
  · exact h.loopEnter
  · exact h.loopEnter
  · exact h.modCore.retire
  · exact h.setG.retire
  · exact h.setRn.setG.owe.retire
  · exact h.sysOp
  · exact h.queOp
  · exact h.top

theorem State.Keeps.issue {b want host spec miss} (h : σ.Keeps τ) : σ.Keeps (τ.issue b want host spec miss) := by
  simp only [State.issue]
  split
  · exact h
  split
  · exact h.coreHalt
  split
  · exact h.coreFault
  split
  · exact h.coreBreak
  split
  · exact h.fetch.coreFault
  split
  · exact h.fetch.plainFault
  split
  · exact h.fetch.perform
  · exact .ite h.fetch.perform h

theorem State.Keeps.lineEcc {b va e} (h : σ.Keeps τ) : σ.Keeps (τ.lineEcc b va e) := by
  simp only [State.lineEcc]
  split
  · exact h
  · exact h.benchError
  split
  · exact h
  split
  · exact .ite h.setL2.modCore h.setL2.benchError
  · exact h

/-! ### BARs, the monitor and submitted claims -/

theorem State.Keeps.reportError {error} (h : σ.Keeps τ) : σ.Keeps (τ.reportError error) := .emit (h.same)

theorem State.Keeps.barRead {i o n} (h : σ.Keeps τ) : σ.Keeps (barRead τ i o n) := by
  simp only [Machine.barRead]
  split
  · exact h
  split
  · exact h.emit
  split
  · exact .ite h.addReg.regRead.emit h.addReg.emit
  split
  · exact h.addReg.emit
  · exact h.addReg.addReg.emit.reportError

theorem State.Keeps.barWrite {i o d} (h : σ.Keeps τ) : σ.Keeps (barWrite τ i o d) :=
  .ite h (.ite (.ite h.addReg.regWrite h.addReg) h.addReg.write)

theorem State.Keeps.monRd {a} (h : σ.Keeps τ) : σ.Keeps (monRd τ a) := by
  simp only [Machine.monRd]
  refine h.monService (fun h => ?_)
  split
  · exact h.regRead.print
  split
  · exact h.print
  · exact h.print

theorem State.Keeps.monWr {a v} (h : σ.Keeps τ) : σ.Keeps (monWr τ a v) := h.monService (fun h => .ite h.regWrite.print h.write.print)

theorem State.Keeps.streamClaim {bad} (h : σ.Keeps τ) : σ.Keeps (streamClaim τ bad) := by
  unfold Machine.streamClaim
  extract_lets s0
  have h0 : σ.Keeps s0 := by
    unfold s0
    split
    · exact h.claimUe
    · exact h
  split
  · exact h0
  dsimp only
  split
  · exact .rotClaimed (.decideClaim (h0.same))
  · exact .coreClaimed (.decideClaim (h0.same))
  · exact .updClaimed (.decideClaim (h0.same))
  · exact .collClaimed (.decideClaim (h0.same))

theorem State.Keeps.deferredAdd {q} (h : σ.Keeps τ) : σ.Keeps (deferredAdd τ q) := by
  simp only [Machine.deferredAdd]
  split
  · exact h.benchSigAdd
  · exact h.muSigAdd
  · exact h.crSigAdd
  · exact h.dkSigAdd
  · exact h.ueSigAdd
  · exact h.clSigAdd

theorem State.Keeps.runRow {r} (h : σ.Keeps τ) : σ.Keeps (runRow τ r) := by
  simp only [Machine.runRow]
  split
  · exact h.run.captureRun
  · exact h.run

theorem State.Keeps.benchTick {b} (h : σ.Keeps τ) : σ.Keeps (τ.benchTick b) :=
  .ite h (.addReg (.fold (fun h => h.addReg) h.addReg.addReg.addReg.modDk.modDk.modCore))

theorem State.Keeps.portTick {p} (h : σ.Keeps τ) : σ.Keeps (τ.portTick p) := .ite h.addReg h

theorem State.Keeps.tick (h : σ.Keeps τ) : σ.Keeps τ.tick :=
  .mgmtTick (.same (.fold (fun h => h.portTick) (.ite (.fold (fun h => h.benchTick) h.draw.modPwr) h.draw.modPwr)))

end Keeping

/-! ### Every command -/

theorem exec_keeps (i : Instr) (s : State) : ∃ t, exec i s = .next t ∧ s.Keeps t :=
  have h := State.Keeps.refl s
  match i with
  | .registerWrite .. => ⟨_, rfl, h.registerWrite⟩
  | .benchNop .. => ⟨_, rfl, h.benchNop⟩
  | .tile .. => ⟨_, rfl, h.tile⟩
  | .benchSyncWait .. => ⟨_, rfl, h.benchSyncWait⟩
  | .benchSyncSignal .. => ⟨_, rfl, h.benchSyncSignal⟩
  | .deferredSignalAdd .. => ⟨_, rfl, h.deferredAdd⟩
  | .setreg .. => ⟨_, rfl, h.setregCommand⟩
  | .benchCommit .. => ⟨_, rfl, h.benchCommit⟩
  | .benchHalt .. => ⟨_, rfl, h.benchHaltCmd⟩
  | .bnCommitGo .. => ⟨_, rfl, h.commitGo⟩
  | .commitCopy .. => ⟨_, rfl, h.commitCopy⟩
  | .bnResume .. => ⟨_, rfl, h.bnResume⟩
  | .bnSkip .. => ⟨_, rfl, h.bnSkip⟩
  | .bnHaltReq .. => ⟨_, rfl, h.bnHaltReq⟩
  | .bnCntClr .. => ⟨_, rfl, h.bnCntClr⟩
  | .bnFlagsClear .. => ⟨_, rfl, h.bnFlagsClear⟩
  | .bnFlagsRcRead .. => ⟨_, rfl, h.bnFlagsRcRead⟩
  | .beatEntry .. => ⟨_, rfl, h.beatEntry⟩
  | .tileFaultPoisonDone .. => ⟨_, rfl, h.poisonDone⟩
  | .partialReadReturn .. => ⟨_, rfl, h.partialReturn⟩
  | .rowFinal .. => ⟨_, rfl, h.rowFinal⟩
  | .partTimeout .. => ⟨_, rfl, h.partTimeout⟩
  | .autosplitSpill .. => ⟨_, rfl, h.autosplitSpill⟩
  | .tableBuild .. => ⟨_, rfl, h.tableBuild⟩
  | .localStoreWrite .. => ⟨_, rfl, h.storeWrite⟩
  | .drainDescriptorArrival .. => ⟨_, rfl, h.drainArrive⟩
  | .dresserRow .. => ⟨_, rfl, h.dresserRow⟩
  | .tileStatusWrite .. => ⟨_, rfl, h.tileStatus⟩
  | .drTableWrite .. => ⟨_, rfl, h.drTableWrite⟩
  | .drCntClr .. => ⟨_, rfl, h.drCntClr⟩
  | .muNop .. => ⟨_, rfl, h.muNop⟩
  | .muSyncWait .. => ⟨_, rfl, h.muSyncWait⟩
  | .muSyncSignal .. => ⟨_, rfl, h.muSyncSignal⟩
  | .mm .. => ⟨_, rfl, h.mm⟩
  | .red .. => ⟨_, rfl, h.red⟩
  | .masonCommandDone .. => ⟨_, rfl, h.masonDone⟩
  | .muResume .. => ⟨_, rfl, h.muResume⟩
  | .muSkip .. => ⟨_, rfl, h.muSkip⟩
  | .muCntClr .. => ⟨_, rfl, h.muCntClr⟩
  | .muPassesWrite .. => ⟨_, rfl, h.muPassesWrite⟩
  | .spKeyLoad => ⟨_, rfl, h.spKeyLoad⟩
  | .streamClaim .. => ⟨_, rfl, h.streamClaim⟩
  | .spRetire .. => ⟨_, rfl, h.retireClaims⟩
  | .spClaimsRead => ⟨_, rfl, h.spClaimsRead⟩
  | .spRefusedRead => ⟨_, rfl, h.spRefusedRead⟩
  | .crNop .. => ⟨_, rfl, h.crNop⟩
  | .crSyncWait .. => ⟨_, rfl, h.crSyncWait⟩
  | .crSyncSignal .. => ⟨_, rfl, h.crSyncSignal⟩
  | .rot .. => ⟨_, rfl, h.rot⟩
  | .rotBlock .. => ⟨_, rfl, h.rotBlock⟩
  | .crResume .. => ⟨_, rfl, h.crResume⟩
  | .crSkip .. => ⟨_, rfl, h.crSkip⟩
  | .crCntClr .. => ⟨_, rfl, h.crCntClr⟩
  | .register .. => ⟨_, rfl, h.vtIssue fun h => h.vtRegister⟩
  | .deregister .. => ⟨_, rfl, (State.Keeps.ite h.vtUe h).vtIssue fun h => h.vtDeregister⟩
  | .pinCurrent .. => ⟨_, rfl, (State.Keeps.ite h.vtUe h).vtIssue fun h => h.vtPinCurrent⟩
  | .pinStep .. => ⟨_, rfl, (State.Keeps.ite h.vtUe h).vtIssue fun h => h.vtPinStep⟩
  | .pinToken .. => ⟨_, rfl, (State.Keeps.ite h.vtUe h).vtIssue fun h => h.vtPinToken⟩
  | .unpin .. => ⟨_, rfl, (State.Keeps.ite h.vtUe h).vtIssue fun h => h.vtUnpin⟩
  | .vtSlotAcquire .. => ⟨_, rfl, h.slotAcquire⟩
  | .versionExhausted .. => ⟨_, rfl, h.versionExhausted⟩
  | .ueVtSelWrite .. => ⟨_, rfl, h.vtSelWrite⟩
  | .ueVtCfgWrite .. => ⟨_, rfl, h.vtCfgWrite⟩
  | .ueNop .. => ⟨_, rfl, h.ueNop⟩
  | .ueSyncWait .. => ⟨_, rfl, h.ueSyncWait⟩
  | .ueSyncSignal .. => ⟨_, rfl, h.ueSyncSignal⟩
  | .update .. => ⟨_, rfl, h.update⟩
  | .updateSweep .. => ⟨_, rfl, h.updateSweep⟩
  | .mark .. => ⟨_, rfl, h.mark⟩
  | .ueResume .. => ⟨_, rfl, h.ueResume⟩
  | .ueSkip .. => ⟨_, rfl, h.ueSkip⟩
  | .ueCntClr .. => ⟨_, rfl, h.ueCntClr⟩
  | .addWrite .. => ⟨_, rfl, .ite h.write h⟩
  | .atmZero .. => ⟨_, rfl, .ite h.atmZero h⟩
  | .atmClearDone .. => ⟨_, rfl, h.atmClearDone⟩
  | .prepareRequest .. => ⟨_, rfl, h.prepareRequest⟩
  | .voteSend => ⟨_, rfl, h.voteSend⟩
  | .voteRepeat => ⟨_, rfl, h.voteRepeat⟩
  | .cmVote => ⟨_, rfl, h.cmVote⟩
  | .ptimeoutExpiry => ⟨_, rfl, h.ptimeoutExpiry⟩
  | .cmCommit => ⟨_, rfl, h.cmCommit⟩
  | .cmDiscard => ⟨_, rfl, h.cmDiscard⟩
  | .cmQuery => ⟨_, rfl, h.cmQuery⟩
  | .cmState => ⟨_, rfl, h.cmStateMsg⟩
  | .commitTakeover => ⟨_, rfl, h.commitTakeover⟩
  | .decisionApply => ⟨_, rfl, h.decisionApply⟩
  | .mmInval .. => ⟨_, rfl, h.mmInval⟩
  | .mmInvalDone => ⟨_, rfl, h.mmInvalDone⟩
  | .stackAccess .. => ⟨_, rfl, h.stackAccess⟩
  | .stockyardAccess .. => ⟨_, rfl, h.yardAccess⟩
  | .patrolScrub .. => ⟨_, rfl, h.patrolScrub⟩
  | .ueSeamSelWrite .. => ⟨_, rfl, .ite h.seamSelWrite h⟩
  | .sySelWrite .. => ⟨_, rfl, h.sySelWrite⟩
  | .arbitrationDecision .. => ⟨_, rfl, h.arbDecide⟩
  | .hotBank .. => ⟨_, rfl, h.hotBank⟩
  | .dkNop .. => ⟨_, rfl, h.dkNop⟩
  | .dkSyncWait .. => ⟨_, rfl, h.dkSyncWait⟩
  | .dkSyncSignal .. => ⟨_, rfl, h.dkSyncSignal⟩
  | .copy .. | .fill .. | .slotfill .. | .plane .. => ⟨_, rfl, h.dkStart⟩
  | .derrickRequest .. => ⟨_, rfl, h.derrickRequest⟩
  | .runAheadRead .. => ⟨_, rfl, h.runAhead⟩
  | .slotWrite .. => ⟨_, rfl, h.slotWrite⟩
  | .descriptorComplete .. => ⟨_, rfl, h.descComplete⟩
  | .dkResume .. => ⟨_, rfl, h.dkResume⟩
  | .dkSkip .. => ⟨_, rfl, h.dkSkip⟩
  | .dkCntClr .. => ⟨_, rfl, h.dkCntClr⟩
  | .load .. => ⟨_, rfl, h.load⟩
  | .run .. => ⟨_, rfl, h.runRow⟩
  | .unload .. => ⟨_, rfl, h.unload⟩
  | .ctx .. => ⟨_, rfl, h.ctxCmd⟩
  | .ringWait .. => ⟨_, rfl, h.ringWait⟩
  | .ringSignal .. => ⟨_, rfl, h.ringSignal⟩
  | .edAdd .. | .edSub .. | .edAnd .. | .edOr .. | .edXor .. | .edSll .. | .edSrl .. | .edSra .. | .edMul .. | .edMulhu .. | .edDivu .. |
    .edRemu .. | .edDiv .. | .edRem .. | .edSlt .. | .edSltu .. | .edMin .. | .edMax .. | .edAddi .. | .edAndi .. | .edOri .. | .edXori .. |
    .edSlli .. | .edSrli .. | .edSrai .. | .edLui .. | .edShlori .. | .edSlti .. | .edLd8u .. | .edLd16u .. | .edLd32u .. => ⟨_, rfl, h.issue⟩
  | .edLd64 .. => ⟨_, rfl, h.lineEcc.issue⟩
  | .edLd8s .. | .edLd16s .. | .edLd32s .. | .edSt8 .. | .edSt16 .. | .edSt32 .. | .edSt64 .. | .edBeq .. | .edBne .. | .edBlt .. |
    .edBge .. | .edBltu .. | .edBgeu .. | .edJal .. | .edJ .. | .edJr .. | .edLoop .. | .edLoopi .. | .edLcset .. | .edLcget .. |
    .edFadd .. | .edFsub .. | .edFmul .. | .edFdiv .. | .edFsqrt .. | .edFrsqrt .. | .edFlog2 .. | .edFexp2 .. | .edFma .. |
    .edFmaximum .. | .edFminimum .. | .edFmaximumNumber .. | .edFminimumNumber .. | .edFequal .. | .edFnotEqual .. | .edFless .. |
    .edFlessEqual .. | .edFgreater .. | .edFgreaterEqual .. | .edFunordered .. | .edFcvtis .. | .edFcvtsi .. | .edFtotal .. | .edFrem .. |
    .edFence .. | .edDclean .. | .edDinv .. | .edIinv .. | .edEnd .. | .edBrk .. | .edRdcyc .. | .edNop .. | .edPush .. | .edPushm .. |
    .edQfree .. | .edSsig .. | .edSwait .. | .edSread .. | .edSset .. | .edPhase .. => ⟨_, rfl, h.issue⟩
  | .phaseMarkTaken .. => ⟨_, rfl, h.phaseMark⟩
  | .edSclaim .. | .edRnd .. | .edVop .. | .edTop .. => ⟨_, rfl, h.issue⟩
  | .gangHalt .. => ⟨_, rfl, h.gangHalt⟩
  | .ccResume .. => ⟨_, rfl, h.ccResume⟩
  | .ccStep .. => ⟨_, rfl, .ite h.ccStepArm.issue h⟩
  | .ccHaltReq .. => ⟨_, rfl, h.ccHaltReq⟩
  | .ccCntClr .. => ⟨_, rfl, h.ccCntClr⟩
  | .ccSyncWrite .. => ⟨_, rfl, .ite h h.ccSyncWrite⟩
  | .idleFlit .. => ⟨_, rfl, h.idleFlit⟩
  | .dataFlit .. => ⟨_, rfl, h.dataFlit⟩
  | .escapeWaitExpiry .. => ⟨_, rfl, h.escapeExpiry⟩
  | .nak .. => ⟨_, rfl, h.nakFlit⟩
  | .heartbeatFlit .. => ⟨_, rfl, h.heartbeatFlit⟩
  | .admitLink .. => ⟨_, rfl, h.admitFlit⟩
  | .revoke .. => ⟨_, rfl, h.revokeFlit⟩
  | .readReq => ⟨_, rfl, h.readReq⟩
  | .readRsp => ⟨_, rfl, h.readRsp⟩
  | .write => ⟨_, rfl, h.writeReq⟩
  | .writeAck => ⟨_, rfl, h.writeAck⟩
  | .refuse => ⟨_, rfl, h.refuseFlit⟩
  | .mgmt => ⟨_, rfl, h.mgmtFlit⟩
  | .e2eAck => ⟨_, rfl, h.e2eAck⟩
  | .e2eTimeout .. => ⟨_, rfl, h.e2eTimeout⟩
  | .e2eAckTimer .. => ⟨_, rfl, h.e2eAckTimer⟩
  | .rspTimeout .. => ⟨_, rfl, h.rspTimeout⟩
  | .lkEnable .. => ⟨_, rfl, h.lkEnable⟩
  | .trainComplete .. => ⟨_, rfl, h.trainComplete⟩
  | .trainTimeout .. => ⟨_, rfl, h.trainTimeout⟩
  | .trainRetry .. => ⟨_, rfl, h.trainRetry⟩
  | .identFrame .. => ⟨_, rfl, h.identFrame⟩
  | .laneError .. => ⟨_, rfl, h.laneError⟩
  | .retrainComplete .. => ⟨_, rfl, h.retrainComplete⟩
  | .retrainTimeout .. => ⟨_, rfl, h.retrainTimeout⟩
  | .lkRetrain .. => ⟨_, rfl, h.lkRetrain⟩
  | .lkCntClr .. => ⟨_, rfl, h.lkCntClr⟩
  | .lkAdmit .. => ⟨_, rfl, h.lkAdmit⟩
  | .heartbeatTimer .. => ⟨_, rfl, h.heartbeatTimer⟩
  | .partnerLost .. => ⟨_, rfl, h.partnerLost⟩
  | .suspect .. => ⟨_, rfl, h.suspectMsg⟩
  | .probe .. => ⟨_, rfl, h.probeMsg⟩
  | .probeAck .. => ⟨_, rfl, h.probeAckMsg⟩
  | .probeTimeout => ⟨_, rfl, h.probeTimeout⟩
  | .stage .. => ⟨_, rfl, h.stageMsg⟩
  | .staged .. => ⟨_, rfl, h.stagedMsg⟩
  | .notStaged .. => ⟨_, rfl, h.notStagedMsg⟩
  | .stageTimeout => ⟨_, rfl, h.stageTimeout⟩
  | .switch .. => ⟨_, rfl, h.switchMsg⟩
  | .abort .. => ⟨_, rfl, h.abortMsg⟩
  | .memberQuery .. => ⟨_, rfl, h.memberQuery⟩
  | .memberState .. => ⟨_, rfl, h.memberState⟩
  | .join .. => ⟨_, rfl, h.joinMsg⟩
  | .joinBatchExpiry => ⟨_, rfl, h.joinBatch⟩
  | .challenge .. => ⟨_, rfl, h.challengeMsg⟩
  | .memberResponse .. => ⟨_, rfl, h.memberResponse⟩
  | .joinRetry => ⟨_, rfl, h.joinRetry⟩
  | .memberDigest .. => ⟨_, rfl, h.memberDigest⟩
  | .clNop .. => ⟨_, rfl, h.clNop⟩
  | .clSyncWait .. => ⟨_, rfl, h.clSyncWait⟩
  | .clSyncSignal .. => ⟨_, rfl, h.clSyncSignal⟩
  | .coll .. => ⟨_, rfl, h.coll⟩
  | .collFlit => ⟨_, rfl, h.collFlitIn⟩
  | .chunkCombine .. => ⟨_, rfl, h.chunkCombine⟩
  | .patienceExpiry .. => ⟨_, rfl, h.patienceExpiry⟩
  | .collComplete .. => ⟨_, rfl, h.collComplete⟩
  | .tallyExchangeStart none => ⟨_, rfl, h.tallyStart⟩
  | .tallyExchangeStart (some _) => ⟨_, rfl, h.tallyUe.tallyStart⟩
  | .tpatienceExpiry => ⟨_, rfl, h.tallyExpiry⟩
  | .clResume .. => ⟨_, rfl, h.clResume⟩
  | .clSkip .. => ⟨_, rfl, h.clSkip⟩
  | .clCntClr .. => ⟨_, rfl, h.clCntClr⟩
  | .clTallySelWrite .. => ⟨_, rfl, h.tallySelWrite⟩
  | .clTallyFind .. => ⟨_, rfl, h.tallyFind⟩
  | .clTallyRetire .. => ⟨_, rfl, h.tallyRetire⟩
  | .configRequest .. => ⟨_, rfl, h.configRequest⟩
  | .barRead .. => ⟨_, rfl, h.barRead⟩
  | .barWrite .. => ⟨_, rfl, h.barWrite⟩
  | .hxDb .. => ⟨_, rfl, h.hxDb⟩
  | .ringFetch .. => ⟨_, rfl, h.ringFetch⟩
  | .ringEntryComplete .. => ⟨_, rfl, h.ringComplete⟩
  | .hxRbCfgWrite .. => ⟨_, rfl, h.hxRbCfg⟩
  | .hxCntClr => ⟨_, rfl, h.hxCntClr⟩
  | .msixModExpiry .. => ⟨_, rfl, h.msixModExpiry⟩
  | .msixUnmask .. => ⟨_, rfl, h.msixUnmask⟩
  | .functionLevelReset => ⟨_, rfl, h.functionReset⟩
  | .perstN => ⟨_, rfl, h.perstN⟩
  | .getInfo .. => ⟨_, rfl, h.getInfo⟩
  | .powerSet .. => ⟨_, rfl, h.powerSet⟩
  | .profileStore .. => ⟨_, rfl, h.profileStore⟩
  | .mbReset .. => ⟨_, rfl, h.mbReset⟩
  | .mbFence .. => ⟨_, rfl, h.mbFence⟩
  | .memberStatus .. => ⟨_, rfl, h.memberStatus⟩
  | .configStage .. => ⟨_, rfl, h.configStage⟩
  | .leave .. => ⟨_, rfl, h.leave⟩
  | .rejoin .. => ⟨_, rfl, h.rejoin⟩
  | .sensors .. => ⟨_, rfl, h.sensors⟩
  | .logRead .. => ⟨_, rfl, h.logRead⟩
  | .logFlush .. => ⟨_, rfl, h.logFlush⟩
  | .logFlashRead .. => ⟨_, rfl, h.logFlashRead⟩
  | .fwStage .. => ⟨_, rfl, h.fwStage⟩
  | .fwStagePeer .. => ⟨_, rfl, h.fwStagePeer⟩
  | .fwActivate .. => ⟨_, rfl, h.fwActivate⟩
  | .fwConfirm .. => ⟨_, rfl, h.fwConfirm⟩
  | .fwStatus .. => ⟨_, rfl, h.fwStatus⟩
  | .attest .. => ⟨_, rfl, h.attest⟩
  | .certs .. => ⟨_, rfl, h.certs⟩
  | .certInstall .. => ⟨_, rfl, h.certInstall⟩
  | .lifecycle .. => ⟨_, rfl, h.lifecycleCmd⟩
  | .mailboxDone .. => ⟨_, rfl, h.mailboxDone⟩
  | .monId => ⟨_, rfl, h.powered fun h => h.monId⟩
  | .monStatus => ⟨_, rfl, h.powered fun h => h.monStatus⟩
  | .monLog .. => ⟨_, rfl, h.powered fun h => h.monLog⟩
  | .monSens => ⟨_, rfl, h.powered fun h => h.monSens⟩
  | .monFwload .. => ⟨_, rfl, h.powered fun h => h.monFwload⟩
  | .monBoot .. => ⟨_, rfl, h.powered fun h => h.monBoot⟩
  | .monReset .. => ⟨_, rfl, h.powered fun h => h.monReset⟩
  | .monUnlock => ⟨_, rfl, h.powered fun h => h.monUnlock⟩
  | .monResp .. => ⟨_, rfl, h.powered fun h => h.monResp⟩
  | .monRd .. => ⟨_, rfl, h.powered fun h => h.monRd⟩
  | .monWr .. => ⟨_, rfl, h.powered fun h => h.monWr⟩
  | .monFuses => ⟨_, rfl, h.powered fun h => h.monFuses⟩
  | .monTest .. => ⟨_, rfl, h.powered fun h => h.monTest⟩
  | .monLock => ⟨_, rfl, h.powered fun h => h.monLock⟩
  | .monLc .. => ⟨_, rfl, h.powered fun h => h.monLc⟩
  | .sensorSample .. => ⟨_, rfl, h.powered fun h => h.sensorSample⟩
  | .throttleEnd .. => ⟨_, rfl, h.powered fun h => h.throttleEnd⟩
  | .ghWbTempRead .. => ⟨_, rfl, h.wbTempRead⟩
  | .ghWbVoltRead .. => ⟨_, rfl, h.wbVoltRead⟩
  | .ghWbCurrRead .. => ⟨_, rfl, h.wbCurrRead⟩
  | .ghPhaseCfgWrite .. => ⟨_, rfl, h.phaseCfgWrite⟩
  | .ghWatchdog => ⟨_, rfl, h.ghWatchdog⟩
  | .clampTick .. => ⟨_, rfl, h.powered fun h => h.clampTick⟩
  | .powerClampUnmet => ⟨_, rfl, h.powered fun h => h.clampUnmet⟩
  | .railOvercurrent .. => ⟨_, rfl, h.powered fun h => h.railOver⟩
  | .pwClampWrite .. => ⟨_, rfl, h.pwClampWrite⟩
  | .pwThermWrite .. => ⟨_, rfl, h.pwThermWrite⟩
  | .thermalTrip .. => ⟨_, rfl, h.thermalTrip⟩
  | .mainPowerFail .. => ⟨_, rfl, h.mainFail⟩
  | .mainPowerRestored => ⟨_, rfl, h.mainRestored⟩
  | .auxPowerLoss => ⟨_, rfl, h.auxLoss⟩
  | .auxPowerOn .. => ⟨_, rfl, h.auxOn⟩
  | .domainFault .. => ⟨_, rfl, h.domainFault⟩
  | .refLost .. => ⟨_, rfl, h.refLost⟩
  | .refRestored => ⟨_, rfl, h.refRestored⟩
  | .modRstN .. => ⟨_, rfl, h.modRstN⟩
  | .startStage1 .. => ⟨_, rfl, h.startStage1⟩
  | .startStage2 .. => ⟨_, rfl, h.startStage2⟩
  | .startStage3 .. => ⟨_, rfl, h.startStage3⟩
  | .startStage4 .. => ⟨_, rfl, h.startStage4⟩
  | .startStage5 .. => ⟨_, rfl, h.startStage5⟩
  | .startStage6 .. => ⟨_, rfl, h.startStage6⟩
  | .startRelease => ⟨_, rfl, h.startRelease⟩
  | .residueMismatch .. => ⟨_, rfl, h.residueMismatch⟩
  | .benchUncorrectable .. => ⟨_, rfl, h.benchError⟩
  | .fenceComplete .. => ⟨_, rfl, h.fenceComplete⟩
  | .bridgeFlit .. => ⟨_, rfl, h.bridgeFlit⟩
  | .bridgeRetry => ⟨_, rfl, h.bridgeRetry⟩
  | .bankCools .. => ⟨_, rfl, h.bankCools⟩
  | .hostLinkUp .. => ⟨_, rfl, h.hostLinkUp⟩
  | .gatehouseFirmwareSramUncorrectable => ⟨_, rfl, h.ghSramError⟩
  | .runningImageRequest .. => ⟨_, rfl, h.runningImage⟩
  | .bridgeRetrained => ⟨_, rfl, h.bridgeRetrained⟩

theorem step_canonical {s t : State} (c : s.canonical = true) (e : step s = .next t) : t.canonical = true := by
  unfold step at e
  split at e
  · obtain rfl := Host.Outcome.next.inj e
    exact (State.Keeps.refl s).tick.2 c
  next i rest _ =>
    obtain ⟨u, hu, -, hc⟩ := exec_keeps i { s with pending := rest }
    obtain rfl := Host.Outcome.next.inj (hu.symm.trans e)
    exact hc c

/-- Settles O58: every operation of the model keeps the canonical form (`State.Keeps`), so every command does, and so does the core cycle of an
empty queue. -/
theorem stepKeepsCanonical : Obligations.StepKeepsCanonical := fun _ _ => step_canonical

end Sys2Proof.Machine

namespace Sys2Proof.Machine

/-! ## What the host's accesses do (R239, R360 to R363) -/

/-! ### Configuration requests (R361) -/

section ConfigRequests
variable {s : State} {op : CfgOp} {vis : Bool}

theorem exec_configRequest : exec (.configRequest op vis) s = .next (configRequest s op vis) := rfl

theorem configRequest_of_link_down (up : s.pci.up = false) : configRequest s op vis = s := by simp [configRequest, up]

theorem configRequest_before_release (up : s.pci.up = true) (rel : s.released = false) :
    configRequest s op vis = s.emit (.cfgReply true (if vis = true ∧ op = .readId then 1 else 0)) := by
  simp [configRequest, up, rel]

variable (up : s.pci.up = true) (rel : s.released = true)
include up rel

/-- BAR4 offers the sizes 2^10 to 2^19 MiB, bit 4 + n for 2^n MiB. -/
theorem configRequest_readBarSizes : configRequest s .readBarSizes vis = s.emit (.cfgReply false (2 ^ 24 - 2 ^ 14)) := by
  have sizes : (List.range 10).foldl (fun a n => a + 2 ^ (14 + n)) 0 = 2 ^ 24 - 2 ^ 14 := by decide
  simp [configRequest, up, rel, sizes]

/-- BAR0 is aligned to its 64 MiB. -/
theorem configRequest_writeBar0 (a : Nat) : configRequest s (.writeBar 0 a) vis =
    ({ s with pci := { s.pci with bars := s.pci.bars.set 0 (a % 2 ^ 64 - a % 2 ^ 26) } } : State).emit (.cfgReply false 0) := by
  have aligned : a % 2 ^ 64 / 2 ^ 26 * 2 ^ 26 = a % 2 ^ 64 - a % 2 ^ 26 := by omega
  simp only [configRequest, up, rel, Bool.not_true, Bool.false_eq_true, if_false, aligned]
  rfl

theorem configRequest_writeBar4Size {k : Nat} (low : 30 ≤ k) (high : k ≤ 39) : configRequest s (.writeBar4Size k) vis =
    ({ s with pci := { s.pci with bar4k := k } } : State).emit (.cfgReply false 0) := by
  simp [configRequest, up, rel, low, high]

theorem configRequest_writeBar4Size_outside {k : Nat} (out : k < 30 ∨ 39 < k) : configRequest s (.writeBar4Size k) vis = s.emit (.cfgReply false 0) := by
  have : ¬(30 ≤ k ∧ k ≤ 39) := by omega
  simp [configRequest, up, rel, this]

theorem configRequest_writeDevice {m r : Nat} (hm : m ≤ 2) (hr : r ≤ 5) : configRequest s (.writeDevice m r) vis =
    ({ s with pci := { s.pci with mps := m, mrrs := r } } : State).emit (.cfgReply false 0) := by
  simp [configRequest, up, rel, hm, hr]

end ConfigRequests

/-! ### BAR accesses (R362, R363) -/

section Bars
variable {s : State} {i : Fin 3} {o n : Nat} {d : Bytes}

theorem barRead_of_link_down (up : s.pci.up = false) : barRead s i o n = s := by simp [barRead, up]
theorem barWrite_of_link_down (up : s.pci.up = false) : barWrite s i o d = s := by simp [barWrite, up]

theorem State.barOpen_eq_true (rel : s.released = true) (en : s.pci.memEn = true) (d0 : s.pci.d3 = false) : s.barOpen = true := by
  simp [State.barOpen, rel, en, d0]

theorem bar2_shut {k : Nat} (h : s.released = false ∨ s.pci.memEn = false ∨ s.pci.d3 = true ∨ 2 ^ 29 < k) :
    (!s.barOpen || decide (s.barSize 1 < k)) = true := by
  rcases h with h | h | h | h
  · simp [State.barOpen, h]
  · simp [State.barOpen, h]
  · simp [State.barOpen, h]
  · have size : s.barSize 1 < k := h
    simp [size]

theorem barRead_unsupported (up : s.pci.up = true) (h : s.released = false ∨ s.pci.memEn = false ∨ s.pci.d3 = true ∨ 2 ^ 29 < o + n) :
    barRead s 1 o n = s.emit (.barReply true false []) := by
  simp only [barRead, up, bar2_shut h, Bool.not_true, Bool.false_eq_true, if_false, if_true]

theorem barWrite_dropped (h : s.released = false ∨ s.pci.memEn = false ∨ s.pci.d3 = true ∨ 2 ^ 29 < o + d.length) : barWrite s 1 o d = s := by
  simp only [barWrite, Bool.or_assoc, bar2_shut h, Bool.or_true, if_true]

/-- Every address of BAR2's range of the stockyard is mapped, whatever the registers hold (R237). -/
theorem State.mapped_yard {a : Nat} (lo : 0x010000000000 ≤ a) (hi : a < 0x010020000000) : s.mapped a = true := by
  simp [State.mapped, isYard, lo, hi]

theorem isStore_yard {a : Nat} (hi : a < 0x010020000000) : isStore a = false := by
  simp only [isStore, Bool.and_eq_false_iff, decide_eq_false_iff_not]
  omega

theorem State.bytes_addReg {r k a : Nat} : (s.addReg r k).bytes a n = s.bytes a n := by
  induction n generalizing a with
  | zero => rfl
  | succ n ih => exact congrArg (s.byte a :: ·) ih

/-- A counter that goes up does not show in a read of the stockyard. -/
theorem State.badRead_addReg_yard {r k a : Nat} (lo : 0x010000000000 ≤ a) (hi : a + n ≤ 0x010020000000) (pos : 0 < n) :
    (s.addReg r k).badRead a n = s.badRead a n := by
  have mapped : ∀ t : State, t.mapped a = true ∧ t.mapped (a + n - 1) = true := fun t =>
    ⟨t.mapped_yard lo (by omega), t.mapped_yard (by omega) (by omega)⟩
  simp only [State.badRead, mapped]
  rfl

theorem State.read_yard {a : Nat} (hi : a + n ≤ 0x010020000000) (pos : 0 < n) : s.read a n = if s.badRead a n then none else some (s.bytes a n) := by
  simp [State.read, isStore_yard (a := a) (by omega)]

theorem read_bar2 {r k : Nat} (fits : o + n ≤ 2 ^ 29) (pos : 0 < n) :
    (s.addReg r k).read (0x010000000000 + o) n = if s.badRead (0x010000000000 + o) n then none else some (s.bytes (0x010000000000 + o) n) := by
  rw [State.read_yard (by omega) pos, State.badRead_addReg_yard (by omega) (by omega) pos, State.bytes_addReg]

section Open
variable (up : s.pci.up = true) (opened : s.barOpen = true)
include up opened

theorem barRead_bar2 (fits : o + n ≤ 2 ^ 29) (pos : 0 < n) (good : s.badRead (0x010000000000 + o) n = false) :
    barRead s 1 o n = (s.addReg (R.HX_COUNT 0) n).emit (.barReply false false (s.bytes (0x010000000000 + o) n)) := by
  have size : ¬s.barSize 1 < o + n := Nat.not_lt.2 fits
  simp [barRead, up, opened, size, State.barAddr, read_bar2 fits pos, good]

/-- A read that meets poison answers all ones with EP, and reports it. -/
theorem barRead_bar2_poisoned (fits : o + n ≤ 2 ^ 29) (pos : 0 < n) (bad : s.badRead (0x010000000000 + o) n = true) :
    barRead s 1 o n =
      (((s.addReg (R.HX_COUNT 0) n).addReg (R.HX_COUNT 3) 1).emit (.barReply false true (List.replicate n 0xFF))).reportError poisonError := by
  have size : ¬s.barSize 1 < o + n := Nat.not_lt.2 fits
  simp [barRead, up, opened, size, State.barAddr, read_bar2 fits pos, bad]

theorem barWrite_bar2 (fits : o + d.length ≤ 2 ^ 29) :
    barWrite s 1 o d = (s.addReg (R.HX_COUNT 1) d.length).write (0x010000000000 + o) d := by
  have size : ¬s.barSize 1 < o + d.length := Nat.not_lt.2 fits
  simp [barWrite, up, opened, size, State.barAddr]

/-- A read of BAR0 of another size than a register's counts its bytes and answers zeros. -/
theorem barRead_bar0_other_size (fits : o + n ≤ 2 ^ 26) (h4 : n ≠ 4) (h8 : n ≠ 8) :
    barRead s 0 o n = (s.addReg (R.HX_COUNT 0) n).emit (.barReply false false (List.replicate n 0)) := by
  have size : ¬s.barSize 0 < o + n := Nat.not_lt.2 fits
  simp [barRead, up, opened, size, h4, h8]

end Open
end Bars

/-! ### Register writes (R7, R8, R105, R239) -/

section RegisterWrites
variable {s : State} {a n v m : Nat}

theorem regAccess_eq_false (h : (n ≠ 4 ∧ n ≠ 8) ∨ a % n ≠ 0 ∨ isRegSpace a = false) : regAccess a n = false := by
  rcases h with ⟨h4, h8⟩ | h | h
  · simp [regAccess, h4, h8]
  · simp [regAccess, h]
  · simp [regAccess, h]

theorem regAccess_eq_true (size : n = 4 ∨ n = 8) (aligned : a % n = 0) (space : isRegSpace a = true) : regAccess a n = true := by
  simp [regAccess, size, aligned, space]

theorem registerWrite_ignored {host : Bool} (h : regAccess a n = false) : registerWrite s host a n v = s := by simp [registerWrite, h]

/-- Outside the mailboxes' request buffers a write reaches the register of its 8-byte address. -/
theorem registerWrite_register {host : Bool} (acc : regAccess a n = true) (outside : a < GH.base + 0x20000 ∨ GH.base + 0x40000 ≤ a) :
    registerWrite s host a n v = s.plainWrite host (a - a % 8) (accessMask a n) (v % 2 ^ (8 * n) * 2 ^ (8 * (a % 8))) := by
  have buffer : ¬(GH.base + 0x20000 ≤ a ∧ a < GH.base + 0x40000) := by omega
  simp only [registerWrite, acc, buffer, Bool.not_true, Bool.false_eq_true, if_false]

theorem State.plainWrite_eq_setRn {x : RegDef} (reg : regAt a = some x) (bench : BN.base 24 ≤ a)
    (stack : UE.base 0 ≤ a → a < UE.base 8 → s.stackUp ((a - UE.base 0) / 0x10000) = true) (doorbell : a < R.GH_MB_DB 0 ∨ R.GH_MB_DB 16 ≤ a)
    (msix : a < R.HX_MSIX_ENTRY 0 ∨ R.HX_MSIX_ENTRY 1024 ≤ a) : s.plainWrite true a m v = s.setRn a (x.written (s.rn a) m v) := by
  have noBench : ¬a < BN.base 24 := Nat.not_lt.2 bench
  have noStack : ¬(UE.base 0 ≤ a ∧ a < UE.base 8 ∧ (!s.stackUp ((a - UE.base 0) / 0x10000)) = true) := fun ⟨lo, hi, h⟩ => by simp [stack lo hi] at h
  have noDoorbell : ¬(R.GH_MB_DB 0 ≤ a ∧ a < R.GH_MB_DB 16) := by omega
  have noMsix : ¬(R.HX_MSIX_ENTRY 0 ≤ a ∧ a < R.HX_MSIX_ENTRY 1024) := by omega
  simp only [State.plainWrite, noBench, noStack, noDoorbell, noMsix, State.accessWrite, reg, Option.isNone_some, Bool.false_eq_true, if_false, if_true, ite_self]

/-- A written register takes the reached bits of its RW and RWS fields, and clears those of its W1C fields where a 1 is written. -/
theorem RegDef.testBit_written (x : RegDef) {i : Nat} (hi : i < 64) (old be y : Nat) : (x.written old be y).testBit i =
    ((if (x.rw.testBit i || x.rws.testBit i) && be.testBit i then y.testBit i else old.testBit i)
      && !(x.w1c.testBit i && be.testBit i && y.testBit i)) := by
  simp only [RegDef.written, BitVec.testBit_toNat, BitVec.getLsbD_and, BitVec.getLsbD_or, BitVec.getLsbD_not, BitVec.getLsbD_ofNat, hi, decide_true,
    Bool.true_and, Nat.testBit_or]
  cases (x.rw.testBit i || x.rws.testBit i) && be.testBit i <;> simp

/-- The stage bank of a 64-bit RWS register takes all 8 bytes. -/
theorem State.rwsWrite_wide {x : RegDef} (reg : regAt a = some x) (wide : 2 ^ 32 ≤ x.rws) : s.rwsWrite a (2 ^ 64 - 1) v = s.setRn a v := by
  have merged : mergeBits (s.rn a) (2 ^ 64 - 1) v = (BitVec.ofNat 64 v).toNat := by
    have all : BitVec.ofNat 64 (2 ^ 64 - 1) = BitVec.allOnes 64 := rfl
    simp only [mergeBits, all, BitVec.not_allOnes, BitVec.and_zero, BitVec.zero_or, BitVec.and_allOnes]
  have small : ¬x.rws < 2 ^ 32 := Nat.not_lt.2 wide
  simp only [State.rwsWrite, reg, small, if_false, merged, State.setRn, BitVec.ofNat_toNat, BitVec.setWidth_eq]

theorem State.plainWrite_rws {host : Bool} {b : Fin 24} {o : Nat} (reg : (regAt (BN.base b + o)).isSome = true) (ho : o < 0x10000) (isRws : isRws o = true)
    (live : (s.bench b).out = false) : s.plainWrite host (BN.base b + o) m v = s.rwsWrite (BN.base b + o) m v := by
  have known : (regAt (BN.base b + o)).isNone = false := by simpa using reg
  have inBench : BN.base b + o < BN.base 24 := by simp only [BN.base]; omega
  have window : (BN.base b + o - BN.base 0) / 0x10000 = b := by simp only [BN.base]; omega
  have offset : (BN.base b + o - BN.base 0) % 0x10000 = o := by simp only [BN.base]; omega
  have bench : Fin.ofNat 24 b.val = b := Fin.ext (Nat.mod_eq_of_lt b.isLt)
  simp only [State.plainWrite, known, inBench, window, offset, bench, live, isRws, Bool.false_eq_true, if_false, if_true]

/-- A number whose bits lo to lo + n − 1 are another's. -/
theorem testBit_replaced (old v lo n i : Nat) : (2 ^ lo * (2 ^ n * (old / 2 ^ (lo + n)) + v / 2 ^ lo % 2 ^ n) + old % 2 ^ lo).testBit i =
    if lo ≤ i ∧ i < lo + n then v.testBit i else old.testBit i := by
  rw [Nat.testBit_two_pow_mul_add _ (Nat.mod_lt _ (Nat.two_pow_pos lo)), Nat.testBit_two_pow_mul_add _ (Nat.mod_lt _ (Nat.two_pow_pos n))]
  simp only [Nat.testBit_mod_two_pow, Nat.testBit_div_two_pow]
  by_cases below : i < lo
  · simp [below, Nat.not_le.2 below]
  by_cases inside : i - lo < n
  · have place : i - lo + lo = i := by omega
    have range : lo ≤ i ∧ i < lo + n := by omega
    simp [below, inside, place, range]
  · have place : i - lo - n + (lo + n) = i := by omega
    have range : ¬(lo ≤ i ∧ i < lo + n) := by omega
    simp [below, inside, place, range]

/-- The register of HX_BAR4_BASE has one RW field, bits 38 to 30 (R371). -/
theorem RegDef.written_bar4Base (old v : Nat) (h : old < 2 ^ 64) :
    RegDef.written ⟨0x10, 1, 8, 0x7fc0000000, 0, 0, 0⟩ old (2 ^ 64 - 1) v = bits v 38 30 * 2 ^ 30 + (old - bits old 38 30 * 2 ^ 30) := by
  have field : ∀ i < 64, Nat.testBit 0x7fc0000000 i = decide (30 ≤ i ∧ i < 30 + 9) := by decide
  have all : ∀ i < 64, Nat.testBit (2 ^ 64 - 1) i = true := by decide
  have sum : bits v 38 30 * 2 ^ 30 + (old - bits old 38 30 * 2 ^ 30) =
      2 ^ 30 * (2 ^ 9 * (old / 2 ^ (30 + 9)) + v / 2 ^ 30 % 2 ^ 9) + old % 2 ^ 30 := by
    simp only [bits, Nat.shiftRight_eq_div_pow]
    omega
  rw [sum]
  refine Nat.eq_of_testBit_eq fun i => ?_
  rw [testBit_replaced]
  by_cases hi : i < 64
  · rw [RegDef.testBit_written _ hi, field i hi, all i hi]
    simp
  · have high : ∀ k : Nat, k < 2 ^ 64 → k.testBit i = false := fun k hk =>
      Nat.testBit_lt_two_pow (Nat.lt_of_lt_of_le hk (Nat.pow_le_pow_right (by decide) (Nat.not_lt.1 hi)))
    have range : ¬(30 ≤ i ∧ i < 30 + 9) := by omega
    rw [if_neg range, high old h]
    exact high _ (BitVec.isLt _)

end RegisterWrites

/-! ### The link (R360) -/

section Link
variable {s : State} {speed width : Nat}

theorem hostLinkUp_trains (hs : speed = 4 ∨ speed = 5 ∨ speed = 6) (hw : width = 2 ∨ width = 3) (domain : s.rbit R.PW_DOMAIN 34 = true) :
    hostLinkUp s speed width = ({ s with pci := { s.pci with up := true } } : State).setRn R.HX_LINK (256 + speed * 16 + width) :=
  if_pos ⟨hs, hw, domain⟩

theorem hostLinkUp_refused (h : speed < 4 ∨ 6 < speed ∨ width < 2 ∨ 3 < width) : hostLinkUp s speed width = s :=
  if_neg fun ⟨hs, hw, _⟩ => by omega

end Link

/-! ### The clauses of HostAccesses that are more than one branch -/

section Clauses
variable {s : State} {a n v : Nat}

theorem registerWrite_access {x : RegDef} (reg : regAt (a - a % 8) = some x) (size : n = 4 ∨ n = 8) (aligned : a % n = 0) (space : isRegSpace a = true)
    (buffer : a < GH.base + 0x20000 ∨ GH.base + 0x40000 ≤ a) (bench : BN.base 24 ≤ a - a % 8)
    (stack : UE.base 0 ≤ a - a % 8 → a - a % 8 < UE.base 8 → s.stackUp ((a - a % 8 - UE.base 0) / 0x10000) = true)
    (doorbell : a - a % 8 < R.GH_MB_DB 0 ∨ R.GH_MB_DB 16 ≤ a - a % 8) (msix : a - a % 8 < R.HX_MSIX_ENTRY 0 ∨ R.HX_MSIX_ENTRY 1024 ≤ a - a % 8) :
    registerWrite s true a n v =
      s.setRn (a - a % 8) (x.written (s.rn (a - a % 8)) (accessMask a n) (v % 2 ^ (8 * n) * 2 ^ (8 * (a % 8)))) := by
  rw [registerWrite_register (regAccess_eq_true size aligned space) buffer, State.plainWrite_eq_setRn reg bench stack doorbell msix]

/-- The 64-bit RWS registers of a bench window: the bases of its sequencer (R105). -/
theorem regAt_wide_stage : ∀ b : Fin 24, ∀ f ∈ [0x110, 0x118, 0x120, 0x128],
    regAt (BN.base b + f) = some ⟨f, 1, 8, 0, 0xffffffffffc0, 0, 0⟩ := by decide +kernel

/-- A write of 8 bytes. -/
theorem registerWrite_whole {host : Bool} (aligned : a % 8 = 0) (space : isRegSpace a = true) (buffer : a < GH.base + 0x20000 ∨ GH.base + 0x40000 ≤ a) :
    registerWrite s host a 8 v = s.plainWrite host a (2 ^ 64 - 1) (v % 2 ^ 64) := by
  rw [registerWrite_register (regAccess_eq_true (.inr rfl) aligned space) buffer]
  simp only [aligned, Nat.sub_zero, Nat.mul_zero, Nat.pow_zero, Nat.mul_one]
  rfl

theorem registerWrite_stage {b : Fin 24} {f : Nat} (hf : f ∈ [0x110, 0x118, 0x120, 0x128]) (live : (s.bench b).out = false) :
    registerWrite s true (BN.base b + f) 8 v = s.setRn (BN.base b + f) (v % 2 ^ 64) := by
  have place : ∀ f ∈ [0x110, 0x118, 0x120, 0x128], f < 0x10000 ∧ f % 8 = 0 ∧ isRws f = true := by decide
  obtain ⟨inWindow, aligned8, rws⟩ := place f hf
  have base : BN.base b = 0x020000000000 + 0x10000 * b.val := rfl
  have aligned : (BN.base b + f) % 8 = 0 := by omega
  have space : isRegSpace (BN.base b + f) = true := by simp only [isRegSpace, Bool.and_eq_true, decide_eq_true_eq]; omega
  have buffer : BN.base b + f < GH.base + 0x20000 := by simp only [GH.base]; omega
  have reg := regAt_wide_stage b f hf
  have wide : 2 ^ 32 ≤ 0xffffffffffc0 := by decide
  rw [registerWrite_whole aligned space (.inl buffer), State.plainWrite_rws (by simp [reg]) inWindow rws live, State.rwsWrite_wide reg wide]

theorem registerWrite_bar4Base : registerWrite s true R.HX_BAR4_BASE 8 v =
    s.setRn R.HX_BAR4_BASE (bits v 38 30 * 2 ^ 30 + (s.rn R.HX_BAR4_BASE - s.rfld R.HX_BAR4_BASE 38 30 * 2 ^ 30)) := by
  have reg : regAt R.HX_BAR4_BASE = some ⟨0x10, 1, 8, 0x7fc0000000, 0, 0, 0⟩ := by decide +kernel
  have noStack : UE.base 0 ≤ R.HX_BAR4_BASE → R.HX_BAR4_BASE < UE.base 8 → s.stackUp ((R.HX_BAR4_BASE - UE.base 0) / 0x10000) = true :=
    fun _ h => absurd h (by decide)
  have value : s.rn R.HX_BAR4_BASE < 2 ^ 64 := BitVec.isLt _
  have field : bits (v % 2 ^ 64) 38 30 = bits v 38 30 := by
    simp only [bits, Nat.shiftRight_eq_div_pow]
    omega
  rw [registerWrite_whole (by decide) (by decide) (.inl (by decide)),
    State.plainWrite_eq_setRn reg (by decide) noStack (.inl (by decide)) (.inl (by decide)), RegDef.written_bar4Base _ _ value, field]
  rfl

end Clauses

/-- Settles O34: each clause is the branch of its command that the clause's conditions select. -/
theorem hostAccesses : Obligations.HostAccesses := by
  unfold Obligations.HostAccesses
  intro s vis op o n a v d
  refine ⟨fun up => ⟨fun rel => ?_, fun rel => ?_, fun shut => ?_, fun shut => ?_, fun rel en d0 => ?_⟩, fun down => ?_, fun h => ?_, ?_, ?_, fun _ => ?_, ?_, ?_⟩
  · exact congrArg _ (configRequest_before_release up rel)
  · refine ⟨?_, ?_, ?_, ?_, fun i => ?_, fun c => ?_, ?_, ?_, ?_, ?_, ?_, ?_, congrArg _ (configRequest_readBarSizes up rel), ?_, ?_,
      fun m q hm hq => congrArg _ (configRequest_writeDevice up rel hm hq), fun y => ?_, ?_, fun m b => ?_, congrArg _ (configRequest_writeBar0 up rel a),
      fun low high => congrArg _ (configRequest_writeBar4Size up rel low high), fun out => congrArg _ (configRequest_writeBar4Size_outside up rel out),
      fun e m => ?_, fun e => ?_⟩
    all_goals simp [exec_configRequest, configRequest, up, rel]
  · exact congrArg _ (barRead_unsupported up shut)
  · exact congrArg _ (barWrite_dropped shut)
  · have opened := State.barOpen_eq_true rel en d0
    exact ⟨fun fits pos good => congrArg _ (barRead_bar2 up opened fits pos good),
      fun fits pos bad => congrArg _ (barRead_bar2_poisoned up opened fits pos bad),
      fun fits => congrArg _ (barWrite_bar2 up opened fits),
      fun fits h4 h8 => congrArg _ (barRead_bar0_other_size up opened fits h4 h8)⟩
  · exact ⟨congrArg _ (configRequest_of_link_down down), congrArg _ (barRead_of_link_down down), congrArg _ (barWrite_of_link_down down)⟩
  · exact congrArg _ (registerWrite_ignored (regAccess_eq_false h))
  · intro w x reg size aligned space buffer bench stack doorbell msix
    exact ⟨congrArg _ (registerWrite_access reg size aligned space buffer bench stack doorbell msix), fun _ hi _ _ _ => x.testBit_written hi _ _ _⟩
  · exact fun b live f hf => congrArg _ (registerWrite_stage hf live)
  · exact congrArg _ registerWrite_bar4Base
  · exact fun _ _ hs hw domain => congrArg _ (hostLinkUp_trains hs hw domain)
  · exact fun _ _ h => congrArg _ (hostLinkUp_refused h)

end Sys2Proof.Machine

namespace Sys2Proof.Machine

/-! ## The state at reset (R8, R453) -/

/-! ### Memory, queues and engines -/

theorem State.byte_reset (a : Nat) : State.reset.byte a = 0 := rfl
theorem State.poisonedAt_reset (a : Nat) : State.reset.poisonedAt a = false := rfl
theorem State.syncVal_reset (i : Nat) : State.reset.syncVal i = 0 := rfl
@[simp] theorem State.bench_reset (b : Fin 24) : State.reset.bench b = {} := by simp [State.reset, State.bench]
@[simp] theorem State.core_reset (b : Fin 24) : State.reset.core b = {} := by simp [State.reset, State.core]
@[simp] theorem State.dk_reset (d : Fin 48) : State.reset.dk d = {} := by simp [State.reset, State.dk]
@[simp] theorem State.ue_reset (k : Fin 8) : State.reset.ue k = {} := by simp [State.reset, State.ue]
@[simp] theorem State.coll_reset (u : Fin 4) : State.reset.coll u = {} := by simp [State.reset, State.coll]
theorem State.gr_reset (b : Fin 24) (i : Fin 32) : State.reset.gr b i = 0 := by simp [State.gr]

/-! ### Registers: each is evaluated in its Reset column, for every number of its block -/

theorem benchRegs_reset : ∀ b : Fin 24, State.reset.rn (R.BN_FLAG_CFG b) = 0xE03 ∧ State.reset.rn (R.BN_FLAGS b) = 0
    ∧ State.reset.rn (R.BN_ID b) = b + (if b.val < 12 then 0 else 32) ∧ State.reset.rn (R.BN_TILE_CFG b) = 0x200000
    ∧ State.reset.rn (R.BN_RING b) = 0x8000000 ∧ State.reset.rn (R.DR_RERUN b) = 0x80000010 ∧ State.reset.rn (R.MU_PASSES b) = 3
    ∧ State.reset.rn (R.CC_CFG b) = 1 := by decide +kernel
theorem stackRegs_reset : ∀ k : Fin 8, State.reset.rn (R.UE_VT_CFG k) = 0x7D0 ∧ (∀ c : Fin 32, State.reset.rn (R.UE_VT_CODE k c) = 0x80000000)
    ∧ State.reset.rn (R.UE_SCRUB_CFG k) = 0x18 := by decide +kernel
theorem portRegs_reset : ∀ p : Fin 16, State.reset.rn (R.LK_CFG p) = 0x400 := by decide +kernel
theorem collRegs_reset : ∀ u : Fin 4, State.reset.rn (R.CL_CFG u) = 0x03E8012C := by decide +kernel
theorem vectorRegs_reset : ∀ v : Fin 84, State.reset.rn (R.HX_VEC_MAP v) = v := by decide +kernel
theorem ringRegs_reset : ∀ r : Fin 64, State.reset.rn (R.HX_RB_CFG r) = 6 * 2 ^ 48 := by decide +kernel
theorem tempRegs_reset : ∀ i : Fin 72, State.reset.rn (R.GH_WB_TEMP i) = 0x80008000 := by decide +kernel
theorem voltRegs_reset : ∀ d : Fin 36, State.reset.rn (R.GH_WB_VOLT d) = 0xFFFF0000 := by decide +kernel

/-- Settles O57: memory, queues and engines read off the empty state, registers from their Reset columns. -/
theorem resetState : Obligations.ResetState := by
  unfold Obligations.ResetState
  refine ⟨fun a => ⟨State.byte_reset a, State.poisonedAt_reset a⟩, State.syncVal_reset, rfl, rfl, rfl, rfl, rfl, rfl, rfl, fun b => ?_, fun d => ?_, fun k => ?_, fun u => ?_,
    benchRegs_reset, stackRegs_reset, ?_, portRegs_reset, ?_, ?_, ?_, ?_, ?_, collRegs_reset, vectorRegs_reset, ringRegs_reset, ?_, ?_, tempRegs_reset, voltRegs_reset,
    ?_, ?_⟩
  · simp [State.gr_reset, Bench.out]
  · simp
  · simp
  · simp
  all_goals decide +kernel

end Sys2Proof.Machine

namespace Sys2Proof.Machine

/-! ## The rows of the array (R87 to R103) -/

section ArrayRows
variable {s : State} {b : Fin 24} {x : Bench} {t : Tile} {r : ArrRow} {rest : List ArrRow}

theorem exec_partialReadReturn : exec (.partialReadReturn b) s = .next (partialReturn s b) := rfl
theorem exec_rowFinal : exec (.rowFinal b) s = .next (rowFinal s b) := rfl
theorem exec_autosplitSpill : exec (.autosplitSpill b) s = .next (autosplitSpill s b) := rfl
theorem exec_partTimeout : exec (.partTimeout b) s = .next (partTimeout s b) := rfl

theorem Bench.out_of_runs (run : x.runs = true) : x.out = false := by
  simp only [Bench.runs, Bool.and_eq_true, Bool.not_eq_true'] at run
  exact run.1

theorem Bench.faulty_of_runs (run : x.runs = true) (t : Tile) : x.faulty t = false := by
  simp only [Bench.runs, Bool.and_eq_true, Option.isNone_iff_eq_none] at run
  simp [Bench.faulty, run.2]

/-! ### Entry holds (R92) -/

theorem Bench.entryHold_of_hold (fill : x.fill? = some t) (wait : x.partWait = true) (hold : t.hold = true) : x.entryHold = true := by
  simp [Bench.entryHold, fill, wait, hold]

theorem Bench.awaits_eq_true (fill : x.fill? = some t) (wait : x.partWait = true) (tile : r.tile = t.id) (row : r.row = t.row) : x.awaits r = true := by
  simp [Bench.awaits, fill, wait, tile, row]

theorem Bench.eq_of_mem_setTile {y : Tile} (mem : y ∈ (x.setTile t).tiles) (id : y.id = t.id) : y = t := by
  obtain ⟨u, -, rfl⟩ := List.mem_map.1 mem
  by_cases same : u.id = t.id
  · simp [same]
  · simp [same] at id

/-- The awaited row leaves: the tile's hold stands. -/
theorem Bench.rowGone_awaited (fill : x.fill? = some t) (awaited : x.awaits r = true) :
    x.rowGone r rest = ({ x with inArray := rest } : Bench).setTile { t with hold := true } := by
  simp [Bench.rowGone, fill, awaited]

theorem Bench.rowGone_holds (fill : x.fill? = some t) (awaited : x.awaits r = true) {y : Tile} (mem : y ∈ (x.rowGone r rest).tiles)
    (id : y.id = t.id) : y.hold = true := by
  rw [Bench.rowGone_awaited fill awaited] at mem
  rw [Bench.eq_of_mem_setTile mem id]

/-! ### PARTIAL_READ_RETURN (R91, R92) -/

/-- Beat i, the first whose partial row has not been returned, lies in the current pass, and the row that writes it has left the array. -/
theorem partialReturn_adds {i : Nat} (run : (s.bench b).runs = true) (fill : (s.bench b).fill? = some t)
    (next : i = t.beat + ((s.bench b).parts.filter (fun r => r.tile == t.id)).length) (pass : i / t.M = t.pass) (more : t.pass < t.npass)
    (reads : t.readsPart t.pass = true) (noSpill : t.spillDue = false)
    (written : t.pass = 0 ∨ (i < t.beat + t.M ∧ ∀ a ∈ (s.bench b).inArray, a.tile = t.id → a.row ≠ i % t.M)) :
    partialReturn s b = s.modBench b (fun x => { x with parts := x.parts ++ [⟨t.id, t.pass, i % t.M, readRow s t (i % t.M)⟩] }) := by
  have out := Bench.out_of_runs run
  have faulty := Bench.faulty_of_runs run t
  have gone : (decide (0 < t.pass) && (decide (t.beat + t.M ≤ i) || (s.bench b).inArray.any (fun a => a.tile == t.id && a.row == i % t.M))) = false := by
    rcases written with first | ⟨near, left⟩
    · simp [first]
    · have noWriter : (s.bench b).inArray.any (fun a => a.tile == t.id && a.row == i % t.M) = false := by simpa using left
      simp [noWriter, near]
  simp only [partialReturn, fill, out, ← next, pass, faulty, noSpill, reads, gone, Nat.not_le.2 more]
  rfl

/-! ### ROW_FINAL (R87, R91, R92) -/

theorem rowFinal_frozen (wait : (s.bench b).partWait = true) (noHold : (s.bench b).entryHold = false) : rowFinal s b = s := by
  simp [rowFinal, wait, noHold]

theorem rowFinal_empty (empty : (s.bench b).inArray = []) : rowFinal s b = s := by
  simp [rowFinal, empty]

section Leaves
variable (run : (s.bench b).runs = true) (moves : (s.bench b).partWait = true → (s.bench b).entryHold = true)
  (oldest : (s.bench b).inArray = r :: rest) (known : (s.bench b).tile? r.tile = some t)
include run moves oldest known

/-- The ways of the oldest row of a known tile: to the partial region, to the shadow set, or none. -/
theorem rowFinal_oldest : rowFinal s b =
    if t.writesPart r.pass = true then
      if (!t.fin && decide (r.pass + 1 = t.npass) && decide (r.row + 1 = t.M)) = true
      then ((s.modBench b (·.rowGone r rest)).wr (t.partAt r.row 0) r.accs.toBytes).tileDone b t
      else (s.modBench b (·.rowGone r rest)).wr (t.partAt r.row 0) r.accs.toBytes
    else if 64 ≤ (s.bench b).shadow.length then s.modBench b (fun x => { x with finWait := true })
    else s.modBench b (fun x => { x.rowGone r rest with finWait := false, shadow := x.shadow ++ [⟨t.id, r.row, r.accs⟩] }) := by
  have out := Bench.out_of_runs run
  have thawed : ((s.bench b).partWait && !(s.bench b).entryHold) = false := by
    cases wait : (s.bench b).partWait
    · rfl
    · simp [moves wait]
  simp only [rowFinal, State.modBench, out, thawed, oldest, known]
  rfl

theorem rowFinal_writes (writes : t.writesPart r.pass = true) (notLast : t.fin = true ∨ r.pass + 1 ≠ t.npass ∨ r.row + 1 ≠ t.M) :
    rowFinal s b = (s.modBench b (·.rowGone r rest)).wr (t.partAt r.row 0) r.accs.toBytes := by
  have goesOn : ¬(!t.fin && decide (r.pass + 1 = t.npass) && decide (r.row + 1 = t.M)) = true := by
    simp only [Bool.and_eq_true, Bool.not_eq_true', decide_eq_true_eq]
    rintro ⟨⟨fin, pass⟩, row⟩
    simp [fin, pass, row] at notLast
  rw [rowFinal_oldest run moves oldest known, if_pos writes, if_neg goesOn]

/-- The last partial write of a tile frees its slot. -/
theorem rowFinal_writes_last (writes : t.writesPart r.pass = true) (fin : t.fin = false) (pass : r.pass + 1 = t.npass) (row : r.row + 1 = t.M) :
    rowFinal s b = (((s.modBench b (·.rowGone r rest)).wr (t.partAt r.row 0) r.accs.toBytes).modBench b (·.dropTile t.id)).addReg (R.BN_TILES_DONE b) 1 := by
  have ends : (!t.fin && decide (r.pass + 1 = t.npass) && decide (r.row + 1 = t.M)) = true := by simp [fin, pass, row]
  rw [rowFinal_oldest run moves oldest known, if_pos writes, if_pos ends]
  rfl

theorem rowFinal_shadow (keeps : t.writesPart r.pass = false) (room : (s.bench b).shadow.length < 64) :
    rowFinal s b = s.modBench b (fun x => { x.rowGone r rest with finWait := false, shadow := x.shadow ++ [⟨t.id, r.row, r.accs⟩] }) := by
  rw [rowFinal_oldest run moves oldest known, if_neg (by simp [keeps]), if_neg (Nat.not_le.2 room)]

theorem rowFinal_full (keeps : t.writesPart r.pass = false) (full : 64 ≤ (s.bench b).shadow.length) :
    rowFinal s b = s.modBench b (fun x => { x with finWait := true }) := by
  rw [rowFinal_oldest run moves oldest known, if_neg (by simp [keeps]), if_pos full]

end Leaves

/-! ### AUTOSPLIT_SPILL (R61, R94) -/

theorem autosplitSpill_spills (run : (s.bench b).runs = true) (fill : (s.bench b).fill? = some t) (due : t.spillDue = true)
    (clear : ∀ a ∈ (s.bench b).inArray, a.tile ≠ t.id) :
    autosplitSpill s b = ((List.range t.M).foldl (fun u m => spillRow u t m) s).modBench b (fun y => y.setTile { t with count := 0, spill := true }) := by
  have out := Bench.out_of_runs run
  have faulty := Bench.faulty_of_runs run t
  have noRow : (s.bench b).inArray.any (fun a => a.tile == t.id) = false := by simpa using clear
  simp only [autosplitSpill, out, fill, faulty, due, noRow]
  rfl

/-! ### PART_TIMEOUT (R103) -/

theorem Bench.freezeAt_filling (fill : x.fill? = some t) : x.freezeAt = some (t, t.pass, t.row) := by
  simp [Bench.freezeAt, fill]

theorem Bench.freezeAt_oldest (fill : x.fill? = none) (oldest : x.inArray = r :: rest) (known : x.tile? r.tile = some t) :
    x.freezeAt = some (t, r.pass, r.row) := by
  simp [Bench.freezeAt, fill, oldest, known]

theorem partTimeout_moving (noWait : (s.bench b).partWait = false) (notFull : (s.bench b).shadowFull = false) : partTimeout s b = s := by
  simp [partTimeout, noWait, notFull]

/-- The fault of a freeze is laid to the beat or row that `freezeAt` names. -/
theorem partTimeout_stuck {pass row : Nat} (run : (s.bench b).runs = true) (stuck : ((s.bench b).partWait || (s.bench b).shadowFull) = true)
    (place : (s.bench b).freezeAt = some (t, pass, row)) :
    partTimeout s b = if t.freeze = 0 then s else s.modBench b (·.beginFault ⟨3, 3, t.id, pass, row, 0, 0, 2⟩) := by
  have out := Bench.out_of_runs run
  have faulty := Bench.faulty_of_runs run t
  simp only [partTimeout, out, stuck, place, faulty, Bool.not_true, Bool.or_self, Bool.false_or, Bool.false_eq_true, decide_eq_true_eq, if_false]
  rfl

end ArrayRows

/-- Settles O10: each clause is the branch of its command that the clause's conditions select. -/
theorem arrayRowsMove : Obligations.ArrayRowsMove := by
  unfold Obligations.ArrayRowsMove
  intro s b t run
  refine ⟨?_, ?_, Bench.entryHold_of_hold, ?_, ?_, ?_, ?_, ?_, ?_, ?_⟩
  · intro fill i pass more reads noSpill written
    rw [exec_partialReadReturn, partialReturn_adds run fill rfl pass more reads noSpill written]
  · intro wait noHold
    rw [exec_rowFinal, rowFinal_frozen wait noHold]
  · intro r rest fill wait tile row y mem id
    exact Bench.rowGone_holds fill (Bench.awaits_eq_true fill wait tile row) mem id
  · intro r rest moves oldest known
    simp only [exec_rowFinal]
    exact ⟨fun writes notLast => congrArg _ (rowFinal_writes run moves oldest known writes notLast),
      fun writes fin pass row => congrArg _ (rowFinal_writes_last run moves oldest known writes fin pass row),
      fun keeps room => congrArg _ (rowFinal_shadow run moves oldest known keeps room),
      fun keeps full => congrArg _ (rowFinal_full run moves oldest known keeps full)⟩
  · intro fill due clear
    rw [exec_autosplitSpill, autosplitSpill_spills run fill due clear]
  · intro fill stuck
    rw [exec_partTimeout, partTimeout_stuck run stuck (Bench.freezeAt_filling fill)]
  · intro r rest fill full oldest known
    rw [exec_partTimeout, partTimeout_stuck run (by simp [full]) (Bench.freezeAt_oldest fill oldest known)]
  · intro noWait notFull
    rw [exec_partTimeout, partTimeout_moving noWait notFull]
  · intro empty
    rw [exec_rowFinal, rowFinal_empty empty]

end Sys2Proof.Machine

namespace Sys2Proof.Machine

/-! ## The report of a tile fault (R58, R65, R100, R101, R103) -/

/-! ### What a write through the add windows leaves alone (R208 to R211) -/

/-- What a write of partials or of poison can change: memory, and through the add windows the log, the outputs and registers. -/
def State.Stores (s t : State) : Prop :=
  t = { s with mem := t.mem, poison := t.poison, log := t.log, logSeq := t.logSeq, flashLog := t.flashLog, flashSeq := t.flashSeq, out := t.out, regs := t.regs }

section Stores
variable {s t u : State} {a : Nat} {bs : Bytes}

theorem State.Stores.refl (s : State) : s.Stores s := rfl

theorem State.Stores.trans (h : s.Stores t) (k : t.Stores u) : s.Stores u := by
  unfold State.Stores at *
  rw [k, h]

theorem State.Notes.stores (h : s.Notes t) : s.Stores t := by
  unfold State.Stores
  rw [h.1]

theorem State.Notes.mem (h : s.Notes t) : t.mem = s.mem := by rw [h.1]
theorem State.Notes.poison (h : s.Notes t) : t.poison = s.poison := by rw [h.1]

theorem State.Stores.ite {p : Prop} {_ : Decidable p} (h : s.Stores t) (k : s.Stores u) : s.Stores (if p then t else u) := by
  split
  · exact h
  · exact k

theorem State.Stores.wr (h : s.Stores t) : s.Stores (t.wr a bs) := h.trans rfl
theorem State.Stores.addReg {r n : Nat} (h : s.Stores t) : s.Stores (t.addReg r n) := h.trans rfl
theorem State.Stores.setRn {r v : Nat} (h : s.Stores t) : s.Stores (t.setRn r v) := h.trans rfl
theorem State.Stores.ev {code src : Nat} (h : s.Stores t) : s.Stores (t.ev code src bs) := h.trans (t.ev_notes code src bs).stores

theorem State.Stores.addWrite {k w : Nat} (h : s.Stores t) : s.Stores (addWrite t k w a bs) :=
  have added := State.Stores.ite h.addReg h.addReg.wr.setRn
  .ite added.ev added

theorem State.Stores.addPiece (h : s.Stores t) : s.Stores (addPiece t a bs) := by
  unfold Machine.addPiece
  split
  · exact h.addWrite
  · exact h.wr

theorem State.Stores.addLines {k : Nat} (h : s.Stores t) : s.Stores (addLines t a bs k) := by
  induction k generalizing t a bs with
  | zero => exact h
  | succ k ih => exact .ite (.ite h h.addPiece) (ih h.addPiece)

theorem State.Stores.wrAdd (h : s.Stores t) : s.Stores (t.wrAdd a bs) := .ite h.addLines h.wr

theorem poisonTile_stores (s : State) (t : Tile) : s.Stores (poisonTile s t) :=
  have part := State.Stores.ite (State.Stores.refl s).wrAdd (.refl s)
  .ite part.wrAdd part

theorem State.Stores.benches (h : s.Stores t) : t.benches = s.benches := by rw [h]
theorem State.Stores.cores (h : s.Stores t) : t.cores = s.cores := by rw [h]
theorem State.Stores.derricks (h : s.Stores t) : t.derricks = s.derricks := by rw [h]
theorem State.Stores.sync (h : s.Stores t) : t.sync = s.sync := by rw [h]
theorem State.Stores.bench (h : s.Stores t) (b : Fin 24) : t.bench b = s.bench b := by rw [State.bench, State.bench, h.benches]

end Stores

/-! ### The halt of a bench queue (R114) -/

section BenchHalt
variable (s : State) (b : Fin 24) (cause : Nat)

@[simp] theorem State.benchHalt_mem : (s.benchHalt b cause).mem = s.mem := by simp [State.benchHalt]
@[simp] theorem State.benchHalt_poison : (s.benchHalt b cause).poison = s.poison := by simp [State.benchHalt]
@[simp] theorem State.benchHalt_cores : (s.benchHalt b cause).cores = s.cores := by simp [State.benchHalt]
@[simp] theorem State.benchHalt_derricks : (s.benchHalt b cause).derricks = s.derricks := by simp [State.benchHalt]
@[simp] theorem State.benchHalt_sync : (s.benchHalt b cause).sync = s.sync := by simp [State.benchHalt]

@[simp] theorem State.bench_benchHalt : (s.benchHalt b cause).bench b = { s.bench b with q := (s.bench b).q.halt cause } := by
  rw [State.benchHalt, (State.raise_notes _ _).stores.bench, State.bench_modBench]

theorem State.bench_benchHalt_ne {c : Fin 24} (h : b ≠ c) : (s.benchHalt b cause).bench c = s.bench c := by
  rw [State.benchHalt, (State.raise_notes _ _).stores.bench, State.modBench, State.bench_setBench_ne _ _ _ _ h]

end BenchHalt

/-! ### The commands go back (R101) -/

section GiveBack
variable {x : Bench} {z : Tile} {id : Nat}

theorem EQ.cmds_putBack (q : EQ) (c : Cmd) (job : Nat) : (q.putBack c job).cmds = c :: q.cmds := rfl

/-- Tiles put back one after another stand at the head of the queue in their order. -/
theorem EQ.cmds_foldr_putBack (l : List Tile) (q : EQ) : (l.foldr (fun t q => q.putBack t.cmd t.job) q).cmds = l.map (·.cmd) ++ q.cmds := by
  induction l with
  | nil => rfl
  | cons t l ih => simp only [List.foldr_cons, EQ.cmds_putBack, ih, List.map_cons, List.cons_append]

theorem Bench.cmds_giveBack : (x.giveBack id).q.cmds = (x.tiles.filter (fun t => decide (id ≤ t.id))).map (·.cmd) ++ x.q.cmds :=
  EQ.cmds_foldr_putBack _ _

theorem Bench.mem_giveBack_tiles : z ∈ (x.giveBack id).tiles ↔
    ∃ u ∈ x.tiles, (u.id < id ∨ ∃ r ∈ x.shadow, r.tile = u.id) ∧ (if id ≤ u.id then { u with dead := true } else u) = z := by
  simp [Bench.giveBack, and_assoc]

/-- The faulting tile and those behind it stay only with rows in the shadow set, as dead tiles. -/
theorem Bench.dead_of_mem_giveBack (mem : z ∈ (x.giveBack id).tiles) (behind : id ≤ z.id) : z.dead = true ∧ ∃ r ∈ x.shadow, r.tile = z.id := by
  obtain ⟨u, -, kept, rfl⟩ := Bench.mem_giveBack_tiles.1 mem
  by_cases h : id ≤ u.id
  · simpa [h, Nat.not_lt.2 h] using kept
  · simp [h] at behind

theorem Bench.mem_giveBack_of_lt (mem : z ∈ x.tiles) (before : z.id < id) : z ∈ (x.giveBack id).tiles :=
  Bench.mem_giveBack_tiles.2 ⟨z, mem, .inl before, if_neg (Nat.not_le.2 before)⟩

theorem Bench.lt_of_mem_giveBack_parts {r : ArrRow} (mem : r ∈ (x.giveBack id).parts) : r.tile < id :=
  of_decide_eq_true (List.mem_filter.1 mem).2

theorem Bench.lt_of_mem_giveBack_tables {r : TabRow} (mem : r ∈ (x.giveBack id).tables) : r.tile < id :=
  of_decide_eq_true (List.mem_filter.1 mem).2

end GiveBack

/-! ### TILE_FAULT_POISON_DONE -/

/-- BN_FAULT, BN_FAULT_POS and the event of a fault (R103). -/
def State.noteFault (s : State) (b : Fin 24) (t : Tile) (f : TileFault) : State :=
  ((s.setRn (R.BN_FAULT b) (2 ^ 31 + f.kind * 2 ^ 26 + f.stream * 2 ^ 24 + t.tag)).setRn (R.BN_FAULT_POS b)
    (f.pass * 2 ^ 48 + f.row * 2 ^ 32 + f.expected * 16 + f.received)).ev (if f.kind = 3 then 0x113 else 0x110) b
      (leBytes 3 t.tag ++ leBytes 1 f.kind ++ leBytes 1 f.stream ++ leBytes 2 f.pass ++ leBytes 2 f.row ++ leBytes 1 f.expected
        ++ leBytes 1 f.received)

section PoisonDone
variable {s : State} {b : Fin 24} {f : TileFault} {t : Tile}

theorem exec_tileFaultPoisonDone : exec (.tileFaultPoisonDone b) s = .next (poisonDone s b) := rfl

theorem State.noteFault_notes (s : State) (b : Fin 24) (t : Tile) (f : TileFault) : s.Notes (s.noteFault b t f) :=
  ((s.setRn_notes _ _).trans (State.setRn_notes _ _ _)).trans (State.ev_notes _ _ _ _)

theorem poisonDone_out (out : (s.bench b).out = true) : poisonDone s b = s := by
  simp only [poisonDone, out, if_true]
  split <;> rfl

theorem poisonDone_no_fault (none : (s.bench b).fault = none) : poisonDone s b = s := by
  simp [poisonDone, none]

theorem poisonDone_reports (live : (s.bench b).out = false) (fault : (s.bench b).fault = some f) (slot : (s.bench b).tile? f.tile = some t) :
    poisonDone s b = (((poisonTile s t).setBench b { ((s.bench b).giveBack t.id).clearPend with fault := none }).noteFault b t f).benchHalt b f.cause := by
  simp only [poisonDone, fault, live, slot]
  rfl

end PoisonDone

/-- Settles O11: the fault's report changes no unit but the bench, whose tiles and queue are those of `Bench.giveBack`. -/
theorem tileFaultReported : Obligations.TileFaultReported := by
  unfold Obligations.TileFaultReported
  intro s b
  refine ⟨fun h => ?_, fun f t live fault slot => ?_⟩
  · rw [exec_tileFaultPoisonDone]
    exact congrArg _ (h.elim poisonDone_out poisonDone_no_fault)
  intro x n word s1 s2 y s3
  have answer : exec (.tileFaultPoisonDone b) s = .next (((s2.setBench b y).noteFault b t f).benchHalt b f.cause) := by
    rw [exec_tileFaultPoisonDone, poisonDone_reports live fault slot]
    rfl
  have poisoned : s.Stores s2 := poisonTile_stores s t
  have noted := (s2.setBench b y).noteFault_notes b t f
  refine ⟨answer, Bench.cmds_giveBack, fun z => Bench.dead_of_mem_giveBack, fun z => Bench.mem_giveBack_of_lt, fun r => Bench.lt_of_mem_giveBack_parts,
    fun r => Bench.lt_of_mem_giveBack_tables, rfl, rfl, _, answer, ?_⟩
  have bench : (((s2.setBench b y).noteFault b t f).benchHalt b f.cause).bench b = { y with q := y.q.halt f.cause } := by
    rw [State.bench_benchHalt, noted.stores.bench, State.bench_setBench]
  rw [bench, State.benchHalt_mem, State.benchHalt_poison, State.benchHalt_cores, State.benchHalt_derricks, State.benchHalt_sync]
  refine ⟨noted.mem, noted.poison, rfl, rfl, rfl, rfl, noted.stores.cores.trans poisoned.cores, noted.stores.derricks.trans poisoned.derricks,
    noted.stores.sync.trans poisoned.sync, fun c other => ?_⟩
  rw [State.bench_benchHalt_ne _ _ _ other.symm, noted.stores.bench, State.bench_setBench_ne _ _ _ _ other.symm, poisoned.bench]

end Sys2Proof.Machine

namespace Sys2Proof.Machine

/-! ## The bench registers that act (R80, R104, R106, R114) -/

section BenchRegisters
variable {s : State} {b : Fin 24} {mask : Nat}

theorem exec_bnResume : exec (.bnResume b) s = .next (bnResume s b) := rfl
theorem exec_bnSkip : exec (.bnSkip b) s = .next (bnSkip s b) := rfl
theorem exec_bnHaltReq : exec (.bnHaltReq b) s = .next (bnHaltReq s b) := rfl
theorem exec_bnCntClr : exec (.bnCntClr b) s = .next (bnCntClr s b) := rfl
theorem exec_bnCommitGo : exec (.bnCommitGo b) s = .next (commitGo s b) := rfl
theorem exec_bnFlagsClear : exec (.bnFlagsClear b mask) s = .next (bnFlagsClear s b mask) := rfl
theorem exec_bnFlagsRcRead : exec (.bnFlagsRcRead b) s = .next (bnFlagsRcRead s b) := rfl

theorem EQ.halted_eq_true {q : EQ} (h : q.cause ≠ 0) : q.halted = true := by simp [EQ.halted, h]
theorem EQ.halted_eq_false {q : EQ} (h : q.cause = 0) : q.halted = false := by simp [EQ.halted, h]

/-- An unfenced bench dispatches unless a COMMIT command waits or a fault is being poisoned. -/
theorem Bench.dispatches_of_live {x : Bench} (live : x.out = false) : x.dispatches = !(x.commitCmd || x.fault.isSome) := by
  cases fault : x.fault with
  | none => simp [Bench.dispatches, live, fault]
  | some f => simp [Bench.dispatches, fault]

theorem bnResume_running (run : (s.bench b).q.cause = 0) : bnResume s b = s := by simp [bnResume, EQ.halted_eq_false run]
theorem bnSkip_running (run : (s.bench b).q.cause = 0) : bnSkip s b = s := by simp [bnSkip, EQ.halted_eq_false run]

variable (live : (s.bench b).out = false)
include live

theorem bnResume_halted (halt : (s.bench b).q.cause ≠ 0) :
    bnResume s b = (s.modBench b (fun x => { x with q := { x.q with cause := 0 } })).setFld (R.BN_FAULT b) 31 31 0 := by
  simp only [bnResume, live, EQ.halted_eq_true halt]
  rfl

theorem bnSkip_halted (halt : (s.bench b).q.cause ≠ 0) (filled : (s.bench b).q.cmds ≠ []) :
    bnSkip s b = s.modBench b (fun x => { x with q := x.q.pop }) := by
  simp only [bnSkip, live, EQ.halted_eq_true halt, List.isEmpty_eq_false_iff.2 filled]
  rfl

/-- The two ways of a halt that is asked of a running queue: at once, or at the next command boundary. -/
theorem bnHaltReq_running (run : (s.bench b).q.cause = 0) :
    bnHaltReq s b = if (s.bench b).dispatches = true then s.benchHalt b 6 else s.modBench b (fun x => { x with q := x.q.haltSoon 6 }) := by
  simp only [bnHaltReq, live, EQ.halted_eq_false run, Bench.dispatches_of_live live]
  cases (s.bench b).commitCmd || (s.bench b).fault.isSome with
  | true => rfl
  | false => rfl

theorem bnCntClr_live : bnCntClr s b = ((List.range 10).foldl (fun t i => t.setRn (R.BN_STALL b i) 0) s).setRn (R.BN_TILES_DONE b) 0 := by
  simp only [bnCntClr, live]
  rfl

theorem commitGo_live : commitGo s b = s.modBench b (fun x => { x with commitReg := true }) := by
  simp only [commitGo, live]
  rfl

theorem bnFlagsClear_live : bnFlagsClear s b mask = s.setRn (R.BN_FLAGS b) (s.rn (R.BN_FLAGS b) &&& (31 - mask % 32)) := by
  simp only [bnFlagsClear, live]
  rfl

/-- An unfenced bench is not dark, so the read returns its flags (R426). -/
theorem State.benchDark_eq_false : s.benchDark b = false := by
  simp only [Bench.out, Bool.or_eq_false_iff] at live
  simp [State.benchDark, live.1]

theorem bnFlagsRcRead_live :
    bnFlagsRcRead s b = (s.emit (.readVal (R.BN_FLAGS_RC b) (s.rn (R.BN_FLAGS b)))).setRn (R.BN_FLAGS b) 0 := by
  simp only [bnFlagsRcRead, State.benchDark_eq_false live]
  rfl

end BenchRegisters

/-- Settles O4: each clause is the branch of its command that an unfenced bench takes, with its queue halted or running. -/
theorem benchControlRegisters : Obligations.BenchControlRegisters := by
  unfold Obligations.BenchControlRegisters
  intro s b mask live
  rw [exec_bnResume, exec_bnSkip, exec_bnHaltReq, exec_bnCntClr, exec_bnCommitGo, exec_bnFlagsClear, exec_bnFlagsRcRead]
  refine ⟨fun halt => congrArg _ (bnResume_halted live halt), fun halt filled => congrArg _ (bnSkip_halted live halt filled),
    fun run => ⟨congrArg _ (bnResume_running run), congrArg _ (bnSkip_running run)⟩, fun run free => ?_, fun run busy => ?_,
    congrArg _ (bnCntClr_live live), congrArg _ (commitGo_live live), congrArg _ (bnFlagsClear_live live), congrArg _ (bnFlagsRcRead_live live)⟩
  · rw [bnHaltReq_running live run, if_pos free]
  · rw [bnHaltReq_running live run, if_neg (by simp [busy])]
    rfl

end Sys2Proof.Machine

namespace Sys2Proof.Machine

/-! ## The floating-point instructions (R74, R77, R284) -/

/-! ### Their issue -/

section Issue
variable {s t : State} {b : Fin 24} {e : Ed} {host : Option Bytes} {spec : List (Bool × Nat)} {miss : Bool}

/-- A core that fetches the instruction which its row names performs it. -/
theorem State.issue_fetched (fetched : s.fetches b e t) : s.issue b (some e) host spec miss = t.perform b host spec miss e := by
  obtain ⟨live, runs, noClaim, notDue, aligned, noBreak, w, fetch, dec⟩ := fetched
  simp [State.issue, live, runs, noClaim, notDue, aligned, noBreak, fetch, dec]

/-- A floating-point instruction writes the result of its operation, sets the flags of its conditions, and retires. -/
theorem exec_fp {i : Instr} {f : Fin 28} {x y z : Fin 32} {r : Nat × Cond}
    (row : exec i s = .next (s.issue b (some (.fp f x y z)) none [] false))
    (op : fpOp f (t.gr b x % 2 ^ 32) (t.gr b y) (t.gr b y % 2 ^ 32) (t.gr b z % 2 ^ 32) = r) (fetched : s.fetches b (.fp f x y z) t) :
    exec i s = .next ((((t.setRn (R.CC_FLAGS b) (t.rn (R.CC_FLAGS b) ||| r.2.toNat % 16)).setG b x r.1).owe b (fpMore f) 7).retire b) := by
  rw [row, State.issue_fetched fetched, ← op]
  rfl

end Issue

/-! ### NaN operands (R75) -/

section NaN
variable {a c k : Nat}

theorem Val.eq_nan {v : Val} (h : v.isNan = true) : v = .nan := by
  cases v with
  | nan => rfl
  | inf s => cases h
  | fin s m => cases h

@[simp] theorem vadd_nan_left (v : Val) : vadd .nan v = .nan := rfl
@[simp] theorem vadd_nan_right (v : Val) : vadd v .nan = .nan := by cases v <;> rfl
@[simp] theorem vmul_nan_left (v : Val) : vmul .nan v = .nan := rfl
@[simp] theorem fpOut_nan (k : Cond) : (fpOut .nan k).1 = FP32.nanCode := rfl

variable (h : (fpOperand a FP32).1.isNan = true)
include h

theorem fpAdd_nan_left : (fpAdd a c).1 = FP32.nanCode := by simp [fpAdd, fpBin, Val.eq_nan h]
theorem fpAdd_nan_right : (fpAdd c a).1 = FP32.nanCode := by simp [fpAdd, fpBin, Val.eq_nan h]
theorem fpMul_nan_left : (fpMul a c).1 = FP32.nanCode := by simp [fpMul, fpBin, Val.eq_nan h]
theorem fpDiv_nan_left : (fpDiv a c).1 = FP32.nanCode := by simp [fpDiv, fpBin, Val.eq_nan h]
theorem fpFma_nan_left : (fpFma a c k).1 = FP32.nanCode := by simp [fpFma, fpBin, Val.eq_nan h]

end NaN

/-! ### The quiet predicates (R77) -/

section Predicates
variable {un : Bool} {f : Rat → Rat → Bool} {p q : Nat}

theorem fpPred_unordered (h : (fpOperand p FP32).1.isNan = true ∨ (fpOperand q FP32).1.isNan = true) : (fpPred un f p q).1 = b2n un := by
  simp [fpPred, fpBin, h]

theorem fpPred_ordered (hp : (fpOperand p FP32).1.isNan = false) (hq : (fpOperand q FP32).1.isNan = false) :
    (fpPred un f p q).1 = b2n (f (fpOperand p FP32).1.toRat (fpOperand q FP32).1.toRat) := by
  simp [fpPred, fpBin, hp, hq]

/-- Reading an operand signals underflow or overflow, never invalid (R34, R78). -/
theorem fpRead_inv (c : Nat) (f : FpFmt) : (fpRead c f).2.inv = false := by
  unfold fpRead
  simp only
  split
  · rfl
  split
  · rfl
  split
  · show (if _ then Cond.none else Cond.flush).inv = false
    split <;> rfl
  · rfl

theorem fpOperand_inv (c : Nat) (f : FpFmt) : (fpOperand c f).2.inv = false := by
  have read := fpRead_inv c f
  unfold fpOperand
  split
  next e =>
    rw [e] at read
    simpa [Cond.or, Cond.overflow] using read
  · exact read

theorem fpPred_inv : (fpPred un f p q).2.inv = false := by
  simp [fpPred, fpBin, Cond.or, fpOperand_inv]

end Predicates

/-- Settles O40: each instruction is the issue of its operation; a NaN operand makes the exact result NaN, and a comparison is a quiet predicate. -/
theorem edvenFloatingPoint : Obligations.EdvenFloatingPoint := by
  unfold Obligations.EdvenFloatingPoint
  intro s t b x y z k a c run
  refine ⟨exec_fp rfl rfl, exec_fp rfl rfl, exec_fp rfl rfl, exec_fp rfl rfl, exec_fp rfl rfl, exec_fp rfl rfl, exec_fp rfl rfl, exec_fp rfl rfl,
    exec_fp rfl rfl, exec_fp rfl rfl, exec_fp rfl rfl, exec_fp rfl rfl, exec_fp rfl rfl, exec_fp rfl rfl, exec_fp rfl rfl, exec_fp rfl rfl,
    exec_fp rfl rfl, exec_fp rfl rfl, exec_fp rfl rfl, exec_fp rfl rfl, exec_fp rfl rfl, exec_fp rfl rfl, exec_fp rfl rfl, exec_fp rfl rfl,
    fun nan => ⟨fpAdd_nan_left nan, fpAdd_nan_right nan, fpMul_nan_left nan, fpDiv_nan_left nan, fpFma_nan_left nan⟩, fun p q => ?_, ?_⟩
  · intro vp vq
    refine ⟨fun nan => ⟨fpPred_unordered nan, fpPred_unordered nan, fpPred_unordered nan, fpPred_unordered nan, fpPred_unordered nan,
        fpPred_unordered nan, fpPred_unordered nan⟩,
      fun hp hq => ⟨fpPred_ordered hp hq, fpPred_ordered hp hq, fpPred_ordered hp hq, fpPred_ordered hp hq, fpPred_ordered hp hq,
        fpPred_ordered hp hq, fpPred_ordered hp hq⟩, fun g mem => ?_⟩
    simp only [List.mem_cons, List.not_mem_nil, or_false] at mem
    rcases mem with rfl | rfl | rfl | rfl | rfl | rfl | rfl <;> exact fpPred_inv
  · decide

end Sys2Proof.Machine

namespace Sys2Proof.Machine

/-! ## The mason unit (R150 to R159) -/

/-! ### Its queue (R151, R152, R155, R156) -/

section MasonQueue
variable {s : State} {b : Fin 24} {c : Cmd} {op i : Nat} {f : Cmd → State} {r : MasonRun}

theorem exec_muNop : exec (.muNop b) s = .next (muNop s b) := rfl
theorem exec_muSyncWait : exec (.muSyncWait b) s = .next (muSyncWait s b) := rfl
theorem exec_muSyncSignal : exec (.muSyncSignal b) s = .next (muSyncSignal s b) := rfl
theorem exec_mm : exec (.mm b) s = .next (mm s b) := rfl
theorem exec_red : exec (.red b) s = .next (red s b) := rfl

/-- The head of a queue that is ready for an opcode is dispatched. -/
theorem dispatch_ready {q : EQ} {known : List Nat} {onPar : State} {onBad : Cmd → State} (ready : q.ready op c = true) :
    dispatch s q known op onPar onBad f = f c := by
  simp only [EQ.ready, Bool.and_eq_true, beq_iff_eq] at ready
  obtain ⟨⟨head, par⟩, code⟩ := ready
  simp [dispatch, head, par, code]

variable (live : (s.bench b).out = false)
include live

theorem masonDispatch_ready (ready : (s.bench b).mu.ready op c = true) : masonDispatch s b op f = f c := by
  simp only [masonDispatch, live, dispatch_ready ready]
  rfl

theorem muNop_ready (ready : (s.bench b).mu.ready 0x00 c = true) : muNop s b = s.masonPop b := masonDispatch_ready live ready

theorem muSyncWait_ready (ready : (s.bench b).mu.ready 0x20 c = true) :
    muSyncWait s b = if c.w 2 ≤ s.syncVal (c.f 1 7 0) then s.masonPop b else s := masonDispatch_ready live ready

theorem muSyncSignal_at_once (ready : (s.bench b).mu.ready 0x21 c = true)
    (clear : c.b 1 8 = false ∨ ∀ r ∈ (s.bench b).muRun, (s.bench b).mu.nextJob ≤ r.id) :
    muSyncSignal s b = (s.masonPop b).addSync (c.f 1 7 0) 1 := by
  have now : (c.b 1 8 && (s.bench b).masonLive (s.bench b).mu.nextJob) = false := by
    rcases clear with when0 | ended
    · simp [when0]
    · have idle : (s.bench b).masonLive (s.bench b).mu.nextJob = false := by
        cases run : (s.bench b).muRun with
        | none => simp [Bench.masonLive, run]
        | some r => simpa [Bench.masonLive, run] using ended r run
      simp [idle]
  rw [muSyncSignal, masonDispatch_ready live ready]
  simp only [now]
  rfl

theorem muSyncSignal_deferred (ready : (s.bench b).mu.ready 0x21 c = true) (when1 : c.b 1 8 = true) (run : (s.bench b).muRun = some r)
    (earlier : r.id < (s.bench b).mu.nextJob) :
    muSyncSignal s b = s.modBench b (fun x => { x with mu := x.mu.pop.defer (c.f 1 7 0) }) := by
  have waits : (s.bench b).masonLive (s.bench b).mu.nextJob = true := by simp [Bench.masonLive, run, earlier]
  rw [muSyncSignal, masonDispatch_ready live ready]
  simp only [when1, waits]
  rfl

section MM
variable (ready : (s.bench b).mu.ready 0x40 c = true)
include ready

theorem mm_waits (busy : (s.bench b).muRun.isSome = true) : mm s b = s := by
  rw [mm, masonDispatch_ready live ready, if_pos busy]

theorem mm_refused (idle : (s.bench b).muRun = none) (item : mmItem c = some i) : mm s b = s.masonRefuse b i c := by
  rw [mm, masonDispatch_ready live ready]
  simp [idle, item]

theorem mm_starts (idle : (s.bench b).muRun = none) (item : mmItem c = none) :
    mm s b = s.masonStart b c (if c.b 2 39 = true then 1 else if c.f 2 41 40 = 0 then s.rfld (R.MU_PASSES b) 1 0 else c.f 2 41 40) := by
  rw [mm, masonDispatch_ready live ready]
  simp [idle, item]

end MM

section RED
variable (ready : (s.bench b).mu.ready 0x41 c = true)
include ready

theorem red_waits (busy : (s.bench b).muRun.isSome = true) : red s b = s := by
  rw [red, masonDispatch_ready live ready, if_pos busy]

theorem red_refused (idle : (s.bench b).muRun = none) (item : redItem c = some i) : red s b = s.masonRefuse b i c := by
  rw [red, masonDispatch_ready live ready]
  simp [idle, item]

theorem red_starts (idle : (s.bench b).muRun = none) (item : redItem c = none) : red s b = s.masonStart b c 1 := by
  rw [red, masonDispatch_ready live ready]
  simp [idle, item]

end RED
end MasonQueue

/-! ### What a command writes (R153 to R155) -/

section Results
variable {s : State} {b : Fin 24} {c : Cmd} {passes : Nat} {r : MasonRun}

/-- Element (i, j) of the left operand. -/
def Cmd.mmA (s : State) (c : Cmd) (i j : Nat) : Val × Cond :=
  mmOperand (c.b 2 39) (c.b 2 38) (readEl s (c.f 2 47 46) (c.addr 3 + i * c.stride 3 + j * fpSize (c.f 2 47 46)))

/-- Element (i, j) of the right operand. -/
def Cmd.mmB (s : State) (c : Cmd) (i j : Nat) : Val × Cond :=
  mmOperand (c.b 2 39) (c.b 2 38) (readEl s (c.f 2 45 44) (c.addr 4 + i * c.stride 4 + j * fpSize (c.f 2 45 44)))

/-- What element (i, j) of the result starts at: C where ACC is 1. -/
def Cmd.mmC (s : State) (c : Cmd) (i j : Nat) : Val × Cond :=
  if c.b 2 37 = true then readEl s (c.f 2 43 42) (c.addr 5 + i * c.stride 5 + j * fpSize (c.f 2 43 42)) else (.fin false 0, Cond.none)

/-- The code of element (i, j) of the result of an MM. -/
def Cmd.mmCode (s : State) (c : Cmd) (passes i j : Nat) : Nat :=
  (mmOut (c.f 2 43 42) (mmElem (c.b 2 39) passes (c.mmC s i j) ((List.range (c.f 1 47 32)).map (fun k => (c.mmA s i k).1))
    ((List.range (c.f 1 47 32)).map (fun k => (c.mmB s k j).1)))).1

/-- The bytes of row i of the result of an MM. -/
def Cmd.mmBytes (s : State) (c : Cmd) (passes i : Nat) : Bytes :=
  (List.range (c.f 1 31 16)).flatMap (fun j => leBytes (fpSize (c.f 2 43 42)) (c.mmCode s passes i j))

/-- The code of result i of a RED. -/
def Cmd.redCode (s : State) (c : Cmd) (i : Nat) : Nat := (redRow (c.f 2 45 44) ((List.range (c.f 1 31 16)).map (c.mmA s i))).1

/-- The first parts of a fold that appends one value to them at each step. -/
theorem foldl_fst_append {α β γ : Type} {f : List β × γ → α → List β × γ} {g : α → β} (h : ∀ z x, (f z x).1 = z.1 ++ [g x]) (l : List α)
    (z : List β × γ) : (l.foldl f z).1 = z.1 ++ l.map g := by
  induction l generalizing z with
  | nil => simp
  | cons x l ih => simp [ih, h]

theorem zipIdx_map_range {α : Type} (f : Nat → α) (n : Nat) : ((List.range n).map f).zipIdx = (List.range n).map (fun i => (f i, i)) := by
  apply List.ext_getElem <;> simp

theorem mmRows_codes : (mmRows s c passes).1 =
    (List.range (c.f 1 15 0)).map (fun i => (List.range (c.f 1 31 16)).map (c.mmCode s passes i)) := by
  unfold mmRows
  refine (foldl_fst_append (fun z i => congrArg (z.1 ++ [·]) ?_) _ _).trans (List.nil_append _)
  simp only [List.map_map, zipIdx_map_range, Function.comp_def]
  exact List.map_congr_left fun j _ => rfl

theorem redRows_codes : (redRows s c).1 = (List.range (c.f 1 15 0)).map (c.redCode s) := by
  simp only [redRows, List.map_map]
  rfl

variable (live : (s.bench b).out = false) (run : (s.bench b).muRun = some r)
include live run

theorem masonDone_mm (op : r.cmd.op = 0x40) : masonDone s b =
    ((((List.range (r.cmd.f 1 15 0)).foldl (fun t i => t.wr (r.cmd.addr 5 + i * r.cmd.stride 5) (r.cmd.mmBytes s r.passes i))
        (s.modBench b (fun x => { x with muRun := none }))).addReg (R.MU_BUSY b)
      (r.cmd.f 1 15 0 / 32 * (r.cmd.f 1 31 16 / 32) * r.cmd.f 1 47 32 * r.passes)).charge b r.cmd.tag (mmRows s r.cmd r.passes).2.toNat) := by
  simp only [masonDone, live, run, op, masonCycles, mmRows_codes, zipIdx_map_range, List.foldl_map, List.flatMap_map, if_true]
  rfl

theorem masonDone_red (op : r.cmd.op ≠ 0x40) : masonDone s b =
    ((((s.modBench b (fun x => { x with muRun := none })).wr (r.cmd.addr 5)
        ((List.range (r.cmd.f 1 15 0)).flatMap (fun i => leBytes 4 (r.cmd.redCode s i)))).addReg (R.MU_BUSY b)
      (cdiv (r.cmd.f 1 15 0) 32 * r.cmd.f 1 31 16)).charge b r.cmd.tag (redRows s r.cmd).2.toNat) := by
  simp only [masonDone, live, run, op, masonCycles, redRows_codes, List.flatMap_map, if_false]
  rfl

/-- A command that is done frees its unit; beside memory it reaches registers and, through FLAG_RAISED, the log and the outputs. -/
theorem masonDone_stores : (s.modBench b (fun x => { x with muRun := none })).Stores (masonDone s b) := by
  by_cases op : r.cmd.op = 0x40
  · rw [masonDone_mm live run op]
    exact (State.Stores.addReg (List.foldlRecOn _ _ (.refl _) fun _ h _ _ => h.wr)).trans (State.charge_notes _ _ _ _).stores
  · rw [masonDone_red live run op]
    exact (State.Stores.refl _).wr.addReg.trans (State.charge_notes _ _ _ _).stores

end Results

/-! ### Its registers that act (R157) -/

section MasonRegisters
variable {s : State} {b : Fin 24} {v : Nat}

theorem exec_masonCommandDone : exec (.masonCommandDone b) s = .next (masonDone s b) := rfl
theorem exec_muResume : exec (.muResume b) s = .next (muResume s b) := rfl
theorem exec_muSkip : exec (.muSkip b) s = .next (muSkip s b) := rfl
theorem exec_muCntClr : exec (.muCntClr b) s = .next (muCntClr s b) := rfl
theorem exec_muPassesWrite : exec (.muPassesWrite b v) s = .next (muPassesWrite s b v) := rfl

theorem masonDone_idle (idle : (s.bench b).muRun = none) : masonDone s b = s := by simp [masonDone, idle]
theorem muResume_running (run : (s.bench b).mu.cause = 0) : muResume s b = s := by simp [muResume, EQ.halted_eq_false run]
theorem muSkip_running (run : (s.bench b).mu.cause = 0) : muSkip s b = s := by simp [muSkip, EQ.halted_eq_false run]

variable (live : (s.bench b).out = false)
include live

theorem muResume_halted (halt : (s.bench b).mu.cause ≠ 0) :
    muResume s b = (s.modBench b (fun x => { x with mu := { x.mu with cause := 0 } })).setFld (R.MU_FAULT b) 31 31 0 := by
  simp only [muResume, live, EQ.halted_eq_true halt]
  rfl

theorem muSkip_halted (halt : (s.bench b).mu.cause ≠ 0) (filled : (s.bench b).mu.cmds ≠ []) : muSkip s b = s.masonPop b := by
  simp only [muSkip, live, EQ.halted_eq_true halt, List.isEmpty_eq_false_iff.2 filled]
  rfl

theorem muCntClr_live : muCntClr s b = s.setRn (R.MU_BUSY b) 0 := by
  simp only [muCntClr, live]
  rfl

theorem muPassesWrite_live : muPassesWrite s b v = if v % 4 = 0 then s else s.setRn (R.MU_PASSES b) (v % 4) := by
  simp [muPassesWrite, live]

end MasonRegisters

/-- Settles O15: a ready command does what its own row says, the results of a command that is done are those of `Cmd.mmCode` and `Cmd.redCode`,
and each register has the effect that its write names. -/
theorem masonUnit : Obligations.MasonUnit := by
  unfold Obligations.MasonUnit
  intro s b c v live q pop k refuse start
  rw [exec_muNop, exec_muSyncWait, exec_muSyncSignal, exec_mm, exec_red, exec_masonCommandDone, exec_muResume, exec_muSkip, exec_muCntClr,
    exec_muPassesWrite]
  refine ⟨fun ready => congrArg _ (muNop_ready live ready), fun ready => congrArg _ (muSyncWait_ready live ready),
    fun ready clear => congrArg _ (muSyncSignal_at_once live ready clear),
    fun r ready when1 run earlier => congrArg _ (muSyncSignal_deferred live ready when1 run earlier),
    fun ready idle item fp32 => ?_, fun ready idle item fl19 => ?_, fun i ready idle item => congrArg _ (mm_refused live ready idle item),
    fun ready idle item => congrArg _ (red_starts live ready idle item), fun i ready idle item => congrArg _ (red_refused live ready idle item),
    fun busy => ⟨fun ready => congrArg _ (mm_waits live ready busy), fun ready => congrArg _ (red_waits live ready busy)⟩,
    fun idle => congrArg _ (masonDone_idle idle), fun r run => ?_, fun halt => congrArg _ (muResume_halted live halt),
    fun halt filled => congrArg _ (muSkip_halted live halt filled),
    fun run => ⟨congrArg _ (muResume_running run), congrArg _ (muSkip_running run)⟩, congrArg _ (muCntClr_live live),
    congrArg _ (muPassesWrite_live live)⟩
  · rw [mm_starts live ready idle item, if_neg (by simp [fp32])]
    rfl
  · rw [mm_starts live ready idle item, if_pos fl19]
    rfl
  · intro d free arg M N K a b' c0 el row red
    have done := masonDone_stores live run
    refine ⟨fun op => congrArg _ (masonDone_mm live run op), fun op => congrArg _ (masonDone_red live run op), _, rfl, ?_, ?_, done.cores,
      done.sync, fun d other => ?_⟩
    · rw [done.bench, State.bench_modBench]
    · rw [done.bench, State.bench_modBench]
    · rw [done.bench, State.modBench, State.bench_setBench_ne _ _ _ _ other.symm]

end Sys2Proof.Machine

namespace Sys2Proof.Machine

/-! ## The dresser (R81, R82, R116 to R134) -/

/-! ### What a write of an engine leaves alone (R95, R208, R237) -/

/-- What a write of an engine can change: what partials can (`State.Stores`), and in the benches, whose planes it may reach. -/
def State.Writes (s t : State) : Prop :=
  t = { s with mem := t.mem, poison := t.poison, log := t.log, logSeq := t.logSeq, flashLog := t.flashLog, flashSeq := t.flashSeq, out := t.out,
               regs := t.regs, benches := t.benches }

section Writes
variable {s t u : State} {a : Nat} {bs : Bytes}

theorem State.Writes.refl (s : State) : s.Writes s := rfl

theorem State.Writes.trans (h : s.Writes t) (k : t.Writes u) : s.Writes u := by
  unfold State.Writes at *
  rw [k, h]

theorem State.Stores.writes (h : s.Stores t) : s.Writes t := by
  unfold State.Writes
  rw [h]

theorem State.Writes.ite {p : Prop} {_ : Decidable p} (h : s.Writes t) (k : s.Writes u) : s.Writes (if p then t else u) := by
  split
  · exact h
  · exact k

theorem State.Writes.modBench {b : Fin 24} {f : Bench → Bench} (h : s.Writes t) : s.Writes (t.modBench b f) := h.trans rfl
theorem State.Writes.wr (h : s.Writes t) : s.Writes (t.wr a bs) := h.trans rfl

theorem State.Writes.activeWrite {b : Fin 24} {n : Nat} (h : s.Writes t) : s.Writes (t.activeWrite b n) := by
  simp only [State.activeWrite]
  split
  · exact h
  · exact .ite h h.modBench

theorem State.Writes.storeWrite {b : Fin 24} (h : s.Writes t) : s.Writes (storeWrite t b a bs) := by
  simp only [Machine.storeWrite]
  split
  · exact h
  split
  · exact .ite h.activeWrite (h.trans rfl)
  · exact .ite h.wr h

theorem State.Writes.wrPiece (h : s.Writes t) : s.Writes (wrPiece t a bs) :=
  .ite h.storeWrite (h.trans (State.Stores.addPiece (.refl t)).writes)

theorem State.Writes.wrLines {k : Nat} (h : s.Writes t) : s.Writes (wrLines t a bs k) := by
  induction k generalizing t a bs with
  | zero => exact h
  | succ k ih => exact .ite (.ite h h.wrPiece) (ih h.wrPiece)

theorem State.Writes.write (h : s.Writes t) : s.Writes (t.write a bs) := h.wrLines
theorem State.Writes.writeIf {p : Prop} {_ : Decidable p} (h : s.Writes t) : s.Writes (if p then t.write a bs else t) := .ite h.write h

theorem State.Writes.cores (h : s.Writes t) : t.cores = s.cores := by rw [h]
theorem State.Writes.derricks (h : s.Writes t) : t.derricks = s.derricks := by rw [h]
theorem State.Writes.sync (h : s.Writes t) : t.sync = s.sync := by rw [h]

end Writes

/-! ### Conditions gathered (R28, R78) -/

theorem Cond.toNat_or (c d : Cond) : (c.or d).toNat = c.toNat ||| d.toNat := by
  obtain ⟨i, o, u, x⟩ := c
  obtain ⟨j, p, v, y⟩ := d
  revert i o u x j p v y
  decide

/-- The conditions of a list gathered: a bit is set where it was, or where an element of the list sets it. -/
theorem Cond.testBit_foldl_or {α : Type} (g : α → Cond) (k : Nat) (l : List α) (c : Cond) :
    (l.foldl (fun c x => c.or (g x)) c).toNat.testBit k = (c.toNat.testBit k || l.any (fun x => (g x).toNat.testBit k)) := by
  induction l generalizing c with
  | nil => simp
  | cons x l ih => simp [ih, Cond.toNat_or, Bool.or_assoc]

/-! ### DRAIN_DESCRIPTOR_ARRIVAL (R117, R133) -/

section Arrival
variable {s : State} {b : Fin 24} {t : Tile} {d : Cmd} {bs : Bytes} {i : Nat}

theorem exec_drainDescriptorArrival : exec (.drainDescriptorArrival b) s = .next (drainArrive s b) := rfl

/-- The 512 entries of n bytes of a table: 0 where it is off, and `bad` for a poisoned entry. -/
def tableEntries (s : State) (on : Bool) (a n bad : Nat) : List Nat :=
  (List.range 512).map (fun j => if on then (match s.read (a + n * j) n with | some v => fromLe v | none => bad) else 0)

theorem tableEntries_eq (s : State) (on : Bool) (a n bad : Nat) : tableEntries s on a n bad =
    (List.range 512).map (fun j => if on = true then ((s.read (a + n * j) n).map fromLe).getD bad else 0) := by
  refine List.map_congr_left fun j _ => ?_
  cases s.read (a + n * j) n with
  | none => rfl
  | some v => rfl

/-- A descriptor with its scale and bias tables as they read. -/
def State.drainRead (s : State) (d : Cmd) : DrainSt :=
  .ready d (tableEntries s (Drain.scale d) (Drain.scaleAddr d) 2 0xC000) (tableEntries s (Drain.bias d) (Drain.biasAddr d) 4 0x7FC00000)

/-- DRAIN_INVALID logged, and the tile's descriptor kept as failed. -/
def State.drainNoted (s : State) (b : Fin 24) (t : Tile) (d : Cmd) (i : Nat) : State :=
  (s.ev 0x211 b (leBytes 3 t.tag ++ leBytes 1 i)).modBench b (fun x => x.setTile { t with drain := .bad d })

/-- What a failing descriptor does beside its event: nothing more to a halted queue, a halt that is due while a COMMIT command waits, and else a
halt at once. -/
theorem State.drainBad_eq : s.drainBad b t d i =
    if (s.bench b).q.cause ≠ 0 then s.drainNoted b t d i
    else if (s.bench b).commitCmd = true then (s.drainNoted b t d i).modBench b (fun y => { y with q := y.q.haltSoon 4 })
    else ((s.drainNoted b t d i).modBench b (·.clearPend)).benchHalt b 4 := by
  have bench : (s.drainNoted b t d i).bench b = (s.bench b).setTile { t with drain := .bad d } := by
    rw [State.drainNoted, State.bench_modBench, (State.ev_notes _ _ _ _).stores.bench]
  have halted : ((s.drainNoted b t d i).bench b).q.halted = (s.bench b).q.halted := by rw [bench]; rfl
  have commit : ((s.drainNoted b t d i).bench b).commitCmd = (s.bench b).commitCmd := by rw [bench]; rfl
  simp only [State.drainNoted, EQ.halted] at halted commit ⊢
  simp only [State.drainBad, EQ.halted, halted, commit, bne_iff_ne]

theorem drainArrive_nothing (nothing : (s.bench b).tiles.find? (fun t => t.fin && decide (t.drain = .waiting)) = none) : drainArrive s b = s := by
  simp [drainArrive, nothing]

variable (live : (s.bench b).out = false) (first : (s.bench b).tiles.find? (fun t => t.fin && decide (t.drain = .waiting)) = some t)
include live first

theorem drainArrive_poisoned (poisoned : s.read t.drainAddr 64 = none) : drainArrive s b = s.drainBad b t [] 1 := by
  simp only [drainArrive, live, first, poisoned]
  rfl

theorem drainArrive_fails (read : s.read t.drainAddr 64 = some bs) (item : drainItem t.drainAddr (Cmd.ofBytes bs) = some i) :
    drainArrive s b = s.drainBad b t (Cmd.ofBytes bs) i := by
  simp only [drainArrive, live, first, read, item]
  rfl

theorem drainArrive_passes (read : s.read t.drainAddr 64 = some bs) (item : drainItem t.drainAddr (Cmd.ofBytes bs) = none) :
    drainArrive s b = s.modBench b (fun y => y.setTile { t with drain := s.drainRead (Cmd.ofBytes bs) }) := by
  simp only [drainArrive, live, first, read, item]
  rfl

end Arrival

/-! ### A row leaves the shadow set (R82, R96) -/

section RowLeft
variable {x : Bench} {t : Tile}

@[simp] theorem Bench.shadow_rowLeft : (x.rowLeft t).shadow = x.shadow.drop 1 := by
  simp only [Bench.rowLeft]
  split
  · split <;> rfl
  · split <;> rfl

variable (alive : t.dead = false)
include alive

theorem Bench.eq_of_mem_rowLeft (more : t.rowsOut < t.M) {w : Tile} (mem : w ∈ (x.rowLeft t).tiles) (id : w.id = t.id) : w = t := by
  simp only [Bench.rowLeft, alive, more] at mem
  exact Bench.eq_of_mem_setTile mem id

/-- With its last row a tile leaves its slot. -/
theorem Bench.id_ne_of_mem_rowLeft (last : t.M ≤ t.rowsOut) {w : Tile} (mem : w ∈ (x.rowLeft t).tiles) : w.id ≠ t.id := by
  simp only [Bench.rowLeft, alive, Nat.not_lt.2 last] at mem
  exact bne_iff_ne.1 (List.mem_filter.1 mem).2

/-- A tile that has a descriptor then awaits its status record. -/
theorem Bench.drained_rowLeft (last : t.M ≤ t.rowsOut) {d : Cmd} {cs bi : List Nat} (ready : t.drain = .ready d cs bi) :
    (x.rowLeft t).drained = x.drained ++ [t] := by
  simp only [Bench.rowLeft, alive, Nat.not_lt.2 last, ready]
  rfl

end RowLeft

/-! ### DRESSER_ROW (R116, R120, R125, R131) -/

/-- The pre-activation that element i of a row reads at `a`: that of a gradient tile with an activation. -/
def Drain.auxIn (s : State) (d : Cmd) (a i : Nat) : Val × Cond :=
  if decide (Drain.mode d = 1) && decide (Drain.fn d ≠ 0) then
    (match s.read (a + Drain.auxSize d * i) (Drain.auxSize d) with | some z => readAux d (fromLe z) | none => (.nan, Cond.none))
  else (.fin false 0, Cond.none)

/-- The elements of a row after `dress`, from the values that the accumulators give. -/
def dressVals (s : State) (b : Fin 24) (d : Cmd) (cs bi : List Nat) (row : Nat) (vs : List Val) : List Dressed :=
  vs.zipIdx.map (fun q => dress s b d q.1 (cs.getD q.2 0) (bi.getD q.2 0) (Drain.auxIn s d (Drain.pre d + Drain.pstride d * row) q.2))

/-- The row scale (R124). -/
def dressScale (d : Cmd) (ds : List Dressed) : Int := rowScaleQ (ds.map (·.w)) (Drain.tmax d)

/-- A dressed row rounded to the output format (R124, R125). -/
def dressOut (d : Cmd) (ds : List Dressed) : List Nat × List OutEl :=
  roundRow d (if Drain.rowScale d = true then (ds.map (·.w)).map (fun w => scaleVal w (lmul false (-(dressScale d ds)))) else ds.map (·.w))

/-- What a dressed row writes: the pre-activations, the row, its Microscaling scales and its row scale (R125). -/
def dressWrites (s : State) (d : Cmd) (row : Nat) (ds : List Dressed) : State :=
  let auxs := ds.filterMap (fun x => x.u.map (auxOut d))
  let s2 := if decide (Drain.mode d = 0) && Drain.aux d then
      s.write (Drain.pre d + Drain.pstride d * row) (auxs.flatMap (fun e => leBytes (Drain.auxSize d) e.code)) else s
  let s3 := s2.write (Drain.out d + Drain.ostride d * row) (rowOut d (dressOut d ds).2)
  let s4 := if decide (Drain.ofmt d = 6) then s3.write (Drain.side d + Drain.sstride d * row) ((dressOut d ds).1.flatMap (leBytes 1)) else s3
  if Drain.rowScale d = true then s4.write (Drain.side d + 2 * row) (leBytes 2 (toBits 15 (dressScale d ds))) else s4

/-- The tile after a row whose elements were rounded to `els`. -/
structure Tile.TookRow (t : Tile) (d : Cmd) (els : List OutEl) (y : Tile) : Prop where
  cmd : y.cmd = t.cmd
  id : y.id = t.id
  dead : y.dead = t.dead
  drain : y.drain = t.drain
  rowsOut : y.rowsOut = t.rowsOut + 1
  screen : y.screen = els.foldl (fun sc e => addBin sc (binOf (Drain.ebase d) e)) t.screen
  conds : ∀ k, els.any (fun e => e.conds.toNat.testBit k) = true → y.conds.testBit k = true

/-- State u after bench b has drained a row of tile t, whose writes lead from s to w: memory is as the writes left it, the row has left the shadow
set, and the tile, y now, stays in its slot until its last row. -/
structure State.DrainedRow (s w : State) (b : Fin 24) (t : Tile) (u : State) (y : Tile) : Prop where
  mem : u.mem = w.mem
  poison : u.poison = w.poison
  shadow : (u.bench b).shadow = (w.bench b).shadow.drop 1
  stays : t.rowsOut + 1 < t.M → ∀ z ∈ (u.bench b).tiles, z.id = t.id → z = y
  leaves : t.M ≤ t.rowsOut + 1 → (u.bench b).drained = (w.bench b).drained ++ [y] ∧ ∀ z ∈ (u.bench b).tiles, z.id ≠ t.id
  cores : u.cores = s.cores
  derricks : u.derricks = s.derricks
  sync : u.sync = s.sync

section Row
variable {s : State} {b : Fin 24} {t : Tile} {d : Cmd} {cs bi : List Nat} {r : ShRow} {rest : List ShRow}

theorem exec_dresserRow : exec (.dresserRow b) s = .next (dresserRow s b) := rfl

theorem State.Notes.ite {s t u : State} {p : Prop} {_ : Decidable p} (h : s.Notes t) (k : s.Notes u) : s.Notes (if p then t else u) := by
  split
  · exact h
  · exact k

theorem State.evIf_notes (s : State) {p : Prop} {_ : Decidable p} (code src : Nat) (bs : Bytes) : s.Notes (if p then s.ev code src bs else s) :=
  .ite (s.ev_notes code src bs) (.refl s)

theorem State.addReg_notes (s : State) (a n : Nat) : s.Notes (s.addReg a n) := s.setRn_notes a _

/-- A dressed row is written; its events, conditions and counts come behind the writes, and then the row leaves the shadow set. -/
theorem dressRow_leaves (s : State) (b : Fin 24) (t : Tile) (d : Cmd) (cs bi : List Nat) (r : ShRow) :
    let ds := dressVals (drainVals s t r (Drain.ncols d)).2.1 b d cs bi r.row (drainVals s t r (Drain.ncols d)).1
    ∃ v y, dressRow s b t d cs bi r = v.modBench b (·.rowLeft y) ∧ (dressWrites (drainVals s t r (Drain.ncols d)).2.1 d r.row ds).Notes v
      ∧ t.TookRow d (dressOut d ds).2 y := by
  intro ds
  refine ⟨_, _, rfl, ?_, ⟨rfl, rfl, rfl, rfl, rfl, rfl, fun k raised => ?_⟩⟩
  · refine .trans ?_ (.ite ((State.ev_notes _ _ _ _).trans (State.addReg_notes _ _ _)) (.refl _))
    refine .trans ?_ (((State.charge_notes _ _ _ _).trans (State.addReg_notes _ _ _)).trans (State.addReg_notes _ _ _))
    exact (State.evIf_notes _ _ _ _).trans ((State.evIf_notes _ _ _ _).trans (State.evIf_notes _ _ _ _))
  · show (t.conds ||| ((List.foldl (fun (c : Cond) (e : OutEl) => c.or e.conds) _ (dressOut d ds).2).toNat ||| _)).testBit k = true
    simp only [Nat.testBit_or, Cond.testBit_foldl_or, raised, Bool.or_true, Bool.true_or]

/-- To form a row's values, its spill records take the final accumulators (R94). -/
theorem drainVals_writes (n : Nat) : s.Writes (drainVals s t r n).2.1 := by
  unfold drainVals
  split
  · exact .refl s
  split
  · exact (State.Stores.refl s).wrAdd.writes
  · exact .refl s

theorem dressWrites_writes (row : Nat) (ds : List Dressed) : s.Writes (dressWrites s d row ds) :=
  (State.Writes.refl s).writeIf.write.writeIf.writeIf

theorem dresserRow_empty (empty : (s.bench b).shadow = []) : dresserRow s b = s := by simp [dresserRow, empty]

section Oldest
variable (oldest : (s.bench b).shadow = r :: rest) (known : (s.bench b).tile? r.tile = some t)
include oldest known

theorem dresserRow_waiting (waits : t.drain = .waiting) : dresserRow s b = s := by simp [dresserRow, oldest, known, waits]

variable (live : (s.bench b).out = false)
include live

theorem dresserRow_bad (bad : t.drain = .bad d) : dresserRow s b = s.modBench b (·.rowLeft { t with rowsOut := t.rowsOut + 1 }) := by
  simp [dresserRow, live, oldest, known, bad]

theorem dresserRow_ready (ready : t.drain = .ready d cs bi) : dresserRow s b = dressRow s b t d cs bi r := by
  simp [dresserRow, live, oldest, known, ready]

/-- The oldest row of a tile that has its descriptor is dressed, written and counted, and leaves the shadow set. -/
theorem dresserRow_drains (ready : t.drain = .ready d cs bi) (alive : t.dead = false) :
    let s1 := (drainVals s t r (Drain.ncols d)).2.1
    let ds := dressVals s1 b d cs bi r.row (drainVals s t r (Drain.ncols d)).1
    ∃ y, t.TookRow d (dressOut d ds).2 y ∧ s.DrainedRow (dressWrites s1 d r.row ds) b t (dresserRow s b) y := by
  intro s1 ds
  obtain ⟨v, y, leaves, notes, took⟩ := dressRow_leaves s b t d cs bi r
  rw [dresserRow_ready oldest known live ready, leaves]
  have bench : (v.modBench b (·.rowLeft y)).bench b = ((dressWrites s1 d r.row ds).bench b).rowLeft y := by
    rw [State.bench_modBench, notes.stores.bench]
  have writes : s.Writes (v.modBench b (·.rowLeft y)) :=
    ((drainVals_writes _).trans (dressWrites_writes r.row ds)).trans notes.stores.writes.modBench
  have yAlive : y.dead = false := took.dead.trans alive
  have rows : y.M = t.M := by rw [Tile.M, took.cmd, Tile.M]
  refine ⟨y, took, notes.mem, notes.poison, ?_, fun more z mem id => ?_, fun last => ?_, writes.cores, writes.derricks, writes.sync⟩
  · rw [bench, Bench.shadow_rowLeft]
  · rw [bench] at mem
    exact Bench.eq_of_mem_rowLeft yAlive (by rw [took.rowsOut, rows]; exact more) mem (id.trans took.id.symm)
  · have gone : y.M ≤ y.rowsOut := by rw [took.rowsOut, rows]; exact last
    rw [bench, ← took.id]
    exact ⟨Bench.drained_rowLeft yAlive gone (took.drain.trans ready), fun z mem => Bench.id_ne_of_mem_rowLeft yAlive gone mem⟩

end Oldest

end Row

/-! ### TILE_STATUS_WRITE and the registers (R81, R123, R134) -/

section Status
variable {s : State} {b : Fin 24} {t : Tile} {rest : List Tile} {p : Fin 2} {off : Fin 8192} {v : Nat}

theorem exec_tileStatusWrite : exec (.tileStatusWrite b) s = .next (tileStatus s b) := rfl
theorem exec_drTableWrite : exec (.drTableWrite b p off v) s = .next (drTableWrite s b p off v) := rfl
theorem exec_drCntClr : exec (.drCntClr b) s = .next (drCntClr s b) := rfl

theorem tileStatus_none (nothing : (s.bench b).drained = []) : tileStatus s b = s := by simp [tileStatus, nothing]

variable (live : (s.bench b).out = false)
include live

theorem tileStatus_writes (oldest : (s.bench b).drained = t :: rest) :
    tileStatus s b = ((s.write t.status (statusHead t ++ (if t.wb.testBit 1 then t.screen.flatMap (leBytes 4) else []))).modBench b
      (fun y => { y with drained := y.drained.drop 1 })).addReg (R.BN_TILES_DONE b) 1 := by
  simp only [tileStatus, live, oldest]
  rfl

theorem drTableWrite_busy (busy : tbusy s b p = true) :
    drTableWrite s b p off v = s.ev 0x212 b (leBytes 2 (0x1000 + 0x2000 * p.val + off.val)) := by
  simp [drTableWrite, live, busy]

/-- An entry's place in the tables: the pair, and the entry of its window. -/
theorem drTableWrite_free (free : tbusy s b p = false) :
    drTableWrite s b p off v = s.setFld (R.DR_TABLE b ((p.val * 4096 + off.val / 2) / 4)) (16 * ((p.val * 4096 + off.val / 2) % 4) + 15)
      (16 * ((p.val * 4096 + off.val / 2) % 4)) v := by
  have pair : p.val % 2 = p.val := Nat.mod_eq_of_lt p.isLt
  have entry : off.val / 2 % 4096 = off.val / 2 := Nat.mod_eq_of_lt (by omega)
  simp only [drTableWrite, live, free, pair, entry]
  rfl

theorem drCntClr_live : drCntClr s b = ((s.setRn (R.DR_MARKED b) 0).setRn (R.DR_SATURATED b) 0).setRn (R.DR_ROWS b) 0 := by
  simp only [drCntClr, live]
  rfl

end Status

/-- Settles O14: a descriptor's arrival is decided by its read and its first failing check, and a row is drained as `dresserRow_drains` says, whose
`dressVals` and `dressWrites` are the columns and writes that the statement writes out. -/
theorem dresserCommands : Obligations.DresserCommands := by
  unfold Obligations.DresserCommands
  intro s b t p off v live x
  refine ⟨fun nothing => ?_, fun first => ⟨fun bs read item => ?_, fun i d fails => ?_⟩,
    fun r rest d cs bi oldest known ready alive => ?_, fun r rest d oldest known failed => ?_, fun r rest oldest known waits => ?_,
    fun empty => ?_, fun rest oldest => ?_, fun nothing => ?_, fun busy => ?_, fun free => ?_, ?_⟩
  · rw [exec_drainDescriptorArrival, drainArrive_nothing nothing]
  · intro d scales biases
    rw [exec_drainDescriptorArrival, drainArrive_passes live first read item, State.drainRead, tableEntries_eq, tableEntries_eq]
  · have arrive : drainArrive s b = s.drainBad b t d i := by
      rcases fails with ⟨poisoned, rfl, rfl⟩ | ⟨bs, read, rfl, item⟩
      · exact drainArrive_poisoned live first poisoned
      · exact drainArrive_fails live first read item
    rw [exec_drainDescriptorArrival, arrive, State.drainBad_eq]
    refine ⟨fun run free => ?_, fun run commit => ?_, fun halt => ?_⟩
    · rw [if_neg (fun halt => halt run), if_neg (by simp [x, free])]
      rfl
    · rw [if_neg (fun halt => halt run), if_pos commit]
      rfl
    · rw [if_pos halt]
      rfl
  · intro vs s1 paddr z ds auxs qr out s2 s3 s4 s5 screen
    have auxIn : ∀ i, Drain.auxIn s1 d paddr i = z i := by
      intro i
      simp only [Drain.auxIn, Bool.and_eq_true, decide_eq_true_eq]
      rfl
    have cols : dressVals s1 b d cs bi r.row vs = ds := List.map_congr_left fun q _ => congrArg (dress s1 b d q.1 _ _) (auxIn q.2)
    have store : dressWrites s1 d r.row ds = s5 := by
      simp only [dressWrites, Bool.and_eq_true, decide_eq_true_eq]
      rfl
    obtain ⟨y, took, drained⟩ := dresserRow_drains oldest known live ready alive
    rw [cols] at took drained
    rw [store] at drained
    exact ⟨dresserRow s b, y, exec_dresserRow, drained.mem, drained.poison, drained.shadow, took.cmd, took.rowsOut, took.screen,
      took.dead.trans alive, took.conds, drained.stays, drained.leaves, drained.cores, drained.derricks, drained.sync⟩
  · rw [exec_dresserRow, dresserRow_bad oldest known live failed]
  · rw [exec_dresserRow, dresserRow_waiting oldest known waits]
  · rw [exec_dresserRow, dresserRow_empty empty]
  · rw [exec_tileStatusWrite, tileStatus_writes live oldest]
  · rw [exec_tileStatusWrite, tileStatus_none nothing]
  · rw [exec_drTableWrite, drTableWrite_busy live busy]
  · rw [exec_drTableWrite, drTableWrite_free live free]
  · rw [exec_drCntClr, drCntClr_live live]

end Sys2Proof.Machine

namespace Sys2Proof.Machine

/-! ## The table builder (R139 to R148) -/

/-- The tile whose tables TABLE_BUILD builds: the first on the table path that fills and has beats without tables (R146). -/
def Bench.building? (x : Bench) : Option Tile :=
  x.tiles.find? (fun t => t.filling && decide (t.path ≠ 0) && decide (t.built < t.npass * t.M))

/-- The activation codes of beat (p, r), one list with its conditions for each of the beat's slots (R139). -/
def Tile.tableCodes (t : Tile) (s : State) (b : Fin 24) (p r : Nat) : List (List (Nat × Int) × Cond) :=
  (List.range t.span).map (fun i => slotCodes s b (t.slot p r i) t.fmtCode t.actMx (min 512 (4 * (16 * t.kpass) - 512 * i)))

/-- The activation values of beat (p, r), slot after slot (R141). -/
def Tile.tableVals (t : Tile) (s : State) (b : Fin 24) (p r : Nat) : List Val :=
  (t.tableCodes s b p r).flatMap (fun q => q.1.map (fun c => logDecode c.1 t.fmt c.2))

/-- The conditions of the codes of beat (p, r) (R41, R78). -/
def Tile.tableConds (t : Tile) (s : State) (b : Fin 24) (p r : Nat) : Cond :=
  (t.tableCodes s b p r).foldl (fun k q => k.or q.2) Cond.none

/-- Entry i of the table of four values: the rounded sum of those whose bit is set in i (R141). -/
def tableEntry (four : List Val) (i : Nat) : Nat :=
  if four.any Val.isNan = true then 0x40000001
  else entRound (sumVals ((List.range 4).map (fun j => if i.testBit j = true then four.getD j (.fin false 0) else .fin false 0)))

/-- The tables of `rows` cell rows as the table store holds them (R142). -/
def tableBytes (vals : List Val) (rows : Nat) : Bytes :=
  (List.range rows).flatMap (fun k => (List.range 16).flatMap (fun i => leBytes 4 (tableEntry ((vals.drop (4 * k)).take 4) i)))

/-- A bench once the tables of beat (p, r) of tile t are built: the beat counted, its conditions gathered, its slots read, its sum kept (R142). -/
def Bench.tableMade (x : Bench) (t : Tile) (p r conds asum : Nat) : Bench :=
  { (x.readSlots t p r).setTile { t with built := t.built + 1, conds := t.conds ||| conds } with
    tables := x.tables ++ [⟨t.id, t.built, t.expTag p r, asum⟩] }

/-! ### Its parts -/

theorem quadTable_eq (four : List Val) : quadTable four = (List.range 16).map (tableEntry four) := rfl

theorem flatMap_quadTable (vals : List Val) (rows : Nat) :
    ((List.range rows).flatMap (fun k => quadTable ((vals.drop (4 * k)).take 4))).flatMap (leBytes 4) = tableBytes vals rows := by
  simp only [quadTable_eq, List.flatMap_assoc, List.flatMap_map, tableBytes]

section Reads
variable (x : Bench) (t : Tile) (p r conds asum : Nat)

/-- Reading the slots of a beat changes nothing but what lies beside them (R261). -/
theorem Bench.readSlots_eq : x.readSlots t p r = { x with smeta := (x.readSlots t p r).smeta } := by
  refine List.foldlRecOn (motive := fun y : Bench => y = { x with smeta := y.smeta }) _ _ rfl fun y kept i _ => ?_
  rw [kept]
  rfl

@[simp] theorem Bench.readSlots_tables : (x.readSlots t p r).tables = x.tables := by rw [readSlots_eq]
@[simp] theorem Bench.readSlots_q : (x.readSlots t p r).q = x.q := by rw [readSlots_eq]
@[simp] theorem Bench.readSlots_inArray : (x.readSlots t p r).inArray = x.inArray := by rw [readSlots_eq]

@[simp] theorem Bench.tableMade_q : (x.tableMade t p r conds asum).q = x.q := x.readSlots_q t p r
@[simp] theorem Bench.tableMade_inArray : (x.tableMade t p r conds asum).inArray = x.inArray := x.readSlots_inArray t p r

end Reads

/-! ### TABLE_BUILD -/

section TableBuild
variable {s : State} {b : Fin 24} {t : Tile}

theorem exec_tableBuild : exec (.tableBuild b) s = .next (tableBuild s b) := rfl

theorem tableBuild_idle (idle : (s.bench b).out = true ∨ (s.bench b).frozen = true ∨ (s.bench b).building? = none) : tableBuild s b = s := by
  rcases idle with out | frozen | none
  · simp [tableBuild, out]
  · simp [tableBuild, frozen]
  · simp only [Bench.building?] at none
    simp only [tableBuild, none, ite_self]

theorem tableBuild_ahead (next : (s.bench b).building? = some t) (ahead : t.beat + 4 ≤ t.built) : tableBuild s b = s := by
  simp only [Bench.building?] at next
  simp only [tableBuild, next, ahead, decide_true, Bool.or_true, if_true, ite_self]

variable (run : (s.bench b).runs = true) (thawed : (s.bench b).frozen = false) (next : (s.bench b).building? = some t)
  (room : t.built < t.beat + 4)
include run thawed next room

/-- With room for a beat, the check of its slots alone decides (R146, R148). -/
theorem tableBuild_checks {p r : Nat} (pass : t.built / t.M = p) (row : t.built % t.M = r) : tableBuild s b =
    match slotFault (s.bench b) t p r with
    | some f => s.beginFault b f
    | none => ((s.modBench b (·.tableMade t p r (t.tableConds s b p r).toNat (entRound (sumVals (t.tableVals s b p r))))).wr
        (storeBase b + 0x300000 + t.built % 8 * 0x8000) (tableBytes (t.tableVals s b p r) (16 * t.kpass))).charge b t.tag
          (t.tableConds s b p r).toNat := by
  have out := Bench.out_of_runs run
  have faulty := Bench.faulty_of_runs run t
  simp only [Bench.building?] at next
  simp only [tableBuild, out, thawed, next, faulty, Nat.not_le.2 room, pass, row, decide_false, Bool.or_self, Bool.false_eq_true, if_false,
    flatMap_quadTable, Bench.setTile, Bench.readSlots_tables]
  rfl

theorem tableBuild_faults {p r : Nat} {f : TileFault} (pass : t.built / t.M = p) (row : t.built % t.M = r)
    (bad : slotFault (s.bench b) t p r = some f) : tableBuild s b = s.modBench b (·.beginFault f) := by
  rw [tableBuild_checks run thawed next room pass row, bad]
  rfl

theorem tableBuild_builds {p r : Nat} (pass : t.built / t.M = p) (row : t.built % t.M = r) (good : slotFault (s.bench b) t p r = none) :
    tableBuild s b = ((s.modBench b (·.tableMade t p r (t.tableConds s b p r).toNat (entRound (sumVals (t.tableVals s b p r))))).wr
      (storeBase b + 0x300000 + t.built % 8 * 0x8000) (tableBytes (t.tableVals s b p r) (16 * t.kpass))).charge b t.tag
        (t.tableConds s b p r).toNat := by
  rw [tableBuild_checks run thawed next room pass row, good]

end TableBuild

/-- Settles O12: a running array's builder is four beats ahead, faults, or writes the tables of one beat; the write and the charge leave every
bench to `Bench.tableMade`. -/
theorem tableBuilt : Obligations.TableBuilt := by
  unfold Obligations.TableBuilt
  intro s b x next
  refine ⟨fun idle => ?_, fun t run thawed first => ?_⟩
  · rw [exec_tableBuild, tableBuild_idle idle]
  · intro p r kp parts vals conds entry
    refine ⟨fun ahead => ?_, fun f room bad => ?_, fun room good => ?_⟩
    · rw [exec_tableBuild, tableBuild_ahead first ahead]
    · rw [exec_tableBuild, tableBuild_faults run thawed first room rfl rfl bad]
    · have built := tableBuild_builds run thawed first room rfl rfl good
      have stored : (s.modBench b (·.tableMade t p r conds.toNat (entRound (sumVals vals)))).Stores (tableBuild s b) := by
        rw [built]
        exact (State.Stores.refl _).wr.trans (State.charge_notes _ _ _ _).stores
      refine ⟨?_, tableBuild s b, exec_tableBuild, stored.writes.cores, stored.writes.sync, stored.writes.derricks, ?_, ?_, fun c other => ?_⟩
      · rw [exec_tableBuild, built]
        rfl
      · rw [stored.bench, State.bench_modBench, Bench.tableMade_q]
      · rw [stored.bench, State.bench_modBench, Bench.tableMade_inArray]
      · rw [stored.bench, State.modBench, State.bench_setBench_ne _ _ _ _ other.symm]

end Sys2Proof.Machine

namespace Sys2Proof.Machine

/-! ## What the collective units leave alone (R305 to R317, R331 to R354) -/

/-- What the work of a collective unit can change: what a write of an engine can (`State.Writes`), the ports and the lists of the router, and the
units with their tallies and held flits. -/
def State.Exchanges (s t : State) : Prop :=
  t = { s with mem := t.mem, poison := t.poison, log := t.log, logSeq := t.logSeq, flashLog := t.flashLog, flashSeq := t.flashSeq, out := t.out,
               regs := t.regs, benches := t.benches, ports := t.ports, e2eTx := t.e2eTx, inbox := t.inbox, unreachLog := t.unreachLog,
               colls := t.colls, tally := t.tally, ended := t.ended, lateLog := t.lateLog, early := t.early }

section Exchanges
variable {s t u : State}

/-! ### The ways in which the work is put together -/

theorem State.Exchanges.refl (s : State) : s.Exchanges s := rfl

theorem State.Exchanges.trans (h : s.Exchanges t) (k : t.Exchanges u) : s.Exchanges u := by
  unfold State.Exchanges at *
  rw [k, h]

theorem State.Writes.exchanges (h : s.Writes t) : s.Exchanges t := by
  unfold State.Exchanges
  rw [h]

theorem State.Exchanges.spall (h : s.Exchanges t) : t.spall = s.spall := by rw [h]

theorem State.Exchanges.ite {p : Prop} {_ : Decidable p} (h : s.Exchanges t) (k : s.Exchanges u) : s.Exchanges (if p then t else u) := by
  split
  · exact h
  · exact k

theorem State.Exchanges.iteFst {α : Type} {p : Prop} {_ : Decidable p} {x y : State × α} (h : s.Exchanges x.1) (k : s.Exchanges y.1) :
    s.Exchanges (if p then x else y).1 := by
  split
  · exact h
  · exact k

theorem State.Exchanges.fold {α : Type} {f : State → α → State} {l : List α} (step : ∀ {u a}, s.Exchanges u → s.Exchanges (f u a))
    (h : s.Exchanges t) : s.Exchanges (l.foldl f t) :=
  List.foldlRecOn l f h fun _ kept _ _ => step kept

/-! ### The ports and the router (R311 to R317) -/

section Router
variable {p : Fin 16} {d n : Nat} {f : Flit}

theorem State.Exchanges.addReg {a : Nat} (h : s.Exchanges t) : s.Exchanges (t.addReg a n) := h.trans rfl
theorem State.Exchanges.setRn {a : Nat} (h : s.Exchanges t) : s.Exchanges (t.setRn a n) := h.trans rfl
theorem State.Exchanges.ev {code src : Nat} {bs : Bytes} (h : s.Exchanges t) : s.Exchanges (t.ev code src bs) :=
  h.trans (t.ev_notes code src bs).stores.writes.exchanges
theorem State.Exchanges.raise {src : Nat} (h : s.Exchanges t) : s.Exchanges (t.raise src) := h.trans (t.raise_notes src).stores.writes.exchanges
theorem State.Exchanges.write {a : Nat} {bs : Bytes} (h : s.Exchanges t) : s.Exchanges (t.write a bs) :=
  h.trans (State.Writes.refl t).write.exchanges

theorem State.Exchanges.modPort {g : Port → Port} (h : s.Exchanges t) : s.Exchanges (t.modPort p g) := h.trans rfl
theorem State.Exchanges.send {w : Wire} (h : s.Exchanges t) : s.Exchanges (t.send p w) := h.trans rfl
theorem State.Exchanges.returnCredits (h : s.Exchanges t) : s.Exchanges (t.returnCredits p) := .ite h.send h

theorem State.Exchanges.freeBuf {from? : Option (Nat × Nat)} (h : s.Exchanges t) : s.Exchanges (t.freeBuf from?) := by
  cases from? with
  | none => exact h
  | some _ => exact h.modPort.returnCredits

theorem State.Exchanges.sendData {w : WaitFlit} (h : s.Exchanges t) : s.Exchanges (t.sendData p w) := h.modPort.send.freeBuf

theorem State.Exchanges.pump (h : s.Exchanges t) : s.Exchanges (t.pump p n) := by
  induction n generalizing t with
  | zero => exact h
  | succ n ih =>
    simp only [State.pump]
    split
    · exact h
    · exact ih h.modPort.sendData

theorem State.Exchanges.enqueue {w : WaitFlit} (h : s.Exchanges t) : s.Exchanges (t.enqueue p w) := h.modPort.pump
theorem State.Exchanges.unreachable (h : s.Exchanges t) : s.Exchanges (t.unreachable f) := h.addReg.ev

/-- Each way of a flit through the router: into the inbox, dropped, or queued at a port. -/
theorem State.Exchanges.place {vc : Nat} {inp : Option (Nat × Nat)} (h : s.Exchanges t) : s.Exchanges (t.place f vc inp).1 := by
  simp only [State.place]
  split
  · exact h.trans rfl
  · exact h.addReg.freeBuf
  · exact h.unreachable.freeBuf
  refine .iteFst h.enqueue (.iteFst h.unreachable.freeBuf ?_)
  split
  · exact h.addReg.enqueue
  · exact h.enqueue

theorem State.Exchanges.setTally {x : Tally} (h : s.Exchanges t) : s.Exchanges (t.setTally n x) := h.trans rfl

theorem State.Exchanges.tallySent (h : s.Exchanges t) : s.Exchanges (t.tallySent f) := by
  refine .ite ?_ h
  split
  · exact h.setTally
  · exact h

theorem State.Exchanges.setE2e {w : E2eTx} (h : s.Exchanges t) : s.Exchanges (t.setE2e w) := h.trans rfl

theorem State.Exchanges.logUnreach (h : s.Exchanges t) : s.Exchanges (t.logUnreach d) := by
  simp only [State.logUnreach]
  split
  · exact .ite h (h.ev.trans rfl)
  · exact h.ev.trans rfl

theorem State.Exchanges.noRoute (h : s.Exchanges t) : s.Exchanges (t.noRoute f) := .ite (h.addReg.logUnreach.trans rfl) h.addReg.logUnreach

theorem State.Exchanges.e2ePump (h : s.Exchanges t) : s.Exchanges (t.e2ePump d n) := by
  induction n generalizing t with
  | zero => exact h
  | succ n ih =>
    simp only [State.e2ePump]
    split
    · exact h
    · exact .ite h (.ite (ih h.setE2e.noRoute) (ih h.setE2e.tallySent.place))

theorem State.Exchanges.inject (h : s.Exchanges t) : s.Exchanges (t.inject f).1 :=
  .iteFst h.tallySent.place (.iteFst (.iteFst h.addReg.logUnreach h.place) (.iteFst h.addReg.logUnreach h.setE2e.e2ePump))

end Router

/-! ### The collective units (R337 to R354) -/

section Units
variable {v : Fin 4} {r : CollRun} {c n : Nat} {f : Flit}

theorem State.Exchanges.modColl {g : Coll → Coll} (h : s.Exchanges t) : s.Exchanges (t.modColl v g) := h.trans rfl
theorem State.Exchanges.setColl (h : s.Exchanges t) : s.Exchanges (t.setColl v r) := h.trans rfl
theorem State.Exchanges.collHalt {cause item tag : Nat} (h : s.Exchanges t) : s.Exchanges (t.collHalt v cause item tag) := h.modColl.setRn.raise

theorem State.Exchanges.collSend {dst id : Nat} {hd : ChunkHdr} {data : Bytes} (h : s.Exchanges t) :
    s.Exchanges (t.collSend v dst id hd data) := h.inject.addReg

theorem State.Exchanges.spread {hd : ChunkHdr} {data : Bytes} (h : s.Exchanges t) : s.Exchanges (spread t v r hd data n) := by
  induction n generalizing t with
  | zero => exact h
  | succ n ih =>
    simp only [Machine.spread]
    refine ih ?_
    split
    · exact .fold (fun h => h.collSend) h
    · exact .ite h.collSend h
    · exact h

theorem State.Exchanges.relayChunk {hd : ChunkHdr} {data : Bytes} (h : s.Exchanges t) : s.Exchanges (Machine.relay t v r n c hd data) := by
  refine State.Exchanges.spread ?_
  split
  · exact .ite h h.collSend
  · exact h

theorem State.Exchanges.rawTo {dst o : Nat} {b : Bytes} (h : s.Exchanges t) : s.Exchanges (rawTo t v r dst o b) :=
  .ite h.write (.fold (fun h => h.collSend) h)

theorem State.Exchanges.collLaunch (h : s.Exchanges t) : s.Exchanges (collLaunch t v r) := by
  simp only [Machine.collLaunch]
  split
  · exact .fold (fun h => h.spread) h.write
  · exact .ite (.fold (fun h => h.spread) h.write) h
  · exact .fold (fun h => h.rawTo) h
  · exact .setColl (.fold (fun h => h.rawTo) h)
  · exact h

theorem State.Exchanges.noteRescaled {on : Bool} (h : s.Exchanges t) : s.Exchanges (t.noteRescaled v r c on).1 :=
  .iteFst (.ite h.addReg.ev h.addReg) h

theorem State.Exchanges.writeCinfo {x : Int} {flags count : Nat} (h : s.Exchanges t) : s.Exchanges (writeCinfo t r c x flags count) := .ite h h.write
theorem State.Exchanges.lateFlit {id : Nat} (h : s.Exchanges t) : s.Exchanges (t.lateFlit v id) := .ite h.addReg (h.addReg.ev.trans rfl)

theorem State.Exchanges.tallyRecv (h : s.Exchanges t) : s.Exchanges (t.tallyRecv f) := by
  simp only [State.tallyRecv]
  split
  · exact h.setTally
  · exact h

/-- A flit that its collective accepts: a RETRY, a piece of output, a part of a chunk, or a late one (R340, R347). -/
theorem State.Exchanges.collAccept (h : s.Exchanges t) : s.Exchanges (collAccept t v r f) := by
  have kept := h.tallyRecv (f := f)
  refine .ite h.lateFlit (.ite (.setColl (.addReg ?_)) (.ite (.ite kept.write.setColl ?_) ?_))
  · split
    · exact kept.relayChunk
    · exact kept
  · refine .ite (.setColl (.ite (.writeCinfo (.noteRescaled ?_)) (.noteRescaled ?_))) (.setColl ?_)
    all_goals
      split
      · exact kept.write.relayChunk
      · exact kept.write
  · split
    · exact h.lateFlit
    · exact .ite kept (.ite h.lateFlit (.setColl (.noteRescaled kept.setRn)))

theorem State.Exchanges.collFlit (h : s.Exchanges t) : s.Exchanges (collFlit t f) := by
  simp only [Machine.collFlit]
  split
  · exact h.collAccept
  · exact .ite h.lateFlit (.ite h.addReg (h.trans rfl))

theorem State.Exchanges.collBegin {cmd : Cmd} {key : Option Nat} (h : s.Exchanges t) : s.Exchanges (collBegin t v cmd key) :=
  .fold (fun h => h.collFlit) (h.modColl.collLaunch.trans rfl)

theorem State.Exchanges.collClaimed {res : Nat ⊕ Nat} (h : s.Exchanges t) : s.Exchanges (collClaimed t v res) := by
  simp only [Machine.collClaimed]
  split
  · split
    · exact h.collBegin
    · exact h.collHalt
  · exact h.modColl

end Units
end Exchanges

end Sys2Proof.Machine

namespace Sys2Proof.Machine

/-! ## Stream claims (R160 to R168, R181, R423) -/

/-! ### Registers beside an event (R368) -/

theorem State.addRecs_regs (s : State) (code src k : Nat) (cont : Bool) (bs : Bytes) : (s.addRecs code src k cont bs).regs = s.regs := by
  induction k generalizing s cont bs with
  | zero => rfl
  | succ k ih =>
    have one (r : LogRec) : (s.addRec r).regs = s.regs := by
      unfold State.addRec
      split
      · rfl
      · rfl
    simp only [State.addRecs]
    split
    · exact one _
    · rw [ih, one]

section Events
variable {s : State} {a : Nat} (apart : ∀ i, a ≠ R.HX_MSIX_PBA i)
include apart

theorem State.rn_sendVector (canon : s.canonical = true) (v : Nat) : (s.sendVector v).rn a = s.rn a := by
  unfold State.sendVector
  split
  · rfl
  · rw [State.rn_setRn canon, if_neg (apart _)]

theorem State.rn_raise (canon : s.canonical = true) (src : Nat) : (s.raise src).rn a = s.rn a := by
  unfold State.raise
  split
  · exact State.rn_sendVector apart canon _
  · rfl

/-- An event sets no register but the pending bits of vectors. -/
theorem State.rn_ev (canon : s.canonical = true) (code src : Nat) (bs : Bytes) : (s.ev code src bs).rn a = s.rn a := by
  have raised {t : State} {p : Prop} {_ : Decidable p} (n : Nat) (kept : t.canonical = true ∧ t.rn a = s.rn a) :
      (if p then t.raise n else t).canonical = true ∧ (if p then t.raise n else t).rn a = s.rn a := by
    split
    · exact ⟨(t.raise_notes n).2 kept.1, (State.rn_raise apart kept.1 n).trans kept.2⟩
    · exact kept
  have recorded : (s.addRecs code src 8 false bs).rn a = s.rn a := by
    rw [State.rn, State.reg, State.addRecs_regs]
    rfl
  exact (raised 83 (raised 82 (raised 80 ⟨(State.addRecs_notes code src 8 s false bs).2 canon, recorded⟩))).2

end Events

/-! ### The unit goes on (R167) -/

/-- The unit of a claim goes on with its key, or with the reason of its refusal. -/
def State.claimed (s : State) (c : Claim) (r : Nat ⊕ Nat) : State :=
  match c.who with
  | .crusher b => rotClaimed s b r
  | .core b => coreClaimed s b c r
  | .update k => updClaimed s k c r
  | .coll u => collClaimed s u r

section Units
variable {s : State}

@[simp] theorem rotClaimed_spall (b : Fin 24) (r : Nat ⊕ Nat) : (rotClaimed s b r).spall = s.spall := by
  simp only [rotClaimed]
  split
  · cases r with
    | inl key => rfl
    | inr reason => simp [State.crusherHalt]
  · rfl

/-- The cores that a halt reaches change, and no other unit (R289). -/
@[simp] theorem State.coreHalt_spall (b : Fin 24) (cause : Nat) : (s.coreHalt b cause).spall = s.spall := by
  simp only [State.coreHalt]
  split
  · rfl
  · refine List.foldlRecOn (motive := fun t : State => t.spall = s.spall) _ _ rfl fun t kept c _ => ?_
    split
    · exact kept
    · exact kept

@[simp] theorem State.instrEnd_spall (b : Fin 24) : (s.instrEnd b).spall = s.spall := by
  simp only [State.instrEnd]
  split
  · simp
  split
  · simp
  · rfl

@[simp] theorem State.retire_spall (b : Fin 24) : (s.retire b).spall = s.spall := State.instrEnd_spall b

@[simp] theorem State.setG_spall (b : Fin 24) (i : Fin 32) (v : Nat) : (s.setG b i v).spall = s.spall := by
  unfold State.setG
  split
  · rfl
  · rfl

@[simp] theorem coreClaimed_spall (b : Fin 24) (c : Claim) (r : Nat ⊕ Nat) : (coreClaimed s b c r).spall = s.spall := by
  unfold coreClaimed
  split
  · rfl
  · rfl
  · simp

@[simp] theorem State.endWait_spall (k : Fin 8) (p : UpdPhase) : (s.endWait k p).spall = s.spall := by
  unfold State.endWait
  split
  · exact State.addReg_spall _ _ _
  · rfl

@[simp] theorem State.updFail_spall (k : Fin 8) (tag cause item : Nat) (step : Option Nat) : (s.updFail k tag cause item step).spall = s.spall := by
  rw [State.updFail, State.modUe_spall, State.setRn_spall]

@[simp] theorem State.updEnd_spall (k : Fin 8) (r : UpdRun) (cause : Nat) : (s.updEnd k r cause).spall = s.spall := by
  rw [State.updEnd, State.updFail_spall, State.modUe_spall, State.endWait_spall]

@[simp] theorem slotAcquire_spall (k : Fin 8) : (slotAcquire s k).spall = s.spall := by
  simp only [slotAcquire]
  split
  · rfl
  split
  · rfl
  split
  · split
    · simp
    split
    · simp
    split
    · simp
    · rfl
  · rfl

@[simp] theorem updClaimed_spall (k : Fin 8) (c : Claim) (r : Nat ⊕ Nat) : (updClaimed s k c r).spall = s.spall := by
  simp only [updClaimed]
  split
  · rfl
  split
  · rfl
  cases r with
  | inl key => exact slotAcquire_spall k
  | inr reason => exact State.updEnd_spall k _ 3

@[simp] theorem collClaimed_spall (u : Fin 4) (r : Nat ⊕ Nat) : (collClaimed s u r).spall = s.spall := (State.Exchanges.refl s).collClaimed.spall

/-- No unit touches the claim table when its claim is decided. -/
@[simp] theorem State.claimed_spall (c : Claim) (r : Nat ⊕ Nat) : (s.claimed c r).spall = s.spall := by
  unfold State.claimed
  split
  · exact rotClaimed_spall _ r
  · exact coreClaimed_spall _ c r
  · exact updClaimed_spall _ c r
  · exact collClaimed_spall _ r

end Units

/-! ### The decision of a claim (R163, R164, R166, R423) -/

/-- The table can take a claim: a key is valid, the unit may claim the purpose, and no place is uncorrectable. -/
def Spall.Opens (p : Spall) (c : Claim) : Prop :=
  p.valid = true ∧ c.allowed = true ∧ p.spareBad = false ∧ ∀ e ∈ p.entries, e.bad = false

/-- The table with an entry for a claim of a new block (R166, R181). -/
def Spall.grant (p : Spall) (c : Claim) : Spall :=
  { p with entries := p.entries ++ [⟨c.block, c.who.unit, false⟩], high := max p.high (p.entries.length + 1) }

section Decision
variable {s : State} {c : Claim} {rest : List Claim}

theorem Spall.not_opens_iff {p : Spall} : ¬ p.Opens c ↔ (!p.valid || !c.allowed || p.spareBad || p.entries.any (·.bad)) = true := by
  have noneBad : (∀ e ∈ p.entries, e.bad = false) ↔ ¬ p.entries.any (·.bad) = true := by simp
  rw [Spall.Opens, noneBad]
  simp only [Bool.or_eq_true, Bool.not_eq_true', ← Bool.not_eq_true, Classical.not_and_iff_not_or_not, Classical.not_not, or_assoc]

theorem find?_block_eq_none_iff {l : List ClaimEntry} {d : Nat} : l.find? (fun e => e.d == d) = none ↔ ∀ e ∈ l, e.d ≠ d := by simp

theorem State.decideClaim_closed (closed : ¬ s.spall.Opens c) : s.decideClaim c = (s.refuseClaim c 3 none, .inr 3) :=
  if_pos (Spall.not_opens_iff.1 closed)

section Open
variable (opens : s.spall.Opens c)
include opens

theorem State.decideClaim_open : s.decideClaim c =
    match s.spall.entries.find? (fun e => e.d == c.block) with
    | some e => if c.purpose = 3 then (s, .inl (aes128 s.spall.jk c.block)) else (s.refuseClaim c 1 (some e.unit), .inr 1)
    | none => if 256 ≤ s.spall.entries.length then (s.refuseClaim c 2 none, .inr 2)
        else ({ s with spall := s.spall.grant c }, .inl (aes128 s.spall.jk c.block)) := by
  unfold State.decideClaim
  rw [if_neg (fun closed => Spall.not_opens_iff.2 closed opens)]
  simp only [List.length_append, List.length_singleton]
  rfl

theorem State.decideClaim_grants (new : ∀ e ∈ s.spall.entries, e.d ≠ c.block) (room : s.spall.entries.length < 256) :
    s.decideClaim c = ({ s with spall := s.spall.grant c }, .inl (aes128 s.spall.jk c.block)) := by
  simp only [State.decideClaim_open opens, find?_block_eq_none_iff.2 new, if_neg (Nat.not_le.2 room)]

theorem State.decideClaim_full (new : ∀ e ∈ s.spall.entries, e.d ≠ c.block) (full : 256 ≤ s.spall.entries.length) :
    s.decideClaim c = (s.refuseClaim c 2 none, .inr 2) := by
  simp only [State.decideClaim_open opens, find?_block_eq_none_iff.2 new, if_pos full]

variable {e : ClaimEntry} (held : s.spall.entries.find? (fun e => e.d == c.block) = some e)
include held

theorem State.decideClaim_shares (purpose : c.purpose = 3) : s.decideClaim c = (s, .inl (aes128 s.spall.jk c.block)) := by
  simp only [State.decideClaim_open opens, held, if_pos purpose]

theorem State.decideClaim_held (purpose : c.purpose ≠ 3) : s.decideClaim c = (s.refuseClaim c 1 (some e.unit), .inr 1) := by
  simp only [State.decideClaim_open opens, held, if_neg purpose]

end Open

/-- A refusal changes the log, the outputs and registers (R167). -/
theorem State.refuseClaim_notes (s : State) (c : Claim) (reason : Nat) (holder : Option Nat) : s.Notes (s.refuseClaim c reason holder) :=
  (((s.ev_notes _ _ _).trans (State.setRn_notes _ _ _)).trans (State.setRn_notes _ _ _)).trans (State.setRn_notes _ _ _)

theorem State.refuseClaim_spall (reason : Nat) (holder : Option Nat) : (s.refuseClaim c reason holder).spall = s.spall :=
  (s.refuseClaim_notes c reason holder).stores.writes.exchanges.spall

/-- A refusal is counted in SP_REFUSED (R167). -/
theorem State.rn_refuseClaim (canon : s.canonical = true) (reason : Nat) (holder : Option Nat) :
    (s.refuseClaim c reason holder).rn R.SP_REFUSED = (s.rn R.SP_REFUSED + 1) % 2 ^ 64 := by
  have apart (i : Nat) : R.SP_REFUSED ≠ R.HX_MSIX_PBA i := by
    simp only [R.SP_REFUSED, R.HX_MSIX_PBA, SP.base, HX.base]
    omega
  have lastApart (i : Nat) : R.SP_REFUSED ≠ R.SP_LAST_REFUSED i := by
    simp only [R.SP_REFUSED, R.SP_LAST_REFUSED]
    omega
  have counted {t : State} (canon : t.canonical = true) (lo hi : Nat) :
      (((t.addReg R.SP_REFUSED 1).setRn (R.SP_LAST_REFUSED 0) lo).setRn (R.SP_LAST_REFUSED 1) hi).rn R.SP_REFUSED
        = (t.rn R.SP_REFUSED + 1) % 2 ^ 64 := by
    have canon1 := (t.addReg_keeps R.SP_REFUSED 1).2 canon
    rw [State.rn_setRn ((State.setRn_keeps _ _ _).2 canon1), if_neg (lastApart 1), State.rn_setRn canon1, if_neg (lastApart 0),
      State.rn_addReg canon, if_pos rfl]
  exact (counted ((s.ev_keeps _ _ _).2 canon) _ _).trans (by rw [State.rn_ev apart canon])

/-- A claim's decision leaves the table as it is, or grants a new block a free place. -/
theorem State.decideClaim_cases (s : State) (c : Claim) : (s.decideClaim c).1.spall = s.spall
    ∨ ((s.decideClaim c).1.spall = s.spall.grant c ∧ (∀ e ∈ s.spall.entries, e.d ≠ c.block) ∧ s.spall.entries.length < 256) := by
  by_cases opens : s.spall.Opens c
  · cases held : s.spall.entries.find? (fun e => e.d == c.block) with
    | some e =>
      by_cases purpose : c.purpose = 3
      · exact .inl (by rw [State.decideClaim_shares opens held purpose])
      · exact .inl (by rw [State.decideClaim_held opens held purpose, State.refuseClaim_spall])
    | none =>
      have new := find?_block_eq_none_iff.1 held
      by_cases room : s.spall.entries.length < 256
      · exact .inr ⟨by rw [State.decideClaim_grants opens new room], new, room⟩
      · exact .inl (by rw [State.decideClaim_full opens new (Nat.not_lt.1 room), State.refuseClaim_spall])
  · exact .inl (by rw [State.decideClaim_closed opens, State.refuseClaim_spall])

end Decision

/-! ### STREAM_CLAIM (R166, R423) -/

/-- The state with other claims in the queue. -/
def State.withClaims (s : State) (cs : List Claim) : State := { s with spall := { s.spall with queue := cs } }

section StreamClaim
variable {s : State} {c : Claim} {rest : List Claim}

theorem exec_streamClaim (bad : Option Nat) : exec (.streamClaim bad) s = .next (streamClaim s bad) := rfl

theorem streamClaim_empty (empty : s.spall.queue = []) : streamClaim s none = s := by simp only [streamClaim, empty]

/-- The oldest claim leaves the queue and is decided, and its unit goes on. -/
theorem streamClaim_oldest (oldest : s.spall.queue = c :: rest) :
    streamClaim s none = ((s.withClaims rest).decideClaim c).1.claimed c ((s.withClaims rest).decideClaim c).2 := by
  simp only [streamClaim, oldest]
  rfl

theorem streamClaim_some (i : Nat) : streamClaim s (some i) = streamClaim (claimUe s i) none := rfl

end StreamClaim

/-! ### The other commands of the table (R165, R168, R181) -/

section Table
variable {s : State}

theorem exec_spKeyLoad : exec .spKeyLoad s = .next (spKeyLoad s) := rfl
theorem exec_spRetire (step : Nat) : exec (.spRetire step) s = .next (s.retireClaims step) := rfl
theorem exec_spClaimsRead : exec .spClaimsRead s = .next (spClaimsRead s) := rfl
theorem exec_spRefusedRead : exec .spRefusedRead s = .next (spRefusedRead s) := rfl

theorem spKeyLoad_empty (empty : s.spall.entries = []) :
    spKeyLoad s = { s with spall := { s.spall with jk := s.rn (R.SP_JOBKEY 0) + s.rn (R.SP_JOBKEY 1) * 2 ^ 64, valid := true } } :=
  if_pos (List.isEmpty_iff.2 empty)

theorem spKeyLoad_busy (live : s.spall.entries ≠ []) : spKeyLoad s = s.ev 0x313 0xFF [] := if_neg (mt List.isEmpty_iff.1 live)

theorem State.mem_retireClaims {step : Nat} {e : ClaimEntry} :
    e ∈ (s.retireClaims step).spall.entries ↔ e ∈ s.spall.entries ∧ e.bad = false ∧ step < e.d / 2 ^ 64 := by
  simp [State.retireClaims]

theorem State.retireClaims_sublist (s : State) (step : Nat) : (s.retireClaims step).spall.entries.Sublist s.spall.entries := List.filter_sublist

end Table

/-! ### Distinct blocks, at most 256 (R166) -/

/-- The live entries have pairwise different derivation blocks and fit the table. -/
def Spall.Distinct (p : Spall) : Prop := (p.entries.map (·.d)).Nodup ∧ p.entries.length ≤ 256

section Distinct
variable {s : State} {p q : Spall} {c : Claim}

theorem Spall.Distinct.of_blocks (blocks : q.entries.map (·.d) = p.entries.map (·.d)) (h : p.Distinct) : q.Distinct := by
  have len : q.entries.length = p.entries.length := by simpa using congrArg List.length blocks
  exact ⟨blocks ▸ h.1, len ▸ h.2⟩

theorem Spall.Distinct.withKey (jk : Nat) (valid : Bool) (h : p.Distinct) : Spall.Distinct { p with jk := jk, valid := valid } := h

theorem Spall.Distinct.sublist (sub : q.entries.Sublist p.entries) (h : p.Distinct) : q.Distinct :=
  ⟨h.1.sublist (sub.map _), Nat.le_trans sub.length_le h.2⟩

theorem Spall.Distinct.grant (new : ∀ e ∈ p.entries, e.d ≠ c.block) (room : p.entries.length < 256) (h : p.Distinct) :
    (p.grant c).Distinct := by
  constructor
  · rw [Spall.grant, List.map_append, List.map_singleton, List.nodup_append]
    refine ⟨h.1, List.pairwise_singleton _ _, ?_⟩
    simpa using new
  · rw [Spall.grant, List.length_append, List.length_singleton]
    exact room

theorem Spall.Distinct.decideClaim (h : s.spall.Distinct) : (s.decideClaim c).1.spall.Distinct := by
  rcases s.decideClaim_cases c with same | ⟨granted, new, room⟩
  · rwa [same]
  · rw [granted]
    exact h.grant new room

/-- A place that proves uncorrectable keeps the block of its entry. -/
theorem claimUe_blocks (s : State) (i : Nat) : (claimUe s i).spall.entries.map (·.d) = s.spall.entries.map (·.d) := by
  unfold claimUe
  split
  · split
    · rw [State.ev_spall]
    · rfl
  · next e found =>
    have block : (s.spall.entries.map (·.d))[i]? = some e.d := by simp [found]
    obtain ⟨lt, at_⟩ := List.getElem?_eq_some_iff.1 block
    rw [State.ev_spall, List.map_set, ← at_, List.set_getElem_self]

theorem Spall.Distinct.streamClaim_none (h : s.spall.Distinct) : (streamClaim s none).spall.Distinct := by
  cases waiting : s.spall.queue with
  | nil => rwa [streamClaim_empty waiting]
  | cons c rest =>
    rw [streamClaim_oldest waiting, State.claimed_spall]
    exact Spall.Distinct.decideClaim (s := s.withClaims rest) h

theorem Spall.Distinct.streamClaim (bad : Option Nat) (h : s.spall.Distinct) : (streamClaim s bad).spall.Distinct := by
  cases bad with
  | none => exact h.streamClaim_none
  | some i => exact (h.of_blocks (claimUe_blocks s i)).streamClaim_none

theorem Spall.Distinct.spKeyLoad (h : s.spall.Distinct) : (spKeyLoad s).spall.Distinct := by
  by_cases empty : s.spall.entries = []
  · rw [spKeyLoad_empty empty]
    exact h.withKey _ _
  · rwa [spKeyLoad_busy empty, State.ev_spall]

end Distinct

/-- Settles O19: a claim is granted an entry for a new block in a free place only, no unit that goes on touches the table, and the other commands keep
a part of the entries. -/
theorem liveStreamsStayDistinct : Obligations.LiveStreamsStayDistinct := by
  unfold Obligations.LiveStreamsStayDistinct
  intro s bad step nodup room
  have distinct : s.spall.Distinct := ⟨nodup, room⟩
  simp only [List.forall_mem_cons, exec_streamClaim, exec_spRetire, exec_spKeyLoad, exec_spClaimsRead, exec_spRefusedRead]
  exact ⟨⟨_, rfl, distinct.streamClaim bad⟩, ⟨_, rfl, distinct.sublist (s.retireClaims_sublist step)⟩, ⟨_, rfl, distinct.spKeyLoad⟩,
    ⟨_, rfl, distinct⟩, ⟨_, rfl, distinct⟩, List.forall_mem_nil _⟩

/-- Settles O17: each clause is the command's own equation. -/
theorem spallKeyAndCounts : Obligations.SpallKeyAndCounts := by
  unfold Obligations.SpallKeyAndCounts
  intro s step
  exact ⟨fun empty => congrArg _ (spKeyLoad_empty empty), fun live => congrArg _ (spKeyLoad_busy live),
    ⟨_, exec_spRetire step, rfl, rfl, fun _ => State.mem_retireClaims, s.retireClaims_sublist step⟩, exec_spClaimsRead, exec_spRefusedRead⟩

/-! ### A crusher goes on (R167, R179) -/

section Crusher
variable {t : State} {b : Fin 24} {cmd : Cmd} {cs : List Cmd}

theorem State.modBench_setBench (x : Bench) (f : Bench → Bench) : (t.setBench b x).modBench b f = t.setBench b (f x) := by
  rw [State.modBench, State.bench_setBench]
  simp [State.setBench]

theorem rotClaimed_grants (waits : (t.bench b).crWait = true) (head : (t.bench b).cr.cmds = cmd :: cs) (key : Nat) :
    rotClaimed t b (.inl key) =
      t.modBench b (fun x => { x with crWait := false, cr := x.cr.pop, crRun := some { cmd := cmd, id := x.cr.job, key := key } }) := by
  simp only [rotClaimed, waits, head, State.modBench_setBench]
  rfl

theorem rotClaimed_refuses (waits : (t.bench b).crWait = true) (head : (t.bench b).cr.cmds = cmd :: cs) (reason : Nat) :
    rotClaimed t b (.inr reason) = (t.modBench b (fun x => { x with crWait := false })).crusherHalt b 3 0 cmd.tag := by
  rw [State.modBench]
  simp only [rotClaimed, waits, head]

end Crusher

/-- Settles O18: the branches of a claim's decision, by the table's state and the entry that holds the block; an event of a refusal leaves SP_REFUSED
to its counter. -/
theorem streamClaimDecides : Obligations.StreamClaimDecides := by
  unfold Obligations.StreamClaimDecides
  intro s c rest oldest s1 on key opened refused
  have answer : exec (.streamClaim none) s = .next ((s1.decideClaim c).1.claimed c (s1.decideClaim c).2) := congrArg _ (streamClaim_oldest oldest)
  have decided {u : State} {r : Nat ⊕ Nat} (d : s1.decideClaim c = (u, r)) : exec (.streamClaim none) s = .next (on u r) := by
    rw [answer, d]
    rfl
  have refuses {reason : Nat} {holder : Option Nat} (d : s1.decideClaim c = (s1.refuseClaim c reason holder, .inr reason)) : refused reason holder :=
    have noted := s1.refuseClaim_notes c reason holder
    ⟨_, decided d, rfl, State.refuseClaim_spall reason holder, noted.mem, noted.stores.benches,
      fun canon => State.rn_refuseClaim (s := s1) canon reason holder⟩
  refine ⟨fun opens new room => decided (State.decideClaim_grants (s := s1) opens new room), fun opens held purpose => ?_,
    fun opens e held purpose => refuses (State.decideClaim_held (s := s1) opens held purpose),
    fun opens new full => refuses (State.decideClaim_full (s := s1) opens new full),
    fun closed => refuses (State.decideClaim_closed (s := s1) closed),
    fun t b cmd cs n waits head => ⟨rotClaimed_grants waits head n, rotClaimed_refuses waits head n⟩, fun i e found => ?_⟩
  · have found : (s.spall.entries.find? (fun e => e.d == c.block)).isSome = true := by simpa using held
    obtain ⟨e, first⟩ := Option.isSome_iff_exists.1 found
    exact decided (State.decideClaim_shares (s := s1) opens first purpose)
  · rw [exec_streamClaim, streamClaim_some, claimUe, found]
    rfl

end Sys2Proof.Machine

namespace Sys2Proof.Machine

/-! ## DECISION_APPLY (R196, R231, R235) -/

theorem State.rn_lt (s : State) (a : Nat) : s.rn a < 2 ^ 64 := (s.reg a).isLt

/-- Refutes O28: nothing bounds the step of a due decision in a canonical state, and for step 2^64 the 64 bits of GH_CM_STEP cannot show it. -/
theorem not_decisionFlipsVersions : ¬ Obligations.DecisionFlipsVersions := by
  unfold Obligations.DecisionFlipsVersions
  intro h
  obtain ⟨t, -, -, -, -, -, shown, -⟩ := h { State.reset with cm := { due := some ⟨2 ^ 64, true, 0, false, false, false, 0⟩ } } _ rfl rfl rfl
  have step : t.rn R.GH_CM_STEP = 2 ^ 64 := (shown (by decide)).1
  exact absurd (t.rn_lt R.GH_CM_STEP) (by rw [step]; decide)

end Sys2Proof.Machine

namespace Sys2Proof.Machine

/-! ## Refused operations of the version table (R199) -/

theorem State.Notes.regions {s t : State} (h : s.Notes t) : t.regions = s.regions := by rw [h.1]
theorem State.Notes.regionUid {s t : State} (h : s.Notes t) : t.regionUid = s.regionUid := by rw [h.1]
theorem State.Notes.ues {s t : State} (h : s.Notes t) : t.ues = s.ues := by rw [h.1]

/-- A result whose code is that of a refusal leaves nothing behind but the events and registers of a report. -/
def State.Refuses (s : State) (o : VtRes) : Prop := o.2.1 ≠ 0 → s.Notes o.1

section Refusals
variable {s : State} {k r : Nat}

theorem State.vtRefuse_notes (s : State) (k code : Nat) : s.Notes (s.vtRefuse k code).1 :=
  .ite (s.ev_notes _ _ _) (.ite (s.ev_notes _ _ _) (s.ev_notes _ _ _))

theorem State.vtRefuse_refuses (code : Nat) : s.Refuses (s.vtRefuse k code) := fun _ => s.vtRefuse_notes k code

/-- A completed operation has code 0. -/
theorem State.completes_refuses (t : State) (token : Nat) : s.Refuses (t, 0, token) := fun refused => absurd rfl refused

theorem State.Refuses.ite {p : Prop} {_ : Decidable p} {x y : VtRes} (h : s.Refuses x) (k : s.Refuses y) : s.Refuses (if p then x else y) := by
  split
  · exact h
  · exact k

theorem vtRegister_refuses (w : Nat) : s.Refuses (vtRegister s k w) := by
  refine .ite (s.vtRefuse_refuses 6) ?_
  split
  · exact s.vtRefuse_refuses 6
  split
  · exact s.vtRefuse_refuses 6
  · exact .ite (s.vtRefuse_refuses 7) (.ite (s.vtRefuse_refuses 6) (s.completes_refuses _ 0))

theorem vtDeregister_refuses : s.Refuses (vtDeregister s k r) := by
  unfold vtDeregister
  split
  · exact s.vtRefuse_refuses 1
  · exact .ite (s.vtRefuse_refuses 5) (s.completes_refuses _ 0)

theorem vtPin_refuses (x : Region) (i : Nat) : s.Refuses (vtPin s k r x i) := .ite (s.vtRefuse_refuses 2) (s.completes_refuses _ _)

theorem vtPinCurrent_refuses : s.Refuses (vtPinCurrent s k r) := by
  unfold vtPinCurrent
  split
  · exact s.vtRefuse_refuses 1
  split
  · exact vtPin_refuses _ _
  · exact s.vtRefuse_refuses 3

theorem vtPinStep_refuses (lo : Nat) : s.Refuses (vtPinStep s k r lo) := by
  unfold vtPinStep
  split
  · exact s.vtRefuse_refuses 1
  split
  · exact vtPin_refuses _ _
  · exact s.vtRefuse_refuses 3

theorem vtPinToken_refuses (i gen : Nat) : s.Refuses (vtPinToken s k r i gen) := by
  unfold vtPinToken
  split
  · exact s.vtRefuse_refuses 1
  · exact .ite (vtPin_refuses _ i) (s.vtRefuse_refuses 4)

theorem vtUnpin_refuses (i gen : Nat) : s.Refuses (vtUnpin s k r i gen) := by
  unfold vtUnpin
  split
  · exact s.vtRefuse_refuses 1
  · exact .ite (s.vtRefuse_refuses 4) (.ite (s.vtRefuse_refuses 5) (s.completes_refuses _ 0))

end Refusals

section Issue
variable {s : State} {k : Fin 8} {c : Fin 32} {op : State → VtRes}

/-- The requester's two registers take the answer; where the stack is out of service, not even they change (R206, R225). -/
theorem vtIssue_notes (answer : s.Notes (op s).1) : s.Notes (vtIssue s k c op) :=
  .ite (.refl s) ((answer.trans (State.setRn_notes _ _ _)).trans (State.setRn_notes _ _ _))

theorem exec_refused {j : Instr} (issues : exec j s = .next (vtIssue s k c op)) (refuses : s.Refuses (op s)) (refused : (op s).2.1 ≠ 0) :
    ∃ t, exec j s = .next t ∧ t.regions = s.regions ∧ t.mem = s.mem ∧ t.regionUid = s.regionUid ∧ t.ues = s.ues :=
  have noted : s.Notes (vtIssue s k c op) := vtIssue_notes (refuses refused)
  ⟨_, issues, noted.regions, noted.mem, noted.regionUid, noted.ues⟩

end Issue

/-- Settles O21: each operation that answers a code other than 0 has only reported, and showing the answer writes two registers. -/
theorem refusedVersionOpsChangeNoTable : Obligations.RefusedVersionOpsChangeNoTable := by
  unfold Obligations.RefusedVersionOpsChangeNoTable
  intro s k c r lo w gen i p operation refused
  simp only [List.mem_cons, List.not_mem_nil, or_false] at operation
  obtain rfl | rfl | rfl | rfl | rfl | rfl := operation
  · exact exec_refused (op := fun t => vtRegister t k w) rfl (vtRegister_refuses w) refused
  · exact exec_refused (op := fun t => vtDeregister t k r) rfl vtDeregister_refuses refused
  · exact exec_refused (op := fun t => vtPinCurrent t k r) rfl vtPinCurrent_refuses refused
  · exact exec_refused (op := fun t => vtPinStep t k r lo) rfl (vtPinStep_refuses lo) refused
  · exact exec_refused (op := fun t => vtPinToken t k r i gen) rfl (vtPinToken_refuses i gen) refused
  · exact exec_refused (op := fun t => vtUnpin t k r i gen) rfl (vtUnpin_refuses i gen) refused

end Sys2Proof.Machine

namespace Sys2Proof.Machine

/-! ## Waiting for a slot (R202, R207, R217)

The clauses of O22 hold of every state but one: that a write to UE_VT_CFG only sets the limit needs a register file in canonical form
(`vtCfgWrite_waits`), which O22 does not ask for. -/

theorem Region.acquire_full {x : Region} (full : x.find .free = none ∨ (x.find .tentative).isSome = true) (step : Nat) : x.acquire step = none := by
  obtain full | tentative := full
  · simp only [Region.acquire, full, ite_self]
  · exact if_pos tentative

theorem Region.acquire_free {x : Region} {i : Nat} (tentative : x.find .tentative = none) (free : x.find .free = some i) (step : Nat) :
    x.acquire step = some (i, x.setSlot i { x.slot i with st := .tentative, gen := ((x.slot i).gen + 1) % 256, step := step }) := by
  simp only [Region.acquire, tentative, free, Option.isSome_none, Bool.false_eq_true, if_false]

section Waiting
variable {s : State} {k : Fin 8} {r : UpdRun} {x : Region} {since : Nat}

section Update
variable (run : (s.ue k).run = some r) (phase : r.phase = .slotWait since) (region : s.region? r.region = some x)
include run phase region

theorem slotAcquire_takes {i cur : Nat} (up : s.stackUp k = true) (same : x.uid = r.uid) (tentative : x.find .tentative = none)
    (free : x.find .free = some i) (current : x.find .current = some cur) : slotAcquire s k =
      ((s.setRegion r.region (x.setSlot i { x.slot i with st := .tentative, gen := ((x.slot i).gen + 1) % 256, step := r.cmd.w 1 })).addReg
        (R.UE_VT_WAIT_US k) ((s.time - since) / 1300)).modUe k
        (fun u => { u with run := some { r with phase := if r.prog0.isEmpty then .sweep1 else .sweep0, cur := (x.slot cur).addr, tent := (x.slot i).addr } }) := by
  simp only [slotAcquire, up, run, phase, region, same, x.acquire_free tentative free, current, State.endWait, State.setRegion_time, ne_eq,
    not_true_eq_false, if_false, Bool.not_true, Bool.false_eq_true]

theorem slotAcquire_waits (same : x.uid = r.uid) (full : x.find .free = none ∨ (x.find .tentative).isSome = true) : slotAcquire s k = s := by
  simp only [slotAcquire, run, phase, region, same, x.acquire_full full, ne_eq, not_true_eq_false, if_false, ite_self]

/-- A wait within its limit, and one that can end with a slot, goes on (R202, R206). -/
theorem versionExhausted_waits (waits : (s.time - since) / 1300 < s.rfld (R.UE_VT_CFG k) 15 0 ∨ (x.acquire (r.cmd.w 1)).isSome = true) :
    versionExhausted s k = s := by
  have stays : ((x.acquire (r.cmd.w 1)).isSome || decide ((s.time - since) / 1300 < s.rfld (R.UE_VT_CFG k) 15 0)) = true := by
    simpa only [Bool.or_eq_true, decide_eq_true_eq] using waits.symm
  simp only [versionExhausted, run, phase, region, stays, if_true, ite_self]

theorem versionExhausted_ends (up : s.stackUp k = true) (limited : s.rfld (R.UE_VT_CFG k) 15 0 ≠ 0)
    (reached : s.rfld (R.UE_VT_CFG k) 15 0 ≤ (s.time - since) / 1300) (full : x.find .free = none ∨ (x.find .tentative).isSome = true) :
    versionExhausted s k = ((s.ev 0xA10 k (exhaustedItems r.region (r.cmd.w 1) x)).addReg (R.UE_VT_EXHAUSTED k) 1).updEnd k r 4 := by
  simp only [versionExhausted, up, limited, run, phase, region, x.acquire_full full, Nat.not_lt.2 reached, Option.isSome_none, Bool.not_true, decide_false,
    Bool.or_false, Bool.false_eq_true, if_false]

end Update

theorem versionExhausted_unlimited (unlimited : s.rfld (R.UE_VT_CFG k) 15 0 = 0) : versionExhausted s k = s := by
  simp only [versionExhausted, unlimited, decide_true, Bool.or_true, if_true]

@[simp] theorem State.ue_setRn (a v : Nat) : (s.setRn a v).ue k = s.ue k := congrArg (fun l : Vector Ue 8 => l[k]) (s.setRn_ues a v)
@[simp] theorem State.region?_setRn (a v n : Nat) : (s.setRn a v).region? n = s.region? n := rfl

theorem State.updEnd_run (s : State) (k : Fin 8) (r : UpdRun) (cause : Nat) : ((s.updEnd k r cause).ue k).run = none := by
  simp only [State.updEnd, State.updFail, State.ue_modUe, State.ue_setRn]
  split
  · rfl
  · rfl

theorem exec_ueVtCfgWrite (v : Nat) : exec (.ueVtCfgWrite k v) s = .next (vtCfgWrite s k v) := rfl

/-- A write to UE_VT_CFG sets the limit, and the wait in progress is held against it at once (R202). -/
theorem vtCfgWrite_sets (up : s.stackUp k = true) (v : Nat) : vtCfgWrite s k v = versionExhausted (s.setRn (R.UE_VT_CFG k) (v % 2 ^ 16)) k := by
  simp only [vtCfgWrite, up, Bool.not_true, Bool.false_eq_true, if_false]

theorem State.rfld_vtCfg (canon : s.canonical = true) (v : Nat) : (s.setRn (R.UE_VT_CFG k) (v % 2 ^ 16)).rfld (R.UE_VT_CFG k) 15 0 = v % 2 ^ 16 := by
  rw [State.rfld, State.rn_setRn canon, if_pos rfl]
  simp only [bits, Nat.shiftRight_zero]
  omega

/-- A wait that the new limit does not end goes on. -/
theorem vtCfgWrite_waits (canon : s.canonical = true) (up : s.stackUp k = true) (run : (s.ue k).run = some r) (phase : r.phase = .slotWait since)
    (region : s.region? r.region = some x) {v : Nat} (waits : v % 2 ^ 16 = 0 ∨ (s.time - since) / 1300 < v % 2 ^ 16) :
    vtCfgWrite s k v = s.setRn (R.UE_VT_CFG k) (v % 2 ^ 16) := by
  have limit := s.rfld_vtCfg (k := k) canon v
  rw [vtCfgWrite_sets up]
  obtain unlimited | short := waits
  · exact versionExhausted_unlimited (limit.trans unlimited)
  · exact versionExhausted_waits ((congrArg Ue.run (s.ue_setRn _ _)).trans run) phase ((s.region?_setRn _ _ _).trans region) (.inl (by rwa [limit, State.setRn_time]))

theorem vtSelWrite_captures (up : s.stackUp k = true) (v : Nat) : vtSelWrite s k v =
    (vtView (s.region? (k * 2048 + v % 2048))).zipIdx.foldl (fun t p => t.setRn (R.UE_VT_VIEW k p.2) p.1) (s.setRn (R.UE_VT_SEL k) (v % 2048)) := by
  simp only [vtSelWrite, up, Bool.not_true, Bool.false_eq_true, if_false]

end Waiting

/-- An UPDATE of stack 0 that has waited 1 µs for a slot of region 0, which has none FREE. The register file lists UE_VT_CFG of the stack twice, so
it is not in canonical form. -/
def limitListedTwice : State :=
  let run : UpdRun := { cmd := [], id := 1, region := 0, uid := 0, phase := .slotWait 0, prog0 := [], prog1 := [], consts := [], strm := ⟨.update 0, 0, 0, 0, 0⟩ }
  { State.reset with
    time := 1300
    regs := [(R.UE_VT_CFG 0, 3), (R.UE_VT_CFG 0, 1)]
    regions := [(0, { uid := 0, frozen := false, len := 1, nslots := 1, slots := [{ st := .current }] })]
    ues := State.reset.ues.set 0 { run := some run } }

/-- Refutes O22: 2000 µs is the Reset column of UE_VT_CFG, so that writing it only drops the entry of the register. Where the register file lists it
twice, the second entry, 1 µs, is then the limit, and the write ends a wait that 2000 µs would let go on. A canonical register file lists no register twice. -/
theorem not_slotAcquisition : ¬ Obligations.SlotAcquisition := by
  unfold Obligations.SlotAcquisition
  intro h
  obtain ⟨-, -, -, -, goesOn, -⟩ := h limitListedTwice 0 _ _ 0 0 0 2000 (by decide +kernel) rfl rfl rfl rfl
  have written := goesOn (.inr (by decide))
  rw [exec_ueVtCfgWrite, vtCfgWrite_sets (by decide +kernel),
    versionExhausted_ends (s := limitListedTwice.setRn _ _) rfl rfl rfl (by decide +kernel) (by decide +kernel) (by decide +kernel) (.inl rfl)] at written
  have ended := congrArg (fun t => (t.ue 0).run) (Host.Outcome.next.inj written)
  rw [State.updEnd_run] at ended
  exact absurd ended.symm (by decide)

end Sys2Proof.Machine

namespace Sys2Proof.Machine

/-! ## The add windows (R208 to R212) -/

/-! ### Numbers in memory (R24, R31) -/

@[simp] theorem length_leBytes (n v : Nat) : (leBytes n v).length = n := by
  induction n generalizing v with
  | zero => rfl
  | succ n ih => exact congrArg (· + 1) (ih _)

theorem fromLe_leBytes (n v : Nat) : fromLe (leBytes n v) = v % 256 ^ n := by
  induction n generalizing v with
  | zero => exact (Nat.mod_one v).symm
  | succ n ih =>
    have low : (BitVec.ofNat 8 v).toNat = v % 256 := BitVec.toNat_ofNat v 8
    rw [leBytes, fromLe, ih, low, Nat.pow_succ', Nat.mod_mul]

/-- The two's complement of a number that fits reads back. -/
theorem signed_toBits {n : Int} (low : -(2 ^ 31) ≤ n) (high : n < 2 ^ 31) : signed 32 (toBits 32 n) = n := by
  have word : ((toBits 32 n % 2 ^ 32 : Nat) : Int) = n % 2 ^ 32 := by
    simp only [toBits]
    omega
  rw [signed, if_neg (by decide)]
  split
  · omega
  · omega

theorem signed_mod (v : Nat) : signed 32 (v % 2 ^ 32) = signed 32 v := by simp only [signed, Nat.mod_mod]

section Memory
variable {s : State} {a n : Nat}

@[simp] theorem State.byte_setRn (r v b : Nat) : (s.setRn r v).byte b = s.byte b := rfl

@[simp] theorem State.le_setRn (r v : Nat) : (s.setRn r v).le a n = s.le a n := by
  have bytes : (s.setRn r v).bytes a n = s.bytes a n := by
    induction n generalizing a with
    | zero => rfl
    | succ n ih => rw [State.bytes, State.bytes, State.byte_setRn, ih]
  rw [State.le, bytes, State.le]

theorem State.bytes_eq_of_byte {bs : Bytes} (each : ∀ i (h : i < bs.length), s.byte (a + i) = bs[i]) : s.bytes a bs.length = bs := by
  induction bs generalizing a with
  | nil => rfl
  | cons b bs ih =>
    have first : s.byte a = b := each 0 (Nat.zero_lt_succ _)
    have others : s.bytes (a + 1) bs.length = bs := ih fun i h => by
      have next := each (i + 1) (Nat.succ_lt_succ h)
      rwa [Nat.add_left_comm, Nat.add_comm] at next
    rw [List.length_cons, State.bytes, first, others]

/-- Bytes written where memory takes each of them read back. -/
theorem State.bytes_wr (canon : s.canonical = true) {bs : Bytes} (takes : ∀ i < bs.length, s.mapped (a + i) = true ∧ s.poisonedAt (a + i) = false) :
    (s.wr a bs).bytes a bs.length = bs := by
  refine State.bytes_eq_of_byte fun i h => ?_
  obtain ⟨mapped, clean⟩ := takes i h
  have stays : (s.poison.filter (fun l => !fullLine a bs.length l)).contains ((a + i) / 64) = false := by
    rw [State.poisonedAt, ← Bool.not_eq_true, List.contains_iff_mem] at clean
    rw [← Bool.not_eq_true, List.contains_iff_mem]
    exact fun poisoned => clean (List.mem_filter.1 poisoned).1
  rw [State.byte_wr canon, if_pos ⟨by omega, by omega, by rw [mapped, stays]; rfl⟩, Nat.add_sub_cancel_left, List.getD_eq_getElem?_getD,
    List.getElem?_eq_getElem h, Option.getD_some]

theorem State.le_wr_leBytes (canon : s.canonical = true) {v : Nat} (takes : ∀ i < n, s.mapped (a + i) = true ∧ s.poisonedAt (a + i) = false) :
    (s.wr a (leBytes n v)).le a n = v % 256 ^ n := by
  have back := State.bytes_wr canon (bs := leBytes n v) (a := a) (by simpa using takes)
  rw [length_leBytes] at back
  rw [State.le, back, fromLe_leBytes]

theorem State.byte_wr_outside (canon : s.canonical = true) {bs : Bytes} {b : Nat} (outside : b < a ∨ a + bs.length ≤ b) : (s.wr a bs).byte b = s.byte b := by
  rw [State.byte_wr canon, if_neg (by omega)]

theorem SMap.get_keep {α : Type} (d : Nat → α) (p : Nat → Bool) (m : List (Nat × α)) (k : Nat) :
    SMap.get d (SMap.keep p m) k = if p k then SMap.get d m k else d k := by
  induction m with
  | nil => simp [SMap.keep, SMap.get]
  | cons e m ih =>
    obtain ⟨j, v⟩ := e
    simp only [SMap.keep] at ih
    by_cases same : k = j
    · subst same
      cases kept : p k with
      | true => simp [SMap.keep, SMap.get, kept]
      | false => simpa [SMap.keep, kept] using ih
    · cases kept : p j with
      | true => simp [SMap.keep, SMap.get, kept, same, ih]
      | false => simp [SMap.keep, SMap.get, kept, same, ih]

end Memory

/-! ### The add of one element (R209, R210) -/

section Element
variable {old v : Nat}

theorem addElem_saturates (oldNum : old ≠ 0x80000000) (num : v ≠ 0x80000000) :
    signed 32 (addElem true false old v).1 = clampInt (signed 32 old + signed 32 v) (-(2 ^ 31 - 1)) (2 ^ 31 - 1) := by
  have numbers : ¬((false : Bool) = true ∨ old = 0x80000000 ∨ v = 0x80000000) := by simp [oldNum, num]
  simp only [addElem, if_true, if_neg numbers, clampInt]
  by_cases high : signed 32 old + signed 32 v > 2 ^ 31 - 1
  · rw [if_pos high, if_neg (by omega), if_pos high]
    decide
  rw [if_neg high]
  by_cases low : signed 32 old + signed 32 v < -(2 ^ 31 - 1)
  · rw [if_pos low, if_pos low]
    decide
  · rw [if_neg low, if_neg low, if_neg high]
    exact signed_toBits (by omega) (by omega)

theorem addElem_nan (nan : old = 0x80000000 ∨ v = 0x80000000) : (addElem true false old v).1 = 0x80000000 := by
  simp only [addElem, nan, or_true, if_true]

theorem addElem_fp : (addElem false false old v).1 = (fpAdd old v).1 := by simp only [addElem, Bool.false_eq_true, if_false]

end Element

/-! ### ADD_WRITE (R208 to R211) -/

section AddWrite
variable {s : State} {k w : Fin 8} {a : Nat} {d : Bytes}

theorem exec_addWrite : exec (.addWrite a d) s = .next (if (s.addWindow a).isSome then s.write a d else s) := rfl

theorem isMergo_of_addWindow {x : Nat} (window : s.addWindow a = some x) : isMergo a = true := by
  cases mergo : isMergo a with
  | true => rfl
  | false => simp [State.addWindow, mergo] at window

/-- A write within one line of an enabled window is an add. -/
theorem exec_addWrite_window (window : s.addWindow a = some w.val) (stack : stackOf a = k.val) (pos : 0 < d.length) (oneLine : a % 64 + d.length ≤ 64) :
    exec (.addWrite a d) s = .next (addWrite s k w a d) := by
  have mergo : a < 0x006000000000 := by simpa [isMergo] using isMergo_of_addWindow window
  have noStore : isStore a = false := by
    simp only [isStore, Bool.and_eq_false_iff, decide_eq_false_iff_not]
    omega
  have fits : d.length ≤ 64 - a % 64 := by omega
  have full : d.isEmpty = false := by simpa using List.ne_nil_of_length_pos pos
  have piece : s.write a d = wrPiece s a d := by simp only [State.write, wrLines, fits, full, if_true, Bool.false_eq_true, if_false]
  rw [exec_addWrite, window, Option.isSome_some, if_pos rfl, piece]
  simp only [wrPiece, noStore, Bool.false_eq_true, if_false, addPiece, window, stack]

/-- A write that covers no whole element is counted, and logged with its address (R209). -/
theorem addWrite_part (covers : (a + d.length) / 4 ≤ (a + 3) / 4) (unaligned : (a + 3) / 4 * 4 ≠ a) :
    addWrite s k w a d = (s.addReg (R.UE_ADDS k) 1).ev 0xA23 k (leBytes 8 a) := by
  have empty : (a + d.length) / 4 * 4 ≤ (a + 3) / 4 * 4 := by omega
  simp only [addWrite, empty, unaligned, ne_eq, not_false_eq_true, true_or, if_true]

/-- The add of the element at an aligned address: its new word and the flags of the window. -/
def State.added (s : State) (k w : Nat) (a : Nat) (d : Bytes) : Nat × Nat :=
  addElem (s.rbit (R.UE_ATM_CFG k w) 30) (s.poisonedAt a) (s.le a 4) (fromLe d)

theorem addWrite_element (aligned : a % 4 = 0) (four : d.length = 4) : addWrite s k w a d =
    ((s.addReg (R.UE_ADDS k) 1).wr a (leBytes 4 (s.added k w a d).1)).setRn (R.UE_ATM_CFG k w)
      ((s.addReg (R.UE_ADDS k) 1).rn (R.UE_ATM_CFG k w) ||| (s.added k w a d).2) := by
  have lo : (a + 3) / 4 * 4 = a := by omega
  have hi : (a + 4) / 4 * 4 = a + 4 := by omega
  have whole : d.take 4 = d := List.take_of_length_le (Nat.le_of_eq four)
  have word : leAt d 0 4 = fromLe d := by simp only [leAt, List.drop_zero, whole]
  have old : (s.addReg (R.UE_ADDS k) 1).le a 4 = s.le a 4 := State.le_setRn _ _
  have clean : (s.addReg (R.UE_ADDS k) 1).poisonedAt a = s.poisonedAt a := rfl
  have more : ¬a + 4 ≤ a := by omega
  simp only [addWrite, lo, hi, four, more, if_false, ne_eq, not_true_eq_false, or_self, Nat.sub_self, List.drop_zero, Nat.add_sub_cancel_left]
  simp [addElems, word, State.added, old, clean]

/-- Counting an add write does not unmap an address: the counter is not PW_START (R237, R413). -/
theorem State.mapped_addReg_adds (canon : s.canonical = true) (n x : Nat) : (s.addReg (R.UE_ADDS k) n).mapped x = s.mapped x := by
  have apart : R.PW_START ≠ R.UE_ADDS k := by
    simp only [R.PW_START, R.UE_ADDS, PW.base, UE.base]
    omega
  have up (j : Nat) : (s.addReg (R.UE_ADDS k) n).stackUp j = s.stackUp j := by
    simp only [State.stackUp, State.rbit, State.rn_addReg canon, if_neg apart]
  simp only [State.mapped, up]

section Whole
variable (canon : s.canonical = true) (aligned : a % 4 = 0) (four : d.length = 4)
include canon aligned four

theorem addWrite_le (mapped : ∀ i < 4, s.mapped (a + i) = true) (clean : s.poisonedAt a = false) :
    (addWrite s k w a d).le a 4 = (addElem (s.rbit (R.UE_ATM_CFG k w) 30) false (s.le a 4) (fromLe d)).1 % 2 ^ 32 := by
  have oneLine (i : Nat) (h : i < 4) : s.poisonedAt (a + i) = false := by
    have line : (a + i) / 64 = a / 64 := by omega
    rwa [State.poisonedAt, line]
  have counted : (s.addReg (R.UE_ADDS k) 1).canonical = true := (s.addReg_keeps _ _).2 canon
  have takes (i : Nat) (h : i < 4) : (s.addReg (R.UE_ADDS k) 1).mapped (a + i) = true ∧ (s.addReg (R.UE_ADDS k) 1).poisonedAt (a + i) = false :=
    ⟨(State.mapped_addReg_adds canon 1 _).trans (mapped i h), oneLine i h⟩
  rw [addWrite_element aligned four, State.le_setRn, ← clean]
  exact State.le_wr_leBytes counted takes

theorem addWrite_byte_outside {b : Nat} (outside : b < a ∨ a + 4 ≤ b) : (addWrite s k w a d).byte b = s.byte b := by
  rw [addWrite_element aligned four, State.byte_setRn, State.byte_wr_outside ((s.addReg_keeps _ _).2 canon) (by rwa [length_leBytes]), State.addReg,
    State.byte_setRn]

end Whole
end AddWrite

/-! ### ATM_ZERO and ATM_CLEAR_DONE (R211) -/

section AtmZero
variable {s : State} {k w : Fin 8}

theorem exec_atmZero : exec (.atmZero k w) s = .next (if s.stackUp k then atmZero s k w else s) := rfl
theorem exec_atmClearDone : exec (.atmClearDone k w) s = .next (atmClearDone s k w) := rfl

theorem atmZero_byte (b : Nat) : (atmZero s k w).byte b =
    if s.rfld (R.UE_ATM_BASE k w) 47 6 * 64 ≤ b ∧ b < s.rfld (R.UE_ATM_LIMIT k w) 47 6 * 64 then 0 else s.byte b := by
  have kept : (atmZero s k w).byte b =
      if (decide (b < s.rfld (R.UE_ATM_BASE k w) 47 6 * 64) || decide (s.rfld (R.UE_ATM_LIMIT k w) 47 6 * 64 ≤ b)) = true then s.byte b else 0 :=
    SMap.get_keep (fun _ => 0) (fun x => decide (x < s.rfld (R.UE_ATM_BASE k w) 47 6 * 64) || decide (s.rfld (R.UE_ATM_LIMIT k w) 47 6 * 64 ≤ x)) s.mem b
  simp only [kept, Bool.or_eq_true, decide_eq_true_eq]
  by_cases inside : s.rfld (R.UE_ATM_BASE k w) 47 6 * 64 ≤ b ∧ b < s.rfld (R.UE_ATM_LIMIT k w) 47 6 * 64
  · rw [if_pos inside, if_neg (by omega)]
  · rw [if_neg inside, if_pos (by omega)]

theorem atmZero_frame : (atmZero s k w).regs = (s.setFld (R.UE_ATM_CFG k w) 28 28 1).regs ∧ (atmZero s k w).cores = s.cores
    ∧ (atmZero s k w).ues = s.ues := by
  simp only [atmZero, State.setFld_cores, State.setFld_ues, and_true]
  simp only [State.setFld, State.setRn, State.setReg, State.rn, State.reg]

end AtmZero

/-- Settles O24: a write of an aligned element is one add, of which memory takes the four bytes of the sum. -/
theorem addWindows : Obligations.AddWindows := by
  unfold Obligations.AddWindows
  intro s k w a d canon
  refine ⟨fun aligned four m0 m1 m2 m3 clean window stack => ?_, fun window stack covers pos oneLine unaligned => ?_, fun outside => ?_, fun up => ?_,
    exec_atmClearDone⟩
  · have mapped : ∀ i < 4, s.mapped (a + i) = true
      | 0, _ => m0
      | 1, _ => m1
      | 2, _ => m2
      | 3, _ => m3
      | i + 4, beyond => absurd beyond (by omega)
    have sum := addWrite_le (k := k) (w := w) canon aligned four mapped clean
    refine ⟨_, exec_addWrite_window window stack (by omega) (by omega), fun rf oldNum num => ?_, fun rf nan => ?_, fun fp => ?_,
      fun b => addWrite_byte_outside canon aligned four, (State.Stores.refl s).addWrite.cores⟩
    · rw [sum, rf, signed_mod, addElem_saturates oldNum num]
    · rw [sum, rf, addElem_nan nan, Nat.mod_eq_of_lt (by decide)]
    · rw [sum, fp, addElem_fp]
  · rw [exec_addWrite_window window stack pos oneLine, addWrite_part covers unaligned]
  · rw [exec_addWrite, outside]
    rfl
  · rw [exec_atmZero, if_pos up]
    exact ⟨_, rfl, fun b => ⟨fun inside => (atmZero_byte b).trans (if_pos inside), fun out => (atmZero_byte b).trans (if_neg out)⟩, atmZero_frame⟩

end Sys2Proof.Machine

namespace Sys2Proof.Machine

/-! ## The prepare request (R224, R226) -/

/-- An evaluation only makes a decision due (R229). -/
theorem State.cmEvaluate_due (s : State) : ∃ due, s.cmEvaluate = s.modCm (fun c => { c with due := due }) := by
  have decides (d : CmDue) : ∃ due, s.cmDecide d = s.modCm (fun c => { c with due := due }) := by
    unfold State.cmDecide
    split
    · exact ⟨s.cm.due, rfl⟩
    · exact ⟨some d, rfl⟩
  unfold State.cmEvaluate
  extract_lets step epoch votes
  split
  · exact ⟨s.cm.due, rfl⟩
  split
  · exact decides _
  split
  · exact decides _
  split
  · exact decides _
  · exact ⟨s.cm.due, rfl⟩

/-- The registers of a step that begins (R235). -/
def State.beginStep (s : State) (S : Nat) : State := ((s.setRn R.GH_CM_STEP S).setRn R.GH_CM_STATE 1).setRn R.GH_CM_EPOCH 0

/-- What an accepted prepare record makes of the state: its step begins in UPDATING, with the group and the identifiers copied (R224). -/
def State.prepared (s : State) (S : Nat) (g : Nat × List Nat) (ids : List Nat) : State :=
  (s.beginStep S).modCm (fun k => { k with group := some g, ids := ids, verdict := none, answered := 0, restarted := false, tx := none })

section Prepare
variable {s : State} {v : Nat} {bytes : Bytes}

theorem exec_prepareRequest : exec (.prepareRequest v) s = .next (prepareRequest s v) := rfl

theorem State.rn_beginStep (canon : s.canonical = true) {S : Nat} (fits : S < 2 ^ 64) :
    (s.beginStep S).rn R.GH_CM_STEP = S ∧ (s.beginStep S).rn R.GH_CM_STATE = 1 ∧ (s.beginStep S).rn R.GH_CM_EPOCH = 0 := by
  have canon1 := (s.setRn_keeps R.GH_CM_STEP S).2 canon
  have canon2 := (State.setRn_keeps _ R.GH_CM_STATE 1).2 canon1
  have stepState : R.GH_CM_STEP ≠ R.GH_CM_STATE := by decide
  have stepEpoch : R.GH_CM_STEP ≠ R.GH_CM_EPOCH := by decide
  have stateEpoch : R.GH_CM_STATE ≠ R.GH_CM_EPOCH := by decide
  refine ⟨?_, ?_, ?_⟩
  · rw [State.beginStep, State.rn_setRn canon2, if_neg stepEpoch, State.rn_setRn canon1, if_neg stepState, State.rn_setRn canon, if_pos rfl,
      Nat.mod_eq_of_lt fits]
  · rw [State.beginStep, State.rn_setRn canon2, if_neg stateEpoch, State.rn_setRn canon1, if_pos rfl, Nat.mod_eq_of_lt (by decide)]
  · rw [State.beginStep, State.rn_setRn canon2, if_pos rfl, Nat.zero_mod]

@[simp] theorem State.cm_modCm (f : Cm → Cm) : (s.modCm f).cm = f s.cm := rfl
@[simp] theorem State.rn_modCm (f : Cm → Cm) (a : Nat) : (s.modCm f).rn a = s.rn a := rfl

/-- The step that begins shows in the registers and the commit state, and nowhere else, whatever decision is then due. -/
theorem State.prepared_begins (canon : s.canonical = true) {S : Nat} (fits : S < 2 ^ 64) (g : Nat × List Nat) (ids : List Nat) (due : Option CmDue) {t : State}
    (evaluated : t = (s.prepared S g ids).modCm (fun c => { c with due := due })) :
    t.rn R.GH_CM_STEP = S ∧ t.rn R.GH_CM_STATE = 1 ∧ t.rn R.GH_CM_EPOCH = 0
      ∧ t.cm.group = some g ∧ t.cm.ids = ids ∧ t.cm.verdict = none ∧ t.cm.take = s.cm.take
      ∧ t.mem = s.mem ∧ t.regions = s.regions ∧ t.ues = s.ues ∧ t.benches = s.benches := by
  obtain ⟨step, state, epoch⟩ := s.rn_beginStep canon fits
  subst evaluated
  simp only [State.prepared, State.rn_modCm, step, state, epoch, true_and]
  simp [State.beginStep]

/-- A record that the gatehouse can read is refused with the first item that fails, or begins its step. -/
def State.prepare (s : State) (c : Cmd) : State :=
  if c.w 0 ≤ s.rn R.GH_CM_DECIDED then s.prepRefuse (c.w 0) 1
  else if s.undecided then s.prepRefuse (c.w 0) 2
  else (s.readIds c).elim (s.prepRefuse (c.w 0) 3) fun ids =>
    if s.rfld R.GH_CM_GROUP 47 0 = 0 then s.prepRefuse (c.w 0) 4
    else s.readGroup.elim (s.prepRefuse (c.w 0) 5) fun g =>
      if s.member = true ∧ s.dev ∈ g.2 then (s.prepared (c.w 0) g ids).cmEvaluate else s.prepRefuse (c.w 0) 6

theorem prepareRequest_prepares (range : v < 2 ^ 48) (aligned : v % 64 = 0) (read : s.ghRead v 64 = some bytes) :
    prepareRequest s v = s.prepare (Cmd.ofBytes bytes) := by
  have outside (g : Nat × List Nat) : (!s.member || !g.2.contains s.dev) = true ↔ ¬(s.member = true ∧ s.dev ∈ g.2) := by
    rw [← Bool.not_and, Bool.not_eq_true', ← Bool.not_eq_true, Bool.and_eq_true, List.contains_iff_mem]
  simp only [prepareRequest, State.prepare, Nat.mod_eq_of_lt range, aligned, if_true, read, outside, ite_not]
  cases s.readIds (Cmd.ofBytes bytes) with
  | none => rfl
  | some ids =>
    cases s.readGroup with
    | none => rfl
    | some g => rfl

end Prepare

/-- Settles O25: each refusal ends the request where its item fails, and the evaluation of a step that begins only makes a decision due. -/
theorem prepareRequestAccepted : Obligations.PrepareRequestAccepted := by
  unfold Obligations.PrepareRequestAccepted
  intro s v bytes canon range aligned read c S refuse
  rw [exec_prepareRequest, prepareRequest_prepares range aligned read]
  refine ⟨fun old => congrArg _ (if_pos old), fun new => ?_⟩
  have new : ¬S ≤ s.rn R.GH_CM_DECIDED := Nat.not_le.2 new
  refine ⟨fun undecided => ?_, fun decided => ⟨fun bad => ?_, fun ids listed => ⟨fun unset => ?_, fun group bad => ?_, fun g group known => ?_⟩⟩⟩
  · rw [State.prepare, if_neg new, if_pos undecided]
    rfl
  all_goals have decided : ¬s.undecided = true := by rw [decided]; exact Bool.false_ne_true
  · rw [State.prepare, if_neg new, if_neg decided, bad, Option.elim_none]
    rfl
  · rw [State.prepare, if_neg new, if_neg decided, listed, Option.elim_some, if_pos unset]
    rfl
  · rw [State.prepare, if_neg new, if_neg decided, listed, Option.elim_some, if_neg group, bad, Option.elim_none]
    rfl
  have sound : s.prepare c = if s.member = true ∧ s.dev ∈ g.2 then (s.prepared S g ids).cmEvaluate else s.prepRefuse S 6 := by
    rw [State.prepare, if_neg new, if_neg decided, listed, Option.elim_some, if_neg group, known, Option.elim_some]
  refine ⟨fun outside => ?_, fun member inGroup => ?_⟩
  · have outside : ¬(s.member = true ∧ s.dev ∈ g.2) := by simpa [Classical.or_iff_not_imp_left] using outside
    exact congrArg _ (sound.trans (if_neg outside))
  · obtain ⟨due, evaluated⟩ := (s.prepared S g ids).cmEvaluate_due
    exact ⟨_, congrArg _ (sound.trans (if_pos ⟨member, inGroup⟩)), State.prepared_begins canon (BitVec.isLt _) g ids due evaluated⟩

end Sys2Proof.Machine

namespace Sys2Proof.Machine

/-! ## The step commit (R224 to R230) -/

/-! ### A waiting message (R227) -/

/-- A waiting commit message taken from the mailbox. -/
def State.taken (s : State) (m : CmMsg) : State := { s with cmBox := s.cmBox.erase m }

section Messages
variable {s : State} {m : CmMsg} {typ : Nat} {f : State → CmMsg → State}

/-- The first message of a type acts where it is one of this module's group (R227). -/
theorem State.cmTake_first (known : s.cm.group.map (·.1) = some m.group) (first : s.cmBox.find? (fun m => m.typ == typ) = some m) :
    s.cmTake typ f = f (s.taken m) m := by
  simp only [State.cmTake, first, State.taken, known, if_true]

theorem State.cmDecide_idle {d : CmDue} (idle : s.cm.due = none) : s.cmDecide d = s.modCm (fun c => { c with due := some d }) := by
  simp only [State.cmDecide, idle, Option.isSome_none, Bool.false_eq_true, if_false]

end Messages

/-! ### The evaluation at the coordinator (R229) -/

/-- A coordinator that awaits nothing else than votes: no decision is due and no takeover under way. -/
structure State.Gathers (s : State) : Prop where
  coord : s.isCoord = true
  take : s.cm.take = none
  takeDue : s.cm.takeDue = false

section Evaluation
variable {s : State} (gathers : s.Gathers) (idle : s.cm.due = none)
include gathers idle

theorem State.cmEvaluate_undecided (undecided : s.undecided = true) : s.cmEvaluate =
    if s.cmState = 3 then s.cmDecide ⟨s.cmStep, false, s.rn R.LK_EPOCH, false, false, true, s.dev⟩
    else if (s.cm.votes.filter (fun v => v.2.1 == s.cmStep)).any (fun v => !v.2.2) then s.cmDecide ⟨s.cmStep, false, s.rn R.LK_EPOCH, true, false, true, s.dev⟩
    else if s.cmState = 2 ∧ s.cmLive.all (fun d => d == s.dev || (s.cm.votes.filter (fun v => v.2.1 == s.cmStep)).any (fun v => v.1 == d)) then
      s.cmDecide ⟨s.cmStep, true, s.rn R.LK_EPOCH, false, false, true, s.dev⟩
    else s := by
  simp only [State.cmEvaluate, gathers.coord, gathers.take, gathers.takeDue, idle, undecided, Option.isNone_none, Bool.not_false, Bool.and_true,
    Bool.not_true, Bool.false_eq_true, if_false]

end Evaluation


section Evaluation
variable {s : State}

theorem State.undecided_iff : s.undecided = true ↔ 1 ≤ s.cmState ∧ s.cmState ≤ 3 := by
  simp only [State.undecided, Bool.and_eq_true, decide_eq_true_eq]

/-- Another member voted NOT_PREPARED for the current step. -/
def State.VotedAgainst (s : State) : Prop := ∃ v ∈ s.cm.votes, v.2.1 = s.cmStep ∧ v.2.2 = false

/-- Every other member in membership voted for the current step. -/
def State.AllVoted (s : State) : Prop := ∀ d ∈ s.cmLive, d ≠ s.dev → ∃ v ∈ s.cm.votes, v.1 = d ∧ v.2.1 = s.cmStep

theorem State.votedAgainst_iff : (s.cm.votes.filter (fun v => v.2.1 == s.cmStep)).any (fun v => !v.2.2) = true ↔ s.VotedAgainst := by
  simp [State.VotedAgainst]

theorem State.allVoted_iff :
    s.cmLive.all (fun d => d == s.dev || (s.cm.votes.filter (fun v => v.2.1 == s.cmStep)).any (fun v => v.1 == d)) = true ↔ s.AllVoted := by
  simp only [State.AllVoted, List.all_eq_true, List.any_filter, List.any_eq_true, Bool.or_eq_true, Bool.and_eq_true, beq_iff_eq, Classical.or_iff_not_imp_left, and_comm,
    ne_eq]

variable (gathers : s.Gathers) (idle : s.cm.due = none)
include gathers idle

theorem State.cmEvaluate_notPrepared (state : s.cmState = 3) :
    s.cmEvaluate = s.modCm (fun c => { c with due := some ⟨s.cmStep, false, s.rn R.LK_EPOCH, false, false, true, s.dev⟩ }) := by
  rw [State.cmEvaluate_undecided gathers idle (State.undecided_iff.2 (by omega)), if_pos state, State.cmDecide_idle idle]

theorem State.cmEvaluate_against (state : s.cmState = 1 ∨ s.cmState = 2) (against : s.VotedAgainst) :
    s.cmEvaluate = s.modCm (fun c => { c with due := some ⟨s.cmStep, false, s.rn R.LK_EPOCH, true, false, true, s.dev⟩ }) := by
  rw [State.cmEvaluate_undecided gathers idle (State.undecided_iff.2 (by omega)), if_neg (by omega), if_pos (State.votedAgainst_iff.2 against),
    State.cmDecide_idle idle]

theorem State.cmEvaluate_for (state : s.cmState = 2) (favour : ¬ s.VotedAgainst) : s.cmEvaluate =
    if s.cmLive.all (fun d => d == s.dev || (s.cm.votes.filter (fun v => v.2.1 == s.cmStep)).any (fun v => v.1 == d)) then
      s.modCm (fun c => { c with due := some ⟨s.cmStep, true, s.rn R.LK_EPOCH, false, false, true, s.dev⟩ })
    else s := by
  rw [State.cmEvaluate_undecided gathers idle (State.undecided_iff.2 (by omega)), if_neg (by omega), if_neg (mt State.votedAgainst_iff.1 favour),
    State.cmDecide_idle idle]
  simp only [state, true_and]

theorem State.cmEvaluate_allVoted (state : s.cmState = 2) (favour : ¬ s.VotedAgainst) (voted : s.AllVoted) :
    s.cmEvaluate = s.modCm (fun c => { c with due := some ⟨s.cmStep, true, s.rn R.LK_EPOCH, false, false, true, s.dev⟩ }) := by
  rw [State.cmEvaluate_for gathers idle state favour, if_pos (State.allVoted_iff.2 voted)]

theorem State.cmEvaluate_awaits (state : s.cmState = 2) (favour : ¬ s.VotedAgainst) (missing : ¬ s.AllVoted) : s.cmEvaluate = s := by
  rw [State.cmEvaluate_for gathers idle state favour, if_neg (mt State.allVoted_iff.1 missing)]

end Evaluation

/-! ### Votes (R224, R229, R396) -/

section Votes
variable {s : State} {m : CmMsg}

theorem exec_voteSend : exec .voteSend s = .next (voteSend s) := rfl
theorem exec_voteRepeat : exec .voteRepeat s = .next (voteRepeat s) := rfl
theorem exec_cmVote : exec .cmVote s = .next (cmVote s) := rfl
theorem exec_ptimeoutExpiry : exec .ptimeoutExpiry s = .next (ptimeoutExpiry s) := rfl

/-- The vote of a module whose stacks of mask `k` failed, after an exchange with verdict `agree` (R228). -/
def voteOf (k : Nat) (agree : Bool) : Nat := if k = 0 ∧ agree = true then 2 else 3

theorem voteSend_votes {k : Nat} {agree : Bool} (state : s.cmState = 1) (idle : s.cm.due = none) (marks : s.markMask = some k)
    (verdict : s.cm.verdict = some agree) : voteSend s =
      ((((s.setRn R.GH_CM_STATE (voteOf k agree)).modCm (fun c => { c with voteTime := s.us })).ev 0xA30 0xFF
        (leBytes 8 s.cmStep ++ leBytes 1 (voteOf k agree) ++ leBytes 2 (k * 256 + b2n (!agree) * 2))).sendVote).cmEvaluate := by
  simp only [voteSend, state, idle, marks, verdict, voteOf, beq_self_eq_true, Option.isNone_none, Bool.and_self, Bool.not_true, Bool.false_eq_true, if_false]

theorem voteSend_waits (missing : s.markMask = none ∨ s.cm.verdict = none) : voteSend s = s := by
  unfold voteSend
  split
  · rfl
  split
  · next marks verdict => simp [marks, verdict] at missing
  · rfl

theorem voteRepeat_repeats (restarted : s.cm.restarted = true) (out : s.cmState = 2 ∨ s.cmState = 3) (idle : s.cm.due = none) : voteRepeat s = s.sendVote := by
  simp [voteRepeat, restarted, out, idle]

variable (known : s.cm.group.map (·.1) = some m.group) (first : s.cmBox.find? (fun m => m.typ == 1) = some m)
include known first

theorem cmVote_elsewhere (other : (s.taken m).isCoord = false) : cmVote s = s.taken m := by
  rw [cmVote, State.cmTake_first known first]
  simp only [other, Bool.not_false, Bool.true_or, if_true]

variable (gathers : (s.taken m).Gathers)
include gathers

/-- A vote for a step already decided is answered with the decision (R396). -/
theorem cmVote_decided {d : Nat × Bool} (decided : s.cm.hist.find? (fun d => d.1 == m.step) = some d) :
    cmVote s = (s.taken m).cmSend m.src (if d.2 then 2 else 3) m.step 0 := by
  have decided : (s.taken m).cm.hist.find? (fun d => d.1 == m.step) = some d := decided
  simp only [cmVote, State.cmTake_first known first, gathers.coord, gathers.take, gathers.takeDue, Bool.not_true, Option.isSome_none, Bool.or_self,
    Bool.false_eq_true, if_false, decided]

theorem cmVote_records (undecided : s.cm.hist.find? (fun d => d.1 == m.step) = none) (value : m.value = 2 ∨ m.value = 3) : cmVote s =
    ((s.taken m).modCm (fun c => { c with votes := c.votes.filter (fun v => !(v.1 == m.src && v.2.1 == m.step)) ++ [(m.src, m.step, m.value == 2)] })).cmEvaluate := by
  have undecided : (s.taken m).cm.hist.find? (fun d => d.1 == m.step) = none := undecided
  have counts : ¬(m.value ≠ 2 ∧ m.value ≠ 3) := by omega
  simp only [cmVote, State.cmTake_first known first, gathers.coord, gathers.take, gathers.takeDue, Bool.not_true, Option.isSome_none, Bool.or_self,
    Bool.false_eq_true, if_false, undecided, counts]

end Votes

section Timeout
variable {s : State}

theorem ptimeoutExpiry_discards (gathers : s.Gathers) (idle : s.cm.due = none) (out : s.cmState = 2 ∨ s.cmState = 3)
    (late : s.cm.voteTime + s.rfld R.GH_CM_CFG 15 0 ≤ s.us) :
    ptimeoutExpiry s = s.modCm (fun c => { c with due := some ⟨s.cmStep, false, s.rn R.LK_EPOCH, false, true, true, s.dev⟩ }) := by
  rw [← State.cmDecide_idle idle]
  simp [ptimeoutExpiry, gathers.coord, gathers.take, gathers.takeDue, out, late]

theorem ptimeoutExpiry_waits (early : s.us < s.cm.voteTime + s.rfld R.GH_CM_CFG 15 0) : ptimeoutExpiry s = s := by
  simp only [ptimeoutExpiry, Nat.not_le.2 early, decide_false, Bool.and_false, Bool.false_eq_true, if_false]

end Timeout

/-- Settles O26: each command is its own equation, and the evaluation goes by the state and the votes of the current step. -/
theorem commitVotes : Obligations.CommitVotes := by
  unfold Obligations.CommitVotes
  intro s m
  refine ⟨fun k agree state idle marks verdict => congrArg _ (voteSend_votes state idle marks verdict), fun missing => congrArg _ (voteSend_waits missing),
    fun restarted out idle => congrArg _ (voteRepeat_repeats restarted out idle), fun first known => ?_,
    fun coord out take takeDue idle late => congrArg _ (ptimeoutExpiry_discards ⟨coord, take, takeDue⟩ idle out late),
    fun early => congrArg _ (ptimeoutExpiry_waits early), fun coord idle take takeDue => ?_⟩
  · exact ⟨fun other => congrArg _ (cmVote_elsewhere known first other), fun coord take takeDue =>
      have gathers : (s.taken m).Gathers := ⟨coord, take, takeDue⟩
      ⟨fun d decided => congrArg _ (cmVote_decided known first gathers decided),
        fun undecided value => congrArg _ (cmVote_records known first gathers undecided value)⟩⟩
  · have gathers : s.Gathers := ⟨coord, take, takeDue⟩
    have favours (all : ∀ v ∈ s.cm.votes, v.2.1 = s.cmStep → v.2.2 = true) : ¬ s.VotedAgainst := by
      rintro ⟨v, mem, step, no⟩
      exact absurd (all v mem step) (by simp [no])
    refine ⟨State.cmEvaluate_notPrepared gathers idle, State.cmEvaluate_against gathers idle,
      fun state all voted => State.cmEvaluate_allVoted gathers idle state (favours all) voted, fun state all missing => ?_⟩
    obtain ⟨d, mem, other, none⟩ := missing
    refine State.cmEvaluate_awaits gathers idle state (favours all) fun voted => ?_
    obtain ⟨v, vote, sender, step⟩ := voted d mem other
    exact none v vote sender step

end Sys2Proof.Machine

namespace Sys2Proof.Machine

/-! ## The commit messages (R228, R230) -/

/-! ### What a message that leaves the gatehouse leaves alone (R227, R314 to R319) -/

/-- What sending a flit can change: the log, the outputs, registers, the ports, the lists of the router, the tallies and the limiter.
Unlike `State.Exchanges` it leaves memory alone. -/
def State.Sends (s t : State) : Prop :=
  t = { s with log := t.log, logSeq := t.logSeq, flashLog := t.flashLog, flashSeq := t.flashSeq, out := t.out, regs := t.regs, ports := t.ports,
               e2eTx := t.e2eTx, inbox := t.inbox, unreachLog := t.unreachLog, tally := t.tally, mgmtHold := t.mgmtHold, mgmtTokens := t.mgmtTokens,
               mgmtTime := t.mgmtTime }

section Sends
variable {s t u : State} {p : Fin 16} {d n : Nat} {f : Flit}

theorem State.Sends.refl (s : State) : s.Sends s := rfl

theorem State.Sends.trans (h : s.Sends t) (k : t.Sends u) : s.Sends u := by
  unfold State.Sends at *
  rw [k, h]

theorem State.Notes.sends (h : s.Notes t) : s.Sends t := by
  unfold State.Sends
  rw [h.1]

theorem State.Sends.cm (h : s.Sends t) : t.cm = s.cm := by rw [h]
theorem State.Sends.mem (h : s.Sends t) : t.mem = s.mem := by rw [h]
theorem State.Sends.regions (h : s.Sends t) : t.regions = s.regions := by rw [h]

theorem State.Sends.ite {p : Prop} {_ : Decidable p} (h : s.Sends t) (k : s.Sends u) : s.Sends (if p then t else u) := by
  split
  · exact h
  · exact k

theorem State.Sends.iteFst {α : Type} {p : Prop} {_ : Decidable p} {x y : State × α} (h : s.Sends x.1) (k : s.Sends y.1) :
    s.Sends (if p then x else y).1 := by
  split
  · exact h
  · exact k

theorem State.Sends.setRn {a : Nat} (h : s.Sends t) : s.Sends (t.setRn a n) := h.trans rfl
theorem State.Sends.ev {code src : Nat} {bs : Bytes} (h : s.Sends t) : s.Sends (t.ev code src bs) := h.trans (t.ev_notes code src bs).sends
theorem State.Sends.routeCount {i : Nat} (h : s.Sends t) : s.Sends (t.routeCount i n) := h.trans rfl
theorem State.Sends.modPort {g : Port → Port} (h : s.Sends t) : s.Sends (t.modPort p g) := h.trans rfl
theorem State.Sends.send {w : Wire} (h : s.Sends t) : s.Sends (t.send p w) := h.trans rfl

theorem State.Sends.freeBuf {from? : Option (Nat × Nat)} (h : s.Sends t) : s.Sends (t.freeBuf from?) := by
  cases from? with
  | none => exact h
  | some _ => exact .ite h.modPort.send h.modPort

theorem State.Sends.sendData {w : WaitFlit} (h : s.Sends t) : s.Sends (t.sendData p w) := h.modPort.send.freeBuf

theorem State.Sends.pump (h : s.Sends t) : s.Sends (t.pump p n) := by
  induction n generalizing t with
  | zero => exact h
  | succ n ih =>
    simp only [State.pump]
    split
    · exact h
    · exact ih h.modPort.sendData

theorem State.Sends.enqueue {w : WaitFlit} (h : s.Sends t) : s.Sends (t.enqueue p w) := h.modPort.pump
theorem State.Sends.unreachable (h : s.Sends t) : s.Sends (t.unreachable f) := h.routeCount.ev

theorem State.Sends.place {vc : Nat} {inp : Option (Nat × Nat)} (h : s.Sends t) : s.Sends (t.place f vc inp).1 := by
  simp only [State.place]
  split
  · exact h.trans rfl
  · exact h.routeCount.freeBuf
  · exact h.unreachable.freeBuf
  refine .iteFst h.enqueue (.iteFst h.unreachable.freeBuf ?_)
  split
  · exact h.routeCount.enqueue
  · exact h.enqueue

theorem State.Sends.tallySent (h : s.Sends t) : s.Sends (t.tallySent f) := by
  refine .ite ?_ h
  split
  · exact h.trans rfl
  · exact h

theorem State.Sends.logUnreach (h : s.Sends t) : s.Sends (t.logUnreach d) := by
  simp only [State.logUnreach]
  split
  · exact .ite h (h.ev.trans rfl)
  · exact h.ev.trans rfl

theorem State.Sends.noRoute (h : s.Sends t) : s.Sends (t.noRoute f) := .ite (h.routeCount.logUnreach.trans rfl) h.routeCount.logUnreach
theorem State.Sends.setE2e {w : E2eTx} (h : s.Sends t) : s.Sends (t.setE2e w) := h.trans rfl

theorem State.Sends.e2ePump (h : s.Sends t) : s.Sends (t.e2ePump d n) := by
  induction n generalizing t with
  | zero => exact h
  | succ n ih =>
    simp only [State.e2ePump]
    split
    · exact h
    · exact .ite h (.ite (ih h.setE2e.noRoute) (ih h.setE2e.tallySent.place))

theorem State.Sends.inject (h : s.Sends t) : s.Sends (t.inject f).1 :=
  .iteFst h.tallySent.place (.iteFst (.iteFst h.routeCount.logUnreach h.place) (.iteFst h.routeCount.logUnreach h.setE2e.e2ePump))

/-- A management flit leaves by a port, or through the router (R318). -/
theorem State.Sends.mgmtGo {port : Option (Fin 16)} (h : s.Sends t) : s.Sends (t.mgmtGo port f) := by
  cases port with
  | none => exact h.inject
  | some _ => exact h.enqueue

theorem State.Sends.mgmtPump (h : s.Sends t) : s.Sends (t.mgmtPump n) := by
  induction n generalizing t with
  | zero => exact h
  | succ n ih =>
    simp only [State.mgmtPump]
    split
    · exact h
    · exact .ite h (ih (State.Sends.mgmtGo (h.trans rfl)))

theorem State.Sends.mgmtSend {port : Option (Fin 16)} (h : s.Sends t) : s.Sends (t.mgmtSend port f) := State.Sends.mgmtPump (h.trans rfl)
theorem State.Sends.cmSend {typ step value : Nat} (h : s.Sends t) : s.Sends (t.cmSend d typ step value) := h.mgmtSend

end Sends

/-! ### COMMIT and DISCARD (R228, R230) -/

section Decisions
variable {s : State} {m : CmMsg}

theorem exec_cmCommit : exec .cmCommit s = .next (cmCommit s) := rfl
theorem exec_cmDiscard : exec .cmDiscard s = .next (cmDiscard s) := rfl
theorem exec_cmQuery : exec .cmQuery s = .next (cmQuery s) := rfl
theorem exec_cmState : exec .cmState s = .next (cmStateMsg s) := rfl
theorem exec_commitTakeover : exec .commitTakeover s = .next (commitTakeover s) := rfl

section Commit
variable (known : s.cm.group.map (·.1) = some m.group) (first : s.cmBox.find? (fun m => m.typ == 2) = some m)
include known first

theorem cmCommit_stale (stale : s.cmStale m = true) : cmCommit s = (s.taken m).logStale m := by
  have stale : (s.taken m).cmStale m = true := stale
  simp only [cmCommit, State.cmTake_first known first, stale, if_true]

variable (fresh : s.cmStale m = false)
include fresh

theorem cmCommit_fresh : cmCommit s =
    if (m.step, true) ∈ s.cm.hist then s.taken m
    else if s.cmState = 2 ∧ s.cmStep = m.step then
      ((s.taken m).cmSeen m.epoch).cmDecide ⟨m.step, true, m.epoch, s.cm.answered != 0, false, false, m.src⟩
    else (s.taken m).ev 0xA36 0xFF (leBytes 8 m.step ++ leBytes 1 s.cmState ++ leBytes 2 m.src) := by
  have fresh : (s.taken m).cmStale m = false := fresh
  simp only [cmCommit, State.cmTake_first known first, fresh, Bool.false_eq_true, if_false, List.contains_iff_mem]
  rfl

theorem cmCommit_committed (committed : (m.step, true) ∈ s.cm.hist) : cmCommit s = s.taken m := by
  rw [cmCommit_fresh known first fresh, if_pos committed]

variable (new : (m.step, true) ∉ s.cm.hist)
include new

theorem cmCommit_prepared (state : s.cmState = 2) (step : s.cmStep = m.step) (idle : s.cm.due = none) : cmCommit s =
    ((s.taken m).cmSeen m.epoch).modCm (fun c => { c with due := some ⟨m.step, true, m.epoch, s.cm.answered != 0, false, false, m.src⟩ }) := by
  rw [cmCommit_fresh known first fresh, if_neg new, if_pos ⟨state, step⟩]
  exact State.cmDecide_idle idle

theorem cmCommit_unprepared (other : s.cmState ≠ 2 ∨ s.cmStep ≠ m.step) :
    cmCommit s = (s.taken m).ev 0xA36 0xFF (leBytes 8 m.step ++ leBytes 1 s.cmState ++ leBytes 2 m.src) := by
  rw [cmCommit_fresh known first fresh, if_neg new, if_neg fun both => other.elim (· both.1) (· both.2)]

end Commit

section Discard
variable (known : s.cm.group.map (·.1) = some m.group) (first : s.cmBox.find? (fun m => m.typ == 3) = some m) (fresh : s.cmStale m = false)
include known first fresh

theorem cmDiscard_fresh : cmDiscard s =
    if m.step ≤ s.rn R.GH_CM_DECIDED then s.taken m
    else ((s.taken m).cmSeen m.epoch).cmDecide ⟨m.step, false, m.epoch, s.cmState != 3 || s.cm.answered != 0, false, false, m.src⟩ := by
  have fresh : (s.taken m).cmStale m = false := fresh
  simp only [cmDiscard, State.cmTake_first known first, fresh, Bool.false_eq_true, if_false]
  rfl

theorem cmDiscard_decided (decided : m.step ≤ s.rn R.GH_CM_DECIDED) : cmDiscard s = s.taken m := by
  rw [cmDiscard_fresh known first fresh, if_pos decided]

theorem cmDiscard_new (new : s.rn R.GH_CM_DECIDED < m.step) (idle : s.cm.due = none) : cmDiscard s =
    ((s.taken m).cmSeen m.epoch).modCm (fun c =>
      { c with due := some ⟨m.step, false, m.epoch, s.cmState != 3 || s.cm.answered != 0, false, false, m.src⟩ }) := by
  rw [cmDiscard_fresh known first fresh, if_neg (Nat.not_le.2 new)]
  exact State.cmDecide_idle idle

end Discard

end Decisions

/-! ### QUERY, STATE and the takeover (R228, R230) -/

section Takeover
variable {s : State} {m : CmMsg}

theorem State.cmOutrun_keeps {e : Nat} (latest : ∀ d, s.cm.due = some d → d.step = s.cmStep → e ≤ d.epoch) : s.cmOutrun e = s := by
  unfold State.cmOutrun
  split
  · rfl
  · next d due => exact if_neg fun outrun => absurd (latest d due outrun.1) (Nat.not_le.2 outrun.2)

/-- A due decision of a lower epoch for the current step falls away, with COMMIT_STALE. -/
theorem State.cmOutrun_drops {e : Nat} {d : CmDue} (due : s.cm.due = some d) (step : d.step = s.cmStep) (lower : d.epoch < e) :
    (s.modCm (fun c => { c with due := none })).Notes (s.cmOutrun e) := by
  simp only [State.cmOutrun, due, step, lower, and_self, if_true]
  exact State.ev_notes _ _ _ _

section Query
variable (known : s.cm.group.map (·.1) = some m.group) (first : s.cmBox.find? (fun m => m.typ == 4) = some m)
include known first

theorem cmQuery_answers : cmQuery s =
    ((((s.taken m).cmOutrun m.epoch).cmSeen m.epoch).modCm (fun c => { c with answered := max c.answered m.epoch })).cmSend m.src 5 s.cmStep s.cmState := by
  rw [cmQuery, State.cmTake_first known first]
  rfl

/-- The decision that a QUERY outruns falls away before the answer leaves (R228, log 93). -/
theorem cmQuery_outruns {d : CmDue} (due : s.cm.due = some d) (step : d.step = s.cmStep) (lower : d.epoch < m.epoch) :
    (cmQuery s).cm.due = none ∧ (cmQuery s).cm.answered = max s.cm.answered m.epoch ∧ (cmQuery s).regions = s.regions ∧ (cmQuery s).mem = s.mem := by
  have dropped := (State.cmOutrun_drops (s := s.taken m) due step lower).sends
  have answered := (State.Sends.refl ((((s.taken m).cmOutrun m.epoch).cmSeen m.epoch).modCm (fun c =>
    { c with answered := max c.answered m.epoch }))).cmSend (d := m.src) (typ := 5) (step := s.cmStep) (value := s.cmState)
  have cm : ((s.taken m).cmOutrun m.epoch).cm = { s.cm with due := none } := dropped.cm
  rw [← cmQuery_answers known first] at answered
  have left : (cmQuery s).cm = { s.cm with due := none, answered := max s.cm.answered m.epoch } :=
    answered.cm.trans (congrArg (fun c : Cm => { c with answered := max c.answered m.epoch }) cm)
  exact ⟨congrArg Cm.due left, congrArg Cm.answered left,
    answered.regions.trans dropped.regions, answered.mem.trans dropped.mem⟩

end Query

section StateMsg
variable (known : s.cm.group.map (·.1) = some m.group) (first : s.cmBox.find? (fun m => m.typ == 5) = some m)
include known first

theorem cmStateMsg_ignored (idle : s.cm.take = none) : cmStateMsg s = s.taken m := by
  have idle : (s.taken m).cm.take = none := idle
  simp only [cmStateMsg, State.cmTake_first known first, idle]

theorem cmStateMsg_records {rs : List (Nat × Nat × Nat)} (takeover : s.cm.take = some rs) : cmStateMsg s =
    ((s.taken m).modCm (fun c => { c with take := some (rs.filter (fun r => r.1 != m.src) ++ [(m.src, m.step, m.value)]) })).cmConclude := by
  have takeover : (s.taken m).cm.take = some rs := takeover
  simp only [cmStateMsg, State.cmTake_first known first, takeover]

end StateMsg

theorem commitTakeover_queries (due : s.cm.takeDue = true) (coord : s.isCoord = true) : commitTakeover s =
    ((s.modCm (fun c => { c with takeDue := false, take := some [] })).cmSendAll 4 s.cmStep).cmConclude := by
  simp only [commitTakeover, due, coord, Bool.and_self, if_true]

end Takeover

/-- Settles O27: each message is a case of its command's equation; a decision that a QUERY outruns falls away, and its answer leaves by the router. -/
theorem commitMessages : Obligations.CommitMessages := by
  unfold Obligations.CommitMessages
  intro s m known s1 stale seen
  refine ⟨fun first => ⟨fun old => congrArg _ (cmCommit_stale known first old), fun fresh => ?_⟩, fun first fresh => ?_, fun first => ?_, fun first => ?_,
    fun due coord => congrArg _ (commitTakeover_queries due coord)⟩
  · exact ⟨fun committed => congrArg _ (cmCommit_committed known first fresh committed),
      fun new state step idle => congrArg _ (cmCommit_prepared known first fresh new state step idle),
      fun new other => congrArg _ (cmCommit_unprepared known first fresh new other)⟩
  · exact ⟨fun decided => congrArg _ (cmDiscard_decided known first fresh decided), fun new idle => congrArg _ (cmDiscard_new known first fresh new idle)⟩
  · refine ⟨fun latest => ?_, fun d due step lower => ⟨_, exec_cmQuery, cmQuery_outruns known first due step lower⟩⟩
    rw [exec_cmQuery, cmQuery_answers known first, State.cmOutrun_keeps (s := s.taken m) latest]
    rfl
  · exact ⟨fun idle => congrArg _ (cmStateMsg_ignored known first idle), fun rs takeover => congrArg _ (cmStateMsg_records known first takeover)⟩

end Sys2Proof.Machine

namespace Sys2Proof.Machine

/-! ## Flits addressed to this module (R227, R240, R309, R317) -/

/-- The state with other flits in the inbox. -/
def State.withInbox (s : State) (l : List (Nat × Flit)) : State := { s with inbox := l }

/-- The state without an open request (R317). -/
def State.withoutTxn (s : State) (t : Txn) : State := { s with txns := s.txns.erase t }

section Inbox
variable {s : State} {k : Nat} {f : Flit} {rest : List (Nat × Flit)}

theorem exec_readReq : exec .readReq s = .next (readReq s) := rfl
theorem exec_write : exec .write s = .next (writeReq s) := rfl
theorem exec_readRsp : exec .readRsp s = .next (readRsp s) := rfl
theorem exec_writeAck : exec .writeAck s = .next (writeAck s) := rfl
theorem exec_refuse : exec .refuse s = .next (refuseFlit s) := rfl
theorem exec_rspTimeout (i : Nat) : exec (.rspTimeout i) s = .next (rspTimeout s i) := rfl
theorem exec_mgmt : exec .mgmt s = .next (mgmtFlit s) := rfl

theorem State.takeFlit_first (inbox : s.inbox = (k, f) :: rest) {typ : Nat} (isTyp : f.typ = typ) (g : State → Flit → State) :
    s.takeFlit typ g = g (s.withInbox rest) f := by
  have first : ((k, f) :: rest).find? (fun e => e.2.typ == typ) = some (k, f) := List.find?_cons_of_pos (by simp [isTyp])
  simp only [State.takeFlit, inbox, first, List.erase_cons_head, State.withInbox]

/-! ### Requests of a peer (R240, R309) -/

theorem State.bytes_withInbox (a n : Nat) : (s.withInbox rest).bytes a n = s.bytes a n := by
  induction n generalizing a with
  | zero => rfl
  | succ n ih => exact congrArg (s.byte a :: ·) (ih (a + 1))

theorem State.read_withInbox (a n : Nat) : (s.withInbox rest).read a n = s.read a n := by
  simp only [State.read, State.bytes_withInbox]
  rfl

theorem State.peerRefusal_stranger {n : Nat} (stranger : s.member = false) : s.peerRefusal f n = some 3 := by simp [State.peerRefusal, stranger]

theorem State.peerRefusal_range {n : Nat} (member : s.member = true) (out : peerRange s (f.id % 2 ^ 48) n = false) : s.peerRefusal f n = some 1 := by
  simp only [State.peerRefusal, member, out, Bool.not_true, Bool.not_false, Bool.false_eq_true, if_false, if_true]

theorem State.peerRefusal_none {n : Nat} (member : s.member = true) (range : peerRange s (f.id % 2 ^ 48) n = true) : s.peerRefusal f n = none := by
  simp only [State.peerRefusal, member, range, Bool.not_true, Bool.false_eq_true, if_false]

section Read
variable (inbox : s.inbox = (k, f) :: rest) (typ : f.typ = 1)
include inbox typ

theorem readReq_refuses {r : Nat} (refused : (s.withInbox rest).peerRefusal f (leAt f.payload 0 1) = some r) :
    readReq s = (s.withInbox rest).answer f 5 (leBytes 1 r) := by
  simp only [readReq, State.takeFlit_first inbox typ, refused]

variable (allowed : (s.withInbox rest).peerRefusal f (leAt f.payload 0 1) = none)
include allowed

theorem readReq_answers {b : Bytes} (read : s.read (f.id % 2 ^ 48) (64 * leAt f.payload 0 1) = some b) :
    readReq s = (s.withInbox rest).answer f 2 (padTo 192 b ++ leBytes 1 (leAt f.payload 0 1) ++ leBytes 1 0) := by
  simp only [readReq, State.takeFlit_first inbox typ, allowed, State.read_withInbox, read]

theorem readReq_poisoned (poison : s.read (f.id % 2 ^ 48) (64 * leAt f.payload 0 1) = none) :
    readReq s = (s.withInbox rest).answer f 2 (padTo 192 [] ++ leBytes 1 (leAt f.payload 0 1) ++ leBytes 1 1) := by
  simp only [readReq, State.takeFlit_first inbox typ, allowed, State.read_withInbox, poison]

end Read

section Write
variable (inbox : s.inbox = (k, f) :: rest) (typ : f.typ = 3)
include inbox typ

theorem writeReq_refuses {r : Nat} (refused : (s.withInbox rest).peerRefusal f (leAt f.payload 192 1) = some r) :
    writeReq s = (s.withInbox rest).answer f 5 (leBytes 1 r) := by
  simp only [writeReq, State.takeFlit_first inbox typ, refused]

theorem writeReq_stores (allowed : (s.withInbox rest).peerRefusal f (leAt f.payload 192 1) = none) : writeReq s =
    ((s.withInbox rest).write (f.id % 2 ^ 48) (f.payload.take (64 * leAt f.payload 192 1))).answer f 4 [] := by
  simp only [writeReq, State.takeFlit_first inbox typ, allowed]

end Write

/-! ### Replies (R243, R250, R309, R314, R317) -/

section Replies
variable {x : Txn} {b : Fin 24}

/-- The lines that a response without poison brings to a request. -/
def Txn.linesOf (x : Txn) (payload : Bytes) : List (Nat × Nat × Bytes) :=
  (List.range x.lines).map (fun i => (x.dev, x.addr / 64 + i, (payload.drop (64 * i)).take 64))

theorem State.txnRefused_core (core : x.who = .core b) : s.txnRefused x = (s.withoutTxn x).modCore b (fun c => { c with io := .refused }) := by
  simp only [State.txnRefused, core, State.withoutTxn]

theorem rspTimeout_none {i : Nat} (absent : s.txns[i]? = none) : rspTimeout s i = s := by simp only [rspTimeout, absent]
theorem rspTimeout_refuses {i : Nat} (txn : s.txns[i]? = some x) : rspTimeout s i = s.txnRefused x := by simp only [rspTimeout, txn]

section ReadRsp
variable (inbox : s.inbox = (k, f) :: rest) (typ : f.typ = 2)
include inbox typ

theorem readRsp_unasked (unasked : (s.withInbox rest).txnOf f (some false) = none) : readRsp s = s.withInbox rest := by
  simp only [readRsp, State.takeFlit_first inbox typ, unasked]

variable (asked : (s.withInbox rest).txnOf f (some false) = some x)
include asked

theorem readRsp_core (core : x.who = .core b) (good : (leAt f.payload 193 1).testBit 0 = false) : readRsp s =
    ((s.withInbox rest).withoutTxn x).modCore b (fun c => { c with io := .done, lines := c.lines ++ x.linesOf f.payload }) := by
  simp only [readRsp, State.takeFlit_first inbox typ, asked, core, good, Bool.false_eq_true, if_false, State.withoutTxn, Txn.linesOf]

theorem readRsp_core_poisoned (core : x.who = .core b) (bad : (leAt f.payload 193 1).testBit 0 = true) : readRsp s =
    ((s.withInbox rest).withoutTxn x).modCore b (fun c =>
      { c with io := .done, lines := c.lines ++ (List.range x.lines).map (fun i => (x.dev, x.addr / 64 + i, [])) }) := by
  simp only [readRsp, State.takeFlit_first inbox typ, asked, core, bad, if_true, State.withoutTxn]

theorem readRsp_derrick {d : Fin 48} {j : Nat} {r : DkRun} (derrick : x.who = .derrick d j) (run : (s.dk d).runs.find? (fun r => r.id == j) = some r)
    (good : (leAt f.payload 193 1).testBit 0 = false) : readRsp s =
      ((s.withInbox rest).withoutTxn x).setRun d { r with lines := r.lines ++ x.linesOf f.payload } := by
  have run : (((s.withInbox rest).withoutTxn x).dk d).runs.find? (fun r => r.id == j) = some r := run
  simp only [State.withoutTxn] at run
  simp only [readRsp, State.takeFlit_first inbox typ, asked, derrick, run, good, Bool.false_eq_true, if_false, State.withoutTxn, Txn.linesOf]

end ReadRsp

section WriteAck
variable (inbox : s.inbox = (k, f) :: rest) (typ : f.typ = 4)
include inbox typ

theorem writeAck_unasked (unasked : (s.withInbox rest).txnOf f (some true) = none) : writeAck s = s.withInbox rest := by
  simp only [writeAck, State.takeFlit_first inbox typ, unasked]

variable (asked : (s.withInbox rest).txnOf f (some true) = some x)
include asked

theorem writeAck_core (core : x.who = .core b) : writeAck s = ((s.withInbox rest).withoutTxn x).modCore b (fun c => { c with io := .done }) := by
  simp only [writeAck, State.takeFlit_first inbox typ, asked, core, State.withoutTxn]

theorem writeAck_derrick {d : Fin 48} {j : Nat} (derrick : x.who = .derrick d j) : writeAck s = (s.withInbox rest).withoutTxn x := by
  simp only [writeAck, State.takeFlit_first inbox typ, asked, derrick, State.withoutTxn]

end WriteAck

section Refuse
variable (inbox : s.inbox = (k, f) :: rest) (typ : f.typ = 5)
include inbox typ

theorem refuseFlit_unasked (unasked : (s.withInbox rest).refused f = none) : refuseFlit s = s.withInbox rest := by
  simp only [refuseFlit, State.takeFlit_first inbox typ, unasked]

theorem refuseFlit_ends (asked : (s.withInbox rest).refused f = some x) : refuseFlit s = (s.withInbox rest).txnRefused x := by
  simp only [refuseFlit, State.takeFlit_first inbox typ, asked]

end Refuse

/-- A REFUSE ends nothing where no request is open to its source, and its reason is not 2 or no request has its address. -/
theorem State.refused_none (unasked : s.txnOf f none = none) (other : leAt f.payload 0 1 ≠ 2 ∨ ∀ x ∈ s.txns, x.addr ≠ f.id % 2 ^ 48) : s.refused f = none := by
  rw [State.refused, unasked, Option.none_or]
  split
  · next reason => simpa using other.resolve_left (fun h => h reason)
  · rfl

theorem State.refused_some (asked : s.txnOf f none = some x
      ∨ s.txnOf f none = none ∧ leAt f.payload 0 1 = 2 ∧ s.txns.find? (fun x => x.addr == f.id % 2 ^ 48) = some x) :
    s.refused f = some x := by
  rcases asked with own | ⟨unasked, reason, oldest⟩
  · rw [State.refused, own, Option.some_or]
  · rw [State.refused, unasked, Option.none_or, if_pos reason, oldest]

end Replies

/-! ### Management flits (R227, R309, R325) -/

section Mgmt
variable (inbox : s.inbox = (k, f) :: rest) (typ : f.typ = 0x20)
include inbox typ

theorem mgmtFlit_class2 {e : Nat} {g : MemMsg} (msg : f.mem = some (e, g)) : mgmtFlit s = memberIn (s.withInbox rest) (Fin.ofNat 16 k) f.src g := by
  have first : ((k, f) :: rest).find? (fun e => e.2.typ == 0x20) = some (k, f) := List.find?_cons_of_pos (by simp [typ])
  simp only [mgmtFlit, inbox, first, msg, List.erase_cons_head, State.withInbox]

theorem mgmtFlit_class1 (msg : f.mem = none) : mgmtFlit s =
    if leAt f.payload 0 2 = 1 then { s.withInbox rest with cmBox := s.cmBox ++ [CmMsg.ofBytes ((f.payload.drop 4).take 32)] } else s.withInbox rest := by
  have first : ((k, f) :: rest).find? (fun e => e.2.typ == 0x20) = some (k, f) := List.find?_cons_of_pos (by simp [typ])
  simp only [mgmtFlit, inbox, first, msg, List.erase_cons_head, State.withInbox]

end Mgmt

/-- A message without its sender's number comes from the partner of its port (R321). -/
theorem memberIn_partner (p : Fin 16) (g : MemMsg) (named : s.rfld (R.LK_PARTNER p) 15 0 ≠ 0xFFFF) :
    memberIn s p 0xFFFF g = memberIn s p (s.rfld (R.LK_PARTNER p) 15 0) g := by
  simp only [memberIn, named, if_true, if_false, State.partner]

end Inbox

/-- Settles O45: the first flit of the inbox is the one that the command of its type takes, and each outcome is a case of that command. -/
theorem peerRequestsAnswered : Obligations.PeerRequestsAnswered := by
  unfold Obligations.PeerRequestsAnswered
  intro s k f rest inbox s1 a reply n m
  refine ⟨fun typ => ⟨fun member range => ?_, fun member out => ?_, fun stranger => ?_⟩,
    fun typ => ⟨fun member range => ?_, fun member out => ?_, fun stranger => ?_⟩,
    fun typ => ⟨fun unasked => congrArg _ (readRsp_unasked inbox typ unasked), fun x d j r asked derrick run good => ?_,
      fun x b asked core good => congrArg _ (readRsp_core inbox typ asked core good), fun x b asked core bad => congrArg _ (readRsp_core_poisoned inbox typ asked core bad)⟩,
    fun typ => ⟨fun unasked => congrArg _ (writeAck_unasked inbox typ unasked), fun x b asked core => congrArg _ (writeAck_core inbox typ asked core),
      fun x d j asked derrick => congrArg _ (writeAck_derrick inbox typ asked derrick)⟩,
    fun typ => ⟨fun unasked other => congrArg _ (refuseFlit_unasked inbox typ (State.refused_none (s := s1) unasked other)), fun x b asked core => ?_⟩,
    fun i x b txn core => congrArg _ ((rspTimeout_refuses txn).trans (State.txnRefused_core core)),
    fun i absent => congrArg _ (rspTimeout_none absent),
    fun typ msg => ?_, fun e g typ msg => congrArg _ (mgmtFlit_class2 inbox typ msg), fun t p src n c named => ?_⟩
  · have allowed : s1.peerRefusal f n = none := State.peerRefusal_none (s := s1) member range
    exact ⟨fun b read => congrArg _ (readReq_answers inbox typ allowed read), fun poison => congrArg _ (readReq_poisoned inbox typ allowed poison)⟩
  · exact congrArg _ (readReq_refuses inbox typ (State.peerRefusal_range (s := s1) member out))
  · exact congrArg _ (readReq_refuses inbox typ (State.peerRefusal_stranger (s := s1) stranger))
  · exact ⟨_, exec_write.trans (congrArg _ (writeReq_stores inbox typ (State.peerRefusal_none (s := s1) member range))), rfl⟩
  · exact congrArg _ (writeReq_refuses inbox typ (State.peerRefusal_range (s := s1) member out))
  · exact congrArg _ (writeReq_refuses inbox typ (State.peerRefusal_stranger (s := s1) stranger))
  · exact congrArg _ (readRsp_derrick inbox typ asked derrick run good)
  · exact congrArg _ ((refuseFlit_ends inbox typ (State.refused_some (s := s1) asked)).trans (State.txnRefused_core core))
  · have taken := mgmtFlit_class1 inbox typ msg
    exact ⟨fun commit => congrArg _ (taken.trans (if_pos commit)), fun other => congrArg _ (taken.trans (if_neg other))⟩
  · refine ⟨fun g partner => partner ▸ memberIn_partner p g (partner ▸ named), ?_⟩
    simp only [memberIn, probeMsg, if_neg named, and_self]

end Sys2Proof.Machine

namespace Sys2Proof.Machine

/-! ## No command stops -/

/-- Settles O56: every operation of the model keeps the queue of waiting commands (`State.Keeps`), so every command does, and so does the core
cycle of an empty queue. -/
theorem noCommandStops : Obligations.NoCommandStops := by
  unfold Obligations.NoCommandStops
  refine ⟨fun c s => ?_, fun s => ?_⟩
  · obtain ⟨t, next, queue, -⟩ := exec_keeps c s
    exact ⟨t, next, queue⟩
  · cases waiting : s.pending with
    | nil =>
      refine ⟨s.tick, ?_, (State.Keeps.refl s).tick.1.trans waiting⟩
      simp only [step, waiting]
    | cons c rest =>
      obtain ⟨t, next, queue, -⟩ := exec_keeps c { s with pending := rest }
      refine ⟨t, ?_, queue⟩
      simp only [step, waiting]
      exact next

end Sys2Proof.Machine

namespace Sys2Proof.Machine

/-! ## Loads and stores of a control core (R237, R240, R242, R278, R282, R288) -/

section Accesses
variable {s t u : State} {b : Fin 24} {x y : Fin 32} {i : Fin 65536} {a n : Nat} {host : Option Bytes} {d : Bytes} {cause kind : Nat}

/-- The row of an instruction that is fetched performs it. -/
theorem exec_fetched {run : Instr} {e : Ed} {spec : List (Bool × Nat)} {miss : Bool}
    (row : exec run s = .next (s.issue b (some e) host spec miss)) (fetched : s.fetches b e t) :
    exec run s = .next (t.perform b host spec miss e) := by
  rw [row, State.issue_fetched fetched]

/-! ### How an aligned load goes on -/

section WithLoad
variable {f : State → Bytes → State}

theorem State.withLoad_misaligned (misaligned : a % n ≠ 0) : s.withLoad b a n host f = s.coreFault b 2 0 a := if_pos misaligned

variable (aligned : a % n = 0)
include aligned

theorem State.withLoad_val (load : s.coreLoad b a n host = (u, .val d)) : s.withLoad b a n host f = f u d := by
  simp [State.withLoad, aligned, load]

theorem State.withLoad_wait (load : s.coreLoad b a n host = (u, .wait)) : s.withLoad b a n host f = u.stallCore b 2 := by
  simp [State.withLoad, aligned, load]

theorem State.withLoad_fault (load : s.coreLoad b a n host = (u, .fault cause kind)) : s.withLoad b a n host f = u.coreFault b cause kind a := by
  simp [State.withLoad, aligned, load]

end WithLoad

/-! ### The instructions -/

/-- The place of an access: gY plus the sign-extended immediate. -/
def State.ea (s : State) (b : Fin 24) (y : Fin 32) (i : Nat) : Nat := (s.gr b y + simm i) % 2 ^ 64

/-- What a load writes to gX: its bytes extended by zeros or by their sign. -/
def loaded (f : Nat) (d : Bytes) : Nat := if (ldSize f).2 then toBits 64 (signed (8 * (ldSize f).1) (fromLe d)) else fromLe d

theorem exec_ld {run : Instr} {f : Fin 7} {v : Nat} (row : exec run s = .next (s.issue b (some (.ld f x y i)) host [] false))
    (size : (ldSize f).1 = n) (value : loaded f d = v) (fetched : s.fetches b (.ld f x y i) t) :
    (t.ea b y i % n = 0 → t.coreLoad b (t.ea b y i) n host = (u, .val d) → exec run s = .next ((u.setG b x v).retire b))
    ∧ (t.ea b y i % n = 0 → t.coreLoad b (t.ea b y i) n host = (u, .wait) → exec run s = .next (u.stallCore b 2))
    ∧ (t.ea b y i % n = 0 → t.coreLoad b (t.ea b y i) n host = (u, .fault cause kind) → exec run s = .next (u.coreFault b cause kind (t.ea b y i)))
    ∧ (t.ea b y i % n ≠ 0 → exec run s = .next (t.coreFault b 2 0 (t.ea b y i))) := by
  have performed : exec run s = .next (t.withLoad b (t.ea b y i) n host (fun u d => (u.setG b x (loaded f d)).retire b)) := by
    rw [exec_fetched row fetched, ← size]
    rfl
  rw [performed, ← value]
  exact ⟨fun aligned load => congrArg _ (State.withLoad_val aligned load), fun aligned load => congrArg _ (State.withLoad_wait aligned load),
    fun aligned load => congrArg _ (State.withLoad_fault aligned load), fun misaligned => congrArg _ (State.withLoad_misaligned misaligned)⟩

theorem exec_st {run : Instr} {f : Fin 4} (row : exec run s = .next (s.issue b (some (.st f x y i)) none [] false)) (size : 2 ^ f.val = n)
    (fetched : s.fetches b (.st f x y i) t) :
    (t.ea b y i % n = 0 → t.coreStore b (t.ea b y i) (leBytes n (t.gr b x)) = (u, .val d) → exec run s = .next (u.retire b))
    ∧ (t.ea b y i % n = 0 → t.coreStore b (t.ea b y i) (leBytes n (t.gr b x)) = (u, .wait) → exec run s = .next (u.stallCore b 2))
    ∧ (t.ea b y i % n = 0 → t.coreStore b (t.ea b y i) (leBytes n (t.gr b x)) = (u, .fault cause kind) →
        exec run s = .next (u.coreFault b cause kind (t.ea b y i)))
    ∧ (t.ea b y i % n ≠ 0 → exec run s = .next (t.coreFault b 2 0 (t.ea b y i))) := by
  rw [exec_fetched row fetched]
  have place : (t.gr b y + simm i) % 2 ^ 64 = t.ea b y i := rfl
  simp only [State.perform, size, place]
  refine ⟨fun aligned store => ?_, fun aligned store => ?_, fun aligned store => ?_, fun misaligned => congrArg _ (if_pos misaligned)⟩
  · simp only [aligned, store, ne_eq, not_true_eq_false, if_false]
  · simp only [aligned, store, ne_eq, not_true_eq_false, if_false]
  · simp only [aligned, store, ne_eq, not_true_eq_false, if_false]

/-! ### Uncached pages of the module, and addresses above 48 bits (R237, R240, R243, R278) -/

section Uncached
variable {xl : Xl} (lcl : xl.target = .lcl) (memory : isRegSpace xl.addr = false) (uncached : xl.nc = true)
include lcl memory uncached

theorem State.coreLoad_uncached (place : s.coreXlate b a false = (u, .inr xl)) {got : Bytes} (read : u.read xl.addr n = some got) :
    s.coreLoad b a n host = (u.oweFree b 2, .val got) := by
  simp [State.coreLoad, State.coreRead, place, lcl, memory, uncached, cacheable, read]

theorem State.coreLoad_uncached_bad (place : s.coreXlate b a false = (u, .inr xl)) (bad : u.read xl.addr n = none) :
    s.coreLoad b a n host = (u.oweFree b 2, .fault 4 0) := by
  simp [State.coreLoad, State.coreRead, place, lcl, memory, uncached, cacheable, bad]

theorem State.coreStore_uncached (place : s.coreXlate b a true = (u, .inr xl)) : s.coreStore b a d = (u.write xl.addr d, .val []) := by
  simp [State.coreStore, place, lcl, memory, uncached, cacheable]

end Uncached

section Unmapped
variable (high : 2 ^ 48 ≤ a)
include high

theorem State.coreXlate_unmapped (write : Bool) : s.coreXlate b a write = (s.addReg R.MM_FAULTS 1, .inl 1) := if_pos high
theorem State.coreLoad_unmapped : s.coreLoad b a n host = (s.addReg R.MM_FAULTS 1, .fault 3 1) := by
  simp only [State.coreLoad, State.coreXlate_unmapped high]
theorem State.coreStore_unmapped : s.coreStore b a d = (s.addReg R.MM_FAULTS 1, .fault 3 1) := by
  simp only [State.coreStore, State.coreXlate_unmapped high]

end Unmapped
end Accesses

/-- Settles O38: each instruction is its access at gY plus the immediate, and an access of an uncached page or above 48 bits is one branch of it. -/
theorem edvenLoadsAndStores : Obligations.EdvenLoadsAndStores := by
  unfold Obligations.EdvenLoadsAndStores
  intro s t u b x y i host ecc d cause kind a loads stores
  refine ⟨exec_ld rfl rfl rfl, exec_ld rfl rfl rfl, exec_ld rfl rfl rfl, exec_ld rfl rfl rfl, rfl, exec_ld rfl rfl rfl, exec_ld rfl rfl rfl, exec_ld rfl rfl rfl,
    exec_st rfl rfl, exec_st rfl rfl, exec_st rfl rfl, exec_st rfl rfl, fun xl n place lcl memory uncached => ?_,
    fun xl place lcl memory uncached => State.coreStore_uncached lcl memory uncached place,
    fun high => ⟨State.coreLoad_unmapped high, State.coreStore_unmapped high⟩⟩
  exact ⟨fun got read => State.coreLoad_uncached lcl memory uncached place read, State.coreLoad_uncached_bad lcl memory uncached place⟩

end Sys2Proof.Machine

namespace Sys2Proof.Machine

/-! ## The end of a control core's instruction (R285, R286, R289, R301) -/

/-- A core as a halt leaves it (R289). -/
def Core.halted (x : Core) (cause : Nat) : Core :=
  { x with st := 3, cause := cause, due := 0, stepping := false, why := 0, claim := none, io := .none, lines := [] }

section InstrEnd
variable (s : State) (b : Fin 24) (cause : Nat)

theorem State.core_modCore_ne {c : Fin 24} (f : Core → Core) (other : c ≠ b) : (s.modCore c f).core b = s.core b :=
  Vector.getElem_set_ne c.isLt b.isLt fun e => other (Fin.ext e)

/-- A halt changes the cores of the gang and marks their run; no other unit (R289). -/
theorem State.coreHalt_frame : s.coreHalt b cause = { s with cores := (s.coreHalt b cause).cores, runs := (s.coreHalt b cause).runs } := by
  simp only [State.coreHalt]
  split
  · rfl
  · refine List.foldlRecOn (motive := fun t : State => t = { s with cores := t.cores, runs := t.runs }) _ _ rfl fun t frame c _ => ?_
    split
    · exact (congrArg (fun u : State => u.modCore c _) frame).trans rfl
    · exact frame

/-- The cores of the gang that a halt reaches are other cores. -/
theorem State.core_coreHalt : (s.coreHalt b cause).core b = (s.core b).halted cause := by
  have halted : (s.modCore b (·.halted cause)).core b = (s.core b).halted cause := State.core_modCore s b _
  simp only [State.coreHalt]
  split
  · exact halted
  · refine List.foldlRecOn (motive := fun t : State => t.core b = (s.core b).halted cause) _ _ halted fun t halted c _ => ?_
    split
    next other => rw [State.core_modCore_ne _ _ _ other.1, halted]
    · exact halted

@[simp] theorem State.coreHalt_mem : (s.coreHalt b cause).mem = s.mem := by rw [State.coreHalt_frame]

/-- What of a core neither a halt nor the count of its instructions changes stays at the end of an instruction. -/
theorem State.core_instrEnd {α : Type} {p : Core → α} (counted : ∀ x : Core, p { x with why := 0, retired := x.retired + 1 } = p x)
    (halted : ∀ (x : Core) (cause : Nat), p (x.halted cause) = p x) : p ((s.instrEnd b).core b) = p (s.core b) := by
  have ended : p ((s.modCore b (fun x => { x with why := 0, retired := x.retired + 1 })).core b) = p (s.core b) := by
    rw [State.core_modCore, counted]
  simp only [State.instrEnd]
  split
  · rw [State.core_coreHalt, halted, ended]
  split
  · rw [State.core_coreHalt, halted, ended]
  · exact ended

@[simp] theorem State.pc_instrEnd : ((s.instrEnd b).core b).pc = (s.core b).pc := s.core_instrEnd b (fun _ => rfl) fun _ _ => rfl
@[simp] theorem State.lc_instrEnd : ((s.instrEnd b).core b).lc = (s.core b).lc := s.core_instrEnd b (fun _ => rfl) fun _ _ => rfl
@[simp] theorem State.loops_instrEnd : ((s.instrEnd b).core b).loops = (s.core b).loops := s.core_instrEnd b (fun _ => rfl) fun _ _ => rfl
@[simp] theorem State.g_instrEnd : ((s.instrEnd b).core b).g = (s.core b).g := s.core_instrEnd b (fun _ => rfl) fun _ _ => rfl

@[simp] theorem State.instrEnd_mem : (s.instrEnd b).mem = s.mem := by
  simp only [State.instrEnd]
  split
  · exact State.coreHalt_mem _ _ _
  split
  · exact State.coreHalt_mem _ _ _
  · rfl

end InstrEnd

/-! ### The next PC (R285, R286) -/

section Next
variable {s : State} {b : Fin 24} {x : Core} {a : Nat} {n : Fin 4}

/-- One loop looked at in the search for the innermost active body that ends at a place. -/
def Core.inner (x : Core) (a : Nat) (best : Option (Fin 4)) (n : Fin 4) : Option (Fin 4) :=
  if (x.loops[n]).active && (x.loops[n]).stop == a then
    (match best with
    | some m => if (x.loops[m]).start < (x.loops[n]).start then some n else best
    | none => some n)
  else best

theorem Core.loopAt_eq : x.loopAt a = (List.finRange 4).foldl (x.inner a) none := rfl

theorem Core.inner_of_other {best : Option (Fin 4)} (other : (x.loops[n]).active = true → (x.loops[n]).stop ≠ a) : x.inner a best n = best :=
  if_neg (by simpa using other)

theorem Core.loopAt_none (outside : ∀ m : Fin 4, (x.loops[m]).active = true → (x.loops[m]).stop ≠ a) : x.loopAt a = none := by
  rw [Core.loopAt_eq]
  exact List.foldlRecOn (motive := (· = none)) _ _ rfl fun best found m _ => by rw [Core.inner_of_other (outside m), found]

/-- The search finds the only active loop whose body ends at the place. -/
theorem Core.foldl_inner (active : (x.loops[n]).active = true) (stop : (x.loops[n]).stop = a)
    (others : ∀ m : Fin 4, m ≠ n → (x.loops[m]).active = false) (l : List (Fin 4)) :
    ∀ best, best = none ∨ best = some n → l.foldl (x.inner a) best = if n ∈ l then some n else best := by
  induction l with
  | nil => exact fun best _ => by simp
  | cons m l ih =>
    intro best found
    by_cases same : m = n
    · subst same
      have step : x.inner a best m = some m := by rcases found with rfl | rfl <;> simp [-Fin.getElem_fin, Core.inner, active, stop]
      simp [step, ih _ (.inr rfl)]
    · have step : x.inner a best m = best := Core.inner_of_other fun h => absurd h (by simp [-Fin.getElem_fin, others m same])
      simp [step, ih _ found, Ne.symm same]

theorem Core.loopAt_only (active : (x.loops[n]).active = true) (stop : (x.loops[n]).stop = a)
    (others : ∀ m : Fin 4, m ≠ n → (x.loops[m]).active = false) : x.loopAt a = some n := by
  simp [Core.loopAt_eq, Core.foldl_inner active stop others, List.mem_finRange]

theorem Core.loopTest_outside (outside : x.loopAt a = none) (k : Nat) : Core.loopTest a k x = (x, none) := by
  cases k with
  | zero => rfl
  | succ k => simp only [Core.loopTest, outside]

theorem Core.loopTest_again (found : x.loopAt a = some n) (more : 1 < (x.lc[n]).toNat) (k : Nat) :
    Core.loopTest a (k + 1) x = ({ x with lc := x.lc.set n (x.lc[n] - 1) }, some (x.loops[n]).start) := by
  simp only [Core.loopTest, found, Nat.not_le.2 more, if_false]

theorem Core.loopTest_last (found : x.loopAt a = some n) (last : (x.lc[n]).toNat ≤ 1) (k : Nat) :
    Core.loopTest a (k + 1) x = Core.loopTest a k { x with lc := x.lc.set n 0, loops := x.loops.set n { x.loops[n] with active := false } } := by
  simp only [Core.loopTest, found, last, if_true]

/-- Where no body ends the next instruction follows. -/
theorem Core.passed_outside (outside : ∀ m : Fin 4, (x.loops[m]).active = true → (x.loops[m]).stop ≠ x.pc) (low : x.pc + 4 < 2 ^ 48) :
    x.passed = { x with pc := x.pc + 4 } := by
  simp only [Core.passed, Core.loopTest_outside (Core.loopAt_none outside), Option.getD_none, Nat.mod_eq_of_lt low]

section Body
variable {st : Nat} (body : x.loops[n] = ⟨true, st, x.pc⟩) (others : ∀ m : Fin 4, m ≠ n → (x.loops[m]).active = false)
include body others

theorem Core.loopAt_body : x.loopAt x.pc = some n := Core.loopAt_only (by rw [body]) (by rw [body]) others

theorem Core.passed_again (more : 1 < (x.lc[n]).toNat) (low : st < 2 ^ 48) : x.passed = { x with pc := st, lc := x.lc.set n (x.lc[n] - 1) } := by
  simp only [Core.passed, Core.loopTest_again (Core.loopAt_body body others) more, body, Option.getD_some, Nat.mod_eq_of_lt low]

theorem Core.passed_last (last : (x.lc[n]).toNat ≤ 1) (low : x.pc + 4 < 2 ^ 48) :
    x.passed = { x with pc := x.pc + 4, lc := x.lc.set n 0, loops := x.loops.set n ⟨false, st, x.pc⟩ } := by
  have noMore : ({ x with lc := x.lc.set n 0, loops := x.loops.set n ⟨false, st, x.pc⟩ } : Core).loopAt x.pc = none := by
    refine Core.loopAt_none fun m active => ?_
    by_cases same : m = n
    · subst same
      simp at active
    · have other : (x.loops.set n ⟨false, st, x.pc⟩)[m] = x.loops[m] := Vector.getElem_set_ne n.isLt m.isLt fun e => same (Fin.ext e.symm)
      rw [other, others m same] at active
      cases active
  simp only [Core.passed, Core.loopTest_last (Core.loopAt_body body others) last, body, Core.loopTest_outside noMore, Option.getD_none,
    Nat.mod_eq_of_lt low]

end Body

theorem State.pc_retire : ((s.retire b).core b).pc = (s.core b).passed.pc := by rw [State.retire, State.pc_instrEnd, State.core_modCore]
theorem State.lc_retire : ((s.retire b).core b).lc = (s.core b).passed.lc := by rw [State.retire, State.lc_instrEnd, State.core_modCore]
theorem State.loops_retire : ((s.retire b).core b).loops = (s.core b).passed.loops := by rw [State.retire, State.loops_instrEnd, State.core_modCore]
theorem State.pc_jumpTo : ((s.jumpTo b a).core b).pc = a % 2 ^ 48 := by rw [State.jumpTo, State.pc_instrEnd, State.core_modCore]

/-- A jump goes by the low 48 bits of its target. -/
theorem State.jumpTo_congr {c : Nat} (same : a % 2 ^ 48 = c % 2 ^ 48) : s.jumpTo b a = s.jumpTo b c := by simp only [State.jumpTo, same]

end Next

/-! ## Branches, jumps and loops (R282, R285 to R287) -/

section ControlFlow
variable {s t u : State} {b : Fin 24} {x y : Fin 32} {n : Fin 4} {spec : List (Bool × Nat)} {miss : Bool} {count len w : Nat}

/-! ### Branches and jumps -/

/-- The target of a branch or jump at `pc` by k words, modulo 2^48. -/
def branchTarget (pc : Nat) (k : Int) : Nat := (((pc : Int) + 4 + 4 * k) % 2 ^ 48).toNat

theorem branchTarget_mod (pc : Nat) (k : Int) : (pc + 4 + toBits 48 (4 * k)) % 2 ^ 48 = branchTarget pc k % 2 ^ 48 := by
  simp only [branchTarget, toBits]
  omega

theorem exec_br {run : Instr} {f : Fin 6} {i : Fin 65536} {holds : Prop} (row : exec run s = .next (s.issue b (some (.br f x y i)) none spec miss))
    (test : brHolds f (t.gr b x) (t.gr b y) = true ↔ holds) (fetched : s.fetches b (.br f x y i) t) :
    (holds → exec run s = .next ((t.predict b spec miss).jumpTo b (branchTarget (t.core b).pc (signed 16 i))))
    ∧ (¬holds → exec run s = .next ((t.predict b spec miss).retire b)) := by
  rw [exec_fetched row fetched, ← test]
  refine ⟨fun taken => ?_, fun straight => congrArg _ (if_neg straight)⟩
  rw [← State.jumpTo_congr (branchTarget_mod _ _)]
  exact congrArg _ (if_pos taken)

theorem exec_jal {o : Fin 67108864} (fetched : s.fetches b (.jal o) t) :
    exec (.edJal b o) s = .next ((t.setG b 31 ((t.core b).pc + 4)).jumpTo b (branchTarget (t.core b).pc (signed 26 o))) := by
  rw [← State.jumpTo_congr (branchTarget_mod _ _)]
  exact exec_fetched rfl fetched

theorem exec_j {o : Fin 67108864} (fetched : s.fetches b (.j o) t) :
    exec (.edJ b o) s = .next (t.jumpTo b (branchTarget (t.core b).pc (signed 26 o))) := by
  rw [← State.jumpTo_congr (branchTarget_mod _ _)]
  exact exec_fetched rfl fetched

/-- With no fetch on the predicted path and speculative loads off the predictor makes no access. -/
theorem State.predict_quiet (off : t.rbit (R.CC_CFG b) 0 = false) (loads : ∀ p ∈ spec, p.1 = false) :
    t.predict b spec miss = if miss then (t.addReg (R.CC_MISPREDICT b) 1).owe b 12 3 else t := by
  have none : spec.filter (fun p => p.1 || t.rbit (R.CC_CFG b) 0) = [] := List.filter_eq_nil_iff.2 fun p mem => by simp [off, loads p mem]
  simp only [State.predict, none, List.foldl_nil]

/-! ### The start of a loop (R285) -/

theorem State.loopEnter_refused (h : ((s.core b).loops[n]).active = true ∨ len = 0) : s.loopEnter b n count len = s.plainFault b 5 := by
  unfold State.loopEnter
  exact if_pos (by rcases h with h | h <;> simp [-Fin.getElem_fin, h])

/-- A word that may be the last of a body: one that decodes to no control transfer. -/
def LegalLast (w : Nat) : Prop := ∀ e, Ed.decode w = some e → e.endsBody = false

section Idle
variable (idle : ∀ m : Fin 4, ((s.core b).loops[m]).active = false) (body : 0 < len) (last : s.fetch b ((s.core b).pc + 4 * len) = (u, .inr w))
include idle body last

theorem State.loopEnter_illegal (illegal : ¬LegalLast w) : s.loopEnter b n count len = u.plainFault b 5 := by
  simp only [LegalLast, Classical.not_forall, Bool.not_eq_false] at illegal
  obtain ⟨e, dec, ends⟩ := illegal
  simp [-Fin.getElem_fin, State.loopEnter, idle, last, dec, ends, Nat.ne_of_gt body]

variable (legal : LegalLast w)
include legal

theorem State.loopEnter_legal : s.loopEnter b n count len =
    if count = 0 then (u.modCore b (fun y => { y with pc := ((s.core b).pc + 4 * len + 4) % 2 ^ 48 })).instrEnd b
    else (u.modCore b (fun y => { y with
      pc := ((s.core b).pc + 4) % 2 ^ 48, lc := y.lc.set n (BitVec.ofNat 64 count),
      loops := y.loops.set n ⟨true, (s.core b).pc + 4, (s.core b).pc + 4 * len⟩ })).instrEnd b := by
  cases dec : Ed.decode w with
  | none => simp [-Fin.getElem_fin, State.loopEnter, idle, last, dec, Nat.ne_of_gt body]
  | some e => simp [-Fin.getElem_fin, State.loopEnter, idle, last, dec, legal e dec, Nat.ne_of_gt body]

variable (low : (s.core b).pc + 4 * len + 4 < 2 ^ 48)
include low

theorem State.loopEnter_skips : ((s.loopEnter b n 0 len).core b).pc = (s.core b).pc + 4 * len + 4
    ∧ ((s.loopEnter b n 0 len).core b).loops = (u.core b).loops := by
  rw [State.loopEnter_legal idle body last legal, if_pos rfl, State.pc_instrEnd, State.loops_instrEnd, State.core_modCore]
  exact ⟨Nat.mod_eq_of_lt low, rfl⟩

theorem State.loopEnter_starts (runs : 0 < count) :
    ∃ z, s.loopEnter b n count len = z ∧ (z.core b).pc = (s.core b).pc + 4 ∧ (z.core b).lc[n] = BitVec.ofNat 64 count
      ∧ (z.core b).loops[n] = ⟨true, (s.core b).pc + 4, (s.core b).pc + 4 * len⟩ ∧ (∀ m, m ≠ n → (z.core b).loops[m] = (u.core b).loops[m])
      ∧ (z.core b).g = (u.core b).g ∧ z.mem = u.mem := by
  refine ⟨_, State.loopEnter_legal idle body last legal, ?_⟩
  rw [if_neg (Nat.ne_of_gt runs), State.pc_instrEnd, State.lc_instrEnd, State.loops_instrEnd, State.g_instrEnd, State.instrEnd_mem, State.core_modCore]
  exact ⟨Nat.mod_eq_of_lt (by omega), Vector.getElem_set_self n.isLt, Vector.getElem_set_self n.isLt,
    fun m other => Vector.getElem_set_ne n.isLt m.isLt fun e => other (Fin.ext e.symm), rfl, rfl⟩

end Idle

end ControlFlow

/-- Settles O39: a branch is decided by its comparison and goes to a target modulo 2^48, the end of an instruction tests the loops whose bodies end there,
and a loop begins as `State.loopEnter` says. -/
theorem edvenControlFlow : Obligations.EdvenControlFlow := by
  unfold Obligations.EdvenControlFlow
  intro s t u b x y i len o n cnt spec miss w p q pc off pr br
  refine ⟨exec_br rfl beq_iff_eq, exec_br rfl bne_iff_ne, exec_br rfl decide_eq_true_iff, exec_br rfl decide_eq_true_iff,
    exec_br rfl decide_eq_true_iff, exec_br rfl decide_eq_true_iff,
    exec_jal, exec_j, fun fetched => exec_fetched rfl fetched, fun low outside => ?_, fun a => State.pc_jumpTo,
    fun off loads => ⟨State.predict_quiet off loads, State.predict_quiet off loads⟩, fun idle last low => ?_,
    fun fetched busy => (exec_fetched rfl fetched).trans (congrArg _ (State.loopEnter_refused busy)),
    fun st body low others => ⟨fun more => ?_, fun last next => ?_⟩⟩
  · rw [State.pc_retire, Core.passed_outside outside low]
  · refine ⟨fun fetched legal runs => ?_, fun fetched legal runs => ?_, fun fetched legal skip => ?_, fun fetched body illegal => ?_⟩
    · exact ⟨_, exec_fetched rfl fetched, State.loopEnter_starts idle legal.1 last legal.2 low runs⟩
    · exact ⟨_, exec_fetched rfl fetched, State.loopEnter_starts idle legal.1 last legal.2 low runs⟩
    · refine ⟨_, exec_fetched rfl fetched, ?_⟩
      simp only [State.perform, skip]
      exact State.loopEnter_skips idle legal.1 last legal.2 low
    · exact (exec_fetched rfl fetched).trans
        (congrArg _ (State.loopEnter_illegal idle body last fun legal => illegal ⟨body, legal⟩))
  · rw [State.pc_retire, State.lc_retire, Core.passed_again body others more low]
    exact ⟨rfl, Vector.getElem_set_self n.isLt⟩
  · rw [State.pc_retire, State.loops_retire, Core.passed_last body others last next]
    exact ⟨rfl, congrArg LoopSt.active (Vector.getElem_set_self n.isLt)⟩

end Sys2Proof.Machine

namespace Sys2Proof.Machine

/-! ## The system, queue and tensor instructions of a control core (R282, R289 to R301) -/

section System
variable {s t u : State} {b : Fin 24} {x y : Fin 32} {a : Nat} {host : Option Bytes}

/-! ### DCLEAN, DINV, END and BRK -/

theorem State.sysOp_clean {xl : Xl} (place : t.coreXlate b (t.gr b y) false = (u, .inr xl)) :
    t.sysOp b 1 0 y = (if xl.target = .lcl ∧ cacheable xl.addr xl.nc = true then u.cleanLine b (xl.addr / 64) else u).retire b := by
  simp [State.sysOp, place]

theorem State.sysOp_drop {xl : Xl} (place : t.coreXlate b (t.gr b y) false = (u, .inr xl)) :
    t.sysOp b 2 0 y = (if xl.target = .lcl ∧ cacheable xl.addr xl.nc = true then u.dropLine b (xl.addr / 64) else u).retire b := by
  simp [State.sysOp, place]

theorem State.sysOp_line_fault {f : Nat} (fault : t.coreXlate b (t.gr b y) false = (u, .inl f)) :
    t.sysOp b 1 0 y = u.coreFault b 3 f (t.gr b y) ∧ t.sysOp b 2 0 y = u.coreFault b 3 f (t.gr b y) := by
  simp [State.sysOp, fault]

theorem State.coreEnd_idles : ((t.coreEnd b).core b).st = 0 ∧ ((t.coreEnd b).core b).ring = none ∧ (t.coreEnd b).mem = t.mem
    ∧ (t.coreEnd b).benches = t.benches ∧ (t.coreEnd b).regs = t.regs := by
  simp only [State.coreEnd]
  split
  · simp
  · simp

theorem Core.g_loopTest (n : Nat) (x : Core) : (Core.loopTest a n x).1.g = x.g := by
  induction n generalizing x with
  | zero => rfl
  | succ n ih =>
    simp only [Core.loopTest]
    split
    · rfl
    split
    · exact ih _
    · rfl

theorem Core.g_passed (x : Core) : x.passed.g = x.g := Core.g_loopTest 4 x

/-- BRK passes to the next PC and halts the core there. -/
theorem State.sysOp_break : ((t.sysOp b 5 0 0).core b).st = 3 ∧ ((t.sysOp b 5 0 0).core b).cause = 2
    ∧ ((t.sysOp b 5 0 0).core b).pc = (t.core b).passed.pc ∧ ((t.sysOp b 5 0 0).core b).g = (t.core b).g ∧ (t.sysOp b 5 0 0).mem = t.mem := by
  simp [State.sysOp, State.core_coreHalt, Core.halted, Core.g_passed]

/-! ### Pushes (R290, R301) -/

section TryPush
variable {qid : Nat} {q : QRef} {c : Cmd} {f : State → State}

theorem State.hasRoom_of_lt (room : (t.queue q).cmds.length < q.depth) : t.hasRoom q = true := decide_eq_true room
theorem State.hasRoom_of_le (full : q.depth ≤ (t.queue q).cmds.length) : t.hasRoom q = false := decide_eq_false (Nat.not_lt.2 full)

theorem State.tryPush_closed (closed : t.openQueue b qid = none) : t.tryPush b qid c f = t.plainFault b 6 := by simp [State.tryPush, closed]

variable (opened : t.openQueue b qid = some q)
include opened

theorem State.tryPush_breaks (broken : t.breaks b qid c = true) : t.tryPush b qid c f = t.coreBreak b := by simp [State.tryPush, opened, broken]

theorem State.tryPush_full (free : t.breaks b qid c = false) (full : q.depth ≤ (t.queue q).cmds.length) :
    t.tryPush b qid c f = t.stallCore b 4 := by
  simp [State.tryPush, opened, free, State.hasRoom_of_le full]

theorem State.tryPush_pushes (free : t.breaks b qid c = false) (room : (t.queue q).cmds.length < q.depth) :
    t.tryPush b qid c f = f (t.corePush b qid q c) := by
  simp [State.tryPush, opened, free, State.hasRoom_of_lt room]

end TryPush

/-- PUSH takes its command from eight registers (R290). -/
def State.pushed (t : State) (b : Fin 24) (x : Fin 32) : Cmd := (List.range 8).map (fun j => (t.core b).g[Fin.ofNat 32 (x.val + j)])

theorem State.queOp_push {i : Nat} (first : x.val = 8 ∨ x.val = 16 ∨ x.val = 24) :
    t.queOp b 0x00 x 0 i none = t.tryPush b i (t.pushed b x) (fun t => t.retire b) := if_pos first

theorem State.queOp_push_elsewhere {i : Nat} (h8 : x.val ≠ 8) (h16 : x.val ≠ 16) (h24 : x.val ≠ 24) :
    t.queOp b 0x00 x 0 i none = t.plainFault b 6 := if_neg (by simp [h8, h16, h24])

theorem State.queOp_pushm {i : Nat} {q : QRef} {d : Bytes} (opened : t.openQueue b i = some q) (aligned : t.gr b y % 64 = 0)
    (load : t.coreLoad b (t.gr b y) 64 host = (u, .val d)) :
    t.queOp b 0x01 0 y i host = u.tryPush b i (Cmd.ofBytes d) (fun u => u.retire b) := by
  simp only [State.queOp, opened, State.withLoad_val aligned load]

theorem State.queOp_qfree {i : Nat} {q : QRef} (opened : t.openQueue b i = some q) :
    t.queOp b 0x02 x 0 i none = (t.setG b x (q.depth - (t.queue q).cmds.length)).retire b := by simp only [State.queOp, opened]

/-! ### Streams and version operations (R161 to R167, R206, R282) -/

theorem Fin.ofNat_slot (j : Fin 4) : Fin.ofNat 4 (Fin.ofNat 256 j.val).val = j :=
  Fin.ext (by simp only [Fin.ofNat]; omega)

theorem State.queOp_sclaim {j : Fin 4} {d : Bytes} (aligned : t.gr b y % 16 = 0) (load : t.coreLoad b (t.gr b y) 16 host = (u, .val d)) :
    t.queOp b 0x18 x y (Fin.ofNat 256 j.val) host =
      ((u.submitClaim (.core b) (leAt d 0 8) (leAt d 8 8)).modCore b (fun c => { c with claim := some (x.val, j.val) })).stallCore b 4 := by
  have slot : (Fin.ofNat 256 j.val).val % 4 = j.val := congrArg Fin.val (Fin.ofNat_slot j)
  simp only [State.queOp, State.sclaim, slot, State.withLoad_val aligned load]

/-- A claim submitted waits for its decision at the instruction that made it. -/
theorem State.claim_waits (u : State) {step ref slot : Nat} :
    let v := ((u.submitClaim (.core b) step ref).modCore b (fun c => { c with claim := some (x.val, slot) })).stallCore b 4
    v.spall.queue = placeClaim ⟨.core b, step, ref, u.claimDev, u.time⟩ u.spall.queue ∧ (v.core b).claim = some (x.val, slot)
      ∧ (v.core b).pc = (u.core b).pc ∧ v.mem = u.mem := by
  refine ⟨rfl, ?_, ?_, rfl⟩
  · rw [State.stallCore, State.core_modCore, State.core_modCore]
  · rw [State.stallCore, State.core_modCore, State.core_modCore]
    rfl

/-- Four 16-bit values put one after another. -/
theorem fromLe_four (f : Nat → Nat) : fromLe ((List.range 4).flatMap (fun j => leBytes 2 (f j))) =
    f 0 % 2 ^ 16 + f 1 % 2 ^ 16 * 2 ^ 16 + f 2 % 2 ^ 16 * 2 ^ 32 + f 3 % 2 ^ 16 * 2 ^ 48 := by
  have four : List.range 4 = [0, 1, 2, 3] := rfl
  simp only [four, List.flatMap_cons, List.flatMap_nil, leBytes, List.cons_append, List.nil_append, fromLe, BitVec.toNat_ofNat]
  omega

section Rnd
variable {j : Fin 4}

theorem State.queOp_rnd_unclaimed (unclaimed : (t.core b).slots[j] = none) :
    t.queOp b 0x19 x y (Fin.ofNat 256 j.val) none = t.plainFault b 1 := by
  simp only [State.queOp, Fin.ofNat_slot, unclaimed]

theorem State.queOp_rnd {key w : Nat} (claimed : (t.core b).slots[j] = some (key, w)) :
    t.queOp b 0x19 x y (Fin.ofNat 256 j.val) none = (t.setG b x (randVal key (w + 4 * t.gr b y) % 2 ^ 16 + randVal key (w + 4 * t.gr b y + 1) % 2 ^ 16 * 2 ^ 16
      + randVal key (w + 4 * t.gr b y + 2) % 2 ^ 16 * 2 ^ 32 + randVal key (w + 4 * t.gr b y + 3) % 2 ^ 16 * 2 ^ 48)).retire b := by
  simp only [State.queOp, Fin.ofNat_slot, claimed, fromLe_four, Nat.add_zero]

end Rnd

theorem State.vopRun_up {k w r v : Nat} (up : t.stackUp k = true) (op : vtOp t k w = (u, r, v)) :
    t.vopRun b k w = ((u.setRn (R.UE_VT_RES k b) v).setRn (R.UE_VT_CODE k b) (2 ^ 31 + r), r, v) := by
  simp only [State.vopRun, up, if_true, op]

theorem State.queOp_vop {z : Fin 32} {r w : Nat} (up : t.stackUp (t.vopStack (t.gr b y)) = true)
    (op : vtOp t (t.vopStack (t.gr b y)) (t.gr b y) = (u, r, w)) : t.queOp b 0x20 x y (Fin.ofNat 256 z.val) none =
      ((((u.setRn (R.UE_VT_RES (t.vopStack (t.gr b y)) b) w).setRn (R.UE_VT_CODE (t.vopStack (t.gr b y)) b) (2 ^ 31 + r)).setG b x w).setG b z r
        |>.owe b 1 6).retire b := by
  have reg : Fin.ofNat 32 (Fin.ofNat 256 z.val).val = z := Fin.ext (by simp only [Fin.ofNat]; omega)
  simp only [State.queOp, State.vop, State.vopRun_up up op, reg]

end System

/-! ## TOP (R294, R301, R302) -/

section Top
variable {s t u : State} {b : Fin 24} {gx k n : Nat} {host : Option Bytes} {st : OpStep} {l mine : List OpStep}

theorem State.modCore_modCore (f g : Core → Core) : (s.modCore b f).modCore b g = s.modCore b (fun x => g (f x)) := by
  simp only [State.modCore, State.core, Fin.getElem_fin, Vector.getElem_set_self, Vector.set_set]

/-- The end of a TOP forgets how far it had come. -/
theorem State.topEnd_work (w : Calc) : (s.modCore b (fun x => { x with work := w })).topEnd b = s.topEnd b := by
  simp only [State.topEnd, State.modCore_modCore]

/-! ### The commands of a TOP bound -/

theorem tagged_first (p : Push) : tagged k [] p = p.cmd.set 0 (BitVec.ofNat 64 (putBits (p.cmd.w 0) 39 16 (k % 65536 * 256))) := by
  simp only [tagged, List.filter_nil, List.length_nil, Nat.zero_mod, Nat.add_zero]

/-- A step that pushes nothing and makes no access of its own has nothing bound. -/
theorem bindTop_quiet (touches : st.touches gx = []) (noPush : st.push? = none) : bindTop b gx k 0 [st] 0 s [st] = (s, .inr [([], none)]) := by
  simp [bindTop, touches, noPush, touchFault]

/-- A push without a drain descriptor. -/
theorem bindTop_push {p : Push} {c : Cmd} (kind : st.kind = .push p) (drain : p.drain = none) (fixes : p.fixes = [])
    (opened : (s.openQueue b p.qid).isSome = true)
    (bound : bindAll b gx (takesVa p.qid (tagged k [] p)) s (tagged k [] p) p.binds = .inr (u, c)) :
    bindTop b gx k 0 [st] 0 s [st] = (u, .inr [(c, none)]) := by
  have push : st.push? = some p := by simp only [OpStep.push?, kind]
  have touches : st.touches gx = [] := by simp [OpStep.touches, kind, drain, fixes, fixReads]
  have closed : (s.openQueue b p.qid).isNone = false := by simpa using opened
  simp [bindTop, push, touches, touchFault, closed, bindPush, bound, drain]

/-! ### Its one step -/

theorem State.topStep_push {p : Push} {q : QRef} {c : Cmd} (drain : p.drain = none) (fixes : p.fixes = [])
    (opened : s.openQueue b p.qid = some q) (free : s.breaks b p.qid c = false) (room : (s.queue q).cmds.length < q.depth)
    (fresh : (s.core b).work = {}) :
    s.topStep b gx (.push p) (c, none) host = ((s.corePush b p.qid q c).modCore b (fun y => { y with topPos := y.topPos + 1 }), true) := by
  simp [State.topStep, State.stepPush, opened, free, State.hasRoom_of_lt room, drain, fixes, State.tokensKnown, fixReads, gather, scatter, fresh, State.fixCmd]

section OneStep
variable {c : Cmd × Option Cmd} (fresh : (s.core b).work.step = 0) (free : st.guards = [])
include fresh free

/-- A TOP whose one step stops. -/
theorem topSteps_stops (stops : s.topStep b gx st.kind c host = (u, false)) : topSteps b gx [st] [c] host 2 s = u := by
  simp [topSteps, fresh, free, State.guardsHold, stops]

/-- A TOP whose one step is done. -/
theorem topSteps_done (done : s.topStep b gx st.kind c host = (u, true)) : topSteps b gx [st] [c] host 2 s = u.topEnd b := by
  simp [topSteps, fresh, free, State.guardsHold, done, State.topEnd_work]

end OneStep

/-! ### The instruction -/

/-- The translated steps of an operation of the module that core b runs. -/
def State.opSteps (t : State) (b : Fin 24) (k : Nat) : Option (List OpStep) :=
  (t.modules.find? (fun m => m.handle == (t.core b).handle)).bind (fun m => m.ops[k]?)

theorem State.top_unlisted (unlisted : t.opSteps b k = none) : t.top b gx k host = t.plainFault b 1 := by
  simp only [State.opSteps] at unlisted
  simp only [State.top, unlisted]

section Begun
variable (listed : t.opSteps b k = some l) (steps : l.filter (fun o => o.core == b.val) = mine) (pos : (t.core b).topPos = 0) (fresh : (t.core b).work = {})
include listed steps pos fresh

/-- A TOP that begins binds all of its core's steps first. -/
theorem State.top_fault {e : Nat × Nat × Nat} (fault : bindTop b gx k 0 mine 0 t mine = (u, .inl e)) (other : e.1 ≠ 6) :
    t.top b gx k host = u.coreFault b e.1 e.2.1 e.2.2 := by
  simp only [State.opSteps] at listed
  simp [State.top, listed, steps, pos, fresh, stepAt, pushCount, fault, other]

theorem State.top_begins {cs : List (Cmd × Option Cmd)} (bound : bindTop b gx k 0 mine 0 t mine = (u, .inr cs)) :
    t.top b gx k host = topSteps b gx mine cs host (mine.length + 1) u := by
  simp only [State.opSteps] at listed
  simp [State.top, listed, steps, pos, fresh, stepAt, pushCount, bound]

/-- A TOP of one step. -/
theorem State.top_one {c : Cmd × Option Cmd} (one : mine = [st]) (free : st.guards = []) (bound : bindTop b gx k 0 [st] 0 t [st] = (u, .inr [c]))
    (same : (u.core b).work = (t.core b).work) :
    t.top b gx k host = if (u.topStep b gx st.kind c host).2 then (u.topStep b gx st.kind c host).1.topEnd b else (u.topStep b gx st.kind c host).1 := by
  subst one
  have step : (u.core b).work.step = 0 := by rw [same, fresh]
  rw [State.top_begins listed steps pos fresh bound]
  cases made : u.topStep b gx st.kind c host with
  | mk v ok =>
    cases ok with
    | false => exact topSteps_stops step free made
    | true => exact topSteps_done step free made

theorem State.top_empty (none : mine = []) : t.top b gx k host = t.topEnd b := by
  subst none
  rw [State.top_begins listed steps pos fresh rfl]
  rfl

theorem State.top_await {target : Nat} (one : mine = [⟨b.val, [], none, .await n target⟩]) :
    t.top b gx k host = if target ≤ t.syncVal n then t.topEnd b else t.stallCore b 5 := by
  rw [State.top_one listed steps pos fresh one rfl (bindTop_quiet rfl rfl) rfl]
  simp only [State.topStep]
  split
  · rfl
  · rfl

theorem State.top_pin {r v m : Nat} (one : mine = [⟨b.val, [], none, .pin r⟩]) (up : t.stackUp (bits r 13 11) = true)
    (op : vtOp t (bits r 13 11) (0x10 * 2 ^ 56 + r) = (u, m, v)) :
    t.top b gx k host = ((((u.setRn (R.UE_VT_RES (bits r 13 11) b) v).setRn (R.UE_VT_CODE (bits r 13 11) b) (2 ^ 31 + m)).setNote b (.token r gx) (some v)).owe b 1 6).topEnd b := by
  rw [State.top_one listed steps pos fresh one rfl (bindTop_quiet rfl rfl) rfl]
  simp only [State.topStep, State.stepPin, State.vopRun_up up op, if_true]

/-- The push makes the TOP's position move on, and its end puts the position back. -/
theorem State.top_push {qid : Nat} {cmd c : Cmd} {binds : List Bind} {q : QRef} (one : mine = [⟨b.val, [], none, .push ⟨qid, cmd, binds, [], none⟩⟩])
    (opened : (t.openQueue b qid).isSome = true)
    (bound : bindAll b gx (takesVa qid (cmd.set 0 (BitVec.ofNat 64 (putBits (cmd.w 0) 39 16 (k % 65536 * 256))))) t
      (cmd.set 0 (BitVec.ofNat 64 (putBits (cmd.w 0) 39 16 (k % 65536 * 256)))) binds = .inr (u, c))
    (opened' : u.openQueue b qid = some q) (same : u.core b = t.core b) (free : u.breaks b qid c = false) (room : (u.queue q).cmds.length < q.depth) :
    t.top b gx k host = (u.corePush b qid q c).topEnd b := by
  rw [← tagged_first ⟨qid, cmd, binds, [], none⟩] at bound
  rw [State.top_one listed steps pos fresh one rfl (bindTop_push rfl rfl rfl opened bound) (by rw [same]),
    State.topStep_push rfl rfl opened' free room (by rw [same, fresh])]
  simp only [if_true, State.topEnd, State.modCore_modCore]

end Begun
end Top

/-- Settles O41: each instruction is one branch of its opcode's operation, and a TOP that begins with one step binds it, makes it, and ends. -/
theorem edvenSystemInstructions : Obligations.EdvenSystemInstructions := by
  unfold Obligations.EdvenSystemInstructions
  intro s t b x y z i j k host a wr
  refine ⟨exec_fetched rfl, exec_fetched rfl, fun fetched u xl place => ?_, fun fetched u xl place => ?_, fun u f fault => ⟨fun fetched => ?_, fun fetched => ?_⟩,
    exec_fetched rfl, fun fetched => ⟨_, exec_fetched rfl fetched, State.coreEnd_idles⟩, fun fetched => ⟨_, exec_fetched rfl fetched, State.sysOp_break⟩,
    exec_fetched rfl, fun fetched first => ?_, fun fetched h8 h16 h24 => ?_, fun fetched q u d opened aligned load opened' free room => ?_,
    fun fetched q opened => ?_, exec_fetched rfl, fun fetched => ⟨fun reached => ?_, fun unreached => ?_⟩, exec_fetched rfl, exec_fetched rfl,
    fun fetched => ⟨fun room => ?_, fun full => ?_⟩, fun fetched u d aligned load => ?_,
    fun fetched => ⟨fun unclaimed => ?_, fun key w claimed => ?_⟩, fun fetched up u r w op => ?_, fun fetched => ?_⟩
  · exact (exec_fetched rfl fetched).trans (congrArg _ (State.sysOp_clean place))
  · exact (exec_fetched rfl fetched).trans (congrArg _ (State.sysOp_drop place))
  · exact (exec_fetched rfl fetched).trans (congrArg _ (State.sysOp_line_fault fault).1)
  · exact (exec_fetched rfl fetched).trans (congrArg _ (State.sysOp_line_fault fault).2)
  · have push : exec (.edPush b x i) s = .next (t.tryPush b i (t.pushed b x) (fun t => t.retire b)) :=
      (exec_fetched rfl fetched).trans (congrArg _ (State.queOp_push first))
    rw [push]
    exact ⟨fun closed => congrArg _ (State.tryPush_closed closed), fun q opened broken => congrArg _ (State.tryPush_breaks opened broken),
      fun q opened free full => congrArg _ (State.tryPush_full opened free full),
      fun q opened free room => congrArg _ (State.tryPush_pushes opened free room)⟩
  · exact (exec_fetched rfl fetched).trans (congrArg _ (State.queOp_push_elsewhere h8 h16 h24))
  · exact (exec_fetched rfl fetched).trans
      (congrArg _ ((State.queOp_pushm opened aligned load).trans (State.tryPush_pushes opened' free room)))
  · exact (exec_fetched rfl fetched).trans (congrArg _ (State.queOp_qfree opened))
  · exact (exec_fetched rfl fetched).trans (congrArg _ (if_pos reached))
  · exact (exec_fetched rfl fetched).trans (congrArg _ (if_neg (Nat.not_le.2 unreached)))
  · exact (exec_fetched rfl fetched).trans (congrArg _ (if_neg (Nat.not_le.2 room)))
  · exact (exec_fetched rfl fetched).trans (congrArg _ (if_pos full))
  · exact ⟨_, (exec_fetched rfl fetched).trans (congrArg _ (State.queOp_sclaim aligned load)), State.claim_waits u⟩
  · exact (exec_fetched rfl fetched).trans (congrArg _ (State.queOp_rnd_unclaimed unclaimed))
  · exact (exec_fetched rfl fetched).trans (congrArg _ (State.queOp_rnd claimed))
  · exact (exec_fetched rfl fetched).trans (congrArg _ (State.queOp_vop up op))
  · have top : exec (.edTop b x k host) s = .next (t.top b (t.gr b x) k host) := exec_fetched rfl fetched
    rw [top]
    refine ⟨fun unlisted => congrArg _ (State.top_unlisted unlisted), fun pos fresh => ⟨fun l listed others => ?_,
      fun l qid cmd binds c u q listed steps opened bound opened' same free room => ?_,
      fun l e u listed fault other => congrArg _ (State.top_fault listed rfl pos fresh fault other),
      fun l n target listed steps => ⟨fun reached => ?_, fun unreached => ?_⟩, fun l r listed steps up u n w op => ?_⟩⟩
    · have none : l.filter (fun o => o.core == b.val) = [] := List.filter_eq_nil_iff.2 fun p mem => by simpa using others p mem
      exact congrArg _ (State.top_empty listed rfl pos fresh none)
    · exact congrArg _ (State.top_push listed steps pos fresh rfl opened bound opened' same free room)
    · exact congrArg _ ((State.top_await listed steps pos fresh rfl).trans (if_pos reached))
    · exact congrArg _ ((State.top_await listed steps pos fresh rfl).trans (if_neg (Nat.not_le.2 unreached)))
    · exact congrArg _ (State.top_pin listed steps pos fresh rfl up op)

end Sys2Proof.Machine

namespace Sys2Proof.Machine

/-! ## Invalidations (R244, R245) -/

section Invalidations
variable {s : State} {w : Nat} {rest : List Nat}

theorem exec_mmInvalDone : exec .mmInvalDone s = .next (mmInvalDone s) := rfl

/-- An outstanding request used a translation that an invalidation names (R244). -/
def State.inUse (s : State) (w : Nat) : Prop := ∃ t ∈ s.txns, ∃ c p, t.xl = some (c, p) ∧ invalNames w c p = true

variable (oldest : s.invals = w :: rest)
include oldest

theorem mmInvalDone_waits (used : s.inUse w) : mmInvalDone s = s := by
  obtain ⟨t, mem, c, p, xl, named⟩ := used
  simp only [mmInvalDone, oldest]
  exact if_pos (List.any_eq_true.2 ⟨t, mem, by simp only [xl, named]⟩)

theorem mmInvalDone_done (unused : ¬s.inUse w) : mmInvalDone s =
    if rest.isEmpty = true then ({ s with invals := rest, tlb := s.tlb.filter (fun e => !invalNames w e.ctx e.page) } : State).setRn R.MM_INVAL_STATUS 1
    else { s with invals := rest, tlb := s.tlb.filter (fun e => !invalNames w e.ctx e.page) } := by
  simp only [mmInvalDone, oldest]
  refine if_neg fun used => ?_
  obtain ⟨t, mem, named⟩ := List.any_eq_true.1 used
  cases xl : t.xl with
  | none => simp [xl] at named
  | some x => exact unused ⟨t, mem, x.1, x.2, xl, by simpa only [xl] using named⟩

end Invalidations

/-- Settles O31: the oldest invalidation waits while a translation that it names is in use, and drops the named ones when it is done. -/
theorem invalidation : Obligations.Invalidation := by
  unfold Obligations.Invalidation
  intro s v w rest canonical
  refine ⟨rfl, fun oldest => ⟨fun unused => ?_, fun used => congrArg _ (mmInvalDone_waits oldest used)⟩⟩
  have free : ¬s.inUse w := fun ⟨t, mem, c, p, xl, named⟩ => by simp [unused t mem c p xl] at named
  have cached : ∀ e, e ∈ s.tlb.filter (fun e => !invalNames w e.ctx e.page) ↔ e ∈ s.tlb ∧ invalNames w e.ctx e.page = false := fun e => by simp
  rw [exec_mmInvalDone, mmInvalDone_done oldest free]
  cases rest with
  | nil =>
    refine ⟨_, rfl, rfl, cached, ?_, rfl, rfl, rfl⟩
    exact (State.rn_setRn (s := { s with invals := [], tlb := _ }) canonical _ _ _).trans (if_pos rfl)
  | cons v rest => exact ⟨_, rfl, rfl, cached, rfl, rfl, rfl, rfl⟩

end Sys2Proof.Machine

namespace Sys2Proof.Machine

/-! ## The queue of a derrick (R256 to R258, R260, R270) -/

section DerrickQueue
variable {s : State} {d : Fin 48} {c : Cmd} {op item : Nat} {f : Cmd → State}

theorem exec_dkNop : exec (.dkNop d) s = .next (dkNop s d) := rfl
theorem exec_dkSyncWait : exec (.dkSyncWait d) s = .next (dkSyncWait s d) := rfl
theorem exec_dkSyncSignal : exec (.dkSyncSignal d) s = .next (dkSyncSignal s d) := rfl
theorem exec_copy : exec (.copy d) s = .next (dkStart s d 0x70) := rfl
theorem exec_fill : exec (.fill d) s = .next (dkStart s d 0x71) := rfl
theorem exec_slotfill : exec (.slotfill d) s = .next (dkStart s d 0x72) := rfl
theorem exec_plane : exec (.plane d) s = .next (dkStart s d 0x73) := rfl
theorem exec_dkResume : exec (.dkResume d) s = .next (dkResume s d) := rfl
theorem exec_dkSkip : exec (.dkSkip d) s = .next (dkSkip s d) := rfl
theorem exec_dkCntClr : exec (.dkCntClr d) s = .next (dkCntClr s d) := rfl

theorem EQ.cmds_head? {q : EQ} (head : q.head? = some c) : q.cmds.head? = some c := by
  simp only [EQ.head?] at head
  split at head
  · cases head
  · exact head

theorem Dk.live_eq_true {x : Dk} {n : Nat} : x.live n = true ↔ ∃ r ∈ x.runs, r.id < n := by simp [Dk.live]

theorem dkResume_running (run : (s.dk d).q.cause = 0) : dkResume s d = s := by simp [dkResume, EQ.halted_eq_false run]
theorem dkSkip_running (run : (s.dk d).q.cause = 0) : dkSkip s d = s := by simp [dkSkip, EQ.halted_eq_false run]

variable (live : (s.bench (dkBench d)).out = false)
include live

/-! ### Its commands -/

theorem dkDispatch_parity (head : (s.dk d).q.head? = some c) (bad : c.parOk = false) :
    dkDispatch s d op f = (s.ev 0x502 d (leBytes 3 c.tag)).dkHalt d 2 0 c.tag := by
  simp [dkDispatch, live, dispatch, head, bad, EQ.cmds_head? head]

theorem dkDispatch_ready (ready : (s.dk d).q.ready op c = true) : dkDispatch s d op f = f c := by
  simp only [dkDispatch, live, dispatch_ready ready]
  rfl

theorem dkPlain_reserved (ready : (s.dk d).q.ready op c = true) (reserved : word0Reserved c = true) : dkPlain s d op f = s.dkRefuse d 1 c :=
  (dkDispatch_ready live ready).trans (if_pos reserved)

theorem dkPlain_ready (ready : (s.dk d).q.ready op c = true) (plain : word0Reserved c = false) : dkPlain s d op f = f c :=
  (dkDispatch_ready live ready).trans (if_neg (by simp [plain]))

theorem dkSyncWait_ready (ready : (s.dk d).q.ready 0x20 c = true) (plain : word0Reserved c = false) :
    dkSyncWait s d = if c.w 2 ≤ s.syncVal (c.f 1 7 0) then s.dkPop d else s := dkPlain_ready live ready plain

theorem dkSyncSignal_ready (ready : (s.dk d).q.ready 0x21 c = true) (plain : word0Reserved c = false) : dkSyncSignal s d =
    if c.b 1 8 && (s.dk d).live (s.dk d).q.nextJob then s.modDk d (fun y => { y with q := y.q.pop.defer (c.f 1 7 0) })
    else (s.dkPop d).addSync (c.f 1 7 0) 1 := dkPlain_ready live ready plain

theorem dkStart_refused (idle : (s.dk d).runs = []) (fails : dkItem s d c = some item) (ready : (s.dk d).q.ready op c = true) :
    dkStart s d op = s.dkRefuse d item c := by
  rw [dkStart, dkDispatch_ready live ready]
  simp [idle, fails]

/-! ### Its registers that act -/

theorem dkResume_halted (halt : (s.dk d).q.cause ≠ 0) :
    dkResume s d = (s.modDk d (fun x => { x with q := { x.q with cause := 0 } })).setFld (R.DK_FAULT d) 31 31 0 := by
  simp only [dkResume, live, EQ.halted_eq_true halt]
  rfl

theorem dkSkip_halted (halt : (s.dk d).q.cause ≠ 0) (filled : (s.dk d).q.cmds ≠ []) : dkSkip s d = s.dkPop d := by
  simp only [dkSkip, live, EQ.halted_eq_true halt, List.isEmpty_eq_false_iff.2 filled]
  rfl

theorem dkCntClr_live : dkCntClr s d =
    (((List.range 10).foldl (fun t i => t.setRn (R.DK_STALL d i) 0) s).setRn (R.DK_RA_DROPPED d) 0).setRn (R.DK_BYTES d) 0 := by
  simp only [dkCntClr, live]
  rfl

end DerrickQueue

/-! ### Counters set to 0 -/

section Cleared
variable {s : State} {addr : Nat → Nat} {a b : Nat}

/-- Registers set one after another change no other part of the state. -/
theorem State.foldl_setRn (l : List Nat) : ∃ regs, l.foldl (fun t i => t.setRn (addr i) 0) s = { s with regs := regs } :=
  List.foldlRecOn (motive := fun t : State => ∃ regs, t = { s with regs := regs }) _ _ ⟨_, rfl⟩ fun t ⟨_, same⟩ i _ =>
    ⟨(t.setRn (addr i) 0).regs, congrArg (fun u : State => { u with regs := (t.setRn (addr i) 0).regs }) same⟩

theorem State.rn_cleared (canonical : s.canonical = true) : (s.setRn a 0).rn a = 0 := (State.rn_setRn canonical a a 0).trans (if_pos rfl)

theorem State.rn_setRn_zero (canonical : s.canonical = true) (zero : s.rn b = 0) : (s.setRn a 0).rn b = 0 := by
  rw [State.rn_setRn canonical]
  split
  · rfl
  · exact zero

/-- A register that is 0, or is among those set to 0, is 0 in the end. -/
theorem State.rn_foldl_setRn {i : Nat} : ∀ (l : List Nat) (s : State), s.canonical = true → s.rn (addr i) = 0 ∨ i ∈ l →
    (l.foldl (fun t i => t.setRn (addr i) 0) s).rn (addr i) = 0
  | [], _, _, .inl zero => zero
  | j :: l, s, canonical, due => by
    refine State.rn_foldl_setRn l _ ((s.setRn_keeps (addr j) 0).2 canonical) ?_
    rcases due with zero | mem
    · exact .inl (State.rn_setRn_zero canonical zero)
    · rcases List.mem_cons.1 mem with rfl | later
      · exact .inl (State.rn_cleared canonical)
      · exact .inr later

end Cleared

theorem dkCntClr_clears {s : State} {d : Fin 48} (live : (s.bench (dkBench d)).out = false) (canonical : s.canonical = true) :
    (∀ i : Fin 10, (dkCntClr s d).rn (R.DK_STALL d i) = 0) ∧ (dkCntClr s d).rn (R.DK_RA_DROPPED d) = 0 ∧ (dkCntClr s d).rn (R.DK_BYTES d) = 0
      ∧ (dkCntClr s d).derricks = s.derricks ∧ (dkCntClr s d).mem = s.mem := by
  have kept := (State.Keeps.foldl (fun t i => t.setRn_keeps (R.DK_STALL d i) 0) (List.range 10) s).2 canonical
  have kept' := (State.setRn_keeps _ (R.DK_RA_DROPPED d) 0).2 kept
  rw [dkCntClr_live live]
  refine ⟨fun i => ?_, ?_, ?_, ?_⟩
  · exact State.rn_setRn_zero kept' (State.rn_setRn_zero kept (State.rn_foldl_setRn _ s canonical (.inr (List.mem_range.2 i.isLt))))
  · exact State.rn_setRn_zero kept' (State.rn_cleared kept)
  · exact State.rn_cleared kept'
  · obtain ⟨regs, same⟩ := State.foldl_setRn (s := s) (addr := R.DK_STALL d) (List.range 10)
    rw [State.setRn_derricks, State.setRn_derricks, State.setRn_mem, State.setRn_mem, same]
    exact ⟨rfl, rfl⟩

/-- Settles O32: the head of a derrick's queue is decided by parity, word 0 and the checks of its row, and its control bits act on a halted queue. -/
theorem derrickQueue : Obligations.DerrickQueue := by
  unfold Obligations.DerrickQueue
  intro s d c live pop k q
  refine ⟨fun reserved p mem ready => ?_, fun ready plain => congrArg _ (dkPlain_ready live ready plain), fun ready plain reached => ?_,
    fun ready plain waits => ?_, fun ready plain clear => ?_, fun ready plain when1 earlier => ?_, fun head bad i mem => ?_, fun item idle fails => ?_,
    fun halt => congrArg _ (dkResume_halted live halt), fun halt filled => congrArg _ (dkSkip_halted live halt filled),
    fun run => ⟨congrArg _ (dkResume_running run), congrArg _ (dkSkip_running run)⟩, fun canonical => ⟨_, exec_dkCntClr, dkCntClr_clears live canonical⟩⟩
  · simp only [List.mem_cons, List.not_mem_nil, or_false] at mem
    rcases mem with rfl | rfl | rfl
    · exact congrArg _ (dkPlain_reserved live ready reserved)
    · exact congrArg _ (dkPlain_reserved live ready reserved)
    · exact congrArg _ (dkPlain_reserved live ready reserved)
  · exact congrArg _ ((dkSyncWait_ready live ready plain).trans (if_pos reached))
  · exact congrArg _ ((dkSyncWait_ready live ready plain).trans (if_neg (Nat.not_le.2 waits)))
  · have now : (c.b 1 8 && (s.dk d).live q.nextJob) ≠ true := fun late => by
      obtain ⟨when1, before⟩ := Bool.and_eq_true_iff.1 late
      obtain ⟨r, mem, before⟩ := Dk.live_eq_true.1 before
      rcases clear with when0 | ended
      · simp [when0] at when1
      · exact absurd before (Nat.not_lt.2 (ended r mem))
    exact congrArg _ ((dkSyncSignal_ready live ready plain).trans (if_neg now))
  · have later : (c.b 1 8 && (s.dk d).live q.nextJob) = true := by rw [when1, Dk.live_eq_true.2 earlier, Bool.and_self]
    exact congrArg _ ((dkSyncSignal_ready live ready plain).trans (if_pos later))
  · simp only [List.mem_cons, List.not_mem_nil, or_false] at mem
    rcases mem with rfl | rfl | rfl | rfl | rfl | rfl | rfl <;> exact congrArg _ (dkDispatch_parity live head bad)
  · exact ⟨fun ready => congrArg _ (dkStart_refused live idle fails ready), fun ready => congrArg _ (dkStart_refused live idle fails ready),
      fun ready => congrArg _ (dkStart_refused live idle fails ready), fun ready => congrArg _ (dkStart_refused live idle fails ready)⟩

end Sys2Proof.Machine

namespace Sys2Proof.Machine

/-! ## Accesses of memory and their errors (R248 to R253, R271) -/

section MemoryAccess
variable {s : State} {a v : Nat} {k : Fin 8} {d : Bytes} {e : Ecc}

theorem exec_stackAccess {w : Option Bytes} : exec (.stackAccess a w e) s = .next (stackAccess s a w e) := rfl
theorem exec_stockyardAccess {w : Option Bytes} : exec (.stockyardAccess a w e) s = .next (yardAccess s a w e) := rfl
theorem exec_patrolScrub : exec (.patrolScrub k e) s = .next (patrolScrub s k e) := rfl

/-! ### Errors of a stack (R248) -/

/-- A corrected word counted, in its stack and at its seam. -/
def State.ceCounted (s : State) (a : Nat) : State :=
  (s.addReg (R.UE_ECC_CE (stackOf a)) 1).setArb (seamKey (stackOf a) (seamOf a)) ((s.arb (seamKey (stackOf a) (seamOf a))).count 5 1)

theorem State.stackCe_recent {l : Nat × Nat} (logged : s.seLast.find? (fun e => e.1 == seamKey (stackOf a) (seamOf a)) = some l)
    (recent : s.us < l.2 + 1000000) : s.stackCe a = s.ceCounted a := by
  simp only [State.stackCe, logged, recent, if_true]
  rfl

theorem State.stackCe_first (none : s.seLast.find? (fun e => e.1 == seamKey (stackOf a) (seamOf a)) = none) :
    s.stackCe a = { (s.ceCounted a).ev 0x601 (stackOf a) [] with seLast := s.seLast ++ [(seamKey (stackOf a) (seamOf a), s.us)] } := by
  simp only [State.stackCe, none]
  rfl

theorem State.stackUe_poisoned (poisoned : s.poisonedAt a = true) : s.stackUe a = s := if_pos poisoned

theorem State.stackUe_clean (clean : s.poisonedAt a = false) :
    s.stackUe a = ((s.poisonLine a).addReg (R.UE_ECC_UE (stackOf a)) 1).ev 0x602 (stackOf a) (leBytes 8 (a / 64 * 64)) := if_neg (by simp [clean])

/-- A poisoned or uncorrectable word changes no place of a scrub. -/
@[simp] theorem State.stackUe_scrubLow : (s.stackUe a).scrubLow = s.scrubLow := by
  unfold State.stackUe
  split
  · rfl
  · simp

/-! ### STACK_ACCESS -/

theorem stackAccess_elsewhere {w : Option Bytes} (out : isMergo a = false ∨ s.stackUp (stackOf a) = false) : stackAccess s a w e = s :=
  if_pos (by rcases out with h | h <;> simp [h])

section Stack
variable (mergo : isMergo a = true) (up : s.stackUp (stackOf a) = true)
include mergo up

theorem stackAccess_good : stackAccess s a none .good = s := by simp [stackAccess, mergo, up]
theorem stackAccess_uncorrectable : stackAccess s a none .uncorrectable = s.stackUe a := by simp [stackAccess, mergo, up]
theorem stackAccess_corrected : stackAccess s a none .corrected = if s.poisonedAt a = true then s else s.stackCe a := by simp [stackAccess, mergo, up]

/-- A write of a whole line outside the add windows reads nothing first. -/
theorem stackAccess_whole (aligned : a % 64 = 0) (whole : d.length = 64) (noAdd : s.addWindow a = none) :
    stackAccess s a (some d) e = s.write a d := by
  have all : d.take 64 = d := List.take_of_length_le (Nat.le_of_eq whole)
  simp [stackAccess, mergo, up, aligned, whole, noAdd, all]

end Stack

/-! ### STOCKYARD_ACCESS (R253) -/

section Yard
variable (yard : isYard a = true)
include yard

theorem yardAccess_good : yardAccess s a none .good = s := by simp [yardAccess, yard]
theorem yardAccess_write : yardAccess s a (some d) .good = s.write a (d.take (64 - a % 64)) := by simp [yardAccess, yard]

theorem yardAccess_uncorrectable (clean : s.poisonedAt a = false) :
    yardAccess s a none .uncorrectable = ((s.poisonLine a).addReg R.SY_ECC_UE 1).ev 0x402 0xFF [] := by simp [yardAccess, yard, clean]

theorem yardAccess_corrected (clean : s.poisonedAt a = false) : yardAccess s a none .corrected =
    ((s.addReg R.SY_ECC_CE 1).setArb (bankOf a) ((s.arb (bankOf a)).count 5 1)).ev 0x401 0xFF [] := by simp [yardAccess, yard, clean]

end Yard

/-! ### PATROL_SCRUB (R249, R272) -/

/-- The number of the next word of a stack's scrub, and its address. -/
def State.scrubWord (s : State) (k : Fin 8) : Nat := s.rfld (R.UE_SCRUB_STATUS k) 31 0 * 65536 + s.scrubLow[k]
def State.scrubAddr (s : State) (k : Fin 8) : Nat := k * 0x000C00000000 + 64 * s.scrubWord k
/-- The seam that a stack's scrub reads next. -/
def State.scrubSeam (s : State) (k : Fin 8) : Nat := seamKey k (seamOf (s.scrubAddr k))
/-- The seam-busy cycle that a scrub read counts. -/
def State.scrubBusy (s : State) (k : Fin 8) : State := s.setArb (s.scrubSeam k) ((s.arb (s.scrubSeam k)).count 3 1)
/-- What the read of the next word leaves. -/
def State.scrubbed (s : State) (k : Fin 8) (e : Ecc) : State :=
  match e with
  | .good => s.scrubBusy k
  | .corrected => if s.poisonedAt (s.scrubAddr k) then s.scrubBusy k else (s.scrubBusy k).stackCe (s.scrubAddr k)
  | .uncorrectable => (s.scrubBusy k).stackUe (s.scrubAddr k)

theorem patrolScrub_off (off : s.rfld (R.UE_SCRUB_CFG k) 15 0 = 0) : patrolScrub s k e = s := if_pos (by simp [off])

theorem patrolScrub_yields (busy : (s.arb (s.scrubSeam k)).owner.isSome = true ∨ (s.arb (s.scrubSeam k)).waiting ≠ []) : patrolScrub s k e = s := by
  have asked : ((s.arb (s.scrubSeam k)).owner.isSome || !(s.arb (s.scrubSeam k)).waiting.isEmpty) = true := by
    rcases busy with h | h <;> simp [h]
  unfold patrolScrub
  split
  · rfl
  · exact if_pos asked

section Scrub
variable (up : s.stackUp k = true) (on : s.rfld (R.UE_SCRUB_CFG k) 15 0 ≠ 0) (free : (s.arb (s.scrubSeam k)).owner = none)
  (idle : (s.arb (s.scrubSeam k)).waiting = [])
include up on free idle

theorem patrolScrub_reads : patrolScrub s k e =
    if 0x000C00000000 ≤ 64 * (s.scrubWord k + 1) then
      ({ (s.scrubbed k e).setRn (R.UE_SCRUB_STATUS k) ((s.rfld (R.UE_SCRUB_STATUS k) 63 32 + 1) * 2 ^ 32) with
         scrubLow := (s.scrubbed k e).scrubLow.set k 0 } : State).ev 0x603 k []
    else { (s.scrubbed k e).setFld (R.UE_SCRUB_STATUS k) 31 0 ((s.scrubWord k + 1) / 65536) with
           scrubLow := (s.scrubbed k e).scrubLow.set k ((s.scrubWord k + 1) % 65536) } := by
  have runs : (!s.stackUp k || decide (s.rfld (R.UE_SCRUB_CFG k) 15 0 = 0)) ≠ true := by simp [up, on]
  have unasked : ((s.arb (s.scrubSeam k)).owner.isSome || !(s.arb (s.scrubSeam k)).waiting.isEmpty) ≠ true := by simp [free, idle]
  refine (if_neg runs).trans ((if_neg unasked).trans ?_)
  cases e with
  | good => rfl
  | corrected => rfl
  | uncorrectable => rfl

end Scrub

/-- A word that is good or of a poisoned line is not reported. -/
theorem State.scrubbed_quiet (quiet : e = .good ∨ s.poisonedAt (s.scrubAddr k) = true) : s.scrubbed k e = s.scrubBusy k := by
  cases e with
  | good => rfl
  | corrected => exact if_pos (quiet.resolve_left (by simp))
  | uncorrectable => exact State.stackUe_poisoned (s := s.scrubBusy k) (quiet.resolve_left (by simp))

end MemoryAccess

/-- Settles O29: each access is decided by its place and by what its decoder finds, and a scrub read by its seam. -/
theorem memoryAccesses : Obligations.MemoryAccesses := by
  unfold Obligations.MemoryAccesses
  intro s a v k d
  refine ⟨fun mergo up => ⟨congrArg _ (stackAccess_good mergo up), fun clean => ?_, fun clean => ?_, fun poisoned => ⟨?_, ?_⟩,
      fun aligned whole noAdd => congrArg _ (stackAccess_whole mergo up aligned whole noAdd)⟩,
    fun out e => congrArg _ (stackAccess_elsewhere out),
    fun yard => ⟨congrArg _ (yardAccess_good yard), fun clean => congrArg _ (yardAccess_uncorrectable yard clean),
      fun clean => congrArg _ (yardAccess_corrected yard clean), congrArg _ (yardAccess_write yard)⟩,
    fun up => ?_, rfl⟩
  · rw [exec_stackAccess, stackAccess_uncorrectable mergo up, State.stackUe_clean clean]
  · have counts : stackAccess s a none .corrected = s.stackCe a := (stackAccess_corrected mergo up).trans (if_neg (by simp [clean]))
    rw [exec_stackAccess, counts]
    exact ⟨fun l logged recent => congrArg _ (State.stackCe_recent logged recent), fun none => congrArg _ (State.stackCe_first none)⟩
  · exact congrArg _ ((stackAccess_uncorrectable mergo up).trans (State.stackUe_poisoned poisoned))
  · exact congrArg _ ((stackAccess_corrected mergo up).trans (if_pos poisoned))
  · refine ⟨fun off => congrArg _ (patrolScrub_off off), fun busy e => congrArg _ (patrolScrub_yields busy), fun on free idle e found outcome => ?_, ?_⟩
    · have read : s.scrubbed k e = found ∧ found.scrubLow = s.scrubLow := by
        rcases outcome with ⟨quiet, rfl⟩ | ⟨rfl, -, rfl⟩
        · exact ⟨State.scrubbed_quiet quiet, rfl⟩
        · exact ⟨rfl, State.stackUe_scrubLow⟩
      obtain ⟨read, low⟩ := read
      have scrub := patrolScrub_reads (e := e) up on free idle
      rw [read, low] at scrub
      rw [exec_patrolScrub, scrub]
      exact ⟨fun more => congrArg _ (if_neg (Nat.not_le.2 more)), fun last => congrArg _ (if_pos last)⟩
    · refine (congrArg _ (if_pos up)).trans (congrArg _ (if_neg ?_))
      simp [up]

end Sys2Proof.Machine

namespace Sys2Proof.Machine

/-! ## Arbitration (R262 to R266, R272, R404) -/

section Arbiter
variable {x y : Arb} {r o q : ArbReq} {l : List ArbReq} {els : Nat → Nat} {who n i : Nat}

/-! ### The order of requests (R263) -/

theorem ArbReq.before_iff : q.before r = true ↔
    q.eff < r.eff ∨ (q.eff = r.eff ∧ (r.waited < q.waited ∨ (q.waited = r.waited ∧ q.who < r.who))) := by
  simp [ArbReq.before]

theorem ArbReq.before_irrefl (r : ArbReq) : r.before r = false := by
  rw [← Bool.not_eq_true, ArbReq.before_iff]
  omega

theorem ArbReq.before_asymm (h : q.before r = true) : r.before q = false := by
  rw [ArbReq.before_iff] at h
  rw [← Bool.not_eq_true, ArbReq.before_iff]
  omega

/-- A request that does not go before another goes before none that the other does not go before. -/
theorem ArbReq.before_of_not_before (h : o.before q = false) (k : q.before r = false) : o.before r = false := by
  rw [← Bool.not_eq_true, ArbReq.before_iff] at *
  omega

theorem ArbReq.eff_le_of_not_before (h : q.before r = false) : r.eff ≤ q.eff := by
  rw [← Bool.not_eq_true, ArbReq.before_iff] at h
  omega

theorem firstReq_none : firstReq l = none ↔ l = [] := by
  cases l with
  | nil => simp [firstReq]
  | cons r rest =>
    simp only [firstReq, reduceCtorEq, iff_false]
    split
    · simp
    · split <;> simp

/-- The request served first waits, and none that waits goes before it. -/
theorem firstReq_spec : ∀ {l : List ArbReq} {r : ArbReq}, firstReq l = some r → r ∈ l ∧ ∀ q ∈ l, q.before r = false
  | [], _, first => by cases first
  | a :: rest, r, first => by
    simp only [firstReq] at first
    split at first
    next none =>
      obtain rfl := Option.some.inj first
      rw [firstReq_none.1 none]
      exact ⟨List.mem_singleton_self _, fun q mem => by rw [List.mem_singleton.1 mem]; exact ArbReq.before_irrefl _⟩
    next best found =>
      obtain ⟨mem, least⟩ := firstReq_spec found
      split at first
      next goesBefore =>
        obtain rfl := Option.some.inj first
        exact ⟨List.mem_cons_of_mem _ mem, List.forall_mem_cons.2 ⟨ArbReq.before_asymm goesBefore, least⟩⟩
      next stays =>
        obtain rfl := Option.some.inj first
        exact ⟨List.mem_cons_self, List.forall_mem_cons.2 ⟨ArbReq.before_irrefl _,
          fun q mem => ArbReq.before_of_not_before (least q mem) (by simpa using stays)⟩⟩

/-! ### The tags of a requester (R265) -/

theorem Arb.tags_eq : x.tags who = x.owner.toList.countP (fun r => r.who == who) + x.waiting.countP (fun r => r.who == who) := by
  rw [Arb.tags, ← List.countP_eq_length_filter, List.countP_append]

theorem countP_waitOne : (waitOne l).countP (fun r => r.who == who) = l.countP (fun r => r.who == who) := by
  rw [waitOne, List.countP_map]
  rfl

theorem length_waitOne : (waitOne l).length = l.length := List.length_map _

theorem Arb.tags_beat : x.beat.tags who ≤ x.tags who := by
  simp only [Arb.tags_eq, Arb.beat]
  refine Nat.add_le_add_right ?_ _
  cases x.owner with
  | none => exact Nat.le_refl _
  | some o =>
    simp only [Option.bind_some]
    split
    · exact Nat.zero_le _
    · exact Nat.le_refl _

/-! ### Requests raised (R265) -/

/-- A request as it begins to wait. -/
def ArbReq.fresh (r : ArbReq) : ArbReq := { r with left := r.beats, revoked := 0, waited := 0 }

/-- A request is held back by its requester, or waits where its requester has room. -/
theorem Arb.raise_cons : Arb.raise els x (r :: l) = Arb.raise els { x with held := x.held ++ [r] } l
    ∨ x.full r.who = false ∧ Arb.raise els x (r :: l) = Arb.raise els { x with waiting := x.waiting ++ [r.fresh] } l := by
  simp only [Arb.raise]
  generalize full : (x.full r.who || _) = c
  cases c with
  | true => exact .inl rfl
  | false => exact .inr ⟨(Bool.or_eq_false_iff.1 full).1, rfl⟩

/-- What a request that is held back or begins to wait leaves alone stays. -/
theorem Arb.raise_frame : ∃ w h, Arb.raise els x l = { x with waiting := w, held := h } := by
  induction l generalizing x with
  | nil => exact ⟨_, _, rfl⟩
  | cons r l ih =>
    rcases Arb.raise_cons (els := els) (x := x) (r := r) (l := l) with e | ⟨-, e⟩
    · obtain ⟨w, h, f⟩ := ih (x := { x with held := x.held ++ [r] })
      exact ⟨w, h, e.trans f⟩
    · obtain ⟨w, h, f⟩ := ih (x := { x with waiting := x.waiting ++ [r.fresh] })
      exact ⟨w, h, e.trans f⟩

theorem Arb.raise_owner : (Arb.raise els x l).owner = x.owner := by
  obtain ⟨w, h, e⟩ := Arb.raise_frame (els := els) (x := x) (l := l)
  rw [e]

theorem Arb.raise_counts : (Arb.raise els x l).counts = x.counts := by
  obtain ⟨w, h, e⟩ := Arb.raise_frame (els := els) (x := x) (l := l)
  rw [e]

/-- Every request that is raised waits or is held back. -/
theorem Arb.raise_length : (Arb.raise els x l).waiting.length + (Arb.raise els x l).held.length = x.waiting.length + x.held.length + l.length := by
  induction l generalizing x with
  | nil => rfl
  | cons r l ih =>
    rcases Arb.raise_cons (els := els) (x := x) (r := r) (l := l) with e | ⟨-, e⟩
    · rw [e, ih]
      simp only [List.length_append, List.length_cons, List.length_nil]
      omega
    · rw [e, ih]
      simp only [List.length_append, List.length_cons, List.length_nil]
      omega

/-- The quota of a requester with n tags at an arbiter: a quarter, an eighth while hot. -/
def Arb.quota (x : Arb) (n : Nat) : Nat := n / (if x.hot then 8 else 4)

theorem Arb.tags_lt_of_not_full (tags : reqTags who = some n) (room : x.full who = false) : x.tags who < x.quota n := by
  simpa [Arb.full, tags, Arb.quota] using room

theorem Arb.tags_wait : ({ x with waiting := x.waiting ++ [r.fresh] } : Arb).tags who = x.tags who + if r.who = who then 1 else 0 := by
  simp only [Arb.tags_eq, List.countP_append, List.countP_singleton, ArbReq.fresh, beq_iff_eq]
  omega

/-- No requester grows above its quota. -/
theorem Arb.raise_tags (tags : reqTags who = some n) : (Arb.raise els x l).tags who ≤ max (x.tags who) (x.quota n) := by
  induction l generalizing x with
  | nil => exact Nat.le_max_left _ _
  | cons r l ih =>
    rcases Arb.raise_cons (els := els) (x := x) (r := r) (l := l) with e | ⟨room, e⟩
    · rw [e]
      exact ih
    · rw [e]
      refine Nat.le_trans ih (Nat.max_le.2 ⟨?_, Nat.le_max_right _ _⟩)
      rw [Arb.tags_wait]
      split
      next same =>
        subst same
        exact Nat.le_trans (Arb.tags_lt_of_not_full tags room) (Nat.le_max_right _ _)
      next other => exact Nat.le_max_left _ _

/-! ### The owner chosen (R263, R264) -/

/-- An owner that is revoked waits again from its first beat. -/
def ArbReq.again (o : ArbReq) : ArbReq := { o with revoked := o.revoked + 1, left := o.beats, waited := 0 }

theorem Arb.choose_idle (none : x.waiting = []) : x.choose = x := by simp only [Arb.choose, none, firstReq]

section Choose
variable (first : firstReq x.waiting = some r)
include first

theorem Arb.choose_grants (free : x.owner = none) : x.choose = { x.count 0 1 with owner := some r, waiting := waitOne (x.waiting.erase r) } := by
  simp only [Arb.choose, first, free]

theorem Arb.choose_keeps (own : x.owner = some o) (le : o.eff ≤ r.eff) : x.choose = { x with waiting := waitOne x.waiting } := by
  simp only [Arb.choose, first, own, Nat.not_lt.2 le, if_false]

theorem Arb.choose_revokes (own : x.owner = some o) (lt : r.eff < o.eff) :
    ∃ c, x.choose = { x with owner := some r, waiting := waitOne (x.waiting.erase r) ++ [o.again], counts := c } := by
  simp only [Arb.choose, first, own, lt, if_true]
  split
  · exact ⟨_, rfl⟩
  · exact ⟨_, rfl⟩

end Choose

theorem length_erase_first (first : firstReq l = some r) : (waitOne (l.erase r)).length + 1 = l.length := by
  have mem := (firstReq_spec first).1
  rw [length_waitOne, List.length_erase_of_mem mem]
  exact Nat.succ_pred_eq_of_pos (List.length_pos_of_mem mem)

theorem countP_erase_first (first : firstReq l = some r) :
    (waitOne (l.erase r)).countP (fun r => r.who == who) + [r].countP (fun r => r.who == who) = l.countP (fun r => r.who == who) := by
  rw [countP_waitOne, (List.perm_cons_erase (firstReq_spec first).1).countP_eq, List.countP_singleton, List.countP_cons]

/-- The choice of an owner moves requests and takes or gives none. -/
theorem Arb.tags_choose : x.choose.tags who = x.tags who ∧ x.choose.held = x.held := by
  cases first : firstReq x.waiting with
  | none => rw [Arb.choose_idle (firstReq_none.1 first)]; exact ⟨rfl, rfl⟩
  | some r =>
    have count := countP_erase_first (who := who) first
    cases own : x.owner with
    | none =>
      rw [Arb.choose_grants first own]
      refine ⟨?_, rfl⟩
      simp only [Arb.tags_eq, own, Option.toList_some, Option.toList_none, List.countP_nil]
      omega
    | some o =>
      rcases Nat.lt_or_ge r.eff o.eff with lt | le
      · obtain ⟨c, e⟩ := Arb.choose_revokes first own lt
        rw [e]
        refine ⟨?_, rfl⟩
        have same : [o.again].countP (fun r => r.who == who) = [o].countP (fun r => r.who == who) := rfl
        simp only [Arb.tags_eq, own, Option.toList_some, List.countP_append, same]
        omega
      · rw [Arb.choose_keeps first own le]
        refine ⟨?_, rfl⟩
        simp only [Arb.tags_eq, countP_waitOne]

theorem exists_firstReq (some : l ≠ []) : ∃ r, firstReq l = .some r := Option.ne_none_iff_exists'.1 fun none => some (firstReq_none.1 none)

/-- An arbiter that no one owns goes to a request that no waiting one goes before. -/
theorem Arb.choose_free (free : x.owner = none) (asked : x.waiting ≠ []) :
    ∃ r ∈ x.waiting, x.choose.owner = some r ∧ (∀ q ∈ x.waiting, q.before r = false) ∧ x.choose.waiting.length + 1 = x.waiting.length := by
  obtain ⟨r, first⟩ := exists_firstReq asked
  rw [Arb.choose_grants first free]
  exact ⟨r, (firstReq_spec first).1, rfl, (firstReq_spec first).2, length_erase_first first⟩

/-- An owner keeps the arbiter where no waiting request has a lower class. -/
theorem Arb.choose_owned (own : x.owner = some o) (least : ∀ q ∈ x.waiting, o.eff ≤ q.eff) :
    x.choose.owner = some o ∧ x.choose.waiting.length = x.waiting.length := by
  cases first : firstReq x.waiting with
  | none => rw [Arb.choose_idle (firstReq_none.1 first)]; exact ⟨own, rfl⟩
  | some r => rw [Arb.choose_keeps first own (least r (firstReq_spec first).1)]; exact ⟨own, length_waitOne⟩

/-- A request of a lower class takes the arbiter. -/
theorem Arb.choose_lower (own : x.owner = some o) (lower : ∃ q ∈ x.waiting, q.eff < o.eff) :
    ∃ r ∈ x.waiting, x.choose.owner = some r ∧ r.eff < o.eff ∧ x.choose.waiting.getLast? = some o.again := by
  obtain ⟨q, mem, lt⟩ := lower
  obtain ⟨r, first⟩ := exists_firstReq (List.ne_nil_of_mem mem)
  obtain ⟨waits, least⟩ := firstReq_spec first
  have lt : r.eff < o.eff := Nat.lt_of_le_of_lt (ArbReq.eff_le_of_not_before (least q mem)) lt
  obtain ⟨c, e⟩ := Arb.choose_revokes first own lt
  rw [e]
  exact ⟨r, waits, rfl, lt, List.getLast?_concat⟩

/-! ### The counts of a cycle (R266, R272) -/

theorem Arb.heat_frame (x : Arb) (th n : Nat) (busy : Bool) : ∃ h c l, x.heat th n busy = { x with hotFor := h, coolFor := c, counts := l } := by
  simp only [Arb.heat]
  split <;> split <;> split <;> exact ⟨_, _, _, rfl⟩

theorem Arb.getD_count (room : i < x.counts.length) : (x.count i n).counts.getD i 0 = (x.counts.getD i 0 + n) % 2 ^ 64 := by
  simp [Arb.count, room]

theorem Arb.getD_count_ne {j : Nat} (other : j ≠ i) : (x.count j n).counts.getD i 0 = x.counts.getD i 0 := by
  simp [Arb.count, other]

/-- A seam-busy cycle counts in WAIT. -/
theorem Arb.heat_busy (room : 3 < x.counts.length) (th n : Nat) : (x.heat th n true).counts.getD 3 0 = (x.counts.getD 3 0 + 1) % 2 ^ 64 := by
  have wait := Arb.getD_count (n := 1) room
  simp only [Arb.heat, Bool.or_true, if_true]
  split <;> split
  · rw [Arb.getD_count_ne (by decide), wait]
  · exact wait
  · rw [Arb.getD_count_ne (by decide), wait]
  · exact wait

end Arbiter

/-! ### The commands -/

section ArbiterCommands
variable {s : State} {i : Nat} {arrive : List ArbReq} {o : ArbReq}

theorem exec_arbitrationDecision {refresh : Bool} : exec (.arbitrationDecision i arrive refresh) s = .next (arbDecide s i arrive refresh) := rfl

/-- The requests held back so far, and those that arrive and may be raised. -/
def State.asked (s : State) (i : Nat) (arrive : List ArbReq) : List ArbReq := (s.arb i).held ++ arrive.filter (s.reqOk i)

/-- Arbiter i after its owner's beat, with the requests raised. -/
def State.raised (s : State) (i : Nat) (arrive : List ArbReq) : Arb :=
  Arb.raise (fun w => s.tagsOf w - (s.arb i).tags w) { (s.arb i).beat with held := [] } (s.asked i arrive)

/-- The owner's beat written. -/
def State.beatWritten (s : State) (i : Nat) : State :=
  match (s.arb i).owner.bind (fun o => o.puts[o.beats - o.left]?) with
  | some p => s.write p.1 p.2
  | none => s

/-- Arbiter i after a cycle in which it accepts requests. -/
def State.decided (s : State) (i : Nat) (arrive : List ArbReq) : Arb :=
  ({ (s.raised i arrive).choose with took := s.seamSlow i } : Arb).heat (s.rfld R.SY_CFG 7 0) (s.raised i arrive).waiting.length false

theorem arbDecide_accepts (accepts : s.seamSlow i = false ∨ (s.arb i).took = false) :
    arbDecide s i arrive false = (s.beatWritten i).setArb i (s.decided i arrive) := by
  have accepting : (s.seamSlow i && (s.arb i).took) = false := by rcases accepts with h | h <;> simp [h]
  simp only [arbDecide, Bool.false_and, Bool.false_or, accepting, Bool.false_eq_true, if_false]
  rfl

/-- The seam of a throttled stack accepts no request in the cycle after one in which it did. -/
theorem arbDecide_rests (slow : s.seamSlow i = true) (took : (s.arb i).took = true) : ∃ z : Arb,
    arbDecide s i arrive false = (s.beatWritten i).setArb i z
      ∧ z.owner = (s.raised i arrive).owner ∧ z.waiting = waitOne (s.raised i arrive).waiting ∧ z.took = false := by
  obtain ⟨h, c, l, e⟩ := Arb.heat_frame ({ s.raised i arrive with waiting := waitOne (s.raised i arrive).waiting, took := false } : Arb)
    (s.rfld R.SY_CFG 7 0) (s.raised i arrive).waiting.length false
  have rested : arbDecide s i arrive false = (s.beatWritten i).setArb i
      (({ s.raised i arrive with waiting := waitOne (s.raised i arrive).waiting, took := false } : Arb).heat
        (s.rfld R.SY_CFG 7 0) (s.raised i arrive).waiting.length false) := by
    simp only [arbDecide, Bool.false_and, Bool.false_or, slow, took, Bool.and_self, Bool.false_eq_true, if_true, if_false]
    rfl
  rw [e] at rested
  exact ⟨_, rested, rfl, rfl, rfl⟩

/-- In a refresh cycle of a seam no byte moves. -/
theorem arbDecide_refresh (seam : 1024 ≤ i) (six : (s.arb i).counts.length = 6) : ∃ z : Arb, arbDecide s i arrive true = s.setArb i z
    ∧ z.owner = (s.arb i).owner ∧ z.counts.getD 3 0 = ((s.arb i).counts.getD 3 0 + 1) % 2 ^ 64 := by
  have busy : decide (1024 ≤ i) = true := decide_eq_true seam
  simp only [arbDecide, busy, Bool.true_and, Bool.true_or, if_true]
  refine ⟨_, rfl, ?_, ?_⟩
  · obtain ⟨h, c, l, e⟩ := Arb.heat_frame ({ Arb.raise (fun w => s.tagsOf w - (s.arb i).tags w) { s.arb i with held := [] }
      ((s.arb i).held ++ arrive.filter (s.reqOk i)) with waiting := _, took := false } : Arb) (s.rfld R.SY_CFG 7 0) _ true
    rw [e]
    exact Arb.raise_owner
  · rw [Arb.heat_busy]
    · rw [Arb.raise_counts]
    · simp [Arb.raise_counts, six]

/-! ### What a cycle leaves -/

/-- The count of a cycle changes nothing of what the choice of the owner left. -/
theorem State.decided_frame : ∃ h c l, s.decided i arrive =
    { (s.raised i arrive).choose with took := s.seamSlow i, hotFor := h, coolFor := c, counts := l } := Arb.heat_frame _ _ _ _

theorem State.decided_eq : (s.decided i arrive).owner = (s.raised i arrive).choose.owner ∧ (s.decided i arrive).waiting = (s.raised i arrive).choose.waiting
    ∧ (s.decided i arrive).held = (s.raised i arrive).choose.held ∧ (s.decided i arrive).took = s.seamSlow i := by
  obtain ⟨h, c, l, e⟩ := State.decided_frame (s := s) (i := i) (arrive := arrive)
  rw [e]
  exact ⟨rfl, rfl, rfl, rfl⟩

theorem State.raised_owner : (s.raised i arrive).owner = (s.arb i).beat.owner := Arb.raise_owner

/-- Every request held back or arriving waits or is held back. -/
theorem State.decided_length :
    (s.raised i arrive).waiting.length + (s.decided i arrive).held.length = (s.arb i).waiting.length + (s.asked i arrive).length := by
  obtain ⟨-, -, held, -⟩ := State.decided_eq (s := s) (i := i) (arrive := arrive)
  rw [held, (Arb.tags_choose (who := 0)).2, State.raised, Arb.raise_length]
  rfl

theorem State.decided_tags {who n : Nat} (tags : reqTags who = some n) :
    (s.decided i arrive).tags who ≤ max ((s.arb i).tags who) ((s.arb i).quota n) := by
  obtain ⟨owner, waiting, -, -⟩ := State.decided_eq (s := s) (i := i) (arrive := arrive)
  have chosen : (s.decided i arrive).tags who = (s.raised i arrive).tags who := by
    rw [Arb.tags, owner, waiting]
    exact Arb.tags_choose.1
  have beat : ({ (s.arb i).beat with held := [] } : Arb).tags who ≤ (s.arb i).tags who := Arb.tags_beat
  have quota : ({ (s.arb i).beat with held := [] } : Arb).quota n = (s.arb i).quota n := rfl
  have raised := Arb.raise_tags (els := fun w => s.tagsOf w - (s.arb i).tags w) (x := { (s.arb i).beat with held := [] }) (l := s.asked i arrive) tags
  rw [chosen]
  rw [quota] at raised
  exact Nat.le_trans raised (Nat.max_le.2 ⟨Nat.le_trans beat (Nat.le_max_left _ _), Nat.le_max_right _ _⟩)

/-! ### HOT_BANK and BANK_COOLS (R266) -/

theorem hotBank_heats (cold : (s.arb i).hot = false) (on : s.rfld R.SY_CFG 7 0 ≠ 0) (long : 256 ≤ (s.arb i).hotFor) : hotBank s i =
    ((s.setArb i { s.arb i with hot := true }).addReg R.SY_HOT_EVENTS 1).ev 0x410 0xFF (leBytes 2 i ++ leBytes 1 (s.arb i).most) :=
  if_neg (by simp [cold, on, long])

theorem hotBank_stays (h : (s.arb i).hot = true ∨ s.rfld R.SY_CFG 7 0 = 0 ∨ (s.arb i).hotFor < 256) : hotBank s i = s :=
  if_pos (by rcases h with h | h | h <;> simp [h])

theorem bankCools_cools (long : 256 ≤ (s.arb i).coolFor) : bankCools s i = s.setArb i { s.arb i with hot := false } := if_neg (Nat.not_lt.2 long)
theorem bankCools_stays (short : (s.arb i).coolFor < 256) : bankCools s i = s := if_pos short

end ArbiterCommands

/-- Settles O30: a cycle raises the requests, each below its requester's quota, and chooses the owner among those that wait. -/
theorem arbitersChoose : Obligations.ArbitersChoose := by
  unfold Obligations.ArbitersChoose
  intro s i arrive x asked y moved
  refine ⟨fun accepts => ?_, fun slow took => ?_, fun o own => ?_, fun seam six => ?_, fun cold on long => congrArg _ (hotBank_heats cold on long),
    fun h => congrArg _ (hotBank_stays h), fun long => congrArg _ (bankCools_cools long), fun short => congrArg _ (bankCools_stays short)⟩
  · obtain ⟨owner, waiting, -, took⟩ := State.decided_eq (s := s) (i := i) (arrive := arrive)
    refine ⟨s.decided i arrive, congrArg _ (arbDecide_accepts accepts), took, State.decided_length, fun who n tags => State.decided_tags tags, ?_⟩
    rw [owner, waiting]
    exact ⟨Arb.choose_free, fun o => Arb.choose_owned, fun o => Arb.choose_lower⟩
  · obtain ⟨z, decided, rested⟩ := arbDecide_rests (arrive := arrive) slow took
    exact ⟨z, congrArg _ decided, rested⟩
  · have beat : y.owner = x.beat.owner := State.raised_owner
    rw [beat, Arb.beat, own]
    rfl
  · obtain ⟨z, decided, owner, wait⟩ := arbDecide_refresh (arrive := arrive) seam six
    exact ⟨z, congrArg _ decided, owner, wait⟩

end Sys2Proof.Machine

namespace Sys2Proof.Machine

/-! ## What the ports, the router and the gatehouse's messages change (R307 to R319) -/

section Ports
variable {s t : State} {p q : Fin 16}

/-! ### A port after an update -/

theorem State.port_of_ports (h : t.ports = s.ports) (q : Fin 16) : t.port q = s.port q := congrArg (·[q]) h

theorem State.port_modPort_ne {f : Port → Port} (other : q ≠ p) : (s.modPort p f).port q = s.port q := by
  simp only [State.port, State.modPort]
  exact Vector.getElem_set_ne _ _ fun same => other (Fin.ext same.symm)

@[simp] theorem State.port_setRn (a v : Nat) : (s.setRn a v).port q = s.port q := rfl
@[simp] theorem State.port_addReg (a n : Nat) : (s.addReg a n).port q = s.port q := rfl
@[simp] theorem State.port_portCount (i n : Nat) : (s.portCount p i n).port q = s.port q := rfl
@[simp] theorem State.port_routeCount (i n : Nat) : (s.routeCount i n).port q = s.port q := rfl
@[simp] theorem State.port_emit (o : Out) : (s.emit o).port q = s.port q := rfl
@[simp] theorem State.port_ev (code src : Nat) (bs : Bytes) : (s.ev code src bs).port q = s.port q := State.port_of_ports (by simp) q

@[simp] theorem State.port_portTo (st : PortSt) : (s.portTo p st).port p = { s.port p with st := st } := by
  simp only [State.portTo]
  split
  · next same => rw [← same]
  · simp

/-! ### The link word of a flit that leaves (R311, R312) -/

/-- A port whose owed credits of a channel have been returned. -/
def Port.returned (x : Port) : Port :=
  { x with owed := x.owed.set x.crvc 0, room := x.room.set x.crvc (x.room.getD x.crvc 0 + x.owed.getD x.crvc 0), sinceCr := 0 }

/-- A flit as its port sends it: with the acknowledgement and the returned credits. -/
def Port.stamped (x : Port) (w : Wire) : Wire := { w with ack := (x.rxSeq + 4095) % 4096, ackv := x.rxAny, crvc := x.crvc, crn := x.owed.getD x.crvc 0 }

@[simp] theorem State.port_send (w : Wire) : (s.send p w).port p = (s.port p).returned := State.port_modPort s p Port.returned
@[simp] theorem State.send_out (w : Wire) : (s.send p w).out = s.out ++ [.flit p ((s.port p).stamped w)] := rfl

/-! ### The part of a port that sending leaves alone -/

/-- A port without what the transmit side changes: numbers, replay buffer, credits and the flits that wait. -/
def Port.session (x : Port) : Port := { x with txSeq := 0, replay := [], credits := [], room := [], owed := [], sinceCr := 0, wait := [] }

theorem Port.st_of_session {x y : Port} (h : x.session = y.session) : x.st = y.st := (congrArg Port.st h :)

end Ports

/-! ### Registers -/

/-- Of a canonical state's registers only those of a set change, and it stays canonical. -/
def State.Counts (c : Nat → Prop) (s t : State) : Prop := s.canonical = true → t.canonical = true ∧ ∀ a, ¬c a → t.rn a = s.rn a

/-- The counter of the flits that a port sent (R330). -/
def sentCounter (a : Nat) : Prop := ∃ q : Fin 16, a = R.LK_COUNT q 5

/-- The counters of the ports and of the router (R330), and the pending bits of interrupts (R368). -/
def linkCounter (a : Nat) : Prop := (∃ (q : Fin 16) (i : Fin 8), a = R.LK_COUNT q i) ∨ (∃ i : Fin 5, a = R.LK_RCOUNT i) ∨ ∃ i, a = R.HX_MSIX_PBA i

theorem linkCounter_of_sentCounter {a : Nat} : sentCounter a → linkCounter a := fun ⟨q, same⟩ => .inl ⟨q, 5, same⟩

/-- The registers of the links below LK_COUNT, and those of the router below LK_RCOUNT, are no counters. -/
theorem not_linkCounter (p : Fin 16) {k : Nat} (place : k < 0x100 ∨ 0x2000 ≤ k ∧ k < 0x2800) : ¬linkCounter (LK.base p + k) := by
  rintro (⟨q, i, same⟩ | ⟨i, same⟩ | ⟨i, same⟩)
  · simp only [R.LK_COUNT, LK.base] at same
    omega
  · simp only [R.LK_RCOUNT, LK.base] at same
    omega
  · simp only [R.HX_MSIX_PBA, HX.base, LK.base] at same
    omega

section Counts
variable {c d : Nat → Prop} {s t u : State}

theorem State.Counts.refl (s : State) : s.Counts c s := fun canonical => ⟨canonical, fun _ _ => rfl⟩

theorem State.Counts.trans (h : s.Counts c t) (k : t.Counts c u) : s.Counts c u := fun canonical =>
  have ⟨canonical', kept⟩ := h canonical
  have ⟨canonical'', kept'⟩ := k canonical'
  ⟨canonical'', fun a apart => (kept' a apart).trans (kept a apart)⟩

theorem State.Counts.mono (sub : ∀ a, c a → d a) (h : s.Counts c t) : s.Counts d t := fun canonical =>
  ⟨(h canonical).1, fun a apart => (h canonical).2 a fun mem => apart (sub a mem)⟩

/-- An update of fields of which neither the registers nor the canonical form speaks. -/
theorem State.Counts.of_eq (mem : t.mem = s.mem) (poison : t.poison = s.poison) (regs : t.regs = s.regs) (sync : t.sync = s.sync) : s.Counts c t :=
  fun canonical => ⟨by simpa only [State.canonical, mem, poison, regs, sync] using canonical, fun a _ => by rw [State.rn, State.reg, regs]; rfl⟩

theorem State.Counts.setRn {a v : Nat} (counter : c a) : s.Counts c (s.setRn a v) := fun canonical =>
  ⟨(s.setRn_keeps a v).2 canonical, fun b apart => by
    rw [State.rn_setRn canonical, if_neg]
    rintro rfl
    exact apart counter⟩

theorem State.Counts.ev {code src : Nat} {bs : Bytes} (pending : ∀ i, c (R.HX_MSIX_PBA i)) : s.Counts c (s.ev code src bs) := fun canonical =>
  ⟨(s.ev_keeps code src bs).2 canonical, fun a apart => State.rn_ev (fun i same => apart (by rw [same]; exact pending i)) canonical code src bs⟩

end Counts

/-! ### What a flit that leaves changes (R311, R312) -/

/-- What ports that send change: the outputs, the numbers and buffers of the transmit sides, and the counters of sent flits. -/
structure State.Transmits (s t : State) : Prop where
  frame : t = { s with out := t.out, regs := t.regs, ports := t.ports }
  counts : s.Counts sentCounter t
  session : ∀ q, (t.port q).session = (s.port q).session

section Transmits
variable {s t u : State} {p : Fin 16} {n : Nat}

theorem State.Transmits.refl (s : State) : s.Transmits s := ⟨rfl, .refl s, fun _ => rfl⟩

theorem State.Transmits.trans (h : s.Transmits t) (k : t.Transmits u) : s.Transmits u :=
  ⟨by rw [k.frame, h.frame], h.counts.trans k.counts, fun q => (k.session q).trans (h.session q)⟩

theorem State.Transmits.ite {c : Prop} {_ : Decidable c} (h : s.Transmits t) (k : s.Transmits u) : s.Transmits (if c then t else u) := by
  split
  · exact h
  · exact k

theorem State.Transmits.modPort {g : Port → Port} (same : (g (t.port p)).session = (t.port p).session) (h : s.Transmits t) :
    s.Transmits (t.modPort p g) := by
  refine h.trans ⟨rfl, .of_eq rfl rfl rfl rfl, fun q => ?_⟩
  by_cases at_ : q = p
  · rw [at_, State.port_modPort, same]
  · rw [State.port_modPort_ne at_]

theorem State.Transmits.send {w : Wire} (h : s.Transmits t) : s.Transmits (t.send p w) :=
  (h.modPort (g := Port.returned) rfl).trans ⟨rfl, .trans (.of_eq rfl rfl rfl rfl) (.setRn ⟨p, rfl⟩), fun _ => rfl⟩

theorem State.Transmits.freeBuf {from? : Option (Nat × Nat)} (h : s.Transmits t) : s.Transmits (t.freeBuf from?) := by
  cases from? with
  | none => exact h
  | some _ => exact .ite (h.modPort rfl).send (h.modPort rfl)

theorem State.Transmits.sendData {w : WaitFlit} (h : s.Transmits t) : s.Transmits (t.sendData p w) := (h.modPort rfl).send.freeBuf

theorem State.Transmits.pump (h : s.Transmits t) : s.Transmits (t.pump p n) := by
  induction n generalizing t with
  | zero => exact h
  | succ n ih =>
    simp only [State.pump]
    split
    · exact h
    · exact ih (h.modPort rfl).sendData

theorem State.Transmits.enqueue {w : WaitFlit} (h : s.Transmits t) : s.Transmits (t.enqueue p w) := (h.modPort rfl).pump

theorem State.Transmits.inbox (h : s.Transmits t) : t.inbox = s.inbox := by rw [h.frame]
theorem State.Transmits.mem (h : s.Transmits t) : t.mem = s.mem := by rw [h.frame]

/-- Nothing goes where no flit waits. -/
theorem State.pump_idle (idle : (s.port p).wait = []) : s.pump p n = s := by
  cases n with
  | zero => rfl
  | succ n => simp only [State.pump, idle, List.find?_nil]

end Transmits

/-! ### What the router and the limiter change (R313 to R316, R319) -/

/-- What a flit that the module sends changes: what `State.Sends` says, and of the registers counters only. The ports stay in their sessions. -/
structure State.Routes (s t : State) : Prop where
  sends : s.Sends t
  counts : s.Counts linkCounter t
  session : ∀ q, (t.port q).session = (s.port q).session

section Routes
variable {s t u : State} {p : Fin 16} {d n : Nat} {f : Flit}

theorem State.Routes.refl (s : State) : s.Routes s := ⟨.refl s, .refl s, fun _ => rfl⟩

theorem State.Routes.trans (h : s.Routes t) (k : t.Routes u) : s.Routes u :=
  ⟨h.sends.trans k.sends, h.counts.trans k.counts, fun q => (k.session q).trans (h.session q)⟩

theorem State.Transmits.routes (h : s.Transmits t) : s.Routes t :=
  ⟨by unfold State.Sends; rw [h.frame], h.counts.mono fun _ => linkCounter_of_sentCounter, h.session⟩

theorem State.Routes.ite {c : Prop} {_ : Decidable c} (h : s.Routes t) (k : s.Routes u) : s.Routes (if c then t else u) := by
  split
  · exact h
  · exact k

theorem State.Routes.iteFst {α : Type} {c : Prop} {_ : Decidable c} {x y : State × α} (h : s.Routes x.1) (k : s.Routes y.1) :
    s.Routes (if c then x else y).1 := by
  split
  · exact h
  · exact k

/-- The lists of the router, the tallies and the limiter. -/
theorem State.Routes.lists {inbox' e2eTx' unreachLog' tally' mgmtHold' mgmtTokens' mgmtTime'} (h : s.Routes t) :
    s.Routes { t with
      inbox := inbox', e2eTx := e2eTx', unreachLog := unreachLog', tally := tally', mgmtHold := mgmtHold', mgmtTokens := mgmtTokens',
      mgmtTime := mgmtTime' } :=
  h.trans ⟨rfl, .of_eq rfl rfl rfl rfl, fun _ => rfl⟩

theorem State.Routes.ev {code src : Nat} {bs : Bytes} (h : s.Routes t) : s.Routes (t.ev code src bs) :=
  h.trans ⟨(t.ev_notes code src bs).sends, .ev fun i => .inr (.inr ⟨i, rfl⟩), fun _ => by rw [State.port_ev]⟩

theorem State.Routes.routeCount (i : Fin 5) (h : s.Routes t) : s.Routes (t.routeCount i n) :=
  h.trans ⟨rfl, .setRn (.inr (.inl ⟨i, rfl⟩)), fun _ => rfl⟩

theorem State.Routes.freeBuf {from? : Option (Nat × Nat)} (h : s.Routes t) : s.Routes (t.freeBuf from?) := h.trans (State.Transmits.refl t).freeBuf.routes
theorem State.Routes.enqueue {w : WaitFlit} (h : s.Routes t) : s.Routes (t.enqueue p w) := h.trans (State.Transmits.refl t).enqueue.routes
theorem State.Routes.unreachable (h : s.Routes t) : s.Routes (t.unreachable f) := (h.routeCount 0).ev

theorem State.Routes.place {vc : Nat} {inp : Option (Nat × Nat)} (h : s.Routes t) : s.Routes (t.place f vc inp).1 := by
  simp only [State.place]
  split
  · exact h.lists
  · exact (h.routeCount 0).freeBuf
  · exact h.unreachable.freeBuf
  refine .iteFst h.enqueue (.iteFst h.unreachable.freeBuf ?_)
  split
  · exact (h.routeCount 1).enqueue
  · exact h.enqueue

theorem State.Routes.tallySent (h : s.Routes t) : s.Routes (t.tallySent f) := by
  refine .ite ?_ h
  split
  · exact h.lists
  · exact h

theorem State.Routes.logUnreach (h : s.Routes t) : s.Routes (t.logUnreach d) := by
  simp only [State.logUnreach]
  split
  · exact .ite h h.ev.lists
  · exact h.ev.lists

theorem State.Routes.noRoute (h : s.Routes t) : s.Routes (t.noRoute f) := .ite (h.routeCount 0).logUnreach.lists (h.routeCount 0).logUnreach

theorem State.Routes.e2ePump (h : s.Routes t) : s.Routes (t.e2ePump d n) := by
  induction n generalizing t with
  | zero => exact h
  | succ n ih =>
    simp only [State.e2ePump]
    split
    · exact h
    · exact .ite h (.ite (ih (State.Routes.noRoute h.lists)) (ih (State.Routes.tallySent h.lists).place))

theorem State.Routes.inject (h : s.Routes t) : s.Routes (t.inject f).1 :=
  .iteFst h.tallySent.place (.iteFst (.iteFst (h.routeCount 0).logUnreach h.place) (.iteFst (h.routeCount 0).logUnreach (State.Routes.e2ePump h.lists)))

theorem State.Routes.mgmtGo {port : Option (Fin 16)} (h : s.Routes t) : s.Routes (t.mgmtGo port f) := by
  cases port with
  | none => exact h.inject
  | some _ => exact h.enqueue

theorem State.Routes.mgmtPump (h : s.Routes t) : s.Routes (t.mgmtPump n) := by
  induction n generalizing t with
  | zero => exact h
  | succ n ih =>
    simp only [State.mgmtPump]
    split
    · exact h
    · exact .ite h (ih (State.Routes.mgmtGo h.lists))

theorem State.Routes.mgmtSend {port : Option (Fin 16)} (h : s.Routes t) : s.Routes (t.mgmtSend port f) :=
  State.Routes.mgmtPump (State.Routes.lists h.lists)

theorem State.memSend_routes (s : State) (d : Nat) (m : MemMsg) : s.Routes (s.memSend d m) := (State.Routes.refl s).mgmtSend
theorem State.memSendPort_routes (s : State) (p : Fin 16) (m : MemMsg) : s.Routes (s.memSendPort p m) := (State.Routes.refl s).mgmtSend

theorem State.Sends.cores (h : s.Sends t) : t.cores = s.cores := by rw [h]
theorem State.Sends.members (h : s.Sends t) : t.members = s.members := by rw [h]
theorem State.Sends.mb (h : s.Sends t) : t.mb = s.mb := by rw [h]

end Routes

end Sys2Proof.Machine

namespace Sys2Proof.Machine

/-! ### What work on the links changes (R318 to R323) -/

/-- What work on the links changes: what sending changes, the commit state and the answers to mailboxes, and of the registers counters only. -/
structure State.OnLinks (s t : State) : Prop where
  frame : t = { s with
    log := t.log, logSeq := t.logSeq, flashLog := t.flashLog, flashSeq := t.flashSeq, out := t.out, regs := t.regs, ports := t.ports, e2eTx := t.e2eTx,
    inbox := t.inbox, unreachLog := t.unreachLog, tally := t.tally, mgmtHold := t.mgmtHold, mgmtTokens := t.mgmtTokens, mgmtTime := t.mgmtTime,
    cm := t.cm, gate := t.gate }
  counts : s.Counts linkCounter t

section OnLinks
variable {s t u : State} {p : Fin 16} {n : Nat}

theorem State.OnLinks.refl (s : State) : s.OnLinks s := ⟨rfl, .refl s⟩
theorem State.OnLinks.trans (h : s.OnLinks t) (k : t.OnLinks u) : s.OnLinks u := ⟨by rw [k.frame, h.frame], h.counts.trans k.counts⟩

theorem State.Routes.onLinks (h : s.Routes t) : s.OnLinks t := ⟨by rw [h.sends], h.counts⟩

theorem State.OnLinks.ite {c : Prop} {_ : Decidable c} (h : s.OnLinks t) (k : s.OnLinks u) : s.OnLinks (if c then t else u) := by
  split
  · exact h
  · exact k

theorem State.OnLinks.foldl {α : Type} {f : State → α → State} {l : List α} (hf : ∀ {u a}, s.OnLinks u → s.OnLinks (f u a)) (h : s.OnLinks t) :
    s.OnLinks (l.foldl f t) :=
  List.foldlRecOn l f h fun _ h _ _ => hf h

theorem State.OnLinks.modPort {g : Port → Port} (h : s.OnLinks t) : s.OnLinks (t.modPort p g) := h.trans ⟨rfl, .of_eq rfl rfl rfl rfl⟩
theorem State.OnLinks.routes (h : s.OnLinks t) (k : t.Routes u) : s.OnLinks u := h.trans k.onLinks
theorem State.OnLinks.ev {code src : Nat} {bs : Bytes} (h : s.OnLinks t) : s.OnLinks (t.ev code src bs) := h.routes (State.Routes.refl t).ev
theorem State.OnLinks.send {w : Wire} (h : s.OnLinks t) : s.OnLinks (t.send p w) := h.routes (State.Transmits.refl t).send.routes
theorem State.OnLinks.pump (h : s.OnLinks t) : s.OnLinks (t.pump p n) := h.routes (State.Transmits.refl t).pump.routes
theorem State.OnLinks.portTo {st : PortSt} (h : s.OnLinks t) : s.OnLinks (t.portTo p st) := .ite h h.modPort.ev
theorem State.OnLinks.quarantine {cause : Nat} (h : s.OnLinks t) : s.OnLinks (t.quarantine p cause) := h.modPort.portTo
theorem State.OnLinks.revoke (h : s.OnLinks t) : s.OnLinks (t.revoke p) := h.send.quarantine
theorem State.OnLinks.tryAdmit (h : s.OnLinks t) : s.OnLinks (t.tryAdmit p) := .ite h.modPort.portTo.pump h
theorem State.OnLinks.grant (h : s.OnLinks t) : s.OnLinks (t.grant p) := h.send.modPort.tryAdmit
theorem State.OnLinks.lkAdmit {v : Nat} (h : s.OnLinks t) : s.OnLinks (lkAdmit t p v) := .ite h (.ite (.ite h.revoke h.grant) (.ite h.modPort h))
theorem State.OnLinks.tryClear (h : s.OnLinks t) : s.OnLinks (t.tryClear p) := .ite h.modPort.ev.lkAdmit h
theorem State.OnLinks.sendDigest (h : s.OnLinks t) : s.OnLinks (t.sendDigest p) := h.modPort.routes (State.memSendPort_routes _ p _)

theorem State.OnLinks.mem (h : s.OnLinks t) : t.mem = s.mem := by rw [h.frame]
theorem State.OnLinks.mb (h : s.OnLinks t) : t.mb = s.mb := by rw [h.frame]
theorem State.OnLinks.members (h : s.OnLinks t) : t.members = s.members := by rw [h.frame]

/-- A register of the links that counts nothing. -/
theorem State.OnLinks.rn (h : s.OnLinks t) (canonical : s.canonical = true) (p : Fin 16) {k : Nat} (place : k < 0x100 ∨ 0x2000 ≤ k ∧ k < 0x2800) :
    t.rn (LK.base p + k) = s.rn (LK.base p + k) :=
  (h.counts canonical).2 _ (not_linkCounter p place)

/-- A register of the router that counts nothing. -/
theorem State.OnLinks.rn_router (h : s.OnLinks t) (canonical : s.canonical = true) {k : Nat} (place : 0x2000 ≤ k ∧ k < 0x2800) :
    t.rn (LK.base 0 + k) = s.rn (LK.base 0 + k) :=
  h.rn canonical 0 (.inr place)

end OnLinks

end Sys2Proof.Machine

namespace Sys2Proof.Machine

/-! ## Port states (R318 to R322, R330) -/

section PortStates
variable {s t u : State} {p : Fin 16} {w : Wire} {st : PortSt} {v lanes dev port nonce : Nat} {ser : List Nat}

theorem exec_next {i : Instr} (row : exec i s = .next t) (eq : t = u) : exec i s = .next u := row.trans (congrArg _ eq)

theorem exec_lkEnable {v : Bool} : exec (.lkEnable p v) s = .next (lkEnable s p v) := rfl
theorem exec_trainComplete : exec (.trainComplete p lanes) s = .next (trainComplete s p lanes) := rfl
theorem exec_trainTimeout : exec (.trainTimeout p) s = .next (trainTimeout s p) := rfl
theorem exec_trainRetry : exec (.trainRetry p) s = .next (trainRetry s p) := rfl
theorem exec_identFrame : exec (.identFrame p dev port nonce) s = .next (identFrame s p dev port nonce) := rfl
theorem exec_lkAdmit : exec (.lkAdmit p v) s = .next (lkAdmit s p v) := rfl
theorem exec_admitLink : exec (.admitLink p w) s = .next (admitFlit s p w) := rfl
theorem exec_revoke : exec (.revoke p w) s = .next (revokeFlit s p w) := rfl
theorem exec_heartbeatTimer : exec (.heartbeatTimer p) s = .next (heartbeatTimer s p) := rfl
theorem exec_heartbeatFlit : exec (.heartbeatFlit p w) s = .next (heartbeatFlit s p w) := rfl
theorem exec_laneError : exec (.laneError p lanes ser) s = .next (laneError s p lanes ser) := rfl
theorem exec_lkRetrain : exec (.lkRetrain p) s = .next (lkRetrain s p) := rfl
theorem exec_retrainComplete : exec (.retrainComplete p lanes) s = .next (retrainComplete s p lanes) := rfl
theorem exec_retrainTimeout : exec (.retrainTimeout p) s = .next (retrainTimeout s p) := rfl
theorem exec_lkCntClr : exec (.lkCntClr p) s = .next (lkCntClr s p) := rfl

/-! ### Work at one port -/

/-- What work at one port changes: what sending changes, and of the ports' states that of this port alone. -/
structure State.WorksAt (p : Fin 16) (s t : State) : Prop where
  sends : s.Sends t
  others : ∀ q, q ≠ p → (t.port q).st = (s.port q).st

theorem State.WorksAt.refl (s : State) : s.WorksAt p s := ⟨.refl s, fun _ _ => rfl⟩
theorem State.WorksAt.trans (h : s.WorksAt p t) (k : t.WorksAt p u) : s.WorksAt p u := ⟨h.sends.trans k.sends, fun q other => (k.others q other).trans (h.others q other)⟩
theorem State.Routes.worksAt (h : s.Routes t) : s.WorksAt p t := ⟨h.sends, fun q _ => Port.st_of_session (h.session q)⟩

theorem State.WorksAt.ite {c : Prop} {_ : Decidable c} (h : s.WorksAt p t) (k : s.WorksAt p u) : s.WorksAt p (if c then t else u) := by
  split
  · exact h
  · exact k

theorem State.WorksAt.modPort {g : Port → Port} (h : s.WorksAt p t) : s.WorksAt p (t.modPort p g) :=
  h.trans ⟨rfl, fun _ other => by rw [State.port_modPort_ne other]⟩
theorem State.WorksAt.setRn {a n : Nat} (h : s.WorksAt p t) : s.WorksAt p (t.setRn a n) := h.trans ⟨rfl, fun _ _ => rfl⟩
theorem State.WorksAt.ev {code src : Nat} {bs : Bytes} (h : s.WorksAt p t) : s.WorksAt p (t.ev code src bs) := h.trans (State.Routes.refl t).ev.worksAt
theorem State.WorksAt.send (h : s.WorksAt p t) : s.WorksAt p (t.send p w) := h.trans (State.Transmits.refl t).send.routes.worksAt
theorem State.WorksAt.portTo (h : s.WorksAt p t) : s.WorksAt p (t.portTo p st) := .ite h h.modPort.ev
theorem State.WorksAt.quarantine {cause : Nat} (h : s.WorksAt p t) : s.WorksAt p (t.quarantine p cause) := h.modPort.portTo
theorem State.WorksAt.revoke (h : s.WorksAt p t) : s.WorksAt p (t.revoke p) := h.send.quarantine
theorem State.WorksAt.tryAdmit (h : s.WorksAt p t) : s.WorksAt p (t.tryAdmit p) :=
  .ite (h.modPort.portTo.trans (State.Transmits.refl _).pump.routes.worksAt) h
theorem State.WorksAt.grant (h : s.WorksAt p t) : s.WorksAt p (t.grant p) := h.send.modPort.tryAdmit
theorem State.WorksAt.retrain (h : s.WorksAt p t) : s.WorksAt p (t.retrain p) := .ite h.modPort.portTo h
theorem State.WorksAt.decode (h : s.WorksAt p t) : s.WorksAt p (t.decode p w).1 := State.WorksAt.ite h.modPort.setRn h.modPort
theorem State.WorksAt.portDown (h : s.WorksAt p t) : s.WorksAt p (t.portDown p) := h.portTo.modPort.setRn.setRn

/-- A command that works at one port moves that port to a state and no other. -/
theorem State.WorksAt.moves {i : Instr} (h : s.WorksAt p u) (row : exec i s = .next t) (eq : t = u) (to_ : (u.port p).st = st) :
    ∃ t, exec i s = .next t ∧ (t.port p).st = st ∧ t.mem = s.mem ∧ t.cores = s.cores ∧ ∀ q, q ≠ p → (t.port q).st = (s.port q).st :=
  ⟨u, row.trans (congrArg _ eq), to_, h.sends.mem, h.sends.cores, h.others⟩

/-! ### Training and identification (R318) -/

theorem lkEnable_down (down : (s.port p).st = .down) : lkEnable s p true = (s.setFld (R.LK_CTRL p) 0 0 1).portTo p .train := by
  simp [lkEnable, down, b2n]

theorem lkEnable_up (up : (s.port p).st ≠ .down) : lkEnable s p true = s.setFld (R.LK_CTRL p) 0 0 1 := by simp [lkEnable, up, b2n]

theorem trainRetry_down (down : (s.port p).st = .down) (enabled : s.rbit (R.LK_CTRL p) 0 = true) : trainRetry s p = s.portTo p .train :=
  if_pos ⟨down, enabled⟩
theorem trainRetry_up (up : (s.port p).st ≠ .down) : trainRetry s p = s := if_neg fun h => up h.1

theorem trainTimeout_train (train : (s.port p).st = .train) : trainTimeout s p = s.portTo p .down := if_pos train
theorem trainTimeout_other (other : (s.port p).st ≠ .train) : trainTimeout s p = s := if_neg other

theorem identFrame_other (other : (s.port p).st ≠ .ident) : identFrame s p dev port nonce = s := if_pos other

theorem trainComplete_ident (train : (s.port p).st = .train) (width : widthOf lanes ≠ 0) : trainComplete s p lanes =
    ((s.draw.modPort p (fun x => { x with lanes := lanes % 16, width := widthOf lanes, nonce := (Config.freeWord s.freeCtr).toNat })).portTo p .ident).emit
      (.ident p s.straps (Config.freeWord s.freeCtr).toNat) :=
  if_pos ⟨train, width⟩

theorem trainComplete_stays (no : (s.port p).st ≠ .train ∨ widthOf lanes = 0) : trainComplete s p lanes = s :=
  if_neg fun ⟨train, width⟩ => no.elim (fun h => h train) width

/-- Registers at different places of a port's window are different. -/
theorem lk_apart (p q : Nat) {j k : Nat} (apart : j % 0x4000 ≠ k % 0x4000) : LK.base p + j ≠ LK.base q + k := by
  unfold LK.base
  omega

theorem State.rn_setRn_ne (canonical : s.canonical = true) {a b v : Nat} (apart : b ≠ a) : (s.setRn a v).rn b = s.rn b := by
  rw [State.rn_setRn canonical, if_neg apart]

theorem State.rn_setRn_self (canonical : s.canonical = true) {a v : Nat} : (s.setRn a v).rn a = v % 2 ^ 64 := by
  rw [State.rn_setRn canonical, if_pos rfl]

/-- The wiring rules read the size of the torus, which IDENT leaves alone (R313, R318). -/
theorem State.wired_identified (canonical : s.canonical = true) {a b own : Nat} :
    ((s.setRn (R.LK_PARTNER p) a).setRn (R.LK_NONCE p) b).wired p own port dev = s.wired p own port dev := by
  have torus : ((s.setRn (R.LK_PARTNER p) a).setRn (R.LK_NONCE p) b).rn R.LK_TORUS = s.rn R.LK_TORUS := by
    have nonce : R.LK_TORUS ≠ R.LK_NONCE p := lk_apart 0 p (by decide : 0x2008 % 0x4000 ≠ 0x20 % 0x4000)
    have partner : R.LK_TORUS ≠ R.LK_PARTNER p := lk_apart 0 p (by decide : 0x2008 % 0x4000 ≠ 0x18 % 0x4000)
    rw [State.rn_setRn_ne ((s.setRn_keeps _ _).2 canonical) nonce, State.rn_setRn_ne canonical partner]
  unfold State.wired State.rfld
  rw [torus]

section Ident
variable (canonical : s.canonical = true) (ident : (s.port p).st = .ident)
include canonical ident

theorem identFrame_wired (wired : s.wired p s.straps (port % 16) (dev % 65536) = true) : s.WorksAt p (identFrame s p dev port nonce)
    ∧ ((identFrame s p dev port nonce).port p).st = .quarantine := by
  rw [identFrame, if_neg (not_not.2 ident)]
  simp only [State.wired_identified canonical, wired, if_true]
  exact ⟨State.WorksAt.portTo (State.WorksAt.refl s).setRn.setRn.modPort, by rw [State.port_portTo]⟩

theorem identFrame_miswired (miswired : s.wired p s.straps (port % 16) (dev % 65536) = false) : s.WorksAt p (identFrame s p dev port nonce)
    ∧ ((identFrame s p dev port nonce).port p).st = .ident := by
  rw [identFrame, if_neg (not_not.2 ident)]
  simp only [State.wired_identified canonical, miswired, Bool.false_eq_true, if_false]
  exact ⟨(State.WorksAt.refl s).setRn.setRn.ev, by rw [State.port_ev]; exact ident⟩

end Ident

/-! ### Admission (R319) -/

theorem Port.not_live_of_retrain {x : Port} (retrain : x.st = .retrain) : x.live = false := by simp [Port.live, retrain]
theorem Port.live_of_quarantine {x : Port} (quar : x.st = .quarantine) : x.live = true := by simp [Port.live, quar]
theorem Port.live_iff {x : Port} : x.live = true ↔ x.st = .quarantine ∨ x.st = .admitted := by simp [Port.live]

@[simp] theorem State.port_quarantine (cause : Nat) :
    (s.quarantine p cause).port p = { s.port p with qcause := cause, localGrant := false, remoteGrant := false, st := .quarantine } := by
  rw [State.quarantine, State.port_portTo, State.port_modPort]

theorem State.revoke_st : ((s.revoke p).port p).st = .quarantine := by rw [State.revoke, State.port_quarantine]

/-- A port that this end has granted. -/
def Port.granted (x : Port) : Port := { x with localGrant := true }

/-- A port that the partner has granted. -/
def Port.remotelyGranted (x : Port) : Port := { x with remoteGrant := true }

/-- A port that both ends have granted. -/
def Port.admitted (x : Port) : Port := { x with qcause := 0, was := true, st := .admitted }

/-- A port in QUARANTINE that both ends have granted is ADMITTED. -/
theorem State.tryAdmit_session (quar : (s.port p).st = .quarantine) (own : (s.port p).localGrant = true) (theirs : (s.port p).remoteGrant = true) :
    ((s.tryAdmit p).port p).session = (s.port p).admitted.session := by
  rw [State.tryAdmit, if_pos ⟨quar, own, theirs⟩, (State.Transmits.refl _).pump.session, State.port_portTo, State.port_modPort]
  rfl

theorem State.tryAdmit_waits (one : ¬((s.port p).localGrant = true ∧ (s.port p).remoteGrant = true)) : s.tryAdmit p = s := if_neg fun h => one h.2

/-- A port in QUARANTINE that this end grants is admitted if the partner has granted it. -/
theorem State.grant_session (quar : (s.port p).st = .quarantine) : ((s.grant p).port p).session =
    (if (s.port p).remoteGrant = true then (s.port p).granted.admitted else (s.port p).granted).session := by
  have sent : ((s.send p { kind := 4, area := leBytes 8 (s.rn (R.LK_NONCE p)) }).modPort p Port.granted).port p = (s.port p).returned.granted := by
    rw [State.port_modPort, State.port_send]
  change ((((s.send p _).modPort p Port.granted).tryAdmit p).port p).session = _
  split
  · next theirs =>
    rw [State.tryAdmit_session (by rw [sent]; exact quar) (by rw [sent]; rfl) (by rw [sent]; exact theirs), sent]
    rfl
  · next alone =>
    rw [State.tryAdmit_waits (by rw [sent]; exact fun h => alone h.2), sent]
    rfl

theorem State.grant_st (quar : (s.port p).st = .quarantine) :
    ((s.grant p).port p).st = if (s.port p).remoteGrant = true then .admitted else .quarantine := by
  rw [Port.st_of_session (State.grant_session quar)]
  split
  · rfl
  · exact quar

section LkAdmit
variable (live : (s.port p).live = true)
include live

theorem lkAdmit_zero (zero : v % 2 ^ 64 = 0) : lkAdmit s p v = s.revoke p := by
  simp only [lkAdmit, zero, live, ne_eq, not_true_eq_false, false_and, if_false, decide_true, Bool.true_or, if_true]

theorem lkAdmit_mismatch (nonce : v % 2 ^ 64 = s.rn (R.LK_NONCE p)) (mismatch : s.mismatch p = true) : lkAdmit s p v = s.revoke p := by
  simp only [lkAdmit, nonce, mismatch, live, ne_eq, not_true_eq_false, and_false, if_false, Bool.or_true, if_true]

theorem lkAdmit_grants (some : v % 2 ^ 64 ≠ 0) (nonce : v % 2 ^ 64 = s.rn (R.LK_NONCE p)) (mismatch : s.mismatch p = false) :
    lkAdmit s p v = s.grant p := by
  rw [nonce] at some
  simp only [lkAdmit, nonce, mismatch, live, some, ne_eq, not_true_eq_false, and_false, if_false, Bool.or_false, decide_false, Bool.false_eq_true, if_true]

end LkAdmit

theorem lkAdmit_other (some : v % 2 ^ 64 ≠ 0) (other : v % 2 ^ 64 ≠ s.rn (R.LK_NONCE p)) : lkAdmit s p v = s := if_pos ⟨some, other⟩

theorem lkAdmit_retrain (zero : v % 2 ^ 64 = 0) (retrain : (s.port p).st = .retrain) : lkAdmit s p v =
    s.modPort p (fun y => { y with prev := .quarantine, qcause := 3, localGrant := false, remoteGrant := false, later := [{ kind := 5 }] }) := by
  simp only [lkAdmit, zero, retrain, Port.not_live_of_retrain retrain, ne_eq, not_true_eq_false, false_and, if_false, decide_true, Bool.true_or, if_true,
    Bool.false_eq_true]

theorem lkAdmit_dead (dead : (s.port p).live = false) (other : (s.port p).st ≠ .retrain) : lkAdmit s p v = s := by simp [lkAdmit, dead, other]

/-! ### Flits that the decoder passes (R307, R308) -/

theorem State.receive_passes (pass : (s.decode p w).2 = true) (g : State → State) : s.receive p w g = g (s.decode p w).1 := if_pos pass

/-- Does a codeword begin in the next flit of a port, and one that cannot be corrected? -/
def State.codeBegins (s : State) (p : Fin 16) : Bool := (codewordIn (s.port p).rxFlits).isSome
def State.codeFails (s : State) (p : Fin 16) (w : Wire) : Bool := s.codeBegins p && decide (15 < w.errs)

/-- The port after the decoder has seen a flit. -/
def Port.decoded (x : Port) (begins fails : Bool) : Port :=
  { x with rxFlits := (x.rxFlits + 1) % 1285, cwBad := if begins then fails else x.cwBad }

/-- The decoder moves its place on, and counts a codeword with wrong symbols as corrected or as not correctable. -/
theorem State.decode_eq : s.decode p w =
    (if s.codeBegins p && decide (0 < w.errs) then (s.modPort p (·.decoded (s.codeBegins p) (s.codeFails p w))).addReg (R.LK_COUNT p (b2n (s.codeFails p w))) 1
      else s.modPort p (·.decoded (s.codeBegins p) (s.codeFails p w)),
    !(s.codeFails p w || (carriesOver (s.port p).rxFlits && (s.port p).cwBad))) := rfl

@[simp] theorem State.port_decode : (s.decode p w).1.port p = (s.port p).decoded (s.codeBegins p) (s.codeFails p w) := by
  rw [State.decode_eq]
  split
  · rw [State.port_addReg, State.port_modPort]
  · rw [State.port_modPort]

theorem State.OnLinks.decode (h : s.OnLinks t) : s.OnLinks (t.decode p w).1 := by
  refine .ite (h.modPort.trans ⟨rfl, .setRn (.inl ⟨p, ⟨b2n (t.codeFails p w), ?_⟩, rfl⟩)⟩) h.modPort
  cases t.codeFails p w <;> decide

/-- The port after the link word of a flit: what the acknowledgement covers leaves the replay buffer, and the credits come back. -/
def Port.acked (x : Port) (w : Wire) : Port :=
  { x with replay := if w.ackv then ackReplay x.replay w.ack else x.replay, credits := x.credits.set w.crvc (x.credits.getD w.crvc 0 + w.crn) }

theorem State.rxLink_idle (idle : (s.port p).wait = []) : s.rxLink p w = (s.modPort p (·.acked w)).portCount p 6 1 :=
  State.pump_idle (by rw [State.port_portCount, State.port_modPort]; exact idle)

theorem State.rxLink_routes : s.Routes (s.rxLink p w) :=
  have counted : (s.modPort p (·.acked w)).Routes ((s.modPort p (·.acked w)).portCount p 6 1) := ⟨rfl, .setRn (.inl ⟨p, 6, rfl⟩), fun _ => rfl⟩
  (((State.Transmits.refl s).modPort (g := (·.acked w)) rfl).routes.trans counted).trans (State.Transmits.refl _).pump.routes

/-- The port after a flit that the decoder passed: its session is as before, with the decoder's place moved on. -/
theorem State.rxLink_session : (((s.decode p w).1.rxLink p w).port p).session = ((s.port p).decoded (s.codeBegins p) (s.codeFails p w)).session := by
  rw [State.rxLink_routes.session, State.port_decode]

theorem State.WorksAt.received (h : s.WorksAt p t) : s.WorksAt p ((t.decode p w).1.rxLink p w) := h.decode.trans State.rxLink_routes.worksAt

theorem revokeFlit_dead (dead : (s.port p).live = false) : revokeFlit s p w = s := by simp [revokeFlit, dead]
theorem admitFlit_dead (dead : (s.port p).live = false) : admitFlit s p w = s := by simp [admitFlit, dead]

theorem revokeFlit_quarantines (live : (s.port p).live = true) (kind : w.kind = 5) (pass : (s.decode p w).2 = true) :
    revokeFlit s p w = ((s.decode p w).1.rxLink p w).quarantine p 3 := by
  simp only [revokeFlit, live, kind, BEq.rfl, Bool.and_self, if_true, State.receive_passes pass]

section Admit
variable (live : (s.port p).live = true) (kind : w.kind = 4) (pass : (s.decode p w).2 = true)
include live kind pass

theorem admitFlit_other (other : leAt w.area 0 8 ≠ (s.port p).nonce) : admitFlit s p w = (s.decode p w).1.rxLink p w := by
  have other' : leAt w.area 0 8 ≠ ((s.decode p w).1.port p).nonce := by rw [State.port_decode]; exact other
  simp only [admitFlit, live, kind, BEq.rfl, Bool.and_self, if_true, State.receive_passes pass, other', if_false]

theorem admitFlit_grants (nonce : leAt w.area 0 8 = (s.port p).nonce) :
    admitFlit s p w = (((s.decode p w).1.rxLink p w).modPort p Port.remotelyGranted).tryAdmit p := by
  have nonce' : leAt w.area 0 8 = ((s.decode p w).1.port p).nonce := by rw [State.port_decode, nonce]; rfl
  simp only [admitFlit, live, kind, BEq.rfl, Bool.and_self, if_true, State.receive_passes pass, nonce']
  rfl

theorem admitFlit_st (nonce : leAt w.area 0 8 = (s.port p).nonce) (quar : (s.port p).st = .quarantine) :
    ((admitFlit s p w).port p).st = if (s.port p).localGrant = true then .admitted else .quarantine := by
  have session := State.rxLink_session (s := s) (p := p) (w := w)
  have quar' : (((s.decode p w).1.rxLink p w).port p).st = .quarantine := (Port.st_of_session session).trans quar
  have own : (((s.decode p w).1.rxLink p w).port p).localGrant = (s.port p).localGrant := (congrArg Port.localGrant session :)
  rw [admitFlit_grants live kind pass nonce]
  split
  · next granted =>
    exact Port.st_of_session (State.tryAdmit_session (by rw [State.port_modPort]; exact quar') (by rw [State.port_modPort]; exact own.trans granted)
      (by rw [State.port_modPort]; rfl))
  · next alone =>
    rw [State.tryAdmit_waits (by rw [State.port_modPort]; exact fun h => alone (own.symm.trans h.1)), State.port_modPort]
    exact quar'

end Admit

/-! ### RETRAIN (R320) -/

@[simp] theorem State.port_portDown : (s.portDown p).port p = { (s.port p).fresh with st := .down } := by
  rw [State.portDown, State.port_setRn, State.port_setRn, State.port_modPort, State.port_portTo]
  rfl

theorem State.retrain_st (live : (s.port p).live = true) : ((s.retrain p).port p).st = .retrain := by
  rw [State.retrain, if_pos live, State.port_portTo]

theorem testBit_four_lanes : ∀ (a b c d : Bool) (i : Fin 4), (b2n a * 2 ^ 0 + b2n b * 2 ^ 1 + b2n c * 2 ^ 2 + b2n d * 2 ^ 3).testBit i = [a, b, c, d][i] := by
  decide

/-- A lane is lost where it has no lock, or where more symbols were corrected than LK_CFG.SER_LIMIT allows. -/
theorem State.testBit_lanesLost {i : Nat} (lane : i < 4) :
    (s.lanesLost p lanes ser).testBit i = true ↔ lanes.testBit i = true ∨ s.rfld (R.LK_CFG p) 15 0 < ser.getD i 0 := by
  have bits := testBit_four_lanes (lanes.testBit 0 || decide (s.rfld (R.LK_CFG p) 15 0 < ser.getD 0 0)) (lanes.testBit 1 || decide (s.rfld (R.LK_CFG p) 15 0 < ser.getD 1 0))
    (lanes.testBit 2 || decide (s.rfld (R.LK_CFG p) 15 0 < ser.getD 2 0)) (lanes.testBit 3 || decide (s.rfld (R.LK_CFG p) 15 0 < ser.getD 3 0)) ⟨i, lane⟩
  have sum : s.lanesLost p lanes ser = b2n (lanes.testBit 0 || decide (s.rfld (R.LK_CFG p) 15 0 < ser.getD 0 0)) * 2 ^ 0
      + b2n (lanes.testBit 1 || decide (s.rfld (R.LK_CFG p) 15 0 < ser.getD 1 0)) * 2 ^ 1 + b2n (lanes.testBit 2 || decide (s.rfld (R.LK_CFG p) 15 0 < ser.getD 2 0)) * 2 ^ 2
      + b2n (lanes.testBit 3 || decide (s.rfld (R.LK_CFG p) 15 0 < ser.getD 3 0)) * 2 ^ 3 := by
    simp only [State.lanesLost, List.range_succ_eq_map, List.range_zero, List.map_cons, List.map_nil, List.foldl_cons, List.foldl_nil, Nat.zero_add]
  rw [sum, bits]
  match i, lane with
  | 0, _ | 1, _ | 2, _ | 3, _ => simp

theorem laneError_retrains (live : (s.port p).live = true) (lost : (s.port p).lanes &&& (15 - s.lanesLost p lanes ser) ≠ (s.port p).lanes) :
    laneError s p lanes ser = (s.modPort p (fun y => { y with lanes := (s.port p).lanes &&& (15 - s.lanesLost p lanes ser) })).retrain p :=
  if_pos ⟨lost, .inl live⟩

theorem laneError_none (none : (s.port p).lanes &&& (15 - s.lanesLost p lanes ser) = (s.port p).lanes) : laneError s p lanes ser = s :=
  if_neg fun h => h.1 none

theorem lkRetrain_live (live : (s.port p).live = true) : lkRetrain s p = (s.modPort p (fun x => { x with wide := true })).retrain p := if_pos live
theorem lkRetrain_dead (dead : (s.port p).live = false) : lkRetrain s p = s := by simp [lkRetrain, dead]

/-- A port whose RETRAIN ends at a width, on the lanes that are good. -/
def Port.retrained (x : Port) (width lanes : Nat) : Port :=
  { x with width := width, lanes := lanes, wide := false, nak := none, replay := x.replay.map (fun e => (e.1, e.2.1, 0)) }

theorem State.sendLater_none (none : (s.port p).later = []) : s.sendLater p = s.modPort p (fun y => { y with later := [] }) := by
  simp only [State.sendLater, none, List.foldl_nil]

section RetrainComplete
variable (retrain : (s.port p).st = .retrain) (narrow : (s.port p).wide = false)
  (width : min (s.port p).width (widthOf ((s.port p).lanes &&& lanes)) ≠ 0) (noNak : (s.port p).nak = none)
include retrain narrow width noNak

/-- Without a replay to make, the port returns to the state before and sends what it owes. -/
theorem retrainComplete_eq : ∃ u, retrainComplete s p lanes = (u.sendLater p).pump p ((s.port p).wait.length + 1) ∧ s.OnLinks u
    ∧ u.port p = { (s.port p).retrained (min (s.port p).width (widthOf ((s.port p).lanes &&& lanes))) ((s.port p).lanes &&& lanes) with st := (s.port p).prev } := by
  have back : s.OnLinks ((s.modPort p (·.retrained (min (s.port p).width (widthOf ((s.port p).lanes &&& lanes))) ((s.port p).lanes &&& lanes))).portTo p (s.port p).prev) :=
    (State.OnLinks.refl s).modPort.portTo
  simp only [retrainComplete, narrow, noNak, retrain, width, Bool.false_eq_true, if_false, ne_eq, not_true_eq_false, or_self]
  refine ⟨_, rfl, .ite back.ev back, ?_⟩
  split
  · rw [State.port_ev, State.port_portTo, State.port_modPort]
    rfl
  · rw [State.port_portTo, State.port_modPort]
    rfl

theorem retrainComplete_returns (none : (s.port p).later = []) : (retrainComplete s p lanes).mem = s.mem
    ∧ ((retrainComplete s p lanes).port p).st = (s.port p).prev ∧ ((retrainComplete s p lanes).port p).width ≤ (s.port p).width
    ∧ ((retrainComplete s p lanes).port p).lanes = (s.port p).lanes &&& lanes := by
  obtain ⟨u, eq, work, port⟩ := retrainComplete_eq retrain narrow width noNak
  have session : ((retrainComplete s p lanes).port p).session = ({ u.port p with later := [] } : Port).session := by
    rw [eq, State.sendLater_none (by rw [port]; exact none), (State.Transmits.refl _).pump.session, State.port_modPort]
  refine ⟨?_, ?_, ?_, ?_⟩
  · rw [eq, State.sendLater_none (by rw [port]; exact none)]
    exact work.modPort.pump.mem
  · rw [Port.st_of_session session, port]
  · rw [show ((retrainComplete s p lanes).port p).width = (u.port p).width from (congrArg Port.width session :), port]
    exact Nat.min_le_left _ _
  · rw [show ((retrainComplete s p lanes).port p).lanes = (u.port p).lanes from (congrArg Port.lanes session :), port]
    rfl

end RetrainComplete

theorem retrainTimeout_retrain (retrain : (s.port p).st = .retrain) : retrainTimeout s p = s.portDown p := if_pos retrain
theorem retrainTimeout_other (other : (s.port p).st ≠ .retrain) : retrainTimeout s p = s := if_neg other
theorem retrainComplete_other (other : (s.port p).st ≠ .retrain) : retrainComplete s p lanes = s := if_pos (.inl other)

/-! ### Counters (R330) -/

/-- A register that is 0 stays 0 while others are set to 0. -/
theorem State.rn_foldl_setRn_zero {addr : Nat → Nat} {b : Nat} (l : List Nat) (canonical : s.canonical = true) (zero : s.rn b = 0) :
    (l.foldl (fun t i => t.setRn (addr i) 0) s).rn b = 0 :=
  (List.foldlRecOn (motive := fun t : State => t.canonical = true ∧ t.rn b = 0) l _ ⟨canonical, zero⟩ fun t kept i _ =>
    ⟨(t.setRn_keeps (addr i) 0).2 kept.1, State.rn_setRn_zero kept.1 kept.2⟩).2

theorem lkCntClr_clears (canonical : s.canonical = true) : (∀ i : Fin 8, (lkCntClr s p).rn (R.LK_COUNT p i) = 0)
    ∧ (p = 0 → ∀ i : Fin 5, (lkCntClr s p).rn (R.LK_RCOUNT i) = 0) ∧ (lkCntClr s p).ports = s.ports ∧ (lkCntClr s p).mem = s.mem := by
  have ports := fun i : Fin 8 => State.rn_foldl_setRn (addr := R.LK_COUNT p) (List.range 8) s canonical (.inr (List.mem_range.2 i.isLt))
  have canonical' := (State.Keeps.foldl (fun t i => t.setRn_keeps (R.LK_COUNT p i) 0) (List.range 8) s).2 canonical
  obtain ⟨regs, same⟩ := State.foldl_setRn (s := s) (addr := R.LK_COUNT p) (List.range 8)
  simp only [lkCntClr]
  split
  · obtain ⟨regs', same'⟩ := State.foldl_setRn (s := (List.range 8).foldl (fun t i => t.setRn (R.LK_COUNT p i) 0) s) (addr := R.LK_RCOUNT) (List.range 5)
    refine ⟨fun i => State.rn_foldl_setRn_zero _ canonical' (ports i),
      fun _ i => State.rn_foldl_setRn (List.range 5) _ canonical' (.inr (List.mem_range.2 i.isLt)), ?_, ?_⟩
    · rw [same', same]
    · rw [same', same]
  · next other =>
    refine ⟨ports, fun zero => absurd zero other, ?_, ?_⟩
    · rw [same]
    · rw [same]

/-! ### Heartbeats (R321, R322) -/

/-- The heartbeat that a module sends: its number, and its active and staged epoch and digest. -/
def State.heartbeat (s : State) : Wire :=
  { kind := 2, area := leBytes 2 (if s.member then s.dev else 0xFFFF) ++ leBytes 8 (s.rn R.LK_EPOCH) ++ leBytes 8 (s.rn R.LK_DIGEST)
      ++ leBytes 8 (s.rn R.LK_STAGED_EPOCH) ++ leBytes 8 (s.rn R.LK_STAGED_DIGEST) }

theorem heartbeatTimer_live (live : (s.port p).live = true) : heartbeatTimer s p = s.send p s.heartbeat := if_pos live
theorem heartbeatTimer_dead (dead : (s.port p).live = false) : heartbeatTimer s p = s := by simp [heartbeatTimer, dead]
theorem heartbeatFlit_dead (dead : (s.port p).live = false) : heartbeatFlit s p w = s := by simp [heartbeatFlit, dead]

/-- The port once a heartbeat has been noted. -/
def Port.heard (x : Port) (w : Wire) : Port := { x with hbDev := leAt w.area 0 2, staged := (leAt w.area 18 8, leAt w.area 26 8), hb := true }

/-- The state once a heartbeat that the decoder passed has been noted. -/
def State.heard (s : State) (p : Fin 16) (w : Wire) : State :=
  ((((s.decode p w).1.rxLink p w).modPort p (·.heard w)).setRn (R.LK_HB_EPOCH p) (leAt w.area 2 8)).setRn (R.LK_HB_DIGEST p) (leAt w.area 10 8)

theorem fromLe_lt (b : Bytes) : fromLe b < 256 ^ b.length := by
  induction b with
  | nil => exact Nat.one_pos
  | cons c b ih =>
    have low : c.toNat < 256 := c.isLt
    rw [fromLe, List.length_cons, Nat.pow_succ]
    omega

theorem leAt_lt (b : Bytes) (i n : Nat) : leAt b i n < 256 ^ n :=
  (fromLe_lt _).trans_le (Nat.pow_le_pow_right (by decide) (List.length_take_le _ _))

theorem leAt_eight_lt (b : Bytes) (i : Nat) : leAt b i 8 < 2 ^ 64 := leAt_lt b i 8

section Heartbeat
variable (live : (s.port p).live = true) (kind : w.kind = 2) (pass : (s.decode p w).2 = true)

theorem State.heard_port_st : ((s.heard p w).port p).st = (s.port p).st := by
  rw [State.heard, State.port_setRn, State.port_setRn, State.port_modPort]
  exact (Port.st_of_session State.rxLink_session :)

theorem State.received_onLinks : s.OnLinks ((s.decode p w).1.rxLink p w) := (State.OnLinks.refl s).decode.routes State.rxLink_routes

theorem State.heard_mem : (s.heard p w).mem = s.mem := by
  rw [State.heard, State.setRn_mem, State.setRn_mem, State.modPort_mem, State.received_onLinks.mem]

section Registers
variable (canonical : s.canonical = true)
include canonical

theorem State.heard_canonical : (s.heard p w).canonical = true :=
  (State.setRn_keeps _ _ _).2 ((State.setRn_keeps _ _ _).2 (State.received_onLinks.modPort.counts canonical).1)

theorem State.heard_epoch : (s.heard p w).rn (R.LK_HB_EPOCH p) = leAt w.area 2 8 := by
  have canonical' := (State.received_onLinks (s := s) (p := p) (w := w)).modPort (p := p) (g := (·.heard w)) |>.counts canonical |>.1
  have apart : R.LK_HB_EPOCH p ≠ R.LK_HB_DIGEST p := lk_apart p p (by decide : 0x30 % 0x4000 ≠ 0x38 % 0x4000)
  rw [State.heard, State.rn_setRn_ne ((State.setRn_keeps _ _ _).2 canonical') apart, State.rn_setRn_self canonical', Nat.mod_eq_of_lt (leAt_eight_lt _ _)]

theorem State.heard_digest : (s.heard p w).rn (R.LK_HB_DIGEST p) = leAt w.area 10 8 := by
  have canonical' := (State.received_onLinks (s := s) (p := p) (w := w)).modPort (p := p) (g := (·.heard w)) |>.counts canonical |>.1
  rw [State.heard, State.rn_setRn_self ((State.setRn_keeps _ _ _).2 canonical'), Nat.mod_eq_of_lt (leAt_eight_lt _ _)]

/-- A heartbeat leaves the module's own epochs and digests. -/
theorem State.heard_own {k : Nat} (place : 0x2000 ≤ k ∧ k < 0x2800) : (s.heard p w).rn (LK.base 0 + k) = s.rn (LK.base 0 + k) := by
  have received := (State.received_onLinks (s := s) (p := p) (w := w)).modPort (p := p) (g := (·.heard w))
  have epoch : LK.base 0 + k ≠ R.LK_HB_EPOCH p := lk_apart 0 p (k := 0x30) (by omega)
  have digest : LK.base 0 + k ≠ R.LK_HB_DIGEST p := lk_apart 0 p (k := 0x38) (by omega)
  have canonical' := (received.counts canonical).1
  rw [State.heard, State.rn_setRn_ne ((State.setRn_keeps _ _ _).2 canonical') digest, State.rn_setRn_ne canonical' epoch]
  exact received.rn_router canonical place

theorem State.heard_mismatch :
    (s.heard p w).mismatch p = !s.hbMatch (leAt w.area 2 8, leAt w.area 10 8) (leAt w.area 18 8, leAt w.area 26 8) := by
  have port : (s.heard p w).port p = (((s.decode p w).1.rxLink p w).port p).heard w := by
    rw [State.heard, State.port_setRn, State.port_setRn, State.port_modPort]
  have e : (s.heard p w).rn R.LK_EPOCH = s.rn R.LK_EPOCH := State.heard_own canonical (k := 0x2030) (by decide)
  have d : (s.heard p w).rn R.LK_DIGEST = s.rn R.LK_DIGEST := State.heard_own canonical (k := 0x2038) (by decide)
  have se : (s.heard p w).rn R.LK_STAGED_EPOCH = s.rn R.LK_STAGED_EPOCH := State.heard_own canonical (k := 0x2040) (by decide)
  have sd : (s.heard p w).rn R.LK_STAGED_DIGEST = s.rn R.LK_STAGED_DIGEST := State.heard_own canonical (k := 0x2048) (by decide)
  rw [State.mismatch, State.heard_epoch canonical, State.heard_digest canonical, port]
  simp only [State.hbMatch, e, d, se, sd, Port.heard, Bool.true_and]

end Registers

include live kind pass

theorem heartbeatFlit_eq : heartbeatFlit s p w =
    if (s.heard p w).mismatch p then
      if ((s.heard p w).port p).st = .admitted then ((((s.heard p w).send p { kind := 5 }).quarantine p 2).ev 0x810 p []).sendDigest p
      else if ((s.heard p w).port p).localGrant then (s.heard p w).revoke p
      else s.heard p w
    else (s.heard p w).tryClear p := by
  have here : ¬(!((s.port p).live && w.kind == 2)) = true := by simp [live, kind]
  rw [heartbeatFlit, if_neg here, State.receive_passes pass]
  rfl

theorem heartbeatFlit_onLinks : (s.heard p w).OnLinks (heartbeatFlit s p w) := by
  have h := State.OnLinks.refl (s.heard p w)
  rw [heartbeatFlit_eq live kind pass]
  exact .ite (.ite h.send.quarantine.ev.sendDigest (.ite h.revoke h)) h.tryClear

end Heartbeat

theorem State.tryClear_waits (quiet : (s.port p).exch = false) : s.tryClear p = s := if_neg fun ⟨_, exch, _⟩ => by simp [quiet] at exch

/-- Only a heartbeat that does not match moves a port, from ADMITTED to QUARANTINE. -/
theorem heartbeatFlit_st (canonical : s.canonical = true) (live : (s.port p).live = true) (kind : w.kind = 2) (pass : (s.decode p w).2 = true)
    (quiet : (s.port p).exch = false) : ((heartbeatFlit s p w).port p).st =
      if (s.port p).st = .admitted ∧ s.hbMatch (leAt w.area 2 8, leAt w.area 10 8) (leAt w.area 18 8, leAt w.area 26 8) = false then .quarantine
      else (s.port p).st := by
  have st : ((s.heard p w).port p).st = (s.port p).st := State.heard_port_st
  rw [heartbeatFlit_eq live kind pass, State.heard_mismatch canonical, st]
  cases s.hbMatch (leAt w.area 2 8, leAt w.area 10 8) (leAt w.area 18 8, leAt w.area 26 8) with
  | true =>
    have quiet' : ((s.heard p w).port p).exch = false := by
      rw [State.heard, State.port_setRn, State.port_setRn, State.port_modPort]
      exact (congrArg Port.exch State.rxLink_session :).trans quiet
    simp only [Bool.not_true, Bool.false_eq_true, Bool.true_eq_false, and_false, if_false, State.tryClear_waits quiet', st]
  | false =>
    simp only [Bool.not_false, if_true, and_true]
    split
    · rw [State.sendDigest, Port.st_of_session ((State.memSendPort_routes _ p _).session p), State.port_modPort]
      exact congrArg Port.st ((State.port_ev _ _ _).trans (State.port_quarantine _))
    · next other =>
      have quar := (Port.live_iff.1 live).resolve_right other
      split
      · rw [State.revoke_st, quar]
      · exact st

theorem admitFlit_worksAt (live : (s.port p).live = true) (kind : w.kind = 4) (pass : (s.decode p w).2 = true) (nonce : leAt w.area 0 8 = (s.port p).nonce) :
    s.WorksAt p (admitFlit s p w) := by
  rw [admitFlit_grants live kind pass nonce]
  exact (State.WorksAt.refl s).received.modPort.tryAdmit

end PortStates

/-- Settles O43: each command of a port is one equation about the port's state, and what it does elsewhere is what work at one port can change. -/
theorem portStates : Obligations.PortStates := by
  unfold Obligations.PortStates
  intro s p w v lanes dev port nonce ser canonical pass x to_
  have here := State.WorksAt.refl (p := p) s
  refine ⟨fun down => ⟨?_, fun enabled => ?_⟩, fun up => ⟨?_, ?_⟩, fun train width => ?_, fun no => ?_, fun train => ?_, fun no => ?_,
    fun ident wired => ?_, fun ident miswired => ?_, fun no => ?_, fun zero retrain => ?_, fun i lane => State.testBit_lanesLost lane, fun live => ?_,
    fun dead => ?_, fun retrain narrow width noNak idle none => ?_, fun no => ?_, fun retrain => ?_, ⟨_, exec_lkCntClr, lkCntClr_clears canonical⟩⟩
  · exact here.setRn.portTo.moves exec_lkEnable (lkEnable_down down) (by rw [State.port_portTo])
  · exact here.portTo.moves exec_trainRetry (trainRetry_down down enabled) (by rw [State.port_portTo])
  · exact exec_next exec_trainRetry (trainRetry_up up)
  · exact exec_next exec_lkEnable (lkEnable_up up)
  · refine ⟨_, exec_next exec_trainComplete (trainComplete_ident train width), ?_⟩
    rw [State.port_emit, State.port_portTo, State.port_modPort]
    exact ⟨rfl, rfl, rfl, rfl, List.mem_append_right _ (List.mem_singleton_self _), (State.WorksAt.refl _).modPort.portTo.sends.mem⟩
  · exact exec_next exec_trainComplete (trainComplete_stays no)
  · exact here.portTo.moves exec_trainTimeout (trainTimeout_train train) (by rw [State.port_portTo])
  · exact exec_next exec_trainTimeout (trainTimeout_other no)
  · obtain ⟨work, to_⟩ := identFrame_wired (nonce := nonce) canonical ident wired
    exact work.moves exec_identFrame rfl to_
  · obtain ⟨work, to_⟩ := identFrame_miswired (nonce := nonce) canonical ident miswired
    exact work.moves exec_identFrame rfl to_
  · exact exec_next exec_identFrame (identFrame_other no)
  · exact ⟨_, exec_next exec_lkAdmit (lkAdmit_retrain zero retrain), rfl, rfl⟩
  · refine ⟨?_, fun some other => exec_next exec_lkAdmit (lkAdmit_other some other), fun some nonce mismatch => ?_, fun some nonce mismatch quar idle => ?_,
      fun kind idle => ?_, fun kind nonce quar idle => ?_, fun kind other => exec_next exec_admitLink (admitFlit_other live kind pass other), ?_,
      fun kind idle quiet => ?_, fun lost => ?_, fun none => exec_next exec_laneError (laneError_none none), ?_⟩
    · exact here.revoke.moves exec_lkAdmit (lkAdmit_zero live rfl) State.revoke_st
    · exact here.revoke.moves exec_lkAdmit (lkAdmit_mismatch live nonce mismatch) State.revoke_st
    · exact here.grant.moves exec_lkAdmit (lkAdmit_grants live some nonce mismatch) (State.grant_st quar)
    · exact here.received.quarantine.moves exec_revoke (revokeFlit_quarantines live kind pass) (by rw [State.port_quarantine])
    · exact (admitFlit_worksAt live kind pass nonce).moves exec_admitLink rfl (admitFlit_st live kind pass nonce quar)
    · exact ⟨_, _, exec_next exec_heartbeatTimer (heartbeatTimer_live live), State.send_out _, rfl, rfl, rfl⟩
    · have work := heartbeatFlit_onLinks live kind pass
      have heard := State.heard_canonical (p := p) (w := w) canonical
      exact ⟨_, exec_heartbeatFlit, (work.rn heard p (k := 0x30) (.inl (by decide))).trans (State.heard_epoch canonical),
        (work.rn heard p (k := 0x38) (.inl (by decide))).trans (State.heard_digest canonical),
        work.mem.trans State.heard_mem, heartbeatFlit_st canonical live kind pass quiet⟩
    · exact here.modPort.retrain.moves exec_laneError (laneError_retrains live lost) (State.retrain_st (by rw [State.port_modPort]; exact live))
    · exact here.modPort.retrain.moves exec_lkRetrain (lkRetrain_live live) (State.retrain_st (by rw [State.port_modPort]; exact live))
  · exact ⟨exec_next exec_heartbeatTimer (heartbeatTimer_dead dead), exec_next exec_heartbeatFlit (heartbeatFlit_dead dead),
      exec_next exec_lkRetrain (lkRetrain_dead dead), fun other => exec_next exec_lkAdmit (lkAdmit_dead dead other),
      exec_next exec_revoke (revokeFlit_dead dead), exec_next exec_admitLink (admitFlit_dead dead)⟩
  · obtain ⟨mem, st, wid, lan⟩ := retrainComplete_returns retrain narrow width noNak none
    exact ⟨_, exec_retrainComplete, st, wid, lan, mem⟩
  · exact ⟨exec_next exec_retrainComplete (retrainComplete_other no), exec_next exec_retrainTimeout (retrainTimeout_other no)⟩
  · exact here.portDown.moves exec_retrainTimeout (retrainTimeout_retrain retrain) (by rw [State.port_portDown])

end Sys2Proof.Machine

namespace Sys2Proof.Machine

/-! ## Epochs (R322, R323) -/

section Epochs
variable {s t u : State} {src e : Nat} {m : StageMsg}

theorem exec_stage : exec (.stage src m) s = .next (stageMsg s src m) := rfl
theorem exec_staged : exec (.staged src e) s = .next (stagedMsg s src e) := rfl
theorem exec_notStaged : exec (.notStaged e) s = .next (notStagedMsg s e) := rfl
theorem exec_stageTimeout : exec .stageTimeout s = .next (stageTimeout s) := rfl
theorem exec_switch : exec (.switch src e) s = .next (switchMsg s src e) := rfl
theorem exec_abort : exec (.abort src e) s = .next (abortMsg s src e) := rfl

/-! ### What the change of the epoch leaves to the links and to the commit (R225 to R230, R323) -/

theorem State.OnLinks.modCm {f : Cm → Cm} (h : s.OnLinks t) : s.OnLinks (t.modCm f) := h.trans ⟨rfl, .of_eq rfl rfl rfl rfl⟩
theorem State.OnLinks.release {kind status : Nat} {res : Bytes} (h : s.OnLinks t) : s.OnLinks (t.release kind status res) :=
  h.trans ⟨rfl, .of_eq rfl rfl rfl rfl⟩

theorem State.OnLinks.cmSendAll {typ step : Nat} (h : s.OnLinks t) : s.OnLinks (t.cmSendAll typ step) :=
  .foldl (fun h => h.routes (State.Routes.refl _).mgmtSend) h

theorem State.OnLinks.cmConclude (h : s.OnLinks t) : s.OnLinks t.cmConclude := by
  simp only [State.cmConclude]
  split
  · exact h
  · exact .ite h (.ite h.modCm.ev.cmSendAll (.ite h.modCm.ev.ev.cmSendAll (.ite h.modCm.ev h.modCm.ev.modCm)))

theorem State.OnLinks.cmEpoch {old : Option Nat} (h : s.OnLinks t) : s.OnLinks (t.cmEpoch old) := by
  obtain ⟨due, evaluated⟩ := t.cmEvaluate_due
  refine .ite h.modCm (.ite h.modCm (State.OnLinks.cmConclude ?_))
  rw [evaluated]
  exact h.modCm

theorem State.memSendAll_routes (s : State) (l : List Nat) (m : MemMsg) : s.Routes (s.memSendAll l m) :=
  List.foldlRecOn l _ (State.Routes.refl s) fun t h d _ => h.trans (t.memSend_routes d m)

/-! ### The image of an epoch changes no part of membership (R411) -/

theorem State.updEnd_mb {k : Fin 8} {r : UpdRun} {cause : Nat} : (s.updEnd k r cause).mb = s.mb := by
  have waited : (s.endWait k r.phase).mb = s.mb := by
    unfold State.endWait
    split
    · rw [State.addReg_mb]
    · rfl
  rw [State.updEnd, State.updFail, State.modUe_mb, State.setRn_mb, State.modUe_mb, waited]

theorem versionExhausted_mb {k : Fin 8} : (versionExhausted s k).mb = s.mb := by
  rw [versionExhausted]
  split
  · rfl
  split
  · rfl
  split
  · split
    · rfl
    · rw [State.updEnd_mb, State.addReg_mb, State.ev_mb]
  · rfl

theorem vtCfgWrite_mb {k : Fin 8} {v : Nat} : (vtCfgWrite s k v).mb = s.mb := by
  rw [vtCfgWrite]
  split
  · rfl
  · rw [versionExhausted_mb, State.setRn_mb]

theorem State.applyEntry_mb {entry : Nat × Nat} : (s.applyEntry entry).mb = s.mb := by
  rw [State.applyEntry]
  split
  · rw [pwThermWrite, State.setRn_mb]
  split
  · rw [pwThermWrite, State.setRn_mb]
  split
  · exact vtCfgWrite_mb
  · rw [State.accessWrite]
    split
    · rfl
    · rw [State.setRn_mb]

theorem State.applyImage_mb {b : Bytes} : (s.applyImage b).mb = s.mb :=
  List.foldlRecOn (motive := fun t : State => t.mb = s.mb) _ _ rfl fun _ same _ _ => State.applyEntry_mb.trans same

theorem State.nextCfg_mb : s.nextCfg.mb = s.mb := rfl

/-! ### An epoch takes force (R323) -/

/-- The registers of the pair in force and of this module's number, as an epoch takes force. -/
def State.forced (s : State) (m : StageMsg) : State :=
  ((((s.setRn R.LK_EPOCH m.epoch).setRn R.LK_DIGEST (leAt m.digest 0 8)).setRn R.LK_STAGED_EPOCH 0).setRn R.LK_STAGED_DIGEST 0).setRn R.LK_DEV
    (if (s.stagedMembers m).contains s.straps then 65536 + s.straps else 0)

/-- A state with other members, where the windows of some devices restart. -/
def State.regrouped (s : State) (members : List Nat) (fresh : Nat → Bool) : State :=
  let t := { s with members := members }
  { t with e2eTx := t.e2eTx.filter (fun w => !fresh w.dst), e2eRx := t.e2eRx.filter (fun w => !fresh w.src) }

theorem State.regrouped_rn (members : List Nat) (fresh : Nat → Bool) (a : Nat) : (s.regrouped members fresh).rn a = s.rn a := rfl
theorem State.regrouped_mem (members : List Nat) (fresh : Nat → Bool) : (s.regrouped members fresh).mem = s.mem := rfl
theorem State.regrouped_mb (members : List Nat) (fresh : Nat → Bool) : (s.regrouped members fresh).mb = s.mb := rfl
theorem State.regrouped_counts (members : List Nat) (fresh : Nat → Bool) {c : Nat → Prop} : s.Counts c (s.regrouped members fresh) := .of_eq rfl rfl rfl rfl

/-- The state as an epoch takes force: the registers, the members, and the windows that restart. -/
def State.inForce (s : State) (m : StageMsg) : State :=
  (s.forced m).regrouped (if (s.stagedMembers m).contains s.straps then s.stagedMembers m else [])
    (fun d => m.added.contains d || (!s.member && (s.stagedMembers m).contains d))

theorem State.inForce_rn (a : Nat) : (s.inForce m).rn a = (s.forced m).rn a := State.regrouped_rn _ _ a
theorem State.inForce_members : (s.inForce m).members = if (s.stagedMembers m).contains s.straps then s.stagedMembers m else [] := rfl

theorem State.inForce_mem : (s.inForce m).mem = s.mem := by
  simp only [State.inForce, State.regrouped_mem, State.forced, State.setRn_mem]

theorem State.inForce_mb : (s.inForce m).mb = s.mb := by
  simp only [State.inForce, State.regrouped_mb, State.forced, State.setRn_mb]

theorem State.forced_canonical (canonical : s.canonical = true) : (s.forced m).canonical = true :=
  (State.Keeps.refl s).setRn.setRn.setRn.setRn.setRn.2 canonical

theorem State.inForce_canonical (canonical : s.canonical = true) : (s.inForce m).canonical = true :=
  (State.regrouped_counts (c := linkCounter) _ _ (State.forced_canonical canonical)).1

theorem State.rn_modMb {f : Memb → Memb} (a : Nat) : (s.modMb f).rn a = s.rn a := rfl
theorem State.mb_modMb {f : Memb → Memb} : (s.modMb f).mb = f s.mb := rfl

/-- The membership state once an epoch has taken force. -/
def State.membIn (s : State) (m : StageMsg) (b : Memb) : Memb :=
  { b with
    image := s.stagedImage m, newImage := if s.takes m then none else b.newImage, digest := m.digest, staged := none, lastStage := some m,
    leading := false, await := [], replyTo := none, suspects := [], query := none, leavers := [],
    joining := b.joining && !(s.stagedMembers m).contains s.straps, joins := b.joins.filter (fun d => !m.added.contains d) }

/-- The pair takes force; then the links change, the image where the epoch brings one, the membership state, and the links and the commit again. -/
theorem State.switchTo_steps (s : State) (m : StageMsg) : ∃ a b, (s.inForce m).OnLinks a ∧ (b.mb = a.mb ∧ (s.mb.newImage = none → b = a))
    ∧ (b.modMb (s.membIn m)).OnLinks (s.switchTo m) := by
  unfold State.switchTo
  extract_lets old was l inNew s1 s2 fresh s3 s4 takes s5 s6 s7 s8 s9 s10 s11 s12
  have links : s3.OnLinks s4 := .foldl (fun h => .ite h (.ite h.quarantine (.ite h.modPort h))) (.refl s3)
  have image : s5.mb = s4.mb ∧ (s.mb.newImage = none → s5 = s4) := by
    refine ⟨?_, fun none => if_neg (by simp [takes, State.takes, none])⟩
    simp only [s5]
    split
    · rw [State.nextCfg_mb, State.applyImage_mb]
    · rfl
  have changed : s6.OnLinks s11 :=
    have logged : s6.OnLinks s8 := .foldl (fun h => h.ev) (.foldl (fun h => h.ev) (State.OnLinks.refl s6).ev)
    have nine : s6.OnLinks s9 := .ite logged.release logged
    have ten : s6.OnLinks s10 := .ite nine.release nine
    .ite ten.release ten
  have cleared : s6.OnLinks s12 := .foldl (fun h => .ite h.sendDigest.tryClear h) changed
  exact ⟨s4, s5, links, image, cleared.cmEpoch⟩

/-- An epoch that takes force leaves no staged change, and keeps what is gathered for the next one. -/
theorem State.switchTo_mb (s : State) (m : StageMsg) : (s.switchTo m).mb.staged = none ∧ (s.switchTo m).mb.nextImage = s.mb.nextImage
    ∧ (s.switchTo m).mb.nextAdd = s.mb.nextAdd ∧ (s.switchTo m).mb.nextRem = s.mb.nextRem := by
  obtain ⟨a, b, links, ⟨same, -⟩, rest⟩ := s.switchTo_steps m
  rw [rest.mb, State.mb_modMb, same, links.mb, State.inForce_mb]
  exact ⟨rfl, rfl, rfl, rfl⟩

/-- Without a new image, the links' registers but counters are as the epoch sets them when it takes force. -/
theorem State.switchTo_frame (noImage : s.mb.newImage = none) (m : StageMsg) : (s.switchTo m).mem = s.mem
    ∧ (s.switchTo m).members = (if (s.stagedMembers m).contains s.straps then s.stagedMembers m else [])
    ∧ (s.canonical = true → ∀ k, 0x2000 ≤ k ∧ k < 0x2800 → (s.switchTo m).rn (LK.base 0 + k) = (s.forced m).rn (LK.base 0 + k)) := by
  obtain ⟨a, b, links, ⟨-, same⟩, rest⟩ := s.switchTo_steps m
  rw [same noImage] at rest
  refine ⟨?_, ?_, fun canonical k place => ?_⟩
  · rw [rest.mem, State.modMb_mem, links.mem, State.inForce_mem]
  · rw [rest.members, State.modMb_members, links.members, State.inForce_members]
  · have canonical' : (s.inForce m).canonical = true := State.inForce_canonical canonical
    have member : (a.modMb (s.membIn m)).canonical = true := (links.counts canonical').1
    rw [rest.rn_router member place, State.rn_modMb, links.rn_router canonical' place, State.inForce_rn]

/-- The five registers that an epoch sets as it takes force. -/
theorem State.forced_rn (canonical : s.canonical = true) (m : StageMsg) : (s.forced m).rn R.LK_EPOCH = m.epoch % 2 ^ 64
    ∧ (s.forced m).rn R.LK_STAGED_EPOCH = 0 ∧ (s.forced m).rn R.LK_STAGED_DIGEST = 0
    ∧ (s.forced m).rn R.LK_DEV = (if (s.stagedMembers m).contains s.straps then 65536 + s.straps else 0) % 2 ^ 64 := by
  have c1 := (s.setRn_keeps R.LK_EPOCH m.epoch).2 canonical
  have c2 := (State.setRn_keeps _ R.LK_DIGEST (leAt m.digest 0 8)).2 c1
  have c3 := (State.setRn_keeps _ R.LK_STAGED_EPOCH 0).2 c2
  have c4 := (State.setRn_keeps _ R.LK_STAGED_DIGEST 0).2 c3
  have apart : (R.LK_EPOCH ≠ R.LK_DEV ∧ R.LK_EPOCH ≠ R.LK_STAGED_DIGEST ∧ R.LK_EPOCH ≠ R.LK_STAGED_EPOCH ∧ R.LK_EPOCH ≠ R.LK_DIGEST)
      ∧ (R.LK_STAGED_EPOCH ≠ R.LK_DEV ∧ R.LK_STAGED_EPOCH ≠ R.LK_STAGED_DIGEST) ∧ R.LK_STAGED_DIGEST ≠ R.LK_DEV := by decide
  simp only [State.forced, State.rn_setRn c4, State.rn_setRn c3, State.rn_setRn c2, State.rn_setRn c1, State.rn_setRn canonical, apart, if_true, if_false,
    Nat.zero_mod, and_self]

/-- The module is a member of an epoch that takes force if and only if the epoch has its strapped number. -/
theorem State.switchTo_member (canonical : s.canonical = true) (straps : s.straps < 2 ^ 16) (noImage : s.mb.newImage = none) (m : StageMsg) :
    (s.switchTo m).member = (s.stagedMembers m).contains s.straps := by
  obtain ⟨-, -, kept⟩ := State.switchTo_frame noImage m
  obtain ⟨-, -, -, dev⟩ := State.forced_rn canonical m
  have reg : (s.switchTo m).rn R.LK_DEV = _ := (kept canonical 0x2000 (by decide)).trans dev
  rw [State.member, State.rbit, reg]
  cases (s.stagedMembers m).contains s.straps with
  | true =>
    rw [if_pos rfl, Nat.mod_eq_of_lt (by omega), show 65536 = 2 ^ 16 from rfl, Nat.testBit_two_pow_add_eq, Nat.testBit_lt_two_pow straps]
    rfl
  | false => exact Nat.zero_testBit 16

theorem State.switchTo_epoch (canonical : s.canonical = true) (noImage : s.mb.newImage = none) (m : StageMsg) :
    (s.switchTo m).rn R.LK_EPOCH = m.epoch % 2 ^ 64 ∧ (s.switchTo m).rn R.LK_STAGED_EPOCH = 0 ∧ (s.switchTo m).rn R.LK_STAGED_DIGEST = 0 := by
  obtain ⟨-, -, kept⟩ := State.switchTo_frame noImage m
  obtain ⟨epoch, staged, digest, -⟩ := State.forced_rn canonical m
  exact ⟨(kept canonical 0x2030 (by decide)).trans epoch, (kept canonical 0x2040 (by decide)).trans staged, (kept canonical 0x2048 (by decide)).trans digest⟩

/-! ### The staged change is given up (R323) -/

theorem State.clearStaged_eq (noImage : s.mb.newImage = none) : s.clearStaged =
    ((s.setRn R.LK_STAGED_EPOCH 0).setRn R.LK_STAGED_DIGEST 0).modMb (fun b => { b with staged := none, leading := false, await := [], replyTo := none }) := by
  have old (m : StageMsg) : s.takes m = false := by simp [State.takes, noImage]
  have none : s.mb.staged.any s.takes = false := by cases s.mb.staged <;> simp [old]
  simp only [State.clearStaged, none, Bool.false_eq_true, if_false]

theorem State.clearStaged_rn (canonical : s.canonical = true) (noImage : s.mb.newImage = none) : s.clearStaged.rn R.LK_EPOCH = s.rn R.LK_EPOCH
    ∧ s.clearStaged.rn R.LK_STAGED_EPOCH = 0 ∧ s.clearStaged.rn R.LK_STAGED_DIGEST = 0 := by
  have c1 := (s.setRn_keeps R.LK_STAGED_EPOCH 0).2 canonical
  have apart : (R.LK_EPOCH ≠ R.LK_STAGED_DIGEST ∧ R.LK_EPOCH ≠ R.LK_STAGED_EPOCH) ∧ R.LK_STAGED_EPOCH ≠ R.LK_STAGED_DIGEST := by decide
  have same (a : Nat) : s.clearStaged.rn a = ((s.setRn R.LK_STAGED_EPOCH 0).setRn R.LK_STAGED_DIGEST 0).rn a := by rw [State.clearStaged_eq noImage]; rfl
  simp only [same, State.rn_setRn c1, State.rn_setRn canonical, apart, if_true, if_false, Nat.zero_mod, and_self]

/-! ### The messages of the two phases (R323) -/

/-- Does a STAGE fit: is this module in membership or joining, is its epoch the next one, and is its digest that of the record built here? -/
def State.stageFits (s : State) (m : StageMsg) : Bool :=
  (s.member || s.mb.joining) && (m.epoch == (if s.member then s.epoch + 1 else m.epoch)) && (recordDigest (s.stagedImage m) (s.stagedMembers m) m.epoch == m.digest)

/-- The state once a change that came from `src` is staged. -/
def State.stagedPair (s : State) (src : Nat) (m : StageMsg) : State :=
  ((s.setRn R.LK_STAGED_EPOCH m.epoch).setRn R.LK_STAGED_DIGEST (leAt m.digest 0 8)).modMb (fun b =>
    { b with staged := some m, leading := false, await := s.treeKids m src, replyTo := some src })

theorem stageMsg_unfit (unfit : s.stageFits m = false) : stageMsg s src m = s.memSend src (.notStaged m.epoch) := by
  refine if_pos ?_
  rw [State.stageFits] at unfit
  simp only [bne, ← Bool.not_and, unfit, Bool.not_false]

theorem stageMsg_fits (fits : s.stageFits m = true) : stageMsg s src m =
    if (s.treeKids m src).isEmpty then (s.stagedPair src m).memSend src (.staged m.epoch) else (s.stagedPair src m).memSendAll (s.treeKids m src) (.stage m) := by
  refine if_neg ?_
  rw [State.stageFits] at fits
  simp only [bne, ← Bool.not_and, fits, Bool.not_true, Bool.false_eq_true, not_false_eq_true]

section NoneStaged
variable (none : s.mb.staged = none)
include none

theorem stagedMsg_none : stagedMsg s src e = s := by simp only [stagedMsg, none]
theorem notStagedMsg_none : notStagedMsg s e = s := by simp only [notStagedMsg, none]
theorem switchMsg_none : switchMsg s src e = s := by simp only [switchMsg, none]
theorem abortMsg_none : abortMsg s src e = s := by simp only [abortMsg, none]
theorem stageTimeout_none : stageTimeout s = s := by simp only [stageTimeout, none]

end NoneStaged

/-- The state once a child has staged. -/
def State.heardFrom (s : State) (src : Nat) : State := s.modMb (fun b => { b with await := b.await.filter (· != src) })

theorem State.heardFrom_mb : (s.heardFrom src).mb = { s.mb with await := s.mb.await.filter (· != src) } := rfl

section Staged
variable (staged : s.mb.staged = some m)
include staged

section OtherEpoch
variable (other : m.epoch ≠ e)
include other

theorem stagedMsg_other : stagedMsg s src e = s := by simp only [stagedMsg, staged, other, ne_eq, not_false_eq_true, true_or, if_true]
theorem notStagedMsg_other : notStagedMsg s e = s := by simp only [notStagedMsg, staged, other, ne_eq, not_false_eq_true, if_true]
theorem switchMsg_other : switchMsg s src e = s := by simp only [switchMsg, staged, other, ne_eq, not_false_eq_true, true_or, if_true]
theorem abortMsg_other : abortMsg s src e = s := by simp only [abortMsg, staged, other, ne_eq, not_false_eq_true, if_true]

end OtherEpoch

theorem stageTimeout_leads (leading : s.mb.leading = true) : stageTimeout s = s.leadAbort m := by simp only [stageTimeout, staged, leading, if_true]
theorem stageTimeout_follows (follows : s.mb.leading = false) : stageTimeout s = s := by
  simp only [stageTimeout, staged, follows, Bool.false_eq_true, if_false]

theorem switchMsg_leads (leading : s.mb.leading = true) : switchMsg s src e = s := by simp only [switchMsg, staged, leading, or_true, if_true]

section ThisEpoch
variable (epoch : m.epoch = e)
include epoch

theorem notStagedMsg_leads (leading : s.mb.leading = true) : notStagedMsg s e = s.leadAbort m := by
  simp only [notStagedMsg, staged, epoch, leading, ne_eq, not_true_eq_false, if_false, if_true]

theorem notStagedMsg_follows {parent : Nat} (follows : s.mb.leading = false) (reply : s.mb.replyTo = some parent) :
    notStagedMsg s e = s.memSend parent (.notStaged e) := by
  simp only [notStagedMsg, staged, epoch, follows, reply, ne_eq, not_true_eq_false, Bool.false_eq_true, if_false]

theorem switchMsg_follows (follows : s.mb.leading = false) : switchMsg s src e = (s.switchTo m).memSendAll (s.treeKids m src) (.switch e) := by
  simp only [switchMsg, staged, epoch, follows, ne_eq, not_true_eq_false, Bool.false_eq_true, or_self, if_false]

theorem abortMsg_this : abortMsg s src e = s.clearStaged.memSendAll (s.treeKids m src) (.abort e) := by
  simp only [abortMsg, staged, epoch, ne_eq, not_true_eq_false, if_false]

section Awaited
variable (awaited : s.mb.await.contains src = true)
include awaited

theorem stagedMsg_eq : stagedMsg s src e =
    if !(s.heardFrom src).mb.await.isEmpty then s.heardFrom src
    else if (s.heardFrom src).mb.leading then ((s.heardFrom src).leadSwitch m).stageRest
    else
      match (s.heardFrom src).mb.replyTo with
      | some p => (s.heardFrom src).memSend p (.staged e)
      | none => s.heardFrom src := by
  have here : ¬(m.epoch ≠ e ∨ (!s.mb.await.contains src) = true) := by
    rw [awaited]
    simp [epoch]
  rw [stagedMsg, staged]
  exact if_neg here

theorem stagedMsg_waits (more : s.mb.await.filter (· != src) ≠ []) : stagedMsg s src e = s.heardFrom src := by
  rw [stagedMsg_eq staged epoch awaited, if_pos]
  rw [State.heardFrom_mb, List.isEmpty_eq_false_iff.2 more]
  rfl

section Last
variable (last : s.mb.await.filter (· != src) = [])
include last

theorem stagedMsg_last : stagedMsg s src e =
    if s.mb.leading then ((s.heardFrom src).leadSwitch m).stageRest
    else
      match s.mb.replyTo with
      | some p => (s.heardFrom src).memSend p (.staged e)
      | none => s.heardFrom src := by
  rw [stagedMsg_eq staged epoch awaited, if_neg, State.heardFrom_mb]
  rw [State.heardFrom_mb, last]
  exact Bool.false_ne_true

theorem stagedMsg_follows {parent : Nat} (follows : s.mb.leading = false) (reply : s.mb.replyTo = some parent) :
    stagedMsg s src e = (s.heardFrom src).memSend parent (.staged e) := by
  rw [stagedMsg_last staged epoch awaited last, follows, reply]
  rfl

/-- The leader switches, and starts no other change where nothing has been gathered. -/
theorem stagedMsg_leads (leading : s.mb.leading = true) (noImage : s.mb.nextImage = none) (noAdd : s.mb.nextAdd = []) (noRem : s.mb.nextRem = []) :
    stagedMsg s src e = ((s.heardFrom src).switchTo m).memSendAll ((s.heardFrom src).leadKids m) (.switch e) := by
  obtain ⟨-, image, add, rem⟩ := (s.heardFrom src).switchTo_mb m
  have mb : ((s.heardFrom src).leadSwitch m).mb = ((s.heardFrom src).switchTo m).mb := (State.memSendAll_routes _ _ _).sends.mb
  rw [stagedMsg_last staged epoch awaited last, if_pos leading, State.stageRest, if_pos, State.leadSwitch, epoch]
  rw [mb, image, add, rem, State.heardFrom_mb]
  simp [noImage, noAdd, noRem]

end Last

end Awaited

end ThisEpoch

end Staged

end Epochs

/-- Settles O46: each message of the two phases is one equation under its conditions, and the change of the epoch is a chain of steps of which only the
first sets the pair in force. -/
theorem epochChanges : Obligations.EpochChanges := by
  unfold Obligations.EpochChanges
  intro s src e m canonical straps l fits kids pair
  refine ⟨fun unfit => exec_next exec_stage (stageMsg_unfit unfit), fun fit none => ?_, fun fit some => ?_, fun none => ?_, fun staged => ⟨fun other => ?_, fun epoch => ?_⟩,
    fun noImage => ⟨?_, ?_⟩⟩
  · exact exec_next exec_stage ((stageMsg_fits fit).trans (if_pos (List.isEmpty_iff.2 none)))
  · exact exec_next exec_stage ((stageMsg_fits fit).trans (if_neg fun none => some (List.isEmpty_iff.1 none)))
  · exact ⟨exec_next exec_staged (stagedMsg_none none), exec_next exec_notStaged (notStagedMsg_none none), exec_next exec_switch (switchMsg_none none),
      exec_next exec_abort (abortMsg_none none), exec_next exec_stageTimeout (stageTimeout_none none)⟩
  · exact ⟨exec_next exec_staged (stagedMsg_other staged other), exec_next exec_notStaged (notStagedMsg_other staged other),
      exec_next exec_switch (switchMsg_other staged other), exec_next exec_abort (abortMsg_other staged other)⟩
  · have abort : s.leadAbort m = (s.clearStaged.memSendAll (s.leadKids m) (.abort e)).stageRest := by rw [State.leadAbort, epoch]
    refine ⟨fun awaited more => exec_next exec_staged (stagedMsg_waits staged epoch awaited more),
      fun awaited last follows p reply => exec_next exec_staged (stagedMsg_follows staged epoch awaited last follows reply),
      fun awaited last leading noImage noAdd noRem => exec_next exec_staged (stagedMsg_leads staged epoch awaited last leading noImage noAdd noRem),
      fun leading => ⟨exec_next exec_notStaged ((notStagedMsg_leads staged epoch leading).trans abort), exec_next exec_switch (switchMsg_leads staged leading),
        exec_next exec_stageTimeout ((stageTimeout_leads staged leading).trans abort)⟩,
      fun follows => ⟨exec_next exec_switch (switchMsg_follows staged epoch follows), exec_next exec_stageTimeout (stageTimeout_follows staged follows),
        fun p reply => exec_next exec_notStaged (notStagedMsg_follows staged epoch follows reply)⟩,
      exec_next exec_abort (abortMsg_this staged epoch)⟩
  · obtain ⟨mem, members, -⟩ := State.switchTo_frame noImage m
    obtain ⟨epoch, stagedEpoch, stagedDigest⟩ := State.switchTo_epoch canonical noImage m
    exact ⟨epoch, stagedEpoch, stagedDigest, (s.switchTo_mb m).1, State.switchTo_member canonical straps noImage m, members, mem⟩
  · obtain ⟨epoch, stagedEpoch, stagedDigest⟩ := State.clearStaged_rn canonical noImage
    refine ⟨epoch, stagedEpoch, stagedDigest, ?_⟩
    rw [State.clearStaged_eq noImage]
    exact ⟨rfl, rfl, rfl⟩

end Sys2Proof.Machine

namespace Sys2Proof.Machine

/-! ## Suspects and joins (R321, R322, R324, R326, R327, R386) -/

section Suspects
variable {s t : State} {p q : Fin 16} {d n e : Nat} {h : Bool} {m : Option StageMsg} {dg sig : Bytes}

theorem exec_partnerLost : exec (.partnerLost p) s = .next (partnerLost s p) := rfl
theorem exec_suspect : exec (.suspect d) s = .next (suspectMsg s d) := rfl
theorem exec_probe : exec (.probe d n) s = .next (probeMsg s d n) := rfl
theorem exec_probeAck : exec (.probeAck d n) s = .next (probeAckMsg s d n) := rfl
theorem exec_probeTimeout : exec .probeTimeout s = .next (probeTimeout s) := rfl
theorem exec_memberQuery : exec (.memberQuery d) s = .next (memberQuery s d) := rfl
theorem exec_memberState : exec (.memberState d e h m) s = .next (memberState s d e h m) := rfl
theorem exec_join {port : Option (Fin 16)} : exec (.join port d dg) s = .next (joinMsg s port d dg) := rfl
theorem exec_joinBatchExpiry : exec .joinBatchExpiry s = .next (joinBatch s) := rfl
theorem exec_challenge : exec (.challenge p dg) s = .next (challengeMsg s p dg) := rfl
theorem exec_memberResponse : exec (.memberResponse p sig) s = .next (memberResponse s p sig) := rfl
theorem exec_joinRetry : exec .joinRetry s = .next (joinRetry s) := rfl
theorem exec_memberDigest : exec (.memberDigest p dg) s = .next (memberDigest s p dg) := rfl
theorem exec_runningImageRequest : exec (.runningImageRequest d) s = .next (runningImage s d) := rfl

/-! ### Suspicion (R321, R324) -/

/-- The state without the joins of a device that are pending. -/
def State.unjoined (s : State) (d : Nat) : State := s.modMb (fun b => { b with joins := b.joins.filter (· != d), nextAdd := b.nextAdd.filter (· != d) })

/-- The state with a probe of a device under way, whose nonce has been drawn. -/
def State.probed (s : State) (d : Nat) : State :=
  (s.unjoined d).draw.modMb (fun b => { b with probes := b.probes ++ [(d, (Config.freeWord s.freeCtr).toNat)] })

theorem suspectMsg_drops (no : s.member = false ∨ s.joined d = false ∨ d = s.dev ∨ s.mb.probes.any (fun x => x.1 == d) = true) :
    suspectMsg s d = s.unjoined d := by
  refine if_pos ?_
  rcases no with member | joined | own | out
  · simp [member]
  · simp [joined]
  · simp [own]
  · rw [out, Bool.or_true]

theorem suspectMsg_probes (member : s.member = true) (joined : s.joined d = true) (other : d ≠ s.dev) (none : s.mb.probes.any (fun x => x.1 == d) = false) :
    suspectMsg s d = (s.probed d).memSend d (.probe (Config.freeWord s.freeCtr).toNat) :=
  if_neg (by rw [member, joined, none, bne_iff_ne.2 other]; decide)

/-- What word of a lost partner leaves as it was: memory, the members, the states of the ports, and the registers but counters. -/
structure State.Tells (s t : State) : Prop where
  mem : t.mem = s.mem
  members : t.members = s.members
  ports : ∀ q, (t.port q).st = (s.port q).st
  counts : s.Counts linkCounter t

theorem State.Tells.refl (s : State) : s.Tells s := ⟨rfl, rfl, fun _ => rfl, .refl s⟩

theorem State.Tells.send (h : s.Tells t) (d : Nat) (m : MemMsg) : s.Tells (t.memSend d m) :=
  have sent := t.memSend_routes d m
  ⟨sent.sends.mem.trans h.mem, sent.sends.members.trans h.members, fun q => (Port.st_of_session (sent.session q)).trans (h.ports q),
    h.counts.trans sent.counts⟩

theorem suspectMsg_tells (s : State) (d : Nat) : s.Tells (suspectMsg s d) := by
  have dropped : s.Tells (s.unjoined d) := ⟨rfl, rfl, fun _ => rfl, .of_eq rfl rfl rfl rfl⟩
  have probed : s.Tells (s.probed d) := ⟨rfl, rfl, fun _ => rfl, .of_eq rfl rfl rfl rfl⟩
  by_cases no : s.member = false ∨ s.joined d = false ∨ d = s.dev ∨ s.mb.probes.any (fun x => x.1 == d) = true
  · rw [suspectMsg_drops no]
    exact dropped
  · simp only [not_or, Bool.not_eq_false, Bool.not_eq_true] at no
    obtain ⟨member, joined, other, none⟩ := no
    rw [suspectMsg_probes member joined other none]
    exact probed.send d _

/-! ### A partner that is lost (R321) -/

/-- The state once a port is DOWN for a lost partner. -/
def State.lost (s : State) (p : Fin 16) : State := (s.ev 0x805 p []).portDown p

theorem partnerLost_dead (dead : (s.port p).live = false) : partnerLost s p = s := by simp [partnerLost, dead]

theorem partnerLost_tells (live : (s.port p).live = true) : (s.lost p).Tells (partnerLost s p) := by
  have stays := State.Tells.refl (s.lost p)
  have here : ¬(!(s.port p).live) = true := by simp [live]
  rw [partnerLost, if_neg here]
  change (s.lost p).Tells (if !(s.lost p).member then _ else _)
  split
  · exact stays
  split
  · split
    · exact suspectMsg_tells _ _
    · exact stays.send _ _
  · exact stays

theorem State.lost_keeps (canonical : s.canonical = true) : ((s.lost p).port p).st = .down ∧ (s.lost p).mem = s.mem ∧ (s.lost p).members = s.members
    ∧ (s.lost p).canonical = true ∧ (s.lost p).epoch = s.epoch := by
  have down : s.OnLinks (((s.ev 0x805 p []).portTo p .down).modPort p (fun x => { x.fresh with st := .down })) := (State.OnLinks.refl s).ev.portTo.modPort
  have canonical' := (down.counts canonical).1
  have canonical'' := (State.setRn_keeps _ (R.LK_HB_EPOCH p) 0).2 canonical'
  have epoch : R.LK_EPOCH ≠ R.LK_HB_EPOCH p := lk_apart 0 p (by decide : 0x2030 % 0x4000 ≠ 0x30 % 0x4000)
  have digest : R.LK_EPOCH ≠ R.LK_HB_DIGEST p := lk_apart 0 p (by decide : 0x2030 % 0x4000 ≠ 0x38 % 0x4000)
  refine ⟨by rw [State.lost, State.port_portDown], ?_, ?_, ?_, ?_⟩
  · rw [State.lost, State.portDown, State.setRn_mem, State.setRn_mem, down.mem]
  · rw [State.lost, State.portDown, State.setRn_members, State.setRn_members, down.members]
  · exact (State.setRn_keeps _ _ _).2 canonical''
  · rw [State.lost, State.portDown, State.epoch, State.rn_setRn_ne canonical'' digest, State.rn_setRn_ne canonical' epoch]
    exact down.rn_router canonical (k := 0x2030) (by decide)

/-! ### Probes (R324, R326) -/

theorem State.stageIfFree_follows (follows : s.isLeader = false) : s.stageIfFree = s := if_neg (by simp [follows])
theorem State.stageIfFree_busy (busy : s.mb.staged ≠ none) : s.stageIfFree = s :=
  if_neg (by simp [Option.isNone_iff_eq_none, busy])

theorem probeTimeout_none (none : s.mb.probes = []) : probeTimeout s = s := by simp only [probeTimeout, none]

/-- Who leads depends on no other part of the membership state than the suspects. -/
theorem State.isLeader_modMb {f : Memb → Memb} (same : (f s.mb).suspects = s.mb.suspects) : (s.modMb f).isLeader = s.isLeader :=
  congrArg (fun l => s.member && s.lowestBut l == some s.dev) same

section Oldest
variable {rest : List (Nat × Nat)} (oldest : s.mb.probes = (d, n) :: rest)
include oldest

/-- The oldest probe ends: a device that is no member is forgotten, the leader becomes suspect, and any other member is to leave. -/
theorem probeTimeout_eq : probeTimeout s =
    if !s.joined d then s.modMb (fun b => { b with probes := rest })
    else if s.leader = some d then
      let s2 := s.modMb (fun b => { b with probes := rest, suspects := b.suspects ++ [d] })
      if s2.isLeader then
        ((s2.modMb (fun b => { b with query := some [] })).memSendAll (s2.allMembers.filter (fun x => x != s.dev && !s2.mb.suspects.contains x))
          (.query (s.epoch, s.rn R.LK_DIGEST) (s.rn R.LK_STAGED_EPOCH, s.rn R.LK_STAGED_DIGEST))).leadConclude
      else s2
    else (s.modMb (fun b => { b with probes := rest, nextRem := b.nextRem ++ (if b.nextRem.contains d then [] else [d]) })).stageIfFree := by
  rw [probeTimeout, oldest]
  rfl

theorem probeTimeout_stranger (stranger : s.joined d = false) : probeTimeout s = s.modMb (fun b => { b with probes := rest }) := by
  rw [probeTimeout_eq oldest, if_pos (by rw [stranger]; rfl)]

theorem probeTimeout_follows (joined : s.joined d = true) (other : s.leader ≠ some d) (follows : s.isLeader = false) : probeTimeout s =
    s.modMb (fun b => { b with probes := rest, nextRem := b.nextRem ++ (if b.nextRem.contains d then [] else [d]) }) := by
  rw [probeTimeout_eq oldest, if_neg (by simp [joined]), if_neg other]
  exact State.stageIfFree_follows ((State.isLeader_modMb rfl).trans follows)

theorem probeTimeout_leaderLost (joined : s.joined d = true) (leader : s.leader = some d) : probeTimeout s =
    let s2 := s.modMb (fun b => { b with probes := rest, suspects := b.suspects ++ [d] })
    if s2.isLeader then
      ((s2.modMb (fun b => { b with query := some [] })).memSendAll (s2.allMembers.filter (fun x => x != s.dev && !s2.mb.suspects.contains x))
        (.query (s.epoch, s.rn R.LK_DIGEST) (s.rn R.LK_STAGED_EPOCH, s.rn R.LK_STAGED_DIGEST))).leadConclude
    else s2 := by
  rw [probeTimeout_eq oldest, if_neg (by simp [joined]), if_pos leader]

end Oldest

/-! ### What members report to a new leader (R326) -/

/-- The state once the report of a member has been noted. -/
def State.reported (s : State) (rs : List (Nat × Nat × Bool × Option StageMsg)) (d e : Nat) (h : Bool) (m : Option StageMsg) : State :=
  s.modMb (fun b => { b with query := some (rs.filter (fun r => r.1 != d) ++ [(d, e, h, m)]) })

section Takeover
variable {rs : List (Nat × Nat × Bool × Option StageMsg)} {o : Nat}

theorem memberState_none (none : s.mb.query = none) : memberState s d e h m = s := by simp only [memberState, none]

/-- A takeover waits for a member that has not reported. -/
theorem State.leadConclude_waits (query : s.mb.query = some rs) (member : o ∈ s.allMembers) (other : o ≠ s.dev) (trusted : s.mb.suspects.contains o = false)
    (silent : ∀ r ∈ rs, r.1 ≠ o) : s.leadConclude = s := by
  have missing : s.allMembers.all (fun d => d == s.dev || s.mb.suspects.contains d || rs.any (fun r => r.1 == d)) = false := by
    refine List.all_eq_false.2 ⟨o, member, ?_⟩
    have unheard : rs.any (fun r => r.1 == o) = false := List.any_eq_false.2 fun r mem => by simp [silent r mem]
    rw [trusted, unheard, beq_false_of_ne other]
    decide
  simp only [State.leadConclude, query, missing, Bool.not_false, if_true]

theorem memberState_waits (query : s.mb.query = some rs) (member : o ∈ s.allMembers) (other : o ≠ s.dev) (trusted : s.mb.suspects.contains o = false)
    (silent : o ≠ d) (silent' : ∀ r ∈ rs, r.1 ≠ o) : memberState s d e h m = s.reported rs d e h m := by
  have eq : memberState s d e h m = (s.reported rs d e h m).leadConclude := by simp only [memberState, query]; rfl
  rw [eq, State.leadConclude_waits (s := s.reported rs d e h m) rfl member other trusted]
  intro r mem
  rcases List.mem_append.1 mem with old | new
  · exact silent' r (List.mem_filter.1 old).1
  · rw [List.mem_singleton.1 new]
    exact Ne.symm silent

end Takeover

/-! ### Joining (R327) -/

/-- The state once the joins that are due have been gathered for the next epoch. -/
def State.batched (s : State) : State :=
  s.modMb (fun b => { b with nextAdd := b.nextAdd ++ b.joins.filter (fun d => !b.nextAdd.contains d), joins := [] })

/-- The state once a challenge to a port has been answered. -/
def State.answered (s : State) (p : Fin 16) : State := s.modMb (fun b => { b with chal := b.chal.filter (fun e => e.1 != p.val) })

/-- The state once a port has been challenged for a chain. -/
def State.challenged (s : State) (p : Fin 16) (chain : Bytes) : State :=
  ({ s with freeCtr := s.freeCtr + 48 } : State).modMb (fun b => { b with chal := b.chal.filter (fun e => e.1 != p.val) ++ [(p.val, freeBytes s.freeCtr 48, chain)] })

theorem joinMsg_ignored (no : s.member = false ∨ (s.port p).live = false) : joinMsg s (some p) d dg = s := by
  refine if_pos ?_
  rcases no with member | dead
  · simp [member]
  · simp [dead]

theorem joinMsg_challenges (member : s.member = true) (live : (s.port p).live = true) :
    joinMsg s (some p) d dg = (s.challenged p dg).memSendPort p (.challenge (freeBytes s.freeCtr 48)) :=
  if_neg (by simp [member, live])

theorem joinMsg_batched (leads : s.isLeader = true) (fresh : s.mb.joins.contains d = false) :
    joinMsg s none d dg = s.modMb (fun b => { b with joins := b.joins ++ [d] }) :=
  if_pos (by rw [leads, fresh]; decide)

theorem joinMsg_dropped (no : s.isLeader = false ∨ s.mb.joins.contains d = true) : joinMsg s none d dg = s := by
  refine if_neg ?_
  rcases no with follows | known
  · simp [follows]
  · rw [known]
    simp

theorem joinBatch_none (no : s.isLeader = false ∨ s.mb.joins = []) : joinBatch s = s := by
  refine if_pos ?_
  rcases no with follows | none
  · simp [follows]
  · simp [none]

theorem joinBatch_busy (leads : s.isLeader = true) (some : s.mb.joins ≠ []) (busy : s.mb.staged ≠ none) : joinBatch s = s.batched := by
  rw [joinBatch, if_neg (by simp [leads, some])]
  exact State.stageIfFree_busy (s := s.batched) busy

theorem challengeMsg_signs (joining : s.mb.joining = true) (outside : s.member = false) (production : s.rfld R.FZ_LIFECYCLE 1 0 = 1) : challengeMsg s p dg =
    s.memSendPort p (.response ((padTo 96 (Config.identitySign (joinDigest dg s.straps (s.partner p) s.mb.image))).take 96)) :=
  if_pos (by simp [joining, outside, production])

theorem challengeMsg_ignored (no : s.mb.joining = false ∨ s.member = true ∨ s.rfld R.FZ_LIFECYCLE 1 0 ≠ 1) : challengeMsg s p dg = s := by
  refine if_neg ?_
  rcases no with idle | member | other
  · simp [idle]
  · simp [member]
  · simp [other]

theorem joinRetry_asks (joining : s.mb.joining = true) (outside : s.member = false) (stays : s.rfld R.FZ_LIFECYCLE 1 0 ≠ 2)
    (found : (List.finRange 16).find? (fun p => (s.port p).st == .quarantine) = some q) : joinRetry s = s.memSendPort q (.join none s.certChain) := by
  simp only [joinRetry, joining, outside, Bool.not_false, Bool.and_self, if_true, State.sendJoin, stays, if_false, found]

theorem joinRetry_ignored (no : s.mb.joining = false ∨ s.member = true ∨ s.rfld R.FZ_LIFECYCLE 1 0 = 2) : joinRetry s = s := by
  unfold joinRetry
  rcases no with idle | member | returns
  · simp [idle]
  · simp [member]
  · simp [State.sendJoin, returns]

/-! ### The checks of a response (R327) -/

section Response
variable {c chain : Bytes}

theorem memberResponse_ignored (no : s.mb.chal.find? (fun x => x.1 == p.val) = none ∨ s.member = false) : memberResponse s p sig = s := by
  unfold memberResponse
  split
  · rfl
  · next found => exact if_pos (by simpa [found] using no)

section Challenged
variable (member : s.member = true) (found : s.mb.chal.find? (fun x => x.1 == p.val) = some (p.val, c, chain))
include member found

theorem memberResponse_eq : memberResponse s p sig =
    if s.joinFault p c chain sig ≠ 0 then
      ((s.answered p).ev 0x820 p (leBytes 1 (s.joinFault p c chain sig))).memSendPort p (.refused (s.joinFault p c chain sig))
    else
      match s.leader with
      | some o => if o = s.dev then joinMsg (s.answered p) none (s.partner p) chain else (s.answered p).memSend o (.join (some (s.partner p)) chain)
      | none => s.answered p := by
  have here : ¬(!s.member) = true := by simp [member]
  rw [memberResponse, found]
  exact if_neg here

theorem memberResponse_refused {reason : Nat} (fault : s.joinFault p c chain sig = reason) (some : reason ≠ 0) :
    memberResponse s p sig = ((s.answered p).ev 0x820 p (leBytes 1 reason)).memSendPort p (.refused reason) := by
  rw [memberResponse_eq member found, fault, if_pos some]

theorem memberResponse_forwards {o : Nat} (passes : s.joinFault p c chain sig = 0) (leader : s.leader = some o) (other : o ≠ s.dev) :
    memberResponse s p sig = (s.answered p).memSend o (.join (some (s.partner p)) chain) := by
  rw [memberResponse_eq member found, passes, leader]
  simp only [ne_eq, not_true_eq_false, if_false, other]

end Challenged

/-! The first check that fails gives the reason. -/

section Reasons
variable (good : Config.chainEnds ((s.mb.image.drop 32).take 48) chain = true)
  (valid : Config.signatureValid chain (joinDigest c (s.partner p) s.dev s.mb.image) sig = true)

theorem joinFault_chain (bad : Config.chainEnds ((s.mb.image.drop 32).take 48) chain = false) : s.joinFault p c chain sig = 1 := by
  simp only [State.joinFault, bad, Bool.not_false, if_true]

include good

theorem joinFault_signature (bad : Config.signatureValid chain (joinDigest c (s.partner p) s.dev s.mb.image) sig = false) : s.joinFault p c chain sig = 2 := by
  simp only [State.joinFault, good, bad, Bool.not_true, Bool.not_false, Bool.false_eq_true, if_false, if_true]

include valid

theorem joinFault_number (held : s.allMembers.contains (s.partner p) = true) : s.joinFault p c chain sig = 4 := by
  simp only [State.joinFault, good, valid, held, Bool.not_true, Bool.false_eq_true, if_false, if_true]

theorem joinFault_wiring (free : s.allMembers.contains (s.partner p) = false) (unwired : ((s.port p).live && (s.port p).ident) = false) :
    s.joinFault p c chain sig = 5 := by
  simp only [State.joinFault, good, valid, free, unwired, Bool.not_true, Bool.not_false, Bool.false_eq_true, if_false, if_true]

theorem joinFault_none (free : s.allMembers.contains (s.partner p) = false) (wired : ((s.port p).live && (s.port p).ident) = true) :
    s.joinFault p c chain sig = 0 := by
  simp only [State.joinFault, good, valid, free, wired, Bool.not_true, Bool.false_eq_true, if_false]

end Reasons

end Response

/-! ### Full digests (R322) -/

/-- A port whose partner's full digest is known. -/
def Port.told (x : Port) (dg : Bytes) : Port := { x with peerDig := some dg }

/-- A port whose mismatch is over. -/
def Port.agreed (x : Port) : Port := { x with qcause := 0, exch := false, peerDig := none }

/-- The state once both ends of a port agree again. -/
def State.agreed (s : State) (p : Fin 16) : State := (s.modPort p Port.agreed).ev 0x811 p []

theorem State.agreed_port : (s.agreed p).port p = (s.port p).agreed := by rw [State.agreed, State.port_ev, State.port_modPort]
theorem State.agreed_onLinks : s.OnLinks (s.agreed p) := (State.OnLinks.refl s).modPort.ev

/-- Work on the links that leaves the last heartbeat of a port leaves it matching or not. -/
theorem State.OnLinks.mismatch (work : s.OnLinks t) (canonical : s.canonical = true) (hb : (t.port p).hb = (s.port p).hb)
    (staged : (t.port p).staged = (s.port p).staged) : t.mismatch p = s.mismatch p := by
  have e : t.rn R.LK_EPOCH = s.rn R.LK_EPOCH := work.rn_router canonical (k := 0x2030) (by decide)
  have d : t.rn R.LK_DIGEST = s.rn R.LK_DIGEST := work.rn_router canonical (k := 0x2038) (by decide)
  have se : t.rn R.LK_STAGED_EPOCH = s.rn R.LK_STAGED_EPOCH := work.rn_router canonical (k := 0x2040) (by decide)
  have sd : t.rn R.LK_STAGED_DIGEST = s.rn R.LK_STAGED_DIGEST := work.rn_router canonical (k := 0x2048) (by decide)
  have he : t.rn (R.LK_HB_EPOCH p) = s.rn (R.LK_HB_EPOCH p) := work.rn canonical p (k := 0x30) (.inl (by decide))
  have hd : t.rn (R.LK_HB_DIGEST p) = s.rn (R.LK_HB_DIGEST p) := work.rn canonical p (k := 0x38) (.inl (by decide))
  simp only [State.mismatch, State.hbMatch, e, d, se, sd, he, hd, hb, staged]

/-- Where both ends agree, the port is granted. -/
theorem State.tryClear_grants (canonical : s.canonical = true) (quar : (s.port p).st = .quarantine) (exch : (s.port p).exch = true)
    (cause : (s.port p).qcause = 2 ∨ (s.port p).qcause = 3) (dig : (s.port p).peerDig = some s.mb.digest) (epoch : s.rn (R.LK_HB_EPOCH p) = s.rn R.LK_EPOCH)
    (member : s.member = true) (matches_ : s.mismatch p = false) (nonce : s.rn (R.LK_NONCE p) ≠ 0) : s.tryClear p = (s.agreed p).grant p := by
  have port : (s.agreed p).port p = (s.port p).agreed := State.agreed_port
  have kept : (s.agreed p).rn (R.LK_NONCE p) = s.rn (R.LK_NONCE p) := State.agreed_onLinks.rn canonical p (k := 0x20) (.inl (by decide))
  have word : s.rn (R.LK_NONCE p) % 2 ^ 64 = s.rn (R.LK_NONCE p) := Nat.mod_eq_of_lt (State.rn_lt s _)
  have here : s.tryClear p = lkAdmit (s.agreed p) p (s.rn (R.LK_NONCE p)) := if_pos ⟨quar, exch, cause, dig, epoch, member, matches_⟩
  rw [here]
  refine lkAdmit_grants (Port.live_of_quarantine (by rw [port]; exact quar)) (by rw [word]; exact nonce) (by rw [word, kept]) ?_
  rw [State.agreed_onLinks.mismatch canonical (by rw [port]; rfl) (by rw [port]; rfl)]
  exact matches_

theorem memberDigest_other (other : (s.port p).st ≠ .quarantine) : memberDigest s p dg = s := if_pos other

theorem memberDigest_eq (quar : (s.port p).st = .quarantine) :
    memberDigest s p dg = (if (s.port p).exch then s.modPort p (·.told dg) else (s.modPort p (·.told dg)).sendDigest p).tryClear p :=
  if_neg (not_not.2 quar)

/-- A digest that does not agree is answered with the own, and clears nothing. -/
theorem memberDigest_answers (quar : (s.port p).st = .quarantine) (first : (s.port p).exch = false) (other : dg ≠ s.mb.digest) :
    memberDigest s p dg = (s.modPort p (·.told dg)).sendDigest p := by
  rw [memberDigest_eq quar, if_neg (by simp [first])]
  have sent := State.memSendPort_routes ((s.modPort p (·.told dg)).modPort p (fun y => { y with exch := true })) p (.digest s.mb.digest)
  have dig : (((s.modPort p (·.told dg)).sendDigest p).port p).peerDig = some dg := by
    refine (congrArg Port.peerDig (sent.session p) :).trans ?_
    rw [State.port_modPort, State.port_modPort]
    rfl
  have own : ((s.modPort p (·.told dg)).sendDigest p).mb = s.mb := sent.sends.mb
  refine if_neg fun agrees => ?_
  obtain ⟨-, -, -, same, -⟩ := agrees
  rw [dig, own] at same
  exact other (Option.some.inj same)

theorem memberDigest_grants (canonical : s.canonical = true) (quar : (s.port p).st = .quarantine) (exch : (s.port p).exch = true)
    (cause : (s.port p).qcause = 2 ∨ (s.port p).qcause = 3) (agrees : dg = s.mb.digest) (epoch : s.rn (R.LK_HB_EPOCH p) = s.epoch)
    (member : s.member = true) (matches_ : s.mismatch p = false) (nonce : s.rn (R.LK_NONCE p) ≠ 0) :
    memberDigest s p dg = ((s.modPort p (·.told dg)).agreed p).grant p := by
  have told := (State.OnLinks.refl s).modPort (p := p) (g := (·.told dg))
  have port : (s.modPort p (·.told dg)).port p = (s.port p).told dg := by rw [State.port_modPort]
  rw [memberDigest_eq quar, if_pos exch]
  refine State.tryClear_grants (told.counts canonical).1 (by rw [port]; exact quar) (by rw [port]; exact exch) (by rw [port]; exact cause)
    (by rw [port, told.mb, agrees]; rfl) epoch member ?_ nonce
  rw [told.mismatch canonical (by rw [port]; rfl) (by rw [port]; rfl)]
  exact matches_

/-- A port that is granted where both ends agree. -/
theorem State.agreed_grant (quar : (s.port p).st = .quarantine) : (((s.agreed p).grant p).port p).localGrant = true
    ∧ (((s.agreed p).grant p).port p).qcause = 0 ∧ (((s.agreed p).grant p).port p).st = (if (s.port p).remoteGrant = true then .admitted else .quarantine) := by
  have session := State.grant_session (s := s.agreed p) (p := p) (by rw [State.agreed_port]; exact quar)
  have st := State.grant_st (s := s.agreed p) (p := p) (by rw [State.agreed_port]; exact quar)
  rw [State.agreed_port] at session st
  refine ⟨(congrArg Port.localGrant session :).trans ?_, (congrArg Port.qcause session :).trans ?_, st⟩
  · split
    · rfl
    · rfl
  · split
    · rfl
    · rfl

/-! ### Images (R386) -/

theorem runningImage_member (member : s.allMembers.contains d = true) : runningImage s d = s.memSendParts d .image s.runImage := if_pos member
theorem runningImage_stranger (stranger : s.allMembers.contains d = false) : runningImage s d = s := if_neg (by rw [stranger]; decide)

end Suspects

/-- Settles O47: each message is one equation under its conditions; a lost partner and a digest that agrees follow the port's own rules. -/
theorem suspectsAndJoins : Obligations.SuspectsAndJoins := by
  unfold Obligations.SuspectsAndJoins
  intro s p d n e h m dg sig canonical drop
  refine ⟨fun dead => exec_next exec_partnerLost (partnerLost_dead dead), fun live => ?_, fun no => exec_next exec_suspect (suspectMsg_drops no),
    fun member joined other none => exec_next exec_suspect (suspectMsg_probes member joined other none), exec_probe, exec_probeAck,
    fun none => exec_next exec_probeTimeout (probeTimeout_none none),
    fun rest oldest => ⟨fun stranger => ?_, fun joined other follows => ?_, fun joined leader => ⟨fun follows => ?_, fun leads => ?_⟩⟩,
    exec_memberQuery, fun none => exec_next exec_memberState (memberState_none none),
    fun rs o query member other trusted silent silent' => exec_next exec_memberState (memberState_waits query member other trusted silent silent'),
    fun no => exec_next exec_join (joinMsg_ignored no), fun member live => exec_next exec_join (joinMsg_challenges member live),
    fun leads fresh => exec_next exec_join (joinMsg_batched leads fresh), fun no => exec_next exec_join (joinMsg_dropped no),
    fun no => exec_next exec_joinBatchExpiry (joinBatch_none no), fun leads some busy => exec_next exec_joinBatchExpiry (joinBatch_busy leads some busy),
    fun joining outside production => exec_next exec_challenge (challengeMsg_signs joining outside production),
    fun no => exec_next exec_challenge (challengeMsg_ignored no), fun no => exec_next exec_memberResponse (memberResponse_ignored no),
    fun c chain member found => ?_, fun joining outside stays q found => exec_next exec_joinRetry (joinRetry_asks joining outside stays found),
    fun no => exec_next exec_joinRetry (joinRetry_ignored no), fun quar exch cause agrees epoch member matches_ nonce _ => ?_,
    fun quar first other => exec_next exec_memberDigest (memberDigest_answers quar first other),
    fun other => exec_next exec_memberDigest (memberDigest_other other), fun member => exec_next exec_runningImageRequest (runningImage_member member),
    fun stranger => exec_next exec_runningImageRequest (runningImage_stranger stranger)⟩
  · have tells := partnerLost_tells live
    obtain ⟨st, mem, members, canonical', epoch⟩ := State.lost_keeps (p := p) canonical
    exact ⟨_, exec_partnerLost, (tells.ports p).trans st, tells.mem.trans mem, tells.members.trans members,
      ((tells.counts canonical').2 _ (not_linkCounter 0 (k := 0x2030) (by decide))).trans epoch⟩
  · exact exec_next exec_probeTimeout (probeTimeout_stranger oldest stranger)
  · exact exec_next exec_probeTimeout (probeTimeout_follows oldest joined other follows)
  · exact exec_next exec_probeTimeout ((probeTimeout_leaderLost oldest joined leader).trans (if_neg (by rw [follows]; decide)))
  · exact exec_next exec_probeTimeout ((probeTimeout_leaderLost oldest joined leader).trans (if_pos leads))
  · exact ⟨fun bad => exec_next exec_memberResponse (memberResponse_refused member found (joinFault_chain bad) (by decide)),
      fun good bad => exec_next exec_memberResponse (memberResponse_refused member found (joinFault_signature good bad) (by decide)),
      fun good valid held => exec_next exec_memberResponse (memberResponse_refused member found (joinFault_number good valid held) (by decide)),
      fun good valid free unwired => exec_next exec_memberResponse (memberResponse_refused member found (joinFault_wiring good valid free unwired) (by decide)),
      fun good valid free wired o leader other =>
        exec_next exec_memberResponse (memberResponse_forwards member found (joinFault_none good valid free wired) leader other)⟩
  · have quar' : ((s.modPort p (·.told dg)).port p).st = .quarantine := by rw [State.port_modPort]; exact quar
    obtain ⟨own, cause', st⟩ := State.agreed_grant quar'
    refine ⟨_, exec_next exec_memberDigest (memberDigest_grants canonical quar exch cause agrees epoch member matches_ nonce), own, cause', ?_, ?_⟩
    · rw [st, State.port_modPort]
      rfl
    · exact ((State.OnLinks.refl s).modPort.modPort.ev.grant).mem

end Sys2Proof.Machine

namespace Sys2Proof.Machine

/-! ## Flits in order (R307 to R318, R329) -/

section Flits
variable {s t u : State} {p q : Fin 16} {w : Wire} {f : Flit} {a : Arrival} {vc k dst pseq src : Nat} {rest : List (Nat × Flit)}

theorem exec_idleFlit : exec (.idleFlit p w) s = .next (idleFlit s p w) := rfl
theorem exec_dataFlit : exec (.dataFlit p w a) s = .next (dataFlit s p w a) := rfl
theorem exec_nak : exec (.nak p w) s = .next (nakFlit s p w) := rfl
theorem exec_escapeWaitExpiry : exec (.escapeWaitExpiry p vc) s = .next (escapeExpiry s p vc) := rfl
theorem exec_e2eAck : exec .e2eAck s = .next (e2eAck s) := rfl
theorem exec_e2eTimeout : exec (.e2eTimeout dst pseq) s = .next (e2eTimeout s dst pseq) := rfl
theorem exec_e2eAckTimer : exec (.e2eAckTimer src) s = .next (e2eAckTimer s src) := rfl

/-! ### What the reception of a flit changes -/

/-- The counters that every flit moves: of codewords corrected and failed, of flits sent and of flits received (R330). -/
def passingCounter (a : Nat) : Prop := ∃ (q : Fin 16) (i : Fin 8), (i = 0 ∨ i = 1 ∨ i = 5 ∨ i = 6) ∧ a = R.LK_COUNT q i

theorem passingCounter_of_sentCounter {a : Nat} : sentCounter a → passingCounter a := fun ⟨q, same⟩ => ⟨q, 5, by decide, same⟩
theorem linkCounter_of_passingCounter {a : Nat} : passingCounter a → linkCounter a := fun ⟨q, i, _, same⟩ => .inl ⟨q, i, same⟩

theorem not_passingCounter_port {i : Fin 8} (other : ¬(i = 0 ∨ i = 1 ∨ i = 5 ∨ i = 6)) : ¬passingCounter (R.LK_COUNT p i) := by
  rintro ⟨q, j, passing, same⟩
  have index : i = j := by
    simp only [R.LK_COUNT, LK.base] at same
    omega
  exact other (index ▸ passing)

theorem not_passingCounter_router {i : Fin 5} : ¬passingCounter (R.LK_RCOUNT i) := by
  rintro ⟨q, j, -, same⟩
  simp only [R.LK_COUNT, R.LK_RCOUNT, LK.base] at same
  omega

/-- What a flit changes before it is accepted: of the registers only passing counters, and neither the inbox nor memory. -/
structure State.Receives (s t : State) : Prop where
  inbox : t.inbox = s.inbox
  mem : t.mem = s.mem
  counts : s.Counts passingCounter t

theorem State.Receives.refl (s : State) : s.Receives s := ⟨rfl, rfl, .refl s⟩
theorem State.Receives.trans (h : s.Receives t) (k : t.Receives u) : s.Receives u := ⟨k.inbox.trans h.inbox, k.mem.trans h.mem, h.counts.trans k.counts⟩
theorem State.Receives.modPort {g : Port → Port} (h : s.Receives t) : s.Receives (t.modPort q g) := h.trans ⟨rfl, rfl, .of_eq rfl rfl rfl rfl⟩
theorem State.Transmits.receives (h : s.Transmits t) : s.Receives t := ⟨h.inbox, h.mem, h.counts.mono fun _ => passingCounter_of_sentCounter⟩

theorem State.Receives.portCount {i : Fin 8} {n : Nat} (passing : i = 0 ∨ i = 1 ∨ i = 5 ∨ i = 6) (h : s.Receives t) : s.Receives (t.portCount q i n) :=
  h.trans ⟨rfl, rfl, .setRn ⟨q, i, passing, rfl⟩⟩

theorem State.Receives.ite {c : Prop} {_ : Decidable c} (h : s.Receives t) (k : s.Receives u) : s.Receives (if c then t else u) := by
  split
  · exact h
  · exact k

theorem State.Receives.decode (h : s.Receives t) : s.Receives (t.decode p w).1 := by
  refine .ite (h.modPort.trans ⟨rfl, rfl, .setRn ⟨p, ⟨b2n (t.codeFails p w), ?_⟩, ?_, rfl⟩⟩) h.modPort
  · cases t.codeFails p w <;> decide
  · cases t.codeFails p w <;> decide

theorem State.rxLink_receives : s.Receives (s.rxLink p w) :=
  have counted : s.Receives ((s.modPort p (·.acked w)).portCount p 6 1) := (State.Receives.refl s).modPort.portCount (i := 6) (by decide)
  counted.trans (State.Transmits.refl _).pump.receives

/-- A reception leaves the device number. -/
theorem State.Receives.dev (h : s.Receives t) (canonical : s.canonical = true) : t.dev = s.dev :=
  congrArg (bits · 15 0) ((h.counts canonical).2 R.LK_DEV fun passing => not_linkCounter 0 (k := 0x2000) (by decide) (linkCounter_of_passingCounter passing))

theorem State.decode_out : (s.decode p w).1.out = s.out := by
  rw [State.decode_eq]
  split
  · rfl
  · rfl

/-! ### The decoder and a flit that it fails (R307, R311) -/

theorem State.decode_corrects (few : w.errs ≤ 15) (clean : (s.port p).cwBad = false) : (s.decode p w).2 = true := by
  simp [State.decode_eq, State.codeFails, clean, few]

section Uncorrectable
variable (many : 15 < w.errs) (begins : (codewordIn (s.port p).rxFlits).isSome = true)
include many begins

theorem State.codeFails_of_begins : s.codeFails p w = true := by simp [State.codeFails, State.codeBegins, many, begins]

theorem State.decode_fails : (s.decode p w).2 = false := by
  simp only [State.decode_eq, State.codeFails_of_begins many begins, Bool.true_or, Bool.not_true]

theorem State.decode_counts (canonical : s.canonical = true) : (s.decode p w).1.rn (R.LK_COUNT p 1) = (s.rn (R.LK_COUNT p 1) + 1) % 2 ^ 64 := by
  have begins' : (s.codeBegins p && decide (0 < w.errs)) = true := by simp [State.codeBegins, begins, Nat.lt_trans (by decide : 0 < 15) many]
  have canonical' : (s.modPort p (·.decoded (s.codeBegins p) true)).canonical = true := canonical
  rw [State.decode_eq, State.codeFails_of_begins many begins, if_pos begins']
  exact (State.rn_addReg canonical' _ _ 1).trans (if_pos rfl)

end Uncorrectable

theorem State.receive_fails (fails : (s.decode p w).2 = false) (g : State → State) : s.receive p w g = (s.decode p w).1.crcBad p w :=
  if_neg (by rw [fails]; decide)

/-- A flit that fails while it is forwarded leaves at most a stomped copy (R310). -/
theorem State.stompOut_steps : s.Receives (s.stompOut p w) ∧ (s.stompOut p w).ports = s.ports ∧ ∃ l, (s.stompOut p w).out = s.out ++ l := by
  have same : s.Receives s ∧ s.ports = s.ports ∧ ∃ l, s.out = s.out ++ l := ⟨.refl s, rfl, [], (List.append_nil _).symm⟩
  have drawn : s.Receives s.draw ∧ s.draw.ports = s.ports ∧ ∃ l, s.draw.out = s.out ++ l := ⟨⟨rfl, rfl, .of_eq rfl rfl rfl rfl⟩, rfl, [], (List.append_nil _).symm⟩
  unfold State.stompOut
  split
  · exact same
  split
  · exact same
  split
  · dsimp only
    split
    · exact ⟨.portCount (i := 5) (by decide) ⟨rfl, rfl, .of_eq rfl rfl rfl rfl⟩, rfl, _, rfl⟩
    · exact drawn
  · exact same

theorem State.stompOut_receives : s.Receives (s.stompOut p w) := State.stompOut_steps.1
theorem State.port_stompOut : (s.stompOut p w).port q = s.port q := State.port_of_ports State.stompOut_steps.2.1 q

theorem State.sendNak_transmits : (s.modPort p (fun y => { y with discard := true })).Transmits (s.sendNak p) := (State.Transmits.refl _).send

theorem State.sendNak_rxSeq : ((s.sendNak p).port p).rxSeq = (s.port p).rxSeq := by
  refine (congrArg Port.rxSeq (State.sendNak_transmits.session p) :).trans ?_
  rw [State.port_modPort]
  rfl

theorem State.sendNak_receives : s.Receives (s.sendNak p) := (State.Receives.refl s).modPort.trans State.sendNak_transmits.receives

theorem State.sendNak_out : ∃ g, (s.sendNak p).out = s.out ++ [.flit p g] ∧ g.kind = 3 ∧ g.lseq = (s.port p).rxSeq := ⟨_, State.send_out _, rfl, rfl⟩

theorem State.crcBad_naks : ∃ g l, (s.crcBad p w).out = s.out ++ l ++ [.flit p g] ∧ g.kind = 3 ∧ g.lseq = (s.port p).rxSeq := by
  obtain ⟨-, ports, l, out⟩ := State.stompOut_steps (s := s) (p := p) (w := w)
  obtain ⟨g, out', kind, lseq⟩ := State.sendNak_out (s := (s.stompOut p w).portCount p 2 1) (p := p)
  refine ⟨g, l, ?_, kind, ?_⟩
  · rw [State.crcBad, out', State.portCount, State.addReg_out, out]
  · rw [lseq, State.port_portCount, State.port_of_ports ports]

theorem State.crcBad_inbox : (s.crcBad p w).inbox = s.inbox := by
  rw [State.crcBad, State.sendNak_receives.inbox, State.portCount, State.addReg_inbox, State.stompOut_receives.inbox]

theorem State.crcBad_rxSeq : ((s.crcBad p w).port p).rxSeq = (s.port p).rxSeq := by
  rw [State.crcBad, State.sendNak_rxSeq, State.port_portCount, State.port_stompOut]

theorem State.crcBad_counts (canonical : s.canonical = true) : (s.crcBad p w).rn (R.LK_COUNT p 2) = (s.rn (R.LK_COUNT p 2) + 1) % 2 ^ 64 := by
  have quiet : ¬passingCounter (R.LK_COUNT p 2) := not_passingCounter_port (i := 2) (by decide)
  obtain ⟨canonical', kept⟩ := State.stompOut_receives (s := s) (p := p) (w := w) |>.counts canonical
  have canonical'' : ((s.stompOut p w).portCount p 2 1).canonical = true := (State.addReg_keeps _ _ _).2 canonical'
  rw [State.crcBad, (State.sendNak_receives.counts canonical'').2 _ quiet, State.portCount, State.rn_addReg canonical', if_pos rfl, kept _ quiet]

/-! ### Flits that a live port receives -/

/-- The state once the decoder has passed a flit and its link word has been read. -/
def State.linked (s : State) (p : Fin 16) (w : Wire) : State := (s.decode p w).1.rxLink p w

/-- A port after the decoder and the link word of a flit. -/
def State.linkedPort (s : State) (p : Fin 16) (w : Wire) : Port := ((s.port p).decoded (s.codeBegins p) (s.codeFails p w)).acked w

theorem State.linked_receives : s.Receives (s.linked p w) := (State.Receives.refl s).decode.trans State.rxLink_receives

section Idle
variable (idle : (s.port p).wait = [])
include idle

theorem State.linked_eq : s.linked p w = ((s.decode p w).1.modPort p (·.acked w)).portCount p 6 1 :=
  State.rxLink_idle (by rw [State.port_decode]; exact idle)

theorem State.port_linked : (s.linked p w).port p = s.linkedPort p w := by
  rw [State.linked_eq idle, State.port_portCount, State.port_modPort, State.port_decode]
  rfl

theorem State.linked_out : (s.linked p w).out = s.out := by
  rw [State.linked_eq idle, State.portCount, State.addReg_out]
  exact State.decode_out

end Idle

theorem idleFlit_eq (live : (s.port p).live = true) (kind : w.kind = 0) : idleFlit s p w = s.receive p w (·.rxLink p w) := if_pos (by simp [live, kind])
theorem idleFlit_dead (dead : (s.port p).live = false) : idleFlit s p w = s := if_neg (by simp [dead])
theorem dataFlit_dead (dead : (s.port p).live = false) : dataFlit s p w a = s := if_pos (by simp [dead])
theorem nakFlit_other (other : w.kind ≠ 3) : nakFlit s p w = s := if_pos other

theorem Port.st_ne_retrain_of_live {x : Port} (live : x.live = true) : x.st ≠ .retrain := fun retrain => by
  rw [Port.not_live_of_retrain retrain] at live
  cases live

theorem nakFlit_eq (live : (s.port p).live = true) (kind : w.kind = 3) :
    nakFlit s p w = s.receive p w (fun s => (s.rxLink p w).replayFrom p w.lseq) := by
  simp only [nakFlit, kind, ne_eq, not_true_eq_false, if_false, Port.st_ne_retrain_of_live live, live, if_true]

/-- Whatever its kind, a flit that the decoder fails fails its CRC. -/
theorem flit_fails (live : (s.port p).live = true) (fails : (s.decode p w).2 = false) :
    (w.kind = 0 → idleFlit s p w = (s.decode p w).1.crcBad p w) ∧ (∀ a, dataFlit s p w a = (s.decode p w).1.crcBad p w)
    ∧ (w.kind = 2 → heartbeatFlit s p w = (s.decode p w).1.crcBad p w) ∧ (w.kind = 3 → nakFlit s p w = (s.decode p w).1.crcBad p w)
    ∧ (w.kind = 4 → admitFlit s p w = (s.decode p w).1.crcBad p w) ∧ (w.kind = 5 → revokeFlit s p w = (s.decode p w).1.crcBad p w) := by
  have failed := State.receive_fails fails
  refine ⟨fun kind => ?_, fun a => ?_, fun kind => ?_, fun kind => ?_, fun kind => ?_, fun kind => ?_⟩
  · rw [idleFlit_eq live kind, failed]
  · rw [dataFlit, if_neg (by simp [live]), failed]
  · rw [heartbeatFlit, if_neg (by simp [live, kind]), failed]
  · rw [nakFlit_eq live kind, failed]
  · rw [admitFlit, if_pos (by simp [live, kind]), failed]
  · rw [revokeFlit, if_pos (by simp [live, kind]), failed]

end Flits
end Sys2Proof.Machine

namespace Sys2Proof.Machine

/-! ### A good flit (R310, R311) -/

section DataFlits
variable {s t u : State} {p q : Fin 16} {w : Wire} {f : Flit}

/-- A port that has accepted the flit that it expected. -/
def Port.next (x : Port) : Port := { x with rxSeq := (x.rxSeq + 1) % 4096, rxAny := true, discard := false, sinceCr := x.sinceCr + 1 }

/-- A port a flit of which takes a buffer of a channel. -/
def Port.buffered (x : Port) (vc : Nat) : Port := { x with room := x.room.set vc (x.room.getD vc 0 - 1) }

/-- A failing flit is counted and asked for again by a NAK with the number that the port expects (R311). -/
theorem State.decode_crcBad (canonical : s.canonical = true) : ∃ g l, ((s.decode p w).1.crcBad p w).out = s.out ++ l ++ [.flit p g] ∧ g.kind = 3
    ∧ g.lseq = (s.port p).rxSeq ∧ ((s.decode p w).1.crcBad p w).inbox = s.inbox ∧ (((s.decode p w).1.crcBad p w).port p).rxSeq = (s.port p).rxSeq
    ∧ ((s.decode p w).1.crcBad p w).rn (R.LK_COUNT p 2) = (s.rn (R.LK_COUNT p 2) + 1) % 2 ^ 64 := by
  have decoded : s.Receives (s.decode p w).1 := (State.Receives.refl s).decode
  have rxSeq : ((s.decode p w).1.port p).rxSeq = (s.port p).rxSeq := by rw [State.port_decode]; rfl
  have quiet : ¬passingCounter (R.LK_COUNT p 2) := not_passingCounter_port (i := 2) (by decide)
  obtain ⟨canonical', kept⟩ := decoded.counts canonical
  obtain ⟨g, l, out, kind, lseq⟩ := State.crcBad_naks (s := (s.decode p w).1) (p := p) (w := w)
  rw [State.decode_out] at out
  refine ⟨g, l, out, kind, lseq.trans rxSeq, State.crcBad_inbox.trans decoded.inbox, State.crcBad_rxSeq.trans rxSeq, ?_⟩
  rw [State.crcBad_counts canonical', kept _ quiet]

/-- The state once a flit addressed here is in the inbox. -/
def State.delivered (s : State) (p : Fin 16) (f : Flit) : State := { s with inbox := s.inbox ++ [(p.val, f)] }

theorem State.delivered_inbox : (s.delivered p f).inbox = s.inbox ++ [(p.val, f)] := rfl
theorem State.delivered_port : (s.delivered p f).port q = s.port q := rfl
theorem State.delivered_mem : (s.delivered p f).mem = s.mem := rfl

/-- The state once a flit has taken a buffer of its channel, and left it again. -/
def State.passed (s : State) (p : Fin 16) (vc : Nat) : State := (s.modPort p (·.buffered vc)).freeBuf (some (p.val, vc))

theorem State.passed_transmits (vc : Nat) : s.Transmits (s.passed p vc) := ((State.Transmits.refl s).modPort (g := (·.buffered vc)) rfl).freeBuf

theorem Port.rxSeq_of_session {x y : Port} (h : x.session = y.session) : x.rxSeq = y.rxSeq := (congrArg Port.rxSeq h :)

theorem State.portTo_inbox {st : PortSt} : (s.portTo p st).inbox = s.inbox := by
  simp only [State.portTo]
  split
  · rfl
  · rw [State.ev_inbox]
    rfl

theorem State.quarantine_inbox {cause : Nat} : (s.quarantine p cause).inbox = s.inbox := State.portTo_inbox

/-- The state after a good flit out of order: a NAK asks for the one expected, unless one is out. -/
def State.outOfOrder (s : State) (p : Fin 16) (w : Wire) : State := if (s.port p).discard then s.linked p w else (s.linked p w).sendNak p

theorem State.outOfOrder_keeps (idle : (s.port p).wait = []) : (s.outOfOrder p w).inbox = s.inbox ∧ ((s.outOfOrder p w).port p).rxSeq = (s.port p).rxSeq
    ∧ (s.outOfOrder p w).mem = s.mem ∧ ((s.port p).discard = true → (s.outOfOrder p w).out = s.out) := by
  have received : s.Receives (s.linked p w) := State.linked_receives
  have rxSeq : ((s.linked p w).port p).rxSeq = (s.port p).rxSeq := by rw [State.port_linked idle]; rfl
  unfold State.outOfOrder
  split
  · exact ⟨received.inbox, rxSeq, received.mem, fun _ => State.linked_out idle⟩
  · next first =>
    exact ⟨State.sendNak_receives.inbox.trans received.inbox, State.sendNak_rxSeq.trans rxSeq, State.sendNak_receives.mem.trans received.mem,
      fun discard => absurd discard first⟩

section Live
variable (live : (s.port p).live = true) (pass : (s.decode p w).2 = true)
include live pass

theorem dataFlit_stomped : dataFlit s p w .stomped = (s.decode p w).1.addReg (R.LK_COUNT p 4) 1 := by
  rw [dataFlit, if_neg (by simp [live]), State.receive_passes pass]
  rfl

theorem dataFlit_crcFail : dataFlit s p w .crcFail = (s.decode p w).1.crcBad p w := by
  rw [dataFlit, if_neg (by simp [live]), State.receive_passes pass]

theorem idleFlit_passes (kind : w.kind = 0) : idleFlit s p w = s.linked p w := by rw [idleFlit_eq live kind, State.receive_passes pass]; rfl

section Data
variable (kind : w.kind = 1) (data : w.data = some f) (idle : (s.port p).wait = [])
include kind data idle

theorem dataFlit_good : dataFlit s p w .good =
    if w.lseq ≠ (s.port p).rxSeq then s.outOfOrder p w
    else ((s.linked p w).modPort p Port.next).acceptData p w f := by
  have port : ((s.linked p w).port p) = s.linkedPort p w := State.port_linked idle
  rw [dataFlit, if_neg (by simp [live]), State.receive_passes pass]
  simp only [kind, data, reduceCtorEq, if_false]
  change (if w.lseq ≠ ((s.linked p w).port p).rxSeq then (if ((s.linked p w).port p).discard then s.linked p w else (s.linked p w).sendNak p)
    else ((s.linked p w).modPort p Port.next).acceptData p w f) = _
  rw [port]
  rfl

theorem dataFlit_spoiled (order : w.lseq = (s.port p).rxSeq) : dataFlit s p w .spoiled =
    (((s.linked p w).stompOut p w).modPort p Port.next).acceptSpoiled p w f := by
  have port : ((s.linked p w).port p) = s.linkedPort p w := State.port_linked idle
  have order' : ¬w.lseq ≠ ((s.linked p w).port p).rxSeq := by rw [port]; exact not_not.2 order
  rw [dataFlit, if_neg (by simp [live]), State.receive_passes pass]
  simp only [kind, data]
  exact if_neg order'

end Data

end Live

/-! ### The acceptance of a flit in order -/

theorem State.acceptData_full (full : (s.port p).room.getD w.vc 0 = 0) : s.acceptData p w f = ((s.routeCount 4 1).ev 0x807 p []).quarantine p 3 := if_pos full

section Room
variable (room : (s.port p).room.getD w.vc 0 ≠ 0)
include room

theorem State.acceptData_untaken (untaken : (s.port p).takes w.vc = false) : s.acceptData p w f = s.passed p w.vc := by
  simp only [State.acceptData, room, if_false, untaken, Bool.not_false, if_true]
  rfl

theorem State.acceptData_unknown (takes : (s.port p).takes w.vc = true) (unknown : typeKnown f.typ = false) :
    s.acceptData p w f = (((s.modPort p (·.buffered w.vc)).routeCount 4 1).ev 0x807 p []).freeBuf (some (p.val, w.vc)) := by
  simp only [State.acceptData, room, if_false, takes, unknown, Bool.not_true, Bool.not_false, Bool.false_eq_true, if_true]
  rfl

theorem State.acceptData_here (takes : (s.port p).takes w.vc = true) (known : typeKnown f.typ = true) (here : f.dst = s.dev) (plain : f.e2e = false) :
    s.acceptData p w f = (s.passed p w.vc).delivered p f := by
  have here' : f.dst = (s.modPort p (·.buffered w.vc)).dev ∨ (!(s.modPort p (·.buffered w.vc)).member) = true ∧ f.typ = 0x20 := .inl here
  rw [State.acceptData, if_neg room, if_neg (by simp [takes]), if_neg (by simp [known])]
  exact (if_pos here').trans (if_neg (by simp [plain]))

theorem State.acceptSpoiled_dropped (other : f.dst ≠ s.dev ∨ f.typ ≠ 2) : s.acceptSpoiled p w f = (s.passed p w.vc).portCount p 4 1 := by
  have other' : ¬(f.dst = s.dev ∧ f.typ = 2) := fun h => other.elim (fun n => n h.1) (fun n => n h.2)
  rw [State.acceptSpoiled, if_neg other', if_neg room]
  rfl

end Room

/-- A READ_RSP for this module whose payload says that a word of it is poisoned. -/
def Flit.poisoned (f : Flit) : Flit := { f with payload := f.payload.take 193 ++ [f.payload.getD 193 0 ||| 1] }

theorem State.acceptSpoiled_poisoned (here : f.dst = s.dev) (rsp : f.typ = 2) : s.acceptSpoiled p w f = s.acceptData p w f.poisoned := if_pos ⟨here, rsp⟩

/-- A flit in order leaves its port's buffers and what the port takes. -/
theorem Port.next_keeps {x : Port} {begins fails : Bool} : ((x.decoded begins fails).acked w).next.room = x.room
    ∧ ∀ vc, ((x.decoded begins fails).acked w).next.takes vc = x.takes vc :=
  ⟨rfl, fun _ => rfl⟩

/-- What the flit in order does before it is accepted: what the reception changes, and the port expects the next one. -/
structure State.Expects (s : State) (p : Fin 16) (w : Wire) (t : State) : Prop where
  receives : s.Receives t
  port : t.port p = (s.linkedPort p w).next

section Expects
variable (idle : (s.port p).wait = [])
include idle

theorem State.expects_good : s.Expects p w ((s.linked p w).modPort p Port.next) :=
  ⟨State.linked_receives.modPort, by rw [State.port_modPort, State.port_linked idle]⟩

theorem State.expects_spoiled : s.Expects p w (((s.linked p w).stompOut p w).modPort p Port.next) :=
  ⟨(State.linked_receives.trans State.stompOut_receives).modPort, by rw [State.port_modPort, State.port_stompOut, State.port_linked idle]⟩

end Expects

section Accepts
variable (h : s.Expects p w t)
include h

theorem State.Expects.rxSeq : (t.port p).rxSeq = ((s.port p).rxSeq + 1) % 4096 := by rw [h.port]; rfl
theorem State.Expects.room : (t.port p).room = (s.port p).room := by
  rw [h.port]
  exact Port.next_keeps.1

theorem State.Expects.takes (vc : Nat) : (t.port p).takes vc = (s.port p).takes vc := by
  rw [h.port]
  exact Port.next_keeps.2 vc

theorem State.Expects.passed (vc : Nat) : (t.passed p vc).inbox = s.inbox ∧ ((t.passed p vc).port p).rxSeq = ((s.port p).rxSeq + 1) % 4096 ∧ (t.passed p vc).mem = s.mem :=
  have sent := t.passed_transmits (p := p) vc
  ⟨sent.inbox.trans h.receives.inbox, (Port.rxSeq_of_session (sent.session p)).trans h.rxSeq, sent.mem.trans h.receives.mem⟩

/-- No free buffer quarantines the port. -/
theorem State.Expects.full (full : (s.port p).room.getD w.vc 0 = 0) : (t.acceptData p w f).inbox = s.inbox ∧ ((t.acceptData p w f).port p).st = .quarantine
    ∧ ((t.acceptData p w f).port p).qcause = 3 := by
  rw [State.acceptData_full (by rw [h.room]; exact full), State.port_quarantine, State.quarantine_inbox, State.ev_inbox, State.routeCount, State.addReg_inbox]
  exact ⟨h.receives.inbox, rfl, rfl⟩

section Room
variable (room : (s.port p).room.getD w.vc 0 ≠ 0)
include room

theorem State.Expects.untaken (untaken : (s.port p).takes w.vc = false) :
    (t.acceptData p w f).inbox = s.inbox ∧ ((t.acceptData p w f).port p).rxSeq = ((s.port p).rxSeq + 1) % 4096 := by
  obtain ⟨inbox, rxSeq, -⟩ := h.passed w.vc
  rw [State.acceptData_untaken (by rw [h.room]; exact room) (by rw [h.takes]; exact untaken)]
  exact ⟨inbox, rxSeq⟩

theorem State.Expects.delivered (canonical : s.canonical = true) (takes : (s.port p).takes w.vc = true) (known : typeKnown f.typ = true) (here : f.dst = s.dev)
    (plain : f.e2e = false) : (t.acceptData p w f).inbox = s.inbox ++ [(p.val, f)]
      ∧ ((t.acceptData p w f).port p).rxSeq = ((s.port p).rxSeq + 1) % 4096 ∧ (t.acceptData p w f).mem = s.mem := by
  obtain ⟨inbox, rxSeq, mem⟩ := h.passed w.vc
  rw [State.acceptData_here (by rw [h.room]; exact room) (by rw [h.takes]; exact takes) known (by rw [h.receives.dev canonical]; exact here) plain]
  rw [State.delivered_inbox, State.delivered_port, State.delivered_mem, inbox, rxSeq, mem]
  exact ⟨rfl, rfl, rfl⟩

theorem State.Expects.unknown (canonical : s.canonical = true) (takes : (s.port p).takes w.vc = true) (unknown : typeKnown f.typ = false) :
    (t.acceptData p w f).inbox = s.inbox ∧ (t.acceptData p w f).rn (R.LK_RCOUNT 4) = (s.rn (R.LK_RCOUNT 4) + 1) % 2 ^ 64
      ∧ ((t.acceptData p w f).port p).rxSeq = ((s.port p).rxSeq + 1) % 4096 := by
  have quiet : ¬passingCounter (R.LK_RCOUNT 4) := not_passingCounter_router (i := 4)
  obtain ⟨canonical', kept⟩ := h.receives.counts canonical
  have buffered : (t.modPort p (·.buffered w.vc)).canonical = true := canonical'
  have counted : ((t.modPort p (·.buffered w.vc)).routeCount 4 1).canonical = true := (State.addReg_keeps _ _ _).2 buffered
  have logged := State.ev_keeps ((t.modPort p (·.buffered w.vc)).routeCount 4 1) 0x807 p []
  have freed := (State.Transmits.refl (((t.modPort p (·.buffered w.vc)).routeCount 4 1).ev 0x807 p [])).freeBuf (from? := some (p.val, w.vc))
  have pending (i : Nat) : R.LK_RCOUNT 4 ≠ R.HX_MSIX_PBA i := by
    simp only [R.LK_RCOUNT, R.HX_MSIX_PBA, LK.base, HX.base]
    omega
  rw [State.acceptData_unknown (by rw [h.room]; exact room) (by rw [h.takes]; exact takes) unknown]
  refine ⟨?_, ?_, ?_⟩
  · rw [freed.inbox, State.ev_inbox, State.routeCount, State.addReg_inbox]
    exact h.receives.inbox
  · rw [(freed.receives.counts (logged.2 counted)).2 _ quiet, State.rn_ev pending counted, State.routeCount, State.rn_addReg buffered, if_pos rfl, ← kept _ quiet]
    rfl
  · rw [Port.rxSeq_of_session (freed.session p), State.port_ev, State.port_routeCount, State.port_modPort]
    exact h.rxSeq

/-- A flit that proves uncorrectable and is no READ_RSP for this module is dropped and counted. -/
theorem State.Expects.dropped (canonical : s.canonical = true) (other : f.dst ≠ s.dev ∨ f.typ ≠ 2) : (t.acceptSpoiled p w f).inbox = s.inbox
    ∧ ((t.acceptSpoiled p w f).port p).rxSeq = ((s.port p).rxSeq + 1) % 4096
    ∧ (t.acceptSpoiled p w f).rn (R.LK_COUNT p 4) = (s.rn (R.LK_COUNT p 4) + 1) % 2 ^ 64 := by
  have quiet : ¬passingCounter (R.LK_COUNT p 4) := not_passingCounter_port (i := 4) (by decide)
  obtain ⟨inbox, rxSeq, -⟩ := h.passed w.vc
  obtain ⟨canonical', kept⟩ := h.receives.trans (t.passed_transmits (p := p) w.vc).receives |>.counts canonical
  rw [State.acceptSpoiled_dropped (by rw [h.room]; exact room) (by rw [h.receives.dev canonical]; exact other)]
  rw [State.port_portCount, State.portCount, State.addReg_inbox, State.rn_addReg canonical', if_pos rfl, kept _ quiet]
  exact ⟨inbox, rxSeq, rfl⟩

end Room

end Accepts

/-! ### Outputs only grow (R368, R380) -/

theorem State.addRecs_out (code src : Nat) (k : Nat) (cont : Bool) (args : Bytes) : (s.addRecs code src k cont args).out = s.out := by
  induction k generalizing s cont args with
  | zero => rfl
  | succ k ih =>
    simp only [State.addRecs]
    split
    · exact s.addRec_out _
    · rw [ih, State.addRec_out]

theorem State.raise_out (src : Nat) : s.out <+: (s.raise src).out := by
  unfold State.raise State.sendVector
  split
  · split
    · exact List.prefix_append _ _
    · exact List.prefix_refl _
  · exact List.prefix_refl _

theorem State.ev_out (code src : Nat) (bs : Bytes) : s.out <+: (s.ev code src bs).out := by
  have raised (c : Prop) [Decidable c] (t : State) (n : Nat) : t.out <+: (if c then t.raise n else t).out := by
    split
    · exact t.raise_out n
    · exact List.prefix_refl _
  have recorded : s.out <+: (s.addRecs code src 8 false bs).out := by rw [State.addRecs_out]
  exact ((recorded.trans (raised _ _ _)).trans (raised _ _ _)).trans (raised _ _ _)

theorem State.portTo_out {st : PortSt} : s.out <+: (s.portTo p st).out := by
  simp only [State.portTo]
  split
  · exact List.prefix_refl _
  · exact State.ev_out (s := s.modPort p _) _ _ _

/-! ### Replay (R311) -/

/-- A port that sends its replay buffer again from a place on. -/
def Port.rewound (x : Port) (i : Nat) : Port := { x with replay := x.replay.take i ++ (x.replay.drop i).map (fun e => (e.1, e.2.1, e.2.2 + 1)) }

/-- The numbers and flits of a replay buffer, without how often each has been sent again. -/
def Port.unacked (x : Port) : List (Nat × Wire) := x.replay.map (fun e => (e.1, e.2.1))

theorem Port.unacked_rewound (x : Port) (i : Nat) : (x.rewound i).unacked = x.unacked := by
  have same : (x.rewound i).unacked = (x.replay.take i ++ x.replay.drop i).map (fun e => (e.1, e.2.1)) := by
    simp only [Port.unacked, Port.rewound, List.map_append, List.map_map]
    rfl
  rw [same, List.take_append_drop]
  rfl

/-- The state once flits of the replay buffer have been sent again. -/
def State.resent (s : State) (p : Fin 16) (l : List (Nat × Wire × Nat)) : State := l.foldl (fun t e => t.send p e.2.1) s

theorem State.resent_transmits (l : List (Nat × Wire × Nat)) : s.Transmits (s.resent p l) :=
  List.foldlRecOn l _ (.refl s) fun _ h _ _ => h.send

theorem State.resent_sends (l : List (Nat × Wire × Nat)) : ((s.resent p l).port p).replay = (s.port p).replay
    ∧ (s.resent p l).out.length = s.out.length + l.length := by
  induction l generalizing s with
  | nil => exact ⟨rfl, rfl⟩
  | cons e l ih =>
    obtain ⟨replay, out⟩ := ih (s := s.send p e.2.1)
    refine ⟨replay.trans ?_, out.trans ?_⟩
    · rw [State.port_send]
      rfl
    · rw [State.send_out, List.length_append, List.length_singleton, List.length_cons, Nat.add_assoc, Nat.add_comm 1]

theorem State.retrain_replay : ((s.retrain p).port p).replay = (s.port p).replay := by
  simp only [State.retrain]
  split
  · rw [State.port_portTo, State.port_modPort]
  · rfl

theorem State.retrain_out : s.out <+: (s.retrain p).out := by
  simp only [State.retrain]
  split
  · exact State.portTo_out (s := s.modPort p _)
  · exact List.prefix_refl _

theorem State.retrain_inbox : (s.retrain p).inbox = s.inbox := by
  simp only [State.retrain]
  split
  · rw [State.portTo_inbox]
    rfl
  · rfl

theorem State.retrain_mem : (s.retrain p).mem = s.mem := (State.WorksAt.refl s).retrain.sends.mem

/-- The replay from a flit that the buffer holds sends it and those after it again, and the buffer keeps them. -/
theorem State.replayFrom_resends {lseq i : Nat} (found : (s.port p).replay.findIdx? (fun e => e.1 == lseq) = some i) :
    ((s.replayFrom p lseq).port p).unacked = (s.port p).unacked ∧ s.out.length + ((s.port p).replay.length - i) ≤ (s.replayFrom p lseq).out.length
    ∧ (s.replayFrom p lseq).inbox = s.inbox ∧ (s.replayFrom p lseq).mem = s.mem := by
  have sent := State.resent_transmits (s := (s.modPort p (·.rewound i)).portCount p 3 ((s.port p).replay.drop i).length) (p := p) ((s.port p).replay.drop i)
  obtain ⟨replay, out⟩ := State.resent_sends (s := (s.modPort p (·.rewound i)).portCount p 3 ((s.port p).replay.drop i).length) (p := p) ((s.port p).replay.drop i)
  generalize resent : ((s.modPort p (·.rewound i)).portCount p 3 ((s.port p).replay.drop i).length).resent p ((s.port p).replay.drop i) = t at sent replay out
  have eq : s.replayFrom p lseq = if ((s.port p).replay.drop i).any (fun e => decide (16 ≤ e.2.2 + 1)) then t.retrain p else t := by
    rw [← resent]
    simp only [State.replayFrom, found]
    rfl
  rw [State.port_portCount, State.port_modPort] at replay
  rw [List.length_drop] at out
  have kept : (t.port p).unacked = (s.port p).unacked := by
    rw [Port.unacked, replay]
    exact Port.unacked_rewound _ _
  have grown : s.out.length + ((s.port p).replay.length - i) ≤ t.out.length := Nat.le_of_eq out.symm
  rw [eq]
  split
  · refine ⟨?_, grown.trans State.retrain_out.length_le, State.retrain_inbox.trans sent.inbox, State.retrain_mem.trans sent.mem⟩
    rw [Port.unacked, State.retrain_replay]
    exact kept
  · exact ⟨kept, grown, sent.inbox, sent.mem⟩

theorem nakFlit_resends {i : Nat} (live : (s.port p).live = true) (pass : (s.decode p w).2 = true) (kind : w.kind = 3) (idle : (s.port p).wait = [])
    (noAck : w.ackv = false) (found : (s.port p).replay.findIdx? (fun e => e.1 == w.lseq) = some i) :
    ((nakFlit s p w).port p).unacked = (s.port p).unacked ∧ s.out.length + ((s.port p).replay.length - i) ≤ (nakFlit s p w).out.length
      ∧ (nakFlit s p w).inbox = s.inbox ∧ (nakFlit s p w).mem = s.mem := by
  have received : s.Receives (s.linked p w) := State.linked_receives
  have replay : ((s.linked p w).port p).replay = (s.port p).replay := by
    rw [State.port_linked idle]
    exact if_neg (by rw [noAck]; decide)
  have eq : nakFlit s p w = (s.linked p w).replayFrom p w.lseq := (nakFlit_eq live kind).trans (State.receive_passes pass _)
  obtain ⟨kept, out, inbox, mem⟩ := State.replayFrom_resends (s := s.linked p w) (p := p) (lseq := w.lseq) (i := i) (by rw [replay]; exact found)
  rw [replay, State.linked_out idle] at out
  rw [eq]
  refine ⟨kept.trans ?_, out, inbox.trans received.inbox, mem.trans received.mem⟩
  rw [Port.unacked, replay, ← Port.unacked]

/-! ### Flits that wait for an escape (R314, R315) -/

section Escape
variable {vc : Nat} {g : WaitFlit} {e : Fin 16}

/-- The state once a flit no longer waits. -/
def State.leaving (s : State) (p : Fin 16) (g : WaitFlit) : State := s.modPort p (fun y => { y with wait := y.wait.erase g })

/-- A flit that waits leaves every port in its state, so the escape port is the same without it. -/
theorem State.escapePort_leaving : (s.leaving p g).escapePort = s.escapePort := by
  have same (q : Fin 16) : ((s.leaving p g).port q).st = (s.port q).st :=
    Port.st_of_session (((State.Transmits.refl s).modPort (p := p) (g := fun y => { y with wait := y.wait.erase g }) rfl).session q)
  simp only [State.escapePort, same]
  rfl

theorem Port.serves_iff {x : Port} : x.serves vc = true ↔ x.carries vc = true ∨ x.st = .retrain ∧ (x.prev = .admitted ∨ vc = 7) := by
  simp only [Port.serves, Bool.or_eq_true, Bool.and_eq_true, beq_iff_eq]

theorem Port.serves_eq_false_iff {x : Port} : x.serves vc = false ↔ x.carries vc = false ∧ (x.st ≠ .retrain ∨ x.prev ≠ .admitted ∧ vc ≠ 7) := by
  simp only [Port.serves, Bool.or_eq_false_iff, Bool.and_eq_false_iff, beq_eq_false_iff_ne]

/-- A flit whose channel the port does not carry, or has no credit for, cannot go. -/
theorem Port.stuck {x : Port} (stuck : x.carries vc = false ∨ x.credits.getD vc 0 = 0) : ¬(x.carries vc && x.credits.getD vc 0 != 0) = true := by
  rcases stuck with carries | credit
  · simp [carries]
  · rw [credit]
    simp

theorem escapeExpiry_none (none : (s.port p).wait.find? (fun y => y.vc == vc) = none) : escapeExpiry s p vc = s := by simp only [escapeExpiry, none]

section Waiting
variable (found : (s.port p).wait.find? (fun y => y.vc == vc) = some g)
include found

theorem escapeExpiry_eq : escapeExpiry s p vc =
    if (s.port p).carries vc && (s.port p).credits.getD vc 0 != 0 then s
    else if isWork p then (if (s.port p).serves vc then s else ((s.leaving p g).routeCount 0 1).freeBuf g.from?)
    else if !s.rbit R.LK_ESC 16 then s
    else if 7 ≤ g.flit.esc then
      (if g.flit.typ = 1 ∨ g.flit.typ = 3 then
        (((s.leaving p g).unreachable g.flit).freeBuf g.from?).inject (refuseOf (((s.leaving p g).unreachable g.flit).freeBuf g.from?).dev g.flit 2) |>.1
      else ((s.leaving p g).unreachable g.flit).freeBuf g.from?)
    else
      match (s.leaving p g).escapePort with
      | some e => ((s.leaving p g).routeCount 1 1).enqueue e { g with need := needCredits (g.from?.map (·.1)) e, flit := { g.flit with esc := g.flit.esc + 1 } }
      | none => s := by
  rw [escapeExpiry, found]
  rfl

theorem escapeExpiry_goes (carries : (s.port p).carries vc = true) (credit : (s.port p).credits.getD vc 0 ≠ 0) : escapeExpiry s p vc = s := by
  rw [escapeExpiry_eq found, if_pos (by rw [carries]; simpa using credit)]

section Stuck
variable (stuck : (s.port p).carries vc = false ∨ (s.port p).credits.getD vc 0 = 0)
include stuck

section Gateway
variable (work : isWork p = true)
include work

theorem escapeExpiry_serves (serves : (s.port p).serves vc = true) : escapeExpiry s p vc = s := by
  rw [escapeExpiry_eq found, if_neg (Port.stuck stuck), if_pos work, if_pos serves]

theorem escapeExpiry_outOfService (gone : (s.port p).serves vc = false) : escapeExpiry s p vc = ((s.leaving p g).routeCount 0 1).freeBuf g.from? := by
  rw [escapeExpiry_eq found, if_neg (Port.stuck stuck), if_pos work, if_neg (by rw [gone]; decide)]

end Gateway

section Course
variable (course : isWork p = false)
include course

theorem escapeExpiry_off (off : s.rbit R.LK_ESC 16 = false) : escapeExpiry s p vc = s := by
  rw [escapeExpiry_eq found, if_neg (Port.stuck stuck), if_neg (by rw [course]; decide), if_pos (by rw [off]; rfl)]

variable (on : s.rbit R.LK_ESC 16 = true)
include on

theorem escapeExpiry_again (few : g.flit.esc < 7) : escapeExpiry s p vc =
    match s.escapePort with
    | some e => ((s.leaving p g).routeCount 1 1).enqueue e { g with need := needCredits (g.from?.map (·.1)) e, flit := { g.flit with esc := g.flit.esc + 1 } }
    | none => s := by
  rw [escapeExpiry_eq found, if_neg (Port.stuck stuck), if_neg (by rw [course]; decide), if_neg (by rw [on]; decide), if_neg (by omega),
    State.escapePort_leaving]

theorem escapeExpiry_worn (many : 7 ≤ g.flit.esc) : escapeExpiry s p vc =
    if g.flit.typ = 1 ∨ g.flit.typ = 3 then
      (((s.leaving p g).unreachable g.flit).freeBuf g.from?).inject (refuseOf (((s.leaving p g).unreachable g.flit).freeBuf g.from?).dev g.flit 2) |>.1
    else ((s.leaving p g).unreachable g.flit).freeBuf g.from? := by
  rw [escapeExpiry_eq found, if_neg (Port.stuck stuck), if_neg (by rw [course]; decide), if_neg (by rw [on]; decide), if_pos many]

end Course

end Stuck

end Waiting

end Escape

/-! ### End-to-end windows (R315, R316) -/

section EndToEnd
variable {d n a k dst pseq src : Nat} {rest : List (Nat × Flit)} {e : Nat × Flit} {x : E2eTx}

theorem State.e2eOf_dst : (s.e2eOf d).dst = d := by
  unfold State.e2eOf
  cases found : s.e2eTx.find? (fun w => w.dst == d) with
  | none => rfl
  | some w => simpa using List.find?_some found

theorem State.e2eOf_setE2e (same : x.dst = d) : (s.setE2e x).e2eOf d = x := by
  have others : (s.e2eTx.filter (fun y => y.dst != x.dst)).find? (fun y => y.dst == d) = none :=
    List.find?_eq_none.2 fun y mem => by
      have apart := (List.mem_filter.1 mem).2
      rw [same] at apart
      simpa using apart
  have last : [x].find? (fun y => y.dst == d) = some x := List.find?_cons_of_pos (by simp [same])
  rw [State.e2eOf, State.setE2e, List.find?_append, others, last]
  rfl

theorem State.e2ePump_idle (idle : (s.e2eOf d).hold = []) : s.e2ePump d k = s := by
  cases k with
  | zero => rfl
  | succ k => simp only [State.e2ePump, idle]

/-- Does an E2E_ACK cover a number: below what arrived whole, or named above it? -/
def coveredBy (b : Bytes) (q : Nat) : Bool :=
  decide ((leAt b 0 4 + 2 ^ 32 - q) % 2 ^ 32 < 2 ^ 31)
    || (decide ((q + 2 ^ 32 - 1 - leAt b 0 4) % 2 ^ 32 < 256)
      && (leAt b (4 + (q + 2 ^ 32 - 1 - leAt b 0 4) % 2 ^ 32 / 8) 1).testBit ((q + 2 ^ 32 - 1 - leAt b 0 4) % 2 ^ 32 % 8))

/-- A window without the flits that an E2E_ACK covers. -/
def E2eTx.acked (x : E2eTx) (b : Bytes) : E2eTx := { x with unacked := x.unacked.filter (fun e => !coveredBy b e.1.pseq) }

/-- Exactly the flits that the E2E_ACK does not cover stay. -/
theorem E2eTx.mem_acked {b : Bytes} {n : Flit × Nat × Nat} : n ∈ (x.acked b).unacked ↔ n ∈ x.unacked
    ∧ ¬((leAt b 0 4 + 2 ^ 32 - n.1.pseq) % 2 ^ 32 < 2 ^ 31
      ∨ ((n.1.pseq + 2 ^ 32 - 1 - leAt b 0 4) % 2 ^ 32 < 256
        ∧ (leAt b (4 + (n.1.pseq + 2 ^ 32 - 1 - leAt b 0 4) % 2 ^ 32 / 8) 1).testBit ((n.1.pseq + 2 ^ 32 - 1 - leAt b 0 4) % 2 ^ 32 % 8) = true)) := by
  rw [E2eTx.acked, List.mem_filter]
  simp only [coveredBy, Bool.not_eq_true', Bool.or_eq_false_iff, Bool.and_eq_false_iff, decide_eq_false_iff_not, not_or, not_and_or, Bool.not_eq_true]

theorem e2eAck_eq (inbox : s.inbox = e :: rest) (typ : e.2.typ = 0x21) (idle : (s.e2eOf e.2.src).hold = []) :
    e2eAck s = (s.withInbox rest).setE2e ((s.e2eOf e.2.src).acked e.2.payload) := by
  have idle' : (((s.withInbox rest).setE2e ((s.e2eOf e.2.src).acked e.2.payload)).e2eOf e.2.src).hold = [] := by
    rw [State.e2eOf_setE2e (x := (s.e2eOf e.2.src).acked e.2.payload) (State.e2eOf_dst (s := s))]
    exact idle
  rw [e2eAck, State.takeFlit_first (k := e.1) (f := e.2) inbox typ]
  exact State.e2ePump_idle idle'

/-- A window without a flit, as it ends or fails. -/
def E2eTx.without (x : E2eTx) (pseq : Nat) : E2eTx := { x with unacked := x.unacked.filter (fun e => e.1.pseq != pseq) }

/-- A window in which a flit goes by another alternative. -/
def E2eTx.rerouted (x : E2eTx) (pseq : Nat) (g : Flit) (n a : Nat) : E2eTx :=
  { x with unacked := x.unacked.map (fun e => if e.1.pseq = pseq then (g, n, a) else e) }

/-- The state without the flit that timed out. -/
def State.without (s : State) (dst pseq : Nat) : State := s.setE2e ((s.e2eOf dst).without pseq)

/-- The state in which the flit that timed out goes by the next alternative. -/
def State.rerouted (s : State) (dst pseq : Nat) (g : Flit) (n a : Nat) : State := s.setE2e ((s.e2eOf dst).rerouted pseq g n a)

section Timeout
variable (found : (s.e2eOf dst).unacked.find? (fun e => e.1.pseq == pseq) = some (f, n, a))
include found

theorem e2eTimeout_resends (more : n < s.rfld R.LK_E2E 18 16) (some : s.routeAlts (devT dst) ≠ []) : e2eTimeout s dst pseq =
    (((s.rerouted dst pseq (s.viaAlt f (altAt (s.routeAlts (devT dst)) (a + 1))) (n + 1) (a + 1)).routeCount 2 1).place
      (s.viaAlt f (altAt (s.routeAlts (devT dst)) (a + 1))) (injectVc f) none).1 := by
  have some' : ¬(s.routeAlts (devT dst)).isEmpty = true := fun h => some (List.isEmpty_iff.1 h)
  rw [e2eTimeout, found]
  exact (if_neg (Nat.not_le.2 more)).trans (if_neg some')

theorem e2eTimeout_ends (more : n < s.rfld R.LK_E2E 18 16) (none : s.routeAlts (devT dst) = []) : e2eTimeout s dst pseq =
    ((s.without dst pseq).noRoute f).e2ePump dst ((s.e2eOf dst).hold.length + 1) := by
  rw [e2eTimeout, found]
  exact (if_neg (Nat.not_le.2 more)).trans (if_pos (List.isEmpty_iff.2 none))

theorem e2eTimeout_fails (last : s.rfld R.LK_E2E 18 16 ≤ n) (noTxns : s.txns = []) (idle : (s.e2eOf dst).hold = []) : e2eTimeout s dst pseq =
    ((s.without dst pseq).routeCount 3 1).ev 0x830 0xFF [] := by
  have txns : (((s.without dst pseq).routeCount 3 1).ev 0x830 0xFF []).txns = [] := by
    rw [State.ev_txns]
    exact noTxns
  have idle' : ((((s.without dst pseq).routeCount 3 1).ev 0x830 0xFF []).e2eOf dst).hold = [] := by
    have window : (((s.without dst pseq).routeCount 3 1).ev 0x830 0xFF []).e2eOf dst = (s.without dst pseq).e2eOf dst := by
      rw [State.e2eOf, State.ev_e2eTx]
      rfl
    rw [window, State.without, State.e2eOf_setE2e (x := (s.e2eOf dst).without pseq) (State.e2eOf_dst (s := s))]
    exact idle
  rw [e2eTimeout, found]
  refine (if_pos last).trans ?_
  change (match (((s.without dst pseq).routeCount 3 1).ev 0x830 0xFF []).txns.find? _ with | some t => _ | none => _ : State).e2ePump dst _ = _
  rw [txns]
  exact State.e2ePump_idle idle'

end Timeout

section AckTimer
variable {r : E2eRx} (found : s.e2eRx.find? (fun r => r.src == src) = some r)
include found

theorem e2eAckTimer_stale (stale : r.fresh = 0) : e2eAckTimer s src = s := by simp only [e2eAckTimer, found, stale, if_true]
theorem e2eAckTimer_fresh (fresh : r.fresh ≠ 0) : e2eAckTimer s src = s.sendE2eAck src := by simp only [e2eAckTimer, found, fresh, if_false]

end AckTimer

end EndToEnd

end DataFlits

/-- Settles O44: the reception of a flit is the decoder, the link word and, in order, one acceptance; replay, escapes and the end-to-end windows are one
equation for each case. -/
theorem linkFlitsInOrder : Obligations.LinkFlitsInOrder := by
  unfold Obligations.LinkFlitsInOrder
  intro s p w f canonical x r y
  refine ⟨fun live => ⟨State.decode_corrects, fun many begins => ⟨State.decode_fails many begins, State.decode_counts many begins canonical⟩, fun fails => ?_,
      State.decode_crcBad canonical,
      fun pass => ⟨fun kind idle => ?_, exec_next exec_dataFlit (dataFlit_stomped live pass), exec_next exec_dataFlit (dataFlit_crcFail live pass),
        fun kind data idle => ?_, fun i kind idle noAck found => ?_⟩,
      fun other => exec_next exec_nak (nakFlit_other other)⟩,
    fun dead => ⟨exec_next exec_idleFlit (idleFlit_dead dead), fun _ => exec_next exec_dataFlit (dataFlit_dead dead)⟩,
    fun vc g found => ⟨fun carries credit => exec_next exec_escapeWaitExpiry (escapeExpiry_goes found carries credit), fun stuck => ?_⟩,
    fun vc none => exec_next exec_escapeWaitExpiry (escapeExpiry_none none), fun e rest inbox typ idle => ?_,
    fun dst pseq f n a found => ⟨fun more some => exec_next exec_e2eTimeout (e2eTimeout_resends found more some),
      fun more none => exec_next exec_e2eTimeout (e2eTimeout_ends found more none),
      fun last noTxns idle => exec_next exec_e2eTimeout (e2eTimeout_fails found last noTxns idle)⟩,
    fun src r found => ⟨fun stale => exec_next exec_e2eAckTimer (e2eAckTimer_stale found stale), fun fresh => exec_next exec_e2eAckTimer (e2eAckTimer_fresh found fresh)⟩⟩
  · obtain ⟨idleF, dataF, hbF, nakF, admitF, revokeF⟩ := flit_fails live fails
    exact ⟨fun kind => exec_next exec_idleFlit (idleF kind), fun a => exec_next exec_dataFlit (dataF a), fun kind => exec_next exec_heartbeatFlit (hbF kind),
      fun kind => exec_next exec_nak (nakF kind), fun kind => exec_next exec_admitLink (admitF kind), fun kind => exec_next exec_revoke (revokeF kind)⟩
  · have received : s.Receives (s.linked p w) := State.linked_receives
    have decoded : y = (s.port p).decoded (s.codeBegins p) (s.codeFails p w) := State.port_decode
    refine ⟨_, exec_next exec_idleFlit (idleFlit_passes live pass kind), ?_, received.inbox, State.linked_out idle, received.mem⟩
    rw [State.port_linked idle, decoded]
    rfl
  · have good := State.expects_good (w := w) idle
    have spoiled := State.expects_spoiled (w := w) idle
    have eq (order : w.lseq = x.rxSeq) : dataFlit s p w .good = _ := (dataFlit_good live pass kind data idle).trans (if_neg (not_not.2 order))
    refine ⟨fun order => ?_, fun order full => ?_, fun order room untaken => ?_, fun order room takes known here plain => ?_, fun order room takes unknown => ?_,
      fun order room => ⟨fun takes here rsp plain => ?_, fun other => ?_⟩⟩
    · exact ⟨_, exec_next exec_dataFlit ((dataFlit_good live pass kind data idle).trans (if_pos order)), State.outOfOrder_keeps idle⟩
    · exact ⟨_, exec_next exec_dataFlit (eq order), good.full full⟩
    · exact ⟨_, exec_next exec_dataFlit (eq order), good.untaken room untaken⟩
    · exact ⟨_, exec_next exec_dataFlit (eq order), good.delivered room canonical takes known here plain⟩
    · exact ⟨_, exec_next exec_dataFlit (eq order), good.unknown room canonical takes unknown⟩
    · obtain ⟨inbox, rxSeq, -⟩ := spoiled.delivered (f := f.poisoned) room canonical takes (by rw [Flit.poisoned, rsp]; decide) here plain
      exact ⟨_, exec_next exec_dataFlit ((dataFlit_spoiled live pass kind data idle order).trans
        (State.acceptSpoiled_poisoned (by rw [spoiled.receives.dev canonical]; exact here) rsp)), inbox, rxSeq⟩
    · exact ⟨_, exec_next exec_dataFlit (dataFlit_spoiled live pass kind data idle order), spoiled.dropped room canonical other⟩
  · exact ⟨_, exec_nak, nakFlit_resends live pass kind idle noAck found⟩
  · refine ⟨fun work serves => ?_, fun work uncarried gone => ?_, fun course off => exec_next exec_escapeWaitExpiry (escapeExpiry_off found stuck course off),
      fun course on few e escape => ?_, fun course on few none => ?_, fun course on many noRead noWrite => ?_, fun course on many request => ?_⟩
    · exact exec_next exec_escapeWaitExpiry (escapeExpiry_serves found stuck work (Port.serves_iff.2 serves))
    · exact exec_next exec_escapeWaitExpiry (escapeExpiry_outOfService found stuck work (Port.serves_eq_false_iff.2 ⟨uncarried, gone⟩))
    · exact exec_next exec_escapeWaitExpiry ((escapeExpiry_again found stuck course on few).trans (by rw [escape]; rfl))
    · exact exec_next exec_escapeWaitExpiry ((escapeExpiry_again found stuck course on few).trans (by rw [none]))
    · exact exec_next exec_escapeWaitExpiry ((escapeExpiry_worn found stuck course on many).trans (if_neg fun h => h.elim noRead noWrite))
    · exact exec_next exec_escapeWaitExpiry ((escapeExpiry_worn found stuck course on many).trans (if_pos request))
  · refine ⟨_, exec_next exec_e2eAck (e2eAck_eq inbox typ idle), rfl, rfl, rfl, fun n => ?_⟩
    rw [State.e2eOf_setE2e (x := (s.e2eOf e.2.src).acked e.2.payload) (State.e2eOf_dst (s := s))]
    exact E2eTx.mem_acked

end Sys2Proof.Machine

namespace Sys2Proof.Machine

/-! ## The step and the reset state (R406, R453) -/

/-- Settles O55: `step` looks at the queue alone. -/
theorem stepRunsFrontCommand : Obligations.StepRunsFrontCommand := by
  unfold Obligations.StepRunsFrontCommand
  intro s c rest
  exact ⟨rfl, fun empty => by simp only [step, empty]⟩
/-- Settles O59: nothing is listed at reset. -/
theorem resetCanonical : Obligations.ResetCanonical := ⟨rfl, rfl⟩

end Sys2Proof.Machine

namespace Sys2Proof.Machine

/-! ## Fields of registers (R7) -/

section Fields
variable {s : State} {w v a b hi lo h l i : Nat}

theorem testBit_bits (w hi lo i : Nat) : (bits w hi lo).testBit i = (decide (i < hi + 1 - lo) && w.testBit (lo + i)) := by
  rw [bits, Nat.testBit_mod_two_pow, Nat.testBit_shiftRight]

theorem bits_lt (w hi lo : Nat) : bits w hi lo < 2 ^ (hi + 1 - lo) := Nat.mod_lt _ (Nat.two_pow_pos _)

theorem bits_of_lt (fits : w < 2 ^ (hi + 1)) : bits w hi 0 = w := Nat.mod_eq_of_lt fits

theorem testBit_putBits (order : lo ≤ hi) : (putBits w hi lo v).testBit i = if lo ≤ i ∧ i ≤ hi then v.testBit (i - lo) else w.testBit i := by
  obtain ⟨n, rfl⟩ : ∃ n, hi = lo + n := ⟨hi - lo, by omega⟩
  have shape : putBits w (lo + n) lo v = 2 ^ lo * (2 ^ (n + 1) * (w / 2 ^ (lo + (n + 1))) + v * 2 ^ lo / 2 ^ lo % 2 ^ (n + 1)) + w % 2 ^ lo := by
    have width : lo + n + 1 - lo = n + 1 := by omega
    rw [putBits, bits, Nat.shiftRight_eq_div_pow, width, Nat.mul_div_cancel _ (Nat.two_pow_pos lo), Nat.pow_add 2 lo (n + 1), ← Nat.div_div_eq_div_mul]
    have whole := Nat.div_add_mod w (2 ^ lo)
    have high := Nat.div_add_mod (w / 2 ^ lo) (2 ^ (n + 1))
    generalize w / 2 ^ lo / 2 ^ (n + 1) = p at *
    generalize w / 2 ^ lo % 2 ^ (n + 1) = q at *
    rw [← high] at whole
    generalize 2 ^ (n + 1) * p = x at *
    rw [Nat.mul_add] at whole ⊢
    rw [Nat.mul_comm q, Nat.mul_comm (v % _)]
    omega
  rw [shape, testBit_replaced, Nat.testBit_mul_two_pow]
  by_cases inside : lo ≤ i ∧ i < lo + (n + 1)
  · rw [if_pos inside, if_pos (by omega), decide_eq_true inside.1, Bool.true_and]
  · rw [if_neg inside, if_neg (by omega)]

theorem bits_putBits_self (order : lo ≤ hi) : bits (putBits w hi lo v) hi lo = v % 2 ^ (hi + 1 - lo) := by
  refine Nat.eq_of_testBit_eq fun i => ?_
  rw [testBit_bits, testBit_putBits order, Nat.testBit_mod_two_pow, Nat.add_sub_cancel_left]
  by_cases inside : i < hi + 1 - lo
  · rw [if_pos (by omega)]
  · simp [inside]

theorem bits_putBits_apart (order : lo ≤ hi) (apart : h < lo ∨ hi < l) : bits (putBits w hi lo v) h l = bits w h l := by
  refine Nat.eq_of_testBit_eq fun i => ?_
  rw [testBit_bits, testBit_bits, testBit_putBits order]
  by_cases inside : i < h + 1 - l
  · rw [if_neg (by omega)]
  · simp [inside]

theorem putBits_lt (order : lo ≤ hi) (top : hi < 64) (fits : w < 2 ^ 64) : putBits w hi lo v < 2 ^ 64 := by
  refine Nat.lt_pow_two_of_testBit _ fun i high => ?_
  rw [testBit_putBits order, if_neg (by omega)]
  exact Nat.testBit_lt_two_pow (Nat.lt_of_lt_of_le fits (Nat.pow_le_pow_right (by decide) high))

/-- A field set is its register set. -/
theorem State.rn_setFld (canonical : s.canonical = true) (order : lo ≤ hi) (top : hi < 64) :
    (s.setFld a hi lo v).rn b = if b = a then putBits (s.rn a) hi lo v else s.rn b := by
  rw [State.setFld, State.rn_setRn canonical, Nat.mod_eq_of_lt (putBits_lt order top (s.rn_lt a))]

theorem State.rn_setFld_ne (canonical : s.canonical = true) (apart : b ≠ a) : (s.setFld a hi lo v).rn b = s.rn b :=
  State.rn_setRn_ne canonical apart

theorem State.rfld_setFld_self (canonical : s.canonical = true) (order : lo ≤ hi) (top : hi < 64) :
    (s.setFld a hi lo v).rfld a hi lo = v % 2 ^ (hi + 1 - lo) := by
  rw [State.rfld, State.rn_setFld canonical order top, if_pos rfl, bits_putBits_self order]

theorem State.rfld_setFld_apart (canonical : s.canonical = true) (order : lo ≤ hi) (top : hi < 64) (apart : b ≠ a ∨ h < lo ∨ hi < l) :
    (s.setFld a hi lo v).rfld b h l = s.rfld b h l := by
  rw [State.rfld, State.rn_setFld canonical order top]
  split
  next same => rw [same, bits_putBits_apart order (apart.resolve_left fun ne => ne same), State.rfld]
  · rfl

theorem State.rbit_setFld (canonical : s.canonical = true) (order : lo ≤ hi) (top : hi < 64) :
    (s.setFld a hi lo v).rbit b i = if b = a ∧ lo ≤ i ∧ i ≤ hi then v.testBit (i - lo) else s.rbit b i := by
  rw [State.rbit, State.rn_setFld canonical order top]
  by_cases same : b = a
  · rw [if_pos same, testBit_putBits order, same]
    simp only [true_and, State.rbit]
  · rw [if_neg same, if_neg fun h => same h.1, State.rbit]

end Fields
end Sys2Proof.Machine

namespace Sys2Proof.Machine

/-! ## Fences and the bridge (R421 to R427, R436) -/

section Rows
variable {s : State} {b : Fin 24} {tag pass row col site dir addr fails : Nat} {wr : Bool} {who : Option TxnFor} {e : BenchErr}

theorem exec_residueMismatch : exec (.residueMismatch b tag pass row col site) s = .next (residueMismatch s b tag pass row col site) := rfl
theorem exec_benchUncorrectable : exec (.benchUncorrectable b site e) s = .next (benchError s b site e) := rfl
theorem exec_fenceComplete : exec (.fenceComplete b) s = .next (fenceComplete s b) := rfl
theorem exec_bridgeFlit : exec (.bridgeFlit dir addr fails wr who) s = .next (bridgeFlit s dir addr fails wr who) := rfl
theorem exec_bridgeRetry : exec .bridgeRetry s = .next (bridgeRetry s) := rfl

end Rows

/-! ### A derrick dropped -/

section Derricks
variable {s : State} {d e : Fin 48} {r : DkRun} {f : Dk → Dk}

theorem State.dk_modDk_ne (other : d ≠ e) : (s.modDk d f).dk e = s.dk e := Vector.getElem_set_ne d.isLt e.isLt fun same => other (Fin.ext same)

theorem dkOf_ne (b : Fin 24) : dkOf b 0 ≠ dkOf b 1 := by simp only [dkOf, Fin.ofNat, Ne, Fin.mk.injEq]; omega

/-- An implicit pin released changes its region (R200). -/
theorem State.implUnpin_frame (s : State) (r uid i : Nat) : s.implUnpin r uid i = { s with regions := (s.implUnpin r uid i).regions } := by
  simp only [State.implUnpin]
  split
  · rfl
  · split <;> rfl

theorem State.dkUnpin_frame (s : State) (r : DkRun) : s.dkUnpin r = { s with regions := (s.dkUnpin r).regions } := by
  simp only [State.dkUnpin]
  split
  · split
    · rfl
    · exact s.implUnpin_frame _ _ _
  · rfl

theorem State.dkUnpins_frame (s : State) (l : List DkRun) :
    l.foldl (fun t r => t.dkUnpin r) s = { s with regions := (l.foldl (fun t r => t.dkUnpin r) s).regions } := by
  refine List.foldlRecOn (motive := fun t : State => t = { s with regions := t.regions }) l _ rfl fun t frame r _ => ?_
  rw [t.dkUnpin_frame r, frame]

theorem State.dkDrop_frame (s : State) (d : Fin 48) :
    s.dkDrop d = { s with regions := (s.dkDrop d).regions, txns := (s.dkDrop d).txns, derricks := (s.dkDrop d).derricks } := by
  simp only [State.dkDrop]
  rw [State.dkUnpins_frame]
  rfl

@[simp] theorem State.dkDrop_benches : (s.dkDrop d).benches = s.benches := by rw [State.dkDrop_frame]
@[simp] theorem State.dkDrop_cores : (s.dkDrop d).cores = s.cores := by rw [State.dkDrop_frame]
@[simp] theorem State.dkDrop_colls : (s.dkDrop d).colls = s.colls := by rw [State.dkDrop_frame]
@[simp] theorem State.dkDrop_ports : (s.dkDrop d).ports = s.ports := by rw [State.dkDrop_frame]

theorem State.dk_of_derricks {t : State} (h : t.derricks = s.derricks) (d : Fin 48) : t.dk d = s.dk d := congrArg (·[d]) h

theorem State.dkDrop_derricks : (s.dkDrop d).derricks = (s.modDk d (fun x => { x with q := x.q.clear, runs := [] })).derricks := by
  simp only [State.dkDrop]
  rw [State.dkUnpins_frame]
  rfl

theorem State.dk_dkDrop : ((s.dkDrop d).dk d).q.cmds = [] := by
  rw [State.dk_of_derricks State.dkDrop_derricks, State.dk_modDk]
  rfl

theorem State.dk_dkDrop_ne (other : d ≠ e) : (s.dkDrop d).dk e = s.dk e := by
  rw [State.dk_of_derricks State.dkDrop_derricks, State.dk_modDk_ne other]

end Derricks

/-! ### The fence (R425, steps 1 to 4) -/

/-- A bench as a fence leaves it until FENCE_COMPLETE. -/
def Bench.fencing (y : Bench) (cause : Nat) (site : Bytes) (now : Nat) : Bench :=
  { y with q := y.q.clear, mu := y.mu.clear, cr := y.cr.clear, tiles := [], inArray := [], parts := [], tables := [], shadow := [], finWait := false,
           drained := [], fault := none, muRun := none, crRun := none, crWait := false, commitReg := false, commitCmd := false,
           fenceDue := some cause, fenceSite := site, fenceAt := now }

section Fence
variable {s : State} {b : Fin 24} {cause : Nat} {site : Bytes}

theorem Bench.fenced_of_live {x : Bench} (live : x.out = false) : x.fenced = false := by
  simp only [Bench.out, Bool.or_eq_false_iff] at live
  exact live.1

theorem State.fence_again (out : (s.bench b).out = true) (other : cause ≠ 1 ∨ (s.bench b).fenceDue ≠ some 6 ∨ (s.bench b).fenceAt ≠ s.time) :
    s.fence b cause site = s := by
  simp only [State.fence, out, if_true]
  exact if_neg fun ⟨residue, due, now⟩ => other.elim (· residue) (·.elim (· due) (· now))

/-- A residue fault in the core cycle of a FENCE request gives the fence its cause (R436). -/
theorem State.fence_residue (due : (s.bench b).fenceDue = some 6) (now : (s.bench b).fenceAt = s.time) :
    s.fence b 1 site = s.modBench b (fun y => { y with fenceDue := some 1, fenceSite := site }) := by
  have out : (s.bench b).out = true := by simp [Bench.out, due]
  simp only [State.fence, out, due, now, if_true, and_self]

/-- The bench emptied, its tiles poisoned, and the claims and transactions of its units dropped. -/
def State.fenceEmptied (s : State) (b : Fin 24) (cause : Nat) (site : Bytes) : State :=
  let s2 := ((s.bench b).tiles.foldl poisonTile s).modBench b (·.fencing cause site s.time)
  { s2 with txns := s2.txns.filter (fun t => t.who != TxnFor.core b),
            spall := { s2.spall with queue := s2.spall.queue.filter (fun c => c.who != Claimant.crusher b && c.who != Claimant.core b) } }

theorem State.fence_live (live : (s.bench b).out = false) :
    s.fence b cause site = (((s.fenceEmptied b cause site).dkDrop (dkOf b 0)).dkDrop (dkOf b 1)).coreHalt b 6 := by
  simp only [State.fence, live, Bool.false_eq_true, if_false]
  rfl

/-- Poison of a bench's tiles reaches no unit (R65). -/
theorem State.poisonTiles_stores (s : State) (l : List Tile) : s.Stores (l.foldl poisonTile s) :=
  List.foldlRecOn (motive := s.Stores) l _ (.refl s) fun t stores y _ => stores.trans (poisonTile_stores t y)

theorem State.bench_of_benches {t : State} (h : t.benches = s.benches) (b : Fin 24) : t.bench b = s.bench b := congrArg (·[b]) h

@[simp] theorem State.coreHalt_benches : (s.coreHalt b cause).benches = s.benches := by rw [State.coreHalt_frame]
@[simp] theorem State.coreHalt_derricks : (s.coreHalt b cause).derricks = s.derricks := by rw [State.coreHalt_frame]
@[simp] theorem State.coreHalt_colls : (s.coreHalt b cause).colls = s.colls := by rw [State.coreHalt_frame]
@[simp] theorem State.coreHalt_ports : (s.coreHalt b cause).ports = s.ports := by rw [State.coreHalt_frame]

theorem State.fenceEmptied_benches : (s.fenceEmptied b cause site).benches = (s.modBench b (·.fencing cause site s.time)).benches := by
  have stores := s.poisonTiles_stores (s.bench b).tiles
  simp only [State.fenceEmptied, State.modBench, State.setBench, stores.bench, stores.benches]

/-- What the fence of a live bench leaves alone: of the units, all but its core's gang and its derricks. -/
theorem State.fence_frame (live : (s.bench b).out = false) :
    (s.fence b cause site).benches = (s.modBench b (·.fencing cause site s.time)).benches
      ∧ (s.fence b cause site).colls = s.colls ∧ (s.fence b cause site).ports = s.ports := by
  have stores := s.poisonTiles_stores (s.bench b).tiles
  rw [State.fence_live live]
  simp only [State.coreHalt_benches, State.coreHalt_colls, State.coreHalt_ports, State.dkDrop_benches, State.dkDrop_colls, State.dkDrop_ports]
  refine ⟨State.fenceEmptied_benches, ?_, ?_⟩
  · rw [State.fenceEmptied, stores]
    rfl
  · rw [State.fenceEmptied, stores]
    rfl

theorem State.bench_fence (live : (s.bench b).out = false) : (s.fence b cause site).bench b = (s.bench b).fencing cause site s.time := by
  rw [State.bench_of_benches (State.fence_frame live).1, State.bench_modBench]

theorem State.bench_fence_ne {c : Fin 24} (live : (s.bench b).out = false) (other : b ≠ c) : (s.fence b cause site).bench c = s.bench c := by
  rw [State.bench_of_benches (State.fence_frame live).1, State.modBench, State.bench_setBench_ne _ _ _ _ other]

theorem State.core_fence (live : (s.bench b).out = false) : (s.fence b cause site).core b = (s.core b).halted 6 := by
  have cores : (s.fenceEmptied b cause site).cores = s.cores := (s.poisonTiles_stores (s.bench b).tiles).cores
  rw [State.fence_live live, State.core_coreHalt, State.core, State.dkDrop_cores, State.dkDrop_cores, cores, State.core]

theorem State.dk_fence (live : (s.bench b).out = false) :
    ((s.fence b cause site).dk (dkOf b 0)).q.cmds = [] ∧ ((s.fence b cause site).dk (dkOf b 1)).q.cmds = [] := by
  rw [State.fence_live live, State.dk_of_derricks (State.coreHalt_derricks ..), State.dk_of_derricks (State.coreHalt_derricks ..),
    State.dk_dkDrop_ne (dkOf_ne b).symm]
  exact ⟨State.dk_dkDrop, State.dk_dkDrop⟩

end Fence
/-! ### FENCE_COMPLETE (R425, steps 5 and 6; R436) -/

section Complete
variable {s : State} {b : Fin 24} {cause : Nat}

theorem fenceComplete_none (none : (s.bench b).fenceDue = none) : fenceComplete s b = s := by simp only [fenceComplete, none]

theorem fenceComplete_waits (before : s.fenceBefore b = true) : fenceComplete s b = s := by
  simp only [fenceComplete, before, if_true]
  split <;> rfl

/-- A bench whose fence its queues show. -/
def Bench.shown (y : Bench) : Bench := { y with fenced := true, fenceDue := none, q := y.q.halt 7, mu := y.mu.halt 3, cr := y.cr.halt 4 }

theorem State.fenceShown_benches : (s.fenceShown b).benches = (s.modBench b Bench.shown).benches := rfl
theorem State.fenceShown_mem : (s.fenceShown b).mem = s.mem := rfl

theorem State.dk_fenceShown : ((s.fenceShown b).dk (dkOf b 0)).q.cause = 6 ∧ ((s.fenceShown b).dk (dkOf b 1)).q.cause = 6 := by
  rw [State.fenceShown, State.dk_modDk_ne (dkOf_ne b).symm, State.dk_modDk, State.dk_modDk]
  exact ⟨rfl, rfl⟩

/-- The events of a complete fence. -/
def State.fenceNoted (s : State) (b : Fin 24) (cause : Nat) : State :=
  ((if cause = 1 then (s.fenceShown b).ev 0x140 b (s.bench b).fenceSite else s.fenceShown b).ev 0x141 b (leBytes 1 b ++ leBytes 1 cause)).raise 81

theorem fenceComplete_shows (due : (s.bench b).fenceDue = some cause) (first : s.fenceBefore b = false) :
    fenceComplete s b = if cause = 5 then (s.fenceNoted b cause).cutBench b else s.fenceNoted b cause := by
  simp only [fenceComplete, due, first, Bool.false_eq_true, if_false]
  rfl

theorem State.fenceNoted_notes : (s.fenceShown b).Notes (s.fenceNoted b cause) :=
  ((State.Notes.ite (State.ev_notes _ _ _ _) (.refl _)).trans (State.ev_notes _ _ _ _)).trans (State.raise_notes _ _)

/-- A complete fence shows in its bench's queues and derricks, and reaches no other bench. -/
theorem fenceComplete_frame (due : (s.bench b).fenceDue = some cause) (first : s.fenceBefore b = false) :
    (∃ cut, (fenceComplete s b).bench b = { (s.bench b).shown with cut := cut }) ∧ (∀ c, b ≠ c → (fenceComplete s b).bench c = s.bench c)
      ∧ (fenceComplete s b).derricks = (s.fenceShown b).derricks ∧ (fenceComplete s b).mem = s.mem := by
  have stores : (s.fenceShown b).Stores (s.fenceNoted b cause) := State.fenceNoted_notes.stores
  have own : (s.fenceNoted b cause).bench b = (s.bench b).shown := by
    rw [stores.bench, State.bench_of_benches State.fenceShown_benches, State.bench_modBench]
  have others (c : Fin 24) (other : b ≠ c) : (s.fenceNoted b cause).bench c = s.bench c := by
    rw [stores.bench, State.bench_of_benches State.fenceShown_benches, State.modBench, State.bench_setBench_ne _ _ _ _ other]
  have mem : (s.fenceNoted b cause).mem = s.mem := State.fenceNoted_notes.mem
  rw [fenceComplete_shows due first]
  split
  · refine ⟨⟨true, ?_⟩, fun c other => ?_, stores.derricks, mem⟩
    · rw [State.cutBench, State.bench_modBench, ← own]
      rfl
    · exact (State.bench_setBench_ne _ _ _ _ other).trans (others c other)
  · exact ⟨⟨_, own⟩, others, stores.derricks, mem⟩

/-- The domain of a bench is off after it is cut. -/
theorem State.cutBench_domain (canonical : s.canonical = true) : (s.cutBench b).rbit R.PW_DOMAIN b = false := by
  have off := State.rbit_setFld (a := R.PW_DOMAIN) (b := R.PW_DOMAIN) (v := 0) (i := b) canonical (Nat.le_refl b.val) (by omega)
  refine Eq.trans ?_ (off.trans ?_)
  · rfl
  · simp

end Complete

/-! ### Corrected words (R423) and the bridge (R424) -/

section Bridge
variable {s : State} {b : Fin 24} {st dir addr fails : Nat} {wr : Bool} {who : Option TxnFor}

theorem benchError_recent {l : Nat} (last : (s.bench b).ceLast = some l) (recent : s.us < l + 1000000) : benchError s b st .corrected = s := by
  simp only [benchError, last, recent, if_true]

theorem benchError_logged (old : (s.bench b).ceLast = none ∨ ∃ l, (s.bench b).ceLast = some l ∧ l + 1000000 ≤ s.us) :
    benchError s b st .corrected = (s.ev 0x150 b (leBytes 1 b ++ leBytes 1 st)).modBench b (fun x => { x with ceLast := some s.us }) := by
  rcases old with none | ⟨l, last, old⟩
  · simp only [benchError, none]
  · simp only [benchError, last, Nat.not_lt.2 old, if_false]

theorem bridgeFlit_retraining (retraining : s.bridge.retraining = true) : bridgeFlit s dir addr fails wr who = s := if_pos retraining

theorem bridgeFlit_passes (ready : s.bridge.retraining = false) (few : fails < 16) :
    bridgeFlit s dir addr fails wr who = { s with bridge := { s.bridge with replays := s.bridge.replays + fails } } := by
  simp only [bridgeFlit, ready, few, Bool.false_eq_true, if_false, if_true]

/-- A flit that failed 16 times: counted, logged, and out as a poisoned response or a dropped write. -/
def State.bridgeLost (s : State) (dir addr : Nat) (wr : Bool) : State :=
  (({ s with bridge := { s.bridge with replays := s.bridge.replays + 15, retraining := true } } : State).ev 0x421 0xFF
    (leBytes 1 dir ++ leBytes 8 addr)).emit (.bridge (!wr) addr)

theorem State.bridgeLost_core : (s.bridgeLost dir addr wr).core b = s.core b := by
  simp [State.core, State.bridgeLost]

theorem State.bridgeLost_dk {d : Fin 48} : (s.bridgeLost dir addr wr).dk d = s.dk d := by
  simp [State.dk, State.bridgeLost]

section Lost
variable (ready : s.bridge.retraining = false) (many : 16 ≤ fails)
include ready many

theorem bridgeFlit_write : bridgeFlit s dir addr fails true who = s.bridgeLost dir addr true := by
  simp only [bridgeFlit, ready, Nat.not_lt.2 many, Bool.false_eq_true, if_false, if_true]
  rfl

theorem bridgeFlit_unnamed : bridgeFlit s dir addr fails false none = (s.bridgeLost dir addr false).spoil addr := by
  simp only [bridgeFlit, ready, Nat.not_lt.2 many, Bool.false_eq_true, if_false]
  rfl

theorem bridgeFlit_ring {r : Fin 64} : bridgeFlit s dir addr fails false (some (.ring r)) =
    (s.bridgeLost dir addr false).modRing r (fun x => { x with refused := true }) := by
  simp only [bridgeFlit, ready, Nat.not_lt.2 many, Bool.false_eq_true, if_false]
  rfl

theorem bridgeFlit_core {x : Fin 24} : bridgeFlit s dir addr fails false (some (.core x)) =
    if (s.core x).st = 2 then (s.bridgeLost dir addr false).coreFault x 4 0 addr else s.bridgeLost dir addr false := by
  rw [← State.bridgeLost_core (s := s) (dir := dir) (addr := addr) (wr := false)]
  simp only [bridgeFlit, ready, Nat.not_lt.2 many, Bool.false_eq_true, if_false]
  rfl

theorem bridgeFlit_derrick {d : Fin 48} {job : Nat} : bridgeFlit s dir addr fails false (some (.derrick d job)) =
    match (s.dk d).runs.find? (fun r => r.id == job) with
    | some r => (s.bridgeLost dir addr false).dkPoison d r addr
    | none => s.bridgeLost dir addr false := by
  rw [← State.bridgeLost_dk (s := s) (dir := dir) (addr := addr) (wr := false)]
  simp only [bridgeFlit, ready, Nat.not_lt.2 many, Bool.false_eq_true, if_false]
  rfl

end Lost

theorem bridgeRetry_idle (idle : s.bridge.replays = 0) : bridgeRetry s = s := if_pos idle
theorem bridgeRetry_reports (some : s.bridge.replays ≠ 0) : bridgeRetry s =
    { s.ev 0x420 0xFF (leBytes 4 s.bridge.replays) with bridge := { s.bridge with replays := 0 } } := by
  rw [bridgeRetry, if_neg some]

end Bridge

/-- What a fence of any cause leaves, as the statement of fences lists it. -/
theorem State.fence_empties {s : State} {b : Fin 24} (live : (s.bench b).out = false) (cause : Nat) (site : Bytes) :
    let t := s.fence b cause site
    (t.bench b).out = true ∧ (t.bench b).fenced = false ∧ (t.bench b).fenceDue = some cause ∧ (t.bench b).q.cmds = [] ∧ (t.bench b).mu.cmds = []
      ∧ (t.bench b).cr.cmds = [] ∧ (t.bench b).tiles = [] ∧ (t.bench b).inArray = [] ∧ (t.bench b).shadow = [] ∧ (t.core b).st = 3
      ∧ (t.core b).cause = 6 ∧ (t.dk (dkOf b 0)).q.cmds = [] ∧ (t.dk (dkOf b 1)).q.cmds = [] ∧ (∀ x, x ≠ b → t.bench x = s.bench x)
      ∧ t.colls = s.colls ∧ t.ports = s.ports := by
  have out : ((s.bench b).fencing cause site s.time).out = true := by simp [Bench.out, Bench.fencing]
  have fenced : ((s.bench b).fencing cause site s.time).fenced = false := Bench.fenced_of_live (x := s.bench b) live
  have derricks := State.dk_fence (cause := cause) (site := site) live
  have frame := State.fence_frame (cause := cause) (site := site) live
  simp only [State.bench_fence live, State.core_fence live]
  exact ⟨out, fenced, rfl, rfl, rfl, rfl, rfl, rfl, rfl, rfl, rfl, derricks.1, derricks.2,
    fun x other => State.bench_fence_ne live other.symm, frame.2⟩

/-- Settles O54: a fence is `State.fence_empties`, its completion `fenceComplete_frame`, and a bridge flit one equation for each outcome. -/
theorem fencesAndBridge : Obligations.FencesAndBridge := by
  unfold Obligations.FencesAndBridge
  intro s b tag pass row col site st dir addr fails cause wr who c
  refine ⟨fun live => ?_, fun out other => exec_next exec_residueMismatch (State.fence_again out (.inr other)),
    fun due now => ⟨_, exec_next exec_residueMismatch (State.fence_residue due now)⟩,
    fun out => ⟨exec_next exec_benchUncorrectable (State.fence_again out (.inl (by decide))),
      exec_next exec_benchUncorrectable (State.fence_again out (.inl (by decide))), if_pos out, if_pos out, if_pos out⟩,
    fun none => exec_next exec_fenceComplete (fenceComplete_none none), fun _ before => exec_next exec_fenceComplete (fenceComplete_waits before),
    fun due first => ?_, fun l last recent => exec_next exec_benchUncorrectable (benchError_recent last recent),
    fun old => exec_next exec_benchUncorrectable (benchError_logged old), fun retraining => exec_next exec_bridgeFlit (bridgeFlit_retraining retraining),
    fun ready => ⟨fun few => exec_next exec_bridgeFlit (bridgeFlit_passes ready few), fun many => ?_⟩,
    fun idle => exec_next exec_bridgeRetry (bridgeRetry_idle idle), fun some => exec_next exec_bridgeRetry (bridgeRetry_reports some), rfl⟩
  · simp only [List.forall_mem_cons, List.not_mem_nil, false_imp_iff, implies_true, and_true]
    exact ⟨⟨_, exec_residueMismatch, State.fence_empties live 1 _⟩, ⟨_, exec_benchUncorrectable, State.fence_empties live 2 _⟩,
      ⟨_, exec_benchUncorrectable, State.fence_empties live 3 _⟩⟩
  · obtain ⟨⟨cut, own⟩, others, derricks, mem⟩ := fenceComplete_frame due first
    have shown := State.dk_fenceShown (s := s) (b := b)
    refine ⟨_, exec_fenceComplete, ?_⟩
    rw [own, State.dk_of_derricks derricks, State.dk_of_derricks derricks]
    refine ⟨rfl, rfl, rfl, rfl, rfl, shown.1, shown.2, fun x other => others x other.symm, mem, fun five canonical => ?_⟩
    rw [fenceComplete_shows due first, if_pos five]
    exact State.cutBench_domain (State.fenceNoted_notes.2 ((State.Keeps.refl s).fenceShown.2 canonical))
  · refine ⟨fun write => ?_, fun read none => ?_, fun r read ring => ?_, fun x read core run => ?_, fun x read core idle => ?_,
      fun d job read derrick => ⟨fun none => ?_, fun r run => ?_⟩⟩
    · rw [write]
      exact exec_next exec_bridgeFlit (bridgeFlit_write ready many)
    · rw [read, none]
      exact exec_next exec_bridgeFlit (bridgeFlit_unnamed ready many)
    · rw [read, ring]
      exact exec_next exec_bridgeFlit (bridgeFlit_ring ready many)
    · rw [read, core]
      exact exec_next exec_bridgeFlit ((bridgeFlit_core ready many).trans (if_pos run))
    · rw [read, core]
      exact exec_next exec_bridgeFlit ((bridgeFlit_core ready many).trans (if_neg idle))
    · rw [read, derrick]
      exact exec_next exec_bridgeFlit ((bridgeFlit_derrick ready many).trans (by rw [none]; rfl))
    · rw [read, derrick]
      exact exec_next exec_bridgeFlit ((bridgeFlit_derrick ready many).trans (by rw [run]; rfl))

end Sys2Proof.Machine

namespace Sys2Proof.Machine

/-! ## Collective queues and the tally table (R334, R337, R340, R354 to R358) -/

/-! ### The queue of a unit -/

section CollQueue
variable {s : State} {u : Fin 4} {c : Cmd} {op v : Nat} {f : Cmd → State}

theorem exec_clNop : exec (.clNop u) s = .next (clNop s u) := rfl
theorem exec_clSyncWait : exec (.clSyncWait u) s = .next (clSyncWait s u) := rfl
theorem exec_clSyncSignal : exec (.clSyncSignal u) s = .next (clSyncSignal s u) := rfl
theorem exec_coll : exec (.coll u) s = .next (coll s u) := rfl
theorem exec_clResume : exec (.clResume u) s = .next (clResume s u) := rfl
theorem exec_clSkip : exec (.clSkip u) s = .next (clSkip s u) := rfl
theorem exec_clCntClr : exec (.clCntClr u) s = .next (clCntClr s u) := rfl
theorem exec_clTallySelWrite : exec (.clTallySelWrite v) s = .next (tallySelWrite s v) := rfl
theorem exec_clTallyFind : exec (.clTallyFind v) s = .next (tallyFind s v) := rfl
theorem exec_clTallyRetire : exec (.clTallyRetire v) s = .next (tallyRetire s v) := rfl
theorem exec_tallyExchangeStart : exec (.tallyExchangeStart none) s = .next (tallyStart s) := rfl
theorem exec_tpatienceExpiry : exec .tpatienceExpiry s = .next (tallyExpiry s) := rfl

/-- What the four rows of the queue have in common: each is one dispatch of its opcode. -/
theorem exec_collRows (i : Instr) (row : i ∈ [Instr.clNop u, .clSyncWait u, .clSyncSignal u, .coll u]) :
    ∃ op ∈ [0, 0x20, 0x21, 0x90], ∃ f, exec i s = .next (collDispatch s u op f) := by
  simp only [List.mem_cons, List.not_mem_nil, or_false] at row
  rcases row with rfl | rfl | rfl | rfl
  · exact ⟨0, by decide, _, rfl⟩
  · exact ⟨0x20, by decide, _, rfl⟩
  · exact ⟨0x21, by decide, _, rfl⟩
  · exact ⟨0x90, by decide, _, rfl⟩

theorem collDispatch_waits (wait : (s.coll u).wait = true) : collDispatch s u op f = s := if_pos wait

section Dispatched
variable (idle : (s.coll u).wait = false)
include idle

theorem collDispatch_ready (ready : (s.coll u).q.ready op c = true) : collDispatch s u op f = f c := by
  simp only [collDispatch, idle, Bool.false_eq_true, if_false]
  exact dispatch_ready ready

theorem collDispatch_parity (head : (s.coll u).q.head? = some c) (bad : c.parOk = false) :
    collDispatch s u op f = (s.ev 0x902 u (leBytes 1 u)).collHalt u 2 0 c.tag := by
  simp [collDispatch, idle, dispatch, head, bad, EQ.cmds_head? head]

theorem collDispatch_unlisted (head : (s.coll u).q.head? = some c) (good : c.parOk = true) (unlisted : c.op ∉ [0, 0x20, 0x21, 0x90])
    (row : op ∈ [0, 0x20, 0x21, 0x90]) : collDispatch s u op f = s.collRefuse u 1 c := by
  have other : c.op ≠ op := fun same => unlisted (same ▸ row)
  have unknown : [0, 0x20, 0x21, 0x90].contains c.op = false := by simpa using unlisted
  simp only [collDispatch, idle, dispatch, head, good, other, unknown, Bool.not_true, Bool.false_eq_true, if_false]

theorem clNop_ready (ready : (s.coll u).q.ready 0x00 c = true) : clNop s u = s.collPop u := collDispatch_ready idle ready

theorem clSyncWait_ready (ready : (s.coll u).q.ready 0x20 c = true) : clSyncWait s u = if c.w 2 ≤ s.syncVal (c.f 1 7 0) then s.collPop u else s :=
  collDispatch_ready idle ready

theorem clSyncSignal_ready (ready : (s.coll u).q.ready 0x21 c = true) : clSyncSignal s u =
    if c.b 1 8 && (s.coll u).live (s.coll u).q.nextJob then s.modColl u (fun y => { y with q := y.q.pop.defer (c.f 1 7 0) })
    else (s.collPop u).addSync (c.f 1 7 0) 1 := collDispatch_ready idle ready

theorem coll_full (ready : (s.coll u).q.ready 0x90 c = true) (full : 4 ≤ (s.coll u).runs.length) : coll s u = s :=
  (collDispatch_ready idle ready).trans (if_pos full)

section Room
variable (ready : (s.coll u).q.ready 0x90 c = true) (room : (s.coll u).runs.length < 4)
include ready room

theorem coll_refused {item : Nat} (fails : collItem s c = some item) : coll s u = s.collRefuse u item c := by
  rw [coll, collDispatch_ready idle ready, if_neg (Nat.not_le.2 room), fails]

theorem coll_tableFull (passes : collItem s c = none) (new : s.tallyOf (Col.id c) = none) (full : s.tallyFree = none) :
    coll s u = (s.ev 0x915 u (leBytes 3 c.tag)).collHalt u 4 0 c.tag := by
  rw [coll, collDispatch_ready idle ready, if_neg (Nat.not_le.2 room)]
  simp only [passes, new, full]

/-- The tally entry of a COLL that passes: the one that its identifier has, or the lowest free one (R354). -/
theorem coll_starts {i : Nat} {e : Tally} (passes : collItem s c = none)
    (entry : s.tallyOf (Col.id c) = some (i, e) ∨ (s.tallyOf (Col.id c) = none ∧ s.tallyFree = some i ∧ e = { id := Col.id c })) :
    coll s u = if Col.comp c then ((s.setTally i e).modColl u (fun x => { x with wait := true })).submitClaim (.coll u)
        (Col.strmStep (s.bytes (Col.aux c) 64)) (Col.strmRef (s.bytes (Col.aux c) 64))
      else collBegin (s.setTally i e) u c none := by
  rw [coll, collDispatch_ready idle ready, if_neg (Nat.not_le.2 room)]
  rcases entry with old | ⟨new, free, rfl⟩
  · simp only [passes, old]
  · simp only [passes, new, free]

end Room
end Dispatched

theorem Coll.live_eq_true {x : Coll} {n : Nat} : x.live n = true ↔ ∃ r ∈ x.runs, r.job < n := by simp [Coll.live]

/-! ### Its registers that act (R358) -/

theorem clResume_running (run : (s.coll u).q.cause = 0) : clResume s u = s := by simp [clResume, EQ.halted_eq_false run]
theorem clSkip_running (run : (s.coll u).q.cause = 0) : clSkip s u = s := by simp [clSkip, EQ.halted_eq_false run]

theorem clResume_halted (halt : (s.coll u).q.cause ≠ 0) :
    clResume s u = (s.modColl u (fun x => { x with q := { x.q with cause := 0 } })).setFld (R.CL_FAULT u) 31 31 0 := by
  simp [clResume, EQ.halted_eq_true halt]

theorem clSkip_halted {rest : List Cmd} (halt : (s.coll u).q.cause ≠ 0) (head : (s.coll u).q.cmds = c :: rest) : clSkip s u =
    if c.op = 0x90 then (({ s with early := s.early.filter (fun f => f.id != Col.id c) } : State).collPop u).collCount u 6
      (s.early.filter (fun f => f.id == Col.id c)).length
    else s.collPop u := by
  simp only [clSkip, EQ.halted_eq_true halt, head]

theorem clCntClr_clears (canonical : s.canonical = true) : (∀ i : Fin 8, (clCntClr s u).rn (R.CL_COUNT u i) = 0)
    ∧ (clCntClr s u).colls = s.colls ∧ (clCntClr s u).tally = s.tally ∧ (clCntClr s u).mem = s.mem := by
  refine ⟨fun i => State.rn_foldl_setRn (List.range 8) s canonical (.inr (List.mem_range.2 i.isLt)), ?_⟩
  obtain ⟨regs, same⟩ := State.foldl_setRn (s := s) (addr := R.CL_COUNT u) (List.range 8)
  rw [clCntClr, same]
  exact ⟨rfl, rfl, rfl⟩

end CollQueue

/-! ### The views of the tally table (R354, R358) -/

section Views
variable {s : State} {t : Option Tally} {v : Nat}

theorem State.tallyView_eq : s.tallyView t = (((s.setRn (R.CL_TALLY_VIEW 0) ((t.map Tally.id).getD 0)).setRn (R.CL_TALLY_VIEW 1)
    ((t.map Tally.sent).getD 0)).setRn (R.CL_TALLY_VIEW 2) ((t.map Tally.recv).getD 0)).setRn (R.CL_TALLY_VIEW 3) (b2n t.isSome) := rfl

theorem State.tallyView_tally : (s.tallyView t).tally = s.tally := by
  rw [State.tallyView_eq, State.setRn_tally, State.setRn_tally, State.setRn_tally, State.setRn_tally]

theorem tallyView_apart {i j : Nat} (other : i ≠ j) : R.CL_TALLY_VIEW i ≠ R.CL_TALLY_VIEW j := by
  simp only [R.CL_TALLY_VIEW]
  omega

theorem State.tallyView_shows (canonical : s.canonical = true) : (s.tallyView t).rn (R.CL_TALLY_VIEW 0) = ((t.map Tally.id).getD 0) % 2 ^ 64
    ∧ (s.tallyView t).rn (R.CL_TALLY_VIEW 1) = ((t.map Tally.sent).getD 0) % 2 ^ 64
    ∧ (s.tallyView t).rn (R.CL_TALLY_VIEW 2) = ((t.map Tally.recv).getD 0) % 2 ^ 64 ∧ (s.tallyView t).rn (R.CL_TALLY_VIEW 3) = b2n t.isSome := by
  have one := (s.setRn_keeps (R.CL_TALLY_VIEW 0) ((t.map Tally.id).getD 0)).2 canonical
  have two := (State.setRn_keeps _ (R.CL_TALLY_VIEW 1) ((t.map Tally.sent).getD 0)).2 one
  have three := (State.setRn_keeps _ (R.CL_TALLY_VIEW 2) ((t.map Tally.recv).getD 0)).2 two
  rw [State.tallyView_eq]
  refine ⟨?_, ?_, ?_, ?_⟩
  · rw [State.rn_setRn_ne three (tallyView_apart (by decide)), State.rn_setRn_ne two (tallyView_apart (by decide)),
      State.rn_setRn_ne one (tallyView_apart (by decide)), State.rn_setRn_self canonical]
  · rw [State.rn_setRn_ne three (tallyView_apart (by decide)), State.rn_setRn_ne two (tallyView_apart (by decide)), State.rn_setRn_self one]
  · rw [State.rn_setRn_ne three (tallyView_apart (by decide)), State.rn_setRn_self two]
  · rw [State.rn_setRn_self three]
    cases t.isSome <;> rfl

end Views

/-! ### The tally exchange (R355) -/

section Exchange
variable {s : State} {x : TallyX} {i j : Nat} {e : Tally}

theorem tallyStart_waits (h : s.undecided = false ∨ s.cmState ≠ 1 ∨ s.cm.tx ≠ none ∨ ∃ d ∈ s.cm.ids, s.collUnit d ≠ none) : tallyStart s = s := by
  refine if_pos ?_
  rcases h with h | h | h | ⟨d, mem, h⟩
  · simp [h]
  · simp [h]
  · simp [Option.isNone_eq_false_iff.2 (Option.isSome_iff_ne_none.2 h)]
  · have runs : s.cm.ids.all (fun d => (s.collUnit d).isNone) = false :=
      List.all_eq_false.2 ⟨d, mem, by simpa [Option.isNone_iff_eq_none] using h⟩
    simp [runs]

/-- SENT − RECV of the listed collectives, 0 for one without an entry. -/
def State.tallyOwn (s : State) : List Nat :=
  (s.cm.ids.map s.tallyOf).map (fun e => match e with | some (_, t) => (t.sent + 2 ^ 64 - t.recv) % 2 ^ 64 | none => 0)

/-- Is a listed entry uncorrectable? -/
def State.tallyBad (s : State) : Bool := (s.cm.ids.map s.tallyOf).any (fun e => match e with | some (_, t) => t.bad | none => false)

/-- The exchange that a prepare begins. -/
def State.exchange (s : State) : TallyX := { step := s.cmStep, tree := s.cmLive, own := s.tallyOwn, bad := s.tallyBad }

/-- The exchange begun, its early flits taken out. -/
def State.exchanging (s : State) : State :=
  ({ s with early := s.early.filter (fun f => f.id != exchangeId s.cmStep) } : State).modCm (fun c => { c with tx := some s.exchange })

theorem tallyStart_begins (undecided : s.undecided = true) (state : s.cmState = 1) (idle : s.cm.tx = none)
    (ended : ∀ d ∈ s.cm.ids, s.collUnit d = none) : tallyStart s = (s.early.filter (fun f => f.id == exchangeId s.cmStep)).foldl tallyFlit
      (if (s.exchange.children s.dev).isEmpty then s.exchanging.tallySum s.exchange else s.exchanging) := by
  refine (if_neg ?_).trans rfl
  have all : s.cm.ids.all (fun d => (s.collUnit d).isNone) = true := List.all_eq_true.2 fun d mem => by simp [ended d mem]
  simp [undecided, state, idle, all]

theorem exec_tallyExchangeStart_absent (absent : s.tally.find? (fun e => e.1 == i) = none) :
    exec (.tallyExchangeStart (some i)) s = exec (.tallyExchangeStart none) s := by
  refine Eq.trans (b := .next (tallyStart (tallyUe s i))) rfl ?_
  rw [tallyUe, absent]
  rfl

theorem exec_tallyExchangeStart_bad (entry : s.tally.find? (fun e => e.1 == i) = some (j, e)) : exec (.tallyExchangeStart (some i)) s =
    exec (.tallyExchangeStart none) ((s.setTally j { e with bad := true }).ev 0x917 0 (leBytes 8 e.id)) := by
  refine Eq.trans (b := .next (tallyStart (tallyUe s i))) rfl ?_
  rw [tallyUe, entry]
  rfl

theorem tallyExpiry_none (idle : s.cm.tx = none) : tallyExpiry s = s := by simp only [tallyExpiry, idle]
theorem tallyExpiry_runs (run : s.cm.tx = some x) : tallyExpiry s = if x.sent then s else s.tallySum x := by simp only [tallyExpiry, run]

end Exchange

/-- Settles O48: the head of a collective queue is one dispatch, a COLL that passes has its tally entry, and the exchange takes the early flits. -/
theorem collectiveQueueAndTally : Obligations.CollectiveQueueAndTally := by
  unfold Obligations.CollectiveQueueAndTally
  intro s u c v q pop k
  refine ⟨fun idle => ?_, fun wait i row => ?_, fun halt => exec_next exec_clResume (clResume_halted halt),
    fun run => ⟨exec_next exec_clResume (clResume_running run), exec_next exec_clSkip (clSkip_running run)⟩, fun h rest halt head => ?_,
    fun canonical => ?_, ⟨_, exec_clTallyRetire, rfl, fun e => ?_⟩, fun h => exec_next exec_tallyExchangeStart (tallyStart_waits h),
    fun undecided state idle ended => ?_, fun i => ⟨exec_tallyExchangeStart_absent, fun j e => exec_tallyExchangeStart_bad⟩,
    fun idle => exec_next exec_tpatienceExpiry (tallyExpiry_none idle),
    fun x run => ⟨fun sent => exec_next exec_tpatienceExpiry ((tallyExpiry_runs run).trans (if_pos sent)),
      fun unsent => exec_next exec_tpatienceExpiry ((tallyExpiry_runs run).trans (if_neg (by simp [unsent])))⟩⟩
  · refine ⟨fun ready => exec_next exec_clNop (clNop_ready idle ready),
      fun ready reached => exec_next exec_clSyncWait ((clSyncWait_ready idle ready).trans (if_pos reached)),
      fun ready short => exec_next exec_clSyncWait ((clSyncWait_ready idle ready).trans (if_neg (Nat.not_le.2 short))),
      fun ready free => exec_next exec_clSyncSignal ((clSyncSignal_ready idle ready).trans (if_neg ?_)),
      fun ready when1 live => exec_next exec_clSyncSignal ((clSyncSignal_ready idle ready).trans (if_pos ?_)), fun head bad i row => ?_,
      fun head good unlisted i row => ?_, fun ready full => exec_next exec_coll (coll_full idle ready full), fun ready room =>
      ⟨fun item fails => exec_next exec_coll (coll_refused idle ready room fails),
        fun passes new full => exec_next exec_coll (coll_tableFull idle ready room passes new full), fun i e passes entry =>
        ⟨fun plain => exec_next exec_coll ((coll_starts idle ready room passes entry).trans (if_neg (by simp [plain]))),
          fun comp => exec_next exec_coll ((coll_starts idle ready room passes entry).trans (if_pos comp))⟩⟩⟩
    · rw [Bool.and_eq_true, Coll.live_eq_true]
      rintro ⟨when1, r, mem, before⟩
      rcases free with when0 | ended
      · rw [when0] at when1
        cases when1
      · exact Nat.not_lt.2 (ended r mem) before
    · rw [Bool.and_eq_true, Coll.live_eq_true]
      exact ⟨when1, live⟩
    · obtain ⟨op, -, f, row⟩ := exec_collRows (s := s) i row
      exact exec_next row (collDispatch_parity idle head bad)
    · obtain ⟨op, listed, f, row⟩ := exec_collRows (s := s) i row
      exact exec_next row (collDispatch_unlisted idle head good unlisted listed)
  · obtain ⟨op, -, f, row⟩ := exec_collRows (s := s) i row
    exact exec_next row (collDispatch_waits wait)
  · exact ⟨fun other => exec_next exec_clSkip ((clSkip_halted halt head).trans (if_neg other)),
      fun coll => exec_next exec_clSkip ((clSkip_halted halt head).trans (if_pos coll))⟩
  · have selected := (s.setRn_keeps R.CL_TALLY_SEL (v % 4096)).2 canonical
    refine ⟨⟨_, exec_clCntClr, clCntClr_clears canonical⟩, fun i x found => ?_, fun absent => ?_, fun i x found => ?_, fun absent => ?_⟩
    · obtain ⟨id, sent, recv, valid⟩ := State.tallyView_shows (t := some x) selected
      refine ⟨_, exec_clTallySelWrite, ?_⟩
      rw [tallySelWrite, found]
      exact ⟨id, sent, recv, valid, State.tallyView_tally⟩
    · obtain ⟨id, sent, recv, valid⟩ := State.tallyView_shows (t := none) selected
      refine ⟨_, exec_clTallySelWrite, ?_⟩
      rw [tallySelWrite, absent]
      refine ⟨fun i => ?_, State.tallyView_tally⟩
      match i with
      | 0 => exact id
      | 1 => exact sent
      | 2 => exact recv
      | 3 => exact valid
    · obtain ⟨-, sent, recv, valid⟩ := State.tallyView_shows (t := some x) canonical
      refine ⟨_, exec_clTallyFind, ?_⟩
      rw [tallyFind, found]
      exact ⟨sent, recv, valid, State.tallyView_tally⟩
    · obtain ⟨-, -, -, valid⟩ := State.tallyView_shows (t := none) canonical
      refine ⟨_, exec_clTallyFind, ?_⟩
      rw [tallyFind, absent]
      exact ⟨valid, State.tallyView_tally⟩
  · rw [tallyRetire, List.mem_filter, decide_eq_true_iff]
  · intro own bad x held s1
    have begins := exec_next exec_tallyExchangeStart (tallyStart_begins undecided state idle ended)
    refine ⟨fun kids => begins.trans ?_, fun alone => begins.trans ?_⟩
    · have more : (s.exchange.children s.dev).isEmpty = false := List.isEmpty_eq_false_iff.2 kids
      rw [more]
      rfl
    · have none : (s.exchange.children s.dev).isEmpty = true := List.isEmpty_iff.2 alone
      rw [none]
      rfl

end Sys2Proof.Machine

namespace Sys2Proof.Machine

/-! ## Command rings, their records and interrupts (R364 to R371) -/

section Rows
variable {s : State} {r : Fin 64} {v : Nat} {x : Fin 512}

theorem exec_hxDb : exec (.hxDb r v) s = .next (hxDb s r v) := rfl
theorem exec_ringFetch {d : Option Bytes} : exec (.ringFetch r d) s = .next (ringFetch s r d) := rfl
theorem exec_ringEntryComplete {ok : Bool} : exec (.ringEntryComplete r ok) s = .next (ringComplete s r ok) := rfl
theorem exec_hxRbCfgWrite : exec (.hxRbCfgWrite r v) s = .next (hxRbCfg s r v) := rfl
theorem exec_hxCntClr : exec .hxCntClr s = .next (hxCntClr s) := rfl
theorem exec_msixModExpiry : exec (.msixModExpiry r) s = .next (msixModExpiry s r) := rfl
theorem exec_msixUnmask {all : Bool} : exec (.msixUnmask x all) s = .next (msixUnmask s x all) := rfl
theorem exec_functionLevelReset : exec .functionLevelReset s = .next (functionReset s) := rfl
theorem exec_perstN : exec .perstN s = .next (perstN s) := rfl

end Rows

/-! ### What the host interface changes -/

/-- What rings, records and interrupts change: the rings, the outputs, the log and registers. -/
def State.HostWork (s t : State) : Prop :=
  t = { s with rings := t.rings, out := t.out, regs := t.regs, log := t.log, logSeq := t.logSeq, flashLog := t.flashLog, flashSeq := t.flashSeq }

section HostWork
variable {s t u : State} {r : Fin 64} {f : Ring → Ring}

theorem State.HostWork.refl (s : State) : s.HostWork s := rfl

theorem State.HostWork.trans (h : s.HostWork t) (k : t.HostWork u) : s.HostWork u := by
  unfold State.HostWork at *
  rw [k, h]

theorem State.Notes.hostWork (h : s.Notes t) : s.HostWork t := by
  unfold State.HostWork
  rw [h.1]

theorem State.HostWork.ite {p : Prop} {_ : Decidable p} (h : s.HostWork t) (k : s.HostWork u) : s.HostWork (if p then t else u) := by
  split
  · exact h
  · exact k

theorem State.HostWork.modRing (h : s.HostWork t) : s.HostWork (t.modRing r f) := h.trans rfl
theorem State.HostWork.setRn {a v : Nat} (h : s.HostWork t) : s.HostWork (t.setRn a v) := h.trans rfl
theorem State.HostWork.emit {o : Out} (h : s.HostWork t) : s.HostWork (t.emit o) := h.trans rfl
theorem State.HostWork.raise {n : Nat} (h : s.HostWork t) : s.HostWork (t.raise n) := h.trans (t.raise_notes n).hostWork
theorem State.HostWork.ev {code src : Nat} {bs : Bytes} (h : s.HostWork t) : s.HostWork (t.ev code src bs) := h.trans (t.ev_notes code src bs).hostWork
theorem State.HostWork.ringHalt {err : Nat} (h : s.HostWork t) : s.HostWork (t.ringHalt r err) := h.modRing.setRn.ev
theorem State.HostWork.fetchMore (h : s.HostWork t) : s.HostWork (t.fetchMore r) := .ite (.ite h.modRing.emit.emit h.modRing.emit) h

theorem State.HostWork.ringIrq (h : s.HostWork t) : s.HostWork (t.ringIrq r) := by
  simp only [State.ringIrq]
  refine .ite h ?_
  split
  · exact .ite h.modRing h.modRing.raise
  · exact h.modRing.raise

/-- Neither memory nor a core nor a bench takes part. -/
theorem State.HostWork.holds (h : s.HostWork t) : t.mem = s.mem ∧ t.cores = s.cores ∧ t.benches = s.benches := by
  rw [h]
  exact ⟨rfl, rfl, rfl⟩

theorem State.ring_of_rings (h : t.rings = s.rings) (k : Fin 64) : t.ring k = s.ring k := congrArg (·[k]) h

theorem State.ring_modRing_ne {k : Fin 64} (other : k ≠ r) : (s.modRing r f).ring k = s.ring k :=
  Vector.getElem_set_ne r.isLt k.isLt fun same => other (Fin.ext same.symm)

@[simp] theorem State.ring_setRn (a v : Nat) (k : Fin 64) : (s.setRn a v).ring k = s.ring k := rfl
@[simp] theorem State.ring_emit (o : Out) (k : Fin 64) : (s.emit o).ring k = s.ring k := rfl
theorem State.rn_emit (o : Out) (a : Nat) : (s.emit o).rn a = s.rn a := rfl
theorem State.out_emit (o : Out) : (s.emit o).out = s.out ++ [o] := rfl
@[simp] theorem State.ring_raise (n : Nat) (k : Fin 64) : (s.raise n).ring k = s.ring k := State.ring_of_rings (by simp) k
@[simp] theorem State.ring_ev (code src : Nat) (bs : Bytes) (k : Fin 64) : (s.ev code src bs).ring k = s.ring k := State.ring_of_rings (by simp) k

end HostWork

/-! ### Registers of the host interface -/

/-- The pending bits of the vectors (R368). -/
def pendingBit (a : Nat) : Prop := ∃ i, a = R.HX_MSIX_PBA i

theorem not_pendingBit {k : Nat} (below : k < 0xa000) : ¬pendingBit (HX.base + k) := by
  rintro ⟨i, same⟩
  simp only [R.HX_MSIX_PBA] at same
  omega

theorem State.rn_of_regs {s t : State} (h : t.regs = s.regs) (a : Nat) : t.rn a = s.rn a := by rw [State.rn, State.reg, h, State.rn, State.reg]

section Rings
variable {s t : State} {r : Fin 64} {err : Nat}

theorem State.rn_modRing {f : Ring → Ring} (a : Nat) : (s.modRing r f).rn a = s.rn a := rfl

/-! ### Halts (R366) -/

theorem Ring.stop_q (x : Ring) : (x.stop false).q = x.q.take 1 := by simp [Ring.stop]

theorem State.ring_ringHalt : (s.ringHalt r err).ring r = (s.ring r).stop false := by
  rw [State.ringHalt, State.ring_ev, State.ring_setRn, State.ring_modRing]

theorem State.ring_ringHalt_ne {k : Fin 64} (other : k ≠ r) : (s.ringHalt r err).ring k = s.ring k := by
  rw [State.ringHalt, State.ring_ev, State.ring_setRn, State.ring_modRing_ne other]

/-- A halted ring drops the entries that wait behind the one that runs. -/
theorem State.ringHalt_cuts (rings : s.rings = t.rings) : ((s.ringHalt r err).ring r).q = (t.ring r).q.take 1
    ∧ ∀ k, k ≠ r → (s.ringHalt r err).ring k = t.ring k :=
  ⟨by rw [State.ring_ringHalt, Ring.stop_q, State.ring_of_rings rings], fun k other => by
    rw [State.ring_ringHalt_ne other, State.ring_of_rings rings]⟩

theorem State.rn_ringHalt (canonical : s.canonical = true) (small : err < 256) :
    (s.ringHalt r err).rn (R.HX_RB_STATUS r) = err * 256 + 2 + s.rn (R.HX_RB_STATUS r) % 2 := by
  have stopped : (s.modRing r (fun x => x.stop false)).canonical = true := (State.Keeps.refl s).modRing.2 canonical
  have place : R.HX_RB_STATUS r = HX.base + (0x4028 + 64 * r) := by simp only [R.HX_RB_STATUS]; omega
  rw [State.ringHalt, State.rn_ev, State.rn_setRn_self stopped, Nat.mod_eq_of_lt (by omega)]
  · exact fun i same => not_pendingBit (by omega : 0x4028 + 64 * r.val < 0xa000) ⟨i, place ▸ same⟩
  · exact (State.setRn_keeps _ _ _).2 stopped

/-- A halted ring shows its cause and fetches no more. -/
theorem State.ringHalt_shows (canonical : s.canonical = true) (small : err < 256) :
    (s.ringHalt r err).ringOn r = false ∧ (s.ringHalt r err).rfld (R.HX_RB_STATUS r) 15 8 = err := by
  have status := State.rn_ringHalt (r := r) canonical small
  have halted : (s.ringHalt r err).rbit (R.HX_RB_STATUS r) 1 = true := by
    rw [State.rbit, status, Nat.testBit_eq_decide_div_mod_eq, decide_eq_true_iff]
    omega
  refine ⟨by rw [State.ringOn, halted, Bool.not_true, Bool.and_false], ?_⟩
  rw [State.rfld, status, bits, Nat.shiftRight_eq_div_pow]
  omega

/-! ### Fetches (R364) -/

theorem State.fetchMore_cases {p : State → Prop} (same : p s)
    (one : ∀ n o, p ((s.modRing r (fun y => { y with asked := y.asked + n })).emit o))
    (two : ∀ n o o', p (((s.modRing r (fun y => { y with asked := y.asked + n })).emit o).emit o')) : p (s.fetchMore r) := by
  simp only [State.fetchMore]
  split
  · split
    · exact two _ _ _
    · exact one _ _
  · exact same

theorem State.ring_fetchMore (s : State) (r : Fin 64) : ∃ n, (s.fetchMore r).ring r = { s.ring r with asked := (s.ring r).asked + n } := by
  refine State.fetchMore_cases (p := fun t => ∃ n, t.ring r = { s.ring r with asked := (s.ring r).asked + n }) ⟨0, rfl⟩ ?_ ?_
  · exact fun n o => ⟨n, by rw [State.ring_emit, State.ring_modRing]⟩
  · exact fun n o o' => ⟨n, by rw [State.ring_emit, State.ring_emit, State.ring_modRing]⟩

theorem State.ring_fetchMore_ne {k : Fin 64} (other : k ≠ r) : (s.fetchMore r).ring k = s.ring k := by
  refine State.fetchMore_cases (p := fun t => t.ring k = s.ring k) rfl ?_ ?_
  · exact fun n o => by rw [State.ring_emit, State.ring_modRing_ne other]
  · exact fun n o o' => by rw [State.ring_emit, State.ring_emit, State.ring_modRing_ne other]

theorem State.fetchMore_regs (s : State) (r : Fin 64) : (s.fetchMore r).regs = s.regs :=
  State.fetchMore_cases (p := fun t => t.regs = s.regs) rfl (fun _ _ => rfl) fun _ _ _ => rfl

theorem State.rn_fetchMore (a : Nat) : (s.fetchMore r).rn a = s.rn a := State.rn_of_regs (s.fetchMore_regs r) a

theorem State.fetchMore_out (s : State) (r : Fin 64) : s.out <+: (s.fetchMore r).out :=
  State.fetchMore_cases (p := fun t => s.out <+: t.out) (List.prefix_refl _) (fun _ _ => List.prefix_append _ _)
    fun _ _ _ => (List.prefix_append _ _).trans (List.prefix_append _ _)

theorem hxDb_inside {v : Nat} (inside : v % 2 ^ 16 < s.ringSize r) : hxDb s r v = (s.setRn (R.HX_DB r) (v % 2 ^ 16)).fetchMore r :=
  if_neg (Nat.not_le.2 inside)

theorem hxDb_outside {v : Nat} (outside : s.ringSize r ≤ v % 2 ^ 16) : hxDb s r v = (s.setRn (R.HX_DB r) (v % 2 ^ 16)).ringHalt r 1 :=
  if_pos outside

section Fetch
variable (on : s.ringOn r = true) (up : s.hostUp = true)
include on up

theorem ringFetch_error : ringFetch s r none = s.ringHalt r 2 := by simp [ringFetch, on, up]

/-- The entry that 64 fetched bytes hold. -/
def State.fetchedEntry (s : State) (r : Fin 64) (d : Bytes) : RingEntry :=
  { cmd := Cmd.ofBytes d, slot := (s.ring r).next % s.ringSize r,
    phase := if (s.ring r).next < s.ringSize r then (s.ring r).phase else !(s.ring r).phase, time := s.us }

/-- One entry's bytes, with room and one entry ahead: it comes behind those that wait. -/
theorem ringFetch_one {d : Bytes} (one : d.length = 64) (room : (s.ring r).q.length ≤ 16) (ahead : 0 < s.ringAhead r) :
    ∃ f, ringFetch s r (some d) = ((s.modRing r f).addReg (R.HX_COUNT 2) 64).setFld (R.HX_RB_STATUS r) 0 0 1
      ∧ (f (s.ring r)).q = (s.ring r).q ++ [s.fetchedEntry r d] := by
  have n : min (min (17 - (s.ring r).q.length) (s.ringAhead r)) (d.length / 64) = 1 := by
    rw [one]
    omega
  have whole : (d.drop (64 * 0)).take 64 = d := List.take_of_length_le (by simp [one])
  have runs : b2n (decide (0 < (s.ring r).q.length + 1)) = 1 := by simp [b2n]
  simp only [ringFetch, on, up, n, runs, List.range_one, List.map_cons, List.map_nil, whole]
  exact ⟨_, rfl, rfl⟩

end Fetch

/-! ### Completion records (R365) -/

theorem State.ring_ringIrq (s : State) (r : Fin 64) : ∃ l h, (s.ringIrq r).ring r = { s.ring r with lastIrq := l, held := h } := by
  simp only [State.ringIrq]
  split
  · exact ⟨_, _, rfl⟩
  · split
    · split
      · exact ⟨_, _, State.ring_modRing s r _⟩
      · exact ⟨_, _, by rw [State.ring_raise, State.ring_modRing]⟩
    · exact ⟨_, _, by rw [State.ring_raise, State.ring_modRing]⟩

theorem State.ringIrq_counts (s : State) (r : Fin 64) : s.Counts pendingBit (s.ringIrq r) := by
  have raised (f : Ring → Ring) : s.Counts pendingBit ((s.modRing r f).raise r) := fun canonical =>
    have stopped : (s.modRing r f).canonical = true := (State.Keeps.refl s).modRing.2 canonical
    ⟨(State.raise_notes _ _).2 stopped, fun a apart => State.rn_raise (fun i same => apart ⟨i, same⟩) stopped _⟩
  simp only [State.ringIrq]
  split
  · exact .refl s
  · split
    · split
      · exact .of_eq rfl rfl rfl rfl
      · exact raised _
    · exact raised _

theorem State.ringIrq_out (s : State) (r : Fin 64) : s.out <+: (s.ringIrq r).out := by
  simp only [State.ringIrq]
  split
  · exact List.prefix_refl _
  · split
    · split
      · exact List.prefix_refl _
      · exact State.raise_out (s := s.modRing r _) _
    · exact State.raise_out (s := s.modRing r _) _

theorem ringComplete_d3 (d3 : s.pci.d3 = true) (ok : Bool) : ringComplete s r ok = s := by
  simp only [ringComplete, d3, if_true]
  split <;> rfl

section Record
variable {e : RingEntry} {rest : List RingEntry} {st res : Nat} (head : (s.ring r).q = e :: rest) (decided : e.done = some (st, res))
  (ended : e.started = false) (heard : e.silent = false) (d0 : s.pci.d3 = false)
include head decided ended heard d0

/-- The head entry taken out, and RUNNING for what is left. -/
def State.entryOut (s : State) (r : Fin 64) (rest : List RingEntry) : State :=
  (s.modRing r (fun x => { x with q := rest })).setFld (R.HX_RB_STATUS r) 0 0 (b2n (!rest.isEmpty))

/-- The record written, HEAD past its slot. -/
def State.recorded (s : State) (r : Fin 64) (e : RingEntry) (rest : List RingEntry) (d : Nat × Nat) : State :=
  let a := s.rfld (R.HX_CQ_BASE r) 63 12 * 4096 + 32 * e.slot
  let s1 := s.entryOut r rest
  (((if s1.rbit R.HX_CTRL 0 then s1.emit (.hostRead a 0) else s1).emit (.hostWrite a (ringRecord s e d))).addReg (R.HX_COUNT 2) 32).setRn
    (R.HX_RB_HEAD r) ((e.slot + 1) % s.ringSize r)

theorem ringComplete_records (up : s.hostUp = true) : ringComplete s r true = ((s.recorded r e rest (st, res)).ringIrq r).fetchMore r := by
  have status : s.ringStatus r e = some (st, res) := by simp only [State.ringStatus, decided]
  simp only [ringComplete, head, d0, status, ended, heard, Bool.false_eq_true, if_false]
  exact (if_neg (by simp [up])).trans rfl

theorem ringComplete_refused : ringComplete s r false =
    (((s.entryOut r rest).modRing r (fun x => { x with q := [], asked := 0 })).setFld (R.HX_RB_STATUS r) 0 0 0).ringHalt r 3 := by
  have status : s.ringStatus r e = some (st, res) := by simp only [State.ringStatus, decided]
  simp only [ringComplete, head, d0, status, ended, heard, Bool.false_eq_true, if_false, Bool.false_and, Bool.not_false, if_true]
  rfl

end Record

theorem State.ringSize_le (s : State) (k : Nat) : s.ringSize k ≤ 2 ^ 15 :=
  Nat.pow_le_pow_right (by decide) (Nat.le_of_lt_succ (bits_lt _ 51 48))

theorem State.entryOut_work (rest : List RingEntry) : s.HostWork (s.entryOut r rest) := (State.HostWork.refl s).modRing.setRn

theorem State.recorded_work (e : RingEntry) (rest : List RingEntry) (d : Nat × Nat) : s.HostWork (s.recorded r e rest d) :=
  State.HostWork.setRn (.setRn (.emit (.ite (State.entryOut_work rest).emit (State.entryOut_work rest))))

theorem State.recorded_canonical (canonical : s.canonical = true) (e : RingEntry) (rest : List RingEntry) (d : Nat × Nat) :
    (s.recorded r e rest d).canonical = true :=
  have taken : s.Keeps (s.entryOut r rest) := (State.Keeps.refl s).modRing.setFld
  (State.Keeps.setRn (.addReg (.emit (.ite taken.emit taken)))).2 canonical

theorem State.ring_recorded (e : RingEntry) (rest : List RingEntry) (d : Nat × Nat) : ((s.recorded r e rest d).ring r).q = rest := by
  have taken : (s.entryOut r rest).ring r = { s.ring r with q := rest } := by
    rw [State.entryOut, State.setFld, State.ring_setRn, State.ring_modRing]
  rw [State.recorded, State.ring_setRn, State.addReg, State.ring_setRn, State.ring_emit]
  split
  · rw [State.ring_emit, taken]
  · rw [taken]

/-- The outputs end with the record. -/
theorem State.recorded_out (e : RingEntry) (rest : List RingEntry) (d : Nat × Nat) :
    ∃ o, (s.recorded r e rest d).out = s.out ++ o ∧ Out.hostWrite (s.rfld (R.HX_CQ_BASE r) 63 12 * 4096 + 32 * e.slot) (ringRecord s e d) ∈ o := by
  simp only [State.recorded]
  split
  · exact ⟨_, List.append_assoc .., by simp⟩
  · exact ⟨_, rfl, by simp⟩

theorem State.rn_recorded (canonical : s.canonical = true) (e : RingEntry) (rest : List RingEntry) (d : Nat × Nat) :
    (s.recorded r e rest d).rn (R.HX_RB_HEAD r) = (e.slot + 1) % s.ringSize r := by
  have taken : s.Keeps (s.entryOut r rest) := (State.Keeps.refl s).modRing.setFld
  have small := Nat.mod_lt (e.slot + 1) (Nat.two_pow_pos (s.rfld (R.HX_RB_CFG r) 51 48))
  have size := s.ringSize_le r
  rw [State.recorded, State.rn_setRn_self ((State.Keeps.addReg (.emit (.ite taken.emit taken))).2 canonical)]
  exact Nat.mod_eq_of_lt (by rw [State.ringSize] at *; omega)

/-! ### Registers of rings -/

theorem rn_fetched (canonical : s.canonical = true) (f : Ring → Ring) (n v : Nat) :
    (((s.modRing r f).addReg (R.HX_COUNT 2) n).setFld (R.HX_RB_STATUS r) 0 0 v).rn (R.HX_COUNT 2) = (s.rn (R.HX_COUNT 2) + n) % 2 ^ 64 := by
  have queued : (s.modRing r f).canonical = true := (State.Keeps.refl s).modRing.2 canonical
  have counted : ((s.modRing r f).addReg (R.HX_COUNT 2) n).canonical = true := (State.Keeps.refl _).addReg.2 queued
  rw [State.rn_setFld_ne counted (by simp only [R.HX_COUNT, R.HX_RB_STATUS]; omega), State.rn_addReg queued, if_pos rfl]
  rfl

/-! ### HX_RB_CFG -/

/-- The register's new value (R366). -/
def State.ringCfg (s : State) (r : Fin 64) (v : Nat) : Nat :=
  b2n (v.testBit 63) * 2 ^ 63 + bits v 61 56 * 2 ^ 56
    + (if 6 ≤ bits v 51 48 then bits v 51 48 else s.rfld (R.HX_RB_CFG r) 51 48) * 2 ^ 48 + bits v 31 16 * 2 ^ 16

theorem State.ringCfg_enable (s : State) (r : Fin 64) (v : Nat) : (s.ringCfg r v % 2 ^ 64).testBit 63 = v.testBit 63 := by
  have context := bits_lt v 61 56
  have log := bits_lt v 51 48
  have kept : s.rfld (R.HX_RB_CFG r) 51 48 < 2 ^ 4 := bits_lt _ 51 48
  have gap := bits_lt v 31 16
  rw [Nat.testBit_eq_decide_div_mod_eq, State.ringCfg]
  cases v.testBit 63 <;> simp only [b2n, Bool.false_eq_true, if_true, if_false, decide_eq_true_iff, decide_eq_false_iff_not] <;> split <;> omega

/-- A fresh lap of an emptied ring. -/
def Ring.restart (x : Ring) : Ring := { x with next := 0, asked := 0, phase := true, held := false }

section Config
variable {v : Nat}

theorem hxRbCfg_stops (was : s.rbit (R.HX_RB_CFG r) 63 = true) (off : v.testBit 63 = false) :
    hxRbCfg s r v = (s.setRn (R.HX_RB_CFG r) (s.ringCfg r v)).modRing r (·.stop false) := by
  simp only [hxRbCfg, State.ringCfg, was, off, Bool.not_false, Bool.and_self, if_true]

theorem hxRbCfg_restarts (was : s.rbit (R.HX_RB_CFG r) 63 = false) (on : v.testBit 63 = true) :
    let s1 := s.setRn (R.HX_RB_CFG r) (s.ringCfg r v)
    hxRbCfg s r v = (((s1.setRn (R.HX_RB_STATUS r) (s1.rn (R.HX_RB_STATUS r) % 2)).setRn (R.HX_RB_HEAD r) 0).setRn (R.HX_DB r) 0).modRing r Ring.restart := by
  simp only [hxRbCfg, State.ringCfg, was, on, Bool.not_false, Bool.and_self, Bool.false_and, Bool.false_eq_true, if_false, if_true]
  rfl

theorem hxRbCfg_sets (same : s.rbit (R.HX_RB_CFG r) 63 = v.testBit 63) : hxRbCfg s r v = s.setRn (R.HX_RB_CFG r) (s.ringCfg r v) := by
  simp only [hxRbCfg, State.ringCfg, same]
  cases v.testBit 63 <;> rfl

end Config

theorem hxRbCfg_work (v : Nat) : s.HostWork (hxRbCfg s r v) := by
  have set := (State.HostWork.refl s).setRn (a := R.HX_RB_CFG r) (v := s.ringCfg r v)
  simp only [hxRbCfg]
  exact .ite set.modRing (.ite set.setRn.setRn.setRn.modRing set)

theorem hxRbCfg_enable (canonical : s.canonical = true) (v : Nat) : (hxRbCfg s r v).rbit (R.HX_RB_CFG r) 63 = v.testBit 63 := by
  have set : (s.setRn (R.HX_RB_CFG r) (s.ringCfg r v)).rn (R.HX_RB_CFG r) = s.ringCfg r v % 2 ^ 64 := State.rn_setRn_self canonical
  have kept : s.Keeps (s.setRn (R.HX_RB_CFG r) (s.ringCfg r v)) := (State.Keeps.refl s).setRn
  have shown : ∀ t : State, t.rn (R.HX_RB_CFG r) = s.ringCfg r v % 2 ^ 64 → t.rbit (R.HX_RB_CFG r) 63 = v.testBit 63 := fun t same => by
    rw [State.rbit, same, State.ringCfg_enable]
  by_cases same : s.rbit (R.HX_RB_CFG r) 63 = v.testBit 63
  · rw [hxRbCfg_sets same]
    exact shown _ set
  cases was : s.rbit (R.HX_RB_CFG r) 63 with
  | true =>
    rw [hxRbCfg_stops was (by simpa [was] using same)]
    exact shown _ ((State.rn_modRing _).trans set)
  | false =>
    rw [hxRbCfg_restarts was (by simpa [was] using same)]
    refine shown _ ((State.rn_modRing _).trans ?_)
    rw [State.rn_setRn_ne (kept.setRn.setRn.2 canonical) (by simp only [R.HX_RB_CFG, R.HX_DB]; omega),
      State.rn_setRn_ne (kept.setRn.2 canonical) (by simp only [R.HX_RB_CFG, R.HX_RB_HEAD]; omega),
      State.rn_setRn_ne (kept.2 canonical) (by simp only [R.HX_RB_CFG, R.HX_RB_STATUS]; omega), set]

theorem ring_hxRbCfg_stops {v : Nat} (was : s.rbit (R.HX_RB_CFG r) 63 = true) (off : v.testBit 63 = false) :
    ((hxRbCfg s r v).ring r).q = (s.ring r).q.take 1 := by
  rw [hxRbCfg_stops was off, State.ring_modRing, Ring.stop_q, State.ring_setRn]

/-- EN set again: an empty lap from slot 0. -/
theorem hxRbCfg_lap {v : Nat} (canonical : s.canonical = true) (was : s.rbit (R.HX_RB_CFG r) 63 = false) (on : v.testBit 63 = true) :
    let t := hxRbCfg s r v
    (t.ring r).next = 0 ∧ (t.ring r).phase = true ∧ t.rn (R.HX_RB_HEAD r) = 0 ∧ t.rn (R.HX_DB r) = 0 ∧ t.ringOn r = true := by
  have enabled := hxRbCfg_enable (r := r) canonical v
  rw [hxRbCfg_restarts was on] at *
  have kept : s.Keeps (s.setRn (R.HX_RB_CFG r) (s.ringCfg r v)) := (State.Keeps.refl s).setRn
  generalize s.setRn (R.HX_RB_CFG r) (s.ringCfg r v) = s1 at *
  generalize made : ((s1.setRn (R.HX_RB_STATUS r) (s1.rn (R.HX_RB_STATUS r) % 2)).setRn (R.HX_RB_HEAD r) 0).setRn (R.HX_DB r) 0 = u at *
  have status : u.rn (R.HX_RB_STATUS r) = s1.rn (R.HX_RB_STATUS r) % 2 := by
    rw [← made, State.rn_setRn_ne (kept.setRn.setRn.2 canonical) (by simp only [R.HX_RB_STATUS, R.HX_DB]; omega),
      State.rn_setRn_ne (kept.setRn.2 canonical) (by simp only [R.HX_RB_STATUS, R.HX_RB_HEAD]; omega), State.rn_setRn_self (kept.2 canonical)]
    omega
  have running : u.rbit (R.HX_RB_STATUS r) 1 = false := by
    rw [State.rbit, status, Nat.testBit_eq_decide_div_mod_eq, decide_eq_false_iff_not]
    omega
  have lap : (u.modRing r Ring.restart).ring r = (u.ring r).restart := State.ring_modRing ..
  refine ⟨by rw [lap]; rfl, by rw [lap]; rfl, (State.rn_modRing _).trans ?_, (State.rn_modRing _).trans ?_, ?_⟩
  · rw [← made, State.rn_setRn_ne (kept.setRn.setRn.2 canonical) (by simp only [R.HX_RB_HEAD, R.HX_DB]; omega), State.rn_cleared (kept.setRn.2 canonical)]
  · rw [← made, State.rn_cleared (kept.setRn.setRn.2 canonical)]
  · rw [State.ringOn, enabled, on, Bool.true_and, State.rbit, State.rn_modRing, ← State.rbit, running]
    rfl

/-! ### Counters (R371) -/

theorem rn_hxCntClr (canonical : s.canonical = true) (i : Fin 4) : (hxCntClr s).rn (R.HX_COUNT i) = 0 :=
  State.rn_foldl_setRn (addr := R.HX_COUNT) _ s canonical (.inr (List.mem_range.2 i.isLt))

theorem hxCntClr_frame (s : State) : ∃ regs, hxCntClr s = { s with regs := regs } := State.foldl_setRn (addr := R.HX_COUNT) _

/-! ### Interrupts (R368) -/

section Moderated
variable (held : (s.ring r).held = true) (due : ∀ z, (s.ring r).lastIrq = some z → z + s.rfld (R.HX_RB_CFG r) 31 16 ≤ s.us)
include held due

theorem msixModExpiry_due : msixModExpiry s r =
    if s.rbit (R.HX_VEC_MAP r) 31 then (s.modRing r (fun y => { y with lastIrq := some s.us, held := false })).raise r
    else s.modRing r (fun y => { y with held := false }) := by
  refine if_pos ?_
  rw [held, Bool.true_and, Option.all_eq_true_iff_get]
  exact fun some => decide_eq_true (due _ (Option.some_get some).symm)

end Moderated

theorem msixModExpiry_waits
    (early : (s.ring r).held = false ∨ ∃ z, (s.ring r).lastIrq = some z ∧ s.us < z + s.rfld (R.HX_RB_CFG r) 31 16) : msixModExpiry s r = s := by
  refine if_neg ?_
  obtain none' | ⟨z, last, early⟩ := early
  · simp [none']
  · simp only [last, Option.all_some, Bool.and_eq_true, decide_eq_true_iff, not_and]
    omega

theorem ring_irq (f : Ring → Ring) : ((s.modRing r f).raise r).ring r = f (s.ring r) := by rw [State.ring_raise, State.ring_modRing]

/-- A bit that is set taken away. -/
theorem sub_two_pow_testBit {w i j : Nat} (set : w.testBit i = true) : (w - 2 ^ i).testBit j = (w.testBit j && decide (j ≠ i)) := by
  have one : bits w i i = 1 := by
    rw [bits, Nat.add_sub_cancel_left, Nat.shiftRight_eq_div_pow, pow_one]
    simpa [Nat.testBit_eq_decide_div_mod_eq] using set
  have cleared : w - 2 ^ i = putBits w i i 0 := by rw [putBits, one, Nat.one_mul, Nat.zero_mod, Nat.zero_mul, Nat.add_zero]
  rw [cleared, testBit_putBits (Nat.le_refl i)]
  by_cases same : j = i
  · rw [if_pos (by omega)]
    simp [same]
  · rw [if_neg (by omega)]
    simp [same]

section Unmask
variable {x : Fin 512} (on : s.msixEn = true) (opened : s.msixMask = false) (masked : s.rbit (R.HX_MSIX_ENTRY (2 * x + 1)) 32 = true)
  (pending : s.rbit (R.HX_MSIX_PBA (x / 64)) (x % 64) = true)

/-- The mask bit of a vector taken away. -/
def State.unmasked (s : State) (x : Fin 512) : State := s.setRn (R.HX_MSIX_ENTRY (2 * x + 1)) (s.rn (R.HX_MSIX_ENTRY (2 * x + 1)) - 2 ^ 32)

theorem State.rn_unmasked (canonical : s.canonical = true) (a : Nat) : (s.unmasked x).rn a =
    if a = R.HX_MSIX_ENTRY (2 * x + 1) then s.rn a - 2 ^ 32 else s.rn a := by
  rw [State.unmasked, State.rn_setRn canonical]
  have fits := s.rn_lt (R.HX_MSIX_ENTRY (2 * x + 1))
  split
  next same => rw [same, Nat.mod_eq_of_lt (by omega)]
  · rfl

theorem msix_apart (x : Fin 512) : R.HX_MSIX_PBA (x / 64) ≠ R.HX_MSIX_ENTRY (2 * x + 1) := by
  have small := x.isLt
  simp only [R.HX_MSIX_PBA, R.HX_MSIX_ENTRY]
  omega

section Entry
variable (canonical : s.canonical = true)
include canonical

theorem State.pending_unmasked : (s.unmasked x).rn (R.HX_MSIX_PBA (x / 64)) = s.rn (R.HX_MSIX_PBA (x / 64)) := by
  rw [State.rn_unmasked canonical, if_neg (msix_apart x)]

theorem State.address_unmasked : (s.unmasked x).rn (R.HX_MSIX_ENTRY (2 * x)) = s.rn (R.HX_MSIX_ENTRY (2 * x)) := by
  rw [State.rn_unmasked canonical, if_neg (by simp only [R.HX_MSIX_ENTRY]; omega)]

include masked

theorem State.mask_unmasked : (s.unmasked x).rbit (R.HX_MSIX_ENTRY (2 * x + 1)) 32 = false := by
  rw [State.rbit, State.rn_unmasked canonical, if_pos rfl, sub_two_pow_testBit masked]
  simp

theorem State.data_unmasked : (s.unmasked x).rfld (R.HX_MSIX_ENTRY (2 * x + 1)) 31 0 = s.rfld (R.HX_MSIX_ENTRY (2 * x + 1)) 31 0 := by
  rw [State.rfld, State.rfld, State.rn_unmasked canonical, if_pos rfl]
  refine Nat.eq_of_testBit_eq fun i => ?_
  rw [testBit_bits, testBit_bits, sub_two_pow_testBit masked]
  by_cases low : i < 32
  · simp [show ¬i = 32 by omega]
  · simp [low]

omit canonical in
theorem msixUnmask_one : msixUnmask s x false = (s.unmasked x).flushVector x := by
  simp only [msixUnmask, masked, Bool.false_eq_true, if_false, if_true, State.unmasked]

include on opened pending

/-- The message of the vector goes out, with its entry's address and data. -/
theorem msixUnmask_sends :
    msixUnmask s x false = ((s.unmasked x).setRn (R.HX_MSIX_PBA (x / 64)) (s.rn (R.HX_MSIX_PBA (x / 64)) - 2 ^ (x.val % 64))).emit
      (.msix x (s.rn (R.HX_MSIX_ENTRY (2 * x))) (s.rfld (R.HX_MSIX_ENTRY (2 * x + 1)) 31 0)) := by
  have waits := State.pending_unmasked (x := x) canonical
  have due : ((s.unmasked x).rbit (R.HX_MSIX_PBA (x / 64)) (x % 64) && (s.unmasked x).msixEn && !(s.unmasked x).msixMask
      && !(s.unmasked x).rbit (R.HX_MSIX_ENTRY (2 * x + 1)) 32) = true := by
    rw [State.mask_unmasked masked canonical, State.rbit, waits, ← State.rbit, pending, State.unmasked, State.setRn_msixEn, State.setRn_msixMask, on, opened]
    rfl
  rw [msixUnmask_one masked, State.flushVector, if_pos due, waits, State.address_unmasked canonical, State.data_unmasked masked canonical]

end Entry

include masked pending in
/-- Its mask and its pending bit are 0 then. -/
theorem msixUnmask_clears (canonical : s.canonical = true) (o : Out) :
    let t := ((s.unmasked x).setRn (R.HX_MSIX_PBA (x / 64)) (s.rn (R.HX_MSIX_PBA (x / 64)) - 2 ^ (x.val % 64))).emit o
    t.rbit (R.HX_MSIX_ENTRY (2 * x + 1)) 32 = false ∧ t.rbit (R.HX_MSIX_PBA (x / 64)) (x % 64) = false := by
  have unmasked : (s.unmasked x).canonical = true := (State.Keeps.refl s).setRn.2 canonical
  have fits := Nat.lt_of_le_of_lt (Nat.sub_le _ (2 ^ (x.val % 64))) (s.rn_lt (R.HX_MSIX_PBA (x / 64)))
  constructor
  · rw [State.rbit, State.rn_emit, State.rn_setRn_ne unmasked (msix_apart x).symm, State.rn_unmasked canonical, if_pos rfl, sub_two_pow_testBit masked]
    simp
  · rw [State.rbit, State.rn_emit, State.rn_setRn_self unmasked, Nat.mod_eq_of_lt fits, sub_two_pow_testBit pending]
    simp

end Unmask

/-! ### Resets of the endpoint (R369) -/

/-- The endpoint reset: rings stopped, registers at their Reset column. -/
def State.endpointReset (s : State) (up : Bool) : State := s.stopRings.resetHx.resetPci up

theorem functionReset_eq (s : State) : functionReset s = (s.endpointReset s.pci.up).ev 0xB81 0xFF [] := rfl
theorem perstN_eq (s : State) : perstN s = s.endpointReset false := rfl

theorem State.endpointReset_canonical (canonical : s.canonical = true) (up : Bool) : (s.endpointReset up).canonical = true := by
  have reset : s.Keeps (s.endpointReset up) := (State.Keeps.refl s).stopRings.resetHx.resetPci
  exact reset.2 canonical

/-- The entry that runs stays, without a record. -/
theorem State.ring_endpointReset (s : State) (up : Bool) (k : Fin 64) :
    ((s.endpointReset up).ring k).q = ((s.ring k).q.take 1).map (fun e => { e with silent := true }) := by
  have stopped : (s.endpointReset up).ring k = { ((s.ring k).stop true) with next := 0, asked := 0, phase := true, lastIrq := none, held := false } :=
    Vector.getElem_map (i := k) ..
  rw [stopped]
  simp [Ring.stop]

theorem State.link_endpointReset (s : State) (up : Bool) : (s.endpointReset up).rn R.HX_LINK = 0 := by
  have reset : (s.endpointReset up).reg R.HX_LINK = regReset R.HX_LINK :=
    (SMap.get_keep regReset (fun a => decide (a < HX.base) || decide (HX.base + 0x10000 ≤ a)) s.regs R.HX_LINK).trans (if_neg (by decide))
  rw [State.rn, reset]
  decide

theorem State.link_apart (i : Nat) : R.HX_LINK ≠ R.HX_MSIX_PBA i := by
  simp only [R.HX_LINK, R.HX_MSIX_PBA]
  omega

end Rings

/-! ## RingsFetchAndReport -/

/-- Settles O35, row by row: what a ring's command does to its entries and registers is said by the lemma of its row, and
`State.HostWork` says that memory, cores and benches stay. -/
theorem ringsFetchAndReport : Obligations.RingsFetchAndReport := by
  unfold Obligations.RingsFetchAndReport
  intro s r v d x canonical hold cut
  have db : s.Keeps (s.setRn (R.HX_DB r) (v % 2 ^ 16)) := (State.Keeps.refl s).setRn
  refine ⟨fun inside => ?_, fun outside => ?_, fun on up one room ahead => ?_, fun on up => ?_, fun e rest st res head decided ended heard d0 => ?_,
    fun d3 ok => exec_next exec_ringEntryComplete (ringComplete_d3 d3 ok), ?_, ?_, fun held due => ?_, fun early => exec_next exec_msixModExpiry (msixModExpiry_waits early),
    fun on opened masked pending => ?_, fun i rows => ?_⟩
  · obtain ⟨n, fetched⟩ := (s.setRn (R.HX_DB r) (v % 2 ^ 16)).ring_fetchMore r
    refine ⟨_, exec_next exec_hxDb (hxDb_inside inside), rfl, ?_, ?_, ?_, fun k other => ?_, ?_⟩
    · rw [State.rn_fetchMore, State.rn_setRn_self canonical]
      omega
    · rw [fetched]
      rfl
    · rw [fetched]
      rfl
    · rw [State.ring_fetchMore_ne other, State.ring_setRn]
    · exact (State.HostWork.refl s).setRn.fetchMore.holds
  · obtain ⟨off, cause⟩ := State.ringHalt_shows (r := r) (err := 1) (db.2 canonical) (by decide)
    exact ⟨_, exec_next exec_hxDb (hxDb_outside outside), off, cause, State.ringHalt_cuts rfl, (State.HostWork.refl s).setRn.ringHalt.holds⟩
  · obtain ⟨f, fetched, queue⟩ := ringFetch_one on up one room ahead
    refine ⟨_, exec_next exec_ringFetch fetched, ⟨s.fetchedEntry r d, ?_, rfl, rfl, rfl, rfl⟩, rn_fetched canonical f 64 1, ?_⟩
    · rw [State.setFld, State.ring_setRn, State.addReg, State.ring_setRn, State.ring_modRing, queue]
    · exact (State.HostWork.refl s).modRing.setRn.setRn.holds
  · obtain ⟨off, cause⟩ := State.ringHalt_shows (r := r) (err := 2) canonical (by decide)
    exact ⟨_, exec_next exec_ringFetch (ringFetch_error on up), off, cause, State.ringHalt_cuts rfl, (State.HostWork.refl s).ringHalt.holds⟩
  · constructor
    · intro up
      obtain ⟨o, outputs, record⟩ := s.recorded_out (r := r) e rest (st, res)
      obtain ⟨o1, irq⟩ := (s.recorded r e rest (st, res)).ringIrq_out r
      obtain ⟨o2, more⟩ := ((s.recorded r e rest (st, res)).ringIrq r).fetchMore_out r
      obtain ⟨l, h, interrupted⟩ := (s.recorded r e rest (st, res)).ring_ringIrq r
      obtain ⟨n, fetched⟩ := ((s.recorded r e rest (st, res)).ringIrq r).ring_fetchMore r
      refine ⟨_, o ++ o1 ++ o2, exec_next exec_ringEntryComplete (ringComplete_records head decided ended heard d0 up), ?_, ?_, ?_, ?_, ?_⟩
      · rw [fetched, interrupted]
        exact s.ring_recorded e rest _
      · rw [← more, ← irq, outputs]
        simp only [List.append_assoc]
      · exact List.mem_append_left _ (List.mem_append_left _ record)
      · have head' : ¬pendingBit (R.HX_RB_HEAD r) := by
          have place : R.HX_RB_HEAD r = HX.base + (0x4020 + 64 * r) := by simp only [R.HX_RB_HEAD]; omega
          rw [place]
          exact not_pendingBit (by omega)
        rw [State.rn_fetchMore, (State.ringIrq_counts _ r (State.recorded_canonical canonical e rest _)).2 _ head', State.rn_recorded canonical]
      · exact (State.recorded_work e rest _).ringIrq.fetchMore.holds
    · have emptied : s.Keeps (((s.entryOut r rest).modRing r (fun x => { x with q := [], asked := 0 })).setFld (R.HX_RB_STATUS r) 0 0 0) :=
        (State.Keeps.refl s).modRing.setFld.modRing.setFld
      obtain ⟨off, cause⟩ := State.ringHalt_shows (r := r) (err := 3) (emptied.2 canonical) (by decide)
      refine ⟨_, exec_next exec_ringEntryComplete (ringComplete_refused head decided ended heard d0), ?_, off, cause, ?_⟩
      · rw [State.ring_ringHalt, Ring.stop_q, State.setFld, State.ring_setRn, State.ring_modRing]
        rfl
      · exact (State.entryOut_work rest).modRing.setRn.ringHalt.holds
  · exact ⟨_, exec_hxRbCfgWrite, hxRbCfg_enable canonical v, (hxRbCfg_work v).holds, ring_hxRbCfg_stops, hxRbCfg_lap canonical⟩
  · obtain ⟨regs, frame⟩ := hxCntClr_frame s
    exact ⟨_, exec_hxCntClr, rn_hxCntClr canonical, by rw [frame], by rw [frame], by rw [frame], by rw [frame]⟩
  · refine ⟨fun mapped => ⟨_, exec_next exec_msixModExpiry ((msixModExpiry_due held due).trans (if_pos mapped)), ring_irq _, ?_⟩,
      fun unmapped => exec_next exec_msixModExpiry ((msixModExpiry_due held due).trans (if_neg (by simp [unmapped])))⟩
    exact (State.HostWork.refl s).modRing.raise.holds
  · obtain ⟨unmasked, sent⟩ := msixUnmask_clears masked pending canonical _
    refine ⟨_, exec_next exec_msixUnmask (msixUnmask_sends on opened masked pending canonical), unmasked, sent, ?_, (State.HostWork.refl s).setRn.setRn.emit.holds⟩
    rw [State.out_emit, State.setRn_out, State.unmasked, State.setRn_out]
  · obtain rfl | rfl := by simpa using rows
    · have notes := (s.endpointReset s.pci.up).ev_notes 0xB81 0xFF []
      refine ⟨_, exec_next exec_functionLevelReset (functionReset_eq s), fun k => ?_, ?_, ?_, ?_, ?_, ?_⟩
      · rw [State.ring_ev, State.ring_endpointReset]
      · rw [notes.1]; rfl
      · rw [notes.1]; rfl
      · rw [State.rn_ev State.link_apart (State.endpointReset_canonical canonical _), State.link_endpointReset]
      · rw [notes.1]; rfl
      · rw [notes.1]; exact ⟨rfl, rfl, rfl⟩
    · exact ⟨_, exec_next exec_perstN (perstN_eq s), fun k => s.ring_endpointReset false k, rfl, rfl, s.link_endpointReset false, rfl, rfl, rfl, rfl⟩

end Sys2Proof.Machine

namespace Sys2Proof.Machine

/-! ## Registers beside writes and events (R7, R368) -/

section Maps
variable {α : Type} {d : Nat → α}

theorem SMap.get_erase_ne {k j : Nat} (apart : j ≠ k) : ∀ m : List (Nat × α), SMap.get d (SMap.erase k m) j = SMap.get d m j
  | [] => rfl
  | (i, w) :: m => by
    rw [SMap.erase]
    split
    next same => rw [SMap.get, if_neg (same ▸ apart)]
    · rw [SMap.get, SMap.get, SMap.get_erase_ne apart m]

theorem SMap.get_set_ne [DecidableEq α] {k j : Nat} {v : α} (apart : j ≠ k) (m : List (Nat × α)) : SMap.get d (SMap.set d m k v) j = SMap.get d m j := by
  rw [SMap.set]
  split
  · exact SMap.get_erase_ne apart m
  · rw [SMap.get_insert, if_neg apart]

end Maps

section Registers
variable {s : State} {a b v : Nat}

/-- A write changes no register at another address, in canonical form or not. -/
theorem State.rn_setRn_of_ne (apart : b ≠ a) : (s.setRn a v).rn b = s.rn b :=
  congrArg BitVec.toNat (SMap.get_set_ne apart s.regs)

/-- The registers of pending bits that interrupts set: one for 64 of the 512 vectors (R368). -/
def pendingAt (a : Nat) : Prop := ∃ i < 8, a = R.HX_MSIX_PBA i

theorem not_pendingAt (apart : a < HX.base + 0xa000 ∨ HX.base + 0xa040 ≤ a) : ¬pendingAt a := by
  rintro ⟨i, small, rfl⟩
  simp only [R.HX_MSIX_PBA] at apart
  omega

variable (apart : ¬pendingAt a)
include apart

theorem State.rn_sendVector_apart (small : v < 512) : (s.sendVector v).rn a = s.rn a := by
  unfold State.sendVector
  split
  · rfl
  · exact State.rn_setRn_of_ne fun same => apart ⟨v / 64, by omega, same⟩

theorem State.rn_raise_apart (src : Nat) : (s.raise src).rn a = s.rn a := by
  unfold State.raise
  split
  · exact State.rn_sendVector_apart apart (bits_lt _ 8 0)
  · rfl

/-- An event sets no register but the pending bits. -/
theorem State.rn_ev_apart (code src : Nat) (bs : Bytes) : (s.ev code src bs).rn a = s.rn a := by
  have raised {t : State} {p : Prop} {_ : Decidable p} (n : Nat) (kept : t.rn a = s.rn a) : (if p then t.raise n else t).rn a = s.rn a := by
    split
    · exact (State.rn_raise_apart apart n).trans kept
    · exact kept
  exact raised 83 (raised 82 (raised 80 (State.rn_of_regs (State.addRecs_regs s code src 8 false bs) a)))

end Registers
end Sys2Proof.Machine

namespace Sys2Proof.Machine

/-! ## Mailbox requests (R373 to R376, R386 to R392, R402, R411, R415) -/

section Requests
variable {s : State} {m : Fin 16} {a b v n code len : Nat} {f : State → Bytes → State}

/-- DMA from host memory counts in HX_COUNT(2) alone. -/
theorem State.rn_dmaIn (apart : b ≠ R.HX_COUNT 2) : (s.dmaIn a n).rn b = s.rn b := State.rn_setRn_of_ne apart

/-! ### Branches -/

section Branches
variable {α : Type} {c : Bool} {x y : α}

theorem ite_not_of_true (holds : c = true) : (if !c then x else y) = y := by rw [holds]; rfl
theorem ite_not_of_false (fails : c = false) : (if !c then x else y) = x := by rw [fails]; rfl
theorem ite_of_false (fails : c = false) : (if c then x else y) = y := by rw [fails]; rfl

end Branches

/-! ### The row that a request meets -/

/-- No request is served, or one of another opcode. -/
theorem mailbox_other (other : s.serving m = false ∨ leAt (s.ghBytes (reqAt m) 8) 0 2 ≠ code) : mailbox s m code len f = s := by
  refine if_pos ?_
  obtain idle | differs := other
  · rw [idle]
    rfl
  · rw [bne_iff_ne.2 differs, Bool.or_true]

section Served
variable (served : s.serving m = true) (op : leAt (s.ghBytes (reqAt m) 8) 0 2 = code)
include served op

theorem mailbox_unequal (other : leAt (s.ghBytes (reqAt m) 8) 2 2 ≠ len) : mailbox s m code len f = (s.took m).respond m 2 [] := by
  simp only [mailbox, served, op, bne_self_eq_false, Bool.not_true, Bool.or_self, Bool.false_eq_true, if_false, if_pos other]

theorem mailbox_serves (equal : leAt (s.ghBytes (reqAt m) 8) 2 2 = len) :
    mailbox s m code len f = f (s.took m) (s.ghBytes (reqAt m + 8) (leAt (s.ghBytes (reqAt m) 8) 2 2)) := by
  subst equal
  simp only [mailbox, served, op, bne_self_eq_false, Bool.not_true, Bool.or_self, Bool.false_eq_true, if_false, ne_eq, not_true_eq_false]

section Firmware
variable (equal : leAt (s.ghBytes (reqAt m) 8) 2 2 = len)
include equal

theorem fwRow_busy (busy : (s.took m).fwBusy (some m) = true) : fwRow s m code len f = (s.took m).respond m 5 [] :=
  (mailbox_serves served op equal).trans (if_pos busy)

theorem fwRow_runs (free : (s.took m).fwBusy (some m) = false) :
    fwRow s m code len f = (f (s.took m) (s.ghBytes (reqAt m + 8) (leAt (s.ghBytes (reqAt m) 8) 2 2))).modBox m (fun b => { b with fw := true }) :=
  (mailbox_serves served op equal).trans (if_neg (by simp [free]))

/-- A firmware command that runs here holds its pair. -/
theorem exec_fwRow {i : Instr} {t : State} (row : exec i s = .next (fwRow s m code len f)) (free : (s.took m).fwBusy (some m) = false)
    (eq : f (s.took m) (s.ghBytes (reqAt m + 8) (leAt (s.ghBytes (reqAt m) 8) 2 2)) = t) : exec i s = .next (t.modBox m (fun b => { b with fw := true })) :=
  exec_next row ((fwRow_runs served op equal free).trans (congrArg (fun t : State => t.modBox m (fun b => { b with fw := true })) eq))

end Firmware
end Served

/-- A row's request: a firmware command (R397) from 0x0500 to 0x0503. -/
def mailboxRow (s : State) (m : Fin 16) (code len : Nat) (f : State → Bytes → State) : State :=
  if 0x500 ≤ code ∧ code ≤ 0x503 then fwRow s m code len f else mailbox s m code len f

theorem exec_plainRow {i : Instr} (row : ∀ s, exec i s = .next (mailbox s m code len f)) (plain : ¬(0x500 ≤ code ∧ code ≤ 0x503) := by decide) :
    ∃ f, ∀ s, exec i s = .next (mailboxRow s m code len f) := ⟨f, fun s => (row s).trans (congrArg _ (if_neg plain).symm)⟩

theorem exec_firmwareRow {i : Instr} (row : ∀ s, exec i s = .next (fwRow s m code len f)) (firmware : 0x500 ≤ code ∧ code ≤ 0x503 := by decide) :
    ∃ f, ∀ s, exec i s = .next (mailboxRow s m code len f) := ⟨f, fun s => (row s).trans (congrArg _ (if_pos firmware).symm)⟩

theorem mailboxRow_mailbox (m : Fin 16) (code len : Nat) (f : State → Bytes → State) : ∃ g, ∀ s, mailboxRow s m code len f = mailbox s m code len g := by
  unfold mailboxRow
  split
  · exact ⟨_, fun _ => rfl⟩
  · exact ⟨f, fun _ => rfl⟩

/-- Opcode, operand length and command of each row (R376). -/
noncomputable def mailboxRows (m : Fin 16) (data : Bytes) (ok : Bool) (next : Nat) : List (Nat × Nat × Instr) :=
  [(0x1, 0, .getInfo m), (0x100, 2, .powerSet m), (0x101, 1, .profileStore m), (0x102, 1, .mbReset m), (0x103, 1, .mbFence m), (0x200, 0, .memberStatus m),
    (0x201, 12, .configStage m data ok), (0x202, 0, .leave m), (0x203, 0, .rejoin m), (0x300, 0, .sensors m), (0x400, 20, .logRead m), (0x401, 0, .logFlush m),
    (0x402, 8, .logFlashRead m), (0x500, 12, .fwStage m data ok), (0x501, 2, .fwStagePeer m ok), (0x502, 0, .fwActivate m), (0x503, 1, .fwConfirm m),
    (0x504, 0, .fwStatus m), (0x600, 48, .attest m), (0x601, 8, .certs m), (0x602, 12, .certInstall m data ok), (0x700, 8, .lifecycle m next ok)]

theorem exec_mailboxRows (m : Fin 16) (data : Bytes) (ok : Bool) (next : Nat) :
    ∀ r ∈ mailboxRows m data ok next, ∃ f, ∀ s, exec r.2.2 s = .next (mailboxRow s m r.1 r.2.1 f) := by
  simp only [mailboxRows, List.forall_mem_cons]
  refine ⟨exec_plainRow fun _ => rfl, exec_plainRow fun _ => rfl, exec_plainRow fun _ => rfl, exec_plainRow fun _ => rfl,
    exec_plainRow fun _ => rfl, exec_plainRow fun _ => rfl, exec_plainRow fun _ => rfl, exec_plainRow fun _ => rfl,
    exec_plainRow fun _ => rfl, exec_plainRow fun _ => rfl, exec_plainRow fun _ => rfl, exec_plainRow fun _ => rfl,
    exec_plainRow fun _ => rfl, exec_firmwareRow fun _ => rfl, exec_firmwareRow fun _ => rfl, exec_firmwareRow fun _ => rfl, exec_firmwareRow fun _ => rfl,
    exec_plainRow fun _ => rfl, exec_plainRow fun _ => rfl, exec_plainRow fun _ => rfl, exec_plainRow fun _ => rfl, exec_plainRow fun _ => rfl,
    fun _ none => absurd none List.not_mem_nil⟩

theorem mem_mbOps (m : Fin 16) (data : Bytes) (ok : Bool) (next : Nat) (op : Nat) :
    op ∈ mbOps ↔ ∃ r ∈ mailboxRows m data ok next, r.1 = op := by
  have codes : (mailboxRows m data ok next).map (·.1) = mbOps := rfl
  rw [← codes, List.mem_map]

/-! ### Images staged (R384, R386) -/

section Stage
variable {src : Nat} {d : Bytes} {sig : Bool}

/-- The slot that does not run takes the image. -/
def State.slotted (s : State) (d : Bytes) : State :=
  s.modGate (fun g => { g with slots := g.slots.set (slotFin (1 - s.runSlot)) { image := d, valid := false } })

theorem stageFw_good (signed : sig = true) (sound : fwSound d = true) (root : s.rootOk d = true) (fresh : s.rfld R.FZ_ARB 5 0 ≤ fwSvn d) :
    s.stageFw src d sig = (s.slotted d, 0) := by
  simp only [State.stageFw, signed, sound, root, Bool.and_self, Bool.not_true, Bool.false_eq_true, if_false, if_neg (Nat.not_lt.2 fresh), if_true, State.slotted]

theorem stageFw_unverified (bad : sig = false ∨ fwSound d = false ∨ s.rootOk d = false) :
    s.stageFw src d sig = ((s.slotted d).ev 0xB10 0xFF (leBytes 1 src ++ leBytes 1 6), 6) := by
  have fails : (!(sig && fwSound d && s.rootOk d)) = true := by
    rcases bad with bad | bad | bad <;> simp [bad]
  simp only [State.stageFw, fails, if_true, State.slotted]
  rfl

theorem stageFw_old (signed : sig = true) (sound : fwSound d = true) (root : s.rootOk d = true) (old : fwSvn d < s.rfld R.FZ_ARB 5 0) :
    s.stageFw src d sig = ((s.slotted d).ev 0xB10 0xFF (leBytes 1 src ++ leBytes 1 7), 7) := by
  simp only [State.stageFw, signed, sound, root, Bool.and_self, Bool.not_true, Bool.false_eq_true, if_false, if_pos old, State.slotted]
  rfl

/-- A request that stages an image ends with the status of the check, its pair noting an image to be recorded. -/
theorem staged_of_stageFw {t : State} {st : Nat} (stages : s.stageFw src d sig = (t, st)) :
    s.staged m src d sig = (t.respond m st []).modBox m (fun b => { b with stage := st == 0 }) := by
  simp only [State.staged, stages]

theorem State.runSlot_dmaIn : (s.dmaIn a n).runSlot = s.runSlot := congrArg (bits · 8 8) (State.rn_dmaIn (by decide))
theorem State.arb_dmaIn : (s.dmaIn a n).rfld R.FZ_ARB 5 0 = s.rfld R.FZ_ARB 5 0 := congrArg (bits · 5 0) (State.rn_dmaIn (by decide))

theorem State.rootOk_dmaIn : (s.dmaIn a n).rootOk d = s.rootOk d := by
  have fuse (i : Nat) : (s.dmaIn a n).rn (R.FZ_ROOTKEY i) = s.rn (R.FZ_ROOTKEY i) :=
    State.rn_dmaIn (by simp only [R.FZ_ROOTKEY, R.HX_COUNT, FZ.base, HX.base]; omega)
  simp only [State.rootOk, fuse]

/-- An image that came by DMA, in the slot that does not run. -/
def State.slottedDma (s : State) (a n : Nat) (d : Bytes) : State :=
  (s.dmaIn a n).modGate (fun g => { g with slots := g.slots.set (slotFin (1 - s.runSlot)) { image := d, valid := false } })

theorem State.slotted_dmaIn : (s.dmaIn a n).slotted d = s.slottedDma a n d :=
  congrArg (fun k => (s.dmaIn a n).modGate (fun g => { g with slots := g.slots.set (slotFin (1 - k)) { image := d, valid := false } })) State.runSlot_dmaIn

theorem stageFw_dmaIn_good (signed : sig = true) (sound : fwSound d = true) (root : s.rootOk d = true) (fresh : s.rfld R.FZ_ARB 5 0 ≤ fwSvn d) :
    (s.dmaIn a n).stageFw src d sig = (s.slottedDma a n d, 0) := by
  rw [stageFw_good signed sound (State.rootOk_dmaIn.trans root) (State.arb_dmaIn.trans_le fresh), State.slotted_dmaIn]

theorem stageFw_dmaIn_unverified (bad : sig = false ∨ fwSound d = false ∨ s.rootOk d = false) :
    (s.dmaIn a n).stageFw src d sig = ((s.slottedDma a n d).ev 0xB10 0xFF (leBytes 1 src ++ leBytes 1 6), 6) := by
  rw [stageFw_unverified (bad.imp_right (Or.imp_right State.rootOk_dmaIn.trans)), State.slotted_dmaIn]

theorem stageFw_dmaIn_old (signed : sig = true) (sound : fwSound d = true) (root : s.rootOk d = true) (old : fwSvn d < s.rfld R.FZ_ARB 5 0) :
    (s.dmaIn a n).stageFw src d sig = ((s.slottedDma a n d).ev 0xB10 0xFF (leBytes 1 src ++ leBytes 1 7), 7) := by
  rw [stageFw_old signed sound (State.rootOk_dmaIn.trans root) (old.trans_eq State.arb_dmaIn.symm), State.slotted_dmaIn]

end Stage

theorem State.onTrial_eq_true : s.onTrial = true ↔ s.boot.trial = true ∧ s.rbit R.GH_STATUS 9 = true ∧ s.boot.active = s.runSlot := by
  simp only [State.onTrial, Bool.and_eq_true, beq_iff_eq, and_assoc]

theorem State.onTrial_eq_false : s.onTrial = false ↔ s.boot.trial = false ∨ s.rbit R.GH_STATUS 9 = false ∨ s.boot.active ≠ s.runSlot := by
  simp only [State.onTrial, Bool.and_eq_false_iff, beq_eq_false_iff_ne, or_assoc]

/-- What verifying an image asks (R411). -/
theorem image_sound {ok : Bool} {d : Bytes} (signed : ok = true) (sound : Img.sound d = true) (fits : n ≤ 2 ^ 20) :
    (ok && Img.sound d && decide (n ≤ 2 ^ 20)) = true := by rw [signed, sound, decide_eq_true fits]; rfl

theorem image_unsound {ok : Bool} {d : Bytes} (bad : ok = false ∨ Img.sound d = false ∨ 2 ^ 20 < n) :
    (ok && Img.sound d && decide (n ≤ 2 ^ 20)) = false := by
  obtain bad | bad | large := bad
  · rw [bad, Bool.false_and, Bool.false_and]
  · rw [bad, Bool.and_false, Bool.false_and]
  · rw [decide_eq_false (Nat.not_le.2 large), Bool.and_false]

/-! ### MAILBOX_DONE -/

/-- The response written, the pair free and DONE, and its interrupt raised. -/
def State.mailboxAnswer (s t : State) (m : Fin 16) (st : Nat) (res : Bytes) : State :=
  (((t.ghWrite (rspAt m) (leBytes 2 st ++ leBytes 2 res.length ++ ((s.ghBytes (reqAt m) 8).drop 4).take 4 ++ res)).modBox m (fun _ => {})).setRn
    (R.GH_MB_STATUS m) 2).raise (64 + m)

section Done
variable {st : Nat} {res : Bytes}

theorem mailboxDone_free (free : s.rbit (R.GH_MB_STATUS m) 0 = false) : mailboxDone s m = s := if_pos (by rw [free]; rfl)

variable (busy : s.rbit (R.GH_MB_STATUS m) 0 = true)
include busy

theorem mailboxDone_ends (decided : (s.box m).result = some (st, res)) :
    mailboxDone s m =
      if (s.box m).held = 4 ∨ (s.box m).held = 5 then
        (s.mailboxAnswer (if (s.box m).stage = true then s.fwValid else s) m st res).resetKind ((s.box m).held - 4)
      else s.mailboxAnswer (if (s.box m).stage = true then s.fwValid else s) m st res := by
  simp only [mailboxDone, busy, decided, Bool.not_true, Bool.false_eq_true, if_false, Option.isNone_some, State.mailboxAnswer]

theorem mailboxDone_unlisted (opened : (s.box m).result = none) (served : s.serving m = true) (unlisted : leAt (s.ghBytes (reqAt m) 8) 0 2 ∉ mbOps) :
    mailboxDone s m = s.mailboxAnswer (if (s.box m).stage = true then (s.took m).fwValid else s.took m) m 1 [] := by
  have held : (s.box m).held = 0 := by
    simp only [State.serving, Bool.and_eq_true, beq_iff_eq] at served
    exact served.1.2
  have refused : (s.serving m && !mbOps.contains (leAt (s.ghBytes (reqAt m) 8) 0 2)) = true := by simp [served, unlisted]
  simp only [mailboxDone, busy, opened, refused, held, Bool.not_true, Bool.false_eq_true, if_false, if_true, Option.isNone_none, State.mailboxAnswer]
  rfl

theorem mailboxDone_waits (opened : (s.box m).result = none) (waits : s.serving m = false ∨ leAt (s.ghBytes (reqAt m) 8) 0 2 ∈ mbOps) :
    mailboxDone s m = s := by
  have runs : (s.serving m && !mbOps.contains (leAt (s.ghBytes (reqAt m) 8) 0 2)) = false := by
    rcases waits with waits | waits <;> simp [waits]
  simp only [mailboxDone, busy, opened, runs, Bool.not_true, Bool.false_eq_true, if_false]

end Done

/-! ### The commands' meanings -/

section Rows
variable {data : Bytes} {ok : Bool} {next : Nat}

theorem exec_getInfo : exec (.getInfo m) s = .next (getInfo s m) := rfl
theorem exec_powerSet : exec (.powerSet m) s = .next (powerSet s m) := rfl
theorem exec_profileStore : exec (.profileStore m) s = .next (profileStore s m) := rfl
theorem exec_mbReset : exec (.mbReset m) s = .next (mbReset s m) := rfl
theorem exec_mbFence : exec (.mbFence m) s = .next (mbFence s m) := rfl
theorem exec_memberStatus : exec (.memberStatus m) s = .next (memberStatus s m) := rfl
theorem exec_configStage : exec (.configStage m data ok) s = .next (configStage s m data ok) := rfl
theorem exec_leave : exec (.leave m) s = .next (leave s m) := rfl
theorem exec_rejoin : exec (.rejoin m) s = .next (rejoin s m) := rfl
theorem exec_sensors : exec (.sensors m) s = .next (sensors s m) := rfl
theorem exec_logRead : exec (.logRead m) s = .next (logRead s m) := rfl
theorem exec_logFlush : exec (.logFlush m) s = .next (logFlush s m) := rfl
theorem exec_logFlashRead : exec (.logFlashRead m) s = .next (logFlashRead s m) := rfl
theorem exec_fwStage : exec (.fwStage m data ok) s = .next (fwStage s m data ok) := rfl
theorem exec_fwStagePeer : exec (.fwStagePeer m ok) s = .next (fwStagePeer s m ok) := rfl
theorem exec_fwActivate : exec (.fwActivate m) s = .next (fwActivate s m) := rfl
theorem exec_fwConfirm : exec (.fwConfirm m) s = .next (fwConfirm s m) := rfl
theorem exec_fwStatus : exec (.fwStatus m) s = .next (fwStatus s m) := rfl
theorem exec_attest : exec (.attest m) s = .next (attest s m) := rfl
theorem exec_certs : exec (.certs m) s = .next (certs s m) := rfl
theorem exec_certInstall : exec (.certInstall m data ok) s = .next (certInstall s m data ok) := rfl
theorem exec_lifecycle : exec (.lifecycle m next ok) s = .next (lifecycleCmd s m next ok) := rfl
theorem exec_mailboxDone : exec (.mailboxDone m) s = .next (mailboxDone s m) := rfl

end Rows

end Requests

/-! ## MailboxRequests -/

/-- Settles O50: the row that a request meets is decided once (`mailbox_serves`, `fwRow_runs`), and each clause is a branch of its row. -/
theorem mailboxRequests : Obligations.MailboxRequests := by
  unfold Obligations.MailboxRequests
  intro s0 m data ok next s h op len o a n rows no ran yes
  have rowsOf (r) (row : r ∈ rows) : ∃ f, ∀ s, exec r.2.2 s = .next (mailbox s m r.1 r.2.1 f) := by
    obtain ⟨f, runs⟩ := exec_mailboxRows m data ok next r row
    obtain ⟨g, same⟩ := mailboxRow_mailbox m r.1 r.2.1 f
    exact ⟨g, fun s => (runs s).trans (congrArg _ (same s))⟩
  refine ⟨fun r row other => ?_, fun served => ?_, fun free => exec_next exec_mailboxDone (mailboxDone_free free), fun busy => ?_⟩
  · obtain ⟨f, runs⟩ := rowsOf r row
    exact exec_next (runs s0) (mailbox_other other)
  · refine ⟨fun r row code other => ?_, ?_, ?_, ?_, ?_, ?_, ?_, ?_, ?_, ?_, ?_, ?_, ?_, ?_, fun busy r row low high code equal => ?_, ?_⟩
    · obtain ⟨f, runs⟩ := rowsOf r row
      exact exec_next (runs s0) (mailbox_unequal served code other)
    · exact fun code equal => exec_next exec_getInfo (mailbox_serves served code equal)
    · intro code equal
      have runs := exec_next exec_powerSet (mailbox_serves served code equal)
      exact ⟨fun bad => exec_next runs (if_pos bad), fun low high => exec_next runs (if_neg fun bad => bad.elim (Nat.not_lt.2 low) (Nat.not_lt.2 high))⟩
    · intro code equal
      have runs := exec_next exec_profileStore (mailbox_serves served code equal)
      exact ⟨fun bad => exec_next runs (if_pos bad), fun good => exec_next runs (if_neg (Nat.not_lt.2 good))⟩
    · intro code equal
      have runs := exec_next exec_mbReset (mailbox_serves served code equal)
      exact ⟨fun bad => exec_next runs (if_pos bad), fun good => exec_next runs (if_neg (Nat.not_lt.2 good))⟩
    · intro code equal
      have runs := exec_next exec_mbFence (mailbox_serves served code equal)
      exact ⟨fun bad => exec_next runs (if_pos bad), fun good => exec_next runs (if_neg (Nat.not_lt.2 good))⟩
    · exact fun code equal => exec_next exec_memberStatus (mailbox_serves served code equal)
    · intro code equal
      have runs := exec_next (exec_configStage (data := data) (ok := ok)) (mailbox_serves served code equal)
      exact ⟨fun out => exec_next runs (ite_not_of_false out), fun inside pending => exec_next runs ((ite_not_of_true inside).trans (if_pos pending)),
        fun inside free alone => exec_next runs ((ite_not_of_true inside).trans ((ite_of_false free).trans (ite_not_of_false alone))),
        fun inside free member bad => exec_next runs ((ite_not_of_true inside).trans ((ite_of_false free).trans ((ite_not_of_true member).trans (ite_not_of_false (image_unsound bad))))),
        fun inside free member signed sound fits =>
          exec_next runs ((ite_not_of_true inside).trans ((ite_of_false free).trans ((ite_not_of_true member).trans (ite_not_of_true (image_sound signed sound fits)))))⟩
    · intro code equal
      have runs := exec_next exec_leave (mailbox_serves served code equal)
      exact ⟨fun pending => exec_next runs (if_pos pending),
        fun free alone => exec_next runs ((ite_of_false free).trans (ite_not_of_false alone)),
        fun free member follows => exec_next runs ((ite_of_false free).trans ((ite_not_of_true member).trans (congrArg (State.holdFor · m 2) (ite_of_false follows)))),
        fun free member leads => exec_next runs ((ite_of_false free).trans ((ite_not_of_true member).trans (congrArg (State.holdFor · m 2) (if_pos leads))))⟩
    · intro code equal
      have runs := exec_next exec_rejoin (mailbox_serves served code equal)
      exact ⟨fun other => exec_next runs (if_pos other), fun production pending => exec_next runs ((if_neg (not_not_intro production)).trans (if_pos pending)),
        fun production free member => exec_next runs ((if_neg (not_not_intro production)).trans ((ite_of_false free).trans (if_pos member))),
        fun production free alone => exec_next runs ((if_neg (not_not_intro production)).trans ((ite_of_false free).trans (ite_of_false alone)))⟩
    · exact fun code equal => exec_next exec_sensors (mailbox_serves served code equal)
    · intro code equal
      have runs := exec_next exec_logRead (mailbox_serves served code equal)
      exact ⟨fun out => exec_next runs (ite_not_of_false out), fun inside => exec_next runs (ite_not_of_true inside)⟩
    · exact fun code equal => exec_next exec_logFlush (mailbox_serves served code equal)
    · intro code equal
      have runs := exec_next exec_logFlashRead (mailbox_serves served code equal)
      exact ⟨fun out => exec_next runs (ite_not_of_false out), fun inside => exec_next runs (ite_not_of_true inside)⟩
    · obtain ⟨f, runs⟩ := exec_mailboxRows m data ok next r row
      exact exec_next (runs s0) ((if_pos ⟨low, high⟩).trans (fwRow_busy served code equal busy))
    refine ⟨?_, ?_, ?_, ?_, ?_, ?_, ?_, ?_, ?_⟩
    · intro free code equal
      have runs {t} := exec_fwRow (t := t) served code equal (exec_fwStage (data := data) (ok := ok)) free
      have stages {t : State} {st : Nat} (fits : n ≤ 1536 * 1024) (inside : s.inRegion a n = true) (eq : (s.dmaIn a n).stageFw 0 (padTo n data) ok = (t, st)) :=
        runs ((if_neg (Nat.not_lt.2 fits)).trans ((ite_not_of_true inside).trans (staged_of_stageFw (m := m) eq)))
      exact ⟨fun large => runs (if_pos large), fun fits out => runs ((if_neg (Nat.not_lt.2 fits)).trans (ite_not_of_false out)),
        fun fits inside signed sound root fresh => stages fits inside (stageFw_dmaIn_good signed sound root fresh),
        fun fits inside bad => stages fits inside (stageFw_dmaIn_unverified bad),
        fun fits inside signed sound root old => stages fits inside (stageFw_dmaIn_old signed sound root old)⟩
    · intro free code equal
      have runs {t} := exec_fwRow (t := t) served code equal (exec_fwStagePeer (ok := ok)) free
      refine ⟨fun idle alone => runs ?_, fun idle member stranger => runs ?_, fun idle member known => runs ?_, fun x asked opened early => runs ?_, fun x asked ended => runs ?_⟩
      · simp only [show (s0.took m).gate.peer = none from idle]
        exact ite_not_of_false alone
      · simp only [show (s0.took m).gate.peer = none from idle]
        exact (ite_not_of_true member).trans (ite_not_of_false stranger)
      · simp only [show (s0.took m).gate.peer = none from idle]
        exact (ite_not_of_true member).trans (ite_not_of_true known)
      · simp only [show (s0.took m).gate.peer = some x from asked]
        exact ite_of_false (by rw [opened, decide_eq_false (Nat.not_le.2 early)]; rfl)
      · simp only [show (s0.took m).gate.peer = some x from asked]
        exact if_pos ((Bool.or_eq_true _ _).mpr (ended.imp_right fun late => decide_eq_true late))
    · intro free code equal k x
      have runs {t} := exec_fwRow (t := t) served code equal exec_fwActivate free
      exact ⟨fun invalid => runs (ite_not_of_false invalid), fun valid => runs (ite_not_of_true valid)⟩
    · intro free code equal
      have runs {t} := exec_fwRow (t := t) served code equal exec_fwConfirm free
      refine ⟨fun bad => runs (if_pos bad), fun good idle => runs ((if_neg (Nat.not_lt.2 good)).trans (ite_not_of_false (State.onTrial_eq_false.2 idle))),
        fun zero trial running slot => runs ((if_neg (Nat.not_lt.2 (zero.trans_le (Nat.zero_le 1)))).trans
          ((ite_not_of_true (State.onTrial_eq_true.2 ⟨trial, running, slot⟩)).trans
            (congrArg (State.respond · m 0 []) (if_neg fun advance => absurd (zero.symm.trans advance.1) (by decide))))),
        fun one trial running slot =>
          have confirmed {t} := (if_neg (c := 1 < leAt o 0 1) (Nat.not_lt.2 one.le)).trans (ite_not_of_true (y := State.respond t m 0 []) (State.onTrial_eq_true.2 ⟨trial, running, slot⟩))
          ⟨fun kept => runs (confirmed.trans (congrArg (State.respond · m 0 []) (if_neg fun advance => Nat.not_lt.2 kept advance.2))),
            fun raised => runs (confirmed.trans (congrArg (State.respond · m 0 []) (if_pos ⟨one, raised⟩)))⟩⟩
    · exact fun code equal => exec_next exec_fwStatus (mailbox_serves served code equal)
    · intro code equal
      have runs := exec_next exec_attest (mailbox_serves served code equal)
      exact ⟨fun other => exec_next runs (if_pos other), fun production => exec_next runs (if_neg (not_not_intro production))⟩
    · intro code equal
      have runs := exec_next exec_certs (mailbox_serves served code equal)
      exact ⟨fun out => exec_next runs (ite_not_of_false out), fun inside => exec_next runs (ite_not_of_true inside)⟩
    · intro code equal
      have runs := exec_next (exec_certInstall (data := data) (ok := ok)) (mailbox_serves served code equal)
      exact ⟨fun large => exec_next runs (if_pos large), fun fits out => exec_next runs ((if_neg (Nat.not_lt.2 fits)).trans (ite_not_of_false out)),
        fun fits inside bad => exec_next runs ((if_neg (Nat.not_lt.2 fits)).trans ((ite_not_of_true inside).trans (ite_not_of_false bad))),
        fun fits inside good => exec_next runs ((if_neg (Nat.not_lt.2 fits)).trans ((ite_not_of_true inside).trans (ite_not_of_true good)))⟩
    · intro code equal
      have runs := exec_next (exec_lifecycle (next := next) (ok := ok)) (mailbox_serves served code equal)
      exact ⟨fun out => exec_next runs (ite_not_of_false out), fun inside => exec_next runs (ite_not_of_true inside)⟩
  · refine ⟨fun st res decided ready ready' => ?_, fun st res decided kind => ?_, fun st res decided kind => ?_, fun opened served unlisted => ?_, fun opened waits => ?_⟩
    · exact exec_next exec_mailboxDone ((mailboxDone_ends busy decided).trans (if_neg (not_or.2 ⟨ready, ready'⟩)))
    · refine exec_next exec_mailboxDone ((mailboxDone_ends busy decided).trans ((if_pos (.inr kind)).trans ?_))
      rw [kind]
      exact if_neg (by decide)
    · refine exec_next exec_mailboxDone ((mailboxDone_ends busy decided).trans ((if_pos (.inl kind)).trans ?_))
      rw [kind]
      rfl
    · refine exec_next exec_mailboxDone (mailboxDone_unlisted busy opened served fun listed => ?_)
      obtain ⟨r, row, code⟩ := (mem_mbOps m data ok next _).1 listed
      exact unlisted r row code
    · exact exec_next exec_mailboxDone (mailboxDone_waits busy opened (waits.imp_right (mem_mbOps m data ok next _).2))

end Sys2Proof.Machine

namespace Sys2Proof.Machine

/-! ## The monitor (R386, R392 to R394, R401, R432) -/

section Monitor
variable {s : State} {n a v : Nat} {data : Bytes} {ok : Bool} {b : Fin 24} {fail : Option (Nat × Nat × Nat)} {f : State → State}

/-! ### The commands' meanings -/

theorem exec_monId : exec .monId s = .next (powered s monId) := rfl
theorem exec_monStatus : exec .monStatus s = .next (powered s monStatus) := rfl
theorem exec_monLog : exec (.monLog n) s = .next (powered s (monLog · n)) := rfl
theorem exec_monSens : exec .monSens s = .next (powered s monSens) := rfl
theorem exec_monFwload : exec (.monFwload data ok) s = .next (powered s (monFwload · data ok)) := rfl
theorem exec_monBoot : exec (.monBoot n) s = .next (powered s (monBoot · n)) := rfl
theorem exec_monReset : exec (.monReset n) s = .next (powered s (monReset · n)) := rfl
theorem exec_monUnlock : exec .monUnlock s = .next (powered s monUnlock) := rfl
theorem exec_monResp : exec (.monResp ok v) s = .next (powered s (monResp · ok v)) := rfl
theorem exec_monRd : exec (.monRd a) s = .next (powered s (monRd · a)) := rfl
theorem exec_monWr : exec (.monWr a v) s = .next (powered s (monWr · a v)) := rfl
theorem exec_monFuses : exec .monFuses s = .next (powered s monFuses) := rfl
theorem exec_monTest : exec (.monTest b fail) s = .next (powered s (monTest · b fail)) := rfl
theorem exec_monLock : exec .monLock s = .next (powered s monLock) := rfl
theorem exec_monLc : exec (.monLc n ok) s = .next (powered s (monLc · n ok)) := rfl

/-! ### The auxiliary input and the service set -/

theorem powered_off (off : s.pwr.aux = false) : powered s f = s := ite_of_false off
theorem powered_on (on : s.pwr.aux = true) : powered s f = f s := if_pos on

theorem monService_closed (closed : s.service = false) : monService s f = s.print [] 4 := ite_of_false closed
theorem monService_open (service : s.service = true) : monService s f = f s := if_pos service

/-! ### FWLOAD -/

/-- A staged image recorded as valid (R386). -/
theorem State.slotted_valid (d : Bytes) : (s.slotted d).fwValid =
    s.modGate (fun g => { g with slots := g.slots.set (slotFin (1 - s.runSlot)) { image := d, valid := true } }) := by
  have image : (s.gate.slots.set (slotFin (1 - s.runSlot)) { image := d, valid := false })[slotFin (1 - s.runSlot)] = { image := d, valid := false } :=
    Vector.getElem_set_self _
  have twice (x : FwSlot) : (s.gate.slots.set (slotFin (1 - s.runSlot)) { image := d, valid := false }).set (slotFin (1 - s.runSlot)) x =
      s.gate.slots.set (slotFin (1 - s.runSlot)) x := Vector.set_set _ _
  have same : (s.slotted d).runSlot = s.runSlot := rfl
  simp only [State.fwValid, same]
  simp only [State.slotted, State.modGate, image, twice]

/-! ### LC (R392) -/

theorem State.lifecycle_lt (s : State) : s.lifecycle < 4 := bits_lt _ 1 0

/-- The advances that R392 lists. -/
def lifeStep (l n : Nat) : Bool := (l == 0 && n == 1) || (l == 1 && (n == 2 || n == 3)) || (l == 2 && n == 3)

theorem lifeAdvance_wrong (wrong : lifeStep s.lifecycle n = false) : s.lifeAdvance n ok = (s, 4) := ite_not_of_false wrong

section Advance
variable (right : lifeStep s.lifecycle n = true)
include right

theorem lifeAdvance_refused : s.lifeAdvance n false = (s, 6) := ite_not_of_true right

/-- The lifecycle set, the monitor locked, the owner's certificate gone in SERVICE. -/
def State.lifeSet (s : State) (n : Nat) : State :=
  let s1 := (s.setFld R.FZ_LIFECYCLE 1 0 n).setFld R.GH_STATUS 4 4 0
  if n = 2 then s1.modGate (fun g => { g with owner := none }) else s1

theorem lifeAdvance_verified : s.lifeAdvance n true = ((s.lifeSet n).ev 0xB40 0xFF (leBytes 1 s.lifecycle ++ leBytes 1 n), 0) := ite_not_of_true right

end Advance

theorem State.lifeSet_frame (s : State) (n : Nat) : (s.lifeSet n).regs = ((s.setFld R.FZ_LIFECYCLE 1 0 n).setFld R.GH_STATUS 4 4 0).regs := by
  unfold State.lifeSet
  split <;> rfl

theorem lifeAdvance_shows (right : lifeStep s.lifecycle n = true) (canonical : s.canonical = true) : (s.lifeAdvance n true).1.rfld R.FZ_LIFECYCLE 1 0 = n := by
  have small : n < 4 := by
    simp only [lifeStep, Bool.or_eq_true, Bool.and_eq_true, beq_iff_eq] at right
    omega
  have set : s.Keeps (s.setFld R.FZ_LIFECYCLE 1 0 n) := (State.Keeps.refl s).setFld
  rw [lifeAdvance_verified right, State.rfld, State.rn_ev_apart (not_pendingAt (by decide)),
    State.rn_of_regs (s.lifeSet_frame n), ← State.rfld, State.rfld_setFld_apart (set.2 canonical) (by decide) (by decide) (.inl (by decide)),
    State.rfld_setFld_self canonical (by decide) (by decide)]
  exact Nat.mod_eq_of_lt small

end Monitor

/-! ## MonitorCommands -/

/-- Settles O51: what the auxiliary input and the service set decide is said once, and each clause is a branch of its command. -/
theorem monitorCommands : Obligations.MonitorCommands := by
  unfold Obligations.MonitorCommands
  intro s n a v data ok b fail w say
  refine ⟨fun off => ?_, fun on => ?_⟩
  · simp only [List.forall_mem_cons]
    exact ⟨exec_next exec_monId (powered_off off), exec_next exec_monStatus (powered_off off), exec_next exec_monLog (powered_off off),
      exec_next exec_monSens (powered_off off), exec_next exec_monFwload (powered_off off), exec_next exec_monBoot (powered_off off),
      exec_next exec_monReset (powered_off off), exec_next exec_monUnlock (powered_off off), exec_next exec_monResp (powered_off off),
      exec_next exec_monRd (powered_off off), exec_next exec_monWr (powered_off off), exec_next exec_monFuses (powered_off off),
      exec_next exec_monTest (powered_off off), exec_next exec_monLock (powered_off off), exec_next exec_monLc (powered_off off),
      fun _ none => absurd none List.not_mem_nil⟩
  have runs {i : Instr} {f : State → State} {t : State} (row : exec i s = .next (powered s f)) (eq : f s = t) : exec i s = .next t :=
    exec_next row ((powered_on on).trans eq)
  refine ⟨runs exec_monId rfl, runs exec_monStatus rfl, fun large => runs exec_monLog (if_pos large), fun fits => runs exec_monLog (if_neg (Nat.not_lt.2 fits)),
    runs exec_monSens rfl, ?_, fun bad => runs exec_monBoot (if_pos (bad.imp_right (congrArg not))), fun slot valid => runs exec_monBoot (if_neg ?_),
    fun bad => runs exec_monReset (if_pos bad), runs exec_monReset rfl, fun ready same => runs exec_monReset ?_, fun due => runs exec_monReset ?_,
    fun locked => runs exec_monUnlock (if_pos locked), fun free => runs exec_monUnlock (if_neg (Nat.not_le.2 free)), ?_, runs exec_monLock rfl, runs exec_monLc rfl, ?_, ?_, ?_, ?_⟩
  · refine ⟨fun busy => runs exec_monFwload (if_pos busy), fun free => runs exec_monFwload (ite_of_false free), fun signed sound root fresh => ?_, fun bad => ?_,
      fun signed sound root old => ?_⟩
    · rw [stageFw_good signed sound root fresh]
      exact ⟨rfl, s.slotted_valid _⟩
    · rw [stageFw_unverified bad]
    · rw [stageFw_old signed sound root old]
  · exact not_or.2 ⟨Nat.not_lt.2 slot, by rw [valid]; decide⟩
  · exact congrArg State.moduleReset (if_pos (by rw [Bool.and_eq_true, beq_iff_eq]; exact ⟨ready, same⟩))
  · exact congrArg State.moduleReset (if_neg (by rw [Bool.and_eq_true, beq_iff_eq]; exact fun runs => due.elim (fun off => absurd (off.symm.trans runs.1) (by decide)) (· runs.2)))
  · refine ⟨fun barred => runs exec_monResp (ite_not_of_false barred), fun may none' => runs exec_monResp ((ite_not_of_true may).trans ?_),
      fun may c opened => runs exec_monResp ((ite_not_of_true may).trans ?_), fun may c opened => runs exec_monResp ((ite_not_of_true may).trans ?_)⟩
    · simp only [none']
      rfl
    · simp only [opened]
      rfl
    · simp only [opened]
      rfl
  · intro wrong
    refine lifeAdvance_wrong ?_
    have bound := s.lifecycle_lt
    simp only [lifeStep, Bool.or_eq_false_iff, Bool.and_eq_false_iff, beq_eq_false_iff_ne]
    omega
  · intro right
    have right : lifeStep s.lifecycle n = true := by
      simp only [lifeStep, Bool.or_eq_true, Bool.and_eq_true, beq_iff_eq]
      omega
    exact ⟨lifeAdvance_refused right, by rw [lifeAdvance_verified right], lifeAdvance_shows right⟩
  · intro closed
    simp only [List.forall_mem_cons]
    exact ⟨runs exec_monRd (monService_closed closed), runs exec_monWr (monService_closed closed), runs exec_monFuses (monService_closed closed),
      runs exec_monTest (monService_closed closed), fun _ none => absurd none List.not_mem_nil⟩
  · intro service
    have serves {i : Instr} {f : State → State} {t : State} (row : exec i s = .next (powered s (monService · f))) (eq : f s = t) : exec i s = .next t :=
      runs row ((monService_open service).trans eq)
    refine ⟨fun memory => ⟨fun d holds => serves exec_monRd ((ite_of_false memory).trans ?_), fun faults => serves exec_monRd ((ite_of_false memory).trans ?_),
        serves exec_monWr (ite_of_false memory)⟩,
      fun register => ⟨serves exec_monRd (if_pos register), serves exec_monWr (if_pos register)⟩, serves exec_monFuses rfl,
      fun busy => serves exec_monTest (ite_not_of_false busy), fun idle => serves exec_monTest (ite_not_of_true idle), fun idle => serves exec_monTest (ite_not_of_true idle)⟩
    · simp only [holds]
      rfl
    · simp only [faults]
      rfl

end Sys2Proof.Machine

namespace Sys2Proof.Machine

/-! ## Sensors, the clamp, the throttle and the watchdog (R377, R379, R395, R398, R402 to R404) -/

section Rows
variable {s : State} {x : Sensor} {o : Option Nat} {st : Option (Fin 8)} {i : Fin 72} {d : Fin 36} {r : Fin 16} {v : Nat} {stack : Bool}

theorem exec_sensorSample : exec (.sensorSample x o) s = .next (powered s (sensorSample · x o)) := rfl
theorem exec_throttleEnd : exec (.throttleEnd st) s = .next (powered s (throttleEnd · st)) := rfl
theorem exec_ghWbTempRead : exec (.ghWbTempRead i) s = .next (wbTempRead s i) := rfl
theorem exec_ghWbVoltRead : exec (.ghWbVoltRead d) s = .next (wbVoltRead s d) := rfl
theorem exec_ghWbCurrRead : exec (.ghWbCurrRead r) s = .next (wbCurrRead s r) := rfl
theorem exec_ghPhaseCfgWrite : exec (.ghPhaseCfgWrite v) s = .next (phaseCfgWrite s v) := rfl
theorem exec_ghWatchdog : exec .ghWatchdog s = .next (ghWatchdog s) := rfl
theorem exec_ghSramError : exec .gatehouseFirmwareSramUncorrectable s = .next (ghSramError s) := rfl
theorem exec_clampTick : exec (.clampTick o) s = .next (powered s (clampTick · o)) := rfl
theorem exec_powerClampUnmet : exec .powerClampUnmet s = .next (powered s clampUnmet) := rfl
theorem exec_railOvercurrent : exec (.railOvercurrent r v) s = .next (powered s (railOver · r v)) := rfl
theorem exec_pwClampWrite : exec (.pwClampWrite v) s = .next (pwClampWrite s v) := rfl
theorem exec_pwThermWrite : exec (.pwThermWrite stack v) s = .next (pwThermWrite s stack v) := rfl

end Rows

/-! ### Fields inside a field -/

section Inside
variable {s : State} {a b w v hi lo h l : Nat}

theorem bits_putBits_inside (order : lo ≤ hi) (low : lo ≤ l) (own : l ≤ h) (high : h ≤ hi) : bits (putBits w hi lo v) h l = bits v (h - lo) (l - lo) := by
  refine Nat.eq_of_testBit_eq fun i => ?_
  rw [testBit_bits, testBit_bits, testBit_putBits order]
  by_cases inside : i < h + 1 - l
  · rw [if_pos (by omega), decide_eq_true inside, decide_eq_true (by omega : i < h - lo + 1 - (l - lo)), show l + i - lo = l - lo + i by omega]
  · rw [decide_eq_false inside, decide_eq_false (by omega : ¬i < h - lo + 1 - (l - lo)), Bool.false_and, Bool.false_and]

theorem State.rfld_setFld_inside (canonical : s.canonical = true) (order : lo ≤ hi) (top : hi < 64) (low : lo ≤ l) (own : l ≤ h) (high : h ≤ hi) :
    (s.setFld a hi lo v).rfld a h l = bits v (h - lo) (l - lo) := by
  rw [State.rfld, State.rn_setFld canonical order top, if_pos rfl, bits_putBits_inside order low own high]

theorem State.rn_setFld_of_ne (apart : b ≠ a) : (s.setFld a hi lo v).rn b = s.rn b := State.rn_setRn_of_ne apart
theorem State.rfld_setFld_of_ne (apart : b ≠ a) : (s.setFld a hi lo v).rfld b h l = s.rfld b h l := congrArg (bits · h l) (State.rn_setFld_of_ne apart)

theorem State.rbit_setFld_self {i : Nat} (canonical : s.canonical = true) (order : lo ≤ hi) (top : hi < 64) (inside : lo ≤ i ∧ i ≤ hi) :
    (s.setFld a hi lo v).rbit a i = v.testBit (i - lo) := by
  rw [State.rbit_setFld canonical order top, if_pos ⟨rfl, inside⟩]

theorem State.rbit_setFld_apart {i : Nat} (canonical : s.canonical = true) (order : lo ≤ hi) (top : hi < 64) (apart : b ≠ a ∨ i < lo ∨ hi < i) :
    (s.setFld a hi lo v).rbit b i = s.rbit b i := by
  rw [State.rbit_setFld canonical order top, if_neg (by omega)]

theorem State.rbit_setFld_of_ne {i : Nat} (apart : b ≠ a) : (s.setFld a hi lo v).rbit b i = s.rbit b i := congrArg (Nat.testBit · i) (State.rn_setFld_of_ne apart)

end Inside

/-! ### What sensors and the clamp change -/

/-- The registers that the clamp's and the sensors' reports change, the readings aside: status, duty and the pending bits of vectors. -/
def reportAt (a : Nat) : Prop := a = R.PW_STATUS ∨ a = R.GH_WB_POWER ∨ pendingAt a

theorem not_reportAt {a : Nat} (status : a ≠ R.PW_STATUS) (power : a ≠ R.GH_WB_POWER) (apart : HX.base + 0xa040 ≤ a) : ¬reportAt a := by
  rintro (same | same | pending)
  · exact status same
  · exact power same
  · exact not_pendingAt (.inr apart) pending

/-- A report: memory stays, and so does every register but those of reports. -/
def State.Reports (s t : State) : Prop := t.mem = s.mem ∧ s.Counts reportAt t

section Reports
variable {s t u : State}

theorem State.Reports.refl (s : State) : s.Reports s := ⟨rfl, .refl s⟩

theorem State.Reports.trans (h : s.Reports t) (k : t.Reports u) : s.Reports u := ⟨k.1.trans h.1, h.2.trans k.2⟩

theorem State.Reports.ev {code src : Nat} {bs : Bytes} (h : s.Reports t) : s.Reports (t.ev code src bs) :=
  h.trans ⟨by simp, fun canonical => ⟨(t.ev_keeps code src bs).2 canonical, fun a apart => State.rn_ev_apart (fun pending => apart (.inr (.inr pending))) code src bs⟩⟩

theorem State.Reports.modPwr {f : Pwr → Pwr} (h : s.Reports t) : s.Reports (t.modPwr f) := h.trans ⟨rfl, .of_eq rfl rfl rfl rfl⟩

theorem State.Reports.setFld {a hi lo v : Nat} (report : reportAt a) (h : s.Reports t) : s.Reports (t.setFld a hi lo v) := h.trans ⟨rfl, .setRn report⟩

theorem State.Reports.ite {p : Prop} {_ : Decidable p} (h : s.Reports t) (k : s.Reports u) : s.Reports (if p then t else u) := by
  split
  · exact h
  · exact k

theorem State.Reports.showDuty (h : s.Reports t) : s.Reports t.showDuty :=
  .setFld (.inr (.inl rfl)) (.setFld (.inl rfl) (.setFld (.inl rfl) (.setFld (.inl rfl) h)))

theorem State.Reports.clampNote {was w : Nat} (h : s.Reports t) : s.Reports (t.clampNote was w) := .ite h.ev.modPwr h
theorem State.Reports.sensorFail {cls i : Nat} (h : s.Reports t) : s.Reports (t.sensorFail cls i) := .ite h h.ev.modPwr
theorem State.Reports.mainSensorFail (h : s.Reports t) : s.Reports t.mainSensorFail := .showDuty (.clampNote (.modPwr (.setFld (.inr (.inl rfl)) h)))
theorem State.Reports.railOver {r : Fin 16} {ma : Nat} (h : s.Reports t) : s.Reports (railOver t r ma) := .ite h h.ev.modPwr.clampNote.showDuty

theorem State.Reports.noteCool {i : Nat} (h : s.Reports t) : s.Reports (t.noteCool i) := by
  simp only [State.noteCool]
  exact .ite h.modPwr (.ite h h.modPwr)

theorem State.Reports.rfld {a hi lo : Nat} (h : s.Reports t) (canonical : s.canonical = true) (apart : ¬reportAt a) : t.rfld a hi lo = s.rfld a hi lo :=
  congrArg (bits · hi lo) ((h.2 canonical).2 a apart)

end Reports

/-! ### The power state behind reports -/

section Pwr
variable {s : State} {i cls was w : Nat}

theorem ite_holds {α : Type} {p : α → Prop} {c : Prop} {_ : Decidable c} {x y : α} (h : p x) (k : p y) : p (if c then x else y) := by
  split
  · exact h
  · exact k

@[simp] theorem State.rfld_modPwr (f : Pwr → Pwr) (a hi lo : Nat) : (s.modPwr f).rfld a hi lo = s.rfld a hi lo := rfl
@[simp] theorem State.modPwr_pwr (f : Pwr → Pwr) : (s.modPwr f).pwr = f s.pwr := rfl
@[simp] theorem State.showDuty_pwr : s.showDuty.pwr = s.pwr := by
  unfold State.showDuty
  rw [State.setFld_pwr, State.setFld_pwr, State.setFld_pwr, State.setFld_pwr]

theorem State.clampNote_cases : s.clampNote was w = (s.ev 0xC01 0xFF (leBytes 2 (s.rfld R.PW_CLAMP 15 0) ++ leBytes 2 w)).modPwr (fun p => { p with clampLog := some s.us })
    ∨ s.clampNote was w = s :=
  ite_holds (p := fun t => t = _ ∨ t = s) (.inl rfl) (.inr rfl)

theorem State.clampNote_pwr : ∃ l, (s.clampNote was w).pwr = { s.pwr with clampLog := l } := by
  obtain noted | same := State.clampNote_cases (s := s) (was := was) (w := w)
  · exact ⟨some s.us, by rw [noted, State.modPwr_pwr, State.ev_pwr]⟩
  · exact ⟨s.pwr.clampLog, by rw [same]⟩

theorem State.noteCool_frame (s : State) (i : Nat) : ∃ c, s.noteCool i = s.modPwr (fun p => { p with cool := c }) :=
  let known (t : State) : Prop := ∃ c, t = s.modPwr (fun p => { p with cool := c })
  have same : known s := ⟨s.pwr.cool, rfl⟩
  show known (s.noteCool i) from ite_holds ⟨_, rfl⟩ (ite_holds same ⟨_, rfl⟩)

/-- A failed sensor is noted as failed; nothing else of the power state changes. -/
theorem State.sensorFail_pwr : ∃ l, (s.sensorFail cls i).pwr = { s.pwr with failed := l } ∧ (cls, i) ∈ l := by
  simp only [State.sensorFail]
  split
  next known => exact ⟨s.pwr.failed, rfl, List.contains_iff_mem.1 known⟩
  · exact ⟨s.pwr.failed ++ [(cls, i)], by rw [State.modPwr_pwr, State.ev_pwr], by simp⟩

theorem State.mainSensorFail_pwr :
    ∃ l, s.mainSensorFail.pwr = { s.pwr with mainFail := true, duty := min 32 s.pwr.duty, below := 0, floor := some 0, clampLog := l } := by
  simp only [State.mainSensorFail, State.showDuty_pwr]
  obtain ⟨l, same⟩ := State.clampNote_pwr (w := 0xFFFF) (was := s.pwr.duty)
    (s := (s.setFld R.GH_WB_POWER 15 0 0xFFFF).modPwr (fun p => { p with mainFail := true, duty := min 32 p.duty, below := 0, floor := some 0 }))
  exact ⟨l, same.trans (by rw [State.modPwr_pwr, State.setFld_pwr])⟩

theorem railOver_pwr {r : Fin 16} (works : s.pwr.failed.contains (3, r.val) = false) (above : railLimit r < w) :
    ∃ l, (railOver s r w).pwr = { s.pwr with duty := min 32 s.pwr.duty, below := 0, clampLog := l } := by
  have acts : (s.pwr.failed.contains (3, r.val) || decide (w ≤ railLimit r)) = false := by
    rw [works, decide_eq_false (Nat.not_le.2 above)]
    rfl
  simp only [railOver, acts, Bool.false_eq_true, if_false, State.showDuty_pwr]
  obtain ⟨l, same⟩ := State.clampNote_pwr (s := (s.ev 0xC04 0xFF (leBytes 1 r ++ leBytes 4 w)).modPwr (fun p => { p with duty := min 32 p.duty, below := 0 }))
    (was := s.pwr.duty) (w := s.rfld R.GH_WB_POWER 15 0)
  exact ⟨l, same.trans (by rw [State.modPwr_pwr, State.ev_pwr])⟩

theorem railOver_within {r : Fin 16} (within : s.pwr.failed.contains (3, r.val) = true ∨ w ≤ railLimit r) : railOver s r w = s := by
  refine if_pos ?_
  obtain failed | within := within
  · rw [failed, Bool.true_or]
  · rw [decide_eq_true within, Bool.or_true]

end Pwr

/-! ### Samples (R377, R404) -/

section Samples
variable {s : State} {i : Fin 72} {d : Fin 36} {r : Fin 16} {v : Nat}

theorem temp_unreported (i : Nat) (small : i < 72) : ¬reportAt (R.GH_WB_TEMP i) := by
  rintro (same | same | pending)
  · unfold R.GH_WB_TEMP R.PW_STATUS GH.base PW.base at same
    omega
  · unfold R.GH_WB_TEMP R.GH_WB_POWER at same
    omega
  · refine not_pendingAt (.inr ?_) pending
    unfold R.GH_WB_TEMP GH.base HX.base
    omega

end Samples

/-- The duty in force, as shown. -/
theorem State.showDuty_status {s : State} (canonical : s.canonical = true) : s.showDuty.rfld R.PW_STATUS 22 16 = s.pwr.dutyNow % 2 ^ 7 := by
  have kept := State.Keeps.refl s
  unfold State.showDuty
  rw [State.rfld_setFld_of_ne (by decide), State.rfld_setFld_apart (kept.setFld.setFld.2 canonical) (by decide) (by decide) (by decide),
    State.rfld_setFld_apart (kept.setFld.2 canonical) (by decide) (by decide) (by decide), State.rfld_setFld_self canonical (by decide) (by decide)]

theorem State.showDuty_watts {s : State} (canonical : s.canonical = true) : s.showDuty.rfld R.GH_WB_POWER 15 0 = s.rfld R.GH_WB_POWER 15 0 := by
  have kept := State.Keeps.refl s
  unfold State.showDuty
  rw [State.rfld_setFld_apart (kept.setFld.setFld.setFld.2 canonical) (by decide) (by decide) (by decide), State.rfld_setFld_of_ne (by decide),
    State.rfld_setFld_of_ne (by decide), State.rfld_setFld_of_ne (by decide)]

section Samples
variable {s : State} {i : Fin 72} {d : Fin 36} {r : Fin 16} {v : Nat}

/-- A reading and the peak. -/
def State.sampled (s : State) (i : Fin 72) (now : Nat) : State :=
  s.setFld (R.GH_WB_TEMP i) 31 0
    ((if signed 16 (s.rfld (R.GH_WB_TEMP i) 31 16) < signed 16 now then now else s.rfld (R.GH_WB_TEMP i) 31 16) * 65536 + now)

theorem State.rfld_sampled {now : Nat} (canonical : s.canonical = true) (small : now < 65536) : (s.sampled i now).rfld (R.GH_WB_TEMP i) 15 0 = now := by
  rw [State.sampled, State.rfld_setFld_inside canonical (by decide) (by decide) (by decide) (by decide) (by decide), bits, Nat.shiftRight_eq_div_pow]
  omega

/-- The thresholds of a sensor (R404). -/
def limitOf (i : Fin 72) : Nat := if i.val < 64 then R.PW_THERM else R.PW_STACK_THERM

/-- WARN is crossed or not (R404). -/
def State.warned (s : State) (i : Fin 72) (now : Nat) : State :=
  let s1 := s.sampled i now
  if !s.pwr.warn.contains i.val && decide ((s.rfld (limitOf i) 23 16 : Nat) * 16 < signed 16 now) then
    (s1.ev 0xC10 0xFF (leBytes 1 i ++ leBytes 2 now)).modPwr (fun p => { p with warn := p.warn ++ [i.val] })
  else if s.pwr.warn.contains i.val && decide (signed 16 now < (s.rfld (limitOf i) 23 16 : Nat) * 16 - 80) then
    s1.modPwr (fun p => { p with warn := p.warn.filter (· != i.val) })
  else s1

theorem State.warned_reports (s : State) (i : Fin 72) (now : Nat) : (s.sampled i now).Reports (s.warned i now) :=
  .ite (State.Reports.refl _).ev.modPwr (.ite (State.Reports.refl _).modPwr (.refl _))

theorem State.warned_pwr (s : State) (i : Fin 72) (now : Nat) : ∃ l, (s.warned i now).pwr = { s.pwr with warn := l } :=
  ite_holds (p := fun t : State => ∃ l, t.pwr = { s.pwr with warn := l }) ⟨s.pwr.warn ++ [i.val], by rw [State.modPwr_pwr, State.ev_pwr, State.sampled, State.setFld_pwr]⟩
    (ite_holds (p := fun t : State => ∃ l, t.pwr = { s.pwr with warn := l })
      ⟨s.pwr.warn.filter (· != i.val), by rw [State.modPwr_pwr, State.sampled, State.setFld_pwr]⟩ ⟨s.pwr.warn, by rw [State.sampled, State.setFld_pwr]⟩)

theorem tempSample_some : tempSample s i (some v) =
    (let now := v % 65536
      let s2 := s.warned i now
      if signed 16 now ≤ (s.rfld (limitOf i) 15 8 : Nat) * 16 then s2
      else if i.val < 64 then
        (if s2.pwr.throttle then s2
        else ((s2.ev 0xC11 0xFF (leBytes 1 i ++ leBytes 2 now)).modPwr (fun p => { p with throttle := true })).showDuty)
      else if s2.pwr.hot.contains (i.val - 64) then s2 else s2.modPwr (fun p => { p with hot := p.hot ++ [i.val - 64] })).noteCool i := rfl

/-- Below both thresholds a sample moves the reading and the peak alone. -/
theorem tempSample_cool (cool : signed 16 (v % 65536) ≤ (s.rfld (limitOf i) 15 8 : Nat) * 16)
    (mild : signed 16 (v % 65536) ≤ (s.rfld (limitOf i) 23 16 : Nat) * 16) (calm : s.pwr.warn.contains i.val = false) :
    tempSample s i (some v) = (s.sampled i (v % 65536)).noteCool i := by
  have same : s.warned i (v % 65536) = s.sampled i (v % 65536) := by
    unfold State.warned
    rw [calm, decide_eq_false (Int.not_lt.2 mild)]
    rfl
  rw [tempSample_some]
  exact congrArg (State.noteCool · i) ((if_pos cool).trans same)

section Above
variable (canonical : s.canonical = true) (above : (s.rfld (limitOf i) 15 8 : Nat) * 16 < signed 16 (v % 65536))

include canonical in
/-- A sample leaves its reading, and memory as it was. -/
theorem tempSample_reads : (tempSample s i (some v)).rfld (R.GH_WB_TEMP i) 15 0 = v % 65536 ∧ (tempSample s i (some v)).mem = s.mem := by
  have sampled : (s.sampled i (v % 65536)).canonical = true := (State.Keeps.refl s).setFld.2 canonical
  have reports : (s.sampled i (v % 65536)).Reports (tempSample s i (some v)) := by
    rw [tempSample_some]
    have warned := s.warned_reports i (v % 65536)
    exact .noteCool (.ite warned (.ite (.ite warned warned.ev.modPwr.showDuty) (.ite warned warned.modPwr)))
  refine ⟨?_, reports.1.trans (State.setFld_mem ..)⟩
  rw [reports.rfld sampled (temp_unreported i i.isLt), State.rfld_sampled canonical (Nat.mod_lt _ (by decide))]

include above

theorem tempSample_stack (stack : 64 ≤ i.val) : i.val - 64 ∈ (tempSample s i (some v)).pwr.hot := by
  rw [tempSample_some, if_neg (Int.not_le.2 above), if_neg (Nat.not_lt.2 stack)]
  split
  next known =>
    obtain ⟨c, cool⟩ := (s.warned i (v % 65536)).noteCool_frame i
    rw [cool]
    exact List.contains_iff_mem.1 known
  next =>
    obtain ⟨c, cool⟩ := ((s.warned i (v % 65536)).modPwr (fun p => { p with hot := p.hot ++ [i.val - 64] })).noteCool_frame i
    rw [cool]
    exact List.mem_append_right _ (List.mem_singleton.2 rfl)

include canonical

theorem tempSample_die (die : i.val < 64) : (tempSample s i (some v)).pwr.throttle = true
    ∧ (s.pwr.throttle = false → (tempSample s i (some v)).rfld R.PW_STATUS 22 16 = min 32 s.pwr.duty) := by
  obtain ⟨l, pwr⟩ := s.warned_pwr i (v % 65536)
  have throttle : (s.warned i (v % 65536)).pwr.throttle = s.pwr.throttle := by rw [pwr]
  have duty : (s.warned i (v % 65536)).pwr.duty = s.pwr.duty := by rw [pwr]
  have warned : (s.warned i (v % 65536)).canonical = true :=
    ((s.warned_reports i (v % 65536)).2 ((State.Keeps.refl s).setFld.2 canonical)).1
  rw [tempSample_some, if_neg (Int.not_le.2 above), if_pos die]
  split
  next throttled =>
    obtain ⟨c, cool⟩ := (s.warned i (v % 65536)).noteCool_frame i
    rw [cool]
    exact ⟨throttled, fun free => absurd (free.symm.trans (throttle.symm.trans throttled)) (by decide)⟩
  next =>
    have alarmed : (((s.warned i (v % 65536)).ev 0xC11 0xFF (leBytes 1 i ++ leBytes 2 (v % 65536))).modPwr (fun p => { p with throttle := true })).canonical = true :=
      (State.Keeps.refl _).ev.modPwr.2 warned
    generalize heat : ((s.warned i (v % 65536)).ev 0xC11 0xFF (leBytes 1 i ++ leBytes 2 (v % 65536))).modPwr (fun p => { p with throttle := true }) = u at *
    have held : u.pwr = { (s.warned i (v % 65536)).pwr with throttle := true } := by rw [← heat, State.modPwr_pwr, State.ev_pwr]
    obtain ⟨c, cool⟩ := u.showDuty.noteCool_frame i
    rw [cool]
    refine ⟨by rw [State.modPwr_pwr, State.showDuty_pwr, held], fun _ => ?_⟩
    have throttled : u.pwr.dutyNow = min 32 s.pwr.duty := by rw [held, Pwr.dutyNow, if_pos rfl, duty]
    rw [State.rfld_modPwr, State.showDuty_status alarmed, throttled]
    omega

omit above in
/-- A sensor that fails its self-check: the reading 0x8000, and the sensor among the failed. -/
theorem tempSample_fails : (tempSample s i none).rfld (R.GH_WB_TEMP i) 15 0 = 0x8000
    ∧ ((if i.val < 64 then 0 else 1), i.val) ∈ (tempSample s i none).pwr.failed ∧ (tempSample s i none).mem = s.mem := by
  have low : (s.setFld (R.GH_WB_TEMP i) 15 0 0x8000).canonical = true := (State.Keeps.refl s).setFld.2 canonical
  have read : (s.setFld (R.GH_WB_TEMP i) 15 0 0x8000).rfld (R.GH_WB_TEMP i) 15 0 = 0x8000 := by
    rw [State.rfld_setFld_self canonical (by decide) (by decide)]
    rfl
  have fails : tempSample s i none = ((s.setFld (R.GH_WB_TEMP i) 15 0 0x8000).sensorFail (if i.val < 64 then 0 else 1) i).noteCool i := rfl
  have memory : (s.setFld (R.GH_WB_TEMP i) 15 0 0x8000).mem = s.mem := State.setFld_mem ..
  generalize s.setFld (R.GH_WB_TEMP i) 15 0 0x8000 = u at *
  obtain ⟨l, pwr, failed⟩ := State.sensorFail_pwr (s := u) (cls := if i.val < 64 then 0 else 1) (i := i)
  have reports : u.Reports ((u.sensorFail (if i.val < 64 then 0 else 1) i).noteCool i) := (State.Reports.refl u).sensorFail.noteCool
  obtain ⟨c, cool⟩ := (u.sensorFail (if i.val < 64 then 0 else 1) i).noteCool_frame i
  rw [fails]
  refine ⟨?_, ?_, reports.1.trans memory⟩
  · rw [reports.rfld low (temp_unreported i i.isLt), read]
  · rw [cool, State.modPwr_pwr, pwr]
    exact failed

end Above
end Samples

section Currents
variable {s : State} {r : Fin 16}

theorem curr_unreported (r : Fin 16) : ¬reportAt (R.GH_WB_CURR r) := by
  have small := r.isLt
  rintro (same | same | pending)
  · unfold R.GH_WB_CURR R.PW_STATUS GH.base PW.base at same
    omega
  · unfold R.GH_WB_CURR R.GH_WB_POWER at same
    omega
  · refine not_pendingAt (.inr ?_) pending
    unfold R.GH_WB_CURR GH.base HX.base
    omega

/-- A current sensor that fails its self-check: the reading all ones, the sensor among the failed, and that of the main input holds the duty. -/
theorem currSample_fails (canonical : s.canonical = true) : (currSample s r none).rfld (R.GH_WB_CURR r) 31 0 = 2 ^ 32 - 1 ∧ (3, r.val) ∈ (currSample s r none).pwr.failed
    ∧ (currSample s r none).pwr.duty = (if r.val = 0 then min 32 s.pwr.duty else s.pwr.duty) ∧ (currSample s r none).mem = s.mem := by
  have low : (s.setFld (R.GH_WB_CURR r) 31 0 (2 ^ 32 - 1)).canonical = true := (State.Keeps.refl s).setFld.2 canonical
  have read : (s.setFld (R.GH_WB_CURR r) 31 0 (2 ^ 32 - 1)).rfld (R.GH_WB_CURR r) 31 0 = 2 ^ 32 - 1 := by
    rw [State.rfld_setFld_self canonical (by decide) (by decide)]
    rfl
  have fails : currSample s r none = (let t := (s.setFld (R.GH_WB_CURR r) 31 0 (2 ^ 32 - 1)).sensorFail 3 r; if r.val = 0 then t.mainSensorFail else t) := rfl
  have power : (s.setFld (R.GH_WB_CURR r) 31 0 (2 ^ 32 - 1)).pwr = s.pwr := State.setFld_pwr ..
  have memory : (s.setFld (R.GH_WB_CURR r) 31 0 (2 ^ 32 - 1)).mem = s.mem := State.setFld_mem ..
  generalize s.setFld (R.GH_WB_CURR r) 31 0 (2 ^ 32 - 1) = u at *
  obtain ⟨l, pwr, failed⟩ := State.sensorFail_pwr (s := u) (cls := 3) (i := r)
  have reports : u.Reports (u.sensorFail 3 r) := (State.Reports.refl u).sensorFail
  rw [fails]
  dsimp only
  split
  next =>
    obtain ⟨c, main⟩ := State.mainSensorFail_pwr (s := u.sensorFail 3 r)
    refine ⟨?_, ?_, ?_, reports.mainSensorFail.1.trans memory⟩
    · rw [reports.mainSensorFail.rfld low (curr_unreported r), read]
    · rw [main, pwr]
      exact failed
    · rw [main, pwr, power]
  next =>
    refine ⟨?_, ?_, ?_, reports.1.trans memory⟩
    · rw [reports.rfld low (curr_unreported r), read]
    · rw [pwr]
      exact failed
    · rw [pwr, power]

theorem currSample_over {n : Nat} : currSample s r (some n) =
    railOver (s.setFld (R.GH_WB_CURR r) 63 0 (max (s.rfld (R.GH_WB_CURR r) 63 32) (n % 2 ^ 32) * 2 ^ 32 + n % 2 ^ 32)) r (n % 2 ^ 32) := rfl

end Currents

/-! ### The throttle's end (R404) -/

section Throttle
variable {s : State} {k : Nat}

theorem cooledFor_true (cool : s.coolNow k = true) (long : ∃ z, (k, z) ∈ s.pwr.cool ∧ z + 1000 ≤ s.us) : s.cooledFor k = true := by
  obtain ⟨z, mem, long⟩ := long
  rw [State.cooledFor, cool, Bool.true_and, List.any_eq_true]
  exact ⟨(k, z), mem, by simp [long]⟩

theorem cooledFor_false (warm : s.coolNow k = false ∨ ∀ z, (k, z) ∈ s.pwr.cool → s.us < z + 1000) : s.cooledFor k = false := by
  obtain warm | short := warm
  · rw [State.cooledFor, warm, Bool.false_and]
  · rw [State.cooledFor, Bool.and_eq_false_iff, List.any_eq_false]
    refine .inr fun ⟨j, z⟩ mem => ?_
    simp only [Bool.and_eq_true, beq_iff_eq, decide_eq_true_iff, not_and]
    rintro rfl
    exact Nat.not_le.2 (short z mem)

theorem coolNow_stack (stack : k < 8) : s.coolNow k = s.below [64 + k] R.PW_STACK_THERM := if_neg (Nat.ne_of_lt stack)

end Throttle

/-! ### The clamp (R402, R403) -/

section Clamp
variable {s : State} {v : Nat}

/-- What a tick counts (R378). -/
def State.counted (s : State) : State :=
  let s0 := if s.pwr.duty < 64 then s.addReg R.PW_CLAMP_US 10 else s
  if s.pwr.throttle then s0.addReg R.PW_THROTTLE_US 10 else s0

theorem State.counted_keeps (s : State) : s.Keeps s.counted := .ite (.addReg (.ite (State.Keeps.refl s).addReg (.refl s))) (.ite (State.Keeps.refl s).addReg (.refl s))

theorem State.counted_holds {p : State → Prop} (same : p s) (counts : ∀ t a n, a = R.PW_CLAMP_US ∨ a = R.PW_THROTTLE_US → p t → p (t.addReg a n)) : p s.counted := by
  have clamped : p (if s.pwr.duty < 64 then s.addReg R.PW_CLAMP_US 10 else s) := ite_holds (counts _ _ _ (.inl rfl) same) same
  exact ite_holds (counts _ _ _ (.inr rfl) clamped) clamped

theorem State.counted_pwr : s.counted.pwr = s.pwr := State.counted_holds (p := fun t => t.pwr = s.pwr) rfl fun _ _ _ _ same => same
theorem State.counted_mem : s.counted.mem = s.mem := State.counted_holds (p := fun t => t.mem = s.mem) rfl fun _ _ _ _ same => same

theorem State.rn_counted {a : Nat} (clamp : a ≠ R.PW_CLAMP_US) (throttle : a ≠ R.PW_THROTTLE_US) : s.counted.rn a = s.rn a :=
  State.counted_holds (p := fun t => t.rn a = s.rn a) rfl fun _ _ _ counter same =>
    (State.rn_setRn_of_ne fun other => counter.elim (fun eq => clamp (other.trans eq)) fun eq => throttle (other.trans eq)).trans same

theorem State.rfld_counted {a hi lo : Nat} (clamp : a ≠ R.PW_CLAMP_US) (throttle : a ≠ R.PW_THROTTLE_US) : s.counted.rfld a hi lo = s.rfld a hi lo :=
  congrArg (bits · hi lo) (State.rn_counted clamp throttle)

/-- The clamp's state after a reading of `w` watts against a clamp of `cl`. -/
def Pwr.steered (p : Pwr) (w cl : Nat) : Pwr :=
  if cl < w then { p with duty := max 16 (p.duty - 1), below := 0 }
  else if w * 100 < cl * 98 then
    (if 100 ≤ p.below + 10 then { p with duty := min 64 (p.duty + 1), below := 0 } else { p with below := p.below + 10 })
  else { p with below := 0 }

theorem Pwr.steered_duty (p : Pwr) (w cl : Nat) : (p.steered w cl).duty =
    if cl < w then max 16 (p.duty - 1) else if w * 100 < cl * 98 ∧ 100 ≤ p.below + 10 then min 64 (p.duty + 1) else p.duty := by
  unfold Pwr.steered
  by_cases above : cl < w
  · rw [if_pos above, if_pos above]
  rw [if_neg above, if_neg above]
  by_cases low : w * 100 < cl * 98
  · rw [if_pos low]
    by_cases long : 100 ≤ p.below + 10
    · rw [if_pos long, if_pos ⟨low, long⟩]
    · rw [if_neg long, if_neg fun h => long h.2]
  · rw [if_neg low, if_neg fun h => low h.1]

theorem clamp_unreported : ¬reportAt R.PW_CLAMP := by
  rintro (same | same | pending)
  · exact absurd same (by decide)
  · exact absurd same (by decide)
  · exact not_pendingAt (.inr (by decide)) pending

/-- The watts of a reading (R378). -/
def State.watts (s : State) (v : Nat) : Nat := min (v * s.rfld (R.GH_WB_CURR 0) 31 0 / 1000000) 0xFFFE

/-- The power state after a reading. -/
def Pwr.clamped (p : Pwr) (w cl : Nat) : Pwr :=
  { p.steered w cl with floor := if p.duty = 16 ∧ cl < w then p.floor.map (· + 10) else some 0 }

/-- A reading of `w` watts acted on. -/
def State.clamps (s : State) (w : Nat) : State :=
  (((s.setFld R.GH_WB_POWER 15 0 w).modPwr (fun _ => s.pwr.clamped w (s.rfld R.PW_CLAMP 15 0))).clampNote s.pwr.duty w).showDuty

theorem clampTick_reads (works : s.pwr.mainFail = false) : clampTick s (some v) = s.counted.clamps (s.counted.watts v) := by
  have reading : (if s.counted.pwr.mainFail then none else some v) = some v := by rw [State.counted_pwr, works]; rfl
  have step : clampTick s (some v) = (match (if s.counted.pwr.mainFail then none else some v) with
    | none => s.counted.mainSensorFail
    | some v => s.counted.clamps (s.counted.watts v)) := rfl
  rw [step, reading]

theorem clampTick_fails : clampTick s none = s.counted.mainSensorFail := by
  have silent : (if s.counted.pwr.mainFail then none else none) = (none : Option Nat) := ite_self none
  have step : clampTick s none = (match (if s.counted.pwr.mainFail then none else none) with
    | none => s.counted.mainSensorFail
    | some v => s.counted.clamps (s.counted.watts v)) := rfl
  rw [step, silent]

/-- With the main input's sensor failed no reading counts. -/
theorem clampTick_failed (failed : s.pwr.mainFail = true) : clampTick s (some v) = s.counted.mainSensorFail := by
  have silent : (if s.counted.pwr.mainFail then none else some v) = none := by rw [State.counted_pwr, failed]; rfl
  have step : clampTick s (some v) = (match (if s.counted.pwr.mainFail then none else some v) with
    | none => s.counted.mainSensorFail
    | some v => s.counted.clamps (s.counted.watts v)) := rfl
  rw [step, silent]

theorem State.clamps_reports (canonical : s.canonical = true) {w : Nat} (small : w < 2 ^ 16) : s.Reports (s.clamps w)
    ∧ (s.clamps w).rfld R.GH_WB_POWER 15 0 = w ∧ (s.clamps w).pwr.duty = (s.pwr.steered w (s.rfld R.PW_CLAMP 15 0)).duty := by
  have read : s.Reports ((s.setFld R.GH_WB_POWER 15 0 w).modPwr (fun _ => s.pwr.clamped w (s.rfld R.PW_CLAMP 15 0))) :=
    .modPwr (.setFld (.inr (.inl rfl)) (.refl s))
  have shown : ((s.setFld R.GH_WB_POWER 15 0 w).modPwr (fun _ => s.pwr.clamped w (s.rfld R.PW_CLAMP 15 0))).rfld R.GH_WB_POWER 15 0 = w := by
    rw [State.rfld_modPwr, State.rfld_setFld_self canonical (by decide) (by decide)]
    exact Nat.mod_eq_of_lt small
  have power : ((s.setFld R.GH_WB_POWER 15 0 w).modPwr (fun _ => s.pwr.clamped w (s.rfld R.PW_CLAMP 15 0))).pwr = s.pwr.clamped w (s.rfld R.PW_CLAMP 15 0) :=
    State.modPwr_pwr _
  unfold State.clamps
  generalize (s.setFld R.GH_WB_POWER 15 0 w).modPwr (fun _ => s.pwr.clamped w (s.rfld R.PW_CLAMP 15 0)) = u at *
  have noted := read.clampNote (was := s.pwr.duty) (w := w)
  refine ⟨noted.showDuty, ?_, ?_⟩
  · rw [State.showDuty_watts (noted.2 canonical).1]
    obtain logged | same := State.clampNote_cases (s := u) (was := s.pwr.duty) (w := w)
    · rw [logged, State.rfld_modPwr, State.rfld, State.rn_ev_apart (not_pendingAt (by decide)), ← State.rfld, shown]
    · rw [same, shown]
  · obtain ⟨l, pwr⟩ := State.clampNote_pwr (s := u) (was := s.pwr.duty) (w := w)
    rw [State.showDuty_pwr, pwr, power]
    rfl

/-! ### POWER_CLAMP_UNMET (R403) -/

theorem clampUnmet_reports (low : s.pwr.duty = 16) (above : s.rfld R.PW_CLAMP 15 0 < s.rfld R.GH_WB_POWER 15 0) (long : ∃ z, s.pwr.floor = some z ∧ 1000 ≤ z) :
    clampUnmet s = ((s.modPwr (fun p => { p with floor := none })).setFld R.PW_STATUS 3 3 1).ev 0xC03 0xFF
      (leBytes 2 (s.rfld R.PW_CLAMP 15 0) ++ leBytes 2 (s.rfld R.GH_WB_POWER 15 0)) := by
  obtain ⟨z, floor, long⟩ := long
  exact if_pos ⟨low, above, by rw [floor]; exact decide_eq_true long⟩

theorem clampUnmet_waits
    (met : s.pwr.duty ≠ 16 ∨ s.rfld R.GH_WB_POWER 15 0 ≤ s.rfld R.PW_CLAMP 15 0 ∨ s.pwr.floor = none ∨ ∃ z, s.pwr.floor = some z ∧ z < 1000) : clampUnmet s = s := by
  refine if_neg fun ⟨low, above, long⟩ => ?_
  obtain high | met | none' | ⟨z, floor, short⟩ := met
  · exact high low
  · exact Nat.not_lt.2 met above
  · rw [none'] at long
    exact absurd long (by decide)
  · rw [floor] at long
    exact Nat.not_le.2 short (of_decide_eq_true long)

/-! ### The clamp and the thresholds written (R402, R404) -/

theorem setClamp_same {w src : Nat} (same : min (max w 600) s.clampCap = s.rfld R.PW_CLAMP 15 0) : s.setClamp w src = s := if_pos same

theorem setClamp_changes {w src : Nat} (differs : min (max w 600) s.clampCap ≠ s.rfld R.PW_CLAMP 15 0) :
    s.setClamp w src = (s.setRn R.PW_CLAMP (min (max w 600) s.clampCap)).ev 0xC02 0xFF (leBytes 2 (min (max w 600) s.clampCap) ++ leBytes 1 src) := if_neg differs

/-- The thresholds of the die or of the stacks. -/
def thermOf (stack : Bool) : Nat := if stack then R.PW_STACK_THERM else R.PW_THERM

/-- WARN, THROTTLE and TRIP of a threshold register. -/
theorem bits_therm {warn throttle trip : Nat} (h0 : trip < 2 ^ 8) (h1 : throttle < 2 ^ 8) (h2 : warn < 2 ^ 8) :
    bits (warn * 65536 + throttle * 256 + trip) 7 0 = trip ∧ bits (warn * 65536 + throttle * 256 + trip) 15 8 = throttle
      ∧ bits (warn * 65536 + throttle * 256 + trip) 23 16 = warn := by
  simp only [bits, Nat.shiftRight_eq_div_pow]
  omega

theorem pwThermWrite_fields (canonical : s.canonical = true) (stack : Bool) :
    let a := thermOf stack
    let t := pwThermWrite s stack v
    t.rfld a 7 0 = s.rfld a 7 0 ∧ t.rfld a 15 8 = min (bits v 15 8) (s.rfld a 7 0 - 5) ∧ t.rfld a 23 16 = min (bits v 23 16) (t.rfld a 15 8) := by
  have trip : s.rfld (thermOf stack) 7 0 < 2 ^ 8 := bits_lt _ 7 0
  have throttle : min (bits v 15 8) (s.rfld (thermOf stack) 7 0 - 5) < 2 ^ 8 := Nat.lt_of_le_of_lt (Nat.min_le_left _ _) (bits_lt v 15 8)
  have warn : min (bits v 23 16) (min (bits v 15 8) (s.rfld (thermOf stack) 7 0 - 5)) < 2 ^ 8 := Nat.lt_of_le_of_lt (Nat.min_le_left _ _) (bits_lt v 23 16)
  have written : (pwThermWrite s stack v).rn (thermOf stack) = min (bits v 23 16) (min (bits v 15 8) (s.rfld (thermOf stack) 7 0 - 5)) * 65536
      + min (bits v 15 8) (s.rfld (thermOf stack) 7 0 - 5) * 256 + s.rfld (thermOf stack) 7 0 :=
    (State.rn_setRn_self canonical).trans (Nat.mod_eq_of_lt (by unfold thermOf at *; omega))
  obtain ⟨trips, throttles, warns⟩ := bits_therm trip throttle warn
  have field (hi lo : Nat) := congrArg (bits · hi lo) written
  have shown : (pwThermWrite s stack v).rfld (thermOf stack) 15 8 = _ := (field 15 8).trans throttles
  exact ⟨(field 7 0).trans trips, shown, ((field 23 16).trans warns).trans (congrArg (min _) shown.symm)⟩

end Clamp

/-! ### Phase records configured (R379) -/

section Phase
variable {s : State} {v : Nat}

/-- The sequence restarts where ON goes to 1. -/
def State.phaseOn (s : State) (v : Nat) : State := if v.testBit 31 && !s.rbit R.GH_PHASE_CFG 31 then s.setRn R.GH_PHASE_SEQ 0 else s

/-- ON written. -/
def State.phaseSet (s : State) (v : Nat) : State := (s.phaseOn v).setFld R.GH_PHASE_CFG 31 31 (b2n (v.testBit 31))

theorem phaseCfgWrite_eq : phaseCfgWrite s v = if 8 ≤ bits v 4 0 ∧ bits v 4 0 ≤ 16 then (s.phaseSet v).setFld R.GH_PHASE_CFG 4 0 (bits v 4 0) else s.phaseSet v := rfl

theorem State.phaseOn_keeps : s.Keeps (s.phaseOn v) := .ite (State.Keeps.refl s).setRn (.refl s)

theorem State.phaseSet_keeps : s.Keeps (s.phaseSet v) := State.phaseOn_keeps.setFld

theorem State.rn_phaseOn {a : Nat} (apart : a ≠ R.GH_PHASE_SEQ) : (s.phaseOn v).rn a = s.rn a :=
  ite_holds (p := fun t : State => t.rn a = s.rn a) (State.rn_setRn_of_ne apart) rfl

theorem phaseCfgWrite_mem : (phaseCfgWrite s v).mem = s.mem := by
  have on : (s.phaseOn v).mem = s.mem := ite_holds (p := fun t : State => t.mem = s.mem) (State.setRn_mem ..) rfl
  rw [phaseCfgWrite_eq]
  exact ite_holds (p := fun t : State => t.mem = s.mem) ((State.setFld_mem ..).trans ((State.setFld_mem ..).trans on)) ((State.setFld_mem ..).trans on)

variable (canonical : s.canonical = true)
include canonical

theorem rbit_phaseSet : (s.phaseSet v).rbit R.GH_PHASE_CFG 31 = v.testBit 31 := by
  rw [State.phaseSet, State.rbit_setFld (State.phaseOn_keeps.2 canonical) (by decide) (by decide), if_pos (by decide)]
  cases v.testBit 31 <;> rfl

theorem rbit_phaseCfgWrite : (phaseCfgWrite s v).rbit R.GH_PHASE_CFG 31 = v.testBit 31 := by
  rw [phaseCfgWrite_eq]
  split
  · rw [State.rbit_setFld (State.phaseSet_keeps.2 canonical) (by decide) (by decide), if_neg (by decide), rbit_phaseSet canonical]
  · exact rbit_phaseSet canonical

theorem size_phaseCfgWrite : (phaseCfgWrite s v).rfld R.GH_PHASE_CFG 4 0 =
    if 8 ≤ bits v 4 0 ∧ bits v 4 0 ≤ 16 then bits v 4 0 else s.rfld R.GH_PHASE_CFG 4 0 := by
  rw [phaseCfgWrite_eq]
  split
  · rw [State.rfld_setFld_self (State.phaseSet_keeps.2 canonical) (by decide) (by decide)]
    exact Nat.mod_eq_of_lt (bits_lt v 4 0)
  · rw [State.phaseSet, State.rfld_setFld_apart (State.phaseOn_keeps.2 canonical) (by decide) (by decide) (by decide)]
    exact congrArg (bits · 4 0) (State.rn_phaseOn (by decide))

theorem seq_phaseCfgWrite (on : v.testBit 31 = true) (off : s.rbit R.GH_PHASE_CFG 31 = false) : (phaseCfgWrite s v).rn R.GH_PHASE_SEQ = 0 := by
  have restarts : (s.phaseOn v).rn R.GH_PHASE_SEQ = 0 := by
    rw [State.phaseOn, on, off]
    exact State.rn_cleared canonical
  have set : (s.phaseSet v).rn R.GH_PHASE_SEQ = 0 := (State.rn_setFld_of_ne (by decide)).trans restarts
  rw [phaseCfgWrite_eq]
  exact ite_holds (p := fun t : State => t.rn R.GH_PHASE_SEQ = 0) ((State.rn_setFld_of_ne (by decide)).trans set) set

end Phase

/-! ### The boot record (R410) -/

section Boot
variable {s t : State} {r : BootRec}

/-- A copy in force. -/
def State.bootCopy (s : State) : BootCopy := if s.bootPick then s.gate.boots[1] else s.gate.boots[0]

theorem State.boot_eq : s.boot = if s.bootCopy.holds then s.bootCopy.record else {} := rfl

/-- The copy that a write makes. -/
def BootCopy.next (c : BootCopy) (r : BootRec) : BootCopy := { wseq := (c.wseq + 1) % 2 ^ 32, record := r, crc := r.crc ((c.wseq + 1) % 2 ^ 32) }

theorem BootCopy.next_holds (c : BootCopy) (r : BootRec) : (c.next r).holds = true := beq_self_eq_true _

theorem State.setBoot_boots : (s.setBoot r).gate.boots = if s.bootPick then s.gate.boots.set 0 (s.bootCopy.next r) else s.gate.boots.set 1 (s.bootCopy.next r) := rfl

theorem State.bootPick_of_boots (h : t.gate.boots = s.gate.boots) : t.bootPick = s.bootPick := by simp only [State.bootPick, h]
theorem State.bootCopy_of_boots (h : t.gate.boots = s.gate.boots) : t.bootCopy = s.bootCopy := by simp only [State.bootCopy, State.bootPick_of_boots h, h]
theorem State.boot_of_boots (h : t.gate.boots = s.gate.boots) : t.boot = s.boot := by rw [State.boot_eq, State.bootCopy_of_boots h, State.boot_eq]

theorem State.setBoot_of_boots (h : t.gate.boots = s.gate.boots) : (t.setBoot r).gate.boots = (s.setBoot r).gate.boots := by
  simp only [State.setBoot_boots, State.bootPick_of_boots h, State.bootCopy_of_boots h, h]

/-- While WSEQ has room the record written is the one in force. -/
theorem State.boot_setBoot (room : ∀ c : Fin 2, s.gate.boots[c].wseq + 1 < 2 ^ 32) : (s.setBoot r).boot = r := by
  have held := s.bootCopy.next_holds r
  cases pick : s.bootPick with
  | true =>
    have old : s.bootCopy = s.gate.boots[1] := if_pos pick
    have boots : (s.setBoot r).gate.boots = s.gate.boots.set 0 (s.bootCopy.next r) := (State.setBoot_boots).trans (if_pos pick)
    have new : (s.setBoot r).gate.boots[0] = s.bootCopy.next r := by simp only [boots, Vector.getElem_set_self]
    have kept : (s.setBoot r).gate.boots[1] = s.gate.boots[1] := by simp only [boots]; exact Vector.getElem_set_ne _ _ (by decide)
    have later : (s.bootCopy.next r).wseq = s.gate.boots[1].wseq + 1 := by
      rw [BootCopy.next, old]
      exact Nat.mod_eq_of_lt (room 1)
    have first : (s.setBoot r).bootPick = false := by
      simp only [State.bootPick, new, kept, held, later]
      simp
    have inForce : (s.setBoot r).bootCopy = s.bootCopy.next r := (if_neg (by rw [first]; decide)).trans new
    rw [State.boot_eq, inForce, if_pos held]
    rfl
  | false =>
    have old : s.bootCopy = s.gate.boots[0] := if_neg (by rw [pick]; decide)
    have boots : (s.setBoot r).gate.boots = s.gate.boots.set 1 (s.bootCopy.next r) := (State.setBoot_boots).trans (if_neg (by rw [pick]; decide))
    have new : (s.setBoot r).gate.boots[1] = s.bootCopy.next r := by simp only [boots, Vector.getElem_set_self]
    have kept : (s.setBoot r).gate.boots[0] = s.gate.boots[0] := by simp only [boots]; exact Vector.getElem_set_ne _ _ (by decide)
    have later : (s.bootCopy.next r).wseq = s.gate.boots[0].wseq + 1 := by
      rw [BootCopy.next, old]
      exact Nat.mod_eq_of_lt (room 0)
    have second : (s.setBoot r).bootPick = true := by
      simp only [State.bootPick, new, kept, held, later]
      simp
    have inForce : (s.setBoot r).bootCopy = s.bootCopy.next r := (if_pos second).trans new
    rw [State.boot_eq, inForce, if_pos held]
    rfl

end Boot

/-! ### A start of the gatehouse (R395) -/

section Restart
variable {s t : State} {a : Nat} {m : Fin 16}

theorem State.rn_setReg_of_ne {b : Nat} {v : W64} (apart : b ≠ a) : (s.setReg a v).rn b = s.rn b := congrArg BitVec.toNat (SMap.get_set_ne apart s.regs)

/-- The registers that a start brings to their Reset values whole. -/
def ghFreshRegs : List Nat := [R.GH_HMB_BASE, R.GH_HMB_LIMIT, R.GH_LOG_CFG, R.GH_PHASE_BASE, R.GH_PHASE_CFG, R.GH_PHASE_SEQ]

/-- Those registers at their Reset values. -/
def State.ghFresh (s : State) : State := ghFreshRegs.foldl (fun (t : State) a => t.setReg a (regReset a)) s

theorem State.ghFresh_keeps : s.Keeps s.ghFresh := .fold (fun h => h.setReg) (.refl s)

theorem State.rn_ghFresh (apart : a ∉ ghFreshRegs) : s.ghFresh.rn a = s.rn a :=
  List.foldlRecOn (motive := fun t : State => t.rn a = s.rn a) ghFreshRegs _ rfl fun _ same b mem =>
    (State.rn_setReg_of_ne fun eq => apart (by rw [eq]; exact mem)).trans same

/-- The fields of GH_STATUS and the running version cleared. -/
def State.ghStopped (s : State) : State := (((s.ghFresh.setFld R.GH_FW 39 0 0).setFld R.GH_STATUS 0 0 0).setFld R.GH_STATUS 4 4 0).setFld R.GH_STATUS 9 8 0

theorem State.ghStopped_keeps : s.Keeps s.ghStopped := State.ghFresh_keeps.setFld.setFld.setFld.setFld

theorem State.rn_ghStopped (apart : a ∉ ghFreshRegs) (fw : a ≠ R.GH_FW) (status : a ≠ R.GH_STATUS) : s.ghStopped.rn a = s.rn a := by
  rw [State.ghStopped, State.rn_setFld_of_ne status, State.rn_setFld_of_ne status, State.rn_setFld_of_ne status, State.rn_setFld_of_ne fw, State.rn_ghFresh apart]

theorem State.status_ghStopped (canonical : s.canonical = true) : s.ghStopped.rbit R.GH_STATUS 0 = false ∧ s.ghStopped.rbit R.GH_STATUS 8 = false := by
  have version := State.ghFresh_keeps (s := s) |>.setFld (a := R.GH_FW) (hi := 39) (lo := 0) (v := 0)
  constructor
  · rw [State.ghStopped, State.rbit_setFld_apart (version.setFld.setFld.2 canonical) (by decide) (by decide) (by decide),
      State.rbit_setFld_apart (version.setFld.2 canonical) (by decide) (by decide) (by decide),
      State.rbit_setFld_self (version.2 canonical) (by decide) (by decide) (by decide)]
    rfl
  · rw [State.ghStopped, State.rbit_setFld_self (version.setFld.setFld.2 canonical) (by decide) (by decide) (by decide)]
    rfl

theorem State.ghRegs_eq : s.ghRegs = (List.finRange 16).foldl (fun t (m : Fin 16) => t.setFld (R.GH_MB_STATUS m) 1 1 0) s.ghStopped := rfl

theorem State.rn_ghRegs (apart : ∀ m : Fin 16, a ≠ R.GH_MB_STATUS m) : s.ghRegs.rn a = s.ghStopped.rn a := by
  rw [State.ghRegs_eq]
  exact List.foldlRecOn (motive := fun t : State => t.rn a = s.ghStopped.rn a) _ _ rfl fun _ same m _ => (State.rn_setFld_of_ne (apart m)).trans same

theorem State.busy_ghRegs (canonical : s.canonical = true) : s.ghRegs.rbit (R.GH_MB_STATUS m) 0 = s.rbit (R.GH_MB_STATUS m) 0 := by
  have stopped : s.ghStopped.rbit (R.GH_MB_STATUS m) 0 = s.rbit (R.GH_MB_STATUS m) 0 := by
    have bound := m.isLt
    refine congrArg (Nat.testBit · 0) (State.rn_ghStopped ?_ ?_ ?_)
    · intro listed
      simp only [ghFreshRegs, List.mem_cons, List.not_mem_nil, or_false] at listed
      unfold R.GH_MB_STATUS R.GH_HMB_BASE R.GH_HMB_LIMIT R.GH_LOG_CFG R.GH_PHASE_BASE R.GH_PHASE_CFG R.GH_PHASE_SEQ at listed
      omega
    · unfold R.GH_MB_STATUS R.GH_FW
      omega
    · unfold R.GH_MB_STATUS R.GH_STATUS
      omega
  rw [State.ghRegs_eq]
  refine (List.foldlRecOn (motive := fun t : State => t.canonical = true ∧ t.rbit (R.GH_MB_STATUS m) 0 = s.rbit (R.GH_MB_STATUS m) 0) _ _
    ⟨State.ghStopped_keeps.2 canonical, stopped⟩ fun t same k _ => ⟨(State.Keeps.refl t).setFld.2 same.1, ?_⟩).2
  rw [State.rbit_setFld_apart same.1 (by decide) (by decide) (.inr (.inl (by decide))), same.2]

/-- Registers alone change. -/
def State.RegWork (s t : State) : Prop := ∃ regs, t = { s with regs := regs }

theorem State.RegWork.refl (s : State) : s.RegWork s := ⟨s.regs, rfl⟩

theorem State.RegWork.setReg {v : W64} (h : s.RegWork t) : s.RegWork (t.setReg a v) := by
  obtain ⟨regs, rfl⟩ := h
  exact ⟨_, rfl⟩

theorem State.RegWork.setFld {hi lo v : Nat} (h : s.RegWork t) : s.RegWork (t.setFld a hi lo v) := h.setReg

theorem State.RegWork.ghFresh (s : State) : s.RegWork s.ghFresh := by
  unfold State.ghFresh
  exact List.foldlRecOn (motive := s.RegWork) _ _ (.refl s) fun _ h _ _ => h.setReg

theorem State.RegWork.ghRegs (s : State) : s.RegWork s.ghRegs := by
  rw [State.ghRegs_eq]
  exact List.foldlRecOn (motive := s.RegWork) _ _ (State.RegWork.ghFresh s).setFld.setFld.setFld.setFld fun _ h _ _ => h.setFld

/-! ### Requests that a start ends -/

/-- A busy pair's request ends with status 9. -/
def State.endBusy (s : State) (m : Fin 16) : State := if s.rbit (R.GH_MB_STATUS m) 0 then s.respond m 9 [] else s

theorem State.endBusy_frame (s : State) (m : Fin 16) : ∃ b, s.endBusy m = { s with gate := { s.gate with boxes := b } } :=
  ite_holds (p := fun t : State => ∃ b, t = { s with gate := { s.gate with boxes := b } }) ⟨_, rfl⟩ ⟨s.gate.boxes, rfl⟩

theorem State.respond_self {st : Nat} {res : Bytes} : ((s.respond m st res).box m).result = some (st, res) :=
  congrArg Mailbox.result (Vector.getElem_set_self m.isLt)

theorem State.respond_result {k : Fin 16} (ended : (s.box m).result = some (9, [])) : ((s.respond k 9 []).box m).result = some (9, []) := by
  by_cases same : m = k
  · rw [same]
    exact State.respond_self
  · have other : (s.respond k 9 []).box m = s.box m := Vector.getElem_set_ne k.isLt m.isLt fun eq => same (Fin.ext eq.symm)
    rw [other, ended]

theorem State.endBusy_result {k : Fin 16} (ended : (s.box m).result = some (9, [])) : ((s.endBusy k).box m).result = some (9, []) := by
  unfold State.endBusy
  split
  · exact State.respond_result ended
  · exact ended

theorem State.ends_result : ∀ (l : List (Fin 16)) (s : State), m ∈ l ∧ s.rbit (R.GH_MB_STATUS m) 0 = true ∨ (s.box m).result = some (9, []) →
    ((l.foldl State.endBusy s).box m).result = some (9, [])
  | [], _, due => due.elim (fun busy => absurd busy.1 List.not_mem_nil) id
  | k :: l, s, due => by
    refine State.ends_result l (s.endBusy k) ?_
    obtain ⟨listed, busy⟩ | ended := due
    · obtain rfl | later := List.mem_cons.1 listed
      · refine .inr ?_
        rw [State.endBusy, if_pos busy]
        exact State.respond_self
      · obtain ⟨b, frame⟩ := s.endBusy_frame k
        exact .inl ⟨later, by rw [frame]; exact busy⟩
    · exact .inr (State.endBusy_result ended)

theorem State.ends_frame (l : List (Fin 16)) (s : State) : ∃ b, l.foldl State.endBusy s = { s with gate := { s.gate with boxes := b } } :=
  List.foldlRecOn (motive := fun t : State => ∃ b, t = { s with gate := { s.gate with boxes := b } }) l _ ⟨s.gate.boxes, rfl⟩ fun t ⟨b, same⟩ m _ => by
    obtain ⟨b', frame⟩ := t.endBusy_frame m
    exact ⟨b', by rw [frame, same]⟩

/-! ### The watchdog (R395) -/

/-- The requests that run ended. -/
def State.ghEnded (s : State) : State := (List.finRange 16).foldl State.endBusy s.ghRegs

theorem State.ghRestart_eq : s.ghRestart =
    ((s.ghEnded.modGate (fun g => { g with boxes := g.boxes.map (fun b => { b with fw := false, stage := false }), peer := none })).modPwr (fun p => { p with romStart := true })).cmRestart := rfl

/-- What a start leaves: registers, requests, a peer's image, the ROM's start and the commit's state apart, everything. -/
theorem State.ghRestart_frame (s : State) : ∃ regs boxes pwr cm,
    s.ghRestart = { s with regs := regs, gate := { s.gate with boxes := boxes, peer := none }, pwr := pwr, cm := cm } := by
  obtain ⟨regs, registers⟩ := State.RegWork.ghRegs s
  obtain ⟨boxes, ended⟩ := State.ends_frame (List.finRange 16) s.ghRegs
  rw [State.ghRestart_eq, State.ghEnded, ended, registers]
  exact ⟨_, _, _, _, rfl⟩

theorem State.ghRestart_rn (a : Nat) : s.ghRestart.rn a = s.ghRegs.rn a := by
  obtain ⟨boxes, ended⟩ := State.ends_frame (List.finRange 16) s.ghRegs
  have restarted : s.ghRestart.regs = s.ghEnded.regs := by rw [State.ghRestart_eq, State.cmRestart, State.modCm_regs, State.modPwr_regs, State.modGate_regs]
  exact State.rn_of_regs (restarted.trans (by rw [State.ghEnded, ended])) a

theorem State.ghRestart_rom : s.ghRestart.pwr.romStart = true := rfl
theorem State.ghRestart_commit : s.ghRestart.cm.restarted = true := rfl

theorem State.ghRestart_ends (canonical : s.canonical = true) (busy : s.rbit (R.GH_MB_STATUS m) 0 = true) : (s.ghRestart.box m).result = some (9, []) := by
  have ended := State.ends_result (m := m) (List.finRange 16) s.ghRegs (.inl ⟨List.mem_finRange m, (State.busy_ghRegs canonical).trans busy⟩)
  have cleared : s.ghRestart.box m = { s.ghEnded.box m with fw := false, stage := false } := Vector.getElem_map _ m.isLt
  rw [cleared]
  exact ended

/-- The watchdog's count and its event. -/
def State.barked (s : State) : State :=
  (s.setRn R.GH_WDT ((s.rn R.GH_WDT + 1) % 2 ^ 32)).ev 0xB20 0xFF (leBytes 4 (s.rfld R.GH_FW 31 0) ++ leBytes 1 (b2n (s.rbit R.GH_STATUS 9)))

/-- The tries of a trial that runs are over. -/
def State.tried (s : State) : State := if s.onTrial then s.setBoot { s.boot with tries := 0 } else s

theorem State.watchdog_eq : s.watchdog = s.barked.tried.ghRestart := rfl

theorem State.barked_notes : (s.setRn R.GH_WDT ((s.rn R.GH_WDT + 1) % 2 ^ 32)).Notes s.barked := State.ev_notes ..

theorem State.barked_gate : s.barked.gate = s.gate := by rw [State.barked, State.ev_gate, State.setRn_gate]

theorem State.rn_barked (high : ¬pendingAt a) (apart : a ≠ R.GH_WDT) : s.barked.rn a = s.rn a :=
  (State.rn_ev_apart high ..).trans (State.rn_setRn_of_ne apart)

theorem State.count_barked (canonical : s.canonical = true) : s.barked.rn R.GH_WDT = (s.rn R.GH_WDT + 1) % 2 ^ 32 := by
  rw [State.barked, State.rn_ev_apart (not_pendingAt (by decide)), State.rn_setRn_self canonical]
  omega

theorem State.barked_onTrial : s.barked.onTrial = s.onTrial := by
  have status : s.barked.rn R.GH_STATUS = s.rn R.GH_STATUS := State.rn_barked (not_pendingAt (by decide)) (by decide)
  simp only [State.onTrial, State.boot_of_boots (congrArg Gate.boots s.barked_gate), State.rbit, State.runSlot, State.rfld, status]

/-- Only the boot record changes where a trial runs. -/
theorem State.tried_frame (s : State) : ∃ boots, s.tried = { s with gate := { s.gate with boots := boots } } :=
  ite_holds (p := fun t : State => ∃ boots, t = { s with gate := { s.gate with boots := boots } }) ⟨_, rfl⟩ ⟨s.gate.boots, rfl⟩

theorem State.rn_watchdog (a : Nat) : s.watchdog.rn a = s.barked.tried.ghRegs.rn a := State.ghRestart_rn a

section Watchdog
variable (canonical : s.canonical = true)
include canonical

theorem State.tried_canonical : s.barked.tried.canonical = true :=
  (State.Keeps.ite (State.Keeps.refl s).setRn.ev.setBoot (State.Keeps.refl s).setRn.ev : s.Keeps s.barked.tried).2 canonical

theorem State.watchdog_status : s.watchdog.rbit R.GH_STATUS 0 = false ∧ s.watchdog.rbit R.GH_STATUS 8 = false := by
  have apart (m : Fin 16) : R.GH_STATUS ≠ R.GH_MB_STATUS m := by
    unfold R.GH_STATUS R.GH_MB_STATUS
    omega
  have same : s.watchdog.rn R.GH_STATUS = s.barked.tried.ghStopped.rn R.GH_STATUS := (State.rn_watchdog _).trans (State.rn_ghRegs apart)
  obtain ⟨stopped, slot⟩ := State.status_ghStopped (State.tried_canonical canonical)
  exact ⟨(congrArg (Nat.testBit · 0) same).trans stopped, (congrArg (Nat.testBit · 8) same).trans slot⟩

theorem State.watchdog_count : s.watchdog.rn R.GH_WDT = (s.rn R.GH_WDT + 1) % 2 ^ 32 := by
  have apart (m : Fin 16) : R.GH_WDT ≠ R.GH_MB_STATUS m := by
    unfold R.GH_WDT R.GH_MB_STATUS
    omega
  obtain ⟨boots, frame⟩ := s.barked.tried_frame
  rw [State.rn_watchdog, State.rn_ghRegs apart, State.rn_ghStopped (by decide) (by decide) (by decide), State.rn_of_regs (s := s.barked) (by rw [frame]),
    State.count_barked canonical]

theorem State.watchdog_ends {m : Fin 16} (busy : s.rbit (R.GH_MB_STATUS m) 0 = true) : (s.watchdog.box m).result = some (9, []) := by
  refine State.ghRestart_ends (State.tried_canonical canonical) ?_
  obtain ⟨boots, frame⟩ := s.barked.tried_frame
  have kept : s.barked.tried.rn (R.GH_MB_STATUS m) = s.rn (R.GH_MB_STATUS m) := by
    rw [State.rn_of_regs (s := s.barked) (by rw [frame])]
    refine State.rn_barked (not_pendingAt (.inr ?_)) ?_
    · unfold R.GH_MB_STATUS GH.base HX.base
      omega
    · unfold R.GH_MB_STATUS R.GH_WDT
      omega
  exact (congrArg (Nat.testBit · 0) kept).trans busy

end Watchdog

theorem State.watchdog_boots : s.watchdog.gate.boots = s.barked.tried.gate.boots := by
  obtain ⟨regs, boxes, pwr, cm, frame⟩ := s.barked.tried.ghRestart_frame
  rw [State.watchdog_eq, frame]

theorem State.watchdog_holds : s.watchdog.mem = s.mem ∧ s.watchdog.benches = s.benches := by
  obtain ⟨regs, boxes, pwr, cm, frame⟩ := s.barked.tried.ghRestart_frame
  obtain ⟨boots, tried⟩ := s.barked.tried_frame
  rw [State.watchdog_eq, frame, tried]
  exact ⟨by rw [State.barked, State.ev_mem, State.setRn_mem], by rw [State.barked, State.ev_benches, State.setRn_benches]⟩

theorem State.watchdog_trial (trial : s.onTrial = true) : s.watchdog.gate.boots = (s.setBoot { s.boot with tries := 0 }).gate.boots := by
  have same : s.barked.gate.boots = s.gate.boots := congrArg Gate.boots s.barked_gate
  rw [State.watchdog_boots, State.tried, State.barked_onTrial, if_pos trial, State.boot_of_boots same, State.setBoot_of_boots same]

theorem State.watchdog_idle (idle : s.onTrial = false) : s.watchdog.gate.boots = s.gate.boots := by
  rw [State.watchdog_boots, State.tried, State.barked_onTrial, idle]
  exact congrArg Gate.boots s.barked_gate

end Restart

/-! ## SensorsClampAndThrottle -/

/-- Settles O52: each clause is the lemma of its command; `State.Reports` says what reports leave alone. -/
theorem sensorsClampAndThrottle : Obligations.SensorsClampAndThrottle := by
  unfold Obligations.SensorsClampAndThrottle
  constructor
  · intro s x o st r v off
    simp only [List.forall_mem_cons]
    exact ⟨exec_next exec_sensorSample (powered_off off), exec_next exec_throttleEnd (powered_off off), exec_next exec_clampTick (powered_off off),
      exec_next exec_powerClampUnmet (powered_off off), exec_next exec_railOvercurrent (powered_off off), fun _ none => absurd none List.not_mem_nil⟩
  intro s i d r v k canonical on ta va ca now lim cl w
  have runs {c : Instr} {f : State → State} {t : State} (row : exec c s = .next (powered s f)) (eq : f s = t) : exec c s = .next t :=
    exec_next row ((powered_on on).trans eq)
  have small : w < 2 ^ 16 := Nat.lt_of_le_of_lt (Nat.min_le_right _ _) (by decide)
  refine ⟨runs exec_sensorSample rfl, fun within => runs exec_sensorSample (railOver_within (.inr within)), fun above => ?_, fun failed => runs exec_sensorSample (if_pos failed),
    fun works => runs exec_sensorSample (ite_of_false works), ⟨_, runs exec_sensorSample rfl, currSample_fails canonical⟩, fun stack hot => ?_,
    fun cool mild calm => runs exec_sensorSample (tempSample_cool cool mild calm), fun die hot => ?_, ⟨_, runs exec_sensorSample rfl, tempSample_fails canonical⟩,
    fun cool long => runs exec_throttleEnd (if_pos (cooledFor_true (k := 8) cool long)), fun warm => runs exec_throttleEnd (ite_of_false (cooledFor_false (k := 8) warm)),
    fun cool long => ?_, fun warm => ?_, exec_ghWbTempRead, ?_, exec_ghWbCurrRead, fun works => ?_, fun failed => ?_, ?_,
    fun low above long => runs exec_powerClampUnmet (clampUnmet_reports low above long), fun met => runs exec_powerClampUnmet (clampUnmet_waits met),
    fun within => runs exec_railOvercurrent (railOver_within within), fun works above => ?_, ?_, fun stack => ?_, ?_, fun off => ?_, fun running c row => ?_⟩
  · have kept : (s.setFld (R.GH_WB_CURR r) 63 0 (max (s.rfld (R.GH_WB_CURR r) 63 32) (v % 2 ^ 32) * 2 ^ 32 + v % 2 ^ 32)).pwr.aux = true := by rw [State.setFld_pwr, on]
    exact (runs exec_sensorSample rfl).trans (exec_next exec_railOvercurrent (powered_on kept)).symm
  · obtain ⟨read, memory⟩ := tempSample_reads (i := i) (v := v) canonical
    exact ⟨_, runs exec_sensorSample rfl, tempSample_stack hot stack, read, memory⟩
  · obtain ⟨read, memory⟩ := tempSample_reads (i := i) (v := v) canonical
    obtain ⟨throttled, duty⟩ := tempSample_die canonical hot die
    exact ⟨_, runs exec_sensorSample rfl, throttled, duty, read, memory⟩
  · exact runs exec_throttleEnd (if_pos (cooledFor_true ((coolNow_stack k.isLt).trans cool) long))
  · exact runs exec_throttleEnd (ite_of_false (cooledFor_false (warm.imp_left (coolNow_stack k.isLt).trans)))
  · have twice : s.rfld va 15 0 * 65536 + s.rfld va 15 0 = s.rfld va 15 0 * 65537 := by omega
    exact exec_next exec_ghWbVoltRead (congrArg (State.setFld (s.emit (.readVal va (s.rn va))) va 47 16) twice)
  · have watts : s.counted.watts v = w := by rw [State.watts, State.rfld_counted (by decide) (by decide)]
    have clamp : s.counted.rfld R.PW_CLAMP 15 0 = cl := State.rfld_counted (by decide) (by decide)
    obtain ⟨reports, shown, duty⟩ := State.clamps_reports (s.counted_keeps.2 canonical) small
    refine ⟨_, runs exec_clampTick ((clampTick_reads works).trans (by rw [watts])), shown, reports.1.trans State.counted_mem, ?_, ?_⟩
    · rw [(reports.2 (s.counted_keeps.2 canonical)).2 _ clamp_unreported, State.rn_counted (by decide) (by decide)]
    · rw [duty, Pwr.steered_duty, State.counted_pwr, clamp]
  · exact (runs exec_clampTick (clampTick_failed failed)).trans (runs exec_clampTick clampTick_fails).symm
  · obtain ⟨l, pwr⟩ := State.mainSensorFail_pwr (s := s.counted)
    refine ⟨_, runs exec_clampTick clampTick_fails, by rw [pwr, State.counted_pwr], by rw [pwr], ?_⟩
    exact (State.Reports.refl s.counted).mainSensorFail.1.trans State.counted_mem
  · obtain ⟨l, pwr⟩ := railOver_pwr works above
    exact ⟨_, runs exec_railOvercurrent rfl, by rw [pwr], (State.Reports.refl s).railOver.1⟩
  · exact ⟨fun same => exec_next exec_pwClampWrite (setClamp_same same), fun differs => exec_next exec_pwClampWrite (setClamp_changes differs)⟩
  · intro a other
    obtain ⟨trip, throttle, warn⟩ := pwThermWrite_fields (v := v) canonical stack
    exact ⟨_, exec_pwThermWrite, trip, throttle, warn, State.rn_setRn_of_ne (by cases stack <;> decide)⟩
  · exact ⟨_, exec_ghPhaseCfgWrite, rbit_phaseCfgWrite canonical, phaseCfgWrite_mem, size_phaseCfgWrite canonical, seq_phaseCfgWrite canonical⟩
  · exact ⟨exec_next exec_ghWatchdog (ite_of_false off), exec_next exec_ghSramError (ite_of_false off)⟩
  · have barks : exec c s = .next s.watchdog := by
      obtain rfl | rfl := by simpa using row
      · exact exec_next exec_ghWatchdog (if_pos running)
      · exact exec_next exec_ghSramError (if_pos running)
    obtain ⟨stopped, slot⟩ := State.watchdog_status canonical
    obtain ⟨memory, benches⟩ := s.watchdog_holds
    refine ⟨_, barks, State.ghRestart_rom, stopped, State.watchdog_count canonical, State.ghRestart_commit, slot, fun m busy => State.watchdog_ends canonical busy,
      fun trial try' same => ?_, fun idle => State.boot_of_boots (State.watchdog_idle (State.onTrial_eq_false.2 idle)), memory, benches⟩
    have boots := State.watchdog_trial (State.onTrial_eq_true.2 ⟨trial, try', same⟩)
    refine ⟨boots, fun room => ?_⟩
    rw [State.boot_of_boots boots, State.boot_setBoot room]
    exact ⟨rfl, trial⟩

end Sys2Proof.Machine

namespace Sys2Proof.Machine

/-! ## Power events and start-up: the image that stage 6 puts in force again (R323, R411, R413) -/

/-! ### An epoch that brings an image -/

section Switch
variable {s : State} {m : StageMsg}

theorem State.nextCfg_regs : s.nextCfg.regs = s.regs := rfl

/-- The image of an epoch is written between the pair that takes force and the membership's state. -/
theorem State.switchTo_takes (takes : s.takes m = true) : ∃ a, (s.inForce m).OnLinks a
    ∧ ((a.applyImage (s.stagedImage m)).nextCfg.modMb (s.membIn m)).OnLinks (s.switchTo m) := by
  unfold State.switchTo
  extract_lets old was l inNew s1 s2 fresh s3 s4 takes' s5 s6 s7 s8 s9 s10 s11 s12
  have links : s3.OnLinks s4 := .foldl (fun h => .ite h (.ite h.quarantine (.ite h.modPort h))) (.refl s3)
  have image : s5 = (s4.applyImage (s.stagedImage m)).nextCfg := if_pos takes
  have logged : s6.OnLinks s8 := .foldl (fun h => h.ev) (.foldl (fun h => h.ev) (State.OnLinks.refl s6).ev)
  have nine : s6.OnLinks s9 := .ite logged.release logged
  have ten : s6.OnLinks s10 := .ite nine.release nine
  have changed : s6.OnLinks s11 := .ite ten.release ten
  have cleared : s6.OnLinks s12 := .foldl (fun h => .ite h.sendDigest.tryClear h) changed
  refine ⟨s4, links, ?_⟩
  rw [← image]
  exact cleared.cmEpoch

/-- The image of an epoch has the last word on the router's registers. -/
theorem State.switchTo_takes_rn (canonical : s.canonical = true) (takes : s.takes m = true) {k : Nat} (place : 0x2000 ≤ k ∧ k < 0x2800) :
    ∃ a : State, a.canonical = true ∧ (s.switchTo m).rn (LK.base 0 + k) = (a.applyImage (s.stagedImage m)).rn (LK.base 0 + k) := by
  obtain ⟨a, links, rest⟩ := State.switchTo_takes takes
  have canonical' : a.canonical = true := (links.counts (State.inForce_canonical canonical)).1
  have applied : ((a.applyImage (s.stagedImage m)).nextCfg.modMb (s.membIn m)).canonical = true := (State.Keeps.refl a).applyImage.nextCfg.modMb.2 canonical'
  have same : ((a.applyImage (s.stagedImage m)).nextCfg.modMb (s.membIn m)).regs = (a.applyImage (s.stagedImage m)).regs := by rw [State.modMb_regs, State.nextCfg_regs]
  exact ⟨a, canonical', (rest.rn_router applied place).trans (State.rn_of_regs same _)⟩

end Switch

/-! ### The ports enabled and epoch 1 formed (R318, R327, R413) -/

section Six
variable {s : State} {us : Nat}

/-- The links on, before their ports are enabled. -/
def State.linksOn (s : State) (us : Nat) : State :=
  ((s.freshLinks.setDomains [28, 29, 30, 31] true).setRn (R.PW_STAGE_TIME 6) us).modPwr (fun p => { p with ready := true })

/-- Every port enabled. -/
def State.portsOn (s : State) (us : Nat) : State := (List.finRange 16).foldl (fun t p => lkEnable t p true) (s.linksOn us)

/-- The change to epoch 1 of a module alone. -/
def State.founding (s : State) : StageMsg := { epoch := 1, digest := recordDigest s.mb.image [s.straps] 1, added := [s.straps], full := some [s.straps] }

theorem startStage6_runs (due : s.stageDue 6 = true) (early : s.pwr.ready = false) : startStage6 s us =
    if (s.linksOn us).mb.image.isEmpty then s.linksOn us
    else if Img.solo (s.portsOn us).mb.image || Img.founder (s.portsOn us).mb.image == (s.portsOn us).straps then (s.portsOn us).switchTo (s.portsOn us).founding
    else ((s.portsOn us).modMb (fun b => { b with joining := true })).sendJoin := by
  unfold startStage6 State.founding State.portsOn State.linksOn
  exact if_neg (by rw [due, early]; decide)

theorem startStage6_founds (due : s.stageDue 6 = true) (early : s.pwr.ready = false) (image : (s.linksOn us).mb.image.isEmpty = false)
    (alone : Img.solo (s.portsOn us).mb.image = true) : startStage6 s us = (s.portsOn us).switchTo (s.portsOn us).founding := by
  rw [startStage6_runs due early, image, alone]
  rfl

theorem lkEnable_onLinks (s : State) (p : Fin 16) : (s.setFld (R.LK_CTRL p) 0 0 1).OnLinks (lkEnable s p true) := .ite (State.OnLinks.refl _).portTo (.refl _)

theorem lkEnable_member (canonical : s.canonical = true) (p : Fin 16) : (lkEnable s p true).member = s.member := by
  have enabled : (s.setFld (R.LK_CTRL p) 0 0 1).canonical = true := (State.Keeps.refl s).setFld.2 canonical
  have apart : LK.base 0 + 0x2000 ≠ R.LK_CTRL p := by
    unfold R.LK_CTRL LK.base
    omega
  have number : (lkEnable s p true).rn (LK.base 0 + 0x2000) = s.rn (LK.base 0 + 0x2000) :=
    ((lkEnable_onLinks s p).rn_router enabled (by decide)).trans (State.rn_setFld_of_ne apart)
  exact congrArg (Nat.testBit · 16) number

/-- Enabling the ports keeps the canonical form and the membership. -/
theorem State.portsOn_keeps (on : (s.linksOn us).canonical = true) : (s.portsOn us).canonical = true ∧ (s.portsOn us).member = (s.linksOn us).member
    ∧ (s.portsOn us).mb = (s.linksOn us).mb := by
  unfold State.portsOn
  refine List.foldlRecOn (motive := fun t : State => t.canonical = true ∧ t.member = (s.linksOn us).member ∧ t.mb = (s.linksOn us).mb) _ _ ⟨on, rfl, rfl⟩
    fun t kept p _ => ?_
  obtain ⟨canonical, member, mb⟩ := kept
  exact ⟨(State.Keeps.refl t).lkEnable.2 canonical, (lkEnable_member canonical p).trans member, (lkEnable_onLinks t p).mb.trans mb⟩

/-- Epoch 1 of a module that was no member brings the image in force again, where that image is the one staged. -/
theorem State.founding_takes (alone : s.member = false) (staged : s.mb.newImage = some s.mb.image) : s.takes s.founding = true := by
  have members : s.stagedMembers s.founding = [s.straps] := if_neg (by rw [alone]; exact Bool.false_ne_true)
  rw [State.takes, staged, members]
  exact beq_self_eq_true _

end Six

/-! ### An image that names LK_EPOCH -/

/-- An image of one entry, 7 to LK_EPOCH, that founds an epoch alone. It is not sound, since no entry may name LK_EPOCH, so stage 3 takes no such image. -/
def epochImage : Bytes := [0, 0, 0, 0, 0, 0, 1, 0] ++ List.replicate 6 0 ++ [1] ++ List.replicate 113 0 ++ leBytes 8 R.LK_EPOCH ++ leBytes 8 7

/-- Stage 6 is due, and the image in force is also the one staged. -/
def epochState : State := { regs := [(R.PW_STATUS, 1), (R.GH_STATUS, 6 * 2 ^ 24)], mb := { image := epochImage, newImage := some epochImage } }

theorem epochImage_entries : Img.entries epochImage = [(R.LK_EPOCH, 7)] := by decide

/-- Every bit of LK_EPOCH takes a write. -/
theorem regAt_epoch : regAt R.LK_EPOCH = some ⟨0x2030, 1, 8, 2 ^ 64 - 1, 0, 0, 0⟩ := by decide

theorem RegDef.written_epoch (old v : Nat) : RegDef.written ⟨0x2030, 1, 8, 2 ^ 64 - 1, 0, 0, 0⟩ old (2 ^ 64 - 1) v = v % 2 ^ 64 := by
  have every : BitVec.ofNat 64 (2 ^ 64 - 1) = BitVec.allOnes 64 := by decide
  simp only [RegDef.written, Nat.or_zero, every, BitVec.and_allOnes, BitVec.not_allOnes, BitVec.and_zero, BitVec.zero_or, BitVec.zero_and, BitVec.not_zero, BitVec.toNat_ofNat]

theorem State.accessWrite_of_regAt {s : State} {a be v : Nat} {r : RegDef} (reg : regAt a = some r) : s.accessWrite a be v = s.setRn a (r.written (s.rn a) be v) := by
  rw [State.accessWrite, reg]

/-- An entry that names LK_EPOCH is written by the access codes of its fields. -/
theorem State.applyEntry_epoch {s : State} {v : Nat} : s.applyEntry (R.LK_EPOCH, v) = s.accessWrite R.LK_EPOCH (2 ^ 64 - 1) v := by
  have noStack : (List.finRange 8).find? (fun (k : Fin 8) => R.LK_EPOCH == R.UE_VT_CFG k.val) = none := by decide
  have die : R.LK_EPOCH ≠ R.PW_THERM := by decide
  have stack : R.LK_EPOCH ≠ R.PW_STACK_THERM := by decide
  rw [State.applyEntry, if_neg die, if_neg stack, noStack]

theorem epochImage_applied {a : State} (canonical : a.canonical = true) : (a.applyImage epochImage).rn R.LK_EPOCH = 7 := by
  have torus : (a.setRn R.LK_TORUS (Img.torus epochImage)).canonical = true := (a.setRn_keeps _ _).2 canonical
  have entry : a.applyImage epochImage = (a.setRn R.LK_TORUS (Img.torus epochImage)).applyEntry (R.LK_EPOCH, 7) := by
    rw [State.applyImage, epochImage_entries]
    rfl
  rw [entry, State.applyEntry_epoch, State.accessWrite_of_regAt regAt_epoch, State.rn_setRn torus, if_pos rfl, RegDef.written_epoch]
  rfl

theorem epochState_linksOn : (epochState.linksOn 0).member = false ∧ (epochState.linksOn 0).mb = epochState.mb := ⟨by decide, rfl⟩

theorem epochState_portsOn : (epochState.portsOn 0).canonical = true ∧ (epochState.portsOn 0).member = false ∧ (epochState.portsOn 0).mb = epochState.mb := by
  obtain ⟨member, mb⟩ := epochState_linksOn
  have on : (epochState.linksOn 0).canonical = true := (State.Keeps.refl epochState).freshLinks.setDomains.setRn.modPwr.2 (by decide)
  obtain ⟨canonical, member', mb'⟩ := State.portsOn_keeps on
  exact ⟨canonical, member'.trans member, mb'.trans mb⟩

/-- Stage 6 ends in epoch 7: epoch 1 takes force, and the image's entry is written after it. -/
theorem epochState_epoch : (startStage6 epochState 0).epoch = 7 := by
  obtain ⟨-, mb⟩ := epochState_linksOn
  obtain ⟨canonical, member, mb'⟩ := epochState_portsOn
  have image : (epochState.portsOn 0).mb.image = epochImage := by rw [mb']; rfl
  have staged : (epochState.portsOn 0).mb.newImage = some (epochState.portsOn 0).mb.image := by rw [mb']; rfl
  have takes := State.founding_takes member staged
  have brought : (epochState.portsOn 0).stagedImage (epochState.portsOn 0).founding = epochImage := by
    rw [State.stagedImage, takes, if_pos rfl, staged, image]
    rfl
  have runs : startStage6 epochState 0 = (epochState.portsOn 0).switchTo (epochState.portsOn 0).founding :=
    startStage6_founds (by decide) rfl (by rw [mb]; rfl) (by rw [image]; decide)
  obtain ⟨a, canonical', epoch⟩ := State.switchTo_takes_rn canonical takes (k := 0x2030) (by decide)
  rw [brought, show LK.base 0 + 0x2030 = R.LK_EPOCH from rfl, epochImage_applied canonical'] at epoch
  rw [State.epoch, runs, epoch]

/-- Refutes O53: the statement asks for epoch 1 after a stage 6 that founds one, of every canonical state. Where the image in force is also the one staged
(newImage), the epoch brings it, and its entries are written after LK_EPOCH; the image of `epochState` names LK_EPOCH, and stage 6 ends in epoch 7.
Stage 3 takes no such image, so the clause lacks the hypothesis that the image in force is sound. -/
theorem not_powerEventsAndStartUp : ¬ Obligations.PowerEventsAndStartUp := by
  unfold Obligations.PowerEventsAndStartUp
  intro h
  obtain ⟨-, -, -, -, -, -, -, -, -, -, -, -, -, -, -, -, -, -, -, -, -, -, -, -, -, -, -, -, -, -, -, -, -, -, image, -⟩ :=
    h epochState 0 0 0 0 0 false false false false 0 0 (by decide)
  obtain ⟨t, runs, -, founds, -⟩ := image (by decide) rfl (by decide)
  have same : startStage6 epochState 0 = t := Host.Outcome.next.inj runs
  obtain ⟨-, epoch⟩ := founds (by decide) (by decide)
  rw [← same, epochState_epoch] at epoch
  exact absurd epoch (by decide)

end Sys2Proof.Machine
